-- ==== Sys2Proof/Word.lean ====
section
/-! DEFINITION. Sys2Proof/Word.lean: the byte type of the byte-addressed memories and of every datagram, frame and image. -/
namespace Sys2Proof

/-- One byte of a memory, a frame or an image. -/
abbrev Byte := BitVec 8

/-- A sequence of bytes, lowest address or first on the wire first. -/
abbrev Bytes := List Byte

end Sys2Proof
end

