-- ==== Sys2Proof/Syntax.lean ====
section
/-! DEFINITION. Sys2Proof/Syntax.lean: the commands of the block, one constructor per row of spec/opcode_table.json, with
the operands the model gives it (the table gives no operand fields; log entry 2). `dt` is the time in ns that has passed since
the command before it; `c` a cluster, `s` a stream, `e` a signal engine, `m` a mould, `x` a context, `p` a port. -/
namespace Sys2Proof

/-- The commands, in the order of spec/opcode_table.json. -/
inductive Instr where
  | registerWrite (req : Nat) (addr : Nat) (value : Nat)  -- REGISTER_WRITE, R14
  | csrInvalidAccess (req : Nat) (addr : Nat) (write : Bool) (value : Nat)  -- CSR_INVALID_ACCESS, R609
  | disabledClusterAccess (req : Nat) (addr : Nat) (write : Bool) (value : Nat)  -- DISABLED_CLUSTER_ACCESS, R20
  | govCtrlWrite (req : Nat) (f : Nat) (value : Nat)  -- GOV_CTRL_WRITE, R85
  | governorSample (dt : Nat) (f : Nat) (rate : Nat) (slowest : Nat)  -- GOVERNOR_SAMPLE, R84
  | shedStageLift (dt : Nat) (f : Nat)  -- SHED_STAGE_LIFT, R90
  | fieldRejoin (dt : Nat) (f : Nat)  -- FIELD_REJOIN, R79
  | meshFrameEnd (f : Nat) (lost : Nat) (m : Nat) (x : Nat) (c : Nat)  -- MESH_FRAME_END, R77
  | holdingExpiry (dt : Nat) (c : Nat) (a : Nat)  -- HOLDING_EXPIRY, R93
  | preWarm (dt : Nat) (m : Nat) (c : Nat) (i : Nat)  -- PRE_WARM, R94
  | rampUpGrant (f : Nat) (done : Bool)  -- RAMP_UP_GRANT, R95
  | crossingItem (d : Nat) (toCore : Bool) (taken : Nat)  -- CROSSING_ITEM, R98
  | clockLost (d : Nat) (pll : Bool)  -- CLOCK_LOST, R100
  | refclkLost  -- REFCLK_LOST, R101
  | refclkRestored  -- REFCLK_RESTORED, R586
  | slotEntryStart (dt : Nat) (m : Nat) (c : Nat) (i : Nat)  -- SLOT_ENTRY_START, R259
  | slotTableActivate (dt : Nat) (m : Nat)  -- SLOT_TABLE_ACTIVATE, R248
  | loanWindowOpen (dt : Nat) (m : Nat) (c : Nat) (i : Nat)  -- LOAN_WINDOW_OPEN, R261
  | loanWindowClose (dt : Nat) (m : Nat) (c : Nat) (i : Nat)  -- LOAN_WINDOW_CLOSE, R261
  | issueLimitExpiry (dt : Nat) (c : Nat) (st : Nat)  -- ISSUE_LIMIT_EXPIRY, R87
  | segmentAdmit (dt : Nat) (c : Nat) (st : Nat)  -- SEGMENT_ADMIT, R256
  | nop (c : Nat) (st : Nat)  -- NOP, R178
  | lds (c : Nat) (st : Nat)  -- LDS, R146
  | str (c : Nat) (st : Nat) (bad : Bool) (row : Nat) (col : Nat) (len : Nat)  -- STR, R137
  | replayCommit (c : Nat) (a : Nat) (ok : Bool) (row : Nat) (col : Nat)  -- REPLAY_COMMIT, R156
  | arrivalGranulePresent (c : Nat) (st : Nat) (wait : Nat)  -- ARRIVAL_GRANULE_PRESENT, R216
  | drn (c : Nat) (st : Nat)  -- DRN, R181
  | chn (c : Nat) (st : Nat)  -- CHN, R197
  | mov (c : Nat) (st : Nat)  -- MOV, R182
  | ladleMovBegin (dt : Nat) (c : Nat) (m : Nat) (x : Nat)  -- LADLE_MOV_BEGIN, R332
  | movComplete (c : Nat) (m : Nat) (x : Nat) (ecc : Nat) (word : Nat)  -- MOV_COMPLETE, R334
  | twt (c : Nat) (st : Nat)  -- TWT, R184
  | twtSatisfied (c : Nat) (st : Nat) (wait : Nat)  -- TWT_SATISFIED, R184
  | tps (c : Nat) (st : Nat)  -- TPS, R184
  | sgd (c : Nat) (st : Nat)  -- SGD, R430
  | rpt (c : Nat) (st : Nat)  -- RPT, R186
  | endSeg (c : Nat) (st : Nat)  -- END, R165
  | segmentEnd (c : Nat) (st : Nat)  -- SEGMENT_END, R193
  | waitTimeout (c : Nat) (st : Nat)  -- WAIT_TIMEOUT, R174
  | segOverrun (c : Nat) (st : Nat)  -- SEG_OVERRUN, R175
  | listLoadDone (c : Nat) (i : Nat) (ecc : Nat) (word : Nat)  -- LIST_LOAD_DONE, R191
  | digestRecordWrite (c : Nat)  -- DIGEST_RECORD_WRITE, R238
  | arrClearCounters (req : Nat) (c : Nat) (a : Nat)  -- ARR_CLEAR_COUNTERS, R157
  | arrSelfTest (req : Nat) (c : Nat) (a : Nat)  -- ARR_SELF_TEST, R163
  | selfTestDone (c : Nat) (a : Nat) (pass : Bool)  -- SELF_TEST_DONE, R163
  | mouldChilled (m : Nat)  -- MOULD_CHILLED, R247
  | operationStep (dt : Nat) (i : Nat) (ok : Bool) (ecc : Nat) (word : Nat)  -- OPERATION_STEP, R490
  | serviceDatagramRx (dt : Nat) (sub : Nat) (src : Bytes) (sport : Nat) (dst : Bytes) (dport : Nat) (d : Bytes)  -- SERVICE_DATAGRAM_RX, R271
  | svcRingWrite (req : Nat) (e : Nat) (value : Nat)  -- SVC_RING_WRITE, R272
  | serviceDatagramTx (e : Nat)  -- SERVICE_DATAGRAM_TX, R272
  | gddrGranuleServe (dt : Nat) (ch : Nat) (m : Nat) (own : Bool) (retries : Nat) (ecc : Nat) (line : Nat)  -- GDDR_GRANULE_SERVE, R284
  | cxlRequestComplete (dt : Nat) (k : Nat) (m : Nat) (poison : Bool) (malformed : Bool) (line : Nat)  -- CXL_REQUEST_COMPLETE, R292
  | cxlTimeout (dt : Nat) (k : Nat) (m : Nat)  -- CXL_TIMEOUT, R292
  | cxlLinkTrain (k : Nat) (width : Nat) (cap : Nat) (type3 : Bool) (ide : Bool)  -- CXL_LINK_TRAIN, R290
  | cxlLinkDown (k : Nat)  -- CXL_LINK_DOWN, R292
  | portTrain (dt : Nat) (p : Nat)  -- PORT_TRAIN, R308
  | portTrainRetry (dt : Nat) (p : Nat)  -- PORT_TRAIN_RETRY, R308
  | identityWordRx (p : Nat) (peer : Nat) (pport : Nat) (x : Nat) (y : Nat) (z : Nat) (epoch : Nat) (nonce : Bool)  -- IDENTITY_WORD_RX, R307
  | portDown (p : Nat) (corr : Nat) (unc : Nat)  -- PORT_DOWN, R309
  | linkWordRx (dt : Nat) (p : Nat) (w : Nat) (f : Bytes) (ok : Bool) (icv : Bool) (stomp : Bool)  -- LINK_WORD_RX, R316
  | linkReplayTimeout (dt : Nat) (p : Nat)  -- LINK_REPLAY_TIMEOUT, R316
  | frameForward (p : Nat)  -- FRAME_FORWARD, R310
  | putData (p : Nat) (ecc : Nat) (word : Nat)  -- PUT_DATA, R327
  | getReq (p : Nat) (ecc : Nat) (word : Nat)  -- GET_REQ, R333
  | storeFrame (p : Nat) (ecc : Nat) (word : Nat)  -- STORE, R328
  | loadReq (p : Nat) (ecc : Nat) (word : Nat)  -- LOAD_REQ, R328
  | atomicReq (p : Nat) (ecc : Nat) (word : Nat)  -- ATOMIC_REQ, R340
  | vreadReq (p : Nat)  -- VREAD_REQ, R337
  | ownReq (p : Nat)  -- OWN_REQ, R335
  | getResp (p : Nat)  -- GET_RESP, R333
  | loadResp (p : Nat)  -- LOAD_RESP, R337
  | atomicResp (p : Nat)  -- ATOMIC_RESP, R342
  | vreadResp (p : Nat)  -- VREAD_RESP, R337
  | ownResp (p : Nat)  -- OWN_RESP, R335
  | ack (p : Nat)  -- ACK, R322
  | nak (p : Nat)  -- NAK, R328
  | ackDelayExpiry (dt : Nat) (dev : Nat) (m : Nat)  -- ACK_DELAY_EXPIRY, R322
  | frameResendTimeout (dt : Nat) (dev : Nat) (m : Nat) (seq : Nat)  -- FRAME_RESEND_TIMEOUT, R324
  | atomicResend (dt : Nat) (id : Nat)  -- ATOMIC_RESEND, R342
  | atomicGiveUp (dt : Nat) (id : Nat)  -- ATOMIC_GIVE_UP, R342
  | opTimeout (dt : Nat) (id : Nat)  -- OP_TIMEOUT, R331
  | collHello (p : Nat)  -- COLL_HELLO, R350
  | collPart (p : Nat) (retry : Bool) (fail : Bool)  -- COLL_PART, R357
  | collResult (p : Nat)  -- COLL_RESULT, R358
  | collCredit (p : Nat)  -- COLL_CREDIT, R364
  | collData (p : Nat)  -- COLL_DATA, R361
  | collAbort (p : Nat)  -- COLL_ABORT, R373
  | collChunkSend (g : Nat)  -- COLL_CHUNK_SEND, R360
  | collHelloTimer (dt : Nat) (g : Nat)  -- COLL_HELLO_TIMER, R350
  | collSetupTimeout (dt : Nat) (g : Nat)  -- COLL_SETUP_TIMEOUT, R351
  | collMovSetupTimeout (dt : Nat) (c : Nat) (m : Nat) (x : Nat)  -- COLL_MOV_SETUP_TIMEOUT, R354
  | collOpTimeout (dt : Nat) (g : Nat)  -- COLL_OP_TIMEOUT, R373
  | collAbortResend (dt : Nat)  -- COLL_ABORT_RESEND, R373
  | egressFrameStart (dt : Nat) (sub : Nat)  -- EGRESS_FRAME_START, R382
  | gateIntervalStart (dt : Nat) (sub : Nat)  -- GATE_INTERVAL_START, R389
  | accessLinkDown (sub : Nat)  -- ACCESS_LINK_DOWN, R387
  | heartbeat (dt : Nat)  -- HEARTBEAT, R397
  | timeNowNsRead (dt : Nat)  -- TIME_NOW_NS_READ, R393
  | timeIncrWrite (value : Nat)  -- TIME_INCR_WRITE, R392
  | timeCtrlWrite (value : Nat)  -- TIME_CTRL_WRITE, R398
  | ptpMessageRx (dt : Nat) (sub : Nat) (ty : Nat) (seqId : Nat) (ok : Bool) (meas : Option Int)  -- PTP_MESSAGE_RX, R402
  | esmcRx (dt : Nat) (sub : Nat)  -- ESMC_RX, R403
  | esmcTimeout (dt : Nat)  -- ESMC_TIMEOUT, R573
  | timeSourceTimeout (dt : Nat)  -- TIME_SOURCE_TIMEOUT, R399
  | timeWordTx (dt : Nat) (p : Nat)  -- TIME_WORD_TX, R404
  | timeWordRx (dt : Nat) (p : Nat) (b : Bytes)  -- TIME_WORD_RX, R406
  | ppsInEdge (dt : Nat)  -- PPS_IN_EDGE, R408
  | tsCapEdge (dt : Nat) (c : Nat)  -- TS_CAP_EDGE, R408
  | timeCapNsRead (c : Nat)  -- TIME_CAP_NS_READ, R408
  | trigArm (c : Nat) (value : Nat)  -- TRIG_ARM, R409
  | trigEdge (dt : Nat) (c : Nat)  -- TRIG_EDGE, R409
  | ppsOutPulse (dt : Nat)  -- PPS_OUT_PULSE, R410
  | seNop (c : Nat) (e : Nat)  -- SE_NOP, R430
  | halt (c : Nat) (e : Nat)  -- HALT, R430
  | blk (c : Nat) (e : Nat)  -- BLK, R421
  | setp (c : Nat) (e : Nat)  -- SETP, R417
  | addp (c : Nat) (e : Nat)  -- ADDP, R417
  | seta (c : Nat) (e : Nat)  -- SETA, R419
  | ldi (c : Nat) (e : Nat)  -- LDI, R413
  | std (c : Nat) (e : Nat)  -- STD, R417
  | mvb (c : Nat) (e : Nat)  -- MVB, R432
  | lut (c : Nat) (e : Nat)  -- LUT, R417
  | seAdd (c : Nat) (e : Nat)  -- ADD, R413
  | mul (c : Nat) (e : Nat)  -- MUL, R415
  | ash (c : Nat) (e : Nat)  -- ASH, R415
  | seAbs (c : Nat) (e : Nat)  -- ABS, R413
  | seMax (c : Nat) (e : Nat)  -- MAX, R413
  | seMin (c : Nat) (e : Nat)  -- MIN, R413
  | sel (c : Nat) (e : Nat)  -- SEL, R413
  | mac (c : Nat) (e : Nat)  -- MAC, R414
  | mag2 (c : Nat) (e : Nat)  -- MAG2, R414
  | tapm (c : Nat) (e : Nat)  -- TAPM, R422
  | clra (c : Nat) (e : Nat)  -- CLRA, R414
  | rnd (c : Nat) (e : Nat)  -- RND, R415
  | job (c : Nat) (e : Nat)  -- JOB, R423
  | jobPosted (c : Nat) (e : Nat) (wait : Nat)  -- JOB_POSTED, R423
  | waitj (c : Nat) (e : Nat)  -- WAITJ, R423
  | unitJobStart (u : Nat) (ecc : Nat) (word : Nat)  -- UNIT_JOB_START, R463
  | jobComplete (u : Nat)  -- JOB_COMPLETE, R464
  | seLoadDone (c : Nat) (e : Nat) (i : Nat) (ecc : Nat) (word : Nat)  -- SE_LOAD_DONE, R427
  | fronthaulFrameRx (dt : Nat) (sub : Nat) (mac : Nat) (vid : Option Nat) (f : Bytes)  -- FRONTHAUL_FRAME_RX, R442
  | timeDomainFrameRx (dt : Nat) (sub : Nat) (mac : Nat) (vid : Option Nat) (f : Bytes)  -- TIME_DOMAIN_FRAME_RX, R451
  | unclassifiedFrameRx (dt : Nat) (sub : Nat)  -- UNCLASSIFIED_FRAME_RX, R441
  | rxWindowOpen (dt : Nat) (c : Nat)  -- RX_WINDOW_OPEN, R458
  | rxWindowClose (dt : Nat) (c : Nat)  -- RX_WINDOW_CLOSE, R445
  | cpringTailWrite (req : Nat) (c : Nat) (value : Nat)  -- CPRING_TAIL_WRITE, R448
  | cplaneRelease (dt : Nat) (c : Nat)  -- CPLANE_RELEASE, R448
  | dlSymbolRead (dt : Nat) (c : Nat) (k : Nat) (n : Nat)  -- DL_SYMBOL_READ, R449
  | dlFrameQueue (dt : Nat) (c : Nat) (k : Nat) (n : Nat)  -- DL_FRAME_QUEUE, R449
  | dlFrameExpiry (dt : Nat) (c : Nat)  -- DL_FRAME_EXPIRY, R449
  | carrierMute (dt : Nat) (c : Nat)  -- CARRIER_MUTE, R465
  | carrierUnmute (dt : Nat) (c : Nat)  -- CARRIER_UNMUTE, R465
  | ldl (c : Nat) (t : Nat) (ecc : Nat) (word : Nat)  -- LDL, R473
  | stl (c : Nat) (t : Nat) (ecc : Nat) (word : Nat)  -- STL, R473
  | atom4 (c : Nat) (t : Nat) (ecc : Nat) (word : Nat)  -- ATOM4, R473
  | atom8 (c : Nat) (t : Nat) (ecc : Nat) (word : Nat)  -- ATOM8, R473
  | own (c : Nat) (t : Nat)  -- OWN, R473
  | vread (c : Nat) (t : Nat)  -- VREAD, R473
  | fence (c : Nat) (t : Nat)  -- FENCE, R338
  | fenceComplete (c : Nat) (t : Nat)  -- FENCE_COMPLETE, R338
  | tpost (c : Nat) (t : Nat)  -- TPOST, R474
  | twait (c : Nat) (t : Nat)  -- TWAIT, R474
  | sreq (c : Nat) (t : Nat)  -- SREQ, R253
  | lload (c : Nat) (t : Nat)  -- LLOAD, R191
  | lunload (c : Nat) (t : Nat)  -- LUNLOAD, R192
  | seload (c : Nat) (t : Nat)  -- SELOAD, R426
  | cinv (c : Nat) (t : Nat)  -- CINV, R474
  | ccln (c : Nat) (t : Nat)  -- CCLN, R474
  | tspawn (c : Nat) (t : Nat)  -- TSPAWN, R468
  | park (dt : Nat) (c : Nat) (t : Nat)  -- PARK, R471
  | texit (c : Nat) (t : Nat)  -- TEXIT, R469
  | timeRead (dt : Nat) (c : Nat) (t : Nat)  -- TIME, R473
  | getst (c : Nat) (t : Nat)  -- GETST, R473
  | threadWake (dt : Nat) (c : Nat) (t : Nat)  -- THREAD_WAKE, R471
  | threadSwitchQuantum (c : Nat)  -- THREAD_SWITCH_QUANTUM, R471
  | watchdogExpiry (dt : Nat) (k : Nat)  -- WATCHDOG_EXPIRY, R477
  | hello (dt : Nat) (port : Nat) (src : Bytes) (d : Bytes)  -- HELLO, R480
  | prove (dt : Nat) (port : Nat) (src : Bytes) (d : Bytes)  -- PROVE, R480
  | record (dt : Nat) (port : Nat) (src : Bytes) (d : Bytes)  -- RECORD, R481
  | close (dt : Nat) (port : Nat) (src : Bytes) (d : Bytes)  -- CLOSE, R482
  | mgmtNonProtocolRx (port : Nat) (src : Bytes)  -- MGMT_NON_PROTOCOL_RX, R478
  | sessionProveTimeout (dt : Nat)  -- SESSION_PROVE_TIMEOUT, R480
  | sessionExpiry (dt : Nat)  -- SESSION_EXPIRY, R482
  | commandPartsTimeout (dt : Nat)  -- COMMAND_PARTS_TIMEOUT, R483
  | ident  -- IDENT, R486
  | csrRead  -- CSR_READ, R486
  | csrWrite  -- CSR_WRITE, R486
  | logRead  -- LOG_READ, R494
  | opStatus  -- OP_STATUS, R488
  | opCancel  -- OP_CANCEL, R491
  | subscribe  -- SUBSCRIBE, R494
  | pour  -- POUR, R66
  | mouldStart  -- MOULD_START, R248
  | mouldChill  -- MOULD_CHILL, R247
  | mouldQuench  -- MOULD_QUENCH, R249
  | ctxQuench  -- CTX_QUENCH, R267
  | segStart  -- SEG_START, R253
  | listLoad  -- LIST_LOAD, R191
  | listUnload  -- LIST_UNLOAD, R192
  | seLoad  -- SE_LOAD, R426
  | seUnload  -- SE_UNLOAD, R429
  | thrStart  -- THR_START, R468
  | thrStop  -- THR_STOP, R469
  | auditRun  -- AUDIT_RUN, R241
  | arrSelftest  -- ARR_SELFTEST, R487
  | hotPool  -- HOT_POOL, R262
  | hotLoad  -- HOT_LOAD, R263
  | hotPin  -- HOT_PIN, R265
  | hotUnpin  -- HOT_UNPIN, R265
  | hotEvict  -- HOT_EVICT, R265
  | hotLookup  -- HOT_LOOKUP, R265
  | svcBind  -- SVC_BIND, R269
  | svcUnbind  -- SVC_UNBIND, R269
  | groupSetup  -- GROUP_SETUP, R349
  | groupFree  -- GROUP_FREE, R352
  | groupReset  -- GROUP_RESET, R374
  | radioBind  -- RADIO_BIND, R437
  | radioUnbind  -- RADIO_UNBIND, R436
  | scan  -- SCAN, R301
  | gddrRetrain  -- GDDR_RETRAIN, R288
  | timeSet  -- TIME_SET, R400
  | ptpConfig  -- PTP_CONFIG, R401
  | ptpStatus  -- PTP_STATUS, R401
  | imageStageOpen  -- IMAGE_STAGE_OPEN, R522
  | imageStageChunk  -- IMAGE_STAGE_CHUNK, R523
  | imageStageClose  -- IMAGE_STAGE_CLOSE, R524
  | baseStageOpen  -- BASE_STAGE_OPEN, R522
  | baseStageChunk  -- BASE_STAGE_CHUNK, R523
  | baseStageClose  -- BASE_STAGE_CLOSE, R524
  | imageCommit  -- IMAGE_COMMIT, R525
  | ledgerRead (ecc : Nat) (word : Nat)  -- LEDGER_READ, R530
  | keyEnrollManager  -- KEY_ENROLL_MANAGER, R538
  | keyEnrollPattern  -- KEY_ENROLL_PATTERN, R538
  | keyEnrollQuorum  -- KEY_ENROLL_QUORUM, R565
  | keyEnrollPolicy  -- KEY_ENROLL_POLICY, R543
  | keyRevoke  -- KEY_REVOKE, R540
  | attestCapture  -- ATTEST_CAPTURE, R548
  | attestFetch  -- ATTEST_FETCH, R548
  | debugAuthRaise  -- DEBUG_AUTH_RAISE, R553
  | debugAuthDrop  -- DEBUG_AUTH_DROP, R553
  | debugAuthClearTamper  -- DEBUG_AUTH_CLEAR_TAMPER, R551
  | certApply  -- CERT_APPLY, R567
  | healthRead  -- HEALTH_READ, R572
  | blockReset  -- BLOCK_RESET, R588
  | deviceReset  -- DEVICE_RESET, R593
  | deviceResetDelayExpiry (dt : Nat)  -- DEVICE_RESET_DELAY_EXPIRY, R593
  | blkRstGo (value : Nat)  -- BLK_RST_GO, R588
  | blockResetDone (dt : Nat) (i : Nat) (trained : Nat)  -- BLOCK_RESET_DONE, R589
  | memCert (p : Nat)  -- MEM_CERT, R571
  | memCertReq (p : Nat)  -- MEM_CERT_REQ, R571
  | memCertReassemblyTimeout (dt : Nat) (p : Nat)  -- MEM_CERT_REASSEMBLY_TIMEOUT, R571
  | epochGraceExpiry (dt : Nat)  -- EPOCH_GRACE_EXPIRY, R570
  | admitPortTimeout (dt : Nat)  -- ADMIT_PORT_TIMEOUT, R555
  | candidateTimeout (dt : Nat)  -- CANDIDATE_TIMEOUT, R555
  | retainExpiry (dt : Nat)  -- RETAIN_EXPIRY, R562
  | hardLimitRate (dt : Nat)  -- HARD_LIMIT_RATE, R561
  | ueLimitClear (dt : Nat)  -- UE_LIMIT_CLEAR, R561
  | quarantineEnd (dt : Nat) (k : Nat)  -- QUARANTINE_END, R574
  | macsecVerifyTimeout (dt : Nat) (p : Nat)  -- MACSEC_VERIFY_TIMEOUT, R545
  | healthRecordTimer (dt : Nat)  -- HEALTH_RECORD_TIMER, R520
  | summaryIntervalEnd (dt : Nat)  -- SUMMARY_INTERVAL_END, R520
  | storeNet (value : Nat)  -- STORE_NET, R529
  | ledgerAppendTimeout (dt : Nat)  -- LEDGER_APPEND_TIMEOUT, R518
  | smbusClaim (payload : Bytes)  -- SMBUS_CLAIM, R537
  | tamperEvent (k : Nat) (on : Bool)  -- TAMPER_EVENT, R551
  | debugLevelExpiry (dt : Nat)  -- DEBUG_LEVEL_EXPIRY, R553
  | recoveryRequest (dt : Nat)  -- RECOVERY_REQUEST, R550
  | recoveryDataRx (d : Bytes)  -- RECOVERY_DATA_RX, R550
  | powerFail  -- POWER_FAIL, R576
  | vinOvervoltage (mV : Nat)  -- VIN_OVERVOLTAGE, R576
  | vinOutOfRange (mV : Nat)  -- VIN_OUT_OF_RANGE, R576
  | vinQualified  -- VIN_QUALIFIED, R577
  | railFault (ns : Nat)  -- RAIL_FAULT, R580
  | overpower (w : Nat)  -- OVERPOWER, R579
  | thermalCapStep (dt : Nat) (f : Nat) (tj : Int)  -- THERMAL_CAP_STEP, R31
  | thermalTrip  -- THERMAL_TRIP, R582
  | resetNAssert  -- RESET_N_ASSERT, R585
  | resetNRelease  -- RESET_N_RELEASE, R585
  | resetRelease (dt : Nat) (lost : Bool) (pufOk : Bool) (keyOk : Bool) (ecc : Nat) (word : Nat)  -- RESET_RELEASE, R587
  | firmwareStart (dt : Nat) (groups : Nat) (density : Nat) (gbps : Nat) (trained : Nat)  -- FIRMWARE_START, R36
  | tapReset  -- TAP_RESET, R600
  | idcode  -- IDCODE, R604
  | sample (pins : Nat)  -- SAMPLE, R605
  | preload (value : Nat)  -- PRELOAD, R605
  | extest (scan : Bool) (pins : Nat) (value : Nat)  -- EXTEST, R602
  | clamp  -- CLAMP, R602
  | highz  -- HIGHZ, R602
  | extestPulse (scan : Bool) (pins : Nat) (value : Nat)  -- EXTEST_PULSE, R599
  | extestTrain (scan : Bool) (pins : Nat) (value : Nat)  -- EXTEST_TRAIN, R599
  | bypass (code : Nat)  -- BYPASS, R601
  | internalScan (k : Nat)  -- INTERNAL_SCAN, R601
  | dbgChallenge  -- DBG_CHALLENGE, R606
  | dbgToken (data : Bytes)  -- DBG_TOKEN, R607
  | debugTokenVerified  -- DEBUG_TOKEN_VERIFIED, R554
  | dbgCsrRead (addr : Nat)  -- DBG_CSR_READ, R608
  | dbgCsrWrite (addr : Nat) (value : Nat)  -- DBG_CSR_WRITE, R608
  | dbgMemoryRead (space : Nat) (cluster : Nat) (addr : Nat)  -- DBG_MEMORY_READ, R608
  | rampDownComplete (c : Nat) (a : Nat)  -- RAMP_DOWN_COMPLETE, R93
  | clockRestored (d : Nat)  -- CLOCK_RESTORED, R100
  | accessLinkUp (sub : Nat)  -- ACCESS_LINK_UP, R440
  | mgmtLinkChange (port : Nat) (up : Bool)  -- MGMT_LINK_CHANGE, R482
  | mgmtCoreRestarted (dt : Nat) (k : Nat)  -- MGMT_CORE_RESTARTED, R477
  | gddrMaintenanceUnit (dt : Nat) (ch : Nat) (ce : Nat)  -- GDDR_MAINTENANCE_UNIT, R283
  | powerCapAdjust (dt : Nat) (vin : Nat) (iin : Nat) (pin : Nat) (die : Nat)  -- POWER_CAP_ADJUST, R30
  | unknownOpcodeFrameRx (p : Nat)  -- UNKNOWN_OPCODE_FRAME_RX, R328
  | mgmtIcmpv6Rx (port : Nat) (ty : Nat) (src : Bytes) (target : Bytes) (body : Bytes)  -- MGMT_ICMPV6_RX, R478
  | smbusCommandRx  -- SMBUS_COMMAND_RX, R573
  | pmbusTransferEnd (ok : Bool)  -- PMBUS_TRANSFER_END, R573
  | ptpMessageTx (dt : Nat) (sub : Nat) (ty : Nat) (seqId : Nat) (msg : Bytes)  -- PTP_MESSAGE_TX, R402
  | esmcTx (sub : Nat) (msg : Bytes)  -- ESMC_TX, R403
  | threadBaseInstruction (c : Nat) (t : Nat) (kind : Nat) (rd : Nat) (n : Nat) (sgn : Bool) (addr : Nat) (value : Nat) (next : Nat) (ecc : Nat) (word : Nat)  -- THREAD_BASE_INSTRUCTION, R470
  | alertNHoldExpiry (dt : Nat)  -- ALERT_N_HOLD_EXPIRY, R595
  deriving DecidableEq, Repr

end Sys2Proof
end

