-- ==== Sys2Proof/Decode.lean ====
section
/-! DEFINITION. Sys2Proof/Decode.lean: the command that a word of the opcode table spells. The table of this block gives its rows no
bits, so no word spells one. -/
namespace Sys2Proof

/-- No row of spec/opcode_table.json has bits: no word is a command. -/
def decodeTableWord (_nbits _w : Nat) : Option Instr := none

end Sys2Proof
end

