-- ==== Sys2Proof/Machine/Crc.lean ====
section
/-! DEFINITION. Sys2Proof/Machine/Crc.lean: the cyclic redundancy checks the manual names (CRC-32C in R39 and others, the
IEEE 802.3 CRC-32 of frames, CRC-64 of the check-value scans) and SHAKE256. -/
namespace Sys2Proof.Machine

/-- k steps of a reflected CRC with polynomial p. -/
def crcShift (p : Nat) : Nat → Nat → Nat
  | 0, c => c
  | k + 1, c => crcShift p k ((c / 2) ^^^ p * (c % 2))

/-- A reflected CRC register after the bytes; the register is a number at every byte. -/
def crcRun (p : Nat) : Nat → Bytes → Nat
  | c, [] => c
  | c, b :: bs =>
    match crcShift p 8 (c ^^^ b.toNat) with
    | 0 => crcRun p 0 bs
    | n + 1 => crcRun p (n + 1) bs

/-- CRC-32C (Castagnoli): reflected, initial value and final inversion all ones. -/
def crc32c (bs : Bytes) : Nat := crcRun 0x82F63B78 0xFFFFFFFF bs ^^^ 0xFFFFFFFF

/-- The IEEE 802.3 CRC-32. -/
def crc32 (bs : Bytes) : Nat := crcRun 0xEDB88320 0xFFFFFFFF bs ^^^ 0xFFFFFFFF

/-- The check-value polynomials of Table 10.3, reflected: 0 CRC-32C, 1 CRC-32, 2 CRC-64/XZ. -/
def scanPoly (k : Nat) : Nat := if k = 0 then 0x82F63B78 else if k = 1 then 0xEDB88320 else 0xC96C5795D7870F42

/-- Their initial value, which is also their final inversion. -/
def scanOnes (k : Nat) : Nat := if k = 2 then 2 ^ 64 - 1 else 2 ^ 32 - 1

/-- A rotation of a 64-bit lane to the left. -/
def rotl64 (x n : Nat) : Nat :=
  let r := n % 64
  (x * 2 ^ r) % 2 ^ 64 + x / 2 ^ (64 - r)

/-- Lane i of a Keccak state, which is held as one number: lane (x, y) is lane x + 5y, 64 bits from bit 64 (x + 5y) on. -/
def lane (a i : Nat) : Nat := a / 2 ^ (64 * i) % 2 ^ 64

/-- A one in each of the five lanes of a plane. -/
def laneOnes : Nat := 1 + 2 ^ 64 + 2 ^ 128 + 2 ^ 192 + 2 ^ 256

/-- A one in each of the five planes of a state. -/
def planeOnes : Nat := 1 + 2 ^ 320 + 2 ^ 640 + 2 ^ 960 + 2 ^ 1280

/-- Every plane with lane x + k of the old in lane x. -/
def lanesDown (a k : Nat) : Nat :=
  (a / 2 ^ (64 * k) &&& planeOnes * (2 ^ (64 * (5 - k)) - 1)) + (a &&& planeOnes * (2 ^ (64 * k) - 1)) * 2 ^ (64 * (5 - k))

/-- Rotation offsets of the ρ step, indexed x + 5y. -/
def keccakRho : List Nat :=
  [0, 1, 62, 28, 27, 36, 44, 6, 55, 20, 3, 10, 43, 25, 39, 41, 45, 15, 21, 8, 18, 2, 61, 56, 14]

/-- Round constants of the ι step. -/
def keccakRc : List Nat :=
  [0x0000000000000001, 0x0000000000008082, 0x800000000000808A, 0x8000000080008000,
   0x000000000000808B, 0x0000000080000001, 0x8000000080008081, 0x8000000000008009,
   0x000000000000008A, 0x0000000000000088, 0x0000000080008009, 0x000000008000000A,
   0x000000008000808B, 0x800000000000008B, 0x8000000000008089, 0x8000000000008003,
   0x8000000000008002, 0x8000000000000080, 0x000000000000800A, 0x800000008000000A,
   0x8000000080008081, 0x8000000000008080, 0x0000000080000001, 0x8000000080008008]

/-- θ: every lane takes the parities of the columns beside it. -/
def keccakTheta (a : Nat) : Nat :=
  let c := (a ^^^ a / 2 ^ 320 ^^^ a / 2 ^ 640 ^^^ a / 2 ^ 960 ^^^ a / 2 ^ 1280) % 2 ^ 320
  let e := lanesDown c 1
  let d := lanesDown c 4 ^^^ ((e &&& laneOnes * (2 ^ 63 - 1)) * 2 + (e / 2 ^ 63 &&& laneOnes))
  a ^^^ d * planeOnes

/-- ρ and π: lane (y, 2x + 3y) takes lane (x, y), rotated; read backwards, lane (X, Y) takes (X + 3Y, X). -/
def keccakMove (a : Nat) : Nat :=
  (List.range 25).foldl (fun acc i =>
    let j := (i % 5 + 3 * (i / 5)) % 5 + 5 * (i % 5)
    acc + rotl64 (lane a j) (keccakRho.getD j 0) * 2 ^ (64 * i)) 0

/-- One round of Keccak-f[1600]. -/
def keccakRound (a rc : Nat) : Nat :=
  let b := keccakMove (keccakTheta a)
  b ^^^ ((lanesDown b 1 ^^^ (2 ^ 1600 - 1)) &&& lanesDown b 2) ^^^ rc

/-- Rounds with the constants given; the state is a number at every round. -/
def keccakRounds : List Nat → Nat → Nat
  | [], a => a
  | rc :: r, a =>
    match keccakRound a rc with
    | 0 => keccakRounds r 0
    | n + 1 => keccakRounds r (n + 1)

/-- Keccak-f[1600]. -/
def keccakF (a : Nat) : Nat := keccakRounds keccakRc a

/-- The state with one 136-byte block absorbed. -/
def absorb (a : Nat) (block : Bytes) : Nat := keccakF (a ^^^ leAt block 0 136)

/-- The message with the SHAKE padding to a multiple of 136 bytes. -/
def shakePad (m : Bytes) : Bytes :=
  let k := 136 - m.length % 136
  if k = 1 then m ++ [0x9F#8] else m ++ (0x1F#8 :: List.replicate (k - 2) 0#8) ++ [0x80#8]

/-- Output blocks squeezed from a state. -/
def squeeze : Nat → Nat → Bytes
  | 0, _ => []
  | n + 1, a => toLe 136 a ++ squeeze n (keccakF a)

/-- The first n bytes of SHAKE256 over m. -/
def shake256 (n : Nat) (m : Bytes) : Bytes :=
  (squeeze (cdiv n 136) ((chunks 136 (shakePad m)).foldl absorb 0)).take n

/-- The 256-bit SHAKE256 output, as the manual uses it for every digest. -/
def digest256 (m : Bytes) : Bytes := shake256 32 m

end Sys2Proof.Machine
end

