-- ==== Sys2Proof/Config.lean ====
section
/-! DEFINITION. Sys2Proof/Config.lean: what an implementation fixes and what the manual leaves open, each an opaque
constant of which nothing can be proved, and the external algorithms the manual names but does not define. -/
namespace Sys2Proof.Config

/-- A fresh open value: the k-th, of w bits (log entry 6). -/
opaque freeValue : Nat → Nat → Nat

/-- Items a crossing FIFO of a clock domain holds (R98: it follows from the pattern's slot schedule; log entry 7). -/
opaque crossingDepth : Nat → Nat

/-- SLH-DSA verification: algorithm (1 256s, 2 192s, 3 192f), public key, message, signature (log entry 8). -/
opaque slhVerify : Nat → Bytes → Bytes → Bytes → Bool

/-- SLH-DSA signing: algorithm, private key, message. -/
opaque slhSign : Nat → Bytes → Bytes → Bytes

/-- The public key of Irkor held in the boot ROM (R42). -/
opaque irkorKey : Bytes

/-- MESH_PHYS (R48) is listed without a byte layout: whether a body is well formed (log entry 9). -/
opaque meshPhysOk : Bytes → Bool

/-- The number of links a MESH_PHYS body lists. -/
opaque meshLinks : Bytes → Nat

/-- Link l of a MESH_PHYS body: from endpoint, to endpoint, hop beats. -/
opaque meshLink : Bytes → Nat → Nat × Nat × Nat

/-- The field of a mesh node code at or above 0x0100 in a MESH_PHYS body. -/
opaque meshNodeField : Bytes → Nat → Nat

/-- The firmware arithmetic library of a signal engine (R425), by firmware library code: word i of its program memory. -/
opaque seLibWord : Nat → Nat → Nat

/-- Whether word i is an entry point of a library program, and that program's header flags (Table 14.3). -/
opaque seLibEntry : Nat → Nat → Bool × Nat

/-- What AES-256-XTS (R294) yields for byte i of a 64-byte line that was stored under one tag and is read under another:
a tag names the key generation, the mould and the line address, and 0 is no encryption (log entry 8). -/
opaque xtsByte : Nat → Nat → Bytes → Nat → Byte

/-- Byte i of the AES-256-GCM key stream of a key and a 96-bit nonce (log entry 8). -/
opaque gcmByte : Bytes → Bytes → Nat → Byte

/-- The AES-256-GCM tag of a key, a nonce, the associated data and the ciphertext. -/
opaque gcmTag : Bytes → Bytes → Bytes → Bytes → Bytes

/-- The key-wrapping key derived from the PUF's root secret (R532), which nothing outside the security engine reads. -/
opaque wrapKey : Bytes

/-- The identity private key derived from the root secret (R532). -/
opaque identKey : Bytes

/-- The digest of the boot ROM that measurement register 0 takes (Table 18.2). -/
opaque romDigest : Bytes

/-- ML-KEM-1024 encapsulation to a key with the randomness of draw n (R479; log entry 8): the ciphertext. -/
opaque kemCipher : Bytes → Nat → Bytes

/-- The shared secret of that encapsulation. -/
opaque kemSecret : Bytes → Nat → Bytes

/-- The device's own MAC address on an access sub-port, which the manual does not give (log entry 45). -/
opaque accessMac : Nat → Nat

/-- The channel coding of 3GPP TS 38.212 (Table 15.13), which the manual names and does not define (log entry 8): operation, parameters
p0 to p2, flags, input and HARQ buffer give the output. -/
opaque coded : Nat → Nat → Nat → Nat → Nat → Bytes → Bytes → Bytes

/-- The HARQ buffer after a coding job. -/
opaque codedHarq : Nat → Nat → Nat → Nat → Nat → Bytes → Bytes → Bytes

/-- The iterations a decode that stops early has run, less 1. -/
opaque codedIters : Nat → Nat → Nat → Nat → Nat → Bytes → Bytes → Nat

/-- Whether the CRC of a decode passes. -/
opaque codedCrc : Nat → Nat → Nat → Nat → Nat → Bytes → Bytes → Bool

end Sys2Proof.Config
end

