-- ==== Sys2Proof/Machine/Codes.lean ====
section
/-! DEFINITION. Sys2Proof/Machine/Codes.lean: the status codes (E_ names) of the code tables of spec/. -/
namespace Sys2Proof.Machine.E

/-- E_PAT_FORMAT -/
def patFormat : Nat := 0x0101
/-- E_PAT_CRC -/
def patCrc : Nat := 0x0102
/-- E_PAT_TOO_LARGE -/
def patTooLarge : Nat := 0x0103
/-- E_PAT_DIGEST -/
def patDigest : Nat := 0x0104
/-- E_PAT_SIGNATURE -/
def patSignature : Nat := 0x0105
/-- E_PAT_STEPPING -/
def patStepping : Nat := 0x0106
/-- E_PAT_KIND -/
def patKind : Nat := 0x0107
/-- E_PAT_BASE_MISMATCH -/
def patBaseMismatch : Nat := 0x0108
/-- E_PAT_ROLLBACK -/
def patRollback : Nat := 0x0109
/-- E_PAT_MOULD -/
def patMould : Nat := 0x010A
/-- E_PAT_SECTION -/
def patSection : Nat := 0x010B
/-- E_PAT_LIMIT -/
def patLimit : Nat := 0x010C
/-- E_PAT_SHARE -/
def patShare : Nat := 0x010D
/-- E_PAT_CLUSTER -/
def patCluster : Nat := 0x010E
/-- E_PAT_GANG -/
def patGang : Nat := 0x010F
/-- E_PAT_MESH -/
def patMesh : Nat := 0x0110
/-- E_PAT_REGION -/
def patRegion : Nat := 0x0111
/-- E_PAT_QUEUE -/
def patQueue : Nat := 0x0112
/-- E_PAT_GATE -/
def patGate : Nat := 0x0113
/-- E_PAT_GROUP -/
def patGroup : Nat := 0x0114
/-- E_PAT_CRUCIBLE_FULL -/
def patCrucibleFull : Nat := 0x0115
/-- E_PAT_SLOT_TABLE -/
def patSlotTable : Nat := 0x0116
/-- E_PAT_SLOT_WCET -/
def patSlotWcet : Nat := 0x0117
/-- E_PAT_ARITH -/
def patArith : Nat := 0x0118
/-- E_PAT_BUSY -/
def patBusy : Nat := 0x0119
/-- E_PAT_CANCELLED -/
def patCancelled : Nat := 0x011A
/-- E_MOULD_STATE -/
def mouldState : Nat := 0x0200
/-- E_MOULD_KIND -/
def mouldKind : Nat := 0x0201
/-- E_CTX_RANGE -/
def ctxRange : Nat := 0x0210
/-- E_CTX_FAULTED -/
def ctxFaulted : Nat := 0x0211
/-- E_CTX_QUEUE_FULL -/
def ctxQueueFull : Nat := 0x0212
/-- E_CTX_NOT_CLOSED -/
def ctxNotClosed : Nat := 0x0213
/-- E_CTX_STITCH_DROP -/
def ctxStitchDrop : Nat := 0x0214
/-- E_CTX_SEGMENT -/
def ctxSegment : Nat := 0x0215
/-- E_HOT_FULL -/
def hotFull : Nat := 0x0220
/-- E_HOT_PINNED -/
def hotPinned : Nat := 0x0221
/-- E_HOT_EXISTS -/
def hotExists : Nat := 0x0222
/-- E_HOT_DIGEST -/
def hotDigest : Nat := 0x0223
/-- E_HOT_POOL -/
def hotPool : Nat := 0x0224
/-- E_HOT_NOT_FOUND -/
def hotNotFound : Nat := 0x0225
/-- E_HOT_PIN_LIMIT -/
def hotPinLimit : Nat := 0x0226
/-- E_HOT_CANCELLED -/
def hotCancelled : Nat := 0x0227
/-- E_HOT_NOT_PINNED -/
def hotNotPinned : Nat := 0x0228
/-- E_SVC_BIND -/
def svcBind : Nat := 0x0230
/-- E_LIST_FORMAT -/
def listFormat : Nat := 0x0280
/-- E_LIST_CRC -/
def listCrc : Nat := 0x0281
/-- E_LIST_OWNER -/
def listOwner : Nat := 0x0282
/-- E_LIST_ARITH -/
def listArith : Nat := 0x0283
/-- E_LIST_DUP -/
def listDup : Nat := 0x0284
/-- E_LIST_SPACE -/
def listSpace : Nat := 0x0285
/-- E_LIST_ENGINE -/
def listEngine : Nat := 0x0286
/-- E_LIST_CLAIM -/
def listClaim : Nat := 0x0287
/-- E_LIST_REGION -/
def listRegion : Nat := 0x0288
/-- E_LIST_PROFILE -/
def listProfile : Nat := 0x0289
/-- E_LIST_MODE -/
def listMode : Nat := 0x028A
/-- E_LIST_SPAN -/
def listSpan : Nat := 0x028B
/-- E_LIST_REPEAT -/
def listRepeat : Nat := 0x028C
/-- E_LIST_CHAIN -/
def listChain : Nat := 0x028D
/-- E_LIST_WAIT -/
def listWait : Nat := 0x028E
/-- E_LIST_ND -/
def listNd : Nat := 0x028F
/-- E_LIST_MOV -/
def listMov : Nat := 0x0290
/-- E_LIST_WCET -/
def listWcet : Nat := 0x0291
/-- E_LIST_RADIO_WCET -/
def listRadioWcet : Nat := 0x0292
/-- E_LIST_BUSY -/
def listBusy : Nat := 0x0293
/-- E_SEG_OVERRUN -/
def segOverrun : Nat := 0x0298
/-- E_SEG_WAIT_TIMEOUT -/
def segWaitTimeout : Nat := 0x0299
/-- E_SEG_LIST_GONE -/
def segListGone : Nat := 0x029A
/-- E_SE_BOUNDS -/
def seBounds : Nat := 0x02A0
/-- E_SE_NO_PROG -/
def seNoProg : Nat := 0x02A1
/-- E_SE_COUNT -/
def seCount : Nat := 0x02A2
/-- E_SE_FORMAT -/
def seFormat : Nat := 0x02A8
/-- E_SE_CRC -/
def seCrc : Nat := 0x02A9
/-- E_SE_OWNER -/
def seOwner : Nat := 0x02AA
/-- E_SE_SPACE -/
def seSpace : Nat := 0x02AB
/-- E_SE_DUP -/
def seDup : Nat := 0x02AC
/-- E_SE_INSTR -/
def seInstr : Nat := 0x02AD
/-- E_SE_REPEAT -/
def seRepeat : Nat := 0x02AE
/-- E_SE_BUSY -/
def seBusy : Nat := 0x02AF
/-- E_ARR_CHECKSUM -/
def arrChecksum : Nat := 0x02C0
/-- E_ARR_REPLAY_BUDGET -/
def arrReplayBudget : Nat := 0x02C1
/-- E_ARR_SUSPECT -/
def arrSuspect : Nat := 0x02C2
/-- E_AUDIT_STATE -/
def auditState : Nat := 0x02E0
/-- E_AUDIT_SEGMENT -/
def auditSegment : Nat := 0x02E1
/-- E_AUDIT_BUSY -/
def auditBusy : Nat := 0x02E2
/-- E_FAB_TIMEOUT -/
def fabTimeout : Nat := 0x0300
/-- E_FAB_UNREACHABLE -/
def fabUnreachable : Nat := 0x0301
/-- E_FAB_ADDRESS -/
def fabAddress : Nat := 0x0302
/-- E_FAB_STATE -/
def fabState : Nat := 0x0303
/-- E_FAB_NO_MOULD -/
def fabNoMould : Nat := 0x0304
/-- E_FAB_REGION -/
def fabRegion : Nat := 0x0305
/-- E_FAB_NOT_OWNER -/
def fabNotOwner : Nat := 0x0306
/-- E_FAB_BUSY -/
def fabBusy : Nat := 0x0307
/-- E_FAB_OUTCOME_UNKNOWN -/
def fabOutcomeUnknown : Nat := 0x0308
/-- E_FAB_VERSION -/
def fabVersion : Nat := 0x0309
/-- E_FAB_TORN -/
def fabTorn : Nat := 0x030A
/-- E_FAB_ALIGN -/
def fabAlign : Nat := 0x030B
/-- E_TIME_RADIO -/
def timeRadio : Nat := 0x0320
/-- E_TIME_PAST -/
def timePast : Nat := 0x0321
/-- E_TIME_SOURCE -/
def timeSource : Nat := 0x0322
/-- E_TIME_TRIG -/
def timeTrig : Nat := 0x0323
/-- E_COLL_HANDLE -/
def collHandle : Nat := 0x0400
/-- E_CRUCIBLE_FULL -/
def crucibleFull : Nat := 0x0401
/-- E_COLL_CAP -/
def collCap : Nat := 0x0402
/-- E_COLL_GROUPS -/
def collGroups : Nat := 0x0403
/-- E_COLL_ENTRY -/
def collEntry : Nat := 0x0404
/-- E_COLL_SETUP_TIMEOUT -/
def collSetupTimeout : Nat := 0x0405
/-- E_COLL_STATE -/
def collState : Nat := 0x0406
/-- E_COLL_LENGTH -/
def collLength : Nat := 0x0407
/-- E_COLL_MISMATCH -/
def collMismatch : Nat := 0x0408
/-- E_COLL_TIMEOUT -/
def collTimeout : Nat := 0x0409
/-- E_COLL_RESIDUE -/
def collResidue : Nat := 0x040A
/-- E_COLL_MEMBER_LOST -/
def collMemberLost : Nat := 0x040B
/-- E_COLL_ABORTED -/
def collAborted : Nat := 0x040C
/-- E_COLL_FAST -/
def collFast : Nat := 0x040D
/-- E_COLL_BUSY -/
def collBusy : Nat := 0x040E
/-- E_COLL_REGION -/
def collRegion : Nat := 0x040F
/-- E_MEM_SRAM_UE -/
def memSramUe : Nat := 0x0500
/-- E_MEM_GDDR_UE -/
def memGddrUe : Nat := 0x0501
/-- E_MEM_POISON -/
def memPoison : Nat := 0x0502
/-- E_MEM_TIMEOUT -/
def memTimeout : Nat := 0x0503
/-- E_MEM_PORT_DOWN -/
def memPortDown : Nat := 0x0504
/-- E_MEM_CHANNEL_BUSY -/
def memChannelBusy : Nat := 0x0505
/-- E_MEM_CHANNEL_DOWN -/
def memChannelDown : Nat := 0x0506
/-- E_SCAN_RANGE -/
def scanRange : Nat := 0x0510
/-- E_SCAN_BUSY -/
def scanBusy : Nat := 0x0511
/-- E_SCAN_CANCELLED -/
def scanCancelled : Nat := 0x0512
/-- E_RADIO_BIND -/
def radioBind : Nat := 0x0600
/-- E_RADIO_UNIT -/
def radioUnit : Nat := 0x0601
/-- E_RADIO_ROUTE -/
def radioRoute : Nat := 0x0602
/-- E_RADIO_QUEUE -/
def radioQueue : Nat := 0x0603
/-- E_RADIO_FULL -/
def radioFull : Nat := 0x0604
/-- E_RADIO_TIMING -/
def radioTiming : Nat := 0x0605
/-- E_JOB_FORMAT -/
def jobFormat : Nat := 0x0610
/-- E_JOB_BOUNDS -/
def jobBounds : Nat := 0x0611
/-- E_MGMT_UNKNOWN -/
def mgmtUnknown : Nat := 0x0700
/-- E_MGMT_ROLE -/
def mgmtRole : Nat := 0x0701
/-- E_MGMT_FORMAT -/
def mgmtFormat : Nat := 0x0702
/-- E_MGMT_STALE_REQ -/
def mgmtStaleReq : Nat := 0x0703
/-- E_MGMT_HANDLES -/
def mgmtHandles : Nat := 0x0704
/-- E_MGMT_NO_HANDLE -/
def mgmtNoHandle : Nat := 0x0705
/-- E_MGMT_NOT_CANCELLABLE -/
def mgmtNotCancellable : Nat := 0x0706
/-- E_MGMT_SESSIONS -/
def mgmtSessions : Nat := 0x0707
/-- E_MGMT_INCOMPLETE -/
def mgmtIncomplete : Nat := 0x0708
/-- E_MGMT_CANCELLED -/
def mgmtCancelled : Nat := 0x0709
/-- E_MGMT_RESTART -/
def mgmtRestart : Nat := 0x070A
/-- E_THR_RANGE -/
def thrRange : Nat := 0x0710
/-- E_THR_STATE -/
def thrState : Nat := 0x0711
/-- E_THR_EXCEPTION -/
def thrException : Nat := 0x0712
/-- E_RESET_NOT_CHILL -/
def resetNotChill : Nat := 0x0720
/-- E_RESET_BLOCK -/
def resetBlock : Nat := 0x0721
/-- E_RESET_STATE -/
def resetState : Nat := 0x0722
/-- E_LEDGER_FULL -/
def ledgerFull : Nat := 0x0800
/-- E_LEDGER_SPACE -/
def ledgerSpace : Nat := 0x0801
/-- E_LEDGER_BUSY -/
def ledgerBusy : Nat := 0x0802
/-- E_LEDGER_COUNTER_FULL -/
def ledgerCounterFull : Nat := 0x0803
/-- E_LEDGER_WO -/
def ledgerWo : Nat := 0x0804
/-- E_LEDGER_KEYS_FULL -/
def ledgerKeysFull : Nat := 0x0805
/-- E_LEDGER_STAGE_STATE -/
def ledgerStageState : Nat := 0x0806
/-- E_LEDGER_IMAGE -/
def ledgerImage : Nat := 0x0807
/-- E_LEDGER_ROLLBACK -/
def ledgerRollback : Nat := 0x0808
/-- E_LEDGER_CHUNK -/
def ledgerChunk : Nat := 0x0809
/-- E_LEDGER_UE -/
def ledgerUe : Nat := 0x080A
/-- E_LEDGER_RANGE -/
def ledgerRange : Nat := 0x080B
/-- E_SEC_KEY_EXISTS -/
def secKeyExists : Nat := 0x0901
/-- E_SEC_QUORUM -/
def secQuorum : Nat := 0x0902
/-- E_SEC_POLICY -/
def secPolicy : Nat := 0x0903
/-- E_SEC_KEY_UNKNOWN -/
def secKeyUnknown : Nat := 0x0904
/-- E_SEC_LAST_KEY -/
def secLastKey : Nat := 0x0905
/-- E_SEC_ATTEST_MOULD -/
def secAttestMould : Nat := 0x0906
/-- E_SEC_NO_REPORT -/
def secNoReport : Nat := 0x0907
/-- E_SEC_DEBUG_LEVEL -/
def secDebugLevel : Nat := 0x0908
/-- E_SEC_DEBUG_STATE -/
def secDebugState : Nat := 0x0909
/-- E_MEMB_CERT_FORMAT -/
def membCertFormat : Nat := 0x0A00
/-- E_MEMB_QUORUM -/
def membQuorum : Nat := 0x0A01
/-- E_MEMB_STALE -/
def membStale : Nat := 0x0A02
/-- E_MEMB_CONFLICT -/
def membConflict : Nat := 0x0A03
/-- E_MEMB_SUBJECT -/
def membSubject : Nat := 0x0A04
/-- E_MEMB_STATE -/
def membState : Nat := 0x0A05
/-- E_MEMB_HEALTH -/
def membHealth : Nat := 0x0A06
/-- E_MEMB_FENCED -/
def membFenced : Nat := 0x0A07

end Sys2Proof.Machine.E
end

