-- ==== Sys2Proof/Machine/Arith.lean ====
section
/-! DEFINITION. Sys2Proof/Machine/Arith.lean: the number formats, the exact accumulator, the drain, the fixed-order fold,
the wide chain and the conversions of spec/04_arithmetic.md (R102 to R123). -/
namespace Sys2Proof.Machine

/-- A decoded floating-point or integer element: NaN, an infinity, or ± m · 2^e (the sign of a zero is kept). -/
inductive FVal where
  | nan
  | inf (neg : Bool)
  | fin (neg : Bool) (m : Nat) (e : Int)
  deriving DecidableEq, Repr

/-- How a format holds its special values (Table 4.2): IEEE 754; none; or only the all-ones code as NaN (E4M3). -/
inductive Special where
  | ieee | none | topNan
  deriving DecidableEq, Repr

/-- A floating-point layout: exponent bits, fraction bits, bias, special values. -/
structure FloatFmt where
  eb : Nat
  mb : Nat
  bias : Nat
  sp : Special
  deriving DecidableEq, Repr

/-- The layout of the non-MX base format of a code of Table 4.1; none for the integer formats and 0xF. -/
def floatFmt : Nat → Option FloatFmt
  | 0x0 => some ⟨8, 23, 127, .ieee⟩
  | 0x1 => some ⟨8, 7, 127, .ieee⟩
  | 0x2 => some ⟨5, 10, 15, .ieee⟩
  | 0x3 => some ⟨4, 3, 7, .topNan⟩
  | 0x4 => some ⟨5, 2, 15, .ieee⟩
  | 0x5 => some ⟨3, 2, 3, .none⟩
  | 0x6 => some ⟨2, 3, 1, .none⟩
  | 0x7 => some ⟨2, 1, 1, .none⟩
  | 0x9 => some ⟨4, 3, 7, .topNan⟩
  | 0xA => some ⟨5, 2, 15, .ieee⟩
  | 0xB => some ⟨3, 2, 3, .none⟩
  | 0xC => some ⟨2, 3, 1, .none⟩
  | 0xD => some ⟨2, 1, 1, .none⟩
  | _ => none

/-- The FP32 layout. -/
def fmt32 : FloatFmt := ⟨8, 23, 127, .ieee⟩

/-- Bits of one element of a format (Table 4.1). -/
def elemBits : Nat → Nat
  | 0x0 => 32
  | 0x1 => 16
  | 0x2 => 16
  | 0x5 => 6
  | 0x6 => 6
  | 0xB => 6
  | 0xC => 6
  | 0x7 => 4
  | 0xD => 4
  | _ => 8

/-- MX formats (Table 4.1): 0x9 to 0xE. -/
def isMx (f : Nat) : Bool := 0x9 ≤ f && f ≤ 0xE

/-- Wide formats: BF16 and FP16. -/
def isWide (f : Nat) : Bool := f == 1 || f == 2

/-- Narrow floats: 0x3 to 0x7. -/
def isNarrow (f : Nat) : Bool := 3 ≤ f && f ≤ 7

/-- MX floats: 0x9 to 0xD. -/
def isMxFloat (f : Nat) : Bool := 0x9 ≤ f && f ≤ 0xD

/-- The permitted pairs of Table 4.3 (R106). -/
def pairOk (a w : Nat) : Bool :=
  (isNarrow a && isNarrow w) || (a == 8 && w == 8) || (isMxFloat a && isMxFloat w)
    || (a == 0xE && w == 0xE) || (a == 1 && w == 1) || (a == 2 && w == 2)

/-- 2 products per PE per beat: both elements of 6 or 4 bits (Table 4.3). -/
def twoProduct (a w : Nat) : Bool := elemBits a < 8 && elemBits w < 8

/-- The value of a floating-point code (R103, Table 4.2). -/
def decodeFloat (f : FloatFmt) (code : Nat) : FVal :=
  let m := bitsOf code 0 f.mb
  let e := bitsOf code f.mb f.eb
  let neg := bit code (f.mb + f.eb)
  let emax := 2 ^ f.eb - 1
  let lsb : Int := 1 - (f.bias : Int) - (f.mb : Int)
  if f.sp = .ieee ∧ e = emax then (if m = 0 then .inf neg else .nan)
  else if f.sp = .topNan ∧ e = emax ∧ m = 2 ^ f.mb - 1 then .nan
  else if e = 0 then .fin neg m lsb
  else .fin neg (m + 2 ^ f.mb) (lsb + (e : Int) - 1)

/-- A value from a signed integer times 2^e. -/
def ofIntExp (i : Int) (e : Int) : FVal := .fin (decide (i < 0)) i.natAbs e

/-- The value of one element of format code f (R103, R104, R117: MXINT8 counts 2⁻⁶). -/
def elemVal (f code : Nat) : FVal :=
  match floatFmt f with
  | some ff => decodeFloat ff code
  | none => ofIntExp (sext 8 code) (if f = 0xE then -6 else 0)

/-- m · 2^d for d ≥ 0, and the floor of m / 2^(-d) otherwise. -/
def shiftInt (m : Nat) (d : Int) : Nat := if 0 ≤ d then m * 2 ^ d.toNat else m / 2 ^ (-d).toNat

/-- The special flag of a span (R109). -/
inductive Flag where
  | none | pinf | ninf | nan
  deriving DecidableEq, Repr

/-- The flags of a span merge commutatively (R109). -/
def Flag.merge : Flag → Flag → Flag
  | .none, g => g
  | f, .none => f
  | .pinf, .pinf => .pinf
  | .ninf, .ninf => .ninf
  | _, _ => .nan

/-- One accumulator: an exact integer in units of 2⁻³² (R107) and its special flag. -/
structure AccVal where
  v : Int
  f : Flag
  deriving DecidableEq, Repr

/-- The cleared accumulator. -/
def AccVal.zero : AccVal := ⟨0, .none⟩

/-- Two accumulators added. -/
def AccVal.add (a b : AccVal) : AccVal := ⟨a.v + b.v, a.f.merge b.f⟩

/-- One exact product with its flag (R107, R109). -/
def product (a w : FVal) : AccVal :=
  match a, w with
  | .nan, _ => ⟨0, .nan⟩
  | _, .nan => ⟨0, .nan⟩
  | .inf s, .inf t => ⟨0, if s == t then .pinf else .ninf⟩
  | .inf s, .fin t m _ => if m = 0 then ⟨0, .nan⟩ else ⟨0, if s == t then .pinf else .ninf⟩
  | .fin t m _, .inf s => if m = 0 then ⟨0, .nan⟩ else ⟨0, if s == t then .pinf else .ninf⟩
  | .fin s m e, .fin t n g =>
    let p : Int := shiftInt (m * n) (e + g + 32)
    ⟨if s == t then p else -p, .none⟩

/-- The integer magnitude n and exponent q of m · 2^e on the grid of a format whose subnormal unit is 2^emin':
the quantum exponent q, the floor quotient, the remainder and the divisor. -/
def gridSplit (mb : Nat) (lsb : Int) (m : Nat) (e : Int) : Int × Nat × Nat × Nat :=
  let top : Int := (Nat.log2 m : Int) + e
  let q : Int := max (top - (mb : Int)) lsb
  if q ≤ e then (q, m * 2 ^ (e - q).toNat, 0, 1)
  else
    let d := 2 ^ (q - e).toNat
    (q, m / d, m % d, d)

/-- The rounding hash of R122: 16 random bits from seed and element index. -/
def roundHash (seed index : Nat) : Nat :=
  let x := (seed % 2 ^ 32) ^^^ ((index % 2 ^ 32) * 0x9E3779B9 % 2 ^ 32)
  let x := x ^^^ (x / 2 ^ 16)
  let x := x * 0x85EBCA6B % 2 ^ 32
  let x := x ^^^ (x / 2 ^ 13)
  let x := x * 0xC2B2AE35 % 2 ^ 32
  let x := x ^^^ (x / 2 ^ 16)
  x / 2 ^ 16

/-- How a conversion rounds (R119, R122): to nearest even, or stochastically with a seed and an element index. -/
inductive Rnd where
  | rne
  | stoch (seed index : Nat)
  deriving DecidableEq, Repr

/-- The floor quotient n with remainder r of divisor d, rounded. -/
def roundQuot (rnd : Rnd) (n r d : Nat) : Nat :=
  if r = 0 then n
  else match rnd with
    | .rne => if 2 * r > d ∨ (2 * r = d ∧ n % 2 = 1) then n + 1 else n
    | .stoch s i => if r * 65536 / d + roundHash s i ≥ 65536 then n + 1 else n

/-- The magnitude code of m · 2^e rounded to the grid of f, the grid continued past the largest finite value. -/
def roundMag (f : FloatFmt) (rnd : Rnd) (m : Nat) (e : Int) : Nat :=
  if m = 0 then 0
  else
    let lsb : Int := 1 - (f.bias : Int) - (f.mb : Int)
    let (q, n, r, d) := gridSplit f.mb lsb m e
    (q - lsb).toNat * 2 ^ f.mb + roundQuot rnd n r d

/-- The code of the largest finite magnitude. -/
def maxCode (f : FloatFmt) : Nat :=
  match f.sp with
  | .ieee => (2 ^ f.eb - 1) * 2 ^ f.mb - 1
  | .topNan => 2 ^ (f.eb + f.mb) - 2
  | .none => 2 ^ (f.eb + f.mb) - 1

/-- A magnitude code with its sign bit. -/
def withSign (f : FloatFmt) (neg : Bool) (c : Nat) : Nat := c + (if neg then 2 ^ (f.eb + f.mb) else 0)

/-- The canonical FP32 NaN. -/
def nan32 : Nat := 0x7FC00000

/-- ±infinity in FP32. -/
def inf32 (neg : Bool) : Nat := if neg then 0xFF800000 else 0x7F800000

/-- A value rounded once to FP32 with round-to-nearest-even; overflow gives ±infinity. -/
def toFp32 : FVal → Nat
  | .nan => nan32
  | .inf s => inf32 s
  | .fin s m e =>
    let c := roundMag fmt32 .rne m e
    if c > maxCode fmt32 then inf32 s else withSign fmt32 s c

/-- The value of an FP32 code. -/
def ofFp32 (c : Nat) : FVal := decodeFloat fmt32 c

/-- The exact sum of two values; a zero sum is −0 only when both are −0. -/
def addVal : FVal → FVal → FVal
  | .nan, _ => .nan
  | _, .nan => .nan
  | .inf s, .inf t => if s == t then .inf s else .nan
  | .inf s, _ => .inf s
  | _, .inf t => .inf t
  | .fin s m e, .fin t n g =>
    let q := min e g
    let a : Int := m * 2 ^ (e - q).toNat
    let b : Int := n * 2 ^ (g - q).toNat
    let x : Int := (if s then -a else a) + (if t then -b else b)
    if x = 0 then .fin (s && t) 0 q else ofIntExp x q

/-- The exact product of two values. -/
def mulVal : FVal → FVal → FVal
  | .nan, _ => .nan
  | _, .nan => .nan
  | .inf s, .inf t => .inf (s != t)
  | .inf s, .fin t m _ => if m = 0 then .nan else .inf (s != t)
  | .fin t m _, .inf s => if m = 0 then .nan else .inf (s != t)
  | .fin s m e, .fin t n g => .fin (s != t) (m * n) (e + g)

/-- The negation of a value. -/
def negVal : FVal → FVal
  | .nan => .nan
  | .inf s => .inf (!s)
  | .fin s m e => .fin (!s) m e

/-- IEEE 754 FP32 addition, round-to-nearest-even, NaN results canonical. -/
def fp32Add (a b : Nat) : Nat := toFp32 (addVal (ofFp32 a) (ofFp32 b))

/-- IEEE 754 FP32 multiplication. -/
def fp32Mul (a b : Nat) : Nat := toFp32 (mulVal (ofFp32 a) (ofFp32 b))

/-- FP32 fused multiply-add with one rounding. -/
def fp32Fma (a b c : Nat) : Nat := toFp32 (addVal (ofFp32 c) (mulVal (ofFp32 a) (ofFp32 b)))

/-- One step of the wide chain (R114): s + a·w with the product exact and one rounding. -/
def wideStep (s : Nat) (a w : FVal) : Nat := toFp32 (addVal (ofFp32 s) (mulVal a w))

/-- The drain of R110: one span with its block exponent x becomes one FP32 value. -/
def drainVal (acc : AccVal) (x : Int) : Nat :=
  match acc.f with
  | .nan => nan32
  | .pinf => inf32 false
  | .ninf => inf32 true
  | .none => if acc.v = 0 then 0 else toFp32 (ofIntExp acc.v (x - 32))

/-- The INT32 drain of R111. -/
def drainInt (acc : AccVal) : Int := acc.v / 2 ^ 32

/-- The fold of R112 over drain values in ascending span order. -/
def foldFp32 (cInit : Nat) (ds : List Nat) : Nat := ds.foldl fp32Add cInit

/-- The integer fold of R113: the sum saturates at each step; the second component counts the saturations. -/
def foldInt32 (cInit : Int) (ds : List Int) : Int × Nat :=
  ds.foldl (fun (s, n) d =>
    let t := s + d
    (satInt 32 t, if satInt 32 t = t then n else n + 1)) (cInit, 0)

/-- What a conversion counts (R120, R121): an overflow of Table 4.4, a NaN squashed to +0, an infinity produced. -/
structure ConvOut where
  code : Nat
  sat : Bool
  squash : Bool
  inf : Bool
  deriving DecidableEq, Repr

/-- The canonical NaN of a target (R121); none for the targets without NaN. -/
def targetNan : Nat → Option Nat
  | 0x0 => some nan32
  | 0x1 => some 0x7FC0
  | 0x2 => some 0x7E00
  | 0x3 => some 0x7F
  | 0x4 => some 0x7E
  | 0x9 => some 0x7F
  | 0xA => some 0x7E
  | _ => none

/-- Table 4.4: what an overflow of the given sign yields; the second component says it is an infinity. -/
def overflowCode (f : FloatFmt) (ovf neg : Bool) : Nat × Bool :=
  match ovf, f.sp with
  | true, .ieee => (withSign f neg ((2 ^ f.eb - 1) * 2 ^ f.mb), true)
  | true, .topNan => (2 ^ (f.eb + f.mb) - 1, false)
  | _, _ => (withSign f neg (maxCode f), false)

/-- A value rounded to the nearest integers under rnd, as magnitude. -/
def roundInt (rnd : Rnd) (m : Nat) (e : Int) : Nat :=
  if 0 ≤ e then m * 2 ^ e.toNat
  else
    let d := 2 ^ (-e).toNat
    roundQuot rnd (m / d) (m % d) d

/-- A conversion to a storage format (R119 to R122, Table 4.4; FP32 is no target of Table 4.4, so an infinity stays one). Codes 0x8 and 0xE convert to an 8-bit integer. -/
def convert (fmt : Nat) (ovf : Bool) (rnd : Rnd) (v : FVal) : ConvOut :=
  match floatFmt fmt with
  | some f =>
    match v with
    | .nan => match targetNan fmt with
      | some c => ⟨c, false, false, false⟩
      | none => ⟨0, false, true, false⟩
    | .inf s => if fmt = 0 then ⟨inf32 s, false, false, true⟩ else let (c, i) := overflowCode f ovf s; ⟨c, true, false, i⟩
    | .fin s m e =>
      let c := roundMag f rnd m e
      if c > maxCode f then let (o, i) := overflowCode f ovf s; ⟨o, true, false, i⟩
      else ⟨withSign f s c, false, false, false⟩
  | none =>
    match v with
    | .nan => ⟨0, false, true, false⟩
    | .inf s => ⟨if s then 0x80 else 0x7F, true, false, false⟩
    | .fin s m e =>
      let n := roundInt rnd m e
      let i : Int := if s then -(n : Int) else n
      ⟨ofInt 8 (satInt 8 i), decide (satInt 8 i ≠ i), false, false⟩

/-- emax of R123 for an MX element format. -/
def mxEmax : Nat → Int
  | 0x9 => 8
  | 0xA => 15
  | 0xB => 4
  | 0xC => 2
  | 0xD => 2
  | _ => 0

/-- floor(log2 |v|) of a finite non-zero value. -/
def floorLog2 : FVal → Option Int
  | .fin _ m e => if m = 0 then none else some ((Nat.log2 m : Int) + e)
  | _ => none

/-- v · 2^k. -/
def scaleVal (v : FVal) (k : Int) : FVal :=
  match v with
  | .fin s m e => .fin s m (e + k)
  | x => x

/-- A conversion of one group to an MX format (R123): the scale byte and the elements. The element index of the
i-th value is index + i. -/
def convertMx (fmt : Nat) (ovf : Bool) (rnd : Nat → Rnd) (vs : List FVal) : Nat × List ConvOut :=
  if vs.any (fun v => match v with | .nan => true | .inf _ => true | _ => false) then
    (0xFF, vs.map fun _ => ⟨0, false, false, false⟩)
  else
    match (vs.filterMap floorLog2).foldl (fun (o : Option Int) x => some (match o with | none => x | some y => max x y)) none with
    | none => (0x00, vs.map fun _ => ⟨0, false, false, false⟩)
    | some top =>
      let e : Int := max (-127) (min 127 (top - mxEmax fmt))
      let up : Int := if fmt = 0xE then 6 else 0
      ((e + 127).toNat,
        (vs.zipIdx).map fun (v, i) => convert fmt ovf (rnd i) (scaleVal v (up - e)))

/-- Element i of a packed little-endian sequence of elements of a format (R105). -/
def packedElem (fmt : Nat) (bs : Bytes) (i : Nat) : Nat :=
  let w := elemBits fmt
  bitsOf (leAt bs (i * w / 8) 5) (i * w % 8) w

/-- Elements packed under R105 into bytes, the last byte padded with 0 bits. -/
def packElems (fmt : Nat) (cs : List Nat) : Bytes :=
  let w := elemBits fmt
  toLe (cdiv (cs.length * w) 8) (cs.foldr (fun c acc => c % 2 ^ w + 2 ^ w * acc) 0)

/-- Bytes that n elements of a format take (R105). -/
def elemBytes (fmt n : Nat) : Nat := cdiv (n * elemBits fmt) 8

/-- One profile of the ARITH section (Table 4.6). -/
structure Profile where
  aFmt : Nat
  wFmt : Nat
  outFmt : Nat
  rnd : Nat
  ovf : Bool
  drainInt32 : Bool
  deriving DecidableEq, Repr

/-- The profile held by a 64-bit word (Table 4.6). -/
def profileOf (w : Nat) : Profile :=
  ⟨bitsOf w 0 4, bitsOf w 4 4, bitsOf w 8 4, bitsOf w 12 2, bit w 14, bit w 15⟩

/-- The profiles of a 256-byte ARITH body (R124). -/
def arithProfiles (body : Bytes) : List Profile :=
  (List.range (bitsOf (leAt body 0 8) 8 5)).map fun i => profileOf (leAt body (8 * (i + 1)) 8)

/-- One profile is acceptable (R125). -/
def profileOk (allowNd : Bool) (w : Nat) : Bool :=
  let p := profileOf w
  pairOk p.aFmt p.wFmt && p.outFmt != 0xF && (!p.drainInt32 || (p.aFmt == 8 && p.wFmt == 8))
    && p.rnd != 3 && (p.rnd != 2 || allowNd) && (p.rnd == 0 || p.outFmt != 0) && w / 2 ^ 16 == 0

/-- The checks of R124 and R125 on a 256-byte ARITH body. -/
def arithOk (body : Bytes) : Bool :=
  let h := leAt body 0 8
  let n := bitsOf h 8 5
  bitsOf h 0 8 == 1 && 1 ≤ n && n ≤ 16 && bitsOf h 13 3 == 0 && h / 2 ^ 17 == 0 && body.length == 256
    && (List.range n).all (fun i => profileOk (bit h 16) (leAt body (8 * (i + 1)) 8))
    && allZero (body.drop (8 * (n + 1)))

/-- The arithmetic-settings hash of an ARITH body (R64). -/
def arithHashOf (body : Bytes) : Nat := leNat ((digest256 body).take 8)

end Sys2Proof.Machine
end

