-- ==== Sys2Proof/Machine/RegMap.lean ====
section
/-! DEFINITION. Sys2Proof/Machine/RegMap.lean: every CSR of the register tables of spec/ (captions
"Table n.m NAME (address)"): its address, strides and counts, and for each field its bits, access code
(Table 0.3) and reset value. A field called `rst` holds 0 where the spec's Reset column says `backup`, `ledger`,
`NETCFG` or `R70`: those values are loaded by BOOT or computed on a read (log entry 3). -/
namespace Sys2Proof.Machine

/-- The access codes of Table 0.3. -/
inductive Acc where
  | ro | rw | w1c | wo | rws | rl
  deriving DecidableEq, Repr

/-- One field of a register: bits [hi:lo], its access code, its reset value. -/
structure Fld where
  hi : Nat
  lo : Nat
  acc : Acc
  rst : Nat
  deriving DecidableEq, Repr

/-- Where a register (or array of registers) lies: index (i, j) is at base + ostride·i + istride·j. -/
structure RegShape where
  base : Nat
  ostride : Nat
  ocount : Nat
  istride : Nat
  icount : Nat
  flds : List Fld
  deriving DecidableEq, Repr

/-- The registers of the device, one constructor per caption (an array of registers is one constructor). -/
inductive RegName where
  | devIdent  -- DEV_IDENT, Table 0.2
  | patStatus  -- PAT_STATUS, Table 2.11
  | baseDigest  -- BASE_DIGEST_n, Table 2.12
  | govCtrl  -- GOV_CTRL_f, Table 3.2
  | govStatus  -- GOV_STATUS_f, Table 3.3
  | govAlarm  -- GOV_ALARM_f, Table 3.4
  | clkStatus  -- CLK_STATUS, Table 3.7
  | clkLost  -- CLK_LOST, Table 3.8
  | stitchDrop  -- STITCH_DROP, Table 3.9
  | xingDrop  -- XING_DROP_d, Table 3.9
  | arithHash  -- ARITH_HASH, Table 4.7
  | arithCnt  -- ARITH_CNT, Table 4.8
  | arrCfg  -- ARR_CFG_a, Table 5.5
  | arrStatus  -- ARR_STATUS_a, Table 5.6
  | arrChk  -- ARR_CHK_a, Table 5.7
  | arrBeats  -- ARR_BEATS_a, Table 5.8
  | arrCtrl  -- ARR_CTRL_a, Table 5.9
  | seqStream  -- SEQ_STREAM_s, Table 6.14
  | seqBeats  -- SEQ_BEATS_s, Table 6.15
  | seqMem  -- SEQ_MEM, Table 6.16
  | seqRefuse  -- SEQ_REFUSE, Table 6.17
  | seqCnt  -- SEQ_CNT, Table 6.18
  | chnCnt  -- CHN_CNT, Table 7.8
  | chnArrive  -- CHN_ARRIVE_a, Table 7.9
  | reproKeyLo  -- REPRO_KEY_LO, Table 8.2
  | reproKeyHi  -- REPRO_KEY_HI, Table 8.3
  | dgCnt  -- DG_CNT, Table 8.6
  | mouldStatus  -- MOULD_STATUS, Table 9.8
  | slagCount  -- SLAG_COUNT, Table 9.9
  | slotCnt  -- SLOT_CNT, Table 9.10
  | ctxStatus  -- CTX_STATUS_c, Table 9.11
  | ctxCtrl  -- CTX_CTRL_c, Table 9.12
  | hotStatus  -- HOT_STATUS, Table 9.13
  | svcRing  -- SVC_RING_e, Table 9.14
  | svcStat  -- SVC_STAT_e, Table 9.15
  | svcUnmatched  -- SVC_UNMATCHED, Table 9.16
  | gddrCfg  -- GDDR_CFG, Table 10.5
  | gddrCh  -- GDDR_CH_n, Table 10.6
  | cxlDev  -- CXL_DEV_k, Table 10.7
  | memEcc  -- MEM_ECC, Table 10.8
  | scrubCtrl  -- SCRUB_CTRL, Table 10.9
  | scrubStatus  -- SCRUB_STATUS, Table 10.10
  | hotBank  -- HOT_BANK, Table 10.11
  | sramEcc  -- SRAM_ECC, Table 10.12
  | fabTopo  -- FAB_TOPO, Table 11.11
  | fabCtrl  -- FAB_CTRL, Table 11.12
  | fabEpoch  -- FAB_EPOCH, Table 11.13
  | staleEpoch  -- STALE_EPOCH, Table 11.13
  | fabStat  -- FAB_STAT, Table 11.14
  | fabStat2  -- FAB_STAT2, Table 11.15
  | rcache  -- RCACHE, Table 11.16
  | portStatus  -- PORT_STATUS_p, Table 11.17
  | portCnt  -- PORT_CNT_p, Table 11.18
  | portFec  -- PORT_FEC_p, Table 11.19
  | fabSlots  -- FAB_SLOTS, Table 11.20
  | movOut  -- MOV_OUT_c, Table 11.21
  | collStatus  -- COLL_STATUS, Table 12.9
  | collStat  -- COLL_STAT, Table 12.10
  | collRes  -- COLL_RES, Table 12.11
  | collG  -- COLL_G_g, Table 12.12
  | collSlow  -- COLL_SLOW_g, Table 12.13
  | collA2a  -- COLL_A2A_g, Table 12.14
  | egrQstat  -- EGR_QSTAT_q, Table 13.8
  | egrQbytes  -- EGR_QBYTES_q, Table 13.9
  | egrGate  -- EGR_GATE_s, Table 13.10
  | timeNowNs  -- TIME_NOW_NS, Table 13.11
  | timeNowFrac  -- TIME_NOW_FRAC, Table 13.11
  | timeIncr  -- TIME_INCR, Table 13.12
  | timeCtrl  -- TIME_CTRL, Table 13.13
  | timeStatus  -- TIME_STATUS, Table 13.14
  | timeRoot  -- TIME_ROOT, Table 13.15
  | timeFab  -- TIME_FAB, Table 13.15
  | timePortAsym  -- TIME_PORT_ASYM_p, Table 13.16
  | timeCapNs  -- TIME_CAP_NS_c, Table 13.17
  | timeCapFrac  -- TIME_CAP_FRAC_c, Table 13.17
  | timeTrigStart  -- TIME_TRIG_START_c, Table 13.18
  | timeTrigCfg  -- TIME_TRIG_CFG_c, Table 13.18
  | ppsCfg  -- PPS_CFG, Table 13.19
  | seStatus  -- SE_STATUS_e, Table 14.9
  | seCnt  -- SE_CNT_e, Table 14.10
  | seBeats  -- SE_BEATS_e, Table 14.11
  | seProg  -- SE_PROG_e, Table 14.12
  | apStatus  -- AP_STATUS_a, Table 15.17
  | radioCar  -- RADIO_CAR_c, Table 15.18
  | fhRx  -- FH_RX_c, Table 15.19
  | fhRx2  -- FH_RX2_c, Table 15.20
  | radioGain  -- RADIO_GAIN_c, Table 15.21
  | radioCpring  -- RADIO_CPRING_c, Table 15.22
  | radioNf  -- RADIO_NF_c, Table 15.23
  | radioUnit  -- RADIO_UNIT_u, Table 15.24
  | thrStatus  -- THR_STATUS_t, Table 16.11
  | thrFault  -- THR_FAULT_t, Table 16.12
  | coreCnt  -- CORE_CNT, Table 16.13
  | mcStatus  -- MC_STATUS, Table 16.14
  | mgmtPort  -- MGMT_PORT, Table 16.15
  | logStatus  -- LOG_STATUS, Table 16.16
  | ledgerStatus  -- LEDGER_STATUS, Table 17.13
  | ledgerWear  -- LEDGER_WEAR, Table 17.14
  | ledgerEcc  -- LEDGER_ECC, Table 17.15
  | ledgerCnt  -- LEDGER_CNT, Table 17.16
  | ledgerReset  -- LEDGER_RESET, Table 17.17
  | ledgerCtrl  -- LEDGER_CTRL, Table 17.18
  | ledgerNet0  -- LEDGER_NET_0, Table 17.19
  | ledgerNet1  -- LEDGER_NET_1, Table 17.19
  | ledgerNet2  -- LEDGER_NET_2, Table 17.19
  | secStatus  -- SEC_STATUS, Table 18.9
  | tamper  -- TAMPER, Table 18.10
  | dbgStatus  -- DBG_STATUS, Table 18.11
  | meas  -- MEAS_n_w, Table 18.12
  | macsec  -- MACSEC_p, Table 18.13
  | healthStatus  -- HEALTH_STATUS, Table 19.13
  | healthPen  -- HEALTH_PEN_i, Table 19.14
  | membStatus  -- MEMB_STATUS, Table 19.15
  | membFence  -- MEMB_FENCE, Table 19.16
  | hardLimit  -- HARD_LIMIT, Table 19.17
  | quar  -- QUAR_s, Table 19.18
  | mgmtQuar  -- MGMT_QUAR, Table 19.19
  | sideStat  -- SIDE_STAT, Table 19.19
  | rstStatus  -- RST_STATUS, Table 20.10
  | pwrStatus  -- PWR_STATUS, Table 20.11
  | thermStatus  -- THERM_STATUS, Table 20.12
  | pwrAlarm  -- PWR_ALARM, Table 20.13
  | bkpSeconds  -- BKP_SECONDS, Table 20.14
  | blkChill  -- BLK_CHILL_n, Table 20.15
  | blkRst  -- BLK_RST, Table 20.16
  | alertCause  -- ALERT_CAUSE, Table 20.17
  deriving DecidableEq, Repr

/-- The shape of each register, from its table. -/
def RegName.shape : RegName → RegShape
  | .devIdent => ⟨0x0, 0x0, 1, 0x0, 1,
      [⟨7, 0, .ro, 0xb1⟩, ⟨15, 8, .ro, 1⟩, ⟨23, 16, .ro, 0⟩, ⟨47, 32, .ro, 0x960⟩]⟩
  | .patStatus => ⟨0x200, 0x0, 1, 0x0, 1,
      [⟨0, 0, .ro, 0⟩, ⟨1, 1, .ro, 0⟩, ⟨7, 2, .ro, 0⟩, ⟨8, 8, .ro, 0⟩, ⟨31, 16, .ro, 0⟩, ⟨47, 32, .ro, 0⟩]⟩
  | .baseDigest => ⟨0x208, 0x8, 4, 0x0, 1,
      [⟨63, 0, .ro, 0⟩]⟩
  | .govCtrl => ⟨0x1000, 0x40, 4, 0x0, 1,
      [⟨11, 0, .rw, 0x708⟩]⟩
  | .govStatus => ⟨0x1008, 0x40, 4, 0x0, 1,
      [⟨11, 0, .ro, 0⟩, ⟨21, 12, .ro, 0x2bc⟩, ⟨22, 22, .ro, 0⟩, ⟨23, 23, .ro, 0⟩, ⟨25, 24, .ro, 0⟩, ⟨36, 32, .ro, 0x10⟩, ⟨41, 37, .ro, 0x10⟩, ⟨55, 48, .ro, 0xff⟩]⟩
  | .govAlarm => ⟨0x1010, 0x40, 4, 0x0, 1,
      [⟨31, 0, .rws, 0⟩, ⟨63, 32, .rws, 0⟩]⟩
  | .clkStatus => ⟨0x1200, 0x0, 1, 0x0, 1,
      [⟨17, 0, .ro, 0x19⟩]⟩
  | .clkLost => ⟨0x1208, 0x0, 1, 0x0, 1,
      [⟨17, 0, .w1c, 0⟩]⟩
  | .stitchDrop => ⟨0x1210, 0x0, 1, 0x0, 1,
      [⟨31, 0, .rws, 0⟩]⟩
  | .xingDrop => ⟨0x1300, 0x8, 18, 0x0, 1,
      [⟨31, 0, .rws, 0⟩]⟩
  | .arithHash => ⟨0x800100, 0x4000, 64, 0x0, 1,
      [⟨63, 0, .ro, 0⟩]⟩
  | .arithCnt => ⟨0x1000400, 0x100000, 96, 0x0, 1,
      [⟨15, 0, .rw, 0⟩, ⟨31, 16, .rw, 0⟩, ⟨47, 32, .rw, 0⟩, ⟨63, 48, .rw, 0⟩]⟩
  | .arrCfg => ⟨0x1001000, 0x100000, 96, 0x100, 4,
      [⟨1, 0, .rl, 0⟩, ⟨2, 2, .rl, 0⟩, ⟨15, 8, .rl, 0xff⟩, ⟨21, 16, .rl, 0⟩, ⟨22, 22, .ro, 0⟩, ⟨43, 32, .rl, 0⟩, ⟨51, 44, .rl, 0⟩]⟩
  | .arrStatus => ⟨0x1001008, 0x100000, 96, 0x100, 4,
      [⟨1, 0, .ro, 0⟩, ⟨4, 2, .ro, 0⟩, ⟨5, 5, .ro, 0⟩, ⟨6, 6, .ro, 0⟩, ⟨7, 7, .rws, 0⟩, ⟨8, 8, .ro, 0⟩, ⟨9, 9, .ro, 0⟩, ⟨23, 16, .ro, 0⟩, ⟨31, 24, .ro, 0⟩]⟩
  | .arrChk => ⟨0x1001010, 0x100000, 96, 0x100, 4,
      [⟨15, 0, .rws, 0⟩, ⟨31, 16, .rws, 0⟩, ⟨39, 32, .rws, 0⟩, ⟨47, 40, .rws, 0⟩, ⟨63, 48, .rws, 0⟩]⟩
  | .arrBeats => ⟨0x1001018, 0x100000, 96, 0x100, 4,
      [⟨31, 0, .ro, 0⟩, ⟨47, 32, .ro, 0⟩, ⟨63, 48, .ro, 0⟩]⟩
  | .arrCtrl => ⟨0x1001020, 0x100000, 96, 0x100, 4,
      [⟨0, 0, .wo, 0⟩, ⟨1, 1, .wo, 0⟩]⟩
  | .seqStream => ⟨0x1002000, 0x100000, 96, 0x40, 4,
      [⟨1, 0, .ro, 0⟩, ⟨7, 2, .ro, 0⟩, ⟨15, 8, .ro, 0xff⟩, ⟨31, 16, .ro, 0⟩, ⟨63, 32, .ro, 0⟩]⟩
  | .seqBeats => ⟨0x1002008, 0x100000, 96, 0x40, 4,
      [⟨31, 0, .ro, 0⟩, ⟨63, 32, .ro, 0⟩]⟩
  | .seqMem => ⟨0x1002100, 0x100000, 96, 0x0, 1,
      [⟨6, 0, .ro, 0x40⟩, ⟨14, 8, .ro, 0⟩, ⟨15, 15, .ro, 0⟩]⟩
  | .seqRefuse => ⟨0x1002108, 0x100000, 96, 0x0, 1,
      [⟨15, 0, .ro, 0⟩, ⟨31, 16, .ro, 0⟩, ⟨55, 32, .ro, 0⟩, ⟨63, 56, .ro, 0⟩]⟩
  | .seqCnt => ⟨0x1002110, 0x100000, 96, 0x0, 1,
      [⟨15, 0, .rws, 0⟩, ⟨31, 16, .rws, 0⟩, ⟨47, 32, .rws, 0⟩, ⟨63, 48, .rws, 0⟩]⟩
  | .chnCnt => ⟨0x1002200, 0x100000, 96, 0x0, 1,
      [⟨15, 0, .rw, 0⟩, ⟨31, 16, .rw, 0⟩, ⟨47, 32, .rw, 0⟩]⟩
  | .chnArrive => ⟨0x1002208, 0x100000, 96, 0x8, 4,
      [⟨31, 0, .ro, 0⟩, ⟨47, 32, .ro, 0⟩, ⟨52, 48, .ro, 0⟩]⟩
  | .reproKeyLo => ⟨0x800108, 0x4000, 64, 0x0, 1,
      [⟨7, 0, .ro, 0⟩, ⟨15, 8, .ro, 0⟩, ⟨63, 16, .ro, 0⟩]⟩
  | .reproKeyHi => ⟨0x800110, 0x4000, 64, 0x0, 1,
      [⟨15, 0, .ro, 0⟩, ⟨31, 16, .ro, 0⟩]⟩
  | .dgCnt => ⟨0x1002300, 0x100000, 96, 0x0, 1,
      [⟨15, 0, .rw, 0⟩, ⟨31, 16, .rw, 0⟩, ⟨47, 32, .rw, 0⟩, ⟨63, 48, .rw, 0⟩]⟩
  | .mouldStatus => ⟨0x800000, 0x4000, 64, 0x0, 1,
      [⟨2, 0, .ro, 0⟩, ⟨4, 3, .ro, 0⟩, ⟨15, 8, .ro, 0⟩, ⟨31, 16, .ro, 0⟩, ⟨39, 32, .ro, 0⟩]⟩
  | .slagCount => ⟨0x800008, 0x4000, 64, 0x0, 1,
      [⟨31, 0, .rws, 0⟩]⟩
  | .slotCnt => ⟨0x800010, 0x4000, 64, 0x0, 1,
      [⟨15, 0, .rws, 0⟩, ⟨31, 16, .rws, 0⟩, ⟨47, 32, .rws, 0⟩, ⟨63, 48, .rws, 0⟩]⟩
  | .ctxStatus => ⟨0x800200, 0x4000, 64, 0x10, 16,
      [⟨2, 0, .ro, 0⟩, ⟨31, 16, .ro, 0⟩, ⟨47, 32, .ro, 0⟩, ⟨55, 48, .ro, 0⟩, ⟨63, 56, .ro, 0⟩]⟩
  | .ctxCtrl => ⟨0x800208, 0x4000, 64, 0x10, 16,
      [⟨1, 0, .rw, 0⟩, ⟨2, 2, .rw, 0⟩]⟩
  | .hotStatus => ⟨0x3000, 0x0, 1, 0x0, 1,
      [⟨15, 0, .ro, 0⟩, ⟨31, 16, .ro, 0⟩, ⟨47, 32, .rws, 0⟩, ⟨63, 48, .rws, 0⟩]⟩
  | .svcRing => ⟨0x508000, 0x20, 256, 0x0, 1,
      [⟨15, 0, .rw, 0⟩, ⟨31, 16, .ro, 0⟩, ⟨47, 32, .rw, 0⟩, ⟨63, 48, .ro, 0⟩]⟩
  | .svcStat => ⟨0x508008, 0x20, 256, 0x0, 1,
      [⟨15, 0, .rws, 0⟩, ⟨31, 16, .rws, 0⟩, ⟨47, 32, .rws, 0⟩, ⟨63, 48, .rws, 0⟩]⟩
  | .svcUnmatched => ⟨0x50a000, 0x0, 1, 0x0, 1,
      [⟨31, 0, .rws, 0⟩]⟩
  | .gddrCfg => ⟨0x700000, 0x0, 1, 0x0, 1,
      [⟨3, 0, .ro, 0⟩, ⟨5, 4, .ro, 0⟩, ⟨15, 8, .ro, 0⟩, ⟨31, 16, .ro, 0⟩]⟩
  | .gddrCh => ⟨0x701000, 0x8, 128, 0x0, 1,
      [⟨2, 0, .ro, 0⟩, ⟨15, 8, .ro, 0⟩, ⟨31, 16, .rws, 0⟩, ⟨47, 32, .rws, 0⟩, ⟨53, 48, .ro, 0⟩, ⟨54, 54, .ro, 0⟩]⟩
  | .cxlDev => ⟨0x708000, 0x8, 4, 0x0, 1,
      [⟨0, 0, .ro, 0⟩, ⟨1, 1, .ro, 0⟩, ⟨2, 2, .ro, 0⟩, ⟨15, 8, .ro, 0⟩, ⟨31, 16, .ro, 0⟩, ⟨47, 32, .rws, 0⟩, ⟨63, 48, .rws, 0⟩]⟩
  | .memEcc => ⟨0x709000, 0x0, 1, 0x0, 1,
      [⟨15, 0, .rws, 0⟩, ⟨31, 16, .rws, 0⟩, ⟨47, 32, .rws, 0⟩, ⟨63, 48, .rws, 0⟩]⟩
  | .scrubCtrl => ⟨0x709008, 0x0, 1, 0x0, 1,
      [⟨0, 0, .rw, 1⟩, ⟨1, 1, .rw, 1⟩, ⟨31, 16, .rw, 0x3c⟩, ⟨47, 32, .rw, 0xe10⟩]⟩
  | .scrubStatus => ⟨0x709010, 0x0, 1, 0x0, 1,
      [⟨15, 0, .rws, 0⟩, ⟨31, 16, .rws, 0⟩, ⟨35, 32, .ro, 0⟩, ⟨36, 36, .w1c, 0⟩]⟩
  | .hotBank => ⟨0x800020, 0x4000, 64, 0x0, 1,
      [⟨7, 0, .ro, 0xff⟩, ⟨11, 8, .ro, 0⟩, ⟨47, 16, .ro, 0⟩]⟩
  | .sramEcc => ⟨0x1003000, 0x100000, 96, 0x0, 1,
      [⟨15, 0, .rws, 0⟩, ⟨31, 16, .rws, 0⟩, ⟨37, 32, .ro, 0⟩, ⟨51, 38, .ro, 0⟩]⟩
  | .fabTopo => ⟨0x400000, 0x0, 1, 0x0, 1,
      [⟨3, 0, .ro, 0⟩, ⟨7, 4, .ro, 0⟩, ⟨11, 8, .ro, 0⟩, ⟨25, 16, .ro, 0⟩, ⟨35, 32, .ro, 0⟩, ⟨39, 36, .ro, 0⟩, ⟨43, 40, .ro, 0⟩]⟩
  | .fabCtrl => ⟨0x400008, 0x0, 1, 0x0, 1,
      [⟨15, 0, .rw, 0x7d0⟩]⟩
  | .fabEpoch => ⟨0x400010, 0x0, 1, 0x0, 1,
      [⟨31, 0, .ro, 0⟩]⟩
  | .staleEpoch => ⟨0x400018, 0x0, 1, 0x0, 1,
      [⟨31, 0, .rws, 0⟩]⟩
  | .fabStat => ⟨0x400020, 0x0, 1, 0x0, 1,
      [⟨15, 0, .rws, 0⟩, ⟨31, 16, .rws, 0⟩, ⟨47, 32, .rws, 0⟩, ⟨63, 48, .rws, 0⟩]⟩
  | .fabStat2 => ⟨0x400028, 0x0, 1, 0x0, 1,
      [⟨15, 0, .rws, 0⟩, ⟨31, 16, .rws, 0⟩, ⟨47, 32, .rws, 0⟩, ⟨63, 48, .rws, 0⟩]⟩
  | .rcache => ⟨0x400030, 0x0, 1, 0x0, 1,
      [⟨15, 0, .ro, 0⟩, ⟨31, 16, .rws, 0⟩, ⟨47, 32, .rws, 0⟩]⟩
  | .portStatus => ⟨0x401000, 0x40, 12, 0x0, 1,
      [⟨2, 0, .ro, 0⟩, ⟨3, 3, .ro, 0⟩, ⟨13, 4, .ro, 0⟩, ⟨17, 14, .ro, 0⟩, ⟨63, 32, .ro, 0⟩]⟩
  | .portCnt => ⟨0x401008, 0x40, 12, 0x0, 1,
      [⟨15, 0, .rws, 0⟩, ⟨31, 16, .rws, 0⟩, ⟨47, 32, .rws, 0⟩, ⟨63, 48, .rws, 0⟩]⟩
  | .portFec => ⟨0x401010, 0x40, 12, 0x0, 1,
      [⟨31, 0, .rws, 0⟩, ⟨63, 32, .rws, 0⟩]⟩
  | .fabSlots => ⟨0x800028, 0x4000, 64, 0x0, 1,
      [⟨15, 0, .ro, 0⟩, ⟨31, 16, .rws, 0⟩, ⟨47, 32, .rws, 0⟩]⟩
  | .movOut => ⟨0x800300, 0x4000, 64, 0x10, 16,
      [⟨31, 0, .rws, 0⟩, ⟨47, 32, .rws, 0⟩, ⟨63, 48, .rws, 0⟩]⟩
  | .collStatus => ⟨0x402000, 0x0, 1, 0x0, 1,
      [⟨8, 0, .ro, 0⟩, ⟨28, 16, .ro, 0⟩, ⟨44, 32, .ro, 0⟩]⟩
  | .collStat => ⟨0x402008, 0x0, 1, 0x0, 1,
      [⟨15, 0, .rws, 0⟩, ⟨31, 16, .rws, 0⟩, ⟨47, 32, .rws, 0⟩, ⟨63, 48, .rws, 0⟩]⟩
  | .collRes => ⟨0x402010, 0x0, 1, 0x0, 1,
      [⟨31, 0, .rws, 0⟩, ⟨47, 32, .rws, 0⟩]⟩
  | .collG => ⟨0x404000, 0x20, 256, 0x0, 1,
      [⟨15, 0, .ro, 0⟩, ⟨17, 16, .ro, 0⟩, ⟨23, 18, .ro, 0⟩, ⟨39, 24, .ro, 0⟩, ⟨50, 40, .ro, 0⟩, ⟨51, 51, .ro, 0⟩]⟩
  | .collSlow => ⟨0x404008, 0x20, 256, 0x0, 1,
      [⟨9, 0, .ro, 0⟩, ⟨47, 16, .ro, 0⟩, ⟨63, 48, .ro, 0⟩]⟩
  | .collA2a => ⟨0x404010, 0x20, 256, 0x0, 1,
      [⟨15, 0, .rws, 0⟩, ⟨39, 16, .rws, 0⟩, ⟨63, 40, .rws, 0⟩]⟩
  | .egrQstat => ⟨0x600000, 0x10, 32768, 0x0, 1,
      [⟨15, 0, .ro, 0⟩, ⟨31, 16, .rws, 0⟩, ⟨47, 32, .rws, 0⟩, ⟨53, 48, .ro, 0⟩, ⟨54, 54, .ro, 0⟩]⟩
  | .egrQbytes => ⟨0x600008, 0x10, 32768, 0x0, 1,
      [⟨47, 0, .rws, 0⟩]⟩
  | .egrGate => ⟨0x680000, 0x10, 48, 0x0, 1,
      [⟨7, 0, .ro, 0xff⟩, ⟨15, 8, .ro, 0⟩, ⟨16, 16, .ro, 0⟩, ⟨63, 32, .rws, 0⟩]⟩
  | .timeNowNs => ⟨0x100000, 0x0, 1, 0x0, 1,
      [⟨63, 0, .ro, 0⟩]⟩
  | .timeNowFrac => ⟨0x100008, 0x0, 1, 0x0, 1,
      [⟨31, 0, .ro, 0⟩]⟩
  | .timeIncr => ⟨0x100010, 0x0, 1, 0x0, 1,
      [⟨47, 0, .rw, 0xcccccccccccd⟩]⟩
  | .timeCtrl => ⟨0x100018, 0x0, 1, 0x0, 1,
      [⟨1, 0, .rw, 0⟩, ⟨6, 2, .rw, 0⟩, ⟨7, 7, .rw, 0⟩, ⟨8, 8, .rw, 0⟩, ⟨13, 9, .rw, 0⟩, ⟨15, 14, .rw, 0⟩, ⟨16, 16, .rw, 0⟩, ⟨17, 17, .rw, 0⟩]⟩
  | .timeStatus => ⟨0x100020, 0x0, 1, 0x0, 1,
      [⟨1, 0, .ro, 0⟩, ⟨9, 2, .ro, 0xff⟩, ⟨47, 16, .ro, 0⟩, ⟨63, 48, .ro, 0⟩]⟩
  | .timeRoot => ⟨0x100028, 0x0, 1, 0x0, 1,
      [⟨9, 0, .rw, 0⟩]⟩
  | .timeFab => ⟨0x100030, 0x0, 1, 0x0, 1,
      [⟨31, 0, .rws, 0⟩, ⟨63, 32, .rws, 0⟩]⟩
  | .timePortAsym => ⟨0x100300, 0x8, 48, 0x0, 1,
      [⟨31, 0, .rw, 0⟩]⟩
  | .timeCapNs => ⟨0x100100, 0x20, 5, 0x0, 1,
      [⟨63, 0, .ro, 0⟩]⟩
  | .timeCapFrac => ⟨0x100108, 0x20, 5, 0x0, 1,
      [⟨31, 0, .ro, 0⟩, ⟨36, 32, .ro, 0⟩, ⟨37, 37, .w1c, 0⟩]⟩
  | .timeTrigStart => ⟨0x100200, 0x20, 4, 0x0, 1,
      [⟨63, 0, .rw, 0⟩]⟩
  | .timeTrigCfg => ⟨0x100208, 0x20, 4, 0x0, 1,
      [⟨31, 0, .rw, 0⟩, ⟨51, 32, .rw, 0⟩, ⟨52, 52, .wo, 0⟩, ⟨53, 53, .ro, 0⟩, ⟨54, 54, .w1c, 0⟩, ⟨55, 55, .w1c, 0⟩]⟩
  | .ppsCfg => ⟨0x100500, 0x0, 1, 0x0, 1,
      [⟨19, 0, .rw, 0x64⟩]⟩
  | .seStatus => ⟨0x1004000, 0x100000, 96, 0x100, 2,
      [⟨1, 0, .ro, 0⟩, ⟨15, 2, .ro, 0⟩, ⟨21, 16, .ro, 0⟩, ⟨29, 22, .ro, 0xff⟩, ⟨47, 32, .ro, 0⟩]⟩
  | .seCnt => ⟨0x1004008, 0x100000, 96, 0x100, 2,
      [⟨15, 0, .rw, 0⟩, ⟨31, 16, .rw, 0⟩, ⟨47, 32, .rw, 0⟩, ⟨63, 48, .rw, 0⟩]⟩
  | .seBeats => ⟨0x1004010, 0x100000, 96, 0x100, 2,
      [⟨31, 0, .ro, 0⟩, ⟨63, 32, .ro, 0⟩]⟩
  | .seProg => ⟨0x1004018, 0x100000, 96, 0x100, 2,
      [⟨13, 0, .ro, 0⟩, ⟨27, 14, .ro, 0⟩, ⟨35, 28, .ro, 0⟩, ⟨36, 36, .ro, 0⟩]⟩
  | .apStatus => ⟨0x500000, 0x10, 8, 0x0, 1,
      [⟨1, 0, .ro, 0⟩, ⟨7, 4, .ro, 0⟩, ⟨47, 16, .rws, 0⟩, ⟨63, 48, .rws, 0⟩]⟩
  | .radioCar => ⟨0x501000, 0x40, 128, 0x0, 1,
      [⟨0, 0, .ro, 0⟩, ⟨1, 1, .ro, 0⟩, ⟨2, 2, .ro, 0⟩, ⟨13, 8, .ro, 0⟩, ⟨20, 16, .ro, 0⟩, ⟨63, 32, .rws, 0⟩]⟩
  | .fhRx => ⟨0x501008, 0x40, 128, 0x0, 1,
      [⟨15, 0, .rws, 0⟩, ⟨31, 16, .rws, 0⟩, ⟨47, 32, .rws, 0⟩, ⟨63, 48, .rws, 0⟩]⟩
  | .fhRx2 => ⟨0x501010, 0x40, 128, 0x0, 1,
      [⟨15, 0, .rws, 0⟩, ⟨31, 16, .rws, 0⟩, ⟨47, 32, .rws, 0⟩, ⟨63, 48, .rws, 0⟩]⟩
  | .radioGain => ⟨0x501018, 0x40, 128, 0x0, 1,
      [⟨47, 0, .ro, 0⟩, ⟨63, 48, .rws, 0⟩]⟩
  | .radioCpring => ⟨0x501020, 0x40, 128, 0x0, 1,
      [⟨15, 0, .ro, 0⟩, ⟨31, 16, .rw, 0⟩]⟩
  | .radioNf => ⟨0x501028, 0x40, 128, 0x0, 1,
      [⟨15, 0, .ro, 0x8000⟩, ⟨31, 16, .ro, 0x8000⟩, ⟨41, 32, .ro, 0⟩]⟩
  | .radioUnit => ⟨0x503000, 0x10, 16, 0x0, 1,
      [⟨1, 0, .ro, 0⟩, ⟨7, 2, .ro, 0⟩, ⟨15, 8, .ro, 0⟩, ⟨47, 16, .rws, 0⟩, ⟨63, 48, .ro, 0⟩]⟩
  | .thrStatus => ⟨0x1005000, 0x100000, 96, 0x10, 16,
      [⟨2, 0, .ro, 0⟩, ⟨8, 3, .ro, 0⟩, ⟨12, 9, .ro, 0⟩, ⟨13, 13, .ro, 0⟩, ⟨18, 16, .ro, 0⟩, ⟨63, 32, .ro, 0⟩]⟩
  | .thrFault => ⟨0x1005008, 0x100000, 96, 0x10, 16,
      [⟨47, 0, .ro, 0⟩, ⟨63, 48, .ro, 0⟩]⟩
  | .coreCnt => ⟨0x1005100, 0x100000, 96, 0x0, 1,
      [⟨31, 0, .rws, 0⟩, ⟨47, 32, .rws, 0⟩, ⟨63, 48, .rws, 0⟩]⟩
  | .mcStatus => ⟨0x4000, 0x0, 1, 0x0, 1,
      [⟨3, 0, .ro, 0⟩, ⟨7, 4, .w1c, 0⟩, ⟨12, 8, .ro, 0⟩, ⟨22, 16, .ro, 0⟩]⟩
  | .mgmtPort => ⟨0x4008, 0x8, 2, 0x0, 1,
      [⟨0, 0, .ro, 0⟩, ⟨31, 16, .rws, 0⟩, ⟨47, 32, .rws, 0⟩, ⟨63, 48, .rws, 0⟩]⟩
  | .logStatus => ⟨0x4018, 0x0, 1, 0x0, 1,
      [⟨47, 0, .ro, 0⟩, ⟨63, 48, .rws, 0⟩]⟩
  | .ledgerStatus => ⟨0x200000, 0x0, 1, 0x0, 1,
      [⟨1, 0, .ro, 0⟩, ⟨6, 2, .ro, 0⟩, ⟨12, 8, .ro, 0⟩, ⟨16, 16, .ro, 0⟩, ⟨17, 17, .ro, 0⟩, ⟨18, 18, .ro, 0⟩, ⟨19, 19, .ro, 0⟩, ⟨21, 20, .ro, 0⟩, ⟨63, 32, .ro, 0⟩]⟩
  | .ledgerWear => ⟨0x200008, 0x0, 1, 0x0, 1,
      [⟨19, 0, .ro, 0⟩, ⟨39, 20, .ro, 0⟩, ⟨63, 40, .ro, 0⟩]⟩
  | .ledgerEcc => ⟨0x200010, 0x0, 1, 0x0, 1,
      [⟨15, 0, .rws, 0⟩, ⟨31, 16, .rws, 0⟩, ⟨53, 32, .ro, 0⟩]⟩
  | .ledgerCnt => ⟨0x200018, 0x0, 1, 0x0, 1,
      [⟨31, 0, .rws, 0⟩, ⟨47, 32, .rws, 0⟩, ⟨63, 48, .rws, 0⟩]⟩
  | .ledgerReset => ⟨0x200020, 0x0, 1, 0x0, 1,
      [⟨31, 0, .ro, 0⟩, ⟨32, 32, .ro, 0⟩]⟩
  | .ledgerCtrl => ⟨0x200028, 0x0, 1, 0x0, 1,
      [⟨0, 0, .wo, 0⟩, ⟨31, 16, .rw, 0x3c⟩]⟩
  | .ledgerNet0 => ⟨0x200030, 0x0, 1, 0x0, 1,
      [⟨63, 0, .rw, 0⟩]⟩
  | .ledgerNet1 => ⟨0x200038, 0x0, 1, 0x0, 1,
      [⟨63, 0, .rw, 0⟩]⟩
  | .ledgerNet2 => ⟨0x200040, 0x0, 1, 0x0, 1,
      [⟨7, 0, .rw, 0⟩]⟩
  | .secStatus => ⟨0x300000, 0x0, 1, 0x0, 1,
      [⟨1, 0, .ro, 0⟩, ⟨2, 2, .ro, 0⟩, ⟨3, 3, .ro, 0⟩, ⟨4, 4, .ro, 0⟩, ⟨6, 5, .ro, 0⟩, ⟨7, 7, .ro, 0⟩, ⟨31, 16, .ro, 0⟩, ⟨47, 32, .ro, 0⟩]⟩
  | .tamper => ⟨0x300008, 0x0, 1, 0x0, 1,
      [⟨7, 0, .ro, 0⟩, ⟨15, 8, .ro, 0⟩]⟩
  | .dbgStatus => ⟨0x300010, 0x0, 1, 0x0, 1,
      [⟨1, 0, .ro, 0⟩, ⟨2, 2, .ro, 0⟩, ⟨24, 8, .ro, 0⟩]⟩
  | .meas => ⟨0x300100, 0x20, 8, 0x8, 4,
      [⟨63, 0, .ro, 0⟩]⟩
  | .macsec => ⟨0x300200, 0x8, 12, 0x0, 1,
      [⟨31, 0, .ro, 0⟩, ⟨33, 32, .ro, 0⟩, ⟨34, 34, .ro, 0⟩, ⟨63, 48, .rws, 0⟩]⟩
  | .healthStatus => ⟨0x5000, 0x0, 1, 0x0, 1,
      [⟨2, 0, .ro, 1⟩, ⟨3, 3, .ro, 0⟩, ⟨4, 4, .ro, 0⟩, ⟨5, 5, .ro, 0⟩, ⟨17, 8, .ro, 0x3e8⟩, ⟨51, 32, .ro, 0⟩]⟩
  | .healthPen => ⟨0x5008, 0x8, 3, 0x0, 1,
      [⟨15, 0, .ro, 0⟩, ⟨31, 16, .ro, 0⟩, ⟨47, 32, .ro, 0⟩, ⟨63, 48, .ro, 0⟩]⟩
  | .membStatus => ⟨0x5020, 0x0, 1, 0x0, 1,
      [⟨31, 0, .ro, 0⟩, ⟨39, 32, .ro, 0⟩, ⟨63, 48, .rws, 0⟩]⟩
  | .membFence => ⟨0x5028, 0x8, 2, 0x0, 1,
      [⟨63, 0, .ro, 0⟩]⟩
  | .hardLimit => ⟨0x5038, 0x0, 1, 0x0, 1,
      [⟨0, 0, .ro, 0⟩, ⟨1, 1, .ro, 0⟩, ⟨2, 2, .ro, 0⟩, ⟨31, 16, .rws, 0⟩]⟩
  | .quar => ⟨0x5100, 0x8, 52, 0x0, 1,
      [⟨0, 0, .ro, 0⟩, ⟨3, 1, .ro, 0⟩, ⟨15, 8, .ro, 0⟩, ⟨31, 16, .rws, 0⟩, ⟨63, 32, .rws, 0⟩]⟩
  | .mgmtQuar => ⟨0x5300, 0x0, 1, 0x0, 1,
      [⟨15, 0, .ro, 0⟩, ⟨31, 16, .rws, 0⟩]⟩
  | .sideStat => ⟨0x5308, 0x0, 1, 0x0, 1,
      [⟨15, 0, .rws, 0⟩, ⟨31, 16, .rws, 0⟩]⟩
  | .rstStatus => ⟨0x6000, 0x0, 1, 0x0, 1,
      [⟨31, 0, .ro, 0⟩, ⟨39, 32, .ro, 0⟩, ⟨40, 40, .ro, 0⟩, ⟨41, 41, .ro, 0⟩]⟩
  | .pwrStatus => ⟨0x6008, 0x0, 1, 0x0, 1,
      [⟨15, 0, .ro, 0⟩, ⟨31, 16, .ro, 0⟩, ⟨47, 32, .ro, 0⟩]⟩
  | .thermStatus => ⟨0x6010, 0x0, 1, 0x0, 1,
      [⟨31, 0, .ro, 0⟩, ⟨39, 32, .ro, 0⟩, ⟨40, 40, .ro, 0⟩]⟩
  | .pwrAlarm => ⟨0x6018, 0x0, 1, 0x0, 1,
      [⟨15, 0, .rws, 0⟩, ⟨31, 16, .rws, 0⟩, ⟨47, 32, .rws, 0⟩, ⟨63, 48, .rws, 0⟩]⟩
  | .bkpSeconds => ⟨0x6020, 0x0, 1, 0x0, 1,
      [⟨47, 0, .ro, 0⟩]⟩
  | .blkChill => ⟨0x6028, 0x8, 3, 0x0, 1,
      [⟨63, 0, .ro, 0⟩]⟩
  | .blkRst => ⟨0x6040, 0x0, 1, 0x0, 1,
      [⟨7, 0, .wo, 0⟩, ⟨8, 8, .wo, 0⟩, ⟨9, 9, .ro, 0⟩, ⟨31, 16, .ro, 0⟩, ⟨39, 32, .ro, 0⟩]⟩
  | .alertCause => ⟨0x6048, 0x0, 1, 0x0, 1,
      [⟨0, 0, .w1c, 0⟩, ⟨1, 1, .w1c, 0⟩, ⟨2, 2, .w1c, 0⟩, ⟨3, 3, .w1c, 0⟩, ⟨4, 4, .w1c, 0⟩, ⟨5, 5, .w1c, 0⟩]⟩

/-- Every register name, in the order of the manual. -/
def RegName.all : List RegName :=
  [.devIdent, .patStatus, .baseDigest, .govCtrl, .govStatus, .govAlarm, .clkStatus, .clkLost,
   .stitchDrop, .xingDrop, .arithHash, .arithCnt, .arrCfg, .arrStatus, .arrChk, .arrBeats,
   .arrCtrl, .seqStream, .seqBeats, .seqMem, .seqRefuse, .seqCnt, .chnCnt, .chnArrive,
   .reproKeyLo, .reproKeyHi, .dgCnt, .mouldStatus, .slagCount, .slotCnt, .ctxStatus, .ctxCtrl,
   .hotStatus, .svcRing, .svcStat, .svcUnmatched, .gddrCfg, .gddrCh, .cxlDev, .memEcc,
   .scrubCtrl, .scrubStatus, .hotBank, .sramEcc, .fabTopo, .fabCtrl, .fabEpoch, .staleEpoch,
   .fabStat, .fabStat2, .rcache, .portStatus, .portCnt, .portFec, .fabSlots, .movOut,
   .collStatus, .collStat, .collRes, .collG, .collSlow, .collA2a, .egrQstat, .egrQbytes,
   .egrGate, .timeNowNs, .timeNowFrac, .timeIncr, .timeCtrl, .timeStatus, .timeRoot, .timeFab,
   .timePortAsym, .timeCapNs, .timeCapFrac, .timeTrigStart, .timeTrigCfg, .ppsCfg, .seStatus, .seCnt,
   .seBeats, .seProg, .apStatus, .radioCar, .fhRx, .fhRx2, .radioGain, .radioCpring,
   .radioNf, .radioUnit, .thrStatus, .thrFault, .coreCnt, .mcStatus, .mgmtPort, .logStatus,
   .ledgerStatus, .ledgerWear, .ledgerEcc, .ledgerCnt, .ledgerReset, .ledgerCtrl, .ledgerNet0, .ledgerNet1,
   .ledgerNet2, .secStatus, .tamper, .dbgStatus, .meas, .macsec, .healthStatus, .healthPen,
   .membStatus, .membFence, .hardLimit, .quar, .mgmtQuar, .sideStat, .rstStatus, .pwrStatus,
   .thermStatus, .pwrAlarm, .bkpSeconds, .blkChill, .blkRst, .alertCause]

/-- A named field of a register: its lowest bit and its width. -/
structure Field where
  reg : RegName
  lo : Nat
  width : Nat
  deriving DecidableEq, Repr

namespace F

/-- DEV_IDENT.stepping -/
def devIdent_stepping : Field := ⟨.devIdent, 0, 8⟩
/-- DEV_IDENT.arith_rev -/
def devIdent_arithRev : Field := ⟨.devIdent, 8, 8⟩
/-- DEV_IDENT.clusters_enabled -/
def devIdent_clustersEnabled : Field := ⟨.devIdent, 16, 8⟩
/-- DEV_IDENT.part -/
def devIdent_part : Field := ⟨.devIdent, 32, 16⟩
/-- PAT_STATUS.base_poured -/
def patStatus_basePoured : Field := ⟨.patStatus, 0, 1⟩
/-- PAT_STATUS.pour_busy -/
def patStatus_pourBusy : Field := ⟨.patStatus, 1, 1⟩
/-- PAT_STATUS.pour_mould -/
def patStatus_pourMould : Field := ⟨.patStatus, 2, 6⟩
/-- PAT_STATUS.pour_is_base -/
def patStatus_pourIsBase : Field := ⟨.patStatus, 8, 1⟩
/-- PAT_STATUS.last_reject -/
def patStatus_lastReject : Field := ⟨.patStatus, 16, 16⟩
/-- PAT_STATUS.last_reject_section -/
def patStatus_lastRejectSection : Field := ⟨.patStatus, 32, 16⟩
/-- BASE_DIGEST_n.digest_word -/
def baseDigest_digestWord : Field := ⟨.baseDigest, 0, 64⟩
/-- GOV_CTRL_f.target_mrate -/
def govCtrl_targetMrate : Field := ⟨.govCtrl, 0, 12⟩
/-- GOV_STATUS_f.rate_mrate -/
def govStatus_rateMrate : Field := ⟨.govStatus, 0, 12⟩
/-- GOV_STATUS_f.rail_mv -/
def govStatus_railMv : Field := ⟨.govStatus, 12, 10⟩
/-- GOV_STATUS_f.at_vmax -/
def govStatus_atVmax : Field := ⟨.govStatus, 22, 1⟩
/-- GOV_STATUS_f.alarm -/
def govStatus_alarm : Field := ⟨.govStatus, 23, 1⟩
/-- GOV_STATUS_f.shed_stage -/
def govStatus_shedStage : Field := ⟨.govStatus, 24, 2⟩
/-- GOV_STATUS_f.issue_limit_rate -/
def govStatus_issueLimitRate : Field := ⟨.govStatus, 32, 5⟩
/-- GOV_STATUS_f.issue_limit_power -/
def govStatus_issueLimitPower : Field := ⟨.govStatus, 37, 5⟩
/-- GOV_STATUS_f.slowest_cluster -/
def govStatus_slowestCluster : Field := ⟨.govStatus, 48, 8⟩
/-- GOV_ALARM_f.alarm_count -/
def govAlarm_alarmCount : Field := ⟨.govAlarm, 0, 32⟩
/-- GOV_ALARM_f.alarm_ms -/
def govAlarm_alarmMs : Field := ⟨.govAlarm, 32, 32⟩
/-- CLK_STATUS.present -/
def clkStatus_present : Field := ⟨.clkStatus, 0, 18⟩
/-- CLK_LOST.lost -/
def clkLost_lost : Field := ⟨.clkLost, 0, 18⟩
/-- STITCH_DROP.count -/
def stitchDrop_count : Field := ⟨.stitchDrop, 0, 32⟩
/-- XING_DROP_d.count -/
def xingDrop_count : Field := ⟨.xingDrop, 0, 32⟩
/-- ARITH_HASH.hash -/
def arithHash_hash : Field := ⟨.arithHash, 0, 64⟩
/-- ARITH_CNT.sat_count -/
def arithCnt_satCount : Field := ⟨.arithCnt, 0, 16⟩
/-- ARITH_CNT.nan_out -/
def arithCnt_nanOut : Field := ⟨.arithCnt, 16, 16⟩
/-- ARITH_CNT.nan_squash -/
def arithCnt_nanSquash : Field := ⟨.arithCnt, 32, 16⟩
/-- ARITH_CNT.inf_out -/
def arithCnt_infOut : Field := ⟨.arithCnt, 48, 16⟩
/-- ARR_CFG_a.gang_mode -/
def arrCfg_gangMode : Field := ⟨.arrCfg, 0, 2⟩
/-- ARR_CFG_a.gang_lead -/
def arrCfg_gangLead : Field := ⟨.arrCfg, 2, 1⟩
/-- ARR_CFG_a.ctx -/
def arrCfg_ctx : Field := ⟨.arrCfg, 8, 8⟩
/-- ARR_CFG_a.mould -/
def arrCfg_mould : Field := ⟨.arrCfg, 16, 6⟩
/-- ARR_CFG_a.lent -/
def arrCfg_lent : Field := ⟨.arrCfg, 22, 1⟩
/-- ARR_CFG_a.holding_ns -/
def arrCfg_holdingNs : Field := ⟨.arrCfg, 32, 12⟩
/-- ARR_CFG_a.holding_level -/
def arrCfg_holdingLevel : Field := ⟨.arrCfg, 44, 8⟩
/-- ARR_STATUS_a.mode -/
def arrStatus_mode : Field := ⟨.arrStatus, 0, 2⟩
/-- ARR_STATUS_a.power -/
def arrStatus_power : Field := ⟨.arrStatus, 2, 3⟩
/-- ARR_STATUS_a.held -/
def arrStatus_held : Field := ⟨.arrStatus, 5, 1⟩
/-- ARR_STATUS_a.replaying -/
def arrStatus_replaying : Field := ⟨.arrStatus, 6, 1⟩
/-- ARR_STATUS_a.suspect -/
def arrStatus_suspect : Field := ⟨.arrStatus, 7, 1⟩
/-- ARR_STATUS_a.self_test_busy -/
def arrStatus_selfTestBusy : Field := ⟨.arrStatus, 8, 1⟩
/-- ARR_STATUS_a.self_test_pass -/
def arrStatus_selfTestPass : Field := ⟨.arrStatus, 9, 1⟩
/-- ARR_STATUS_a.last_fail_row -/
def arrStatus_lastFailRow : Field := ⟨.arrStatus, 16, 8⟩
/-- ARR_STATUS_a.last_fail_col -/
def arrStatus_lastFailCol : Field := ⟨.arrStatus, 24, 8⟩
/-- ARR_CHK_a.mismatch -/
def arrChk_mismatch : Field := ⟨.arrChk, 0, 16⟩
/-- ARR_CHK_a.replay_ok -/
def arrChk_replayOk : Field := ⟨.arrChk, 16, 16⟩
/-- ARR_CHK_a.suspect_count -/
def arrChk_suspectCount : Field := ⟨.arrChk, 32, 8⟩
/-- ARR_CHK_a.budget_fault -/
def arrChk_budgetFault : Field := ⟨.arrChk, 40, 8⟩
/-- ARR_CHK_a.skip -/
def arrChk_skip : Field := ⟨.arrChk, 48, 16⟩
/-- ARR_BEATS_a.active_beats -/
def arrBeats_activeBeats : Field := ⟨.arrBeats, 0, 32⟩
/-- ARR_BEATS_a.held_beats -/
def arrBeats_heldBeats : Field := ⟨.arrBeats, 32, 16⟩
/-- ARR_BEATS_a.holding_beats -/
def arrBeats_holdingBeats : Field := ⟨.arrBeats, 48, 16⟩
/-- ARR_CTRL_a.clear_counters -/
def arrCtrl_clearCounters : Field := ⟨.arrCtrl, 0, 1⟩
/-- ARR_CTRL_a.self_test -/
def arrCtrl_selfTest : Field := ⟨.arrCtrl, 1, 1⟩
/-- SEQ_STREAM_s.state -/
def seqStream_state : Field := ⟨.seqStream, 0, 2⟩
/-- SEQ_STREAM_s.mould -/
def seqStream_mould : Field := ⟨.seqStream, 2, 6⟩
/-- SEQ_STREAM_s.ctx -/
def seqStream_ctx : Field := ⟨.seqStream, 8, 8⟩
/-- SEQ_STREAM_s.seg_index -/
def seqStream_segIndex : Field := ⟨.seqStream, 16, 16⟩
/-- SEQ_STREAM_s.list_id -/
def seqStream_listId : Field := ⟨.seqStream, 32, 32⟩
/-- SEQ_BEATS_s.elapsed -/
def seqBeats_elapsed : Field := ⟨.seqBeats, 0, 32⟩
/-- SEQ_BEATS_s.wait -/
def seqBeats_wait : Field := ⟨.seqBeats, 32, 32⟩
/-- SEQ_MEM.pages_free -/
def seqMem_pagesFree : Field := ⟨.seqMem, 0, 7⟩
/-- SEQ_MEM.lists -/
def seqMem_lists : Field := ⟨.seqMem, 8, 7⟩
/-- SEQ_MEM.load_busy -/
def seqMem_loadBusy : Field := ⟨.seqMem, 15, 1⟩
/-- SEQ_REFUSE.code -/
def seqRefuse_code : Field := ⟨.seqRefuse, 0, 16⟩
/-- SEQ_REFUSE.seg_index -/
def seqRefuse_segIndex : Field := ⟨.seqRefuse, 16, 16⟩
/-- SEQ_REFUSE.word -/
def seqRefuse_word : Field := ⟨.seqRefuse, 32, 24⟩
/-- SEQ_REFUSE.ctx -/
def seqRefuse_ctx : Field := ⟨.seqRefuse, 56, 8⟩
/-- SEQ_CNT.loads_ok -/
def seqCnt_loadsOk : Field := ⟨.seqCnt, 0, 16⟩
/-- SEQ_CNT.loads_refused -/
def seqCnt_loadsRefused : Field := ⟨.seqCnt, 16, 16⟩
/-- SEQ_CNT.overruns -/
def seqCnt_overruns : Field := ⟨.seqCnt, 32, 16⟩
/-- SEQ_CNT.wait_timeouts -/
def seqCnt_waitTimeouts : Field := ⟨.seqCnt, 48, 16⟩
/-- CHN_CNT.empty_row -/
def chnCnt_emptyRow : Field := ⟨.chnCnt, 0, 16⟩
/-- CHN_CNT.nan_row -/
def chnCnt_nanRow : Field := ⟨.chnCnt, 16, 16⟩
/-- CHN_CNT.arrival_holds -/
def chnCnt_arrivalHolds : Field := ⟨.chnCnt, 32, 16⟩
/-- CHN_ARRIVE_a.wait -/
def chnArrive_wait : Field := ⟨.chnArrive, 0, 32⟩
/-- CHN_ARRIVE_a.granules -/
def chnArrive_granules : Field := ⟨.chnArrive, 32, 16⟩
/-- CHN_ARRIVE_a.token -/
def chnArrive_token : Field := ⟨.chnArrive, 48, 5⟩
/-- REPRO_KEY_LO.stepping -/
def reproKeyLo_stepping : Field := ⟨.reproKeyLo, 0, 8⟩
/-- REPRO_KEY_LO.arith_rev -/
def reproKeyLo_arithRev : Field := ⟨.reproKeyLo, 8, 8⟩
/-- REPRO_KEY_LO.hash_lo -/
def reproKeyLo_hashLo : Field := ⟨.reproKeyLo, 16, 48⟩
/-- REPRO_KEY_HI.hash_hi -/
def reproKeyHi_hashHi : Field := ⟨.reproKeyHi, 0, 16⟩
/-- REPRO_KEY_HI.fw_arith_lib -/
def reproKeyHi_fwArithLib : Field := ⟨.reproKeyHi, 16, 16⟩
/-- DG_CNT.written -/
def dgCnt_written : Field := ⟨.dgCnt, 0, 16⟩
/-- DG_CNT.stopped -/
def dgCnt_stopped : Field := ⟨.dgCnt, 16, 16⟩
/-- DG_CNT.abandoned -/
def dgCnt_abandoned : Field := ⟨.dgCnt, 32, 16⟩
/-- DG_CNT.nd -/
def dgCnt_nd : Field := ⟨.dgCnt, 48, 16⟩
/-- MOULD_STATUS.state -/
def mouldStatus_state : Field := ⟨.mouldStatus, 0, 3⟩
/-- MOULD_STATUS.kind -/
def mouldStatus_kind : Field := ⟨.mouldStatus, 3, 2⟩
/-- MOULD_STATUS.context_count -/
def mouldStatus_contextCount : Field := ⟨.mouldStatus, 8, 8⟩
/-- MOULD_STATUS.heat -/
def mouldStatus_heat : Field := ⟨.mouldStatus, 16, 16⟩
/-- MOULD_STATUS.running -/
def mouldStatus_running : Field := ⟨.mouldStatus, 32, 8⟩
/-- SLAG_COUNT.count -/
def slagCount_count : Field := ⟨.slagCount, 0, 32⟩
/-- SLOT_CNT.missed -/
def slotCnt_missed : Field := ⟨.slotCnt, 0, 16⟩
/-- SLOT_CNT.skipped_fault -/
def slotCnt_skippedFault : Field := ⟨.slotCnt, 16, 16⟩
/-- SLOT_CNT.loan_admitted -/
def slotCnt_loanAdmitted : Field := ⟨.slotCnt, 32, 16⟩
/-- SLOT_CNT.loan_refused -/
def slotCnt_loanRefused : Field := ⟨.slotCnt, 48, 16⟩
/-- CTX_STATUS_c.state -/
def ctxStatus_state : Field := ⟨.ctxStatus, 0, 3⟩
/-- CTX_STATUS_c.fault_code -/
def ctxStatus_faultCode : Field := ⟨.ctxStatus, 16, 16⟩
/-- CTX_STATUS_c.base_heat -/
def ctxStatus_baseHeat : Field := ⟨.ctxStatus, 32, 16⟩
/-- CTX_STATUS_c.running -/
def ctxStatus_running : Field := ⟨.ctxStatus, 48, 8⟩
/-- CTX_STATUS_c.queued -/
def ctxStatus_queued : Field := ⟨.ctxStatus, 56, 8⟩
/-- CTX_CTRL_c.prio -/
def ctxCtrl_prio : Field := ⟨.ctxCtrl, 0, 2⟩
/-- CTX_CTRL_c.auto_quench -/
def ctxCtrl_autoQuench : Field := ⟨.ctxCtrl, 2, 1⟩
/-- HOT_STATUS.used -/
def hotStatus_used : Field := ⟨.hotStatus, 0, 16⟩
/-- HOT_STATUS.reserved_total -/
def hotStatus_reservedTotal : Field := ⟨.hotStatus, 16, 16⟩
/-- HOT_STATUS.digest_fail -/
def hotStatus_digestFail : Field := ⟨.hotStatus, 32, 16⟩
/-- HOT_STATUS.evictions -/
def hotStatus_evictions : Field := ⟨.hotStatus, 48, 16⟩
/-- SVC_RING_e.rx_head -/
def svcRing_rxHead : Field := ⟨.svcRing, 0, 16⟩
/-- SVC_RING_e.rx_tail -/
def svcRing_rxTail : Field := ⟨.svcRing, 16, 16⟩
/-- SVC_RING_e.tx_tail -/
def svcRing_txTail : Field := ⟨.svcRing, 32, 16⟩
/-- SVC_RING_e.tx_head -/
def svcRing_txHead : Field := ⟨.svcRing, 48, 16⟩
/-- SVC_STAT_e.rx_ok -/
def svcStat_rxOk : Field := ⟨.svcStat, 0, 16⟩
/-- SVC_STAT_e.drop_auth -/
def svcStat_dropAuth : Field := ⟨.svcStat, 16, 16⟩
/-- SVC_STAT_e.drop_full -/
def svcStat_dropFull : Field := ⟨.svcStat, 32, 16⟩
/-- SVC_STAT_e.drop_other -/
def svcStat_dropOther : Field := ⟨.svcStat, 48, 16⟩
/-- SVC_UNMATCHED.count -/
def svcUnmatched_count : Field := ⟨.svcUnmatched, 0, 32⟩
/-- GDDR_CFG.groups -/
def gddrCfg_groups : Field := ⟨.gddrCfg, 0, 4⟩
/-- GDDR_CFG.density -/
def gddrCfg_density : Field := ⟨.gddrCfg, 4, 2⟩
/-- GDDR_CFG.pin_gbps -/
def gddrCfg_pinGbps : Field := ⟨.gddrCfg, 8, 8⟩
/-- GDDR_CFG.channel_mb -/
def gddrCfg_channelMb : Field := ⟨.gddrCfg, 16, 16⟩
/-- GDDR_CH_n.state -/
def gddrCh_state : Field := ⟨.gddrCh, 0, 3⟩
/-- GDDR_CH_n.crc_retries -/
def gddrCh_crcRetries : Field := ⟨.gddrCh, 8, 8⟩
/-- GDDR_CH_n.ce -/
def gddrCh_ce : Field := ⟨.gddrCh, 16, 16⟩
/-- GDDR_CH_n.ue -/
def gddrCh_ue : Field := ⟨.gddrCh, 32, 16⟩
/-- GDDR_CH_n.radio_mould -/
def gddrCh_radioMould : Field := ⟨.gddrCh, 48, 6⟩
/-- GDDR_CH_n.radio -/
def gddrCh_radio : Field := ⟨.gddrCh, 54, 1⟩
/-- CXL_DEV_k.present -/
def cxlDev_present : Field := ⟨.cxlDev, 0, 1⟩
/-- CXL_DEV_k.link_up -/
def cxlDev_linkUp : Field := ⟨.cxlDev, 1, 1⟩
/-- CXL_DEV_k.ide -/
def cxlDev_ide : Field := ⟨.cxlDev, 2, 1⟩
/-- CXL_DEV_k.width -/
def cxlDev_width : Field := ⟨.cxlDev, 8, 8⟩
/-- CXL_DEV_k.capacity_gb -/
def cxlDev_capacityGb : Field := ⟨.cxlDev, 16, 16⟩
/-- CXL_DEV_k.poison -/
def cxlDev_poison : Field := ⟨.cxlDev, 32, 16⟩
/-- CXL_DEV_k.timeouts -/
def cxlDev_timeouts : Field := ⟨.cxlDev, 48, 16⟩
/-- MEM_ECC.sram_ce -/
def memEcc_sramCe : Field := ⟨.memEcc, 0, 16⟩
/-- MEM_ECC.sram_ue -/
def memEcc_sramUe : Field := ⟨.memEcc, 16, 16⟩
/-- MEM_ECC.gddr_ue -/
def memEcc_gddrUe : Field := ⟨.memEcc, 32, 16⟩
/-- MEM_ECC.cxl_poison -/
def memEcc_cxlPoison : Field := ⟨.memEcc, 48, 16⟩
/-- SCRUB_CTRL.sram_en -/
def scrubCtrl_sramEn : Field := ⟨.scrubCtrl, 0, 1⟩
/-- SCRUB_CTRL.gddr_en -/
def scrubCtrl_gddrEn : Field := ⟨.scrubCtrl, 1, 1⟩
/-- SCRUB_CTRL.sram_period_s -/
def scrubCtrl_sramPeriodS : Field := ⟨.scrubCtrl, 16, 16⟩
/-- SCRUB_CTRL.gddr_period_s -/
def scrubCtrl_gddrPeriodS : Field := ⟨.scrubCtrl, 32, 16⟩
/-- SCRUB_STATUS.sram_passes -/
def scrubStatus_sramPasses : Field := ⟨.scrubStatus, 0, 16⟩
/-- SCRUB_STATUS.gddr_passes -/
def scrubStatus_gddrPasses : Field := ⟨.scrubStatus, 16, 16⟩
/-- SCRUB_STATUS.suspended -/
def scrubStatus_suspended : Field := ⟨.scrubStatus, 32, 4⟩
/-- SCRUB_STATUS.late -/
def scrubStatus_late : Field := ⟨.scrubStatus, 36, 1⟩
/-- HOT_BANK.where -/
def hotBank_where : Field := ⟨.hotBank, 0, 8⟩
/-- HOT_BANK.dram_bank -/
def hotBank_dramBank : Field := ⟨.hotBank, 8, 4⟩
/-- HOT_BANK.wait_ns -/
def hotBank_waitNs : Field := ⟨.hotBank, 16, 32⟩
/-- SRAM_ECC.ce -/
def sramEcc_ce : Field := ⟨.sramEcc, 0, 16⟩
/-- SRAM_ECC.ue -/
def sramEcc_ue : Field := ⟨.sramEcc, 16, 16⟩
/-- SRAM_ECC.last_bank -/
def sramEcc_lastBank : Field := ⟨.sramEcc, 32, 6⟩
/-- SRAM_ECC.last_word -/
def sramEcc_lastWord : Field := ⟨.sramEcc, 38, 14⟩
/-- FAB_TOPO.x_m1 -/
def fabTopo_xM1 : Field := ⟨.fabTopo, 0, 4⟩
/-- FAB_TOPO.y_m1 -/
def fabTopo_yM1 : Field := ⟨.fabTopo, 4, 4⟩
/-- FAB_TOPO.z_m1 -/
def fabTopo_zM1 : Field := ⟨.fabTopo, 8, 4⟩
/-- FAB_TOPO.dev_id -/
def fabTopo_devId : Field := ⟨.fabTopo, 16, 10⟩
/-- FAB_TOPO.x -/
def fabTopo_x : Field := ⟨.fabTopo, 32, 4⟩
/-- FAB_TOPO.y -/
def fabTopo_y : Field := ⟨.fabTopo, 36, 4⟩
/-- FAB_TOPO.z -/
def fabTopo_z : Field := ⟨.fabTopo, 40, 4⟩
/-- FAB_CTRL.op_timeout_us -/
def fabCtrl_opTimeoutUs : Field := ⟨.fabCtrl, 0, 16⟩
/-- FAB_EPOCH.value -/
def fabEpoch_value : Field := ⟨.fabEpoch, 0, 32⟩
/-- STALE_EPOCH.value -/
def staleEpoch_value : Field := ⟨.staleEpoch, 0, 32⟩
/-- FAB_STAT.new_epoch -/
def fabStat_newEpoch : Field := ⟨.fabStat, 0, 16⟩
/-- FAB_STAT.not_member -/
def fabStat_notMember : Field := ⟨.fabStat, 16, 16⟩
/-- FAB_STAT.malformed -/
def fabStat_malformed : Field := ⟨.fabStat, 32, 16⟩
/-- FAB_STAT.orphan -/
def fabStat_orphan : Field := ⟨.fabStat, 48, 16⟩
/-- FAB_STAT2.ttl_drop -/
def fabStat2_ttlDrop : Field := ⟨.fabStat2, 0, 16⟩
/-- FAB_STAT2.window_drop -/
def fabStat2_windowDrop : Field := ⟨.fabStat2, 16, 16⟩
/-- FAB_STAT2.unreachable -/
def fabStat2_unreachable : Field := ⟨.fabStat2, 32, 16⟩
/-- FAB_STAT2.rerouted -/
def fabStat2_rerouted : Field := ⟨.fabStat2, 48, 16⟩
/-- RCACHE.used -/
def rcache_used : Field := ⟨.rcache, 0, 16⟩
/-- RCACHE.hits -/
def rcache_hits : Field := ⟨.rcache, 16, 16⟩
/-- RCACHE.busy -/
def rcache_busy : Field := ⟨.rcache, 32, 16⟩
/-- PORT_STATUS_p.state -/
def portStatus_state : Field := ⟨.portStatus, 0, 3⟩
/-- PORT_STATUS_p.macsec -/
def portStatus_macsec : Field := ⟨.portStatus, 3, 1⟩
/-- PORT_STATUS_p.peer_id -/
def portStatus_peerId : Field := ⟨.portStatus, 4, 10⟩
/-- PORT_STATUS_p.peer_port -/
def portStatus_peerPort : Field := ⟨.portStatus, 14, 4⟩
/-- PORT_STATUS_p.peer_epoch -/
def portStatus_peerEpoch : Field := ⟨.portStatus, 32, 32⟩
/-- PORT_CNT_p.fcs_err -/
def portCnt_fcsErr : Field := ⟨.portCnt, 0, 16⟩
/-- PORT_CNT_p.replays -/
def portCnt_replays : Field := ⟨.portCnt, 16, 16⟩
/-- PORT_CNT_p.retrains -/
def portCnt_retrains : Field := ⟨.portCnt, 32, 16⟩
/-- PORT_CNT_p.stomped -/
def portCnt_stomped : Field := ⟨.portCnt, 48, 16⟩
/-- PORT_FEC_p.corrected -/
def portFec_corrected : Field := ⟨.portFec, 0, 32⟩
/-- PORT_FEC_p.uncorrectable -/
def portFec_uncorrectable : Field := ⟨.portFec, 32, 32⟩
/-- FAB_SLOTS.used -/
def fabSlots_used : Field := ⟨.fabSlots, 0, 16⟩
/-- FAB_SLOTS.peak -/
def fabSlots_peak : Field := ⟨.fabSlots, 16, 16⟩
/-- FAB_SLOTS.waits -/
def fabSlots_waits : Field := ⟨.fabSlots, 32, 16⟩
/-- MOV_OUT_c.ok -/
def movOut_ok : Field := ⟨.movOut, 0, 32⟩
/-- MOV_OUT_c.failed -/
def movOut_failed : Field := ⟨.movOut, 32, 16⟩
/-- MOV_OUT_c.last_code -/
def movOut_lastCode : Field := ⟨.movOut, 48, 16⟩
/-- COLL_STATUS.groups -/
def collStatus_groups : Field := ⟨.collStatus, 0, 9⟩
/-- COLL_STATUS.committed -/
def collStatus_committed : Field := ⟨.collStatus, 16, 13⟩
/-- COLL_STATUS.in_use -/
def collStatus_inUse : Field := ⟨.collStatus, 32, 13⟩
/-- COLL_STAT.unknown -/
def collStat_unknown : Field := ⟨.collStat, 0, 16⟩
/-- COLL_STAT.stale -/
def collStat_stale : Field := ⟨.collStat, 16, 16⟩
/-- COLL_STAT.dup -/
def collStat_dup : Field := ⟨.collStat, 32, 16⟩
/-- COLL_STAT.mismatch -/
def collStat_mismatch : Field := ⟨.collStat, 48, 16⟩
/-- COLL_RES.retry -/
def collRes_retry : Field := ⟨.collRes, 0, 32⟩
/-- COLL_RES.fail -/
def collRes_fail : Field := ⟨.collRes, 32, 16⟩
/-- COLL_G_g.handle -/
def collG_handle : Field := ⟨.collG, 0, 16⟩
/-- COLL_G_g.state -/
def collG_state : Field := ⟨.collG, 16, 2⟩
/-- COLL_G_g.mould -/
def collG_mould : Field := ⟨.collG, 18, 6⟩
/-- COLL_G_g.generation -/
def collG_generation : Field := ⟨.collG, 24, 16⟩
/-- COLL_G_g.quota -/
def collG_quota : Field := ⟨.collG, 40, 11⟩
/-- COLL_G_g.list -/
def collG_list : Field := ⟨.collG, 51, 1⟩
/-- COLL_SLOW_g.slowest -/
def collSlow_slowest : Field := ⟨.collSlow, 0, 10⟩
/-- COLL_SLOW_g.lag_ns -/
def collSlow_lagNs : Field := ⟨.collSlow, 16, 32⟩
/-- COLL_SLOW_g.repeat -/
def collSlow_repeat : Field := ⟨.collSlow, 48, 16⟩
/-- COLL_A2A_g.ovf_blocks -/
def collA2a_ovfBlocks : Field := ⟨.collA2a, 0, 16⟩
/-- COLL_A2A_g.ovf_bytes -/
def collA2a_ovfBytes : Field := ⟨.collA2a, 16, 24⟩
/-- COLL_A2A_g.pad_bytes -/
def collA2a_padBytes : Field := ⟨.collA2a, 40, 24⟩
/-- EGR_QSTAT_q.depth -/
def egrQstat_depth : Field := ⟨.egrQstat, 0, 16⟩
/-- EGR_QSTAT_q.drops -/
def egrQstat_drops : Field := ⟨.egrQstat, 16, 16⟩
/-- EGR_QSTAT_q.discarded -/
def egrQstat_discarded : Field := ⟨.egrQstat, 32, 16⟩
/-- EGR_QSTAT_q.owner -/
def egrQstat_owner : Field := ⟨.egrQstat, 48, 6⟩
/-- EGR_QSTAT_q.owned -/
def egrQstat_owned : Field := ⟨.egrQstat, 54, 1⟩
/-- EGR_QBYTES_q.bytes -/
def egrQbytes_bytes : Field := ⟨.egrQbytes, 0, 48⟩
/-- EGR_GATE_s.open_mask -/
def egrGate_openMask : Field := ⟨.egrGate, 0, 8⟩
/-- EGR_GATE_s.interval -/
def egrGate_interval : Field := ⟨.egrGate, 8, 8⟩
/-- EGR_GATE_s.list -/
def egrGate_list : Field := ⟨.egrGate, 16, 1⟩
/-- EGR_GATE_s.guard_holds -/
def egrGate_guardHolds : Field := ⟨.egrGate, 32, 32⟩
/-- TIME_NOW_NS.value -/
def timeNowNs_value : Field := ⟨.timeNowNs, 0, 64⟩
/-- TIME_NOW_FRAC.value -/
def timeNowFrac_value : Field := ⟨.timeNowFrac, 0, 32⟩
/-- TIME_INCR.incr -/
def timeIncr_incr : Field := ⟨.timeIncr, 0, 48⟩
/-- TIME_CTRL.src -/
def timeCtrl_src : Field := ⟨.timeCtrl, 0, 2⟩
/-- TIME_CTRL.ptp_port -/
def timeCtrl_ptpPort : Field := ⟨.timeCtrl, 2, 5⟩
/-- TIME_CTRL.freq_synce -/
def timeCtrl_freqSynce : Field := ⟨.timeCtrl, 7, 1⟩
/-- TIME_CTRL.synce_en -/
def timeCtrl_synceEn : Field := ⟨.timeCtrl, 8, 1⟩
/-- TIME_CTRL.synce_lane -/
def timeCtrl_synceLane : Field := ⟨.timeCtrl, 9, 5⟩
/-- TIME_CTRL.synce_bw -/
def timeCtrl_synceBw : Field := ⟨.timeCtrl, 14, 2⟩
/-- TIME_CTRL.synce_tx -/
def timeCtrl_synceTx : Field := ⟨.timeCtrl, 16, 1⟩
/-- TIME_CTRL.pps_free -/
def timeCtrl_ppsFree : Field := ⟨.timeCtrl, 17, 1⟩
/-- TIME_STATUS.state -/
def timeStatus_state : Field := ⟨.timeStatus, 0, 2⟩
/-- TIME_STATUS.hops -/
def timeStatus_hops : Field := ⟨.timeStatus, 2, 8⟩
/-- TIME_STATUS.offset_ns -/
def timeStatus_offsetNs : Field := ⟨.timeStatus, 16, 32⟩
/-- TIME_STATUS.freq_offset -/
def timeStatus_freqOffset : Field := ⟨.timeStatus, 48, 16⟩
/-- TIME_ROOT.root_id -/
def timeRoot_rootId : Field := ⟨.timeRoot, 0, 10⟩
/-- TIME_FAB.bad_words -/
def timeFab_badWords : Field := ⟨.timeFab, 0, 32⟩
/-- TIME_FAB.ignored -/
def timeFab_ignored : Field := ⟨.timeFab, 32, 32⟩
/-- TIME_PORT_ASYM_p.asym_ps -/
def timePortAsym_asymPs : Field := ⟨.timePortAsym, 0, 32⟩
/-- TIME_CAP_NS_c.ns -/
def timeCapNs_ns : Field := ⟨.timeCapNs, 0, 64⟩
/-- TIME_CAP_FRAC_c.frac -/
def timeCapFrac_frac : Field := ⟨.timeCapFrac, 0, 32⟩
/-- TIME_CAP_FRAC_c.count -/
def timeCapFrac_count : Field := ⟨.timeCapFrac, 32, 5⟩
/-- TIME_CAP_FRAC_c.overflow -/
def timeCapFrac_overflow : Field := ⟨.timeCapFrac, 37, 1⟩
/-- TIME_TRIG_START_c.start_ns -/
def timeTrigStart_startNs : Field := ⟨.timeTrigStart, 0, 64⟩
/-- TIME_TRIG_CFG_c.period_ns -/
def timeTrigCfg_periodNs : Field := ⟨.timeTrigCfg, 0, 32⟩
/-- TIME_TRIG_CFG_c.width_ns -/
def timeTrigCfg_widthNs : Field := ⟨.timeTrigCfg, 32, 20⟩
/-- TIME_TRIG_CFG_c.arm -/
def timeTrigCfg_arm : Field := ⟨.timeTrigCfg, 52, 1⟩
/-- TIME_TRIG_CFG_c.armed -/
def timeTrigCfg_armed : Field := ⟨.timeTrigCfg, 53, 1⟩
/-- TIME_TRIG_CFG_c.missed -/
def timeTrigCfg_missed : Field := ⟨.timeTrigCfg, 54, 1⟩
/-- TIME_TRIG_CFG_c.refused -/
def timeTrigCfg_refused : Field := ⟨.timeTrigCfg, 55, 1⟩
/-- PPS_CFG.width_us -/
def ppsCfg_widthUs : Field := ⟨.ppsCfg, 0, 20⟩
/-- SE_STATUS_e.state -/
def seStatus_state : Field := ⟨.seStatus, 0, 2⟩
/-- SE_STATUS_e.pc -/
def seStatus_pc : Field := ⟨.seStatus, 2, 14⟩
/-- SE_STATUS_e.mould -/
def seStatus_mould : Field := ⟨.seStatus, 16, 6⟩
/-- SE_STATUS_e.ctx -/
def seStatus_ctx : Field := ⟨.seStatus, 22, 8⟩
/-- SE_STATUS_e.last_fault -/
def seStatus_lastFault : Field := ⟨.seStatus, 32, 16⟩
/-- SE_CNT_e.sat -/
def seCnt_sat : Field := ⟨.seCnt, 0, 16⟩
/-- SE_CNT_e.acc_sat -/
def seCnt_accSat : Field := ⟨.seCnt, 16, 16⟩
/-- SE_CNT_e.nan_in -/
def seCnt_nanIn : Field := ⟨.seCnt, 32, 16⟩
/-- SE_CNT_e.faults -/
def seCnt_faults : Field := ⟨.seCnt, 48, 16⟩
/-- SE_BEATS_e.beats -/
def seBeats_beats : Field := ⟨.seBeats, 0, 32⟩
/-- SE_BEATS_e.wait -/
def seBeats_wait : Field := ⟨.seBeats, 32, 32⟩
/-- SE_PROG_e.free_own -/
def seProg_freeOwn : Field := ⟨.seProg, 0, 14⟩
/-- SE_PROG_e.free_borrower -/
def seProg_freeBorrower : Field := ⟨.seProg, 14, 14⟩
/-- SE_PROG_e.programs -/
def seProg_programs : Field := ⟨.seProg, 28, 8⟩
/-- SE_PROG_e.load_busy -/
def seProg_loadBusy : Field := ⟨.seProg, 36, 1⟩
/-- AP_STATUS_a.mode -/
def apStatus_mode : Field := ⟨.apStatus, 0, 2⟩
/-- AP_STATUS_a.link_up -/
def apStatus_linkUp : Field := ⟨.apStatus, 4, 4⟩
/-- AP_STATUS_a.fh_unmatched -/
def apStatus_fhUnmatched : Field := ⟨.apStatus, 16, 32⟩
/-- AP_STATUS_a.other_drop -/
def apStatus_otherDrop : Field := ⟨.apStatus, 48, 16⟩
/-- RADIO_CAR_c.bound -/
def radioCar_bound : Field := ⟨.radioCar, 0, 1⟩
/-- RADIO_CAR_c.muted -/
def radioCar_muted : Field := ⟨.radioCar, 1, 1⟩
/-- RADIO_CAR_c.active -/
def radioCar_active : Field := ⟨.radioCar, 2, 1⟩
/-- RADIO_CAR_c.mould -/
def radioCar_mould : Field := ⟨.radioCar, 8, 6⟩
/-- RADIO_CAR_c.port -/
def radioCar_port : Field := ⟨.radioCar, 16, 5⟩
/-- RADIO_CAR_c.mutes -/
def radioCar_mutes : Field := ⟨.radioCar, 32, 32⟩
/-- FH_RX_c.early -/
def fhRx_early : Field := ⟨.fhRx, 0, 16⟩
/-- FH_RX_c.late -/
def fhRx_late : Field := ⟨.fhRx, 16, 16⟩
/-- FH_RX_c.malformed -/
def fhRx_malformed : Field := ⟨.fhRx, 32, 16⟩
/-- FH_RX_c.dup -/
def fhRx_dup : Field := ⟨.fhRx, 48, 16⟩
/-- FH_RX2_c.seq_gap -/
def fhRx2_seqGap : Field := ⟨.fhRx2, 0, 16⟩
/-- FH_RX2_c.missing -/
def fhRx2_missing : Field := ⟨.fhRx2, 16, 16⟩
/-- FH_RX2_c.tx_late -/
def fhRx2_txLate : Field := ⟨.fhRx2, 32, 16⟩
/-- FH_RX2_c.tx_bad -/
def fhRx2_txBad : Field := ⟨.fhRx2, 48, 16⟩
/-- RADIO_GAIN_c.code -/
def radioGain_code : Field := ⟨.radioGain, 0, 48⟩
/-- RADIO_GAIN_c.sat -/
def radioGain_sat : Field := ⟨.radioGain, 48, 16⟩
/-- RADIO_CPRING_c.head -/
def radioCpring_head : Field := ⟨.radioCpring, 0, 16⟩
/-- RADIO_CPRING_c.tail -/
def radioCpring_tail : Field := ⟨.radioCpring, 16, 16⟩
/-- RADIO_NF_c.low -/
def radioNf_low : Field := ⟨.radioNf, 0, 16⟩
/-- RADIO_NF_c.high -/
def radioNf_high : Field := ⟨.radioNf, 16, 16⟩
/-- RADIO_NF_c.sfn -/
def radioNf_sfn : Field := ⟨.radioNf, 32, 10⟩
/-- RADIO_UNIT_u.state -/
def radioUnit_state : Field := ⟨.radioUnit, 0, 2⟩
/-- RADIO_UNIT_u.mould -/
def radioUnit_mould : Field := ⟨.radioUnit, 2, 6⟩
/-- RADIO_UNIT_u.queued -/
def radioUnit_queued : Field := ⟨.radioUnit, 8, 8⟩
/-- RADIO_UNIT_u.jobs -/
def radioUnit_jobs : Field := ⟨.radioUnit, 16, 32⟩
/-- RADIO_UNIT_u.last_fail -/
def radioUnit_lastFail : Field := ⟨.radioUnit, 48, 16⟩
/-- THR_STATUS_t.state -/
def thrStatus_state : Field := ⟨.thrStatus, 0, 3⟩
/-- THR_STATUS_t.mould -/
def thrStatus_mould : Field := ⟨.thrStatus, 3, 6⟩
/-- THR_STATUS_t.ctx -/
def thrStatus_ctx : Field := ⟨.thrStatus, 9, 4⟩
/-- THR_STATUS_t.ctx_fault -/
def thrStatus_ctxFault : Field := ⟨.thrStatus, 13, 1⟩
/-- THR_STATUS_t.cause -/
def thrStatus_cause : Field := ⟨.thrStatus, 16, 3⟩
/-- THR_STATUS_t.remote_out -/
def thrStatus_remoteOut : Field := ⟨.thrStatus, 32, 32⟩
/-- THR_FAULT_t.addr -/
def thrFault_addr : Field := ⟨.thrFault, 0, 48⟩
/-- THR_FAULT_t.code -/
def thrFault_code : Field := ⟨.thrFault, 48, 16⟩
/-- CORE_CNT.switches -/
def coreCnt_switches : Field := ⟨.coreCnt, 0, 32⟩
/-- CORE_CNT.remote -/
def coreCnt_remote : Field := ⟨.coreCnt, 32, 16⟩
/-- CORE_CNT.exceptions -/
def coreCnt_exceptions : Field := ⟨.coreCnt, 48, 16⟩
/-- MC_STATUS.core_up -/
def mcStatus_coreUp : Field := ⟨.mcStatus, 0, 4⟩
/-- MC_STATUS.wdog_expired -/
def mcStatus_wdogExpired : Field := ⟨.mcStatus, 4, 4⟩
/-- MC_STATUS.sessions -/
def mcStatus_sessions : Field := ⟨.mcStatus, 8, 5⟩
/-- MC_STATUS.ops_running -/
def mcStatus_opsRunning : Field := ⟨.mcStatus, 16, 7⟩
/-- MGMT_PORT.link_up -/
def mgmtPort_linkUp : Field := ⟨.mgmtPort, 0, 1⟩
/-- MGMT_PORT.rx_ok -/
def mgmtPort_rxOk : Field := ⟨.mgmtPort, 16, 16⟩
/-- MGMT_PORT.drop_auth -/
def mgmtPort_dropAuth : Field := ⟨.mgmtPort, 32, 16⟩
/-- MGMT_PORT.drop_other -/
def mgmtPort_dropOther : Field := ⟨.mgmtPort, 48, 16⟩
/-- LOG_STATUS.next_seq -/
def logStatus_nextSeq : Field := ⟨.logStatus, 0, 48⟩
/-- LOG_STATUS.dropped -/
def logStatus_dropped : Field := ⟨.logStatus, 48, 16⟩
/-- LEDGER_STATUS.state -/
def ledgerStatus_state : Field := ⟨.ledgerStatus, 0, 2⟩
/-- LEDGER_STATUS.head -/
def ledgerStatus_head : Field := ⟨.ledgerStatus, 2, 5⟩
/-- LEDGER_STATUS.free -/
def ledgerStatus_free : Field := ⟨.ledgerStatus, 8, 5⟩
/-- LEDGER_STATUS.compacting -/
def ledgerStatus_compacting : Field := ⟨.ledgerStatus, 16, 1⟩
/-- LEDGER_STATUS.stage_busy -/
def ledgerStatus_stageBusy : Field := ⟨.ledgerStatus, 17, 1⟩
/-- LEDGER_STATUS.stage_target -/
def ledgerStatus_stageTarget : Field := ⟨.ledgerStatus, 18, 1⟩
/-- LEDGER_STATUS.staged -/
def ledgerStatus_staged : Field := ⟨.ledgerStatus, 19, 1⟩
/-- LEDGER_STATUS.throttle -/
def ledgerStatus_throttle : Field := ⟨.ledgerStatus, 20, 2⟩
/-- LEDGER_STATUS.live_kb -/
def ledgerStatus_liveKb : Field := ⟨.ledgerStatus, 32, 32⟩
/-- LEDGER_WEAR.cmax -/
def ledgerWear_cmax : Field := ⟨.ledgerWear, 0, 20⟩
/-- LEDGER_WEAR.projected -/
def ledgerWear_projected : Field := ⟨.ledgerWear, 20, 20⟩
/-- LEDGER_WEAR.age_h -/
def ledgerWear_ageH : Field := ⟨.ledgerWear, 40, 24⟩
/-- LEDGER_ECC.ce -/
def ledgerEcc_ce : Field := ⟨.ledgerEcc, 0, 16⟩
/-- LEDGER_ECC.ue -/
def ledgerEcc_ue : Field := ⟨.ledgerEcc, 16, 16⟩
/-- LEDGER_ECC.last_ue -/
def ledgerEcc_lastUe : Field := ⟨.ledgerEcc, 32, 22⟩
/-- LEDGER_CNT.appended -/
def ledgerCnt_appended : Field := ⟨.ledgerCnt, 0, 32⟩
/-- LEDGER_CNT.throttled -/
def ledgerCnt_throttled : Field := ⟨.ledgerCnt, 32, 16⟩
/-- LEDGER_CNT.compactions -/
def ledgerCnt_compactions : Field := ⟨.ledgerCnt, 48, 16⟩
/-- LEDGER_RESET.mirror -/
def ledgerReset_mirror : Field := ⟨.ledgerReset, 0, 32⟩
/-- LEDGER_RESET.restored -/
def ledgerReset_restored : Field := ⟨.ledgerReset, 32, 1⟩
/-- LEDGER_CTRL.store_net -/
def ledgerCtrl_storeNet : Field := ⟨.ledgerCtrl, 0, 1⟩
/-- LEDGER_CTRL.summary_s -/
def ledgerCtrl_summaryS : Field := ⟨.ledgerCtrl, 16, 16⟩
/-- LEDGER_NET_0.addr -/
def ledgerNet0_addr : Field := ⟨.ledgerNet0, 0, 64⟩
/-- LEDGER_NET_1.addr -/
def ledgerNet1_addr : Field := ⟨.ledgerNet1, 0, 64⟩
/-- LEDGER_NET_2.prefix_len -/
def ledgerNet2_prefixLen : Field := ⟨.ledgerNet2, 0, 8⟩
/-- SEC_STATUS.puf -/
def secStatus_puf : Field := ⟨.secStatus, 0, 2⟩
/-- SEC_STATUS.claimed -/
def secStatus_claimed : Field := ⟨.secStatus, 2, 1⟩
/-- SEC_STATUS.recovery -/
def secStatus_recovery : Field := ⟨.secStatus, 3, 1⟩
/-- SEC_STATUS.vendor_debug -/
def secStatus_vendorDebug : Field := ⟨.secStatus, 4, 1⟩
/-- SEC_STATUS.debug_level -/
def secStatus_debugLevel : Field := ⟨.secStatus, 5, 2⟩
/-- SEC_STATUS.policy -/
def secStatus_policy : Field := ⟨.secStatus, 7, 1⟩
/-- SEC_STATUS.manager_keys -/
def secStatus_managerKeys : Field := ⟨.secStatus, 16, 16⟩
/-- SEC_STATUS.pattern_keys -/
def secStatus_patternKeys : Field := ⟨.secStatus, 32, 16⟩
/-- TAMPER.latched -/
def tamper_latched : Field := ⟨.tamper, 0, 8⟩
/-- TAMPER.halt -/
def tamper_halt : Field := ⟨.tamper, 8, 8⟩
/-- DBG_STATUS.level -/
def dbgStatus_level : Field := ⟨.dbgStatus, 0, 2⟩
/-- DBG_STATUS.token_busy -/
def dbgStatus_tokenBusy : Field := ⟨.dbgStatus, 2, 1⟩
/-- DBG_STATUS.remaining_s -/
def dbgStatus_remainingS : Field := ⟨.dbgStatus, 8, 17⟩
/-- MEAS_n_w.value -/
def meas_value : Field := ⟨.meas, 0, 64⟩
/-- MACSEC_p.key_number -/
def macsec_keyNumber : Field := ⟨.macsec, 0, 32⟩
/-- MACSEC_p.an -/
def macsec_an : Field := ⟨.macsec, 32, 2⟩
/-- MACSEC_p.active -/
def macsec_active : Field := ⟨.macsec, 34, 1⟩
/-- MACSEC_p.key_fail -/
def macsec_keyFail : Field := ⟨.macsec, 48, 16⟩
/-- HEALTH_STATUS.state -/
def healthStatus_state : Field := ⟨.healthStatus, 0, 3⟩
/-- HEALTH_STATUS.retained -/
def healthStatus_retained : Field := ⟨.healthStatus, 3, 1⟩
/-- HEALTH_STATUS.watch -/
def healthStatus_watch : Field := ⟨.healthStatus, 4, 1⟩
/-- HEALTH_STATUS.hard -/
def healthStatus_hard : Field := ⟨.healthStatus, 5, 1⟩
/-- HEALTH_STATUS.score -/
def healthStatus_score : Field := ⟨.healthStatus, 8, 10⟩
/-- HEALTH_STATUS.retain_left_s -/
def healthStatus_retainLeftS : Field := ⟨.healthStatus, 32, 20⟩
/-- HEALTH_PEN_i.pen_a -/
def healthPen_penA : Field := ⟨.healthPen, 0, 16⟩
/-- HEALTH_PEN_i.pen_b -/
def healthPen_penB : Field := ⟨.healthPen, 16, 16⟩
/-- HEALTH_PEN_i.pen_c -/
def healthPen_penC : Field := ⟨.healthPen, 32, 16⟩
/-- HEALTH_PEN_i.pen_d -/
def healthPen_penD : Field := ⟨.healthPen, 48, 16⟩
/-- MEMB_STATUS.seen_epoch -/
def membStatus_seenEpoch : Field := ⟨.membStatus, 0, 32⟩
/-- MEMB_STATUS.last_cause -/
def membStatus_lastCause : Field := ⟨.membStatus, 32, 8⟩
/-- MEMB_STATUS.refused -/
def membStatus_refused : Field := ⟨.membStatus, 48, 16⟩
/-- MEMB_FENCE.fenced -/
def membFence_fenced : Field := ⟨.membFence, 0, 64⟩
/-- HARD_LIMIT.rate_alarm -/
def hardLimit_rateAlarm : Field := ⟨.hardLimit, 0, 1⟩
/-- HARD_LIMIT.ue_rate -/
def hardLimit_ueRate : Field := ⟨.hardLimit, 1, 1⟩
/-- HARD_LIMIT.thermal_last -/
def hardLimit_thermalLast : Field := ⟨.hardLimit, 2, 1⟩
/-- HARD_LIMIT.events -/
def hardLimit_events : Field := ⟨.hardLimit, 16, 16⟩
/-- QUAR_s.active -/
def quar_active : Field := ⟨.quar, 0, 1⟩
/-- QUAR_s.level -/
def quar_level : Field := ⟨.quar, 1, 3⟩
/-- QUAR_s.remaining_s -/
def quar_remainingS : Field := ⟨.quar, 8, 8⟩
/-- QUAR_s.quarantines -/
def quar_quarantines : Field := ⟨.quar, 16, 16⟩
/-- QUAR_s.violations -/
def quar_violations : Field := ⟨.quar, 32, 32⟩
/-- MGMT_QUAR.active -/
def mgmtQuar_active : Field := ⟨.mgmtQuar, 0, 16⟩
/-- MGMT_QUAR.total -/
def mgmtQuar_total : Field := ⟨.mgmtQuar, 16, 16⟩
/-- SIDE_STAT.smbus_nack -/
def sideStat_smbusNack : Field := ⟨.sideStat, 0, 16⟩
/-- SIDE_STAT.pmbus_err -/
def sideStat_pmbusErr : Field := ⟨.sideStat, 16, 16⟩
/-- RST_STATUS.reset_count -/
def rstStatus_resetCount : Field := ⟨.rstStatus, 0, 32⟩
/-- RST_STATUS.last_cause -/
def rstStatus_lastCause : Field := ⟨.rstStatus, 32, 8⟩
/-- RST_STATUS.bkp_valid -/
def rstStatus_bkpValid : Field := ⟨.rstStatus, 40, 1⟩
/-- RST_STATUS.thermtrip -/
def rstStatus_thermtrip : Field := ⟨.rstStatus, 41, 1⟩
/-- PWR_STATUS.vin -/
def pwrStatus_vin : Field := ⟨.pwrStatus, 0, 16⟩
/-- PWR_STATUS.iin -/
def pwrStatus_iin : Field := ⟨.pwrStatus, 16, 16⟩
/-- PWR_STATUS.pin_w -/
def pwrStatus_pinW : Field := ⟨.pwrStatus, 32, 16⟩
/-- THERM_STATUS.tj -/
def thermStatus_tj : Field := ⟨.thermStatus, 0, 32⟩
/-- THERM_STATUS.tj_max -/
def thermStatus_tjMax : Field := ⟨.thermStatus, 32, 8⟩
/-- THERM_STATUS.cap_active -/
def thermStatus_capActive : Field := ⟨.thermStatus, 40, 1⟩
/-- PWR_ALARM.vin_out -/
def pwrAlarm_vinOut : Field := ⟨.pwrAlarm, 0, 16⟩
/-- PWR_ALARM.rail_fault -/
def pwrAlarm_railFault : Field := ⟨.pwrAlarm, 16, 16⟩
/-- PWR_ALARM.cap_entries -/
def pwrAlarm_capEntries : Field := ⟨.pwrAlarm, 32, 16⟩
/-- PWR_ALARM.power_cap -/
def pwrAlarm_powerCap : Field := ⟨.pwrAlarm, 48, 16⟩
/-- BKP_SECONDS.seconds -/
def bkpSeconds_seconds : Field := ⟨.bkpSeconds, 0, 48⟩
/-- BLK_CHILL_n.chill -/
def blkChill_chill : Field := ⟨.blkChill, 0, 64⟩
/-- BLK_RST.index -/
def blkRst_index : Field := ⟨.blkRst, 0, 8⟩
/-- BLK_RST.go -/
def blkRst_go : Field := ⟨.blkRst, 8, 1⟩
/-- BLK_RST.busy -/
def blkRst_busy : Field := ⟨.blkRst, 9, 1⟩
/-- BLK_RST.last_code -/
def blkRst_lastCode : Field := ⟨.blkRst, 16, 16⟩
/-- BLK_RST.last_index -/
def blkRst_lastIndex : Field := ⟨.blkRst, 32, 8⟩
/-- ALERT_CAUSE.refclk -/
def alertCause_refclk : Field := ⟨.alertCause, 0, 1⟩
/-- ALERT_CAUSE.gddr_radio -/
def alertCause_gddrRadio : Field := ⟨.alertCause, 1, 1⟩
/-- ALERT_CAUSE.hard_limit -/
def alertCause_hardLimit : Field := ⟨.alertCause, 2, 1⟩
/-- ALERT_CAUSE.thermal -/
def alertCause_thermal : Field := ⟨.alertCause, 3, 1⟩
/-- ALERT_CAUSE.vin -/
def alertCause_vin : Field := ⟨.alertCause, 4, 1⟩
/-- ALERT_CAUSE.pmbus -/
def alertCause_pmbus : Field := ⟨.alertCause, 5, 1⟩

end F

end Sys2Proof.Machine
end

