-- ==== Sys2Proof/Machine/Tab.lean ====
section
/-! DEFINITION. Sys2Proof/Machine/Tab.lean: sparse tables in one canonical form (keys strictly rising, no entry equal to
the default), used for every indexed piece of state and, with byte values, for every memory. -/
namespace Sys2Proof.Machine

/-- A sparse table: key and value pairs. -/
abbrev Tab (α : Type) := List (Nat × α)

/-- The entry at key k, if listed. -/
def Tab.find {α : Type} (t : Tab α) (k : Nat) : Option α :=
  match t with
  | [] => none
  | (a, x) :: r => if a = k then some x else Tab.find r k

/-- The value at key k; an unlisted key has the default d. -/
def Tab.get {α : Type} (d : α) (t : Tab α) (k : Nat) : α := (Tab.find t k).getD d

/-- t without key k. -/
def Tab.del {α : Type} (t : Tab α) (k : Nat) : Tab α :=
  match t with
  | [] => []
  | (a, x) :: r => if a = k then Tab.del r k else (a, x) :: Tab.del r k

/-- t with key k holding v, listed. -/
def Tab.put {α : Type} (t : Tab α) (k : Nat) (v : α) : Tab α :=
  match t with
  | [] => [(k, v)]
  | (a, x) :: r =>
    if a = k then (k, v) :: r
    else if k < a then (k, v) :: (a, x) :: r
    else (a, x) :: Tab.put r k v

/-- t with key k holding v; a value equal to the default d is not listed. -/
def Tab.set {α : Type} [DecidableEq α] (d : α) (t : Tab α) (k : Nat) (v : α) : Tab α :=
  if v = d then Tab.del t k else Tab.put t k v

/-- The keys of t rise strictly, all above the bound. -/
def Tab.sortedFrom {α : Type} : Option Nat → Tab α → Bool
  | _, [] => true
  | none, (a, _) :: r => Tab.sortedFrom (some a) r
  | some b, (a, _) :: r => decide (b < a) && Tab.sortedFrom (some a) r

/-- The canonical form: keys strictly rising and no entry equal to the default. -/
def Tab.wf {α : Type} [DecidableEq α] (d : α) (t : Tab α) : Bool :=
  Tab.sortedFrom none t && t.all (fun e => decide (e.2 ≠ d))

/-- The values of t. -/
def Tab.vals {α : Type} (t : Tab α) : List α := t.map (·.2)

end Sys2Proof.Machine
end

