-- ==== Sys2Proof/Machine/State.lean ====
section
/-! DEFINITION. Sys2Proof/Machine/State.lean: the state of the device, as plain data, and the state right after reset.
Every CSR lives in `State.csr` at its address; what the manual gives the machine beside its registers lives in the
structures below, one per chapter. Sparse tables hold only entries that differ from their default. -/
namespace Sys2Proof.Machine

/-- Why the machine stops. -/
inductive Fault where
  /-- Raised by VIN_OVERVOLTAGE above the absolute maximum of 80 V (R576: "Damage may result"); safe: the model stops. -/
  | absoluteMaximum
  deriving DecidableEq, Repr

/-- Why a command has no meaning. -/
inductive Refusal where
  /-- The row of that mnemonic has no meaning yet; raised only by an arm of exec; safe. -/
  | notModelled (mnemonic : String)
  deriving DecidableEq, Repr

/-- What the device has sent on one of its interfaces (the model's own record of outputs, oldest first). -/
inductive Emit where
  /-- A management response (R483, R484): session, request, status, handle, duplicate flag, body, port. -/
  | response (session reqId status handle : Nat) (dup : Bool) (body : Bytes) (port : Nat)
  /-- A management notification (R483): session, type, sequence, body. -/
  | notify (session type seq : Nat) (body : Bytes)
  /-- A handshake, CLOSE, ICMPv6 or recovery datagram on a management port: port, type, body. -/
  | mgmt (port type : Nat) (body : Bytes)
  /-- A Joravo link word or frame: port, kind, body. -/
  | link (port kind : Nat) (body : Bytes)
  /-- A frame started on an access sub-port by the egress scheduler: sub-port, queue, frame. -/
  | egress (sub queue : Nat) (body : Bytes)
  /-- A PTP or ESMC message: sub-port, message type, body. -/
  | ptp (sub type : Nat) (body : Bytes)
  /-- A pulse on a pin: pin, instant in ns, width in ns. -/
  | pulse (pin at_ width : Nat)
  /-- An answer on SMBus or PMBus: 0 ACK, 1 NACK, with data. -/
  | smbus (nack : Nat) (body : Bytes)
  deriving DecidableEq, Repr

/-- One event record (Table 16.9). -/
structure LogRec where
  time : Nat
  code : Nat
  source : Nat
  mould : Nat
  heat : Nat
  detail : Nat
  deriving DecidableEq, Repr

/-- The event log (R492, R493): the records kept, newest first, the next sequence number, this heartbeat's counts,
and the records of each code and the records dropped in the summary interval (Table 17.8). -/
structure LogSt where
  recs : List LogRec
  seq : Nat
  hbCount : Nat
  hbDropped : Nat
  codes : Tab Nat
  dropped : Nat
  deriving DecidableEq, Repr

/-- The time of day: ns, 32-bit fraction and 16 hidden bits (R392), the ns elapsed since reset, and the last heartbeat. -/
structure ClockSt where
  ns : Nat
  frac : Nat
  hid : Nat
  up : Nat
  beats : Nat
  deriving DecidableEq, Repr

/-- One section of a pattern in effect: its type and body. -/
abbrev Secs := List (Nat × Bytes)

/-- A pattern in effect (R34, R38, R42): its digest, sections, id and security version. -/
structure PatInEffect where
  digest : Bytes
  secs : Secs
  patternId : Nat
  secVersion : Nat
  deriving DecidableEq, Repr

/-- Where a failed check points (R65): code, section type, entry index, byte offset. -/
structure PatErr where
  code : Nat
  sec : Nat
  idx : Nat
  off : Nat
  deriving DecidableEq, Repr

/-- A pour in progress (R66 to R71): the bytes given, whether a base bundle, the mould named, and whether phase C admitted it. -/
structure PourSt where
  data : Bytes
  base : Bool
  mould : Nat
  poured : Bool
  deriving DecidableEq, Repr

/-- A start request (R253). -/
structure StartReq where
  list : Nat
  seg : Nat
  gateTok : Nat
  gateEn : Bool
  gateCnt : Nat
  deriving DecidableEq, Repr

/-- An open repeat of a stream (R186): where its body starts, its length, its count, the iteration, its two strides. -/
structure Rpt where
  start : Nat
  body : Nat
  count : Nat
  iter : Nat
  strideA : Nat
  strideB : Nat
  deriving DecidableEq, Repr

/-- What one output element has accumulated (R107, R114, R117): the exact sum, the drain values of its MX blocks in
ascending K, and the operand pairs of a wide chain in ascending K. -/
structure Cell where
  acc : AccVal
  drains : List Nat
  wide : List (Nat × Nat)
  deriving DecidableEq, Repr

/-- A span of an array: its mode (0 WS, 1 OS, 2 V), its profile, the DRN source that drains it, its cells by row and
column, its products per element, and whether it is complete and committed. -/
structure Span where
  mode : Nat
  profile : Nat
  source : Nat
  cells : List (List Cell)
  prods : Nat
  ended : Bool
  chain : Bool
  deriving DecidableEq, Repr

/-- A weight plane loaded by an LDS (R146): its profile, K rows and N columns, the weight codes by K row, the scale
bytes block-major (R613). -/
structure Plane where
  profile : Nat
  weights : List (List Nat)
  scales : List (List Nat)
  deriving DecidableEq, Repr

/-- A bound chain (R197): the two words of its CHN, its stepped addresses, and whether its STR has issued. -/
structure Binding where
  chain : Nat
  param0 : Nat
  param1 : Nat
  x0 : Nat
  x1 : Nat
  strideX : Nat
  arrival : Bool
  strDone : Bool
  ordinal : Nat
  deriving DecidableEq, Repr

/-- One matrix array beside its registers (Table 5.1): the planes waiting in the shadow, the active plane, the spans,
the edge half the next WS span uses, the row-factor file with its means, the bound chain, the end of the holding
window, and the pass held for a replay. -/
structure ArraySt where
  shadow : List Plane
  active : Plane
  spans : List Span
  half : Nat
  rowF : List Nat
  rowMu : List Nat
  binding : Option Binding
  holdEnd : Nat
  replay : Option Nat
  lent : Bool
  deriving DecidableEq, Repr

/-- An instruction in an engine queue (R165): its engine, class, three words, what its repeats add to its A and B addresses
(R187), and its ordinal (R235). -/
structure QIns where
  eng : Nat
  cls : Nat
  w0 : Nat
  w1 : Nat
  w2 : Nat
  offA : Int
  offB : Int
  ord : Nat
  pc : Nat
  deriving DecidableEq, Repr

/-- One sequencer stream beside its registers: whether a segment runs, its position, its open repeats, its local
tokens, its claims, its start, the replay beats used, and what its digest unit has absorbed. -/
structure StreamSt where
  busy : Bool
  ending : Bool
  pc : Nat
  rpts : List Rpt
  ltok : Tab Nat
  arrays : Nat
  engines : Nat
  banks : Nat
  startNs : Nat
  replayUsed : Nat
  queues : Tab (List QIns)
  segOff : Nat
  image : Bytes
  ordinal : Nat
  dgW : Tab Bytes
  dgI : Tab Bytes
  dgO : Tab Bytes
  absorbed : Nat
  ndSeed : Nat
  ndSeeded : Bool
  ndOrder : Bool
  replayed : Bool
  audit : Bool
  auditSeed : Nat
  slot : Option (Nat × Nat)
  notBefore : Nat
  run : Nat
  deriving DecidableEq, Repr

/-- A list resident in list memory (R190). -/
structure ResList where
  mould : Nat
  ctx : Nat
  id : Nat
  image : Bytes
  deriving DecidableEq, Repr

/-- Who asked for a load: a management request (session, request) or a thread. -/
inductive Asker where
  | mgmt (session reqId port : Nat)
  | thread (t : Nat)
  deriving DecidableEq, Repr

/-- A list or program load being validated (R191, R427): what was asked for, and the image when its header was read. -/
structure LoadReq where
  mould : Nat
  ctx : Nat
  addr : Nat
  engines : Nat
  id : Nat
  pages : Nat
  asker : Asker
  deriving DecidableEq, Repr

/-- A MOV in a context's transfer queue (R167): its kind, flags, tokens, addresses and length, the heat and quench count at issue,
whether it has begun, its number among the device's transfers and operations, and the run of the segment that issued it. -/
structure MovSt where
  kind : Nat
  fast : Bool
  doneTok : Nat
  doneEn : Bool
  len : Nat
  src : Nat
  dst : Nat
  remTok : Nat
  remEn : Bool
  heat : Nat
  quenches : Nat
  begun : Bool
  opId : Nat
  run : Nat
  beganAt : Nat
  deriving DecidableEq, Repr

/-- A digest record due (R238). -/
structure DigestRec where
  mould : Nat
  ctx : Nat
  stream : Nat
  addr : Nat
  bytes : Bytes
  stopped : Bool
  nd : Bool
  due : Nat
  deriving DecidableEq, Repr

/-- One word of a resident signal-engine program, or a program as loaded (R425, R426). -/
structure SeProg where
  mould : Nat
  id : Nat
  base : Nat
  flags : Nat
  words : List Nat
  entries : List Nat
  deriving DecidableEq, Repr

/-- An open BLK of a signal engine: where its body starts and ends, and the passes left. -/
structure BlkSt where
  start : Nat
  stop : Nat
  left : Nat
  deriving DecidableEq, Repr

/-- A pointer of a signal engine (Table 14.1): address, base, length, step. -/
structure PtrSt where
  addr : Nat
  base : Nat
  len : Nat
  step : Nat
  deriving DecidableEq, Repr

/-- A signal engine (Table 14.1): data registers (real and imaginary), accumulators, pointers, parameters, SRAM address
registers, the two data memories, open blocks, job flags, program memory, and the loads in progress. -/
structure SeSt where
  regs : Tab (Nat × Nat)
  accs : Tab (Int × Int)
  ptrs : Tab PtrSt
  pars : Tab Nat
  sas : Tab Nat
  dmA : Tab (Nat × Nat)
  dmB : Tab (Nat × Nat)
  blks : List BlkSt
  flags : Nat
  progs : List SeProg
  loads : List LoadReq
  stream : Nat
  running : Bool
  banks : Nat
  deriving DecidableEq, Repr

/-- Why a thread is switched out (R471). -/
inductive ThrWait where
  | none
  | remote (opId : Nat)
  | token (t n : Nat)
  | load
  | park (ns : Nat)
  | fence
  | miss
  | slot
  deriving DecidableEq, Repr

/-- A control-core thread beside its registers (R467, R473): x0 to x31, the pc, ST, its wait, the destination of the
wait's result, the instructions run since the last switch, the first failure its next FENCE reports, what its fence waits for
((1, op) an operation, (2 + dev, point) a stream), and the code of a cache fill that failed. -/
structure ThreadSt where
  regs : Tab Nat
  pc : Nat
  st : Nat
  wait : ThrWait
  rd : Nat
  quantum : Nat
  fenceErr : Nat
  fence : List (Nat × Nat)
  missErr : Nat
  deriving DecidableEq, Repr

/-- A line of a control-core cache (R300): its mould, its mould-local address, its data, whether it is dirty. -/
structure LineSt where
  mould : Nat
  addr : Nat
  data : Bytes
  dirty : Bool
  deriving DecidableEq, Repr

/-- One cluster beside its registers and its SRAM. -/
structure ClusterSt where
  lists : List ResList
  loads : List LoadReq
  streams : Tab StreamSt
  arrays : Tab ArraySt
  queues : Tab (List StartReq)
  tokens : Tab Nat
  ladle : Tab (List MovSt)
  nextCtx : Nat
  records : List DigestRec
  auditOp : Option Nat
  se : Tab SeSt
  threads : Tab ThreadSt
  curThread : Nat
  icache : Tab LineSt
  dcache : Tab LineSt
  predictor : Tab Nat
  deriving DecidableEq, Repr

/-- A mould beside its registers: the sections of its pattern, the clusters it claims or reserves, the offers it binds
(lender, offer), the FAULTED contexts, the run counts of its contexts, and its hot-set pool. -/
structure MouldSt where
  secs : Secs
  digest : Bytes
  claimed : List Nat
  bound : List (Nat × Nat)
  faulted : List Nat
  runSeq : Tab Nat
  quenches : Nat
  auditing : Bool
  chilling : Bool
  tableAt : Option Nat
  tableFrom : Option Nat
  windows : Tab Nat
  slotDone : Tab Nat
  preWarmed : List (Nat × Nat)
  pooled : Bool
  pools : List (Nat × Nat)
  maxHot : Nat
  xtsGen : Nat
  deriving DecidableEq, Repr

/-- A hot-set directory entry (Table 9.4). -/
structure HotEntry where
  digest : Bytes
  mould : Nat
  loading : Bool
  dst : Nat
  len : Nat
  pins : Nat
  lastUse : Nat
  handle : Nat
  deriving DecidableEq, Repr

/-- A receive window (R270, R481): the highest counter seen and the counters seen below it. -/
structure WindowSt where
  top : Nat
  seen : List Nat
  deriving DecidableEq, Repr

/-- A session a service endpoint tracks (R270, R271). -/
structure SvcSession where
  id : Nat
  win : WindowSt
  last : Nat
  deriving DecidableEq, Repr

/-- A service endpoint (R269 to R272). -/
structure SvcSt where
  mould : Nat
  ctx : Nat
  port : Nat
  ipv6 : Bytes
  udp : Nat
  rxBase : Nat
  rxSlots : Nat
  txBase : Nat
  txSlots : Nat
  token : Nat
  queue : Nat
  rxRate : Nat
  key : Bytes
  sessions : List SvcSession
  floor : Nat
  txCount : Nat
  msStart : Nat
  msCount : Nat
  deriving DecidableEq, Repr

/-- A ramp-up asked of the slope controller (R95): its class (0 pre-warm for a radio entry, 1 for a loan entry, 2 a segment),
the arrays of a cluster, until when the arrays then hold (0: their own holding window), and whether it was granted. -/
structure RampReq where
  cls : Nat
  cluster : Nat
  mask : Nat
  until_ : Nat
  granted : Bool
  deriving DecidableEq, Repr

/-- One field of the core (R76 to R96): the governor's counts, the shedding times, the frame fence and the slope queue. -/
structure FieldSt where
  lowRun : Nat
  highRun : Nat
  stageAt : Nat
  liftAt : Option Nat
  alarmAt : Nat
  alarmNs : Nat
  below : Bool
  okSince : Nat
  frameDone : Bool
  frames : Nat
  ramps : List RampReq
  accAt : Nat
  deriving DecidableEq, Repr

/-- A command whose parts are all present, waiting for core 0 (R483, R485): session, request_id, code, body, and the port on
which its last part arrived, and when. -/
structure MReq where
  sess : Nat
  reqId : Nat
  code : Nat
  body : Bytes
  port : Nat
  at_ : Nat
  deriving DecidableEq, Repr

/-- An operation's own part (Table 16.7): for a quench the mould, the clusters still to clear, the phase reached (0 stop, 1 clusters,
2 and on the table steps taken), how many table steps there are, and the state and code it ends with; a scan's running register and
position; and so on for the others. -/
inductive OpBody where
  | none
  | quench (m : Nat) (todo : List Nat) (phase tables endState endCode : Nat)
  | ctxQuench (m x : Nat)
  | pour (p : PourSt)
  | retrain (ch : Nat)
  | scan (m start len poly fold seqBase reg pos : Nat)
  | hot (m : Nat) (digest : Bytes) (src dst len : Nat)
  | stage (target : Nat)
  | group (h : Nat)
  | audit (c m x list seg seed : Nat)
  | selfTest (c a : Nat)
  | cert (data : Bytes)
  | auth (r : MReq)
  | attest (report : Bytes)
  | token (data : Bytes) (fresh : Bool)
  | hsSign (sess : Nat)
  | hsVerify (sess : Nat) (sig : Bytes)
  | scrub (kind pos : Nat)
  | compact (victim : Nat) (todo : List Nat) (phase : Nat)
  deriving DecidableEq, Repr

/-- One handle entry (R488, Table 16.8), with the check value a scan left. state: 0 free, 1 running, 2 done, 3 failed, 4 cancelled. -/
structure OpSt where
  handle : Nat
  cmd : Nat
  state : Nat
  kind : Nat
  done : Nat
  total : Nat
  started : Nat
  ended : Nat
  status : Nat
  body : OpBody
  hb : Nat
  res : Nat
  deriving DecidableEq, Repr

/-- A command of a session whose parts are being collected (R483). -/
structure Collecting where
  reqId : Nat
  code : Nat
  parts : Nat
  have_ : List (Nat × Bytes)
  firstAt : Nat
  port : Nat
  deriving DecidableEq, Repr

/-- A request the session has accepted, with its response once formed, and the ports on which it arrived again meanwhile (R484). -/
structure ReqRec where
  reqId : Nat
  resp : Option (Nat × Nat × Bytes)
  dups : List Nat
  deriving DecidableEq, Repr

/-- A management session (R479 to R484): its key and roles, whether its PROVE has verified, when it opened and last had a valid record,
the source and port of its HELLO, the window of received counters and the records sent, the transcript hash, the shared secret and the
ACCEPT without its signature, commands in parts, requests, subscriptions, notifications sent, and the event records notified. -/
structure SessSt where
  id : Nat
  keyId : Bytes
  roles : Nat
  confirmed : Bool
  openedAt : Nat
  lastAt : Nat
  source : Bytes
  port : Nat
  winIn : WindowSt
  outCtr : Nat
  transcript : Bytes
  shared : Bytes
  accept : Bytes
  collecting : List Collecting
  reqs : List ReqRec
  mask : Nat
  noteSeq : Nat
  sentTo : Nat
  deriving DecidableEq, Repr

/-- Fragments of a handshake message from one source (R479): the source, the type, the session it names, and the fragments come so far. -/
structure HsFrag where
  source : Bytes
  ty : Nat
  sess : Nat
  have_ : List (Nat × Bytes)
  deriving DecidableEq, Repr

/-- The management controller beside its registers, with the commands that wait for core 0 in arrival order: sessions, handshakes in
fragments, operations by handle index, handle sequence, the last watchdog expiry,
what core 0 has spent on steps and how many commands it has taken in this heartbeat, whether it has run a step since the last
command, the operations left below their minimum, and the entries in the order in which their operations ended. -/
structure MgmtSt where
  sessions : List SessSt
  hs : List HsFrag
  nextSession : Nat
  ops : Tab OpSt
  handleSeq : Nat
  wdogAt : Option Nat
  hbSteps : Nat
  hbCmds : Nat
  stepped : Bool
  starved : List Nat
  waiting : List MReq
  ended : List Nat
  deriving DecidableEq, Repr

/-- The backup domain (Table 20.6): reset counter, last cause, seconds with the ns since the last one, tamper latches,
thermal-trip latch, and whether the valid word holds. -/
structure BackupSt where
  counter : Nat
  cause : Nat
  seconds : Nat
  subNs : Nat
  tamper : Nat
  trip : Bool
  valid : Bool
  deriving DecidableEq, Repr

/-- Reset and power beside their registers (R576 to R595): whether the device reset is asserted, since when and with which
cause; the release conditions of R587; the block resets that run, with their starts; a pending DEVICE_RESET; the bypass pins driven high; the
end of the ALERT_N hold; the last step of the thermal cap by field, and by how many sixteenths it and the power cap lower each field,
whether BOOT accepted the committed image, the records that wait for firmware, the failed PMBus tries, and whether the reset was the recovery loader's. -/
structure ResetSt where
  asserted : Bool
  assertAt : Nat
  cause : Nat
  pinLow : Bool
  refLost : Bool
  qualified : Bool
  vinOut : Bool
  rails : Bool
  waitPin : Bool
  blocks : List (Nat × Nat)
  devAt : Option Nat
  bypass : Nat
  alertUntil : Nat
  alertLow : Bool
  capAt : Tab Nat
  thermLow : Tab Nat
  powLow : Tab Nat
  booted : Bool
  bootLog : List (Nat × Nat × Nat × Nat)
  pmbTries : Nat
  recovered : Bool
  deriving DecidableEq, Repr

/-- Who a tier-1 or tier-2 request belongs to: a ladle transfer of a context, or a thread's cache line. -/
inductive GranWho where
  | ladle (c m x id : Nat)
  | thread (c t : Nat)
  deriving DecidableEq, Repr

/-- A granule of 256 B or less in a channel's or a CXL port's queue (R284, R292): its owner, direction, mould, mould-local
address in the far tier, mould-local address on the cluster, length, and when it was asked for and reached the head. -/
structure Gran where
  who : GranWho
  write : Bool
  mould : Nat
  far : Nat
  near : Nat
  len : Nat
  at_ : Nat
  head : Nat
  deriving DecidableEq, Repr

/-- The far tiers beside their registers: the granules waiting by (channel, mould) and by (CXL device, mould), the mould that
last took a given unit of a channel or a turn of a port, the head-of-queue waits of this heartbeat by mould and place, the CRC
retries of this heartbeat, the start of the last SRAM scrub pass (plus one) and of the
GDDR7 pass, and the position of that one. -/
structure TierSt where
  gq : Tab (List Gran)
  cq : Tab (List Gran)
  gLast : Tab Nat
  cLast : Tab Nat
  waits : Tab Nat
  retries : Tab Nat
  sramAt : Nat
  gddrAt : Nat
  gddrPos : Nat
  deriving DecidableEq, Repr
/-- A Joravo port beside its registers (R304 to R319, R404): the frames received and not yet taken by the switch, the link
sequences, the replay buffer, the replays of its oldest frame and the last advance of lack, the credits held, the credits the
peer holds and the credits owed to it by lane class, packet numbers sent, the end of a wait, and the time words. -/
structure PortSt where
  rx : List Bytes
  rxSeq : Nat
  txSeq : Nat
  replay : List (Nat × Bytes)
  tries : Nat
  lackAt : Nat
  credit : List Nat
  room : List Nat
  owed : List Nat
  pn : Nat
  at_ : Nat
  badAt : Option Nat
  was : Bool
  twSeq : Nat
  twEcho : Nat
  twRx : Nat
  twSent : List (Nat × Nat)
  deriving DecidableEq, Repr

/-- A frame of class 0 sent and not yet covered or answered: its sequence, its operation, when it was last sent, its bytes. -/
structure TxFrame where
  seq : Nat
  op : Nat
  at_ : Nat
  frame : Bytes
  deriving DecidableEq, Repr

/-- The send stream to a (device, mould) (R321 to R324): the last sequence given, the cum last acknowledged, the frames
out, and by context the last sequence that a write of it used, plus one (R338). -/
structure TxStream where
  seq : Nat
  acked : Nat
  out : List TxFrame
  lastW : Tab Nat
  deriving DecidableEq, Repr

/-- A put's frame taken and not yet passed by cum (R327): sequence, whether it was refused, and the frame's bytes up to its
request header. -/
structure PutRec where
  seq : Nat
  refused : Bool
  head : Bytes
  deriving DecidableEq, Repr

/-- The receive stream from a (device, mould) (R322): cum, the sequences taken above it, the put frames among them, the puts of
which a frame was refused, the advances not yet acknowledged and the first of them. -/
structure RxStream where
  cum : Nat
  above : List Nat
  puts : List PutRec
  refused : List Nat
  adv : Nat
  advAt : Nat
  deriving DecidableEq, Repr

/-- A remote operation (R330 to R342): kind (3 put, 4 get, 5 load, 6 store, 7 atomic, 8 version read, 9 ownership), the issuing
cluster, mould, context and thread (16 for the ladle), heat and quench count at issue, the destination, both addresses, the
length, token fields, the first sequence and when it was sent, the bytes formed, the sequences out, the first failure, and what
a get or an atomic has gathered. -/
structure ROp where
  kind : Nat
  cluster : Nat
  mould : Nat
  ctx : Nat
  thread : Nat
  heat : Nat
  quenches : Nat
  dev : Nat
  far : Nat
  near : Nat
  len : Nat
  tok : Nat
  tokEn : Bool
  doneTok : Nat
  doneEn : Bool
  first : Nat
  firstAt : Nat
  sent : Nat
  left : List Nat
  fail : Nat
  attempt : Nat
  landed : List Nat
  v0 : Nat
  v1 : Nat
  gflags : Nat
  got : Bool
  sends : Nat
  busy : Nat
  rd : Nat
  sub : Nat
  args : Bytes
  deriving DecidableEq, Repr

/-- An entry of the reply cache (R339): its key (source device, mould, sequence), the response and when it was stored. -/
structure Reply where
  key : Nat
  frame : Bytes
  at_ : Nat
  deriving DecidableEq, Repr

/-- The fabric: ports, streams by (device, mould), operations by number, the reply cache, and the detours logged. -/
structure FabSt where
  ports : Tab PortSt
  tx : Tab TxStream
  rx : Tab RxStream
  ops : Tab ROp
  opSeq : Nat
  cache : List Reply
  loopQ : List Bytes
  detours : List Nat
  opened : List Nat
  deriving DecidableEq, Repr
/-- A partial chunk in a crucible slot (R360): the member index it came from, op_seq, chunk, fast, op_len64, its frames, whether all
have arrived, whether its sum has been forwarded, and its stamp with the member it names. -/
structure CollSlot where
  src : Nat
  op : Nat
  chunk : Nat
  fast : Bool
  len64 : Nat
  parts : List (Nat × Bytes)
  full : Bool
  sent : Bool
  stamp : Nat
  late : Nat
  deriving DecidableEq, Repr

/-- A chunk, or a piece of a block, that waits to be sent (R360, R361): the member it goes to, its stage, op_seq, op_len64, fast,
chunk and first part, its bytes, or where and how much of the contribution it reads, and its stamp. -/
structure CollSend where
  dst : Nat
  stage : Nat
  op : Nat
  len64 : Nat
  fast : Bool
  chunk : Nat
  part : Nat
  data : Bytes
  src : Nat
  n : Nat
  stamp : Nat
  late : Nat
  deriving DecidableEq, Repr

/-- The operation under way in a group (R355, R356): its number, its transfer, the contribution and where its result goes, its
length, tokens and mode, when it began, the chunks summed, the granules landed and their in-order prefix, the members whose data
or counts have arrived, and the latest begin stamp known with its member. -/
structure CollOp where
  seq : Nat
  opId : Nat
  cluster : Nat
  src : Nat
  dst : Nat
  len : Nat
  fast : Bool
  tok : Nat
  tokEn : Bool
  stamp0 : Nat
  beganAt : Nat
  summed : List Nat
  landed : List Nat
  prefix_ : Nat
  froms : List Nat
  pieces : Tab Nat
  stamp : Nat
  late : Nat
  deriving DecidableEq, Repr

/-- A group beside its registers (chapter 12): its entry, the operation that sets it up, when SETUP began and a HELLO last went out,
the members whose HELLO matched, the next op_seq, the operation under way, slots, frames that came before their MOV, sends that
wait, cumulative credits held and used, given and landed by member, and the frames taken. -/
structure GroupSt where
  entry : Bytes
  setup : Option Nat
  setAt : Nat
  helloAt : Nat
  hellos : List Nat
  opSeq : Nat
  cur : Option CollOp
  slots : List CollSlot
  early : List Bytes
  outq : List CollSend
  credHave : Tab Nat
  credUsed : Tab Nat
  landHave : Tab Nat
  landUsed : Tab Nat
  credGive : Tab Nat
  landGive : Tab Nat
  taken : List Nat
  deriving DecidableEq, Repr

/-- A COLL_ABORT that still goes out (R373): the group's handle, generation and mould, the other members, the own index, the op_seq
and code it carries, how many are left and when the next is due. -/
structure AbortSt where
  handle : Nat
  gen : Nat
  mould : Nat
  devs : List Nat
  idx : Nat
  op : Nat
  code : Nat
  left : Nat
  at_ : Nat
  deriving DecidableEq, Repr
/-- A frame in an egress queue: its bytes, its length, the Joravo port whose receive buffer it holds (12 for none), its mould
(255 for none), whether the guard has counted it, and for a radio frame its carrier and the end of its transmit window (R449). -/
structure EgFrame where
  bytes : Bytes
  len : Nat
  inPort : Nat
  mould : Nat
  held : Bool
  car : Nat
  until_ : Nat
  deriving DecidableEq, Repr

/-- An egress queue (R376 to R386): its frames, its deficit, what its shaper credit lies below its cap in 1/8000 B as of an
instant, and the deficits of the groups that share it with the group served last (R370). -/
structure EgQueue where
  frames : List EgFrame
  deficit : Nat
  spent : Nat
  at_ : Nat
  gdef : Tab Nat
  gcur : Nat
  deriving DecidableEq, Repr

/-- A sub-port's scheduler (R382, R383): the queue last served by strict level (plus one), the queue of the weighted group whose
turn it is (plus one), and when it is ready again, in 1/100 ns of the time since reset. -/
structure SubSt where
  last : Tab Nat
  cur : Nat
  freeAt : Nat
  deriving DecidableEq, Repr

/-- The egress side: queues by global number, sub-ports, the ports that logged 0x1305 in this heartbeat. -/
structure EgrSt where
  qs : Tab EgQueue
  subs : Tab SubSt
  logged : List Nat
  deriving DecidableEq, Repr

/-- The time unit beside its registers (R392 to R410): consecutive good measurements, the last valid one, the increments of the
last second, the offsets of the words being averaged, the stamp FIFOs and last edges by pin, the next trigger edges, PTP data
sets, stamps of event messages sent and received, the SyncE state (0 off, 1 following, 2 holdover) with the last ESMC, when
HOLDOVER began (plus one) and the time when LOCKED or FREERUN was last entered, and the
upstream port (plus one). -/
structure TimeSt where
  good : Nat
  measAt : Nat
  hist : List (Nat × Nat)
  offs : List Int
  fifo : Tab (List (Nat × Nat))
  edges : Tab Nat
  trigAt : Tab Nat
  ptp : Bytes
  txStamps : List (Nat × Nat × Nat × Nat)
  rxStamps : List (Nat × Nat × Nat × Nat)
  eec : Nat
  esmcAt : Nat
  holdAt : Nat
  lockNs : Nat
  upstream : Nat
  deriving DecidableEq, Repr
/-- A device-engine job (R423, Table 15.12): its class, the posting cluster, engine, SRAM offset of its descriptor and job flag,
the segment's mould, context, run, heat and quench count, and the descriptor as posted. -/
structure JobRec where
  cls : Nat
  cluster : Nat
  eng : Nat
  sa : Nat
  j : Nat
  mould : Nat
  ctx : Nat
  run : Nat
  heat : Nat
  quenches : Nat
  desc : Bytes
  deriving DecidableEq, Repr

/-- A decoder, encoder or transform unit (R462): its queue, and the job it runs with the status its checks gave. -/
structure UnitSt where
  queue : List JobRec
  busy : Option (JobRec × Nat)
  deriving DecidableEq, Repr
/-- A carrier beside its registers (chapter 15): its descriptor, the last sequence numbers (plus one) received and sent, gain codes in
force for the slot opened last and for the one before it, the count of weak slots, code changes that wait for their slot, slots whose codes differ from the last one's, the PRBs landed
by symbol and stream, the streams that saturated and the energy and elements of each slot, those of the idle elements of each frame,
the idle tables and DL control words by slot parity, the next slot window to open and symbol window to close, the DL symbols read, the
C-plane messages that wait for their release, and the time-domain samples received by symbol and stream. -/
structure CarrierSt where
  desc : Bytes
  seqUl : Tab Nat
  seqDl : Tab Nat
  gain : Tab Nat
  gainOld : Tab Nat
  weak : Tab Nat
  gainNext : List (Nat × Nat × Nat)
  gainDiff : Tab Nat
  landed : Tab (List Nat)
  satd : List Nat
  sumE : Tab Nat
  sumN : Tab Nat
  idleE : Tab Nat
  idleN : Tab Nat
  idle : Tab Bytes
  dlWord : Tab Nat
  opened : Nat
  closed : Nat
  dl : Tab (List (Nat × Bytes))
  cp : List (Nat × Bytes)
  samples : Tab (List (Nat × Nat × Nat))
  deriving DecidableEq, Repr
/-- A valid record of the ledger's log as the controller's index holds it (R510, R511): its segment, its word offset there,
type, seq, copied, and body. -/
structure LRec where
  seg : Nat
  off : Nat
  ty : Nat
  seq : Nat
  copied : Bool
  body : Bytes
  deriving DecidableEq, Repr

/-- What waits for room in the ledger (R518): a record of the device's own, an operation's step, or the command at the front. -/
inductive LedWait where
  | own (ty : Nat) (body : Bytes)
  | op (i : Nat)
  | cmd
  deriving DecidableEq, Repr

/-- A staging (R521 to R526): its target, stage id, length, operation, whether the close was accepted and whether it is STAGED. -/
structure StageSt where
  target : Nat
  id : Nat
  total : Nat
  op : Nat
  closed : Bool
  staged : Bool
  deriving DecidableEq, Repr

/-- The ledger (chapter 17): its words by word index (a word not listed is blank), the words found uncorrectable, the index of
valid records by segment, the head segment and its next free word, the highest seq and seg_seq, the compactions begun, the
appends that wait for room, the current staging, the last stores and the summary interval. -/
structure LedSt where
  words : Tab Nat
  bad : List Nat
  recs : List LRec
  head : Nat
  pos : Nat
  seq : Nat
  segSeq : Nat
  victims : Nat
  waits : List (Nat × LedWait)
  stage : Option StageSt
  netAt : Option Nat
  healthAt : Nat
  sumAt : Nat
  sumNs : Nat
  sumSeq : Nat
  deriving DecidableEq, Repr

/-- Counted events of one kind, cluster and second (R558, R572). -/
structure HEv where
  kind : Nat
  cluster : Nat
  sec : Nat
  n : Nat
  deriving DecidableEq, Repr

/-- A quarantine subject (R574): whether active, its level, its end and the end of the one before, and what it has counted in
the running seconds (second, count) of each of its two thresholds. -/
structure QuarSt where
  active : Bool
  level : Nat
  until_ : Nat
  lastEnd : Option Nat
  viol : List (Nat × Nat)
  retr : List (Nat × Nat)
  deriving DecidableEq, Repr

/-- A management source address under count or in quarantine (R574): the address and its subject. -/
structure QSrc where
  addr : Bytes
  q : QuarSt
  deriving DecidableEq, Repr

/-- Certificate fragments being reassembled from a port (R571). -/
structure CertFrag where
  port : Nat
  len : Nat
  have_ : List (Nat × Bytes)
  firstAt : Nat
  deriving DecidableEq, Repr

/-- Health and membership (chapter 19): the counted events, the lowest scores by second, the state the device was in before
CANDIDATE, when it entered CANDIDATE, the instant of an applied ADMIT that waits for ports, the consecutive heartbeats below 300,
since when the score is at or above 650, when RETAINED ends, when a newer epoch was first seen and when it was last asked for,
the EXPEL or ADMIT last applied and the digests of all applied, certificates in fragments, the subjects of quarantine, and the latest report
(fenced clusters stand in MEMB_FENCE). -/
structure HealthSt where
  evs : List HEv
  lows : List (Nat × Nat)
  cameFrom : Nat
  candAt : Nat
  admitAt : Option Nat
  low300 : Nat
  ok650 : Option Nat
  retainEnd : Option Nat
  seenAt : Option Nat
  askedAt : Tab Nat
  lastCert : Bytes
  applied : List Bytes
  frags : List CertFrag
  quar : Tab QuarSt
  srcs : List QSrc
  report : Bytes
  deriving DecidableEq, Repr

/-- Security (chapter 18) beside its registers and the ledger: whether the key material was destroyed, when a raised debug level ends,
the TAP challenge with its time, the tamper conditions that hold; the recovery loader's
reason, total length, fragments, port and last request; signed reports by handle, and whether the policy's fabric key unwraps. -/
structure SecSt where
  destroyed : Bool
  debugEnd : Option Nat
  challenge : Option (Bytes × Nat)
  tampCond : Nat
  recovering : Option Nat
  recStage : Nat
  recHave : List (Nat × Bytes)
  recPort : Nat
  recAt : Nat
  reports : List (Nat × Bytes)
  fabricKey : Bool
  deriving DecidableEq, Repr

/-- The TAP (chapter 21): the instruction register, the instruction in effect, the boundary cells, test_denied, the bypass bit,
and
what the last Capture-DR and Capture-IR loaded, the result of a debug access and of the last token. -/
structure TapSt where
  ir : Nat
  mode : Nat
  cells : Nat
  denied : Bool
  accStatus : Nat
  accData : Nat
  dr : Nat
  irOut : Nat
  tokenRes : Nat
  deriving DecidableEq, Repr

/-- The machine. -/
structure State where
  csr : Tab Nat
  free : Nat
  clk : ClockSt
  log : LogSt
  bkp : BackupSt
  rst : ResetSt
  vendor : Option PatInEffect
  oper : Option PatInEffect
  moulds : Tab MouldSt
  clus : Tab ClusterSt
  fields : Tab FieldSt
  hot : List HotEntry
  svc : Tab SvcSt
  xing : Tab Nat
  xingLogged : List Nat
  mgmt : MgmtSt
  sram : List Host.Cell
  gddr : List Host.Cell
  cxl : List Host.Cell
  xts : Tab Nat
  disabled : List Nat
  fwLib : Nat
  tier : TierSt
  vers : Tab Nat
  owners : Tab Nat
  fab : FabSt
  groups : Tab GroupSt
  aborts : List AbortSt
  egr : EgrSt
  tim : TimeSt
  runNo : Nat
  units : Tab UnitSt
  cars : Tab CarrierSt
  led : LedSt
  health : HealthSt
  sec : SecSt
  tap : TapSt
  out : List Emit
  pending : List Instr
  deriving DecidableEq, Repr

/-- An empty mould. -/
def MouldSt.init : MouldSt := ⟨[], [], [], [], [], [], 0, false, false, none, none, [], [], [], false, [], 0, 0⟩

/-- An array after its clear (R160): no plane, no span, no binding. -/
def ArraySt.init : ArraySt := ⟨[], ⟨0, [], []⟩, [], 0, [], [], none, 0, none, false⟩

/-- A free stream. -/
def StreamSt.init : StreamSt :=
  ⟨false, false, 0, [], [], 0, 0, 0, 0, 0, [], 0, [], 0, [], [], [], 0, 0, false, false, false, false, 0, none, 0, 0⟩

/-- An idle signal engine. -/
def SeSt.init : SeSt := ⟨[], [], [], [], [], [], [], [], 0, [], [], 0, false, 0⟩

/-- A FREE thread. -/
def ThreadSt.init : ThreadSt := ⟨[], 0, 0, .none, 0, 0, 0, [], 0⟩

/-- A cluster in its reset state. -/
def ClusterSt.init : ClusterSt := ⟨[], [], [], [], [], [], [], 0, [], none, [], [], 0, [], [], []⟩

/-- A field in its reset state. -/
def FieldSt.init : FieldSt := ⟨0, 0, 0, none, 0, 0, false, 0, false, 0, [], 0⟩

/-- A free handle entry. -/
def OpSt.init : OpSt := ⟨0, 0, 0, 0, 0, 0, 0, 0, 0, .none, 0, 0⟩

/-- An unbound service endpoint. -/
def SvcSt.init : SvcSt := ⟨64, 0, 0, [], 0, 0, 0, 0, 0, 0, 0, 0, [], [], 0, 0, 0, 0⟩

/-- A port before it trains. -/
def PortSt.init : PortSt :=
  ⟨[], 0, 1, [], 0, 0, [4096, 4096, 4096, 4096], [4096, 4096, 4096, 4096], [0, 0, 0, 0], 0, 0, none, false, 0, 0, 0, []⟩

/-- A send stream at device reset. -/
def TxStream.init : TxStream := ⟨0, 0, [], []⟩

/-- A receive stream at device reset. -/
def RxStream.init : RxStream := ⟨0, [], [], [], 0, 0⟩

/-- No operation. -/
def ROp.init : ROp := ⟨0, 0, 0, 0, 0, 0, 0, 0, 0, 0, 0, 0, false, 0, false, 0, 0, 0, [], 0, 0, [], 0, 0, 0, false, 0, 0, 0, 0, []⟩
/-- No group. -/
def GroupSt.init : GroupSt := ⟨[], none, 0, 0, [], 0, none, [], [], [], [], [], [], [], [], [], []⟩
/-- An empty egress queue, its shaper credit at its cap. -/
def EgQueue.init : EgQueue := ⟨[], 0, 0, 0, [], 0⟩

/-- An idle sub-port. -/
def SubSt.init : SubSt := ⟨[], 0, 0⟩
/-- An idle unit. -/
def UnitSt.init : UnitSt := ⟨[], none⟩
/-- A carrier that is not bound. -/
def CarrierSt.init : CarrierSt := ⟨[], [], [], [], [], [], [], [], [], [], [], [], [], [], [], [], 0, 0, [], [], []⟩
/-- The ledger as the model starts it: every word blank but a locked identity block of a full-grade part (log entry 13). -/
def LedSt.init : LedSt :=
  ⟨[(0, 0x60B10960), (1, 0), (2, 0), (3, 0), (4, 0), (5, 0), (6, 0x761c3457), (7, 0)],
   [], [], 0, 0, 0, 0, 0, [], none, none, 0, 0, 0, 0⟩

/-- Health and membership at reset. -/
def HealthSt.init : HealthSt := ⟨[], [], 2, 0, none, 0, none, none, none, [], [], [], [], [], [], []⟩

/-- A subject never quarantined. -/
def QuarSt.init : QuarSt := ⟨false, 0, 0, none, [], []⟩

/-- Security at reset. -/
def SecSt.init : SecSt := ⟨false, none, none, 0, none, 0, [], 0, 0, [], false⟩

/-- The TAP after its reset: IDCODE. -/
def TapSt.init : TapSt := ⟨0x01, 0x01, 0, false, 0, 0, 0, 0, 0⟩

/-- The state right after a device reset: every CSR at its reset value (none listed), every memory blank, nothing poured,
and the reset still asserted with all its release conditions met, so that RESET_RELEASE is the first event (log entry 4). -/
def State.reset : State where
  csr := []
  free := 0
  clk := ⟨0, 0, 0, 0, 0⟩
  log := ⟨[], 0, 0, 0, [], 0⟩
  bkp := ⟨0, 0, 0, 0, 0, false, true⟩
  rst := ⟨true, 0, 0x01, false, false, true, false, true, false, [], none, 0, 0, false, [], [], [], false, [], 0, false⟩
  vendor := none
  oper := none
  moulds := []
  clus := []
  fields := []
  hot := []
  svc := []
  xing := []
  xingLogged := []
  mgmt := ⟨[], [], 1, [], 0, none, 0, 0, false, [], [], []⟩
  sram := []
  gddr := []
  cxl := []
  xts := []
  disabled := []
  fwLib := 0
  tier := ⟨[], [], [], [], [], [], 0, 0, 0⟩
  vers := []
  owners := []
  fab := ⟨[], [], [], [], 0, [], [], [], []⟩
  groups := []
  aborts := []
  egr := ⟨[], [], []⟩
  tim := ⟨0, 0, [], [], [], [], [], [], [], [], 0, 0, 0, 0, 0⟩
  runNo := 0
  units := []
  cars := []
  led := LedSt.init
  health := HealthSt.init
  sec := SecSt.init
  tap := TapSt.init
  out := []
  pending := []

end Sys2Proof.Machine
end

