-- ==== Sys2Proof/Machine/Ops.lean ====
section
/-! DEFINITION. Sys2Proof/Machine/Ops.lean: the named operations every meaning is built from: registers and their fields, the
indexed tables, time, the event log, outputs, tokens and free values. -/
namespace Sys2Proof.Machine

/-- The outcome of a command. -/
abbrev Out := Host.Outcome State Fault Refusal

/-- The value of a register with every field at its reset value. -/
def RegShape.resetVal (r : RegShape) : Nat := r.flds.foldl (fun n f => n + f.rst * 2 ^ f.lo) 0

/-- The address of a register at index (i, j). -/
def regAddr (r : RegName) (i j : Nat) : Nat := r.shape.base + r.shape.ostride * i + r.shape.istride * j

/-- The stored value of a register; one never written holds its reset value. -/
def State.reg (s : State) (r : RegName) (i : Nat := 0) (j : Nat := 0) : Nat :=
  Tab.get r.shape.resetVal s.csr (regAddr r i j)

/-- Store a register. -/
def State.setReg (s : State) (r : RegName) (i j v : Nat) : State :=
  { s with csr := Tab.set r.shape.resetVal s.csr (regAddr r i j) (v % 2 ^ 64) }

/-- Read a field. -/
def State.rd (s : State) (f : Field) (i : Nat := 0) (j : Nat := 0) : Nat := bitsOf (s.reg f.reg i j) f.lo f.width

/-- Write a field. -/
def State.wr (s : State) (f : Field) (v : Nat) (i : Nat := 0) (j : Nat := 0) : State :=
  s.setReg f.reg i j (setBits (s.reg f.reg i j) f.lo f.width v)

/-- Add to a counter field that saturates. -/
def State.cnt (s : State) (f : Field) (i : Nat := 0) (j : Nat := 0) (n : Nat := 1) : State :=
  s.wr f (satAdd f.width (s.rd f i j) n) i j

/-- Add to a counter field modulo its width. -/
def State.inc (s : State) (f : Field) (i : Nat := 0) (j : Nat := 0) (n : Nat := 1) : State :=
  s.wr f (s.rd f i j + n) i j

/-- Read a one-bit field. -/
def State.flag (s : State) (f : Field) (i : Nat := 0) (j : Nat := 0) : Bool := s.rd f i j == 1

/-- Write a one-bit field. -/
def State.setFlag (s : State) (f : Field) (b : Bool) (i : Nat := 0) (j : Nat := 0) : State := s.wr f (ofBool b) i j

/-- Mould m. -/
def State.mould (s : State) (m : Nat) : MouldSt := Tab.get MouldSt.init s.moulds m

/-- Replace mould m. -/
def State.setMould (s : State) (m : Nat) (v : MouldSt) : State := { s with moulds := Tab.set MouldSt.init s.moulds m v }

/-- Cluster c. -/
def State.clu (s : State) (c : Nat) : ClusterSt := Tab.get ClusterSt.init s.clus c

/-- Replace cluster c. -/
def State.setClu (s : State) (c : Nat) (v : ClusterSt) : State := { s with clus := Tab.set ClusterSt.init s.clus c v }

/-- Field f of the core. -/
def State.fieldSt (s : State) (f : Nat) : FieldSt := Tab.get FieldSt.init s.fields f

/-- Replace field f. -/
def State.setField (s : State) (f : Nat) (v : FieldSt) : State := { s with fields := Tab.set FieldSt.init s.fields f v }

/-- Stream st of cluster c. -/
def State.stream (s : State) (c st : Nat) : StreamSt := Tab.get StreamSt.init (s.clu c).streams st

/-- Replace a stream. -/
def State.setStream (s : State) (c st : Nat) (v : StreamSt) : State :=
  let k := s.clu c
  s.setClu c { k with streams := Tab.set StreamSt.init k.streams st v }

/-- Array a of cluster c. -/
def State.array (s : State) (c a : Nat) : ArraySt := Tab.get ArraySt.init (s.clu c).arrays a

/-- Replace an array. -/
def State.setArray (s : State) (c a : Nat) (v : ArraySt) : State :=
  let k := s.clu c
  s.setClu c { k with arrays := Tab.set ArraySt.init k.arrays a v }

/-- Signal engine e (4 or 5) of cluster c. -/
def State.seng (s : State) (c e : Nat) : SeSt := Tab.get SeSt.init (s.clu c).se e

/-- Replace a signal engine. -/
def State.setSeng (s : State) (c e : Nat) (v : SeSt) : State :=
  let k := s.clu c
  s.setClu c { k with se := Tab.set SeSt.init k.se e v }

/-- Thread t of cluster c. -/
def State.thread (s : State) (c t : Nat) : ThreadSt := Tab.get ThreadSt.init (s.clu c).threads t

/-- Replace a thread. -/
def State.setThread (s : State) (c t : Nat) (v : ThreadSt) : State :=
  let k := s.clu c
  s.setClu c { k with threads := Tab.set ThreadSt.init k.threads t v }

/-- A context of a mould as one key. -/
def ctxKey (m x : Nat) : Nat := 16 * m + x

/-- A context token as one key. -/
def tokKey (m x t : Nat) : Nat := 32 * ctxKey m x + t

/-- The ticks of the 1.25 GHz time-unit clock in the dt ns that follow `up` (R392). -/
def unitTicks (up dt : Nat) : Nat := 5 * (up + dt) / 4 - 5 * up / 4

/-- The time unit counts dt ns: on each tick it adds `incr`, in units of 2⁻⁴⁸ ns (R392). -/
def ClockSt.advance (k : ClockSt) (incr dt : Nat) : ClockSt :=
  let t := 2 ^ 48 * k.ns + 2 ^ 16 * k.frac + k.hid + unitTicks k.up dt * incr
  { k with ns := t / 2 ^ 48 % 2 ^ 64, frac := t / 2 ^ 16 % 2 ^ 32, hid := t % 2 ^ 16, up := k.up + dt }

/-- dt ns pass: the time of day, the time since reset and the backup seconds advance. -/
def State.pass (s : State) (dt : Nat) : State :=
  { s with
    clk := s.clk.advance (s.rd F.timeIncr_incr) dt,
    bkp := { s.bkp with
      seconds := (s.bkp.seconds + (s.bkp.subNs + dt) / 1000000000) % 2 ^ 48,
      subNs := (s.bkp.subNs + dt) % 1000000000 } }

/-- Append a record to the event log (R492, R493). -/
def State.logRec (s : State) (r : LogRec) : State :=
  if s.log.hbCount ≥ 16384 then
    { s.cnt F.logStatus_dropped with log := { s.log with hbDropped := s.log.hbDropped + 1, dropped := s.log.dropped + 1 } }
  else
    { s with log :=
      { s.log with
        recs := (r :: s.log.recs).take 65536, seq := s.log.seq + 1, hbCount := s.log.hbCount + 1
        codes := Tab.set 0 s.log.codes r.code (Tab.get 0 s.log.codes r.code + 1) } }

/-- Log an event of a block: code, source (Table 1.1), mould (0xFF for none) and detail, stamped now. -/
def State.logEvt (s : State) (code source m detail : Nat) : State :=
  s.logRec ⟨s.clk.ns, code, source, m, if m = 0xFF then 0 else s.rd F.mouldStatus_heat m, detail⟩

/-- Log an event whose detail no rule gives: the detail is a free value (log entry 6). -/
def State.logFree (s : State) (code source m : Nat) : State :=
  { s with free := s.free + 1 }.logEvt code source m (Config.freeValue s.free 128 % 2 ^ 128)

/-- Log an event whose rule names what the detail holds and gives no layout: the named values stand from bit 0 up (log entry 37). -/
def State.logWith (s : State) (code source m v : Nat) : State := s.logEvt code source m (v % 2 ^ 128)

/-- Source code of an engine of a cluster (R22). -/
def srcEngine (c e : Nat) : Nat := 0x1000 + 16 * c + e

/-- Source code of a cluster as a whole. -/
def srcCluster (c : Nat) : Nat := srcEngine c 15

/-- The cluster whose CSR window holds an address. -/
def csrCluster (addr : Nat) : Option Nat :=
  if 0x1000000 ≤ addr && addr < 0x1000000 + 96 * 0x100000 then some ((addr - 0x1000000) / 0x100000) else none

/-- The record of a CSR access (R609): code, address, whether a write, the requester (0 a management command, 1 the TAP, 2 + m a
control-core thread of mould m), and the value. -/
def State.csrLog (s : State) (code addr : Nat) (write : Bool) (req value : Nat) : State :=
  let src := match csrCluster addr with | some c => srcCluster c | none => 0x00A0
  s.logEvt code src 0xFF (addr % 2 ^ 32 + (if write then 2 ^ 32 else 0) + min req 2 * 2 ^ 33 + value % 2 ^ 64 * 2 ^ 64)

/-- Count events of a kind for the health score (R558): 0 SRAM, 1 GDDR7, 2 ledger uncorrectable errors; 3 corrections; 4 suspect
markings; 5 committed replays; 6 residue repeats; 7 residue aborts; 8 rate-margin alarms; 9 ms with an alarm set; 10 retrains;
11 watchdog expiries; 12 clock losses; 13 quarantines; 14 hard limits. Events of a fenced cluster are not counted. -/
def State.count (s : State) (kind cluster : Nat) (n : Nat := 1) : State :=
  if (cluster < 96 && bit (s.rd F.membFence_fenced (cluster / 64)) (cluster % 64)) || n = 0 then s
  else { s with health := { s.health with evs := ⟨kind, cluster, s.clk.up / 1000000000, n⟩ :: s.health.evs } }

/-- Record an output. -/
def State.emit (s : State) (e : Emit) : State := { s with out := s.out ++ [e] }

/-- The field a cluster lies in (R18). -/
def fieldOf (c : Nat) : Nat := c / 24

/-- The device runs: its reset is not asserted. -/
def State.live (s : State) : Bool := !s.rst.asserted

/-- The pins that follow the state at every instant: the bypass pins are high in CANDIDATE, MEMBER and PROBATION, in dimensions
of size above 1, and low otherwise (R592, Table 20.7); ALERT_N is low while any bit of ALERT_CAUSE is 1 and until its hold ends (R595). -/
def State.settle (s : State) : State :=
  let st := s.rd F.healthStatus_state
  let inPool := s.live && (st == 3 || st == 4 || st == 5)
  let dims := ofBool (s.rd F.fabTopo_xM1 != 0) + 2 * ofBool (s.rd F.fabTopo_yM1 != 0) + 4 * ofBool (s.rd F.fabTopo_zM1 != 0)
  { s with rst := { s.rst with
      bypass := if inPool then dims else 0
      alertLow := s.reg .alertCause != 0 || decide (s.clk.up < s.rst.alertUntil) } }

/-- A command ends in a next state, with the pins settled. -/
def done (s : State) : Out := .next s.settle

/-- A command that needs the device out of reset has no effect while the reset is asserted (R584, R586). -/
def State.whenLive (s : State) (k : State → State) : Out := done (if s.live then k s else s)

/-- A cause of ALERT_N sets: bit k of ALERT_CAUSE, with the 1 ms hold (R595). -/
def State.alert (s : State) (k : Nat) : State :=
  let c := s.reg .alertCause
  if bit c k then s
  else { s.setReg .alertCause 0 0 (setBit c k true) with rst := { s.rst with alertUntil := s.clk.up + 1000000 } }

/-- A block reset runs on block i of Table 20.5, which is then not available (R588). -/
def State.blockBusy (s : State) (i : Nat) : Bool := s.rst.blocks.any (fun e => e.1 = i)

/-- State of a mould (Table 9.8): 0 EMPTY, 1 POURING, 2 READY, 3 RUNNING, 4 CHILLED, 5 QUENCHING. -/
def State.mstate (s : State) (m : Nat) : Nat := s.rd F.mouldStatus_state m

/-- A radio mould. -/
def State.isRadio (s : State) (m : Nat) : Bool := s.rd F.mouldStatus_kind m == 1

/-- Number of contexts of a mould; 0 while EMPTY. -/
def State.ctxCount (s : State) (m : Nat) : Nat := s.rd F.mouldStatus_contextCount m

/-- The heat of a mould. -/
def State.heat (s : State) (m : Nat) : Nat := s.rd F.mouldStatus_heat m

/-- Raise a mould's heat by 1. -/
def State.raiseHeat (s : State) (m : Nat) : State := s.inc F.mouldStatus_heat m

/-- The mould moves to a state; logs 0x0F01 with the old and new state and the heat before the change (R244). -/
def State.moveMould (s : State) (m new heatBefore : Nat) : State :=
  let old := s.mstate m
  (s.wr F.mouldStatus_state new m).logEvt 0x0F01 0x00A0 m (old + new * 2 ^ 8 + heatBefore * 2 ^ 16)

/-- A section of the mould's pattern; empty when absent. -/
def secOf (secs : Secs) (ty : Nat) : Bytes := ((secs.find? (fun e => e.1 = ty)).map (·.2)).getD []

/-- A section of the mould's pattern. -/
def State.mouldSec (s : State) (m ty : Nat) : Bytes := secOf (s.mould m).secs ty

/-- A section of the operator base in effect. -/
def State.operSec (s : State) (ty : Nat) : Bytes := ((s.oper.map (fun p => secOf p.secs ty))).getD []

/-- A section of the vendor base in effect. -/
def State.vendorSec (s : State) (ty : Nat) : Bytes := ((s.vendor.map (fun p => secOf p.secs ty))).getD []

/-- The ARITH body in effect for a mould (R63). -/
def State.arithBody (s : State) (m : Nat) : Bytes :=
  let b := s.mouldSec m 0x24
  if b.isEmpty then s.operSec 0x24 else b

/-- The mould that claims cluster c, if any. -/
def State.claimer (s : State) (c : Nat) : Option Nat :=
  (s.moulds.find? (fun e => e.2.claimed.contains c)).map (·.1)

/-- A context token's count. -/
def State.tok (s : State) (c m x t : Nat) : Nat := Tab.get 0 (s.clu c).tokens (tokKey m x t)

/-- Set a context token. -/
def State.setTok (s : State) (c m x t v : Nat) : State :=
  let k := s.clu c
  s.setClu c { k with tokens := Tab.set 0 k.tokens (tokKey m x t) v }

/-- Post to a context token (R184): saturates at 65,535 and logs 0x0E01. -/
def State.post (s : State) (c m x t v : Nat) : State :=
  let n := s.tok c m x t + v
  if n > 65535 then
    (s.setTok c m x t 65535).logEvt 0x0E01 (srcEngine c 8) m (t % 32 + 2 ^ 8 + x * 2 ^ 16)
  else s.setTok c m x t n

/-- Replace the session with the same id. -/
def State.setSession (s : State) (z : SessSt) : State :=
  { s with mgmt := { s.mgmt with sessions := s.mgmt.sessions.map (fun (y : SessSt) => if y.id = z.id then z else y) } }

/-- Operation entry i. -/
def State.op (s : State) (i : Nat) : OpSt := Tab.get OpSt.init s.mgmt.ops i

/-- Replace operation entry i. -/
def State.setOp (s : State) (i : Nat) (o : OpSt) : State :=
  { s with mgmt := { s.mgmt with ops := Tab.set OpSt.init s.mgmt.ops i o } }

/-- The OP_STATUS body of an operation (Table 16.8). -/
def opBody (o : OpSt) : Bytes :=
  toLe 4 o.handle ++ toLe 2 o.cmd ++ toLe 1 o.state ++ toLe 1 o.kind ++ toLe 4 o.done ++ toLe 4 o.total ++ toLe 8 o.started
    ++ toLe 8 o.ended ++ toLe 2 o.status ++ toLe 6 0

/-- A notification to one session (R482, R483). -/
def State.notify (s : State) (z : SessSt) (type : Nat) (body : Bytes) : State :=
  (s.setSession { z with noteSeq := z.noteSeq + 1, outCtr := z.outCtr + 1 }).emit (.notify z.id type z.noteSeq body)

/-- An operation ends: state 2 done, 3 failed, 4 cancelled, with its status; subscribed sessions are notified (R488, R491). -/
def State.endOp (s : State) (i state status : Nat) : State :=
  if 256 ≤ i then s.setOp i OpSt.init
  else
  let p : OpSt := { s.op i with state := state, status := status, ended := s.clk.ns, body := .none }
  let t := s.setOp i p
  let t := { t with mgmt := { t.mgmt with ended := t.mgmt.ended ++ [i] } }
  (t.mgmt.sessions.filter (fun z => bit z.mask 2)).foldl (fun u z => u.notify z 3 (opBody p)) t

/-- Take a free value of the given width and advance the counter (log entry 6). -/
def State.fresh (s : State) (w : Nat) : Nat × State :=
  ((Config.freeValue s.free w) % 2 ^ w, { s with free := s.free + 1 })

/-- n free bytes. -/
def State.freshBytes (s : State) (n : Nat) : Bytes × State :=
  (toLe n ((Config.freeValue s.free (8 * n)) % 2 ^ (8 * n)), { s with free := s.free + 1 })

end Sys2Proof.Machine
end

