-- ==== Sys2Proof/Machine/PatternTables.lean ====
section
/-! DEFINITION. Sys2Proof/Machine/PatternTables.lean: how a pattern and its sections are laid out (Tables 2.2 to 2.8), and the
tables of a pattern in effect read back from its sections. -/
namespace Sys2Proof.Machine

/-- A section directory entry (Table 2.3). -/
structure PSec where
  ty : Nat
  flags : Nat
  off : Nat
  len : Nat
  crc : Nat
  cnt : Nat
  size : Nat
  deriving DecidableEq, Repr

/-- The directory entry at position i. -/
def dirEntry (bs : Bytes) (i : Nat) : PSec :=
  let o := 0x100 + 32 * i
  ⟨leAt bs o 2, leAt bs (o + 2) 2, leAt bs (o + 4) 4, leAt bs (o + 8) 4, leAt bs (o + 12) 4, leAt bs (o + 16) 2, leAt bs (o + 18) 2⟩

/-- The section directory. -/
def patDir (bs : Bytes) : List PSec := (List.range (leAt bs 0x0A 2)).map (dirEntry bs)

/-- Kind of a pattern (Table 2.1). -/
def patKindOf (bs : Bytes) : Nat := leAt bs 6 1

/-- Total length in the header. -/
def patLen (bs : Bytes) : Nat := leAt bs 0x0C 4

/-- Length of the signature block (Table 2.4). -/
def sigBlockLen (kind : Nat) : Nat := if kind = 1 then 29888 else 16320

/-- Length of the signature itself. -/
def sigLen (kind : Nat) : Nat := if kind = 1 then 29792 else 16224

/-- Head in front of the entries: 16 B in SLOT_TABLE, 8 B in MESH_OWNERS (R40). -/
def headLen (ty : Nat) : Nat := if ty = 0x35 then 16 else if ty = 0x21 then 8 else 0

/-- The body of a section. -/
def secBody (bs : Bytes) (e : PSec) : Bytes := slice bs e.off e.len

/-- The sections of a pattern by type. -/
def patSecs (bs : Bytes) : Secs := (patDir bs).map fun e => (e.ty, secBody bs e)

/-- The directory entry of a type. -/
def patSec (bs : Bytes) (ty : Nat) : Option PSec := (patDir bs).find? (fun e => e.ty = ty)

/-- The fixed entry size of each section type; 0 where the chapter fixes none (IDENT, MESH_PHYS). -/
def entrySize : Nat → Nat
  | 0x10 => 64
  | 0x20 => 80
  | 0x21 => 8
  | 0x22 => 24
  | 0x23 => 16
  | 0x24 => 256
  | 0x30 => 64
  | 0x31 => 16
  | 0x32 => 80
  | 0x33 => 32
  | 0x35 => 32
  | 0x36 => 16
  | _ => 0

/-- The section types Table 2.5 knows. -/
def knownTypes : List Nat := [0x01, 0x10, 0x11, 0x20, 0x21, 0x22, 0x23, 0x24, 0x30, 0x31, 0x32, 0x33, 0x34, 0x35, 0x36]

/-- Section types a kind requires (Table 2.5); SLOT_TABLE is required of a radio mould. -/
def requiredTypes (kind : Nat) (radio : Bool) : List Nat :=
  match kind with
  | 1 => [0x10, 0x11]
  | 2 => [0x20, 0x21, 0x22, 0x24]
  | _ => [0x30, 0x31, 0x32, 0x33] ++ (if radio then [0x35] else [])

/-- Section types a kind allows (Table 2.5). -/
def allowedTypes (kind : Nat) (radio : Bool) : List Nat :=
  match kind with
  | 1 => [0x01, 0x10, 0x11]
  | 2 => [0x01, 0x20, 0x21, 0x22, 0x23, 0x24]
  | _ => [0x01, 0x24, 0x30, 0x31, 0x32, 0x33, 0x34] ++ (if radio then [0x35, 0x36] else [])

/-- Entry i of a section body with entries of n bytes after a head. -/
def entryAt (body : Bytes) (head n i : Nat) : Bytes := slice body (head + n * i) n

/-- The entries of a section body. -/
def entriesOf (body : Bytes) (head n : Nat) : List Bytes :=
  (List.range ((body.length - head) / n)).map (entryAt body head n)

/-- An envelope (Table 2.6). -/
structure Envelope where
  mould : Nat
  kind : Nat
  maxCtx : Nat
  share : Nat
  slots : Nat
  crucible : Nat
  chans : Nat
  gBase : Nat
  gLen : Nat
  cBase : Nat
  cLen : Nat
  clusters : Nat
  deriving DecidableEq, Repr

/-- An envelope entry decoded. -/
def envelopeOf (e : Bytes) : Envelope :=
  ⟨leAt e 0 1, leAt e 1 1, leAt e 2 1, leAt e 3 1, leAt e 4 2, leAt e 6 2, leAt e 8 16, leAt e 0x18 8, leAt e 0x20 8,
   leAt e 0x28 8, leAt e 0x30 8, leAt e 0x38 12⟩

/-- The grant units of 256 an envelope holds on each of its channels (R46). -/
def Envelope.grant (e : Envelope) : Nat := if e.chans = 0 then 0 else e.share + 1

/-- The envelopes of the operator base in effect. -/
def State.envelopes (s : State) : List Envelope := (entriesOf (s.operSec 0x20) 0 80).map envelopeOf

/-- The envelope of mould m; kind 0 when there is none. -/
def State.envelope (s : State) (m : Nat) : Envelope :=
  (s.envelopes.find? (fun e => e.mould = m && e.kind ≠ 0)).getD ⟨m, 0, 0, 0, 0, 0, 0, 0, 0, 0, 0, 0⟩

/-- A LIMITS entry (R611). -/
structure Limits where
  holdNs : Nat
  lvlMin : Nat
  lvlMax : Nat
  mMin : Nat
  mMax : Nat
  vmax : List Nat
  side : List Nat
  deriving DecidableEq, Repr

/-- A LIMITS body decoded. -/
def limitsOf (b : Bytes) : Limits :=
  ⟨leAt b 0 2, leAt b 2 1, leAt b 3 1, leAt b 4 2, leAt b 6 2, (List.range 4).map (fun i => leAt b (8 + 2 * i) 2),
   (List.range 8).map (fun i => leAt b (0x10 + i) 1)⟩

/-- The mesh frame length M of the base in effect; 0 without a base. -/
def State.meshM (s : State) : Nat := leAt (s.operSec 0x21) 0 2

/-- The vmax of field f in mV (R82): from LIMITS, and 850 while no base is in effect (log entry 10). -/
def State.vmax (s : State) (f : Nat) : Nat :=
  let b := s.vendorSec 0x10
  if b.isEmpty then 850 else leAt b (8 + 2 * f) 2

/-- A ganging entry (Table 2.8). -/
structure Gang where
  cluster : Nat
  mode : Nat
  ctx : List Nat
  holdNs : Nat
  level : Nat
  deriving DecidableEq, Repr

/-- A ganging entry decoded. -/
def gangOf (e : Bytes) : Gang := ⟨leAt e 0 1, leAt e 1 1, (List.range 4).map (fun a => leAt e (2 + a) 1), leAt e 6 2, leAt e 8 1⟩

/-- The ganging entries of a mould. -/
def State.gangs (s : State) (m : Nat) : List Gang := (entriesOf (s.mouldSec m 0x31) 0 16).map gangOf

/-- The ganging entry of a mould for a cluster. -/
def State.gang (s : State) (m c : Nat) : Gang :=
  ((s.gangs m).find? (fun g => g.cluster = c)).getD ⟨c, 0, [0xFF, 0xFF, 0xFF, 0xFF], 0, 0⟩

/-- The gangs of a gang_mode as lists of arrays, private arrays as gangs of one. -/
def gangSets : Nat → List (List Nat)
  | 1 => [[0, 1], [2], [3]]
  | 2 => [[0, 1], [2, 3]]
  | 3 => [[0, 1, 2, 3]]
  | _ => [[0], [1], [2], [3]]

/-- The gang that array a belongs to. -/
def gangMembers (mode a : Nat) : List Nat := ((gangSets mode).find? (·.contains a)).getD [a]

/-- A region entry (R53). -/
structure Region where
  base : Nat
  len : Nat
  tier : Nat
  attr : Nat
  target : Nat
  deriving DecidableEq, Repr

/-- A region entry decoded. -/
def regionOf (e : Bytes) : Region := ⟨leAt e 0 8, leAt e 8 8, leAt e 16 1, leAt e 17 1, leAt e 24 8⟩

/-- The region table of a mould. -/
def State.regions (s : State) (m : Nat) : List Region := (entriesOf (s.mouldSec m 0x33) 0 32).map regionOf

/-- A loan offer (R61). -/
structure Offer where
  id : Nat
  cluster : Nat
  bank : Nat
  banks : Nat
  arrays : Nat
  signal : Nat
  deriving DecidableEq, Repr

/-- A loan offer decoded. -/
def offerOf (e : Bytes) : Offer := ⟨leAt e 0 1, leAt e 1 1, leAt e 2 1, leAt e 3 1, leAt e 4 1, leAt e 5 1⟩

/-- The offers of a mould. -/
def State.offers (s : State) (m : Nat) : List Offer := (entriesOf (s.mouldSec m 0x36) 0 16).map offerOf

/-- Offer id of lender m. -/
def State.offer (s : State) (m id : Nat) : Option Offer := (s.offers m).find? (fun o => o.id = id)

/-- The borrower that binds offer id of lender m, if any (R62). -/
def State.borrower (s : State) (m id : Nat) : Option Nat :=
  (s.moulds.find? (fun e => e.2.bound.contains (m, id))).map (·.1)

/-- The bound offers of a borrower on a cluster. -/
def State.boundOffers (s : State) (b c : Nat) : List Offer :=
  ((s.mould b).bound.filterMap (fun p => s.offer p.1 p.2)).filter (fun o => o.cluster = c)

/-- The borrower of cluster c, if an offer on it is bound. -/
def State.clusterBorrower (s : State) (c : Nat) : Option Nat :=
  (s.moulds.find? (fun e => e.2.bound.any (fun p => (s.offer p.1 p.2).any (fun o => o.cluster = c)))).map (·.1)

/-- The bits of `count` banks from `first`. -/
def bankBits (first count : Nat) : Nat := (2 ^ count - 1) * 2 ^ first

/-- A slot-table entry (R57). -/
structure SlotEntry where
  cluster : Nat
  kind : Nat
  offset : Nat
  stop : Nat
  list : Nat
  wcet : Nat
  deriving DecidableEq, Repr

/-- A slot-table entry decoded. -/
def slotOf (e : Bytes) : SlotEntry := ⟨leAt e 0 1, leAt e 1 1, leAt e 4 4, leAt e 8 4, leAt e 12 4, leAt e 16 4⟩

/-- The slot-table entries of a radio mould, in table order. -/
def State.slots (s : State) (m : Nat) : List SlotEntry := (entriesOf (s.mouldSec m 0x35) 16 32).map slotOf

/-- cycle_ns of a slot table. -/
def State.cycleNs (s : State) (m : Nat) : Nat := leAt (s.mouldSec m 0x35) 0 4

/-- phase_ns of a slot table. -/
def State.phaseNs (s : State) (m : Nat) : Nat := leAt (s.mouldSec m 0x35) 4 4

/-- Entries of one cluster in table order. -/
def slotsOf (l : List SlotEntry) (c : Nat) : List SlotEntry := l.filter (fun e => e.cluster = c)

/-- The room of entry i of a cluster's entries: to the next entry's offset, or round the cycle (R59). -/
def slotEnd (l : List SlotEntry) (cycle i : Nat) : Nat :=
  match l[i + 1]? with
  | some e => e.offset
  | none => cycle + ((l[0]?).map (·.offset)).getD 0

/-- The device fences cluster c (MEMB_FENCE). -/
def State.fencedCluster (s : State) (c : Nat) : Bool := bit (s.rd F.membFence_fenced (c / 64)) (c % 64)

/-- A cluster is enabled: its bit in the write-once map read by BOOT (R3, R4). -/
def State.enabled (s : State) (c : Nat) : Bool := c < 96 && !s.disabled.contains c

end Sys2Proof.Machine
end

