-- ==== Sys2Proof/Machine/GroupEntry.lean ====
section
/-! DEFINITION. Sys2Proof/Machine/GroupEntry.lean: collective group entries (Tables 12.1 and 12.7, R348, R375) and the quota
sums of R349. -/
namespace Sys2Proof.Machine

/-- A group entry, a list entry already turned into its native form (R375). -/
structure GroupEnt where
  handle : Nat
  list : Bool
  mould : Nat
  ctx : Nat
  op : Nat
  dtype : Nat
  rop : Nat
  quota : Nat
  a2aCap : Nat
  timeoutUs : Nat
  root : Nat
  fastOk : Bool
  members : List Nat
  deriving DecidableEq, Repr

/-- A group entry decoded. -/
def groupEntOf (e : Bytes) : GroupEnt :=
  let n := leAt e 8 2
  if leAt e 2 1 = 0x41 then
    ⟨leAt e 0 2, true, leAt e 3 1, leAt e 4 1, leAt e 5 1, leAt e 6 1, 0, 16, 0, 1000000, 0, false,
     (List.range n).map (fun i => leAt e (0x20 + 4 * i) 4)⟩
  else
    ⟨leAt e 0 2, false, leAt e 3 1, leAt e 4 1, leAt e 5 1, leAt e 6 1, leAt e 7 1, leAt e 0xA 2, leAt e 0xC 4, leAt e 0x10 4,
     leAt e 0x14 2, bit (leAt e 0x16 1) 0, (List.range n).map (fun i => leAt e (0x40 + 2 * i) 2)⟩

/-- Reducing operations of Table 12.2. -/
def opReduces (op : Nat) : Bool := op == 0 || op == 1 || op == 4

/-- The device's dimensions (FAB_TOPO). -/
def State.dims (s : State) : Nat × Nat × Nat :=
  (s.rd F.fabTopo_xM1 + 1, s.rd F.fabTopo_yM1 + 1, s.rd F.fabTopo_zM1 + 1)

/-- The number of devices of the torus. -/
def State.devCount (s : State) : Nat := let (x, y, z) := s.dims; x * y * z

/-- The device's own ID. -/
def State.devId (s : State) : Nat := s.rd F.fabTopo_devId

/-- R348 for an entry of total length len in bytes, in a GROUPS section (size given) or on its own. -/
def State.groupEntOk (s : State) (e : Bytes) (inSection : Bool) : Bool :=
  let fmt := leAt e 2 1
  let n := leAt e 8 2
  let g := groupEntOf e
  let common := 1 ≤ g.handle && g.mould < 64 && g.ctx < 16 && g.members.Nodup
    && g.members.all (fun d => d < s.devCount) && g.members.contains s.devId
  if fmt = 0x41 then
    common && (g.op == 0 || g.op == 3 || g.op == 6) && g.dtype ≤ 1 && leAt e 7 1 == 0 && 1 ≤ n && n ≤ 256
      && allZero (slice e 0x0A 22)
      && (inSection || e.length == 64 * cdiv (0x20 + 4 * n) 64)
  else if fmt = 0x01 then
    common && g.op ≤ 6 && (g.dtype ≤ 4 || g.dtype == 0xF) && (if opReduces g.op then g.rop ≤ 2 && g.dtype ≤ 4 else g.rop == 0)
      && 1 ≤ n && n ≤ 1024 && 2 ≤ g.quota && g.quota ≤ 1024
      && (if g.op = 5 then g.a2aCap % 64 == 0 && 64 ≤ g.a2aCap && g.a2aCap ≤ 1048576 else g.a2aCap == 0)
      && 1000 ≤ g.timeoutUs && g.timeoutUs ≤ 60000000
      && (if g.op = 3 ∨ g.op = 4 then g.root < n else g.root == 0)
      && leAt e 0x16 1 ≤ 1 && allZero (slice e 0x17 41)
      && (if inSection then 64 + 2 * n ≤ e.length else e.length == 64 + 64 * cdiv (2 * n) 64)
      && (e.drop (64 + 2 * n)).all (· == 0xFF#8)
  else false

/-- The group table indices in use. -/
def State.groupIdx (s : State) : List Nat := (List.range 256).filter (fun g => s.rd F.collG_state g ≠ 0)

/-- C of R349: the quota of every group held. -/
def State.quotaAll (s : State) : Nat := sumNat (s.groupIdx.map (fun g => s.rd F.collG_quota g))

/-- Cm of R349: the quota of the groups of mould m. -/
def State.quotaOf (s : State) (m : Nat) : Nat :=
  sumNat ((s.groupIdx.filter (fun g => s.rd F.collG_mould g = m)).map (fun g => s.rd F.collG_quota g))

end Sys2Proof.Machine
end

