-- ==== Sys2Proof/Machine/Mem.lean ====
section
/-! DEFINITION. Sys2Proof/Machine/Mem.lean: the three memory tiers: how a mould-local byte is found through the region table
(R53, R274, R282, R291), how bytes are read and written, and per-mould encryption (R294, R295). -/
namespace Sys2Proof.Machine

/-- Where a byte lies: the memory (0 cluster SRAM, 1 GDDR7, 2 CXL), its key there, and the attributes of its region. -/
structure Place where
  space : Nat
  key : Nat
  attr : Nat
  deriving DecidableEq, Repr

/-- The region of a mould that holds mould-local address a. -/
def State.regionAt (s : State) (m a : Nat) : Option Region :=
  (s.regions m).find? (fun r => r.base ≤ a && a < r.base + r.len)

/-- Key of byte b of cluster c's SRAM. -/
def sramKey (c b : Nat) : Nat := c * 2 ^ 24 + b

/-- Key of channel-local byte a of GDDR7 channel n. -/
def gddrKey (n a : Nat) : Nat := n * 2 ^ 40 + a

/-- Window byte w of an envelope's GDDR7 window: channel and channel-local address (R282). -/
def gddrAt (v : Envelope) (w : Nat) : Nat × Nat :=
  let chans := bitList 128 v.chans
  let i := w / 256
  (chans.getD (i % chans.length) 0, v.gBase + i / chans.length * 256 + w % 256)

/-- Where byte a of a region of mould m lies. -/
def State.placeIn (s : State) (m : Nat) (r : Region) (a : Nat) : Option Place :=
  let o := a - r.base
  if r.tier = 0 then some ⟨0, sramKey (r.target % 256) (r.target / 256 % 256 * 262144 + o), r.attr⟩
  else if r.tier = 1 then
    let p := gddrAt (s.envelope m) (r.target + o)
    some ⟨1, gddrKey p.1 p.2, r.attr⟩
  else if r.tier = 2 then some ⟨2, (s.envelope m).cBase + r.target + o, r.attr⟩
  else (s.offer (r.target % 256) (r.target / 256 % 256)).map (fun f => ⟨0, sramKey f.cluster (f.bank * 262144 + o), r.attr⟩)

/-- Where mould-local byte a of mould m lies; none outside its regions. -/
def State.place (s : State) (m a : Nat) : Option Place :=
  match s.regionAt m a with
  | some r => s.placeIn m r a
  | none => none

/-- The stored byte at a key of a memory; one never written is 0 (log entry 11). -/
def State.rawByte (s : State) (space key : Nat) : Byte :=
  if space = 0 then Tab.get 0#8 s.sram key else if space = 1 then Tab.get 0#8 s.gddr key else Tab.get 0#8 s.cxl key

/-- Store a byte. -/
def State.setRaw (s : State) (space key : Nat) (b : Byte) : State :=
  if space = 0 then { s with sram := Tab.set 0#8 s.sram key b }
  else if space = 1 then { s with gddr := Tab.set 0#8 s.gddr key b }
  else { s with cxl := Tab.set 0#8 s.cxl key b }

/-- The encryption tag of a line as mould m accesses it: 0 in a region without attr bit 4. -/
def State.lineTag (s : State) (m a : Nat) (p : Place) : Nat :=
  if bit p.attr 4 then 1 + ((s.mould m).xtsGen * 64 + m) * 2 ^ 42 + a / 64 else 0

/-- The key of a line in the table of stored tags. -/
def tagKey (p : Place) : Nat := p.space * 2 ^ 60 + p.key / 64

/-- The byte of a line as read under a tag: the plaintext when the line was stored under it (R294). -/
def State.tagByte (s : State) (p : Place) (tag : Nat) : Byte :=
  let stored := Tab.get 0 s.xts (tagKey p)
  if stored = tag then s.rawByte p.space p.key
  else Config.xtsByte stored tag ((List.range 64).map (fun i => s.rawByte p.space (p.key / 64 * 64 + i))) (p.key % 64)

/-- The byte mould m reads at mould-local address a; 0 outside its regions, which every caller excludes. -/
def State.byteAt (s : State) (m a : Nat) : Byte :=
  match s.place m a with
  | some p => s.tagByte p (s.lineTag m a p)
  | none => 0#8

/-- The whole line of a place is brought under a tag, its bytes as read under that tag. -/
def State.retag (s : State) (p : Place) (tag : Nat) : State :=
  if Tab.get 0 s.xts (tagKey p) = tag then s
  else
    let bs := (List.range 64).map (fun i => s.tagByte { p with key := p.key / 64 * 64 + i } tag)
    let t := bs.zipIdx.foldl (fun u (b, i) => u.setRaw p.space (p.key / 64 * 64 + i) b) s
    { t with xts := Tab.set 0 t.xts (tagKey p) tag }

/-- Mould m writes a byte at mould-local address a; nothing outside its regions. -/
def State.setByteAt (s : State) (m a : Nat) (b : Byte) : State :=
  match s.place m a with
  | some p => (if p.space = 0 then s else s.retag p (s.lineTag m a p)).setRaw p.space p.key b
  | none => s

/-- n bytes of mould m from mould-local address a. -/
def State.readMem (s : State) (m a n : Nat) : Bytes := (List.range n).map (fun i => s.byteAt m ((a + i) % 2 ^ 48))

/-- Mould m writes bytes from mould-local address a on. -/
def State.writeMem (s : State) (m a : Nat) (bs : Bytes) : State :=
  bs.zipIdx.foldl (fun u (b, i) => u.setByteAt m ((a + i) % 2 ^ 48) b) s

/-- The regions that hold [a, a + n), in address order, when they hold it without a gap. -/
def coverAux (rs : List Region) : Nat → Nat → Nat → Option (List Region)
  | 0, _, _ => none
  | f + 1, a, n =>
    match rs.find? (fun r => r.base ≤ a && a < r.base + r.len) with
    | none => none
    | some r =>
      if n ≤ r.base + r.len - a then some [r]
      else (coverAux rs f (r.base + r.len) (n - (r.base + r.len - a))).map (r :: ·)

/-- The regions of mould m that hold [a, a + n) without a gap. -/
def State.cover (s : State) (m a n : Nat) : Option (List Region) :=
  if n = 0 then some [] else coverAux (s.regions m) ((s.regions m).length + 1) a n

/-- Every byte of [a, a + n) lies in regions of mould m with every attribute of the mask. -/
def State.covered (s : State) (m a n mask : Nat) : Bool :=
  match s.cover m a n with
  | some rs => rs.all (fun r => r.attr &&& mask == mask)
  | none => false

/-- The range lies in one region of mould m that reaches cluster c's SRAM with every attribute of the mask (R179, R191):
a tier-0 region on the cluster, or a loan region whose offer lies on it. -/
def State.onCluster (s : State) (m c a n mask : Nat) : Bool :=
  match s.regionAt m a with
  | some r => a + n ≤ r.base + r.len && r.attr &&& mask == mask
      && (if r.tier = 0 then r.target % 256 == c
          else r.tier == 3 && (s.offer (r.target % 256) (r.target / 256 % 256)).any (fun o => o.cluster = c))
  | none => false

/-- Index of the region of mould m that holds address a. -/
def State.regionIdx (s : State) (m a : Nat) : Option Nat := (s.regions m).findIdx? (fun r => r.base ≤ a && a < r.base + r.len)

/-- Key of a region in the tables of owner words and versions. -/
def regionKey (m i : Nat) : Nat := 256 * m + i

/-- The version of a version-stamped region rises when bytes of it are written (R336). -/
def State.bumpAt (s : State) (m a : Nat) : State :=
  match s.regionIdx m a, s.regionAt m a with
  | some i, some r =>
    if bit r.attr 3 then { s with vers := Tab.set 0 s.vers (regionKey m i) ((Tab.get 0 s.vers (regionKey m i) + 1) % 2 ^ 32) } else s
  | _, _ => s

/-- The banks of a cluster that [a, a + n) of mould m lies in. -/
def State.banksOf (s : State) (m a n : Nat) : Nat :=
  match s.place m a, s.place m (a + n - 1) with
  | some p, some q =>
    let b := p.key % 2 ^ 24 / 262144
    bankBits b (q.key % 2 ^ 24 / 262144 + 1 - b)
  | _, _ => 0

/-- Zero `count` banks of cluster c from `first` (Table 9.2 step 4). -/
def State.zeroBanks (s : State) (c first count : Nat) : State :=
  let lo := sramKey c (first * 262144)
  { s with sram := s.sram.filter (fun e => !(lo ≤ e.1 && e.1 < lo + count * 262144)) }

/-- An SRAM read meets a correctable (1) or uncorrectable (2) word (R280); word is the 16-byte word index in the cluster. -/
def State.sramEcc (s : State) (c kind word : Nat) : State :=
  if kind = 1 then ((s.cnt F.sramEcc_ce c).cnt F.memEcc_sramCe).count 3 c
  else if kind = 2 then
    let t := ((s.cnt F.sramEcc_ue c).cnt F.memEcc_sramUe).wr F.sramEcc_lastBank (word / 16384) c
    ((t.wr F.sramEcc_lastWord (word % 16384) c).count 0 c).logFree 0x1002 (srcCluster c) 0xFF
  else s

end Sys2Proof.Machine
end

