-- ==== Sys2Proof/Machine/Groups.lean ====
section
/-! DEFINITION. Sys2Proof/Machine/Groups.lean: the group table and how a group aborts or is removed on this device (R347, R352, R373);
the frames of an abort are sent by Coll.lean. -/
namespace Sys2Proof.Machine

/-- A remote operation or a begun ladle transfer. -/
def State.rop (s : State) (i : Nat) : ROp := Tab.get ROp.init s.fab.ops i

/-- Replace an operation. -/
def State.setRop (s : State) (i : Nat) (o : ROp) : State :=
  { s with fab := { s.fab with ops := Tab.set ROp.init s.fab.ops i o } }

/-- Group g beside its registers. -/
def State.grp (s : State) (g : Nat) : GroupSt := Tab.get GroupSt.init s.groups g

/-- Replace group g. -/
def State.setGrp (s : State) (g : Nat) (v : GroupSt) : State := { s with groups := Tab.set GroupSt.init s.groups g v }

/-- The entry of group g. -/
def State.grpEnt (s : State) (g : Nat) : GroupEnt := groupEntOf (s.grp g).entry

/-- The own member index in a group. -/
def State.grpIdx (s : State) (g : Nat) : Nat := ((s.grpEnt g).members.findIdx? (· = s.devId)).getD 0

/-- The group with a handle. -/
def State.grpOf (s : State) (h : Nat) : Option Nat := s.groupIdx.find? (fun g => s.rd F.collG_handle g = h)

/-- A kind-5 transfer ends with a code; MOV_COMPLETE posts its done token (R356). -/
def State.endColl (s : State) (id code : Nat) : State := s.setRop id { s.rop id with got := true, fail := code, left := [] }

/-- A transfer as an operation record of the ladle. -/
def MovSt.rop (v : MovSt) (c m x now : Nat) : ROp :=
  { ROp.init with
    kind := v.kind, cluster := c, mould := m, ctx := x, thread := 16, heat := v.heat, quenches := v.quenches,
    len := v.len, tok := v.remTok, tokEn := v.remEn, doneTok := v.doneTok, doneEn := v.doneEn, firstAt := now }

/-- The queued kind-5 transfers of a group end with a code (R373). -/
def State.endQueuedColl (s : State) (g code : Nat) : State :=
  let e := s.grpEnt g
  s.clus.foldl (fun (u : State) p =>
    let k := u.clu p.1
    let q := Tab.get [] k.ladle (ctxKey e.mould e.ctx)
    let mine := fun (v : MovSt) => decide (v.kind = 5 ∧ v.dst % 65536 = e.handle) && !v.begun
    if !q.any mine then u
    else
      let u := (q.filter mine).foldl (fun (w : State) v =>
        w.setRop v.opId { v.rop p.1 e.mould e.ctx w.clk.up with got := true, fail := code }) u
      let k := u.clu p.1
      let q' := q.map (fun (v : MovSt) => if mine v then { v with begun := true } else v)
      u.setClu p.1 { k with ladle := Tab.set [] k.ladle (ctxKey e.mould e.ctx) q' }) s

/-- The COLL_ABORT frames of a group become due (R373). -/
def State.announceAbort (s : State) (g code : Nat) : State :=
  let v := s.grp g
  let e := s.grpEnt g
  let op := match v.cur with | some c => c.seq | none => v.opSeq
  { s with aborts := s.aborts ++ [⟨e.handle, s.rd F.collG_generation g, e.mould, e.members.filter (· ≠ s.devId), s.grpIdx g, op, code, 3, s.clk.up⟩] }

/-- A group aborts (R373): its transfers end with the code, its slots are freed, its credits reset, its abort announced and logged. -/
def State.abortGroup (s : State) (g code : Nat) : State :=
  let st := s.rd F.collG_state g
  if st = 0 || st = 3 then s
  else
    let v := s.grp g
    let slow := match v.cur with | some c => c.late | none => s.rd F.collSlow_slowest g
    let s := s.announceAbort g code
    let s := match v.cur with | some c => s.endColl c.opId code | none => s
    let s := s.endQueuedColl g code
    let s := s.setGrp g { v with
      cur := none, slots := [], early := [], outq := [], credHave := [], credUsed := [], landHave := [], landUsed := [],
      credGive := [], landGive := [], taken := [], hellos := [] }
    (s.wr F.collG_state 3 g).logWith 0x1201 0x0003 (s.rd F.collG_mould g) (code + slow * 2 ^ 16)

/-- The groups of a context abort (Table 12.6). -/
def State.abortCtxGroups (s : State) (m x code : Nat) : State :=
  s.groupIdx.foldl (fun u g => if (u.grpEnt g).mould = m && (u.grpEnt g).ctx = x then u.abortGroup g code else u) s

/-- A group is removed (R352): an ACTIVE one aborts first at the other members. -/
def State.removeGroup (s : State) (g : Nat) : State :=
  let s := if s.rd F.collG_state g = 2 then s.abortGroup g E.collMemberLost else s.endQueuedColl g E.collMemberLost
  ((s.setGrp g GroupSt.init).setReg .collG g 0 0).setReg .collSlow g 0 0

end Sys2Proof.Machine
end

