-- ==== Sys2Proof/Machine/Seg.lean ====
section
/-! DEFINITION. Sys2Proof/Machine/Seg.lean: list images (Tables 6.1, 6.2), running segments, digest records (Table 8.5), and
how a segment ends or is stopped (R161, R193, R195, R239). -/
namespace Sys2Proof.Machine

/-- A segment header (Table 6.2) with the offset of the header in the image. -/
structure SegHdr where
  off : Nat
  idx : Nat
  flags : Nat
  words : Nat
  active : Nat
  waitB : Nat
  replay : Nat
  wcet : Nat
  arrays : Nat
  engines : Nat
  movs : Nat
  banks : Nat
  dgAddr : Nat
  deriving DecidableEq, Repr

/-- The segment header at an offset of an image. -/
def segHdrAt (im : Bytes) (o : Nat) : SegHdr :=
  ⟨o, leAt im o 2, leAt im (o + 2) 2, leAt im (o + 4) 4, leAt im (o + 8) 4, leAt im (o + 0xC) 4, leAt im (o + 0x10) 4,
   leAt im (o + 0x14) 4, leAt im (o + 0x18) 1, leAt im (o + 0x19) 1, leAt im (o + 0x1A) 2, leAt im (o + 0x20) 8, leAt im (o + 0x28) 8⟩

/-- The segment headers from an offset on, n of them (R169, R170). -/
def segHdrsFrom (im : Bytes) : Nat → Nat → List SegHdr
  | 0, _ => []
  | n + 1, o => segHdrAt im o :: segHdrsFrom im n (o + 64 + 16 * leAt im (o + 4) 4)

/-- The segments of an image. -/
def segHdrs (im : Bytes) : List SegHdr := segHdrsFrom im (leAt im 6 2) 64

/-- Segment idx of an image. -/
def segHdr (im : Bytes) (idx : Nat) : Option SegHdr := (segHdrs im)[idx]?

/-- Instruction word i of the segment whose header is at o. -/
def segWord (im : Bytes) (o i : Nat) : Nat := leAt im (o + 64 + 16 * i) 16

/-- list_id of an image. -/
def listIdOf (im : Bytes) : Nat := leAt im 8 4

/-- The resident list of a mould on a cluster. -/
def State.resident (s : State) (c m id : Nat) : Option ResList :=
  (s.clu c).lists.find? (fun l => l.mould = m && l.id = id)

/-- The streams with a running segment, as (cluster, stream, mould, context). -/
def State.runs (s : State) : List (Nat × Nat × Nat × Nat) :=
  s.clus.flatMap fun (c, k) => k.streams.filterMap fun (st, v) =>
    if v.busy then some (c, st, s.rd F.seqStream_mould c st, s.rd F.seqStream_ctx c st) else none

/-- The running segments of a context. -/
def State.runsOf (s : State) (m x : Nat) : List (Nat × Nat) :=
  s.runs.filterMap fun (c, st, mm, xx) => if mm = m ∧ xx = x then some (c, st) else none

/-- The running segments of a mould. -/
def State.runsOfMould (s : State) (m : Nat) : List (Nat × Nat) :=
  s.runs.filterMap fun (c, st, mm, _) => if mm = m then some (c, st) else none

/-- The gang that array a of cluster c belongs to now. -/
def State.gangOfArray (s : State) (c a : Nat) : List Nat := gangMembers (s.rd F.arrCfg_gangMode c a) a

/-- The holding window of a gang: the longest of its members (R162), in ns. -/
def State.gangHold (s : State) (c a : Nat) : Nat := ((s.gangOfArray c a).map (fun b => s.rd F.arrCfg_holdingNs c b)).foldl max 0

/-- Every array of a's gang takes a power state (R162). -/
def State.setPower (s : State) (c a p : Nat) : State :=
  (s.gangOfArray c a).foldl (fun u b => u.wr F.arrStatus_power p c b) s

/-- Every array of a's gang enters HOLDING until an instant (R92, R162). -/
def State.hold (s : State) (c a until_ : Nat) : State :=
  (s.gangOfArray c a).foldl (fun u b => (u.wr F.arrStatus_power 3 c b).setArray c b { u.array c b with holdEnd := until_ }) s

/-- The entry from which an array takes its configuration goes into ARR_CFG (R51). -/
def State.loadArrCfg (s : State) (c a m : Nat) (lent : Bool) : State :=
  let g := s.gang m c
  let lead := (gangMembers g.mode a).headD a == a
  ((((((s.wr F.arrCfg_gangMode g.mode c a).wr F.arrCfg_gangLead (ofBool lead) c a).wr F.arrCfg_ctx (g.ctx.getD a 0xFF) c a).wr
    F.arrCfg_mould m c a).wr F.arrCfg_lent (ofBool lent) c a).wr F.arrCfg_holdingNs g.holdNs c a).wr F.arrCfg_holdingLevel g.level c a

/-- The work of an array is cleared (R160, R161) and its status reads idle. -/
def State.clearArray (s : State) (c a : Nat) : State :=
  let k := s.array c a
  let t := s.setArray c a { ArraySt.init with holdEnd := k.holdEnd }
  ((t.wr F.arrStatus_mode 3 c a).wr F.arrStatus_held 0 c a).wr F.arrStatus_replaying 0 c a

/-- The arrays a stream claims are released: cleared, holding, and back under the claiming mould's entry when lent (R51, R92). -/
def State.releaseArrays (s : State) (c : Nat) (mask : Nat) : State :=
  (bitList 4 mask).foldl (fun u a =>
    let p := u.rd F.arrStatus_power c a
    let t := if p = 2 then (u.clearArray c a).hold c a (u.clk.up + u.gangHold c a) else u.clearArray c a
    if u.flag F.arrCfg_lent c a then
      match u.claimer c with
      | some m => t.loadArrCfg c a m false
      | none => t
    else t) s

/-- The signal engines of a mask halt (R195). -/
def State.haltEngines (s : State) (c mask : Nat) : State :=
  (bitList 2 mask).foldl (fun u i =>
    if (u.seng c (4 + i)).running then
      (u.setSeng c (4 + i) { u.seng c (4 + i) with running := false, blks := [] }).wr F.seStatus_state 3 c i
    else u) s

/-- The reproducibility key of a mould (R228), from its key registers. -/
def State.reproKey (s : State) (m : Nat) : Nat := s.reg .reproKeyLo m + 2 ^ 64 * s.reg .reproKeyHi m

/-- The digest items of a part in ordinal and role order (R235): the table key is 256 · ordinal + role. -/
def dgItems (t : Tab Bytes) : Bytes :=
  t.flatMap fun (k, bs) => if bs.isEmpty then [] else toLe 4 (k / 256) ++ toLe 1 (k % 256) ++ toLe 4 bs.length ++ bs

/-- d_program (R235): the segment header with digest_addr 0, then the instruction words. -/
def dgProgram (im : Bytes) (h : SegHdr) : Bytes :=
  digest256 (slice im h.off 0x28 ++ toLe 8 0 ++ slice im (h.off + 0x30) 16 ++ slice im (h.off + 64) (16 * h.words))

/-- The 256-byte digest record of a segment (Table 8.5, R236): code is the fault code of a stopped segment. -/
def State.digestRecord (s : State) (c st : Nat) (active : Nat) (stopped : Option Nat) : Bytes :=
  let v := s.stream c st
  let im := v.image
  let h := segHdrAt im v.segOff
  let m := s.rd F.seqStream_mould c st
  let x := s.rd F.seqStream_ctx c st
  let seed := if v.ndSeeded then v.ndSeed else 0
  let flags := ofBool v.ndSeeded + 2 * ofBool v.ndOrder + 4 * bitsOf h.flags 2 4
  let zero := List.replicate 32 0#8
  let part := fun (i : Nat) (bs : Bytes) => if bit h.flags i then bs else zero
  let dp := part 2 (dgProgram im h)
  let dw := part 3 (digest256 (dgItems v.dgW))
  let di := part 4 (digest256 (dgItems v.dgI))
  let dd := part 5 (digest256 (dgItems v.dgO))
  let res := digest256 (toLe 16 (s.reproKey m) ++ toLe 2 flags ++ toLe 4 seed ++ dp ++ dw ++ di ++ dd)
  let bytes := (if bit h.flags 2 then 64 + 16 * h.words else 0) + v.absorbed
  let run := Tab.get 0 (s.mould m).runSeq x
  toLe 4 0x47444B49 ++ toLe 2 1 ++ toLe 2 (flags + 64 * ofBool v.replayed + 128 * ofBool v.audit) ++ toLe 16 (s.reproKey m)
    ++ toLe 4 (listIdOf im) ++ toLe 2 h.idx ++ toLe 1 x ++ toLe 1 m ++ toLe 8 run ++ toLe 4 active
    ++ toLe 2 (match stopped with | none => 1 | some _ => 2) ++ toLe 2 (stopped.getD 0) ++ toLe 8 bytes ++ toLe 4 seed ++ toLe 4 0
    ++ (match stopped with | none => dp ++ dw ++ di ++ dd ++ res | some _ => List.replicate 160 0#8)
    ++ List.replicate 28 0#8 ++ toLe 4 run

/-- A digest record falls due (R238) when the segment's header sets a dg_ flag. -/
def State.pushRecord (s : State) (c st active : Nat) (stopped : Option Nat) : State :=
  let v := s.stream c st
  let h := segHdrAt v.image v.segOff
  if bitsOf h.flags 2 4 = 0 then s
  else
    let m := s.rd F.seqStream_mould c st
    let x := s.rd F.seqStream_ctx c st
    let k := s.clu c
    s.setClu c { k with records := k.records ++ [⟨m, x, st, h.dgAddr, s.digestRecord c st active stopped, stopped.isSome,
      v.ndSeeded || v.ndOrder, s.clk.up⟩] }

/-- The digest records of a context not yet written are abandoned (R239). -/
def State.abandon (s : State) (m x : Nat) : State :=
  s.clus.foldl (fun u e =>
    let k := u.clu e.1
    let n := (k.records.filter (fun r => r.mould = m && r.ctx = x)).length
    if n = 0 then u
    else (u.setClu e.1 { k with records := k.records.filter (fun r => !(r.mould = m && r.ctx = x)) }).cnt F.dgCnt_abandoned e.1 0 n) s

/-- A stream becomes free: its segment counts in run_seq, its arrays and engines are released, and the issue limit of the
field delays the next non-radio segment (R87). -/
def State.freeStream (s : State) (c st active : Nat) : State :=
  let v := s.stream c st
  let m := s.rd F.seqStream_mould c st
  let l := min (s.rd F.govStatus_issueLimitRate (fieldOf c)) (s.rd F.govStatus_issueLimitPower (fieldOf c))
  let gap := if s.isRadio m || l ≥ 16 || l = 0 then 0 else active * (16 - l) / l
  let t := (s.releaseArrays c v.arrays).haltEngines c v.engines
  let t := t.setStream c st { StreamSt.init with notBefore := gap, startNs := s.clk.up }
  t.wr F.seqStream_state 0 c st

/-- run_seq of a context counts the segment that ends or stops (Table 8.5). -/
def State.countRun (s : State) (m x : Nat) : State :=
  let k := s.mould m
  s.setMould m { k with runSeq := Tab.set 0 k.runSeq x (Tab.get 0 k.runSeq x + 1) }

/-- An audit run on a cluster ends with its segment: the mould returns to READY and the operation ends (R242). -/
def State.endAudit (s : State) (c m : Nat) (status : Nat) : State :=
  let k := s.clu c
  match k.auditOp with
  | some i =>
    let t := (s.setClu c { k with auditOp := none }).setMould m { s.mould m with auditing := false }
    let t := if t.mstate m = 3 then t.moveMould m 2 (t.heat m) else t
    t.endOp i (if status = 0 then 2 else 3) status
  | none => s

/-- A running segment is stopped (R195) at `elapsed` beats: by a fault with its code, or by a quench (none). -/
def State.stopSegAt (s : State) (c st : Nat) (code : Option Nat) (elapsed : Nat) : State :=
  let v := s.stream c st
  if !v.busy then s
  else
    let m := s.rd F.seqStream_mould c st
    let x := s.rd F.seqStream_ctx c st
    let s := (s.countRun m x).wr F.seqBeats_elapsed elapsed c st
    let active := elapsed - s.rd F.seqBeats_wait c st - v.replayUsed
    let s := match code with
      | some f => s.pushRecord c st active (some f)
      | none =>
        let h := segHdrAt v.image v.segOff
        if bitsOf h.flags 2 4 = 0 then s else s.cnt F.dgCnt_abandoned c
    let s := s.freeStream c st active
    if v.audit then s.endAudit c m (code.getD E.patCancelled) else s

/-- A running segment is stopped at a beat that is not determined at this level: its elapsed beats are a free value
(log entry 12). -/
def State.stopSeg (s : State) (c st : Nat) (code : Option Nat) : State :=
  let (e, s) := s.fresh 32
  s.stopSegAt c st code e

/-- MOVs of a context not yet begun are discarded (R195). -/
def State.dropMovs (s : State) (m x : Nat) : State :=
  s.clus.foldl (fun u e =>
    let k := u.clu e.1
    u.setClu e.1 { k with ladle := Tab.set [] k.ladle (ctxKey m x) ((Tab.get [] k.ladle (ctxKey m x)).filter (·.begun)) }) s

/-- The start queues of a context are emptied. -/
def State.emptyQueues (s : State) (m x : Nat) : State :=
  s.clus.foldl (fun u e =>
    let k := u.clu e.1
    u.setClu e.1 { k with queues := Tab.set [] k.queues (ctxKey m x) [] }) s

/-- Thread t of cluster c returns to FREE (R469). -/
def State.freeThread (s : State) (c t : Nat) : State :=
  let out := s.rd F.thrStatus_remoteOut c t
  (((s.setThread c t ThreadSt.init).setReg .thrStatus c t 0).wr F.thrStatus_remoteOut out c t)

/-- The threads of a context return to FREE (R266, R469). -/
def State.stopThreads (s : State) (m x : Nat) : State :=
  s.clus.foldl (fun u e => (List.range 16).foldl (fun w t =>
    if w.rd F.thrStatus_state e.1 t ≠ 0 && w.rd F.thrStatus_mould e.1 t = m && w.rd F.thrStatus_ctx e.1 t = x
    then w.freeThread e.1 t else w) u) s

/-- Context tokens of a context are 0 on every cluster (R183). -/
def State.zeroTokens (s : State) (m x : Nat) : State :=
  s.clus.foldl (fun u e =>
    let k := u.clu e.1
    u.setClu e.1 { k with tokens := k.tokens.filter (fun p => p.1 / 32 ≠ ctxKey m x) }) s

/-- A context is stopped: its segments, its start queues, its unbegun MOVs and its threads. -/
def State.stopCtx (s : State) (m x : Nat) (code : Option Nat) : State :=
  let s := (s.runsOf m x).foldl (fun u p => u.stopSeg p.1 p.2 code) s
  ((s.emptyQueues m x).dropMovs m x).stopThreads m x

/-- A context is quenched (R267): the heat rises, the base heat follows, and everything of R195, R183 and R239 applies. -/
def State.quenchCtx (s : State) (m x : Nat) : State :=
  let s := s.raiseHeat m
  let s := s.wr F.ctxStatus_baseHeat (s.heat m) m x
  let s := (((s.stopCtx m x none).abandon m x).zeroTokens m x).abortCtxGroups m x E.collAborted
  let k := s.mould m
  s.setMould m { k with faulted := k.faulted.filter (· ≠ x), runSeq := Tab.set 0 k.runSeq x 0 }

/-- A context fault (R266): code, the source of the block that raised it, and the cluster (0xFF for none). -/
def State.faultCtx (s : State) (m x code src c : Nat) : State :=
  let detail := code + x * 2 ^ 16 + c * 2 ^ 24
  if s.mstate m = 5 || (s.mould m).faulted.contains x then s.logEvt 0x0F02 src m detail
  else
    let s := (s.stopCtx m x (some code)).abortCtxGroups m x E.collAborted
    let s := s.wr F.ctxStatus_faultCode code m x
    let s := s.setMould m { s.mould m with faulted := x :: (s.mould m).faulted }
    let s := s.logEvt 0x0F02 src m detail
    if s.flag F.ctxCtrl_autoQuench m x then s.quenchCtx m x else s

/-- A completion is slag (R268): the issue heat lies before the context's base heat, or the mould was quenched since. -/
def State.isSlag (s : State) (m x heat quenches : Nat) : Bool :=
  decide (sext 16 (heat + 2 ^ 16 - s.rd F.ctxStatus_baseHeat m x) < 0) || (s.mould m).quenches != quenches

/-- A slag completion is counted (R268). -/
def State.countSlag (s : State) (m : Nat) : State := s.cnt F.slagCount_count m

end Sys2Proof.Machine
end

