-- ==== Sys2Proof/Machine/Slots.lean ====
section
/-! DEFINITION. Sys2Proof/Machine/Slots.lean: slot-table instants, ramps and the slope controller's queue (R57 to R62, R94 to R96). -/
namespace Sys2Proof.Machine

/-- Entry i of cluster c in the slot table of mould m. -/
def State.slotEntry (s : State) (m c i : Nat) : Option SlotEntry := (slotsOf (s.slots m) c)[i]?

/-- The latest instant at or before now of an offset in the cycles of mould m (R58); none before the first. -/
def State.lastInstant (s : State) (m offset : Nat) : Option Nat :=
  let b := s.phaseNs m + offset
  let cy := s.cycleNs m
  if s.clk.ns < b || cy = 0 then none else some (b + (s.clk.ns - b) / cy * cy)

/-- The first instant after now of an offset in the cycles of mould m. -/
def State.nextInstant (s : State) (m offset : Nat) : Nat :=
  match s.lastInstant m offset with
  | some t => t + s.cycleNs m
  | none => s.phaseNs m + offset

/-- The slot table of mould m runs at an instant: the mould is RUNNING, its table has started (R248), no chill drains (R247). -/
def State.tableRuns (s : State) (m t offset : Nat) : Bool :=
  s.mstate m == 3 && !(s.mould m).chilling && !(s.mould m).auditing
    && (match (s.mould m).tableFrom with | some b => b + offset ≤ t | none => false)

/-- The key of a slot entry in the per-mould tables. -/
def slotKey (c i : Nat) : Nat := 64 * c + i

/-- Shedding stage in force in the field of cluster c. -/
def State.stageOf (s : State) (c : Nat) : Nat := s.rd F.govStatus_shedStage (fieldOf c)

/-- The loan window open on cluster c now (R261): the lender, the offer and the end instant. -/
def State.windowOn (s : State) (c : Nat) : Option (Nat × Offer × Nat) :=
  match s.claimer c with
  | none => none
  | some m =>
    (slotsOf (s.slots m) c).zipIdx.findSome? fun (e, i) =>
      let t := Tab.get 0 (s.mould m).windows (slotKey c i)
      match s.offer m e.list with
      | some o => if e.kind = 2 && s.clk.ns < t then some (m, o, t) else none
      | none => none

/-- A ramp-up is asked for (R95), once for the same arrays and class. -/
def State.askRamp (s : State) (r : RampReq) : State :=
  let f := s.fieldSt (fieldOf r.cluster)
  if f.ramps.any (fun q => q.cls = r.cls && q.cluster = r.cluster && q.mask = r.mask) then s
  else s.setField (fieldOf r.cluster) { f with ramps := f.ramps ++ [r] }

/-- The arrays of a mask on cluster c in a power state. -/
def State.inPower (s : State) (c mask p : Nat) : Nat :=
  sumNat ((bitList 4 mask).map (fun a => if s.rd F.arrStatus_power c a = p then 2 ^ a else 0))

/-- Every array of the mask is at or above its holding level: ACTIVE or HOLDING. -/
def State.warm (s : State) (c mask : Nat) : Bool :=
  (bitList 4 mask).all (fun a => s.rd F.arrStatus_power c a == 2 || s.rd F.arrStatus_power c a == 3)

/-- A pre-warm signal reaches the arrays of a mask: a ramp-down is reversed (R96), a cold array asks for its ramp, and a
holding one holds on, until the instant plus the holding window (R94). -/
def State.warmUp (s : State) (cls c mask until_ : Nat) : State :=
  let down := s.inPower c mask 4
  let cold := s.inPower c mask 0
  let s := (bitList 4 (s.inPower c mask 3)).foldl (fun u a => u.hold c a until_) s
  let s := (bitList 4 down).foldl (fun u a => u.setPower c a 1) s
  let s := if down = 0 then s else s.askRamp ⟨cls, c, down, until_, true⟩
  if cold = 0 then s else s.askRamp ⟨cls, c, cold, until_, false⟩

/-- The request the slope controller grants next: the lowest class, then order of request (R95). In shedding stage 3 no idle
array of a non-radio mould or lent array is granted one (R88). -/
def State.nextRamp (s : State) (f : Nat) : Option RampReq :=
  let stage := s.rd F.govStatus_shedStage f
  let l := (s.fieldSt f).ramps.filter (fun r => !r.granted && (r.cls = 0 || stage < 3))
  (l.find? (·.cls = 0)).or ((l.find? (·.cls = 1)).or (l.find? (·.cls = 2)))

/-- A context is RUNNABLE (Table 9.3): not FAULTED, none of its segments running, and some head request whose gate is met. -/
def State.gateMet (s : State) (c m x : Nat) : Bool :=
  match Tab.get [] (s.clu c).queues (ctxKey m x) with
  | r :: _ => !r.gateEn || r.gateCnt ≤ s.tok c m x r.gateTok
  | [] => false

/-- Clusters with a start queue entry of the context. -/
def State.queued (s : State) (m x : Nat) : List Nat :=
  s.clus.filterMap fun (c, k) => if (Tab.get [] k.queues (ctxKey m x)).isEmpty then none else some c

/-- State of a context (Table 9.3): 0 IDLE, 1 RUNNABLE, 2 RUNNING, 3 WAITING, 4 FAULTED. -/
def State.ctxState (s : State) (m x : Nat) : Nat :=
  let runs := s.runsOf m x
  let qs := s.queued m x
  if (s.mould m).faulted.contains x then 4
  else if runs.any (fun p => s.rd F.seqStream_state p.1 p.2 ≠ 2) then 2
  else if !runs.isEmpty then 3
  else if qs.isEmpty then 0
  else if qs.all (fun c => !s.gateMet c m x) then 3
  else if s.mstate m = 3 then 1 else 0

end Sys2Proof.Machine
end

