-- ==== Sys2Proof/Machine/Reply.lean ====
section
/-! DEFINITION. Sys2Proof/Machine/Reply.lean: how core 0 takes a command, how a response is formed, kept and sent (R482, R484,
R485), how an operation's handle is given out (R488), and how a control-core thread's wait ends (R471, R473). -/
namespace Sys2Proof.Machine

/-- A management port is up. -/
def State.portUp (s : State) (p : Nat) : Bool := s.flag F.mgmtPort_linkUp p

/-- The port a response goes out on: the named one, or the other while that is down (R482). -/
def State.sendPort (s : State) (p : Nat) : Nat := if s.portUp p then p else 1 - p % 2

/-- An open session. -/
def State.session (s : State) (z : Nat) : Option SessSt := s.mgmt.sessions.find? (fun y => y.id = z)

/-- The response of a request: kept with the request, and sent on the port of its last part, and once more with duplicate set
on every port on which the request arrived again (R484). A session that has closed receives nothing. -/
def State.reply (s : State) (z reqId port status handle : Nat) (body : Bytes) : State :=
  match s.session z with
  | none => s
  | some y =>
    let dups := ((y.reqs.find? (fun q => q.reqId = reqId)).map (·.dups)).getD []
    let s := s.setSession { y with outCtr := y.outCtr + 1 + dups.length, reqs := y.reqs.map fun q =>
      if q.reqId = reqId then { q with resp := some (status, handle, body), dups := [] } else q }
    let s := s.emit (.response z reqId status handle false body (s.sendPort port))
    dups.foldl (fun u p => u.emit (.response z reqId status handle true body (u.sendPort p))) s

/-- A command is answered. -/
def State.answer (s : State) (r : MReq) (status : Nat) (handle : Nat := 0) (body : Bytes := []) : State :=
  s.reply r.sess r.reqId r.port status handle body

/-- Core k of the management controller runs. -/
def State.coreUp (s : State) (k : Nat) : Bool := bit (s.rd F.mcStatus_coreUp) k

/-- Core 0 takes the command at the front of those that wait, when it has the row's code and the row's first body bytes
(R485, R490). -/
def State.takeCmd (s : State) (code : Nat) (pre : Bytes → Bool) (k : MReq → State → State) : Out :=
  s.whenLive fun s =>
    match s.mgmt.waiting with
    | r :: rest =>
      if s.coreUp 0 && r.code = code && pre r.body then k r { s with mgmt := { s.mgmt with waiting := rest, stepped := false, hbCmds := s.mgmt.hbCmds + 1 } } else s
    | [] => s

/-- A command whose body has the length n of its format, reserved bytes checked by ok: otherwise E_MGMT_FORMAT (R485). -/
def State.bodyOk (s : State) (r : MReq) (ok : Bool) (k : State → State) : State :=
  if ok then k s else s.answer r E.mgmtFormat

/-- Operations in progress under handles. -/
def State.opsRunning (s : State) : Nat := (s.mgmt.ops.filter (fun e => e.1 < 256 && e.2.state = 1)).length

/-- The handle entry given out next (R488): one never used, else the one that ended longest ago. -/
def State.freeEntry (s : State) : Option Nat :=
  if 64 ≤ s.opsRunning then none
  else ((List.range 256).find? (fun i => (s.op i).state = 0)).or s.mgmt.ended.head?

/-- An operation is given a handle (R488): its entry and the state; none when 64 are in progress. -/
def State.newOp (s : State) (cmd kind total : Nat) (body : OpBody) : Option (Nat × State) :=
  match s.freeEntry with
  | none => none
  | some i =>
    let seq := s.mgmt.handleSeq + 1
    let s := { s with mgmt := { s.mgmt with handleSeq := seq, ended := s.mgmt.ended.filter (· ≠ i) } }
    let o : OpSt := ⟨i + seq % 2 ^ 24 * 256, cmd, 1, kind, 0, total, s.clk.ns, 0, 0, body, 0, 0⟩
    some (i, s.setOp i o)

/-- An operation without a handle (R571, R607, and the signatures of a handshake, R480) starts. -/
def State.inner (s : State) (kind total : Nat) (body : OpBody) : State :=
  let i := ((List.range (s.mgmt.ops.length + 1)).find? (fun k => (s.op (256 + k)).state = 0)).getD 0
  s.setOp (256 + i) ⟨0, 0, 1, kind, 0, total, s.clk.ns, 0, 0, body, 0, 0⟩

/-- A command that starts a sliced operation: answered with its handle, or refused with E_MGMT_HANDLES. -/
def State.startOp (s : State) (r : MReq) (kind total : Nat) (body : OpBody) (k : Nat → State → State) : State :=
  match s.newOp r.code kind total body with
  | none => s.answer r E.mgmtHandles
  | some (i, t) => k i (t.answer r 0 (t.op i).handle)

/-- The entry a handle names (R488). -/
def State.opOf (s : State) (h : Nat) : Option Nat :=
  if (s.op (h % 256)).state ≠ 0 && (s.op (h % 256)).handle = h then some (h % 256) else none

/-- Register i of a thread; register 0 reads 0 (log entry 14). -/
def ThreadSt.reg (t : ThreadSt) (i : Nat) : Nat := if i = 0 then 0 else Tab.get 0 t.regs i

/-- Write register i of a thread. -/
def ThreadSt.setReg (t : ThreadSt) (i v : Nat) : ThreadSt :=
  if i = 0 then t else { t with regs := Tab.set 0 t.regs i (v % 2 ^ 64) }

/-- ST[15:0] takes a code (R473). -/
def ThreadSt.code (t : ThreadSt) (e : Nat) : ThreadSt := { t with st := setBits t.st 0 16 e }

/-- The wait of a thread ends with a code in ST: it is ready again (R471). -/
def State.threadDone (s : State) (c t e : Nat) : State :=
  if s.rd F.thrStatus_state c t ≠ 3 then s
  else (s.setThread c t { (s.thread c t).code e with wait := .none }).wr F.thrStatus_state 1 c t

/-- A load ends with a code: its command is answered, or its thread is ready again. -/
def State.loadEnd (s : State) (c : Nat) (a : Asker) (code : Nat) : State :=
  match a with
  | .mgmt z q p => s.reply z q p code 0 []
  | .thread t => s.threadDone c t code

end Sys2Proof.Machine
end

