-- ==== Sys2Proof/Machine/Ledger.lean ====
section
/-! DEFINITION. Sys2Proof/Machine/Ledger.lean: the ledger's words, its areas, counters, keys, fault map and log, compaction and
wear (chapter 17). -/
namespace Sys2Proof.Machine

/-- A blank word (R495). -/
def blankWord : Nat := 2 ^ 64 - 1

/-- Ledger word i. -/
def State.ledW (s : State) (i : Nat) : Nat := Tab.get blankWord s.led.words i

/-- Store a ledger word. -/
def State.setLed (s : State) (i v : Nat) : State :=
  { s with led := { s.led with words := Tab.set blankWord s.led.words i (v % 2 ^ 64) } }

/-- Store words from word i on. -/
def State.setLeds (s : State) (i : Nat) (l : List Nat) : State := l.zipIdx.foldl (fun u (v, k) => u.setLed (i + k) v) s

/-- Ledger bytes from byte offset o, n of them (whole words). -/
def State.ledBytes (s : State) (o n : Nat) : Bytes := (List.range (n / 8)).flatMap (fun i => toLe 8 (s.ledW (o / 8 + i)))

/-- The words of a byte string, padded with zeros. -/
def wordsOf (bs : Bytes) : List Nat := (List.range (cdiv bs.length 8)).map (fun i => leAt bs (8 * i) 8)

/-- A ledger read that needed correction (1) or met an uncorrectable word (2) (R498). -/
def State.ledEcc (s : State) (kind word : Nat) : State :=
  if kind = 1 then (s.cnt F.ledgerEcc_ce).count 3 255
  else if kind = 2 then
    let s := { s with led := { s.led with bad := if s.led.bad.contains word then s.led.bad else word :: s.led.bad } }
    (((s.cnt F.ledgerEcc_ue).wr F.ledgerEcc_lastUe word).count 2 255).logFree 0x1701 0x00B0 0xFF
  else s

/-- Fill a blank word of a write-once area; a word that is not blank is refused and logged (R500). -/
def State.fill (s : State) (i v : Nat) : Bool × State :=
  if s.ledW i = blankWord then (true, s.setLed i v) else (false, s.logFree 0x1702 0x00B0 0xFF)

/-- The boot ROM accepts the identity block (R501). -/
def State.identOk (s : State) : Bool :=
  let b := s.ledBytes 0 64
  let map := leAt b 8 12
  crc32c (b.take 0x30) == leAt b 0x30 4 && leAt b 0 2 == 0x0960 && leAt b 2 1 == 0xB1
    && ((leAt b 3 1 == 0x60 && map == 0) || (leAt b 3 1 == 0x58 && popCount 96 map == 8
        && (List.range 4).all (fun f => popCount 24 (map / 2 ^ (24 * f)) == 2)))
    && s.ledW 7 != blankWord

/-- The disabled clusters of the identity block. -/
def State.identMap (s : State) : List Nat := bitList 96 (leAt (s.ledBytes 0 64) 8 12)

/-- The serial number. -/
def State.serial (s : State) : Bytes := s.ledBytes 0x18 16

/-- Word index of pair p of counter slot k. -/
def counterWord (k p : Nat) : Nat := 0x2000 + 64 * k + 2 * p

/-- Cleared bits of a unary word from bit 0 to its first set bit (R506). -/
def clearedBits (w : Nat) : Nat := ((List.range 64).find? (fun i => bit w i)).getD 64

/-- The highest pair whose spill word is filled. -/
def State.counterPair (s : State) (k : Nat) : Option Nat :=
  ((List.range 32).filter (fun p => s.ledW (counterWord k p) ≠ blankWord)).getLast?

/-- The value of counter slot k (R506, R508). -/
def State.counter (s : State) (k : Nat) : Nat :=
  match s.counterPair k with
  | none => 0
  | some p =>
    let w := s.ledW (counterWord k p)
    let i := counterWord k p
    if s.led.bad.contains i || w % 2 ^ 32 + w / 2 ^ 32 ≠ 2 ^ 32 - 1 then 0xFFFFFFFF
    else w % 2 ^ 32 + (if s.led.bad.contains (i + 1) then 64 else clearedBits (s.ledW (i + 1)))

/-- Fill spill word p of slot k with base w. -/
def State.spill (s : State) (k p w : Nat) : State := s.setLed (counterWord k p) (w + 2 ^ 32 * (2 ^ 32 - 1 - w))

/-- Advance counter slot k to w (R507); none: E_LEDGER_COUNTER_FULL. -/
def State.advanceCounter (s : State) (k w : Nat) : Option State :=
  let u := s.counter k
  if w ≤ u then some s
  else if 2 ^ 32 - 1 < w then none
  else
    match s.counterPair k with
    | none => some (s.spill k 0 w)
    | some p =>
      let i := counterWord k p
      let used := if s.led.bad.contains (i + 1) then 64 else clearedBits (s.ledW (i + 1))
      if w - u ≤ 64 - used then some (s.setLed (i + 1) (s.ledW (i + 1) / 2 ^ (used + (w - u)) * 2 ^ (used + (w - u))))
      else if p = 31 then none
      else some (s.spill k (p + 1) w)

/-- Advance of R535: a full counter logs 0x1801 (R536). -/
def State.advanceOrLog (s : State) (k w : Nat) : State :=
  match s.advanceCounter k w with
  | some t => t
  | none => s.logFree 0x1801 0x0090 0xFF

/-- A key slot (Table 17.3). -/
structure KeySlot where
  idx : Nat
  kind : Nat
  roles : Nat
  body : Bytes
  valid : Bool
  deriving DecidableEq, Repr

/-- The filled key slots in ascending order (R502). -/
def State.keySlots (s : State) : List KeySlot :=
  (List.range 1024).filterMap fun i =>
    let b := 0x4000 + 16 * i
    let h := s.ledW b
    if h = blankWord then none
    else some ⟨i, h % 256, bitsOf h 8 4, s.ledBytes (8 * b + 0x10) 104, s.ledW (b + 15) == blankWord⟩

/-- key_id of a public key (Table 2.4). -/
def keyId (pub : Bytes) : Bytes := (digest256 pub).take 8

/-- The valid slot of a kind whose key has a key_id. -/
def State.keyOf (s : State) (kind : Nat) (id : Bytes) : Option KeySlot :=
  s.keySlots.find? (fun k => k.valid && k.kind = kind && keyId (k.body.take 48) = id)

/-- The quorum policy in effect (R565): the newest valid slot of kind 3. -/
def State.policySlot (s : State) : Option KeySlot := (s.keySlots.filter (fun k => k.valid && k.kind = 3)).getLast?

/-- Enrol into the first wholly blank slot (R502): the slot; none: E_LEDGER_KEYS_FULL. -/
def State.enrolKey (s : State) (kind roles : Nat) (body : Bytes) : Option (Nat × State) :=
  match (List.range 1024).find? (fun i => (List.range 16).all (fun w => s.ledW (0x4000 + 16 * i + w) = blankWord)) with
  | none => none
  | some i =>
    let b := 0x4000 + 16 * i
    some (i, ((s.setLeds (b + 2) (wordsOf (slice body 0 104))).setLed (b + 1) s.clk.ns).setLed b (kind + roles * 256))

/-- Words of a log segment. -/
def segWords : Nat := 131072

/-- Word index of word k of log segment g. -/
def logWord (g k : Nat) : Nat := g * segWords + k

/-- A log segment is free (R509). -/
def State.segFree (s : State) (g : Nat) : Bool := s.ledW (logWord g 0) == blankWord

/-- The free segments. -/
def State.freeSegs (s : State) : List Nat := ((List.range 31).map (· + 1)).filter (fun g => s.segFree g)

/-- seg_seq of a segment. -/
def State.segSeqOf (s : State) (g : Nat) : Nat := s.ledW (logWord g 1)

/-- Cycle count in a segment's header. -/
def State.segCycle (s : State) (g : Nat) : Nat := s.ledW (logWord g 0) / 2 ^ 32

/-- The key of a record (Table 17.7): the target, the stage id and index, or the segment; types 0x30 to 0x4F have key 0. -/
def LRec.key (r : LRec) : Nat :=
  if r.ty = 2 then leAt r.body 0 8 else if r.ty ≤ 4 || r.ty = 0x12 then leAt r.body 0 1 else 0

/-- Bytes a record occupies. -/
def LRec.size (r : LRec) : Nat := 8 * (cdiv r.body.length 8 + 4)

/-- Of the valid records with one type, key and seq only the one in the newest segment counts (R512). -/
def State.newest (s : State) (r : LRec) : Bool :=
  s.led.recs.all fun q =>
    !(q.ty = r.ty && q.seq = r.seq && q.key = r.key && q.seg ≠ r.seg && s.segSeqOf r.seg < s.segSeqOf q.seg)

/-- The records of a type in ascending seq, copies resolved. -/
def State.recsOf (s : State) (ty : Nat) : List LRec :=
  sortBy (fun a b => a.seq ≤ b.seq) (s.led.recs.filter (fun r => r.ty = ty && s.newest r))

/-- The latest record of a type and key. -/
def State.latest (s : State) (ty key : Nat) : Option LRec := ((s.recsOf ty).filter (fun r => r.key = key)).getLast?

/-- The latest record of a type. -/
def State.latestOf (s : State) (ty : Nat) : Option LRec := (s.recsOf ty).getLast?

/-- Stage ids whose chunks are live: the current staging's and those of the latest COMMITs (Table 17.7). -/
def State.liveStages (s : State) : List Nat :=
  ((s.led.stage.map (·.id)).toList) ++ ([0, 1].filterMap (fun t => (s.latest 4 t).map (fun r => leAt r.body 8 4)))

/-- A record is live (Table 17.7). -/
def State.isLive (s : State) (r : LRec) : Bool :=
  let lastN := fun (n : Nat) => ((s.recsOf r.ty).reverse.take n).contains r
  s.newest r &&
    (if r.ty = 1 then (s.led.stage.map (·.id)) = some (r.seq % 2 ^ 32)
     else if r.ty = 2 then s.liveStages.contains (leAt r.body 0 4)
     else if r.ty = 3 then (s.led.stage.map (·.id)) = some (leAt r.body 8 4)
     else if r.ty = 4 || (0x30 ≤ r.ty && r.ty ≤ 0x4F) then s.latest r.ty r.key = some r
     else if r.ty = 0x10 || r.ty = 0x11 then s.latestOf r.ty = some r
     else if r.ty = 0x12 then
       s.latest 0x12 r.key = some r && (s.segFree r.key || s.segSeqOf r.key = leAt r.body 8 8)
     else if r.ty = 0x13 then lastN 1024
     else if r.ty = 0x20 then lastN 8760
     else if r.ty = 0x21 then lastN 4096
     else false)

/-- Cycle count a free segment had before, from its RETIRE record, or 0 (R513). -/
def State.prevCycle (s : State) (g : Nat) : Nat := ((s.latest 0x12 g).map (fun r => leAt r.body 16 4)).getD 0

/-- The controller opens a free segment as the new head (R513): lowest cycle count, then lowest index. -/
def State.openHead (s : State) : Option State :=
  match s.freeSegs.foldl (fun (o : Option Nat) g => match o with
      | none => some g
      | some h => if s.prevCycle g < s.prevCycle h then some g else some h) none with
  | none => none
  | some g =>
    let cyc := s.prevCycle g + 1
    let q := s.led.segSeq + 1
    let s := { s with led := { s.led with words := s.led.words.filter (fun e => !(logWord g 0 ≤ e.1 && e.1 < logWord (g + 1) 0)) } }
    let s := (s.setLed (logWord g 0) (0x534C4B49 + cyc * 2 ^ 32)).setLed (logWord g 1) q
    some { s with led := { s.led with head := g, pos := 2, segSeq := q } }

/-- The words of a record (Table 17.6). -/
def recWords (ty seq : Nat) (copied : Bool) (body : Bytes) : List Nat :=
  let bw := wordsOf body
  let w := [ty + bw.length * 2 ^ 16 + ofBool copied * 2 ^ 32, seq] ++ bw
  w ++ [crc32c (w.flatMap (toLe 8)), seq % 2 ^ 32 + 0x544D4F43 * 2 ^ 32]

/-- Put a record into the head segment, opening a new one when it does not fit; none: no free segment. -/
def State.putRec (s : State) (ty seq : Nat) (copied : Bool) (body : Bytes) : Option State :=
  let ws := recWords ty seq copied body
  let t := if s.led.head ≠ 0 && s.led.pos + ws.length ≤ segWords then some s else s.openHead
  t.map fun s =>
    let r : LRec := ⟨s.led.head, s.led.pos, ty, seq, copied, (wordsOf body).flatMap (toLe 8)⟩
    let s := s.setLeds (logWord s.led.head s.led.pos) ws
    { (s.inc F.ledgerCnt_appended) with
      led := { s.led with pos := s.led.pos + ws.length, recs := s.led.recs ++ [r], seq := max s.led.seq seq } }

/-- Append an essential record (R511, R512); none while it finds no room (R518). -/
def State.append (s : State) (ty : Nat) (body : Bytes) : Option State := s.putRec ty (s.led.seq + 1) false body

/-- Append an essential record of the device's own; without room it waits (R518). -/
def State.appendOwn (s : State) (ty : Nat) (body : Bytes) : State :=
  if !s.led.waits.isEmpty then { s with led := { s.led with waits := s.led.waits ++ [(s.clk.up, .own ty body)] } }
  else
    match s.append ty body with
    | some t => t
    | none => { s with led := { s.led with waits := [(s.clk.up, .own ty body)] } }

/-- An operation or the front command waits for room, once. -/
def State.ledHold (s : State) (w : LedWait) : State :=
  if s.led.waits.any (fun p => p.2 = w) then s else { s with led := { s.led with waits := s.led.waits ++ [(s.clk.up, w)] } }

/-- It waits no longer. -/
def State.ledRelease (s : State) (w : LedWait) : State :=
  { s with led := { s.led with waits := s.led.waits.filter (fun p => p.2 ≠ w) } }

/-- Throttle stage of R520 in force. -/
def State.throttle (s : State) : Nat := s.rd F.ledgerStatus_throttle

/-- Append a non-essential record unless stage 2 or 3 or fewer free segments suppress it (R518, R520). -/
def State.appendSoft (s : State) (ty : Nat) (body : Bytes) : State :=
  if s.throttle = 2 || s.freeSegs.length ≤ 3 then s.cnt F.ledgerCnt_throttled
  else (s.append ty body).getD (s.cnt F.ledgerCnt_throttled)

/-- The device's own records that wait are appended in order as room allows. -/
def State.drainWaits : Nat → State → State
  | 0, s => s
  | f + 1, s =>
    match s.led.waits with
    | (_, .own ty body) :: r =>
      match ({ s with led := { s.led with waits := r } } : State).append ty body with
      | some t => State.drainWaits f t
      | none => s
    | _ => s

/-- A fault entry (R503): in the first free entry, or as FAULT_OVERFLOW. -/
def State.addFault (s : State) (kind index source : Nat) : State :=
  let w := kind + index * 2 ^ 8 + source * 2 ^ 16
  match (List.range 4096).find? (fun j => s.ledW (0x8000 + 2 * j) = blankWord) with
  | some j => (s.setLed (0x8000 + 2 * j + 1) s.clk.ns).setLed (0x8000 + 2 * j) w
  | none => s.appendOwn 0x13 (toLe 8 w ++ toLe 8 s.clk.ns)

/-- The fault entries in order (R503): kind, index, source. -/
def State.faultEntries (s : State) : List (Nat × Nat × Nat) :=
  let of := fun (w : Nat) => (w % 256, bitsOf w 8 8, bitsOf w 16 16)
  ((List.range 4096).filterMap fun j =>
    let w := s.ledW (0x8000 + 2 * j)
    if w = blankWord then none else some (of w)) ++ (s.recsOf 0x13).map (fun r => of (leAt r.body 0 8))

/-- The last entry of kinds a or b for a source (and an index) is of kind a. -/
def State.lastFaultIs (s : State) (a b index source : Nat) : Bool :=
  ((s.faultEntries.filter (fun e => (e.1 = a || e.1 = b) && e.2.1 = index && e.2.2 = source)).getLast?).any (·.1 = a)

/-- c_max (R519): the highest cycle count of any segment. -/
def State.cmax (s : State) : Nat :=
  ((List.range 31).map (fun i => if s.segFree (i + 1) then s.prevCycle (i + 1) else s.segCycle (i + 1))).foldl max 0

/-- Operating seconds A (R519). -/
def State.opSeconds (s : State) : Nat :=
  max (((s.latestOf 0x20).map (fun r => leAt r.body 0 8)).getD 0) (((s.latestOf 0x10).map (fun r => leAt r.body 8 8)).getD 0)
    + s.clk.up / 1000000000

/-- The projection of R519. -/
def State.projection (s : State) : Nat :=
  let a := s.opSeconds
  if a < 604800 then 0 else s.cmax * 315360000 / a

/-- The throttle stage is set (R520); a change is logged. -/
def State.setThrottle (s : State) : State :=
  let t := if 450000 ≤ s.cmax then 2 else if 450000 < s.projection then 1 else 0
  if t = s.throttle then s else (s.wr F.ledgerStatus_throttle t).logFree 0x1705 0x00B0 0xFF

/-- Live bytes of a segment. -/
def State.liveBytes (s : State) (g : Nat) : Nat := sumNat ((s.led.recs.filter (fun r => r.seg = g && s.isLive r)).map (·.size))

/-- Bytes a segment's records occupy. -/
def State.usedBytes (s : State) (g : Nat) : Nat := sumNat ((s.led.recs.filter (fun r => r.seg = g)).map (·.size))

/-- Closed segments. -/
def State.closedSegs (s : State) : List Nat :=
  ((List.range 31).map (· + 1)).filter (fun g => !s.segFree g && g ≠ s.led.head)

/-- Bytes of the log that are dead: closed segments count whole but for their live records (log entry 15). -/
def State.deadBytes (s : State) : Nat :=
  sumNat (s.closedSegs.map (fun g => 1048576 - s.liveBytes g)) + (s.usedBytes s.led.head - s.liveBytes s.led.head)

/-- Free bytes of the log. -/
def State.freeBytes (s : State) : Nat :=
  1048576 * s.freeSegs.length + (if s.led.head = 0 then 0 else 8 * (segWords - s.led.pos))

/-- The victim of the next compaction (R516). -/
def State.victim (s : State) : Option Nat :=
  let best := fun (l : List Nat) (f : Nat → Nat) => l.foldl (fun (o : Option Nat) g => match o with
    | none => some g
    | some h => if f g < f h then some g else some h) none
  if (s.led.victims + 1) % 64 = 0 then
    best (s.closedSegs.filter (fun g => 0 < s.liveBytes g)) (fun g => s.segCycle g * 32 + g)
  else best (s.closedSegs.filter (fun g => s.liveBytes g < 1048576 - 16)) (fun g => (s.liveBytes g * 2 ^ 32 + s.segCycle g) * 32 + g)

/-- Compaction begins when 6 or fewer segments are free (R515), as an operation of kind 9 (R489). -/
def State.startCompact (s : State) : State :=
  if s.freeSegs.length > 6 || s.flag F.ledgerStatus_compacting then s
  else
    match s.victim with
    | none => s
    | some v =>
      let todo := (sortBy (fun a b => a.seq ≤ b.seq) (s.led.recs.filter (fun r => r.seg = v && s.isLive r))).map (·.off)
      match s.newOp 0 9 0 (.compact v todo 0) with
      | none => s
      | some (_, t) => ({ t with led := { t.led with victims := t.led.victims + 1 } }).wr F.ledgerStatus_compacting 1

/-- The records a copy step moves: at most 64 KB, and at least one. -/
def copyBatch (recs : List LRec) : Nat → List Nat → List Nat
  | _, [] => []
  | room, o :: r =>
    let n := ((recs.find? (fun q => q.off = o)).map (·.size)).getD 0
    if n ≤ room then o :: copyBatch recs (room - n) r else []

/-- Copy the records of segment v at the given offsets; none: no room. -/
def State.copyRecs (s : State) (v : Nat) (offs : List Nat) : Option State :=
  offs.foldl (fun (o : Option State) off => o.bind fun t =>
    match t.led.recs.find? (fun q => q.seg = v && q.off = off) with
    | some r => t.putRec r.ty r.seq true r.body
    | none => some t) (some s)

/-- Blank 64 KB of segment v: piece k of 16, counted from its end (R517). -/
def State.blankPiece (s : State) (v k : Nat) : State :=
  let lo := logWord v (segWords - 8192 * (k + 1))
  { s with led := { s.led with words := s.led.words.filter (fun e => !(lo ≤ e.1 && e.1 < lo + 8192)) } }

/-- Segment v is blank: its records leave the index. -/
def State.segGone (s : State) (v : Nat) : State := { s with led := { s.led with recs := s.led.recs.filter (fun r => r.seg ≠ v) } }

/-- One step of the compaction of operation i (R515, R517). -/
def State.compactStep (s : State) (i v : Nat) (todo : List Nat) (phase : Nat) : State :=
  let set := fun (t : State) (b : OpBody) => t.setOp i { t.op i with body := b }
  if phase = 0 then
    let rs := s.led.recs.filter (fun r => r.seg = v)
    let offs := match copyBatch rs 65536 todo with
      | [] => todo.take 1
      | l => l
    if offs.isEmpty then
      match s.append 0x12 (toLe 8 v ++ toLe 8 (s.segSeqOf v) ++ toLe 4 (s.segCycle v) ++ toLe 4 0) with
      | none => s
      | some t => set (t.cnt F.ledgerCnt_compactions) (.compact v [] 1)
    else
      match s.copyRecs v offs with
      | none => s
      | some t => set t (.compact v (todo.drop offs.length) 0)
  else if phase < 16 then set (s.blankPiece v (phase - 1)) (.compact v [] (phase + 1))
  else
    let s := ((s.blankPiece v 15).segGone v).drainWaits 16
    if s.freeSegs.length ≥ 10 then (s.wr F.ledgerStatus_compacting 0).endOp i 2 0
    else
      match s.victim with
      | none => (s.wr F.ledgerStatus_compacting 0).endOp i 2 0
      | some w =>
        let todo := (sortBy (fun a b => a.seq ≤ b.seq) (s.led.recs.filter (fun r => r.seg = w && s.isLive r))).map (·.off)
        set { s with led := { s.led with victims := s.led.victims + 1 } } (.compact w todo 0)

/-- The record at word offset k of segment g, when valid (R511). -/
def State.recAt (s : State) (g k : Nat) : Option LRec :=
  let b := logWord g k
  let w0 := s.ledW b
  let bw := bitsOf w0 16 16
  let seq := s.ledW (b + 1)
  if w0 / 2 ^ 33 ≠ 0 || bw = 0 || 8193 < bw || segWords < k + bw + 4 then none
  else if (List.range (bw + 4)).any (fun j => s.led.bad.contains (b + j)) then none
  else
    let ws := (List.range (bw + 2)).map (fun j => s.ledW (b + j))
    if s.ledW (b + bw + 2) ≠ crc32c (ws.flatMap (toLe 8)) || s.ledW (b + bw + 3) ≠ seq % 2 ^ 32 + 0x544D4F43 * 2 ^ 32 then none
    else some ⟨g, k, w0 % 2 ^ 16, seq, bit w0 32, (ws.drop 2).flatMap (toLe 8)⟩

/-- The valid records of segment g from word k on, whether an invalid one ends them, and where. -/
def State.scanSeg (s : State) (g : Nat) : Nat → Nat → List LRec × Bool × Nat
  | 0, k => ([], false, k)
  | f + 1, k =>
    if segWords ≤ k || s.ledW (logWord g k) = blankWord then ([], false, k)
    else
      match s.recAt g k with
      | none => ([], true, k)
      | some r =>
        let (l, bad, e) := State.scanSeg s g f (k + cdiv r.body.length 8 + 4)
        (r :: l, bad, e)

/-- The boot scan (R514): the index is rebuilt, an interrupted blanking completes, and the number of segments closed for an
invalid record is returned. -/
def State.bootScan (s : State) : Nat × State :=
  let segs := ((List.range 31).map (· + 1)).filter (fun g => !s.segFree g)
  let scans := segs.map (fun g => (g, s.scanSeg g segWords 2))
  let recs := scans.flatMap (fun e => e.2.1)
  let top := (recs.map (·.seq)).foldl max 0
  let newestSeg := segs.foldl (fun (o : Option Nat) g => match o with
    | none => some g
    | some h => if s.segSeqOf h < s.segSeqOf g then some g else some h) none
  let badHead := scans.any (fun e => some e.1 = newestSeg && e.2.2.1)
  let endPos := ((scans.find? (fun e => some e.1 = newestSeg)).map (·.2.2.2)).getD 0
  let s := { s with led := { s.led with
    recs := recs, seq := top, segSeq := (newestSeg.map s.segSeqOf).getD 0, stage := none, waits := [], victims := 0,
    head := if badHead then 0 else newestSeg.getD 0, pos := if badHead then 0 else endPos } }
  let dying := segs.filter (fun g => (s.latest 0x12 g).any (fun r => leAt r.body 8 8 = s.segSeqOf g))
  let s := dying.foldl (fun u g => ((List.range 16).foldl (fun w k => w.blankPiece g k) u).segGone g) s
  ((scans.filter (fun e => e.2.2.1)).length, s)

end Sys2Proof.Machine
end

