-- ==== Sys2Proof/Machine/Quar.lean ====
section
/-! DEFINITION. Sys2Proof/Machine/Quar.lean: violations and quarantine (R573, R574): what a subject counts, when a quarantine
begins and ends. The effects on the subject (R575) are with each subject's own chapter. -/
namespace Sys2Proof.Machine

/-- Seconds a quarantine of a level lasts. -/
def quarSeconds (level : Nat) : Nat := 2 ^ min level 6

/-- The entries of a window that began less than `ns` ago, with n more now. -/
def windowAdd (l : List (Nat × Nat)) (now ns n : Nat) : List (Nat × Nat) :=
  (l.filter (fun e => now < e.1 + ns)) ++ [(now, n)]

/-- What a window holds. -/
def windowSum (l : List (Nat × Nat)) : Nat := sumNat (l.map (·.2))

/-- A quarantine of a subject begins (R574): its level follows from the end of the one before. -/
def QuarSt.begin_ (q : QuarSt) (now : Nat) : QuarSt :=
  let level := match q.lastEnd with
    | some e => if now ≤ e + 600000000000 then min 6 (q.level + 1) else 0
    | none => 0
  { q with active := true, level := level, until_ := now + quarSeconds level * 1000000000, viol := [], retr := [] }

/-- A quarantine ends. -/
def QuarSt.end_ (q : QuarSt) (now : Nat) : QuarSt := { q with active := false, lastEnd := some now, viol := [], retr := [] }

/-- The quarantine state of subject k of QUAR_s. -/
def State.quar (s : State) (k : Nat) : QuarSt := Tab.get QuarSt.init s.health.quar k

/-- Replace a subject. -/
def State.setQuar (s : State) (k : Nat) (q : QuarSt) : State :=
  { s with health := { s.health with quar := Tab.set QuarSt.init s.health.quar k q } }

/-- Log the begin (0x1909) or end (0x190A) of a quarantine with its subject (0xFFFF for a management source) and its seconds. -/
def State.quarLog (s : State) (code k sec : Nat) : State := s.logWith code 0x00A2 0xFF (k + sec * 2 ^ 16)

/-- Subject k is quarantined now: its register, its count, the log and the health count. -/
def State.quarBegin (s : State) (k : Nat) : State :=
  let q := (s.quar k).begin_ s.clk.up
  let s := (((s.setQuar k q).wr F.quar_active 1 k).wr F.quar_level q.level k).cnt F.quar_quarantines k
  (s.quarLog 0x1909 k (quarSeconds q.level)).count 13 255

/-- A violation on subject k that Table 19.10 counts in QUAR_s.violations (R573). -/
def State.quarNote (s : State) (k : Nat) : State := s.cnt F.quar_violations k

/-- A counted violation of Table 19.11 on subject k with its threshold in 1 s; whether a quarantine begins with it. -/
def State.quarHit (s : State) (k limit : Nat) : Bool × State :=
  let q := s.quar k
  if q.active then (false, s)
  else
    let q := { q with viol := windowAdd q.viol s.clk.up 1000000000 1 }
    let t := s.setQuar k q
    if limit ≤ windowSum q.viol then (true, t.quarBegin k) else (false, t)

/-- A counted retrain of subject k with its threshold in 10 s. -/
def State.quarRetrain (s : State) (k limit : Nat) : Bool × State :=
  let q := s.quar k
  if q.active then (false, s)
  else
    let q := { q with retr := windowAdd q.retr s.clk.up 10000000000 1 }
    let t := s.setQuar k q
    if limit ≤ windowSum q.retr then (true, t.quarBegin k) else (false, t)

/-- The state of a management source address. -/
def State.srcQuar (s : State) (addr : Bytes) : QuarSt :=
  ((s.health.srcs.find? (fun q => q.addr = addr)).map (·.q)).getD QuarSt.init

/-- Replace a management source's state. -/
def State.setSrcQuar (s : State) (addr : Bytes) (q : QuarSt) : State :=
  { s with health := { s.health with srcs := s.health.srcs.filter (fun e => e.addr ≠ addr) ++ [⟨addr, q⟩] } }

/-- Management sources quarantined now. -/
def State.srcsActive (s : State) : Nat := (s.health.srcs.filter (fun e => e.q.active)).length

/-- A refused handshake (limit 16) or a drop_auth record (limit 1,000) of a management source (Table 19.11); at most 32 sources
are quarantined at once (R575). -/
def State.srcHit (s : State) (addr : Bytes) (hello : Bool) : State :=
  let q := s.srcQuar addr
  if q.active then s
  else
    let q := if hello then { q with retr := windowAdd q.retr s.clk.up 1000000000 1 }
      else { q with viol := windowAdd q.viol s.clk.up 1000000000 1 }
    let past := decide (16 ≤ windowSum q.retr) || decide (1000 ≤ windowSum q.viol)
    if past && s.srcsActive < 32 then
      let q := q.begin_ s.clk.up
      let s := s.setSrcQuar addr q
      (((s.wr F.mgmtQuar_active s.srcsActive).cnt F.mgmtQuar_total).quarLog 0x1909 0xFFFF (quarSeconds q.level)).count 13 255
    else s.setSrcQuar addr q

end Sys2Proof.Machine
end

