-- ==== Sys2Proof/Machine/Funcs.lean ====
section
/-! DEFINITION. Sys2Proof/Machine/Funcs.lean: the functions of R201 and the FP32 division and comparison the chains use.
Each transcendental is evaluated in fixed point with 700 fraction bits and rounded once (log entry 5, DEDUCED: the result
is the FP32 value nearest to the exact one unless the exact value lies within 2^-600 of a rounding boundary). -/
namespace Sys2Proof.Machine

/-- Fraction bits of the fixed-point evaluation. -/
def fxBits : Nat := 700

/-- One in fixed point. -/
def fxOne : Int := 2 ^ fxBits

/-- Product of two fixed-point numbers. -/
def fxMul (a b : Int) : Int := a * b / fxOne

/-- Quotient of two fixed-point numbers; 0 for a zero divisor. -/
def fxDiv (a b : Int) : Int := if b = 0 then 0 else a * fxOne / b

/-- Square root of a non-negative fixed-point number. -/
def fxSqrt (a : Int) : Int := (Nat.sqrt (a.toNat * 2 ^ fxBits) : Nat)

/-- The fixed-point number nearest below the magnitude of a finite value. -/
def fxOf : FVal → Int
  | .fin s m e =>
    let v : Int := (shiftInt m (e + fxBits) : Nat)
    if s then -v else v
  | _ => 0

/-- The FP32 rounding of a fixed-point number. -/
def fxTo32 (a : Int) : Nat := toFp32 (ofIntExp a (-(fxBits : Int)))

/-- Terms x^n / n! summed for n below the fuel. -/
def expTerms (x : Int) : Nat → Nat → Int → Int → Int
  | 0, _, _, acc => acc
  | f + 1, n, t, acc => expTerms x f (n + 1) (fxMul t x / ((n : Int) + 1)) (acc + t)

/-- k squarings. -/
def fxSquares : Nat → Int → Int
  | 0, a => a
  | k + 1, a => fxSquares k (fxMul a a)

/-- e^x for |x| ≤ 400, by reduction to |x| / 2^k. -/
def fxExp (x : Int) : Int :=
  if x < 0 then fxDiv fxOne (fxSquares 12 (expTerms (-x / 4096) 140 0 fxOne 0))
  else fxSquares 12 (expTerms (x / 4096) 140 0 fxOne 0)

/-- arctan(1/n) by its series. -/
def atanTerms (n2 : Int) : Nat → Nat → Int → Int → Int
  | 0, _, _, acc => acc
  | f + 1, k, t, acc =>
    atanTerms n2 f (k + 1) (t / n2) (if k % 2 = 0 then acc + t / (2 * k + 1) else acc - t / (2 * k + 1))

/-- π in fixed point (Machin). -/
def fxPi : Int := 4 * (4 * atanTerms 25 310 0 (fxOne / 5) 0 - atanTerms (239 * 239) 100 0 (fxOne / 239) 0)

/-- Terms of Σ (-1)^n z^(2n+1) / (n! (2n+1)). -/
def erfTerms (z2 : Int) : Nat → Nat → Int → Int → Int
  | 0, _, _, acc => acc
  | f + 1, n, t, acc =>
    erfTerms z2 f (n + 1) (-(fxMul t z2) / ((n : Int) + 1)) (acc + t / (2 * (n : Int) + 1))

/-- erf(z) for |z| ≤ 11. -/
def fxErf (z : Int) : Int :=
  fxDiv (2 * erfTerms (fxMul z z) 900 0 z 0) (fxSqrt fxPi)

/-- Zero with the sign of x, in FP32. -/
def zeroLike (neg : Bool) : Nat := if neg then 0x80000000 else 0

/-- The sign of an FP32 code. -/
def sign32 (c : Nat) : Bool := bit c 31

/-- An FP32 code is a zero of either sign. -/
def isZero32 (c : Nat) : Bool := c % 2 ^ 31 == 0

/-- An FP32 code is a NaN. -/
def isNan32 (c : Nat) : Bool := c % 2 ^ 31 > 0x7F800000

/-- An FP32 code is an infinity. -/
def isInf32 (c : Nat) : Bool := c % 2 ^ 31 == 0x7F800000

/-- An FP32 code is finite. -/
def isFin32 (c : Nat) : Bool := c % 2 ^ 31 < 0x7F800000

/-- F_exp(x) = e^x (R201). -/
def fExp (c : Nat) : Nat :=
  match ofFp32 c with
  | .nan => nan32
  | .inf s => if s then 0 else inf32 false
  | v =>
    let x := fxOf v
    if x > 100 * fxOne then inf32 false else if x < -200 * fxOne then 0 else fxTo32 (fxExp x)

/-- x / (1 + e^(-u)) for fixed-point x and u, saturating in u. -/
def fxGate (x u : Int) : Int :=
  if u > 300 * fxOne then x
  else if u < -300 * fxOne then 0
  else fxDiv x (fxOne + fxExp (-u))

/-- A gate value rounded, where the exact value is x times a factor in (0, 1); a magnitude that underflows keeps the
sign of x, and a factor within 2^-400 of 1 gives x. -/
def gate32 (c : Nat) (x u : Int) : Nat :=
  if u > 300 * fxOne then c
  else
    let y := fxTo32 (fxGate x u)
    if isZero32 y then zeroLike (sign32 c) else y

/-- F_silu(x) = x / (1 + e^(-x)). -/
def fSilu (c : Nat) : Nat :=
  match ofFp32 c with
  | .nan => nan32
  | .inf s => if s then 0x80000000 else inf32 false
  | v => gate32 c (fxOf v) (fxOf v)

/-- F_sigm(x) = 1 / (1 + e^(-x)). -/
def fSigm (c : Nat) : Nat :=
  match ofFp32 c with
  | .nan => nan32
  | .inf s => if s then 0 else 0x3F800000
  | v =>
    let x := fxOf v
    if x > 300 * fxOne then 0x3F800000 else fxTo32 (fxGate fxOne x)

/-- F_gelut(x) = x/2 · (1 + tanh(√(2/π)(x + 0.044715 x³))), taken as x / (1 + e^(-2u)). -/
def fGelut (c : Nat) : Nat :=
  match ofFp32 c with
  | .nan => nan32
  | .inf s => if s then 0x80000000 else inf32 false
  | v =>
    let x := fxOf v
    if x > 100 * fxOne then c
    else if x < -100 * fxOne then 0x80000000
    else
      let x3 := fxMul (fxMul x x) x
      let u := fxMul (fxSqrt (fxDiv (2 * fxOne) fxPi)) (x + 44715 * x3 / 1000000)
      gate32 c x (2 * u)

/-- F_gelu(x) = x/2 · (1 + erf(x/√2)). -/
def fGelu (c : Nat) : Nat :=
  match ofFp32 c with
  | .nan => nan32
  | .inf s => if s then 0x80000000 else inf32 false
  | v =>
    let x := fxOf v
    if x > 15 * fxOne then c
    else if x < -15 * fxOne then 0x80000000
    else
      let y := fxTo32 (fxMul x (fxOne + fxErf (fxDiv x (fxSqrt (2 * fxOne)))) / 2)
      if isZero32 y then zeroLike (sign32 c) else y

/-- F(x) = β · tanh(x / β) for a finite β above 0. -/
def fSoftcap (beta c : Nat) : Nat :=
  match ofFp32 c with
  | .nan => nan32
  | .inf s => if s then setBit beta 31 true else beta
  | v =>
    let b := fxOf (ofFp32 beta)
    let u := fxDiv (fxOf v) b
    if u > 150 * fxOne then beta
    else if u < -150 * fxOne then setBit beta 31 true
    else
      let a : Int := if u < 0 then -u else u
      let t := fxOne - fxDiv (2 * fxOne) (fxExp (2 * a) + fxOne)
      let y := fxTo32 (fxMul b (if u < 0 then -t else t))
      if isZero32 y then zeroLike (sign32 c) else y

/-- A positive quotient num/den · 2^e with a sticky bit, ready for one rounding. -/
def ratVal (neg : Bool) (num den : Nat) (e : Int) : FVal :=
  let n := num * 2 ^ 400 / den
  .fin neg (2 * n + (if num * 2 ^ 400 % den = 0 then 0 else 1)) (e - 401)

/-- IEEE 754 FP32 division, round-to-nearest-even. -/
def fp32Div (a b : Nat) : Nat :=
  match ofFp32 a, ofFp32 b with
  | .nan, _ => nan32
  | _, .nan => nan32
  | .inf _, .inf _ => nan32
  | .inf s, .fin t _ _ => inf32 (s != t)
  | .fin s _ _, .inf t => zeroLike (s != t)
  | .fin s m e, .fin t n g =>
    if n = 0 then (if m = 0 then nan32 else inf32 (s != t))
    else if m = 0 then zeroLike (s != t)
    else toFp32 (ratVal (s != t) m n (e - g))

/-- rsqrt, the IEEE 754 rSqrt (R201). -/
def fRsqrt (c : Nat) : Nat :=
  match ofFp32 c with
  | .nan => nan32
  | .inf s => if s then nan32 else 0
  | .fin s m e =>
    if m = 0 then inf32 s
    else if s then nan32
    else
      -- e made even, then 1/√(m · 2^e) = √(2^800 / m) · 2^(-e/2 - 400)
      let m' := if e % 2 = 0 then m else 2 * m
      let e' := if e % 2 = 0 then e else e - 1
      let q := 2 ^ 800 / m'
      let r := Nat.sqrt q
      let sticky := if 2 ^ 800 % m' = 0 ∧ r * r = q then 0 else 1
      toFp32 (.fin false (2 * r + sticky) (-(e' / 2) - 401))

/-- FP32 comparison a ≤ b of numbers as reals with infinities (NaN never compares). -/
def le32 (a b : Nat) : Bool :=
  !isNan32 a && !isNan32 b &&
    (let x : Int := if sign32 a then -((a % 2 ^ 31 : Nat) : Int) else (a % 2 ^ 31 : Nat)
     let y : Int := if sign32 b then -((b % 2 ^ 31 : Nat) : Int) else (b % 2 ^ 31 : Nat)
     x ≤ y)

/-- The larger of two FP32 numbers; a NaN on either side gives NaN (R207). -/
def max32 (a b : Nat) : Nat := if isNan32 a || isNan32 b then nan32 else if le32 b a then a else b

/-- abs of an FP32 code. -/
def abs32 (a : Nat) : Nat := if isNan32 a then nan32 else a % 2 ^ 31

/-- CLAMP of Table 7.1: min(max(v, −β), β); NaN stays NaN. -/
def clamp32 (beta v : Nat) : Nat :=
  if isNan32 v then nan32
  else if le32 beta v then beta
  else if le32 v (setBit beta 31 true) then setBit beta 31 true
  else v

/-- RELU of Table 7.1. -/
def relu32 (v : Nat) : Nat := if isNan32 v then nan32 else if sign32 v || isZero32 v then 0 else v

/-- An unsigned integer rounded to FP32. -/
def natTo32 (n : Nat) : Nat := toFp32 (.fin false n 0)

end Sys2Proof.Machine
end

