-- ==== Sys2Proof/Machine/Chains.lean ====
section
/-! DEFINITION. Sys2Proof/Machine/Chains.lean: the menu of fused chains (Table 7.7), row statistics (R206, R207), prologue row
factors (R210) and epilogue steps (Table 7.1). -/
namespace Sys2Proof.Machine

/-- Kinds of an extra stream (Table 7.2). -/
inductive StreamKind where
  | e | c | w | s
  deriving DecidableEq, Repr

/-- Prologues (Table 7.5). -/
inductive Prologue where
  | none | rfx | rms | ln | smf | arv
  deriving DecidableEq, Repr

/-- Epilogue steps (Table 7.1); the number is the extra stream a step reads. -/
inductive Step where
  | rowf | bias (i : Nat) | colf (i : Nat) | scale | clamp | relu | add (i : Nat) | mul (i : Nat) | mulsilu (i : Nat)
  | gelu | gelut | silu | sigm | softcap | meancor (i : Nat) | centre | expn (i : Nat) | lnorm (i : Nat) | cpow
  | ssq (i : Nat) | msq (i : Nat) | absmax (i : Nat) | smx (i : Nat) | sms (i : Nat) | osm (i : Nat)
  deriving DecidableEq, Repr

/-- What param1 must be (R203). -/
inductive Param where
  | zero | pi | beta | tau | eps
  deriving DecidableEq, Repr

/-- One menu entry. -/
structure Chain where
  nrm : Bool
  pro : Prologue
  steps : List Step
  streams : List StreamKind
  param : Param
  deriving DecidableEq, Repr

/-- The menu, first half (Table 7.7). -/
def chainLow (n : Nat) : Chain :=
  match n with
  | 1 => ⟨false, .none, [.bias 0], [.c], .zero⟩
  | 2 => ⟨false, .none, [.relu], [], .zero⟩
  | 3 => ⟨false, .none, [.bias 0, .relu], [.c], .zero⟩
  | 4 => ⟨false, .none, [.bias 0, .gelu], [.c], .zero⟩
  | 5 => ⟨false, .none, [.bias 0, .gelut], [.c], .zero⟩
  | 6 => ⟨false, .none, [.bias 0, .silu], [.c], .zero⟩
  | 7 => ⟨false, .none, [.scale], [], .pi⟩
  | 8 => ⟨false, .none, [.bias 0, .clamp], [.c], .beta⟩
  | 9 => ⟨false, .none, [.clamp], [], .beta⟩
  | 10 => ⟨false, .none, [.add 0], [.e], .zero⟩
  | 11 => ⟨false, .none, [.bias 0, .add 1], [.c, .e], .zero⟩
  | 12 => ⟨false, .none, [.mul 0], [.e], .zero⟩
  | 13 => ⟨false, .none, [.silu, .mul 0], [.e], .zero⟩
  | 14 => ⟨false, .none, [.mulsilu 0], [.e], .zero⟩
  | 15 => ⟨false, .none, [.gelu, .mul 0], [.e], .zero⟩
  | 16 => ⟨false, .none, [.sigm, .mul 0], [.e], .zero⟩
  | 17 => ⟨false, .none, [.softcap], [], .beta⟩
  | 18 => ⟨false, .rfx, [.rowf], [.w], .zero⟩
  | 19 => ⟨false, .rfx, [.rowf, .bias 1], [.w, .c], .zero⟩
  | 20 => ⟨false, .rfx, [.rowf, .add 1], [.w, .e], .zero⟩
  | 21 => ⟨false, .rms, [.rowf], [.s], .eps⟩
  | 22 => ⟨false, .rms, [.rowf, .add 1], [.s, .e], .eps⟩
  | 23 => ⟨false, .ln, [.meancor 1, .rowf], [.s, .c], .eps⟩
  | _ => ⟨false, .none, [], [], .zero⟩

/-- The menu (Table 7.7). -/
def chainOf (n : Nat) : Chain :=
  match n with
  | 24 => ⟨false, .none, [.ssq 0], [.s], .zero⟩
  | 25 => ⟨false, .none, [.add 0, .ssq 1], [.e, .s], .zero⟩
  | 26 => ⟨false, .none, [.msq 0], [.s], .zero⟩
  | 27 => ⟨false, .none, [.add 0, .msq 1], [.e, .s], .zero⟩
  | 28 => ⟨false, .none, [.scale, .smx 0], [.s], .tau⟩
  | 29 => ⟨false, .none, [.scale, .add 0, .smx 1], [.e, .s], .tau⟩
  | 30 => ⟨false, .none, [.absmax 0], [.s], .zero⟩
  | 31 => ⟨false, .none, [.scale, .add 0, .sms 1], [.e, .s], .tau⟩
  | 32 => ⟨false, .none, [.osm 0], [.s], .zero⟩
  | 33 => ⟨false, .none, [.osm 0, .lnorm 0], [.s], .zero⟩
  | 34 => ⟨false, .smf, [.rowf], [.s], .zero⟩
  | 35 => ⟨false, .smf, [.rowf, .add 1], [.s, .e], .zero⟩
  | 36 => ⟨false, .rfx, [.rowf, .colf 1], [.w, .c], .zero⟩
  | 37 => ⟨false, .none, [.colf 0], [.c], .zero⟩
  | 38 => ⟨false, .none, [.colf 0, .bias 1], [.c, .c], .zero⟩
  | 39 => ⟨false, .none, [.cpow], [], .zero⟩
  | 40 => ⟨false, .arv, [], [], .zero⟩
  | 41 => ⟨false, .arv, [.add 0], [.e], .zero⟩
  | 42 => ⟨false, .arv, [.silu, .mul 0], [.e], .zero⟩
  | 43 => ⟨false, .arv, [.ssq 0], [.s], .zero⟩
  | 44 => ⟨true, .none, [.expn 0, .lnorm 0], [.s], .zero⟩
  | 45 => ⟨true, .rms, [.rowf], [.s], .eps⟩
  | 46 => ⟨true, .ln, [.centre, .rowf], [.s], .eps⟩
  | 47 => ⟨true, .rfx, [.rowf], [.w], .zero⟩
  | n => chainLow n

/-- A statistics record (Table 7.4). -/
structure StatRec where
  s0 : Nat
  s1 : Nat
  s2 : Nat
  n : Nat
  deriving DecidableEq, Repr

/-- A record from its 16 bytes. -/
def statOf (bs : Bytes) : StatRec := ⟨leAt bs 0 4, leAt bs 4 4, leAt bs 8 4, leAt bs 12 4⟩

/-- The 16 bytes of a record. -/
def StatRec.bytes (r : StatRec) : Bytes := toLe 4 r.s0 ++ toLe 4 r.s1 ++ toLe 4 r.s2 ++ toLe 4 r.n

/-- Every field of a record is NaN. -/
def StatRec.allNan (r : StatRec) : Bool := isNan32 r.s0 && isNan32 r.s1 && isNan32 r.s2

/-- A NaN anywhere in a row makes every field of that row NaN (R207): in its elements, or in the fields its record then holds,
of which a fresh row counts only those it forms itself (R206). -/
def StatRec.spread (r : StatRec) (vs fs : List Nat) : StatRec :=
  if vs.any isNan32 || fs.any isNan32 then ⟨nan32, nan32, nan32, r.n⟩ else r

/-- The maximum of a row. -/
def rowMax (vs : List Nat) : Nat :=
  match vs with
  | [] => inf32 true
  | v :: r => r.foldl max32 v

/-- q of R207: the running sum of squares. -/
def rowSq (vs : List Nat) : Nat := vs.foldl (fun q v => fp32Fma v v q) 0

/-- a of R207: the running sum. -/
def rowSum (vs : List Nat) : Nat := vs.foldl fp32Add 0

/-- fp32 one. -/
def one32 : Nat := 0x3F800000

/-- Negation of an FP32 code. -/
def neg32 (a : Nat) : Nat := if isNan32 a then nan32 else setBit a 31 (!bit a 31)

/-- FP32 subtraction. -/
def fp32Sub (a b : Nat) : Nat := fp32Add a (neg32 b)

/-- The statistic update of SMX and SMS (R207): the new record and p. -/
def softUpdate (r : StatRec) (vs : List Nat) : StatRec × List Nat :=
  let fresh := r.n == 0
  let t := rowMax vs
  let mn := if fresh then t else max32 r.s0 t
  let (alpha, p, q) :=
    if mn = inf32 true then (one32, vs.map (fun _ => 0), 0)
    else
      let p := vs.map (fun v => fExp (fp32Sub v mn))
      (if fresh then one32 else fExp (fp32Sub r.s0 mn), p, rowSum p)
  let s1 := if fresh then q else fp32Add (fp32Mul r.s1 alpha) q
  ((⟨mn, s1, alpha, (r.n + vs.length) % 2 ^ 32⟩ : StatRec).spread vs [mn, s1, alpha], p)

/-- A statistic step on a row: the new record, and the row it passes on (R206, R207). -/
def statUpdate (st : Step) (r : StatRec) (vs : List Nat) : StatRec × List Nat :=
  let fresh := r.n == 0
  let n := (r.n + vs.length) % 2 ^ 32
  match st with
  | .ssq _ =>
    let q := rowSq vs
    let s1 := if fresh then q else fp32Add r.s1 q
    ((⟨r.s0, s1, r.s2, n⟩ : StatRec).spread vs (if fresh then [s1] else [r.s0, s1, r.s2]), vs)
  | .msq _ =>
    let q := rowSq vs
    let a := rowSum vs
    let s0 := if fresh then a else fp32Add r.s0 a
    let s1 := if fresh then q else fp32Add r.s1 q
    ((⟨s0, s1, r.s2, n⟩ : StatRec).spread vs (if fresh then [s0, s1] else [s0, s1, r.s2]), vs)
  | .absmax _ =>
    let t := rowMax (vs.map abs32)
    let s0 := if fresh then t else max32 r.s0 t
    ((⟨s0, r.s1, r.s2, n⟩ : StatRec).spread vs (if fresh then [s0] else [s0, r.s1, r.s2]), vs)
  | .smx _ => softUpdate r vs
  | .sms _ => ((softUpdate r vs).1, vs)
  | _ => (r, vs)

/-- A step is a statistic step. -/
def isStat : Step → Option Nat
  | .ssq i => some i
  | .msq i => some i
  | .absmax i => some i
  | .smx i => some i
  | .sms i => some i
  | _ => none

/-- The reciprocal of R210: rne(1 / x), or +0 when x is 0; the second says it was forced. -/
def recip (x : Nat) : Nat × Bool := if isZero32 x then (0, true) else (fp32Div one32 x, false)

/-- f_m, μ_m and whether f was forced to +0, of a prologue from a row value or record (Table 7.5). -/
def rowFactor (p : Prologue) (eps : Nat) (row : Nat) (r : StatRec) : Nat × Nat × Bool :=
  let n := natTo32 r.n
  match p with
  | .rfx => (row, 0, false)
  | .rms => (fRsqrt (fp32Add (fp32Div r.s1 n) eps), 0, false)
  | .ln =>
    let mu := fp32Div r.s0 n
    let var := max32 0 (fp32Sub (fp32Div r.s1 n) (fp32Mul mu mu))
    (fRsqrt (fp32Add var eps), mu, false)
  | .smf => let (f, z) := recip r.s1; (f, 0, z)
  | _ => (one32, 0, false)

/-- What the epilogue of a row reads: the row factor and mean, param1, the extra streams' values by column, and the records. -/
structure RowEnv where
  f : Nat
  mu : Nat
  param : Nat
  xs : List (List Nat)
  recs : List StatRec
  deriving DecidableEq, Repr

/-- Value of extra stream i at column c. -/
def RowEnv.x (e : RowEnv) (i c : Nat) : Nat := (e.xs.getD i []).getD c 0

/-- An element-wise epilogue step (Table 7.1). -/
def elemStep (e : RowEnv) (st : Step) (c v : Nat) : Nat :=
  match st with
  | .rowf => fp32Mul v e.f
  | .bias i => fp32Add v (e.x i c)
  | .colf i => fp32Mul v (e.x i c)
  | .scale => fp32Mul v e.param
  | .clamp => clamp32 e.param v
  | .relu => relu32 v
  | .add i => fp32Add v (e.x i c)
  | .mul i => fp32Mul v (e.x i c)
  | .mulsilu i => fp32Mul v (fSilu (e.x i c))
  | .gelu => fGelu v
  | .gelut => fGelut v
  | .silu => fSilu v
  | .sigm => fSigm v
  | .softcap => fSoftcap e.param v
  | .meancor i => fp32Sub v (fp32Mul e.mu (e.x i c))
  | .centre => fp32Sub v e.mu
  | .expn i =>
    let s0 := (e.recs.getD i ⟨0, 0, 0, 0⟩).s0
    if s0 = inf32 true then 0 else fExp (fp32Sub v s0)
  | .lnorm i => fp32Mul v (recip (e.recs.getD i ⟨0, 0, 0, 0⟩).s1).1
  | _ => v

/-- CPOW (Table 7.1): pairs of columns become one. -/
def cpow : List Nat → List Nat
  | a :: b :: r => fp32Fma a a (fp32Mul b b) :: cpow r
  | _ => []

/-- The epilogue of one row (R199): its values after the steps, the updated records, rows forced to +0 and rows that became
NaN (R211). -/
def epilogueRow (steps : List Step) (e : RowEnv) (vs : List Nat) : List Nat × List StatRec × Nat × Nat :=
  steps.foldl (fun (vs, rs, z, n) st =>
    match isStat st with
    | some i =>
      let r := rs.getD i ⟨0, 0, 0, 0⟩
      let (r', ws) := statUpdate st r vs
      (ws, rs.set i r', z, if r'.allNan && (r.n == 0 || !r.allNan) then n + 1 else n)
    | none =>
      match st with
      | .cpow => (cpow vs, rs, z, n)
      | .lnorm i => (vs.zipIdx.map (fun (v, c) => elemStep e st c v), rs,
          if (recip (e.recs.getD i ⟨0, 0, 0, 0⟩).s1).2 then z + 1 else z, n)
      | _ => (vs.zipIdx.map (fun (v, c) => elemStep e st c v), rs, z, n)) (vs, e.recs, 0, 0)

end Sys2Proof.Machine
end

