-- ==== Sys2Proof/Machine/ArrayExec.lean ====
section
/-! DEFINITION. Sys2Proof/Machine/ArrayExec.lean: what LDS, STR, DRN and CHN do on a matrix array (chapters 5 to 7), a whole
instruction at a time. -/
namespace Sys2Proof.Machine

/-- Profile i in effect for a mould (R126). -/
def State.profile (s : State) (m i : Nat) : Profile := (arithProfiles (s.arithBody m)).getD i ⟨0, 0, 0, 0, false, false⟩

/-- The A address of an instruction after its repeats (R187). -/
def stepAddr (base : Nat) (off : Int) : Nat := ofInt 48 ((base : Int) + off)

/-- n packed elements of a format of mould m at an address (R105). -/
def State.elems (s : State) (m fmt a n : Nat) : List Nat :=
  let bs := s.readMem m a (elemBytes fmt n)
  (List.range n).map (packedElem fmt bs)

/-- The code of 1.0 in a weight format (R214). -/
def oneCode (fmt : Nat) : Nat :=
  match floatFmt fmt with
  | some f => f.bias * 2 ^ f.mb
  | none => 1

/-- K positions a V-mode block covers (R143). -/
def vBlockK (p : Profile) : Nat := if twoProduct p.aFmt p.wFmt then 32 else if isWide p.aFmt then 8 else 16

/-- The plane an LDS loads (Table 6.6, R146, R613), with the bytes it reads: elements, then scales. -/
def State.ldsPlane (s : State) (m : Nat) (q : QIns) : Plane × Bytes × Bytes :=
  let pi := bitsOf q.w0 18 4
  let p := s.profile m pi
  let v := bit q.w0 35
  let k := if v then (bitsOf q.w0 36 8 + 1) * vBlockK p else bitsOf q.w0 22 7 + 1
  let n := bitsOf q.w0 29 6 + 1
  let a := stepAddr (bitsOf q.w0 48 48) q.offA
  let st := bitsOf q.w0 96 32
  let b := stepAddr (bitsOf q.w1 0 48) q.offB
  let rows := (List.range k).map (fun i => s.readMem m (a + i * st) (elemBytes p.wFmt n))
  let sc := if isMx p.wFmt then (List.range (cdiv k 32)).map (fun j => s.readMem m (b + j * n) n) else []
  (⟨pi, rows.map (fun r => (List.range n).map (packedElem p.wFmt r)), sc.map (fun r => r.map (·.toNat))⟩,
    rows.flatten, sc.flatten)

/-- What one cell takes from a pass: its element codes in ascending K and the scale bytes of its blocks. -/
structure Feed where
  as_ : List Nat
  ws : List Nat
  sa : List Nat
  sw : List Nat
  deriving DecidableEq, Repr

/-- The exact sum of products of two element sequences (R107, R109). -/
def dot (aFmt wFmt : Nat) (as_ ws : List Nat) : AccVal :=
  (as_.zip ws).foldl (fun acc p => acc.add (product (elemVal aFmt p.1) (elemVal wFmt p.2))) AccVal.zero

/-- The blocks of a feed: one of all K, or blocks of 32 with their scales under an MX pair (R117). -/
def Feed.blocks (p : Profile) (f : Feed) : List (AccVal × Nat × Nat) :=
  if isMx p.aFmt then
    ((chunks 32 f.as_).zip (chunks 32 f.ws)).zipIdx.map fun ((a, w), j) => (dot p.aFmt p.wFmt a w, f.sa.getD j 127, f.sw.getD j 127)
  else [(dot p.aFmt p.wFmt f.as_ f.ws, 127, 127)]

/-- The drain of one MX block (R117, R118). -/
def mxDrain (b : AccVal × Nat × Nat) : Nat :=
  if b.2.1 = 255 ∨ b.2.2 = 255 then nan32 else drainVal b.1 ((b.2.1 : Int) + b.2.2 - 254)

/-- A cell takes a feed: exact sum, MX block drains, or the operand pairs of a wide chain. -/
def Cell.take (p : Profile) (c : Cell) (f : Feed) : Cell :=
  if isWide p.aFmt then { c with wide := c.wide ++ f.as_.zip f.ws }
  else if isMx p.aFmt then { c with drains := c.drains ++ (f.blocks p).map mxDrain }
  else { c with acc := c.acc.add (dot p.aFmt p.wFmt f.as_ f.ws) }

/-- The empty cell. -/
def Cell.zero : Cell := ⟨AccVal.zero, [], []⟩

/-- Cells take their feeds, row by row. -/
def takeFeeds (p : Profile) (cells : List (List Cell)) (fs : List (List Feed)) : List (List Cell) :=
  (List.range (max cells.length fs.length)).map fun r =>
    let old := cells.getD r []
    match fs[r]? with
    | none => old
    | some row => row.zipIdx.map fun (f, c) => (old.getD c Cell.zero).take p f

/-- A WS, OS or V stream: its mode, its feeds by row and column, and the bytes it reads as activations (with their scales)
and as OS weights (Table 6.5, R137, R141, R143, R613). -/
def State.strFeeds (s : State) (m : Nat) (q : QIns) (plane : Plane) : List (List Feed) × Bytes × Bytes :=
  let p := s.profile m (bitsOf q.w0 18 4)
  let mode := bitsOf q.w0 16 2
  let len := bitsOf q.w0 22 12 + 1
  let a := stepAddr (bitsOf q.w0 48 48) q.offA
  let sa := bitsOf q.w0 96 32
  let b := stepAddr (bitsOf q.w1 0 48) q.offB
  let sb := bitsOf q.w1 48 32
  let per := if twoProduct p.aFmt p.wFmt then 2 else 1
  let mx := isMx p.aFmt
  let col := fun (c : Nat) => plane.weights.map (fun r => r.getD c 0)
  let scol := fun (c : Nat) => plane.scales.map (fun r => r.getD c 127)
  if mode = 1 then
    let ra := (List.range len).map (fun k => s.readMem m (a + k * sa) (elemBytes p.aFmt (64 * per)))
    let rb := (List.range len).map (fun k => s.readMem m (b + k * sb) (elemBytes p.wFmt (64 * per)))
    let pick := fun (fmt : Nat) (rs : List Bytes) (i : Nat) =>
      rs.flatMap (fun r => (List.range per).map (fun j => packedElem fmt r (per * i + j)))
    let ca := (List.range 64).map (pick p.aFmt ra)
    let cb := (List.range 64).map (pick p.wFmt rb)
    (ca.map (fun x => cb.map (fun y => ⟨x, y, [], []⟩)), ra.flatten, rb.flatten)
  else
    let k := if mode = 0 then plane.weights.length else len
    let rows := if mode = 0 then len else bitsOf q.w0 34 2 + 1
    let ra := (List.range rows).map (fun r => s.readMem m (a + r * sa) (elemBytes p.aFmt k))
    let rs := if mx then (List.range rows).map (fun r => s.readMem m (b + r * sb) (cdiv k 32)) else []
    let cols := (List.range 64).map (fun c => (col c, scol c))
    (ra.zipIdx.map (fun (r, i) =>
      let x := (List.range k).map (packedElem p.aFmt r)
      let xs := (rs.getD i []).map (·.toNat)
      cols.map (fun w => ⟨x, w.1, xs, w.2⟩)),
     (ra.zipIdx.map (fun (r, i) => r ++ rs.getD i [])).flatten, [])

/-- One past the highest byte a WS or V stream reads as activations or their scales, from the arrival buffer's start (R216). -/
def State.strReach (s : State) (m k : Nat) (q : QIns) : Nat :=
  let p := s.profile m (bitsOf q.w0 18 4)
  let mode := bitsOf q.w0 16 2
  let len := bitsOf q.w0 22 12 + 1
  let a := stepAddr (bitsOf q.w0 48 48) q.offA
  let sa := bitsOf q.w0 96 32
  let b := stepAddr (bitsOf q.w1 0 48) q.offB
  let sb := bitsOf q.w1 48 32
  let n := if mode = 2 then bitsOf q.w0 34 2 + 1 else len
  let w := if mode = 0 then elemBytes p.aFmt k
    else if mode = 1 then elemBytes p.aFmt (if twoProduct p.aFmt p.wFmt then 128 else 64) else elemBytes p.aFmt len
  let kk := if mode = 0 then k else len
  let tops := (List.range n).map (fun i => a + i * sa + w)
  let sc := if isMx p.aFmt then (List.range n).map (fun i => b + i * sb + cdiv kk 32) else []
  (tops ++ sc).foldl max 0

/-- The granules an arrival chain's STR needs (R216). -/
def State.granules (s : State) (m k : Nat) (q : QIns) (x0 : Nat) : Nat := cdiv (s.strReach m k q - x0) 64

/-- The checked lines of a grid of special flags that hold one (R149 to R154): rows, columns and the corner in WS and OS, rows
alone under a wide pair, lanes alone in V mode. -/
def flagLines (mode : Nat) (wide : Bool) (g : List (List Bool)) : Nat :=
  let rows := (g.filter (fun r => r.any id)).length
  if wide ∨ mode = 2 then rows
  else rows + ((List.range 64).filter (fun c => g.any (fun r => r.getD c false))).length + ofBool (decide (0 < rows))

/-- Lines an STR leaves uncompared (R154): under WS those of the pass, under OS and V those of the span when it ends, and
under an MX pair those of each block. fs are the feeds of the STR, sp the span with them. -/
def skipLines (p : Profile) (fs : List (List Feed)) (sp : Span) : Nat :=
  if isMx p.aFmt then
    sumNat ((List.range (((fs.headD []).headD ⟨[], [], [], []⟩).blocks p |>.length)).map fun j =>
      flagLines sp.mode false (fs.map (fun row => row.map (fun f => decide ((((f.blocks p).getD j (AccVal.zero, 0, 0)).1).f ≠ .none)))))
  else if isWide p.aFmt then
    if sp.mode = 0 ∨ sp.ended then
      flagLines sp.mode true ((sp.cells.take fs.length).map (fun row => row.map (fun x =>
        x.wide.any (fun q => decide ((product (elemVal p.aFmt q.1) (elemVal p.wFmt q.2)).f ≠ .none)))))
    else 0
  else if sp.mode = 0 then
    flagLines 0 false (fs.map (fun row => row.map (fun f => decide ((dot p.aFmt p.wFmt f.as_ f.ws).f ≠ .none))))
  else if sp.ended then flagLines sp.mode false (sp.cells.map (fun row => row.map (fun x => decide (x.acc.f ≠ .none))))
  else 0

/-- Operand beats a stream presents (R106, R140 to R143). -/
def strBeats (p : Profile) (q : QIns) : Nat :=
  let len := bitsOf q.w0 22 12 + 1
  let w := if isWide p.aFmt then 2 else 1
  match bitsOf q.w0 16 2 with
  | 0 => (len + 1) * w
  | 1 => len * w
  | _ => cdiv len (vBlockK p) * w

/-- Add digest bytes of a role to a part (R235): 0 weights, 1 inputs, 2 outputs. -/
def State.absorb (s : State) (c st part ord role : Nat) (bs : Bytes) : State :=
  let v := s.stream c st
  let h := segHdrAt v.image v.segOff
  if !bit h.flags (3 + part) || bs.isEmpty then s
  else
    let k := 256 * ord + role
    let add := fun (t : Tab Bytes) => Tab.set [] t k (Tab.get [] t k ++ bs)
    let v := { v with absorbed := v.absorbed + bs.length }
    s.setStream c st (if part = 0 then { v with dgW := add v.dgW } else if part = 1 then { v with dgI := add v.dgI }
      else { v with dgO := add v.dgO })

/-- An instruction with its nd bit set marks its segment's record (R231 to R233). -/
def State.markNd (s : State) (c st m : Nat) (q : QIns) : State :=
  if !bit q.w0 8 then s
  else
    let v := s.stream c st
    let seeded := (q.cls = 3 && (s.profile m (bitsOf q.w0 18 4)).rnd == 2) || q.cls == 4
    s.setStream c st (if seeded then { v with ndSeeded := true } else { v with ndOrder := true })

/-- LDS (R146): the plane waits in the shadow. -/
def State.runLds (s : State) (c st m : Nat) (q : QIns) : State :=
  let (pl, bs, sc) := s.ldsPlane m q
  let k := s.array c q.eng
  let s := s.setArray c q.eng { k with shadow := k.shadow ++ [pl] }
  (s.absorb c st 0 q.ord 0x10 bs).absorb c st 0 q.ord 0x11 sc

/-- CHN (R197): the chain is bound to the next STR and DRN of the array. -/
def State.runChn (s : State) (c : Nat) (q : QIns) : State :=
  let k := s.array c q.eng
  let b : Binding :=
    { chain := bitsOf q.w0 16 6, param0 := bitsOf q.w0 32 32, param1 := bitsOf q.w1 96 32,
      x0 := stepAddr (bitsOf q.w0 64 48) q.offA, x1 := stepAddr (bitsOf q.w1 0 48) q.offB,
      strideX := bitsOf q.w1 48 32, arrival := bit q.w0 24, strDone := false, ordinal := q.ord }
  s.setArray c q.eng { k with binding := some b }

/-- Address of extra stream i of a binding (R202): an arrival chain's single stream is at addr_x1. -/
def Binding.addr (b : Binding) (i : Nat) : Nat := if b.arrival ∨ i = 1 then b.x1 else b.x0

/-- The prologue of a bound STR (R198, R210): row factors and means, and the digest bytes it reads. -/
def State.runPrologue (s : State) (c st m a : Nat) (b : Binding) (rows : Nat) : State :=
  let ch := chainOf b.chain
  if ch.pro = .none ∨ ch.pro = .arv then s
  else
    let rec_ := ch.pro ≠ .rfx
    let bs := s.readMem m (b.addr 0) (rows * (if rec_ then 16 else 4))
    let fs := (List.range rows).map (fun i =>
      rowFactor ch.pro b.param1 (leAt bs (4 * i) 4) (if rec_ then statOf (slice bs (16 * i) 16) else ⟨0, 0, 0, 0⟩))
    let s := s.setArray c a { s.array c a with rowF := fs.map (·.1), rowMu := fs.map (·.2.1) }
    let s := s.cnt F.chnCnt_emptyRow c 0 (fs.filter (·.2.2)).length
    s.absorb c st 1 b.ordinal 0x22 bs

/-- The plane the next pass of an array uses: the identity of a normalising entry (R214), the plane already active under
no_swap, or the oldest plane of the shadow (R180). -/
def State.swapPlane (s : State) (c a : Nat) (q : QIns) (p : Profile) (nrm : Bool) : State :=
  let k := s.array c a
  if nrm then
    s.setArray c a { k with active := ⟨bitsOf q.w0 18 4, (List.range 64).map (fun r => (List.range 64).map (fun i =>
      if i = r then oneCode p.wFmt else 0)), []⟩ }
  else if bit q.w0 37 || bitsOf q.w0 16 2 = 1 then s
  else
    match k.shadow with
    | pl :: r => s.setArray c a { k with active := pl, shadow := r }
    | [] => s

/-- The span of an array that takes a stream: the open one, or a new one (R138, R141, R144). -/
def openSpan (k : ArraySt) (mode profile : Nat) : List Span × Span :=
  match k.spans.getLast? with
  | some sp => if sp.ended then (k.spans, ⟨mode, profile, if mode = 0 then k.half else mode + 1, [], 0, false, false⟩)
      else (k.spans.dropLast, sp)
  | none => ([], ⟨mode, profile, if mode = 0 then k.half else mode + 1, [], 0, false, false⟩)

/-- One array of the gang takes a stream. -/
def State.strOn (s : State) (c st m a : Nat) (q : QIns) (nrm : Bool) : State :=
  let pi := bitsOf q.w0 18 4
  let p := s.profile m pi
  let mode := bitsOf q.w0 16 2
  let s := s.swapPlane c a q p nrm
  let k := s.array c a
  let (fs, ba, bw) := s.strFeeds m q k.active
  let (done, sp) := openSpan k mode pi
  let fin := bit q.w0 36
  let sp := { sp with cells := takeFeeds p sp.cells fs, prods := sp.prods + ((fs.headD []).headD ⟨[], [], [], []⟩).as_.length,
                      ended := fin, chain := sp.chain || k.binding.any (fun b => !b.strDone) }
  let s := s.setArray c a { k with spans := done ++ [sp], half := if fin && mode = 0 then 1 - k.half else k.half }
  let s := (s.wr F.arrStatus_mode mode c a).wr F.arrStatus_power 2 c a
  let s := (s.inc F.arrBeats_activeBeats c a (strBeats p q)).cnt F.arrChk_skip c a (skipLines p fs sp)
  if a = q.eng then (s.absorb c st 1 q.ord 0x20 ba).absorb c st 1 q.ord 0x21 bw else s

/-- STR (R134, R137): every array of the gang takes the stream; the bound prologue runs first. -/
def State.runStr (s : State) (c st m : Nat) (q : QIns) : State :=
  let k := s.array c q.eng
  let rows := if bitsOf q.w0 16 2 = 1 then 64 else if bitsOf q.w0 16 2 = 0 then bitsOf q.w0 22 12 + 1 else bitsOf q.w0 34 2 + 1
  let s := match k.binding with
    | some b => if b.strDone then s else s.runPrologue c st m q.eng b rows
    | none => s
  let nrm := match k.binding with
    | some b => !b.strDone && (chainOf b.chain).nrm
    | none => false
  let s := (s.gangOfArray c q.eng).foldl (fun u a => u.strOn c st m a q nrm) s
  let k := s.array c q.eng
  s.setArray c q.eng { k with binding := k.binding.map (fun b => { b with strDone := true }) }

/-- K of the next pass on an array: of the plane it will use. -/
def State.nextK (s : State) (c : Nat) (q : QIns) : Nat :=
  let k := s.array c q.eng
  if bit q.w0 37 then k.active.weights.length else (match k.shadow with | pl :: _ => pl.weights.length | [] => k.active.weights.length)

/-- The value an element takes from its fold or chain (R110 to R114, R199, R212), with the integer saturations: start is the
fold's start value, alpha the factor of an online fold. -/
def cellValue (p : Profile) (cell : Cell) (start : Nat) (alpha : Option Nat) : Nat × Nat :=
  if p.drainInt32 then
    let r := foldInt32 (sext 32 start) [drainInt cell.acc]
    (ofInt 32 r.1, r.2)
  else
    let s0 := match alpha with | some al => fp32Mul start al | none => start
    if isWide p.aFmt then (cell.wide.foldl (fun x q => wideStep x (elemVal p.aFmt q.1) (elemVal p.wFmt q.2)) s0, 0)
    else if isMx p.aFmt then (foldFp32 s0 cell.drains, 0)
    else (foldFp32 s0 [drainVal cell.acc 0], 0)

/-- The rounding of element i of a drain (R119, R122). -/
def rndOf (p : Profile) (seed ndSeed bitAddr width i : Nat) : Rnd :=
  if p.rnd = 0 then .rne
  else .stoch (if p.rnd = 2 then ndSeed else seed) ((bitAddr / width + i) % 2 ^ 32)

/-- What a drained row writes: its element bytes, its MX scale bytes, and what its conversions counted (saturations, NaN
squashes) with, per column, whether the conversion gave an infinity. -/
structure RowOut where
  bytes : Bytes
  scales : Bytes
  sat : Nat
  squash : Nat
  infs : List Bool
  deriving DecidableEq, Repr

/-- A row converted under the DRN's profile (R119 to R123), or written as FP32 or INT32. -/
def convertRow (p : Profile) (conv : Bool) (seed ndSeed addr : Nat) (vs : List Nat) : RowOut :=
  if !conv then ⟨vs.flatMap (toLe 4), [], 0, 0, vs.map fun _ => false⟩
  else
    let w := elemBits p.outFmt
    let val := fun (v : Nat) => if p.drainInt32 then FVal.fin (decide (sext 32 v < 0)) (sext 32 v).natAbs 0 else ofFp32 v
    let r := fun (i : Nat) => rndOf p seed ndSeed (8 * addr) w i
    if isMx p.outFmt then
      let gs := (chunks 32 (vs.map val)).zipIdx.map (fun (g, j) => convertMx p.outFmt p.ovf (fun i => r (32 * j + i)) g)
      let os := gs.flatMap (·.2)
      ⟨packElems p.outFmt (os.map (·.code)), gs.map (fun g => BitVec.ofNat 8 g.1), (os.filter (·.sat)).length,
        (os.filter (·.squash)).length, os.map (·.inf)⟩
    else
      let os := vs.zipIdx.map (fun (v, i) => convert p.outFmt p.ovf (r i) (val v))
      ⟨packElems p.outFmt (os.map (·.code)), [], (os.filter (·.sat)).length, (os.filter (·.squash)).length, os.map (·.inf)⟩

/-- The extra streams and records a row's epilogue reads (R202, Table 7.2). -/
def State.rowEnv (s : State) (m : Nat) (k : ArraySt) (b : Binding) (row cols : Nat) : RowEnv :=
  let ch := chainOf b.chain
  let fmt := fun (i : Nat) => if i = 0 ∧ !b.arrival then bitsOf b.param0 0 4 else bitsOf b.param0 4 4
  let xs := ch.streams.zipIdx.map fun (kd, i) =>
    match kd with
    | .e => (s.elems m (fmt i) (b.addr i + row * b.strideX) cols).map (fun x => toFp32 (elemVal (fmt i) x))
    | .c => (List.range cols).map (fun j => leNat (s.readMem m (b.addr i + 4 * j) 4))
    | _ => []
  let rs := ch.streams.zipIdx.map fun (kd, i) =>
    match kd with
    | .s => statOf (s.readMem m (b.addr i + 16 * row) 16)
    | _ => ⟨0, 0, 0, 0⟩
  ⟨k.rowF.getD row one32, k.rowMu.getD row 0, b.param1, xs, rs⟩

/-- The bytes a row of a bound DRN reads from extra streams, for the digest: (role, bytes) (Table 8.4). -/
def State.rowReads (s : State) (m : Nat) (b : Binding) (row cols : Nat) : List (Nat × Bytes) :=
  let ch := chainOf b.chain
  let fmt := fun (i : Nat) => if i = 0 ∧ !b.arrival then bitsOf b.param0 0 4 else bitsOf b.param0 4 4
  let upd := ch.steps.filterMap isStat
  ch.streams.zipIdx.filterMap fun (kd, i) =>
    match kd with
    | .e => some (0x22 + i, s.readMem m (b.addr i + row * b.strideX) (elemBytes (fmt i) cols))
    | .c => if row = 0 then some (0x22 + i, s.readMem m (b.addr i) (4 * cols)) else none
    | .s => if upd.contains i then some (0x25, s.readMem m (b.addr i + 16 * row) 16)
        else if ch.pro = .none then some (0x22 + i, s.readMem m (b.addr i + 16 * row) 16) else none
    | .w => none

/-- One row of a DRN: folded, taken through the epilogue, converted and written; records updated; events counted. -/
def State.drnRow (s : State) (c st m : Nat) (q : QIns) (sp : Span) (b : Option Binding) (row : Nat) : State :=
  let p := s.profile m (bitsOf q.w0 18 4)
  let cols := bitsOf q.w0 30 6 + 1
  let foldIn := bitsOf q.w0 36 2
  let conv := bit q.w0 38
  let a := stepAddr (bitsOf q.w0 48 48) q.offA + row * bitsOf q.w1 48 32
  let startAt := stepAddr (bitsOf q.w1 0 48) q.offB
  let sbs := if foldIn = 2 then s.readMem m (startAt + row * cols * 4) (4 * cols) else []
  let start := fun (i : Nat) => if foldIn = 0 then 0 else if foldIn = 1 then bitsOf q.w1 80 32 else leAt sbs (4 * i) 4
  let k := s.array c q.eng
  let env := match b with
    | some b => s.rowEnv m k b row cols
    | none => ⟨one32, 0, 0, [], []⟩
  let ch := match b with | some b => chainOf b.chain | none => chainOf 0
  let alpha := ch.steps.findSome? (fun x => match x with | .osm i => some (env.recs.getD i ⟨0, 0, 0, 0⟩).s2 | _ => none)
  let cells := sp.cells.getD row []
  let fv := (List.range cols).map (fun i => cellValue p (cells.getD i Cell.zero) (start i) alpha)
  let vs := fv.map (·.1)
  let (ws, recs, empty, nans) := epilogueRow ch.steps env vs
  let out := convertRow p conv (bitsOf q.w0 96 32) (s.stream c st).ndSeed a ws
  let fl := fun (v : Nat) => !p.drainInt32 && isInf32 v
  let infs := ((List.range cols).filter (fun i => fl (vs.getD i 0) || out.infs.getD i false)).length
  let s := (s.cnt F.arithCnt_satCount c 0 (sumNat (fv.map (·.2)) + out.sat)).cnt F.arithCnt_nanSquash c 0 out.squash
  let s := (s.cnt F.arithCnt_nanOut c 0 (vs.filter (fun v => !p.drainInt32 && isNan32 v)).length).cnt F.arithCnt_infOut c 0 infs
  let s := (s.cnt F.chnCnt_emptyRow c 0 empty).cnt F.chnCnt_nanRow c 0 nans
  let reads := match b with | some b => s.rowReads m b row cols | none => []
  let s := match b with
    | some b => reads.foldl (fun (u : State) (r : Nat × Bytes) => u.absorb c st 1 b.ordinal r.1 r.2) s
    | none => s
  let s := s.absorb c st 1 q.ord 0x24 sbs
  let s := match b with
    | some b => ch.steps.foldl (fun (u : State) x =>
        match isStat x with
        | some i =>
          let bs := (recs.getD i ⟨0, 0, 0, 0⟩).bytes
          (u.writeMem m (b.addr i + 16 * row) bs).absorb c st 2 b.ordinal 0x32 bs
        | none => u) s
    | none => s
  let s := (s.writeMem m a out.bytes).absorb c st 2 q.ord 0x30 out.bytes
  if out.scales.isEmpty then s
  else
    let sc := stepAddr (bitsOf q.w2 0 48) q.offB + row * bitsOf q.w2 48 32
    (s.writeMem m sc out.scales).absorb c st 2 q.ord 0x31 out.scales

/-- DRN (R181): the first ended span of its source is drained row by row and leaves the array. -/
def State.runDrn (s : State) (c st m : Nat) (q : QIns) : State :=
  let k := s.array c q.eng
  let src := bitsOf q.w0 16 2
  match k.spans.find? (fun sp => sp.ended && sp.source = src) with
  | none => s
  | some sp =>
    let b := if sp.chain then k.binding else none
    let s := (List.range (bitsOf q.w0 22 8 + 1)).foldl (fun u r => u.drnRow c st m q sp b r) s
    let recs := match b with
      | some b => ((chainOf b.chain).steps.filterMap isStat).map b.addr
      | none => []
    let scales := if isMx (s.profile m (bitsOf q.w0 18 4)).outFmt && bit q.w0 38 then [stepAddr (bitsOf q.w2 0 48) q.offB] else []
    let touched := ([stepAddr (bitsOf q.w0 48 48) q.offA] ++ scales ++ recs)
    let firsts := touched.zipIdx.filter (fun (a, i) => (touched.take i).all (fun b => s.regionIdx m b != s.regionIdx m a))
    let s := firsts.foldl (fun u a => u.bumpAt m a.1) s
    let k := s.array c q.eng
    s.setArray c q.eng { k with spans := k.spans.erase sp, binding := if sp.chain then none else k.binding }

end Sys2Proof.Machine
end

