-- ==== Sys2Proof/Machine/Stream.lean ====
section
/-! DEFINITION. Sys2Proof/Machine/Stream.lean: sequencer streams: how a segment starts, issues, queues and runs its instructions,
waits, and ends (chapter 6), admission (R255 to R258) and slot entries (R259, R260). -/
namespace Sys2Proof.Machine

/-- The mould of the segment on a stream. -/
def State.sMould (s : State) (c st : Nat) : Nat := s.rd F.seqStream_mould c st

/-- The context of the segment on a stream. -/
def State.sCtx (s : State) (c st : Nat) : Nat := s.rd F.seqStream_ctx c st

/-- The next instruction of a stream: what its class, engine and words are, where its repeats put its addresses, and how many
words it takes. None when no segment runs, END has issued, or the segment holds on outside data (R174). -/
def State.nextIns (s : State) (c st : Nat) : Option (QIns × Nat) :=
  let v := s.stream c st
  if !v.busy || v.ending || s.rd F.seqStream_state c st = 2 then none
  else
    let w := fun (i : Nat) => segWord v.image v.segOff (v.pc + i)
    let w0 := w 0
    let step := fun (f : Rpt → Nat) => (v.rpts.zipIdx.map (fun (r, l) => if bit w0 (10 + l) then sext 32 (f r) * (r.iter : Int) else 0)).foldl (· + ·) 0
    some (⟨bitsOf w0 4 4, bitsOf w0 0 4, w0, w 1, w 2, step (·.strideA), step (·.strideB), v.ordinal, v.pc⟩, bitsOf w0 14 2 + 1)

/-- After a body's last word the innermost open repeat loops or closes, and then the one around it (R186). -/
def closeRpts : Nat → List Rpt → Nat → List Rpt × Nat
  | 0, rs, pc => (rs, pc)
  | f + 1, rs, pc =>
    match rs.getLast? with
    | none => (rs, pc)
    | some r =>
      if pc ≠ r.start + r.body then (rs, pc)
      else if r.iter + 1 < r.count then (rs.dropLast ++ [{ r with iter := r.iter + 1 }], r.start)
      else closeRpts f rs.dropLast pc

/-- The stream moves past an instruction of n words. -/
def State.advance (s : State) (c st n : Nat) : State :=
  let v := s.stream c st
  let (rs, pc) := closeRpts 5 v.rpts (v.pc + n)
  s.setStream c st { v with rpts := rs, pc := pc, ordinal := v.ordinal + 1 }

/-- The queue of an engine of a stream. -/
def State.queue (s : State) (c st e : Nat) : List QIns := Tab.get [] (s.stream c st).queues e

/-- Replace an engine queue. -/
def State.setQueue (s : State) (c st e : Nat) (q : List QIns) : State :=
  let v := s.stream c st
  s.setStream c st { v with queues := Tab.set [] v.queues e q }

/-- Token a TWT or TPS names. -/
def QIns.token (q : QIns) : Nat := bitsOf q.w0 17 5

/-- Count or value of a TWT or TPS. -/
def QIns.count (q : QIns) : Nat := bitsOf q.w0 22 16

/-- Scope of a TWT or TPS: context. -/
def QIns.ctxScope (q : QIns) : Bool := bit q.w0 16

/-- The count a TWT sees. -/
def State.tokenSeen (s : State) (c st : Nat) (q : QIns) : Nat :=
  if q.ctxScope then s.tok c (s.sMould c st) (s.sCtx c st) q.token else Tab.get 0 (s.stream c st).ltok q.token

/-- The outside wait an arrival STR still has (R216): its token and the granules it needs. -/
def State.arrivalNeed (s : State) (c st : Nat) (q : QIns) : Option (Nat × Nat) :=
  match (s.array c q.eng).binding with
  | some b => if b.arrival && !b.strDone
      then some (bitsOf b.param0 8 5, s.granules (s.sMould c st) (s.nextK c q) q b.x0) else none
  | none => none

/-- The head of an engine queue may complete now. -/
def State.headReady (s : State) (c st : Nat) (q : QIns) : Bool :=
  let audit := (s.stream c st).audit
  match q.cls with
  | 6 => (q.ctxScope && audit) || q.count ≤ s.tokenSeen c st q
  | 2 => match s.arrivalNeed c st q with
    | some (t, g) => audit || g ≤ s.tok c (s.sMould c st) (s.sCtx c st) t
    | none => true
  | 3 => (s.gangOfArray c q.eng).all (fun a => (s.array c a).replay.isNone)
  | 8 => !(s.seng c q.eng).running
  | _ => true

/-- A resident program of a mould on a signal engine whose entry point is at a word (R428): its flags. -/
def State.progEntry (s : State) (c e m entry : Nat) : Option Nat :=
  if entry < 0x1000 then
    let l := Config.seLibEntry s.fwLib entry
    if l.1 then some l.2 else none
  else ((s.seng c e).progs.find? (fun p => p.mould = m && p.entries.any (fun o => p.base + o = entry))).map (·.flags)

/-- A 64-bit data address with its offset moved (R187, R610). -/
def stepData (a : Nat) (off : Int) : Nat := a / 2 ^ 48 * 2 ^ 48 + ofInt 48 ((a % 2 ^ 48 : Nat) + off)

/-- A MOV enters its context's transfer queue (R167, R182). -/
def State.queueMov (s : State) (c st : Nat) (q : QIns) : State :=
  let m := s.sMould c st
  let x := s.sCtx c st
  let kind := bitsOf q.w0 16 4
  let dst := bitsOf q.w1 0 64
  let mv : MovSt :=
    { kind := kind, fast := bit q.w0 20, doneTok := bitsOf q.w0 21 5, doneEn := bit q.w0 26, len := bitsOf q.w0 32 32,
      src := stepData (bitsOf q.w0 64 64) q.offA,
      dst := if kind = 5 then dst % 2 ^ 16 + 2 ^ 16 * ofInt 48 ((dst / 2 ^ 16 : Nat) + q.offB) else stepData dst q.offB,
      remTok := bitsOf q.w1 64 5, remEn := bit q.w1 69, heat := s.heat m, quenches := (s.mould m).quenches, begun := false,
      opId := s.fab.opSeq + 1, run := (s.stream c st).run, beganAt := 0 }
  let s := { s with fab := { s.fab with opSeq := s.fab.opSeq + 1 } }
  let k := s.clu c
  s.setClu c { k with ladle := Tab.set [] k.ladle (ctxKey m x) (Tab.get [] k.ladle (ctxKey m x) ++ [mv]) }

/-- A TPS adds its value to its token (R184). -/
def State.runTps (s : State) (c st : Nat) (q : QIns) : State :=
  if q.ctxScope then s.post c (s.sMould c st) (s.sCtx c st) q.token q.count
  else
    let v := s.stream c st
    let n := Tab.get 0 v.ltok q.token + q.count
    let s := s.setStream c st { v with ltok := Tab.set 0 v.ltok q.token (min n 65535) }
    if n > 65535 then
      s.logEvt 0x0E01 (srcEngine c 8) (s.sMould c st) (q.token + s.sCtx c st * 2 ^ 16 + st * 2 ^ 24)
    else s

/-- A satisfied TWT subtracts its count; under audit an outside wait subtracts nothing (R184, R241). -/
def State.runTwt (s : State) (c st : Nat) (q : QIns) : State :=
  if q.ctxScope then
    if (s.stream c st).audit then s
    else s.setTok c (s.sMould c st) (s.sCtx c st) q.token (s.tok c (s.sMould c st) (s.sCtx c st) q.token - q.count)
  else
    let v := s.stream c st
    s.setStream c st { v with ltok := Tab.set 0 v.ltok q.token (Tab.get 0 v.ltok q.token - q.count) }

/-- The last entries of an arrival STR are presented (R216): the granules are subtracted and CHN_ARRIVE records them. -/
def State.takeGranules (s : State) (c st : Nat) (q : QIns) : State :=
  match s.arrivalNeed c st q with
  | none => s
  | some (t, g) =>
    let s := if (s.stream c st).audit then s
      else s.setTok c (s.sMould c st) (s.sCtx c st) t (s.tok c (s.sMould c st) (s.sCtx c st) t - g)
    ((s.wr F.chnArrive_wait 0 c q.eng).wr F.chnArrive_granules g c q.eng).wr F.chnArrive_token t c q.eng

/-- An SGD starts its program (R430), or faults its context when the program is gone (R428). -/
def State.startSgd (s : State) (c st : Nat) (q : QIns) : State :=
  let m := s.sMould c st
  let x := s.sCtx c st
  let entry := bitsOf q.w0 16 16
  let i := q.eng - 4
  match s.progEntry c q.eng m entry with
  | none =>
    let s := (s.wr F.seStatus_lastFault E.seNoProg c i).cnt F.seCnt_faults c i
    s.faultCtx m x E.seNoProg (srcEngine c q.eng) c
  | some _ =>
    let e := s.seng c q.eng
    let s := s.setSeng c q.eng { e with
      pars := Tab.set 0 (Tab.set 0 (Tab.set 0 (Tab.set 0 [] 0 (bitsOf q.w0 32 32)) 1 (bitsOf q.w0 64 32)) 2 (bitsOf q.w1 0 32)) 3 (bitsOf q.w1 32 32),
      stream := st, running := true, blks := [] }
    let s := (((s.wr F.seStatus_state 1 c i).wr F.seStatus_pc entry c i).wr F.seStatus_mould m c i).wr F.seStatus_ctx x c i
    s.setReg .seBeats c i 0

/-- An instruction at the head of its queue takes effect. -/
def State.runIns (s : State) (c st : Nat) (q : QIns) : State :=
  let m := s.sMould c st
  match q.cls with
  | 1 => s.runLds c st m q
  | 2 => (s.takeGranules c st q).runStr c st m q
  | 3 => s.runDrn c st m q
  | 4 => s.runChn c q
  | 5 => s.queueMov c st q
  | 6 => s.runTwt c st q
  | 7 => s.runTps c st q
  | _ => s

/-- An engine works on its queue as far as it can (R166): an SGD starts and stays at the head until HALT. -/
def State.runQueue : Nat → State → Nat → Nat → Nat → State
  | 0, s, _, _, _ => s
  | f + 1, s, c, st, e =>
    if !(s.stream c st).busy then s
    else
      match s.queue c st e with
      | [] => s
      | q :: r =>
        if !s.headReady c st q then s
        else if q.cls = 8 then s.startSgd c st q
        else State.runQueue f ((s.setQueue c st e r).runIns c st q) c st e

/-- The engines with a head that an outside wait holds (R174). -/
def State.outsideHeads (s : State) (c st : Nat) : List QIns :=
  (s.stream c st).queues.filterMap fun (_, q) =>
    match q with
    | h :: _ =>
      if (h.cls = 6 && bit h.w0 9 && !s.headReady c st h) || (h.cls = 2 && !s.headReady c st h)
        || (h.cls = 8 && (s.seng c h.eng).running && s.rd F.seStatus_state c (h.eng - 4) = 2) then some h else none
    | [] => none

/-- SEQ_STREAM.state follows (Table 6.14): 2 holding on outside data, 3 ending, 1 running. -/
def State.showStream (s : State) (c st : Nat) : State :=
  let v := s.stream c st
  if !v.busy then s
  else s.wr F.seqStream_state (if !(s.outsideHeads c st).isEmpty then 2 else if v.ending then 3 else 1) c st

/-- The wait limit of an outside instruction (R172): the last word's [127:96]; an arrival STR has its CHN's. -/
def State.waitLimit (s : State) (c : Nat) (q : QIns) : Nat :=
  if q.cls = 6 then bitsOf q.w0 96 32
  else if q.cls = 2 then ((s.array c q.eng).binding.map (·.param1)).getD 0
  else bitsOf q.w1 96 32

/-- A stream issues its next instruction into its engine's queue, when it is of class cls and the queue has room (R165), and
the engine runs on. -/
def State.issue (s : State) (c st cls : Nat) : State :=
  match s.nextIns c st with
  | none => s
  | some (q, n) =>
    if q.cls ≠ cls || 8 ≤ (s.queue c st q.eng).length || !(s.queue c st 8).isEmpty then s
    else
      let s := (s.markNd c st (s.sMould c st) q).advance c st n
      ((s.setQueue c st q.eng (s.queue c st q.eng ++ [q])).runQueue 9 c st q.eng).showStream c st

/-- A signal engine as the first 8 beats of a segment that claims it leave it (R412). -/
def SeSt.cleared (e : SeSt) : SeSt := { SeSt.init with progs := e.progs, loads := e.loads }

/-- A segment starts on a stream (R160, R168, R183, R231, R412): the list image, the segment's header, and the seed of its
seeded ND instructions. -/
def State.startSeg (s : State) (c st m x : Nat) (im : Bytes) (h : SegHdr) (lent : Bool) (v : StreamSt) : State :=
  let s := if lent then (bitList 4 h.arrays).foldl (fun u a => u.loadArrCfg c a m true) s else s
  let s := (bitList 4 h.arrays).foldl (fun u a => u.clearArray c a) s
  let s := (bitList 2 h.engines).foldl (fun u i => (u.setSeng c (4 + i) (u.seng c (4 + i)).cleared).wr F.seStatus_state 0 c i) s
  let s := { s with runNo := s.runNo + 1 }.setStream c st { v with
    busy := true, image := im, segOff := h.off, arrays := h.arrays, engines := h.engines % 8, banks := h.banks,
    startNs := s.clk.up, run := s.runNo + 1, ndSeed := if v.audit then v.auditSeed else s.clk.ns % 2 ^ 32 }
  let s := ((((s.wr F.seqStream_state 1 c st).wr F.seqStream_mould m c st).wr F.seqStream_ctx x c st).wr
    F.seqStream_segIndex h.idx c st).wr F.seqStream_listId (listIdOf im) c st
  s.setReg .seqBeats c st 0

/-- No running segment on another stream claims an array, signal engine, the ladle or a bank of the segment (R168, R254). -/
def State.claimsFree (s : State) (c st : Nat) (h : SegHdr) : Bool :=
  (List.range 4).all fun t =>
    let v := s.stream c t
    t == st || !v.busy || (v.arrays &&& h.arrays == 0 && v.engines &&& h.engines == 0 && v.banks &&& h.banks == 0)

/-- Free entries in the transfer queue of a context. -/
def State.movRoom (s : State) (c m x : Nat) : Nat := 256 - (Tab.get [] (s.clu c).ladle (ctxKey m x)).length

/-- An array of a mask under self-test. -/
def State.testing (s : State) (c mask : Nat) : Bool := (bitList 4 mask).any (fun a => s.flag F.arrStatus_selfTestBusy c a)

/-- The lowest suspect array of a mask (R159). -/
def State.suspectIn (s : State) (c mask : Nat) : Option Nat := (bitList 4 mask).find? (fun a => s.flag F.arrStatus_suspect c a)

/-- What admission finds at the head of a context's start queue (R257). -/
inductive Verdict where
  | no | late | gone | suspect (a : Nat) | cold (mask : Nat) | ok
  deriving DecidableEq, Repr

/-- The issue limit of R87 allows a non-radio start on cluster c. -/
def State.issueOpen (s : State) (c : Nat) : Bool :=
  s.rd F.govStatus_issueLimitRate (fieldOf c) != 0 && s.rd F.govStatus_issueLimitPower (fieldOf c) != 0
    && (List.range 4).all (fun t => (s.stream c t).notBefore == 0)

/-- The arrays of a mask below their holding level as a mask. -/
def State.coldOf (s : State) (c mask : Nat) : Nat :=
  sumNat ((bitList 4 mask).map (fun a => if s.rd F.arrStatus_power c a = 2 ∨ s.rd F.arrStatus_power c a = 3 then 0 else 2 ^ a))

/-- The verdict on a head request of context (m, x) for stream st of cluster c (R159, R168, R257). -/
def State.verdict (s : State) (c st m x : Nat) (r : StartReq) : Verdict :=
  let k := s.mould m
  if s.mstate m ≠ 3 || k.chilling || k.auditing || s.fencedCluster c || k.faulted.contains x || !s.gateMet c m x
    || (s.runsOf m x).any (fun p => p.1 = c) || !s.issueOpen c then .no
  else
    match s.resident c m r.list with
    | none => .gone
    | some l =>
      match segHdr l.image r.seg with
      | none => .gone
      | some h =>
        if !s.claimsFree c st h || s.movRoom c m x < h.movs || s.testing c h.arrays then .no
        else
          let loan := s.claimer c ≠ some m
          let win := s.windowOn c
          let inOffer := match win with
            | some (l, o, _) => s.borrower l o.id == some m && h.arrays &&& o.arrays == h.arrays
                && h.banks &&& bankBits o.bank o.banks == h.banks && s.stageOf c == 0
            | none => false
          let inTime := match win with
            | some (_, _, t) => bit h.flags 0 && 2 * h.wcet ≤ 3 * (t - s.clk.ns)
            | none => false
          if loan && !inOffer then .no
          else if loan && !inTime then .late
          else
            match s.suspectIn c h.arrays with
            | some a => .suspect a
            | none => if s.coldOf c h.arrays ≠ 0 then .cold (s.coldOf c h.arrays) else .ok

/-- The contexts with a head request on a cluster, in the order admission considers them (R256). -/
def State.admitOrder (s : State) (c : Nat) : List (Nat × Nat) :=
  let next := (s.clu c).nextCtx
  let ks := (s.clu c).queues.map (fun p => (p.1 / 16, p.1 % 16))
  let key := fun (p : Nat × Nat) => (3 - s.rd F.ctxCtrl_prio p.1 p.2) * 16 + (p.2 + 16 - next) % 16
  sortBy (fun a b => key a ≤ key b) ks

/-- A head request is admitted: it leaves its queue, its gate count leaves its token, and its segment starts. -/
def State.admitSeg (s : State) (c st m x : Nat) (r : StartReq) : State :=
  match s.resident c m r.list with
  | none => s
  | some l =>
    match segHdr l.image r.seg with
    | none => s
    | some h =>
      let loan := s.claimer c ≠ some m
      let s := if r.gateEn then s.setTok c m x r.gateTok (s.tok c m x r.gateTok - r.gateCnt) else s
      let k := s.clu c
      let rest := (Tab.get [] k.queues (ctxKey m x)).drop 1
      let s := s.setClu c { k with nextCtx := (x + 1) % 16, queues := Tab.set [] k.queues (ctxKey m x) rest }
      let s := if loan then s.cnt F.slotCnt_loanAdmitted m else s
      s.startSeg c st m x l.image h loan StreamSt.init

/-- SEQ_REFUSE records a run-time fault code (Table 6.17). -/
def State.noteRefuse (s : State) (c code seg word x : Nat) : State :=
  (((s.wr F.seqRefuse_code code c).wr F.seqRefuse_segIndex seg c).wr F.seqRefuse_word word c).wr F.seqRefuse_ctx x c

/-- Admission on stream st of cluster c considers contexts in order and admits the first eligible head (R256). -/
def State.admitScan : List (Nat × Nat) → State → Nat → Nat → State
  | [], s, _, _ => s
  | (m, x) :: rest, s, c, st =>
    match Tab.get [] (s.clu c).queues (ctxKey m x) with
    | [] => State.admitScan rest s c st
    | r :: _ =>
      match s.verdict c st m x r with
      | .no => State.admitScan rest s c st
      | .late => State.admitScan rest (s.cnt F.slotCnt_loanRefused m) c st
      | .gone => (s.noteRefuse c E.segListGone r.seg 0 x).faultCtx m x E.segListGone (srcEngine c 8) c
      | .suspect a => s.faultCtx m x E.arrSuspect (srcEngine c a) c
      | .cold mask => State.admitScan rest (s.askRamp ⟨2, c, mask, 0, false⟩) c st
      | .ok => s.admitSeg c st m x r

/-- The streams of a cluster that admit start requests (R255). -/
def State.admitStreams (s : State) (c : Nat) : List Nat :=
  match s.claimer c with
  | none => []
  | some m => if s.isRadio m then [1, 2, 3] else [0, 1, 2, 3]

/-- Log a slot-table event (R260): entry i of cluster c of mould m, at its instant. -/
def State.slotLog (s : State) (code m c i t : Nat) : State :=
  s.logEvt code (srcEngine c 8) m (c + i * 2 ^ 8 + t * 2 ^ 64)

/-- The occurrence of a slot entry at an instant is settled. -/
def State.slotSettled (s : State) (m c i t : Nat) : State :=
  let k := s.mould m
  s.setMould m { k with slotDone := Tab.set 0 k.slotDone (slotKey c i) (t + 1) }

/-- A radio entry at its instant t (R99, R163, R259, R260). -/
def State.slotStart (s : State) (m c i t : Nat) (e : SlotEntry) : State :=
  match s.resident c m e.list with
  | none => (s.noteRefuse c E.segListGone 0 0 0xFF).slotSettled m c i t
  | some l =>
    let x := l.ctx
    if (s.mould m).faulted.contains x then
      ((s.slotSettled m c i t).cnt F.slotCnt_skippedFault m).slotLog 0x0F04 m c i t
    else
      match segHdr l.image 0 with
      | none => s.slotSettled m c i t
      | some h =>
        let skip := ((s.slotSettled m c i t).cnt F.slotCnt_missed m).slotLog 0x0F03 m c i t
        if s.fencedCluster c then s.slotSettled m c i t
        else if s.testing c h.arrays then skip
        else if (s.stream c 0).busy || !s.claimsFree c 0 h then (if s.clk.ns < t + 4 then s else skip)
        else
          match s.suspectIn c h.arrays with
          | some a => (s.slotSettled m c i t).faultCtx m x E.arrSuspect (srcEngine c a) c
          | none =>
            if s.coldOf c h.arrays ≠ 0 then s.askRamp ⟨0, c, s.coldOf c h.arrays, 0, false⟩
            else if s.movRoom c m x < h.movs then s
            else (s.slotSettled m c i t).startSeg c 0 m x l.image h false { StreamSt.init with slot := some (m, i) }

/-- The segment after an ended one of a slot entry's list starts in the next beat (R259). -/
def State.nextOfEntry (s : State) (c m x : Nat) (v : StreamSt) : State :=
  match v.slot with
  | none => s
  | some (_, i) =>
    match segHdr v.image ((segHdrAt v.image v.segOff).idx + 1) with
    | none => s
    | some h =>
      match s.suspectIn c h.arrays with
      | some a => s.faultCtx m x E.arrSuspect (srcEngine c a) c
      | none => if s.movRoom c m x < h.movs then s else s.startSeg c 0 m x v.image h false { StreamSt.init with slot := some (m, i) }

/-- A segment has nothing left to do (R193). -/
def State.drained (s : State) (c st : Nat) : Bool :=
  let v := s.stream c st
  v.busy && v.ending && v.queues.all (fun p => p.2.isEmpty)
    && (bitList 4 v.arrays).all (fun a => (s.array c a).replay.isNone)
    && (bitList 2 v.engines).all (fun i => !(s.seng c (4 + i)).running)

/-- A segment ends (R176, R193, R238). -/
def State.endSeg (s : State) (c st : Nat) : State :=
  let v := s.stream c st
  let h := segHdrAt v.image v.segOff
  let m := s.sMould c st
  let x := s.sCtx c st
  let s := (s.countRun m x).wr F.seqBeats_elapsed (h.active + s.rd F.seqBeats_wait c st + v.replayUsed) c st
  let s := (s.pushRecord c st h.active none).freeStream c st h.active
  if v.audit then
    let s := s.setMould m { s.mould m with auditing := false }
    if s.mstate m = 3 then s.moveMould m 2 (s.heat m) else s
  else s.nextOfEntry c m x v

end Sys2Proof.Machine
end

