-- ==== Sys2Proof/Machine/Tier.lean ====
section
/-! DEFINITION. Sys2Proof/Machine/Tier.lean: GDDR7 channels and CXL ports as a transfer meets them (R280 to R293): errors, granule
queues, grants and turns, links. -/
namespace Sys2Proof.Machine

/-- Key of a queue of a channel or CXL device. -/
def tierKey (ch m : Nat) : Nat := 64 * ch + m

/-- The CXL device of a CXL offset (R291). -/
def cxlOf (key : Nat) : Nat := key / 2 ^ 39

/-- Source code of channel n's controller group (Table 1.1). -/
def srcGddr (ch : Nat) : Nat := 0x0030 + ch / 32

/-- An uncorrectable GDDR7 read or write on a channel (R285). -/
def State.gddrUe (s : State) (ch m : Nat) : State :=
  (((s.cnt F.gddrCh_ue ch).cnt F.memEcc_gddrUe).count 1 255).logWith 0x1003 (srcGddr ch) m ch

/-- Corrected reports of a channel's on-die ECC (R285). -/
def State.gddrCe (s : State) (ch n : Nat) : State := (s.cnt F.gddrCh_ce ch 0 n).count 3 255 n

/-- A poisoned read of CXL device k (R292). -/
def State.cxlPoison (s : State) (k : Nat) : State := (s.cnt F.cxlDev_poison k).cnt F.memEcc_cxlPoison

/-- What the memory of place p reports for a read (ecc 0 nothing, 1 a correction, 2 an uncorrectable word or poison, 3 no answer in
10 ms): the code, 0 for none (R280, R285, R287, R292). `word` is a cluster's 16-byte word. -/
def State.placeErr (s : State) (m : Nat) (p : Place) (ecc word : Nat) : Nat × State :=
  if p.space = 0 then
    let c := p.key / 2 ^ 24
    let s := s.sramEcc c ecc word
    (if ecc = 2 then E.memSramUe else 0, s)
  else if p.space = 1 then
    let ch := p.key / 2 ^ 40
    if s.rd F.gddrCh_state ch = 4 ∨ s.rd F.gddrCh_state ch = 0 then (E.memChannelDown, s)
    else if ecc = 1 then (0, s.gddrCe ch 1)
    else if ecc = 2 then (E.memGddrUe, s.gddrUe ch m)
    else (0, s)
  else
    let k := cxlOf p.key
    if !s.flag F.cxlDev_linkUp k then (E.memPortDown, s)
    else if ecc = 2 then (E.memPoison, s.cxlPoison k)
    else if ecc = 3 then (E.memTimeout, s.cnt F.cxlDev_timeouts k)
    else (0, s)

/-- The places of [a, a + n) of mould m, one for each 256-byte piece. -/
def State.pieces (s : State) (m a n : Nat) : List Place :=
  (List.range (cdiv (a % 256 + n) 256)).filterMap (fun i => s.place m (if i = 0 then a else a / 256 * 256 + 256 * i))

/-- The code an access to [a, a + n) of mould m fails with: of its first piece that cannot be reached, or the error `ecc` at the first. -/
def State.access (s : State) (m a n ecc word : Nat) : Nat × State :=
  match s.pieces m a n with
  | [] => (0, s)
  | p :: r =>
    let (code, t) := s.placeErr m p ecc word
    if code ≠ 0 then (code, t)
    else (((r.map (fun q => (t.placeErr m q 0 0).1)).find? (· ≠ 0)).getD 0, t)

/-- The queue of (channel, mould), or of (CXL device, mould). -/
def State.granules' (s : State) (cxl : Bool) (k : Nat) : List Gran := Tab.get [] (if cxl then s.tier.cq else s.tier.gq) k

/-- Replace a queue; the first entry reaches the head now if it was not there. -/
def State.setGranules (s : State) (cxl : Bool) (k : Nat) (l : List Gran) : State :=
  let l := match l with
    | g :: r => (if g.head = 0 then { g with head := s.clk.up + 1 } else g) :: r
    | [] => []
  if cxl then { s with tier := { s.tier with cq := Tab.set [] s.tier.cq k l } }
  else { s with tier := { s.tier with gq := Tab.set [] s.tier.gq k l } }

/-- The granules of a transfer of n bytes between far (tier 1 or 2) and near: pieces that do not cross a multiple of 256 of the
window (R282, R284, R292); at most n pieces. -/
def granPieces : Nat → Nat → Nat → List (Nat × Nat)
  | 0, _, _ => []
  | _, _, 0 => []
  | f + 1, o, n =>
    let k := min n (256 - o % 256)
    (o, k) :: granPieces f (o + k) (n - k)

/-- A transfer's granules enter their queues (R284, R292); the answer holds how many there are. -/
def State.askGranules (s : State) (who : GranWho) (write : Bool) (m far near n : Nat) : Nat × State :=
  let base := match s.regionAt m far with | some r => r.target + (far - r.base) | none => 0
  let l := granPieces (n + 1) base n
  let s := l.foldl (fun (u : State) e =>
    let a := far + (e.1 - base)
    match u.place m a with
    | some p =>
      let cxl := p.space == 2
      let k := tierKey (if cxl then cxlOf p.key else p.key / 2 ^ 40) m
      u.setGranules cxl k (u.granules' cxl k ++ [⟨who, write, m, a, near + (e.1 - base), e.2, u.clk.up, 0⟩])
    | none => u) s
  (l.length, s)

/-- A transfer's other granules leave every queue. -/
def State.dropGranules (s : State) (who : GranWho) : State :=
  let f := fun (t : Tab (List Gran)) =>
    (t.map (fun e => (e.1, e.2.filter (fun g => g.who ≠ who)))).filter (fun e => !e.2.isEmpty)
  { s with tier := { s.tier with gq := f s.tier.gq, cq := f s.tier.cq } }

/-- The wait of a granule at its head counts for the hot spot of its mould (R289): where is a channel and DRAM bank, or a CXL device. -/
def State.noteWait (s : State) (m place : Nat) (g : Gran) : State :=
  let k := 4096 * m + place
  let w := s.clk.up + 1 - g.head
  { s with tier := { s.tier with waits := Tab.set 0 s.tier.waits k (Tab.get 0 s.tier.waits k + w) } }

/-- Bytes move for a granule: the first n of it. -/
def State.moveGran (s : State) (g : Gran) (n : Nat) : State :=
  if g.write then s.writeMem g.mould g.far (s.readMem g.mould g.near n)
  else s.writeMem g.mould g.near (s.readMem g.mould g.far n)

/-- The key of a cached line: the physical line and the mould that may hit it (R300). -/
def lineKey (m : Nat) (p : Place) : Nat := (p.space * 2 ^ 60 + p.key / 64) * 64 + m

/-- A line leaves the data cache of a cluster; a dirty one is written back. -/
def State.dropLine (s : State) (c k : Nat) : State :=
  let v := s.clu c
  match Tab.find v.dcache k with
  | none => s
  | some l =>
    let s := s.setClu c { v with dcache := Tab.del v.dcache k }
    if l.dirty then s.writeMem l.mould l.addr l.data else s

/-- A control-core cache line is filled (R298, R300); in a full cache of 1,024 lines a line that a free value picks leaves first
(log entry 47). -/
def State.fillLine (s : State) (ins : Bool) (c m a : Nat) : State :=
  match s.place m a with
  | some p =>
    let line : LineSt := ⟨m, a / 64 * 64, s.readMem m (a / 64 * 64) 64, false⟩
    if ins then
      let k := s.clu c
      let old := if k.icache.length < 1024 then k.icache else k.icache.eraseIdx (Config.freeValue s.free 10 % 1024)
      { s with free := s.free + 1 }.setClu c { k with icache := Tab.put old (lineKey m p) line }
    else
      let d := (s.clu c).dcache
      let s := if d.length < 1024 then s
        else { s with free := s.free + 1 }.dropLine c ((d.map (fun (e : Nat × LineSt) => e.1)).getD (Config.freeValue s.free 10 % 1024) 0)
      let k := s.clu c
      s.setClu c { k with dcache := Tab.put k.dcache (lineKey m p) line }
  | none => s

/-- A granule has been served, with the failure code of its lines (0 for none) and how many bytes came before it (R268, R284, R285). -/
def State.served (s : State) (g : Gran) (code n : Nat) : State :=
  match g.who with
  | .ladle _ m x id =>
    let o := s.rop id
    let slag := s.isSlag m x o.heat o.quenches
    let s := if slag then s else s.moveGran g n
    let o := { o with sent := o.sent - 1, fail := if o.fail = 0 then code else o.fail, sub := if slag || n = 0 then o.sub else 1 }
    if code = 0 then s.setRop id { o with got := o.sent == 0 }
    else (s.dropGranules g.who).setRop id { o with got := true, sent := 0 }
  | .thread c t =>
    let s := if code = 0 then s.fillLine (g.near = 1) c g.mould g.far else s
    let v := s.thread c t
    if s.rd F.thrStatus_state c t ≠ 3 then s
    else (s.setThread c t { v with wait := .none, missErr := code }).wr F.thrStatus_state 1 c t

/-- The sharers of a channel with a request queued, ascending (R283). -/
def State.waiters (s : State) (cxl : Bool) (ch : Nat) : List Nat :=
  (List.range 64).filter (fun m => !(s.granules' cxl (tierKey ch m)).isEmpty)

/-- The mould whose turn it is: the next above the last one that took a unit or a turn (R283, R292). -/
def nextTurn (l : List Nat) (last : Nat) : Option Nat := (l.find? (fun m => last < m + 1)).or l.head?

/-- GDDR_GRANULE_SERVE (R283 to R285): the granule at the head of mould m's queue for channel ch takes a unit: one of the mould's own
grants, or one given away, which goes round-robin. `retries` CRC failures were met; more than 4 fail the transfer, as does `ecc` 2
at line `line`; `ecc` 1 is a corrected report. -/
def execGddrGranuleServe (dt ch m : Nat) (own : Bool) (retries ecc line : Nat) (s : State) : Out := s.whenLive fun s =>
  let s := s.pass dt
  let k := tierKey ch m
  let turn := own || nextTurn (s.waiters false ch) (Tab.get 0 s.tier.gLast ch) == some m
  match s.granules' false k with
  | [] => s
  | g :: r =>
    if 64 ≤ m || s.rd F.gddrCh_state ch ≠ 2 || !turn || !bit (s.envelope m).chans ch then s
    else
      let s := { s with tier := { s.tier with
        retries := Tab.set 0 s.tier.retries ch (Tab.get 0 s.tier.retries ch + retries)
        gLast := if own then s.tier.gLast else Tab.set 0 s.tier.gLast ch (m + 1) } }
      let bank := match s.place m g.far with | some p => p.key / 2048 % 16 | none => 0
      let s := (s.noteWait m (ch * 16 + bank) g).setGranules false k r
      if 4 < retries ∨ ecc = 2 then (s.gddrUe ch m).served g E.memGddrUe (min g.len (64 * line))
      else (if ecc = 1 then s.gddrCe ch 1 else s).served g 0 g.len

/-- GDDR_MAINTENANCE_UNIT (R283, R296): refresh, drift compensation and, while enabled, the scrub of the next 256 bytes of the pass,
with `ce` corrected lines written back. -/
def execGddrMaintenanceUnit (dt ch ce : Nat) (s : State) : Out := s.whenLive fun s =>
  let s := s.pass dt
  if s.rd F.gddrCh_state ch ≠ 2 || !s.flag F.scrubCtrl_gddrEn then s
  else
    let s := s.gddrCe ch (min ce 4)
    let total := ((List.range 128).filter (fun n => s.rd F.gddrCh_state n = 2)).length * s.rd F.gddrCfg_channelMb * 4096
    let pos := s.tier.gddrPos + 1
    if pos < total then { s with tier := { s.tier with gddrPos := pos } }
    else
      let late := s.tier.gddrAt + max 10 (s.rd F.scrubCtrl_gddrPeriodS) * 1000000000 < s.clk.up
      let s := (s.cnt F.scrubStatus_gddrPasses).setFlag F.scrubStatus_late (s.flag F.scrubStatus_late || late)
      { s with tier := { s.tier with gddrPos := 0, gddrAt := s.clk.up } }

/-- Take the request at the head of mould m's queue for CXL device k, in its turn. -/
def State.takeCxl (s : State) (k m : Nat) : Option (Gran × State) :=
  match s.granules' true (tierKey k m) with
  | g :: r =>
    if nextTurn (s.waiters true k) (Tab.get 0 s.tier.cLast k) = some m then
      let s := (s.noteWait m (0x80 * 16 + k * 16) g).setGranules true (tierKey k m) r
      some (g, { s with tier := { s.tier with cLast := Tab.set 0 s.tier.cLast k (m + 1) } })
    else none
  | [] => none

/-- Every request waiting on CXL device k fails with a code. -/
def State.failCxl (s : State) (k code : Nat) : State :=
  (List.range 64).foldl (fun u m =>
    let l := u.granules' true (tierKey k m)
    l.foldl (fun w g => w.served g code 0) (u.setGranules true (tierKey k m) [])) s

/-- CXL_REQUEST_COMPLETE (R292): the request at the head of mould m on device k completes, or meets poison at line `line`. A
malformed completion counts as a violation and retrains the link, which goes down with its requests (R573). -/
def execCxlRequestComplete (dt k m : Nat) (poison malformed : Bool) (line : Nat) (s : State) : Out := s.whenLive fun s =>
  let s := s.pass dt
  if 4 ≤ k || 64 ≤ m || !s.flag F.cxlDev_linkUp k then s
  else if malformed then
    let s := ((s.wr F.cxlDev_linkUp 0 k).failCxl k E.memPortDown).quarNote (48 + k)
    (s.quarRetrain (48 + k) 4).2
  else
    match s.takeCxl k m with
    | some (g, s) => if poison then (s.cxlPoison k).served g E.memPoison (min g.len (64 * line)) else s.served g 0 g.len
    | none => s

/-- CXL_TIMEOUT (R292): the request at the head of mould m on device k has not completed for 10 ms. -/
def execCxlTimeout (dt k m : Nat) (s : State) : Out := s.whenLive fun s =>
  let s := s.pass dt
  if 4 ≤ k || 64 ≤ m then s
  else
    match s.takeCxl k m with
    | some (g, t) => if s.clk.up < g.at_ + 10000000 then s else (t.cnt F.cxlDev_timeouts k).served g E.memTimeout 0
    | none => s

/-- Every request waiting on channel ch fails with a code (R287). -/
def State.failChannel (s : State) (ch code : Nat) : State :=
  (List.range 64).foldl (fun u m =>
    let l := u.granules' false (tierKey ch m)
    l.foldl (fun w g => w.served g code 0) (u.setGranules false (tierKey ch m) [])) s

/-- CXL_LINK_DOWN (R292). -/
def execCxlLinkDown (k : Nat) (s : State) : Out := s.whenLive fun s =>
  if 4 ≤ k || !s.flag F.cxlDev_linkUp k then s else (s.wr F.cxlDev_linkUp 0 k).failCxl k E.memPortDown

end Sys2Proof.Machine
end

