-- ==== Sys2Proof/Machine/Governor.lean ====
section
/-! DEFINITION. Sys2Proof/Machine/Governor.lean: beat governors, rate-margin alarm and shedding, the frame fence, holding
beats and ramps, and the clock-domain crossings (chapter 3). -/
namespace Sys2Proof.Machine

/-- Log a governor event of field f (R612): rate, rail, stage in force, and for 0x0C07 the value written. -/
def State.govLog (s : State) (f code value : Nat) : State :=
  s.logEvt code (0x00D1 + f) 0xFF (s.rd F.govStatus_rateMrate f + s.rd F.govStatus_railMv f * 2 ^ 12
    + s.rd F.govStatus_shedStage f * 2 ^ 24 + value * 2 ^ 32)

/-- A write of GOV_CTRL.target_mrate (R85): outside 1,500 to 2,100 it is ignored and logged. -/
def State.govWrite (s : State) (f value : Nat) : State :=
  let v := value % 2 ^ 12
  if 1500 ≤ v ∧ v ≤ 2100 then s.wr F.govCtrl_targetMrate v f else s.govLog f 0x0C07 v

/-- The issue limit of a shedding stage (Table 3.5), in sixteenths. -/
def stageLimit (stage : Nat) : Nat := if stage = 0 then 16 else if stage = 1 then 8 else 0

/-- The field enters or leaves a shedding stage (R88, R90): its issue limit follows, entering stage 3 ramps idle arrays down,
and the change is logged. -/
def State.setStage (s : State) (f stage : Nat) : State :=
  let s := (s.wr F.govStatus_shedStage stage f).wr F.govStatus_issueLimitRate (stageLimit stage) f
  let s := if stage < 3 then s
    else (List.range 96).foldl (fun u i =>
      let c := 24 * f + i / 4
      let a := i % 4
      if u.rd F.arrStatus_power c a = 3 && (u.flag F.arrCfg_lent c a || !u.isRadio (u.rd F.arrCfg_mould c a))
      then u.wr F.arrStatus_power 4 c a else u) s
  s.govLog f 0x0C04 0

/-- The rail after a sample (R82, R84): one 5 mV step towards the band, within 550 mV and vmax. -/
def railStep (rail rate target vmax : Nat) : Nat :=
  if rate + 20 < target then min vmax (rail + 5)
  else if target + 20 < rate then max 550 (rail - 5)
  else rail

/-- The counts of a field after a sample: consecutive low samples at vmax and high samples (R86), the time below the floor
(R79) and the time the alarm has been set. -/
def State.sampleCounts (s : State) (f rate : Nat) : FieldSt :=
  let k := s.fieldSt f
  let low := if s.flag F.govStatus_atVmax f && rate < 1560 then k.lowRun + 1 else 0
  let high := if 1600 ≤ rate then k.highRun + 1 else 0
  let held := if s.flag F.govStatus_alarm f then k.alarmNs + (s.clk.up - k.accAt) else k.alarmNs
  { k with
    lowRun := low
    highRun := high
    below := k.below || rate < 1500
    okSince := if rate < 1500 then 0 else if k.okSince = 0 then s.clk.up + 1 else k.okSince
    alarmNs := held % 1000000
    accAt := s.clk.up }

/-- The alarm and shedding part of a sample (R86, R88, R90), after the rate and rail registers have been set. -/
def State.sampleAlarm (s : State) (f rate : Nat) (k : FieldSt) : State :=
  let now := s.clk.up
  let stage := s.rd F.govStatus_shedStage f
  if !s.flag F.govStatus_alarm f then
    if k.lowRun ≥ 4 then
      let s := (((s.wr F.govStatus_alarm 1 f).cnt F.govAlarm_alarmCount f).count 8 255).setField f
        { k with alarmAt := now, stageAt := now, liftAt := none, highRun := 0 }
      let s := if stage = 0 then (s.wr F.govStatus_shedStage 1 f).wr F.govStatus_issueLimitRate 8 f else s
      let s := s.govLog f 0x0C01 0
      if stage = 0 then s.govLog f 0x0C04 0 else s
    else s
  else if k.highRun ≥ 1000 then
    let s := s.wr F.govStatus_alarm 0 f
    let s := s.setField f { k with lowRun := 0, liftAt := if 1 < stage then some (now + 100000) else none }
    (s.govLog f 0x0C02 0).setStage f (stage - 1)
  else if rate < 1560 && k.stageAt + 20000 ≤ now && stage < 3 then
    (s.setField f { k with stageAt := now }).setStage f (stage + 1)
  else s

/-- The fields that wait for each other at the fence: those not below the floor (R79). -/
def State.fenced (s : State) : List Nat := (List.range 4).filter (fun f => !(s.fieldSt f).below)

/-- When every fenced field has completed its frame, each starts the next (R77). -/
def State.fenceStep (s : State) : State :=
  if s.fenced.all (fun g => (s.fieldSt g).frameDone) then
    s.fenced.foldl (fun u g => u.setField g { u.fieldSt g with frameDone := false, frames := (u.fieldSt g).frames + 1 }) s
  else s

/-- A field falls below the floor: it waits for none, and none for it (R79). -/
def State.leaveFence (s : State) (f : Nat) : State :=
  let k := s.fieldSt f
  let s := s.setField f { k with below := true, frameDone := false, frames := if k.frameDone then k.frames + 1 else k.frames }
  s.fenceStep

/-- One governor sample (R84): dt ns have passed; the field's lowest ring reads `rate` and belongs to `slowest`. -/
def State.govSample (s : State) (f rate slowest : Nat) : State :=
  let rate := rate % 2 ^ 12
  let rail := s.rd F.govStatus_railMv f
  let old := s.fieldSt f
  let k := s.sampleCounts f rate
  let ms := if s.flag F.govStatus_alarm f then (old.alarmNs + (s.clk.up - old.accAt)) / 1000000 else 0
  let set := s.flag F.govStatus_alarm f
  let vmax := s.vmax f
  let rail' := if set then vmax else railStep rail rate (s.rd F.govCtrl_targetMrate f) vmax
  let s := ((s.cnt F.govAlarm_alarmMs f 0 ms).count 9 255 ms).setField f k
  let s := ((s.wr F.govStatus_rateMrate rate f).wr F.govStatus_railMv rail' f).wr F.govStatus_slowestCluster slowest f
  let s := s.wr F.govStatus_atVmax (ofBool (decide (vmax ≤ rail'))) f
  let s := if rate < 1500 && (!old.below || old.okSince ≠ 0) then s.govLog f 0x0C03 0 else s
  let s := if rate < 1500 && !old.below then s.leaveFence f else s
  s.sampleAlarm f rate (s.fieldSt f)

/-- GOV_CTRL_WRITE. -/
def execGovCtrlWrite (_req f value : Nat) (s : State) : Out := s.whenLive fun s => if f < 4 then s.govWrite f value else s

/-- GOVERNOR_SAMPLE. -/
def execGovernorSample (dt f rate slowest : Nat) (s : State) : Out :=
  s.whenLive fun s => let s := s.pass dt; if f < 4 then s.govSample f rate slowest else s

/-- SHED_STAGE_LIFT (R90): 100 µs after the stage above it. -/
def execShedStageLift (dt f : Nat) (s : State) : Out := s.whenLive fun s =>
  let s := s.pass dt
  let k := s.fieldSt f
  match k.liftAt with
  | none => s
  | some t =>
    let stage := s.rd F.govStatus_shedStage f
    if s.clk.up < t || s.flag F.govStatus_alarm f || stage = 0 then s
    else (s.setField f { k with liftAt := if 1 < stage then some (s.clk.up + 100000) else none }).setStage f (stage - 1)

/-- FIELD_REJOIN (R79): the rate has stayed at or above the floor for 1 ms. -/
def execFieldRejoin (dt f : Nat) (s : State) : Out := s.whenLive fun s =>
  let s := s.pass dt
  let k := s.fieldSt f
  if k.below && k.okSince ≠ 0 && k.okSince - 1 + 1000000 ≤ s.clk.up then s.setField f { k with below := false } else s

/-- A field completes its mesh frame (R77, R79). -/
def State.frameEnd (s : State) (f : Nat) : State :=
  let k := s.fieldSt f
  if k.below then s.setField f { k with frames := k.frames + 1 }
  else
    (s.setField f { k with frameDone := true }).fenceStep

/-- MESH_FRAME_END: field f ends its frame; `lost` flits of context (m, x), tied to cluster c, met a stitch link that carries
none (R79). -/
def execMeshFrameEnd (f lost m x c : Nat) (s : State) : Out := s.whenLive fun s =>
  if f < 4 then
    let dead := (List.range 4).any (fun g => (s.fieldSt g).below)
    let s := s.frameEnd f
    if lost = 0 || !dead then s else (s.cnt F.stitchDrop_count 0 0 lost).faultCtx m x E.ctxStitchDrop 0x0001 c
  else s

/-- HOLDING_EXPIRY (R92, R93): the holding window of array a's gang is over and its current ramps down. -/
def execHoldingExpiry (dt c a : Nat) (s : State) : Out := s.whenLive fun s =>
  let s := s.pass dt
  if s.enabled c && a < 4 && s.rd F.arrStatus_power c a = 3 && (s.array c a).holdEnd ≤ s.clk.up then s.setPower c a 4 else s

/-- RAMP_DOWN_COMPLETE (Table 5.4). -/
def execRampDownComplete (c a : Nat) (s : State) : Out := s.whenLive fun s =>
  if s.enabled c && a < 4 && s.rd F.arrStatus_power c a = 4 then s.setPower c a 0 else s

/-- PRE_WARM (R94): within 10 µs before the instant of entry i of cluster c, once for each instant. -/
def execPreWarm (dt m c i : Nat) (s : State) : Out := s.whenLive fun s =>
  let s := s.pass dt
  match s.slotEntry m c i with
  | none => s
  | some e =>
    let t := s.nextInstant m e.offset
    let k := s.mould m
    if s.clk.ns + 10000 < t || !s.tableRuns m t e.offset || k.preWarmed.contains (slotKey c i, t) then s
    else
      let s := s.setMould m { k with preWarmed := (slotKey c i, t) :: k.preWarmed.filter (·.1 ≠ slotKey c i) }
      let upTo := fun (hold : Nat) => s.clk.up + (t - s.clk.ns) + hold
      if e.kind = 1 then s.warmUp 0 c 15 (upTo (s.gang m c).holdNs)
      else
        match s.offer m e.list, s.borrower m e.list with
        | some o, some b =>
          if s.stageOf c = 0 && (List.range (s.ctxCount b)).any (fun x => s.ctxState b x = 1)
          then s.warmUp 1 c o.arrays (upTo (s.gang b c).holdNs) else s
        | _, _ => s

/-- RAMP_UP_GRANT (R95): the next request of field f is granted; or, when `done`, the granted ramp that came first completes
and its arrays hold. -/
def execRampUpGrant (f : Nat) (done : Bool) (s : State) : Out := s.whenLive fun s =>
  let k := s.fieldSt f
  if done then
    match k.ramps.find? (·.granted) with
    | none => s
    | some r =>
      let s := s.setField f { k with ramps := k.ramps.erase r }
      (bitList 4 r.mask).foldl (fun u a =>
        if u.rd F.arrStatus_power r.cluster a = 1 then
          u.hold r.cluster a (if r.until_ = 0 then u.clk.up + u.gangHold r.cluster a else r.until_)
        else u) s
  else
    match s.nextRamp f with
    | none => s
    | some r =>
      let s := s.setField f { k with ramps := k.ramps.map (fun q => if q = r then { q with granted := true } else q) }
      (bitList 4 r.mask).foldl (fun u a => if u.rd F.arrStatus_power r.cluster a = 0 then u.setPower r.cluster a 1 else u) s

/-- A clock domain runs: CLK_STATUS.present. -/
def State.clockOn (s : State) (d : Nat) : Bool := bit (s.rd F.clkStatus_present) (d - 1)

/-- CROSSING_ITEM (R97, R98): the domain has taken `taken` items; then one item crosses, into the core or out of it. -/
def execCrossingItem (d : Nat) (toCore : Bool) (taken : Nat) (s : State) : Out := s.whenLive fun s =>
  if d = 0 || 18 < d || !s.clockOn d then s
  else
    let held := Tab.get 0 s.xing d - taken
    let s := { s with xing := Tab.set 0 s.xing d held }
    if toCore then s
    else if held < Config.crossingDepth d then { s with xing := Tab.set 0 s.xing d (held + 1) }
    else
      let s := s.cnt F.xingDrop_count (d - 1)
      if s.xingLogged.contains d then s
      else { s with xingLogged := d :: s.xingLogged }.logEvt 0x0C06 0x00D0 0xFF (d + s.rd F.xingDrop_count (d - 1) * 2 ^ 32)

/-- Domains a REFCLK monitor watches (R100): 2, 3 and 6 to 18. -/
def monitored (d : Nat) : Bool := d == 2 || d == 3 || (6 ≤ d && d ≤ 18)

/-- Domains clocked by a PLL (Table 3.6). -/
def hasPll (d : Nat) : Bool := monitored d && d != 14

/-- The EEC enters holdover (R403, Table 19.10). -/
def State.eecHoldover (s : State) : State :=
  if s.tim.eec = 1 then { s with tim := { s.tim with eec := 2 } }.logWith 0x1303 0x0080 0xFF (s.rd F.timeCtrl_synceLane) else s

/-- CLOCK_LOST (R100, R612); the SyncE clock of domain 14 takes the EEC into holdover (R403). -/
def execClockLost (d : Nat) (pll : Bool) (s : State) : Out := s.whenLive fun s =>
  if !monitored d || (pll && !hasPll d) || !s.clockOn d then s
  else
    let s := s.wr F.clkStatus_present (setBit (s.rd F.clkStatus_present) (d - 1) false)
    let s := s.wr F.clkLost_lost (setBit (s.rd F.clkLost_lost) (d - 1) true)
    let s := (s.count 12 255).logEvt 0x0C05 0x00D0 0xFF (d + ofBool pll * 2 ^ 8)
    if d = 14 then s.eecHoldover else s

/-- CLOCK_RESTORED (R100). -/
def execClockRestored (d : Nat) (s : State) : Out := s.whenLive fun s =>
  if monitored d then s.wr F.clkStatus_present (setBit (s.rd F.clkStatus_present) (d - 1) true) else s

end Sys2Proof.Machine
end

