-- ==== Sys2Proof/Machine/Pattern.lean ====
section
/-! DEFINITION. Sys2Proof/Machine/Pattern.lean: the pattern checker, phases A to D (R33 to R65, R611, R379, R380, R388, R390). Each
check answers the first failure as a code with the section type, entry index and byte offset of R65, or nothing. -/
namespace Sys2Proof.Machine

/-- The first failure of a list of checks. -/
def firstErr : List (Option PatErr) → Option PatErr
  | [] => none
  | some e :: _ => some e
  | none :: r => firstErr r

/-- A check: a failure unless ok. -/
def chk (ok : Bool) (code sec idx off : Nat) : Option PatErr := if ok then none else some ⟨code, sec, idx, off⟩

/-- A per-entry check: a failure at field offset `fo` of entry i of section e. -/
def chkAt (e : PSec) (i fo : Nat) (ok : Bool) (code : Nat) : Option PatErr :=
  chk ok code e.ty i (e.off + headLen e.ty + e.size * i + fo)

/-- A failure for something missing: entry_count as index and the offset just past the body (R65). -/
def chkMissing (e : PSec) (ok : Bool) (code : Nat) : Option PatErr := chk ok code e.ty e.cnt (e.off + e.len)

/-- The header checks of phase A (Table 2.2, R39): one pattern of n received bytes. -/
def checkHeader (bs : Bytes) (n : Nat) : Option PatErr :=
  let f := fun (ok : Bool) (off : Nat) => chk ok E.patFormat 0 0 off
  firstErr [
    f (leAt bs 0 4 == 0x54504B49) 0,
    f (leAt bs 4 2 == 2) 4,
    f (1 ≤ patKindOf bs && patKindOf bs ≤ 3) 6,
    f (leAt bs 7 1 == 0) 7,
    f (1 ≤ leAt bs 0xA 2 && leAt bs 0xA 2 ≤ 32) 0xA,
    f (patLen bs % 64 == 0) 0xC,
    chk (patLen bs ≤ 4194304 && patLen bs ≤ n) E.patTooLarge 0 0 0xC,
    f (leAt bs 0x1C 4 == 0x100) 0x1C,
    f (allZero (slice bs 0x40 188)) 0x40,
    chk (leAt bs 0xFC 4 == crc32c (slice bs 0 0xFC)) E.patCrc 0 0 0xFC]

/-- The directory checks of phase A (Table 2.3, R40, R41) at position i: `prev` is the type before it, `lo` the first
offset its body may take, `hi` the start of the signature block. -/
def checkDirEntry (bs : Bytes) (i : Nat) (e : PSec) (hi : Nat) : Option PatErr :=
  let o := 0x100 + 32 * i
  let f := fun (ok : Bool) (off : Nat) => chk ok E.patFormat e.ty i (o + off)
  let prev := if i = 0 then 0 else (dirEntry bs (i - 1)).ty
  firstErr [
    f (i == 0 || prev < e.ty) 0,
    f (e.flags ≤ 1 && (knownTypes.contains e.ty || e.flags == 0)) 2,
    f (e.off % 64 == 0 && 0x100 + 64 * cdiv (32 * leAt bs 0xA 2) 64 ≤ e.off) 4,
    f (0 < e.len && e.off + e.len ≤ hi && e.len == e.cnt * e.size + headLen e.ty) 8,
    f (allZero (slice bs (o + 0x14) 12)) 0x14,
    f ((patDir bs).all (fun g => g.ty == e.ty || g.off + g.len ≤ e.off || e.off + e.len ≤ g.off)) 4]

/-- Every byte of the container that lies in no part is 0 (R39). -/
def paddingOk (bs : Bytes) (sigAt : Nat) : Bool :=
  let d := patDir bs
  let covered := fun (k : Nat) =>
    k < 0x100 + 32 * leAt bs 0xA 2 || d.any (fun e => e.off ≤ k && k < e.off + e.len)
  (List.range sigAt).all (fun k => covered k || leAt bs k 1 == 0)

/-- The signature block's own layout (Table 2.4). -/
def sigBlockOk (bs : Bytes) (at_ kind : Nat) : Bool :=
  leAt bs at_ 4 == 0x47534B49 && leAt bs (at_ + 6) 2 == 0 && allZero (slice bs (at_ + 0x30) 16)
    && allZero (slice bs (at_ + 0x40 + sigLen kind) (sigBlockLen kind - 0x40 - sigLen kind))

/-- Phase A, header and directory (first step). -/
def phaseA1 (bs : Bytes) (n : Nat) : Option PatErr :=
  let hi := patLen bs - sigBlockLen (patKindOf bs)
  firstErr (checkHeader bs n ::
    chk (sigBlockLen (patKindOf bs) + 0x100 ≤ patLen bs) E.patFormat 0 0 0xC ::
    ((patDir bs).zipIdx.map fun (e, i) => checkDirEntry bs i e hi))

/-- Phase A, the pass over the bytes: section CRCs, padding, signature-block layout. -/
def phaseA2 (bs : Bytes) : Option PatErr :=
  let hi := patLen bs - sigBlockLen (patKindOf bs)
  firstErr (((patDir bs).zipIdx.map fun (e, i) =>
      chk (e.crc == crc32c (secBody bs e)) E.patCrc e.ty i (0x100 + 32 * i + 0xC)) ++
    [chk (paddingOk bs hi) E.patFormat 0 0 0x100, chk (sigBlockOk bs hi (patKindOf bs)) E.patFormat 0 0 hi])

/-- The digest of a pattern (R42). -/
def patDigest (bs : Bytes) : Bytes := digest256 (bs.take (patLen bs - sigBlockLen (patKindOf bs)))

/-- Phase B: digest, algorithm, key and signature. `key` is the enrolled key that the block names, if any. -/
def phaseB (bs : Bytes) (key : Option Bytes) : Option PatErr :=
  let k := patKindOf bs
  let at_ := patLen bs - sigBlockLen k
  let alg := if k = 1 then 1 else 2
  firstErr [
    chk (slice bs (at_ + 0x10) 32 == patDigest bs) E.patDigest 0 0 (at_ + 0x10),
    chk (leAt bs (at_ + 4) 2 == alg) E.patSignature 0 0 (at_ + 4),
    chk key.isSome E.patSignature 0 0 (at_ + 8),
    chk (Config.slhVerify alg (key.getD []) (slice bs at_ 0x40) (slice bs (at_ + 0x40) (sigLen k))) E.patSignature 0 0 (at_ + 0x40)]

/-- The mould a pattern names, from its MOULD_MAP entry (R65). -/
def patMouldNo (bs : Bytes) : Nat := match patSec bs 0x30 with | some e => leAt bs e.off 1 | none => 64

/-- MOULD_MAP of one 64-byte entry is there (R65, checked at the end of phase B). -/
def mapMissing (bs : Bytes) : Option PatErr :=
  match patSec bs 0x30 with
  | none => some ⟨E.patSection, 0x30, 0, 0⟩
  | some e => chk (e.cnt == 1 && e.size == 64) E.patSection 0x30 0 (0x100 + 32 * ((patDir bs).findIdx (fun g => g.ty = 0x30)) + 0x10)

/-- Phase C for the parts every kind shares: stepping, arith_rev, base_digest, security_version. -/
def phaseCommon (bs : Bytes) (base : Bytes) (counter : Nat) : Option PatErr :=
  firstErr [
    chk (leAt bs 8 1 == 0xB1) E.patStepping 0 0 8,
    chk (leAt bs 9 1 == 1) E.patStepping 0 0 9,
    chk (slice bs 0x20 32 == base) E.patBaseMismatch 0 0 0x20,
    chk (counter ≤ leAt bs 0x18 4) E.patRollback 0 0 0x18]

/-- Phase C of a mould pattern (R38, R45). -/
def State.phaseCMould (s : State) (bs : Bytes) (counter : Nat) : Option PatErr :=
  let m := patMouldNo bs
  let off := match patSec bs 0x30 with | some e => e.off | none => 0
  firstErr [
    chk (patKindOf bs == 3 && s.oper.isSome) E.patKind 0 0 6,
    phaseCommon bs ((s.oper.map (·.digest)).getD []) counter,
    chk (m < 64 && s.mstate m == 0 && (s.envelope m).kind ≠ 0) E.patMould 0x30 0 off,
    chk (leAt bs (off + 1) 1 == (s.envelope m).kind) E.patMould 0x30 0 (off + 1)]

/-- The checks of R44 over the directory (first step of phase D). -/
def sectionsOk (bs : Bytes) (radio : Bool) : Option PatErr :=
  let k := patKindOf bs
  firstErr (((requiredTypes k radio).map fun t => chk (patSec bs t).isSome E.patSection t 0 0) ++
    ((patDir bs).zipIdx.map fun (e, i) =>
      chk (!knownTypes.contains e.ty || (allowedTypes k radio).contains e.ty) E.patSection e.ty i (0x100 + 32 * i)) ++
    ((patDir bs).zipIdx.map fun (e, i) =>
      chk (entrySize e.ty == 0 || e.size == entrySize e.ty) E.patSection e.ty i (0x100 + 32 * i + 0x12)))

/-- IDENT is UTF-8 text of at most 4 KB. -/
def checkIdent (e : PSec) : Option PatErr := chk (e.len ≤ 4096) E.patSection e.ty 0 e.off

/-- The reset classes of side-port frame positions on stepping B1 (Table 10.1). -/
def sidePortB1 : List Nat := [0, 0, 0, 1, 1, 1, 2, 3]

/-- A power of two from 512 to 4,096. -/
def meshPow (m : Nat) : Bool := m == 512 || m == 1024 || m == 2048 || m == 4096

/-- LIMITS (R611). -/
def checkLimits (bs : Bytes) (e : PSec) : Option PatErr :=
  let b := secBody bs e
  let l := limitsOf b
  let f := fun (ok : Bool) (o : Nat) => chkAt e 0 o ok E.patLimit
  firstErr ([
    chk (e.cnt == 1 && e.size == 64) E.patSection e.ty 0 e.off,
    f (l.holdNs ≤ 4000) 0, f (l.lvlMin ≤ l.lvlMax) 2, f (meshPow l.mMin && l.mMin ≤ l.mMax) 4, f (meshPow l.mMax) 6]
    ++ (List.range 4).map (fun i => f (550 ≤ l.vmax.getD i 0 && l.vmax.getD i 0 ≤ 850) (8 + 2 * i))
    ++ (List.range 8).map (fun i => f (l.side.getD i 0 == sidePortB1.getD i 0) (0x10 + i))
    ++ [f (allZero (slice b 0x18 40)) 0x18])

/-- MESH_PHYS (R48), of which no byte layout is given (log entry 9). -/
def checkMeshPhys (bs : Bytes) (e : PSec) : Option PatErr := chk (Config.meshPhysOk (secBody bs e)) E.patMesh e.ty 0 e.off

/-- GDDR7 bytes found at training. -/
def State.gddrBytes (s : State) : Nat := popCount 4 (s.rd F.gddrCfg_groups) * 32 * s.rd F.gddrCfg_channelMb * 1048576

/-- CXL bytes found at training, all devices. -/
def State.cxlBytes (s : State) : Nat :=
  sumNat ((List.range 4).map (fun k => if s.flag F.cxlDev_present k then s.rd F.cxlDev_capacityGb k * 1073741824 else 0))

/-- Two byte windows do not overlap. -/
def apart (a n b k : Nat) : Bool := n == 0 || k == 0 || a + n ≤ b || b + k ≤ a

/-- Sums over the envelopes up to entry i of R46: the first entry at which a sum passes its limit fails. -/
def checkEnvelope (s : State) (e : PSec) (es : List Envelope) (b : Bytes) (i : Nat) (v : Envelope) : Option PatErr :=
  let before := es.take i
  let upto := es.take (i + 1)
  let f := fun (ok : Bool) (o : Nat) => chkAt e i o ok E.patShare
  let win := fun (a n : Envelope → Nat) (cap : Nat) =>
    a v % 2097152 == 0 && n v % 2097152 == 0 && a v + n v ≤ cap && before.all (fun w => apart (a v) (n v) (a w) (n w))
  firstErr [
    f (v.mould < 64 && before.all (fun w => w.mould ≠ v.mould)) 0,
    f (v.kind ≤ 2) 1,
    f (v.kind == 0 || (1 ≤ v.maxCtx && v.maxCtx ≤ 16)) 2,
    f (sumNat (upto.map (·.maxCtx)) ≤ 256) 2,
    f (if v.chans = 0 then v.share == 0 else v.kind ≠ 1 || v.share == 0xFF) 3,
    f (v.slots ≤ 16384 && sumNat (upto.map (·.slots)) ≤ 16384) 4,
    f (v.crucible ≤ 4096) 6,
    f ((List.range 128).all (fun n => sumNat ((upto.filter (fun w => bit w.chans n)).map Envelope.grant) ≤ 256)) 8,
    f (win (·.gBase) (·.gLen) s.gddrBytes) 0x18,
    f (win (·.cBase) (·.cLen) s.cxlBytes) 0x28,
    f (v.clusters < 2 ^ 96 && v.clusters % 2 ^ 96 == v.clusters && before.all (fun w => w.clusters &&& v.clusters == 0)) 0x38,
    f ((List.range 96).all (fun c => !bit v.clusters c || s.enabled c)) 0x38,
    f (allZero (slice (entryAt b 0 80 i) 0x44 12)) 0x44]

/-- ENVELOPES (R45, R46). -/
def State.checkEnvelopes (s : State) (bs : Bytes) (e : PSec) : Option PatErr :=
  let b := secBody bs e
  let es := (entriesOf b 0 80).map envelopeOf
  firstErr (es.zipIdx.map fun (v, i) => checkEnvelope s e es b i v)

/-- Owner codes of R47. -/
def ownerOk (s : State) (o : Nat) : Bool :=
  s.enabled o || (0xC0 ≤ o && o ≤ 0xD7) || o == 0xE0 || o == 0xE1 || o == 0xFF

/-- A run of MESH_OWNERS: link, first slot, count, owner, flags. -/
structure MeshRun where
  link : Nat
  first : Nat
  count : Nat
  owner : Nat
  flags : Nat
  deriving DecidableEq, Repr

/-- The runs of a MESH_OWNERS body. -/
def meshRuns (b : Bytes) : List MeshRun :=
  (entriesOf b 8 8).map fun e => ⟨leAt e 0 2, leAt e 2 2, leAt e 4 2, leAt e 6 1, leAt e 7 1⟩

/-- MESH_OWNERS (R47, R48) against the vendor base that comes with it. -/
def State.checkOwners (s : State) (vendor : Secs) (bs : Bytes) (e : PSec) : Option PatErr :=
  let b := secBody bs e
  let m := leAt b 0 2
  let lim := limitsOf (secOf vendor 0x10)
  let links := Config.meshLinks (secOf vendor 0x11)
  let rs := meshRuns b
  let f := fun (i : Nat) (ok : Bool) (o : Nat) => chkAt e i o ok E.patMesh
  firstErr ([
    chk (meshPow m) E.patMesh e.ty 0 e.off,
    chk (lim.mMin ≤ m && m ≤ lim.mMax) E.patLimit e.ty 0 e.off,
    chk (allZero (slice b 2 6)) E.patMesh e.ty 0 (e.off + 2)]
    ++ rs.zipIdx.map (fun (r, i) => firstErr [
      f i (r.link < links) 0,
      f i (r.first + r.count ≤ m) 2,
      f i (0 < r.count) 4,
      f i ((rs.take i).all (fun q => q.link ≠ r.link || apart q.first q.count r.first r.count)) 2,
      f i (ownerOk s r.owner) 6,
      f i (r.flags == 0 || (r.flags == 1 && r.owner < 96)) 7])
    ++ [chkMissing e ((List.range links).all (fun l => sumNat ((rs.filter (·.link = l)).map (·.count)) == m)) E.patMesh])

/-- A QUEUE_MAP entry (Table 13.2). -/
structure QEnt where
  port : Nat
  kind : Nat
  queue : Nat
  owner : Nat
  level : Nat
  gate : Nat
  lane : Nat
  weight : Nat
  rate : Nat
  burst : Nat
  deriving DecidableEq, Repr

/-- A QUEUE_MAP entry decoded. -/
def qEntOf (e : Bytes) : QEnt :=
  ⟨leAt e 0 1, leAt e 1 1, leAt e 2 2, leAt e 4 1, leAt e 5 1, leAt e 6 1, leAt e 7 1, leAt e 8 2, leAt e 0xC 4, leAt e 0x10 4⟩

/-- Sub-ports of an access port in a breakout mode. -/
def laneCount (mode : Nat) : Nat := if mode = 0 then 1 else if mode = 1 then 2 else 4

/-- Rate of a sub-port in Mb/s: a Joravo port, or an access sub-port in its mode. -/
def subRate (port mode : Nat) : Nat :=
  if port < 0x10 then 800000 else if mode = 0 then 100000 else if mode = 1 then 50000 else 25000

/-- The breakout mode QUEUE_MAP gives a port (R379). -/
def qMode (qs : List QEnt) (port : Nat) : Nat :=
  ((qs.find? (fun q => q.port = port && q.kind = 2)).map (·.owner)).getD 0

/-- Which queues may be listed (Table 13.1, R378). -/
def queueSettable (q : QEnt) : Bool :=
  if q.port < 0x10 then
    q.queue == 1 || q.queue == 3 ||
      (512 ≤ q.queue && q.queue < 2048 && ((q.queue - 512) % 24 ≤ 15 || (q.queue - 512) % 24 == 17))
  else 16 ≤ q.queue && q.queue < 1024

/-- One QUEUE_MAP entry is acceptable (R55, R379, R380). -/
def qEntOk (envs : List Envelope) (qs : List QEnt) (raw : Bytes) (i : Nat) (q : QEnt) : Bool :=
  let prev := qs[i - 1]?
  let ordered := i == 0 || (match prev with
    | some p => p.port < q.port || (p.port == q.port && q.kind == 1 && (p.kind == 2 || p.queue < q.queue))
    | none => true)
  let portOk := q.port < 12 || (0x10 ≤ q.port && q.port ≤ 0x17)
  let mode := qMode qs q.port
  ordered && portOk && leAt raw 0xA 2 == 0 && leAt raw 0x14 4 == 0 &&
  (if q.kind = 2 then
    0x10 ≤ q.port && q.owner ≤ 2 && q.queue == 0 && allZero (slice raw 5 19)
  else if q.kind = 1 then
    (q.owner < 64 || q.owner == 0xFF) && q.level ≤ 4 && q.gate ≤ 7 && queueSettable q
      && (if q.port < 0x10 then q.lane == 0 else q.lane < laneCount mode)
      && (if q.level = 4 then 1 ≤ q.weight && q.weight ≤ 4096 else q.weight == 0)
      && q.rate ≤ subRate q.port mode
      && (if q.rate = 0 then q.burst == 0 else 16384 ≤ q.burst && q.burst ≤ 16777216)
      && (if q.port < 0x10 then
          (if q.queue < 4 then q.level == 4 && q.owner == 0xFF
           else q.owner == (q.queue - 512) / 24 && 2 ≤ q.level)
        else q.owner == 0xFF || envs.any (fun v => v.mould == q.owner && v.kind ≠ 0))
  else false)

/-- QUEUE_MAP (R379, R380). -/
def checkQueues (bs : Bytes) (e : PSec) (envs : List Envelope) : Option PatErr :=
  let raw := entriesOf (secBody bs e) 0 24
  let qs := raw.map qEntOf
  firstErr (qs.zipIdx.map fun (q, i) => chkAt e i 0 (qEntOk envs qs (raw.getD i []) i q) E.patQueue)

/-- A gate-list entry (Table 13.3): type, port, lane and its three words. -/
structure GEnt where
  ty : Nat
  port : Nat
  lane : Nat
  a : Nat
  b : Nat
  n : Nat
  radio : Nat
  deriving DecidableEq, Repr

/-- A gate-list entry decoded. -/
def gEntOf (e : Bytes) : GEnt := ⟨leAt e 0 1, leAt e 1 1, leAt e 2 1, leAt e 4 4, leAt e 8 4, leAt e 0xC 2, leAt e 0xE 1⟩

/-- The interval entries that follow head i. -/
def gIntervals (gs : List GEnt) (i : Nat) : List GEnt := (gs.drop (i + 1)).take ((gs.getD i ⟨0, 0, 0, 0, 0, 0, 0⟩).n)

/-- One gate-list entry is acceptable (R55, R388, R390). -/
def gEntOk (envs : List Envelope) (qs : List QEnt) (gs : List GEnt) (raw : Bytes) (i : Nat) (g : GEnt) : Bool :=
  let portOk := g.port < 12 || (0x10 ≤ g.port && g.port ≤ 0x17)
  let laneOk := if g.port < 0x10 then g.lane == 0 else g.lane < laneCount (qMode qs g.port)
  let heads := (gs.take i).filter (·.ty = 1)
  portOk && laneOk && leAt raw 3 1 == 0 && leAt raw 0xF 1 == 0 &&
  (if g.ty = 1 then
    let iv := gIntervals gs i
    1000 ≤ g.a && g.a ≤ 10000000 && g.b < g.a && 1 ≤ g.n && g.n ≤ 256
      && heads.all (fun h => h.port < g.port || (h.port == g.port && h.lane < g.lane))
      && iv.length == g.n && iv.all (fun v => v.ty == 2 && v.port == g.port && v.lane == g.lane)
      && sumNat (iv.map (·.a)) == g.a
      && (qs.filter (fun q => q.kind = 1 && q.port = g.port && q.lane = g.lane && bit g.radio q.gate)).all
          (fun q => q.level == 0 && (q.owner == 0xFF || envs.any (fun v => v.mould == q.owner && v.kind == 1)))
  else if g.ty = 2 then
    64 ≤ g.a && g.b < 256 && g.n == 0 && g.radio == 0
      && (match heads.getLast? with
        | some _ =>
          let at_ := ((gs.take i).zipIdx.filter (fun p => p.1.ty = 1)).getLast?
          (match at_ with | some (h, j) => i - j ≤ h.n && h.port == g.port && h.lane == g.lane | none => false)
        | none => false)
  else false)

/-- GATE_LISTS (R388, R390). -/
def checkGates (bs : Bytes) (e : PSec) (envs : List Envelope) (qs : List QEnt) : Option PatErr :=
  let raw := entriesOf (secBody bs e) 0 16
  let gs := raw.map gEntOf
  firstErr (gs.zipIdx.map fun (g, i) => chkAt e i 0 (gEntOk envs qs gs (raw.getD i []) i g) E.patGate)

/-- ARITH (R124, R125). -/
def checkArith (bs : Bytes) (e : PSec) : Option PatErr := chk (e.cnt == 1 && arithOk (secBody bs e)) E.patArith e.ty 0 e.off

/-- Phase D of one section of a base pattern; `vendor` holds the vendor base's sections. -/
def State.checkBaseSec (s : State) (vendor : Secs) (bs : Bytes) (e : PSec) : Option PatErr :=
  let envs := match patSec bs 0x20 with | some v => (entriesOf (secBody bs v) 0 80).map envelopeOf | none => []
  let qs := match patSec bs 0x22 with | some v => (entriesOf (secBody bs v) 0 24).map qEntOf | none => []
  if e.ty = 0x01 then checkIdent e
  else if e.ty = 0x10 then checkLimits bs e
  else if e.ty = 0x11 then checkMeshPhys bs e
  else if e.ty = 0x20 then s.checkEnvelopes bs e
  else if e.ty = 0x21 then s.checkOwners vendor bs e
  else if e.ty = 0x22 then checkQueues bs e envs
  else if e.ty = 0x23 then checkGates bs e envs qs
  else if e.ty = 0x24 then checkArith bs e
  else none

/-- The clusters a MOULD_MAP entry claims. -/
def claimsOf (bs : Bytes) : List Nat :=
  match patSec bs 0x30 with | some e => bitList 96 (leAt bs (e.off + 4) 12) | none => []

/-- MOULD_MAP (R50). -/
def State.checkMap (s : State) (bs : Bytes) (e : PSec) : Option PatErr :=
  let m := patMouldNo bs
  let v := s.envelope m
  let pinned := fun (c : Nat) => s.envelopes.any (fun w => w.mould ≠ m && w.kind ≠ 0 && bit w.clusters c)
  let bindsLoan := match patSec bs 0x33 with
    | some r => (entriesOf (secBody bs r) 0 32).any (fun g => (regionOf g).tier == 3)
    | none => false
  let free := fun (c : Nat) =>
    (s.moulds.all (fun k => k.1 == m || !k.2.claimed.contains c)) && !s.blockBusy (64 + c)
  firstErr [
    chkAt e 0 2 (1 ≤ leAt bs (e.off + 2) 1 && leAt bs (e.off + 2) 1 ≤ v.maxCtx) E.patShare,
    chkAt e 0 3 (leAt bs (e.off + 3) 1 == 0) E.patSection,
    chkAt e 0 4 ((claimsOf bs).all (fun c => s.enabled c && free c && !s.fencedCluster c &&
      (if v.clusters = 0 then !pinned c else bit v.clusters c))) E.patCluster,
    chkAt e 0 4 (!(claimsOf bs).isEmpty || (v.kind == 2 && bindsLoan)) E.patCluster]

/-- GANGING of one entry (R51, R52, R611). -/
def State.checkGang (s : State) (bs : Bytes) (e : PSec) (gs : List Gang) (i : Nat) (g : Gang) : Option PatErr :=
  let n := match patSec bs 0x30 with | some q => leAt bs (q.off + 2) 1 | none => 0
  let lim := limitsOf (s.vendorSec 0x10)
  firstErr [
    chkAt e i 0 (g.cluster < 96 && (gs.take i).all (fun h => h.cluster ≠ g.cluster)) E.patGang,
    chkAt e i 1 (g.mode ≤ 3) E.patGang,
    chkAt e i 2 (g.ctx.all (fun x => x == 0xFF || x < n) &&
      (gangSets g.mode).all (fun l => l.all (fun a => g.ctx.getD a 0 == g.ctx.getD (l.headD 0) 0))) E.patGang,
    chkAt e i 6 (g.holdNs ≤ lim.holdNs) E.patLimit,
    chkAt e i 8 (lim.lvlMin ≤ g.level && g.level ≤ lim.lvlMax) E.patLimit,
    chkAt e i 9 (allZero (slice bs (e.off + 16 * i + 9) 7)) E.patGang]

/-- GANGING: every entry, then an entry for each claimed cluster. -/
def State.checkGanging (s : State) (bs : Bytes) (e : PSec) : Option PatErr :=
  let gs := (entriesOf (secBody bs e) 0 16).map gangOf
  firstErr ((gs.zipIdx.map fun (g, i) => s.checkGang bs e gs i g) ++
    [chkMissing e ((claimsOf bs).all (fun c => gs.any (fun g => g.cluster == c))) E.patGang])

/-- A route (Table 2.7). -/
structure Route where
  id : Nat
  src : Nat
  dst : Nat
  hops : List Nat
  first : Nat
  deriving DecidableEq, Repr

/-- A route decoded. -/
def routeOf (e : Bytes) : Route :=
  ⟨leAt e 0 2, leAt e 2 2, leAt e 4 2, (List.range (leAt e 6 1)).map (fun h => leAt e (0x10 + 2 * h) 2), leAt e 8 2⟩

/-- The (link, slot) pairs of a route: each hop's slot is the one before plus the hop beats, modulo M (R48). -/
def routeCells (phys : Bytes) (m : Nat) : Nat → List Nat → List (Nat × Nat)
  | _, [] => []
  | slot, l :: r => (l, slot) :: routeCells phys m ((slot + (Config.meshLink phys l).2.2) % m) r

/-- The links of a route join src to dst end to end (R49). -/
def routeJoined (phys : Bytes) : Nat → Nat → List Nat → Bool
  | at_, dst, [] => at_ == dst
  | at_, dst, l :: r => (Config.meshLink phys l).1 == at_ && routeJoined phys (Config.meshLink phys l).2.1 dst r

/-- The owner code and flags of a (link, slot). -/
def slotOwner (rs : List MeshRun) (l slot : Nat) : Nat × Nat :=
  ((rs.find? (fun r => r.link = l && r.first ≤ slot && slot < r.first + r.count)).map (fun r => (r.owner, r.flags))).getD (0xFF, 0)

/-- The (link, slot) pairs used by the routes of a mould in effect. -/
def State.usedCells (s : State) (m : Nat) : List (Nat × Nat) :=
  ((entriesOf (s.mouldSec m 0x32) 0 80).map routeOf).flatMap (fun r => routeCells (s.vendorSec 0x11) s.meshM r.first r.hops)

/-- Clusters with an unbound offer of a lender that is READY or RUNNING (R49). -/
def State.openLoanClusters (s : State) (m : Nat) : List Nat :=
  s.moulds.flatMap (fun k =>
    if k.1 == m || !(s.mstate k.1 == 2 || s.mstate k.1 == 3) then []
    else ((s.offers k.1).filter (fun o => (s.borrower k.1 o.id).isNone)).map (·.cluster))

/-- A (link, slot) may carry a route of the mould (R49). -/
def cellOwnerOk (claims loans : List Nat) (radio : Bool) (r : Route) (o : Nat × Nat) : Bool :=
  (o.1 < 96 && o.2 == 0 && claims.contains o.1) || (o.1 < 96 && o.2 == 1 && loans.contains o.1)
    || (radio && 0xC0 ≤ o.1 && o.1 ≤ 0xD7 && (r.src == o.1 || r.dst == o.1))

/-- MESH_ROUTES (R48, R49). -/
def State.checkRoutes (s : State) (bs : Bytes) (e : PSec) : Option PatErr :=
  let m := patMouldNo bs
  let phys := s.vendorSec 0x11
  let raw := entriesOf (secBody bs e) 0 80
  let rts := raw.map routeOf
  let cells := rts.map (fun r => routeCells phys s.meshM r.first r.hops)
  let others := s.moulds.flatMap (fun k => if k.1 == m then [] else s.usedCells k.1)
  let owners := meshRuns (s.operSec 0x21)
  let radio := (s.envelope m).kind == 1
  let f := fun (i : Nat) (ok : Bool) (o : Nat) => chkAt e i o ok E.patMesh
  firstErr (rts.zipIdx.map fun (r, i) =>
    let mine := cells.getD i []
    let b := raw.getD i []
    firstErr [
      f i ((rts.take i).all (fun q => q.id ≠ r.id)) 0,
      f i (1 ≤ leAt b 6 1 && leAt b 6 1 ≤ 32) 6,
      f i (leAt b 7 1 == 0) 7,
      f i (r.first < s.meshM) 8,
      f i (allZero (slice b 0xA 6)) 0xA,
      f i (r.hops.all (fun l => l < Config.meshLinks phys)
        && (slice b (0x10 + 2 * r.hops.length) (64 - 2 * r.hops.length)).all (· == 0xFF#8)) 0x10,
      f i (routeJoined phys r.src r.dst r.hops) 2,
      f i (mine.all (fun p => cellOwnerOk (claimsOf bs) (s.openLoanClusters m) radio r (slotOwner owners p.1 p.2))) 8,
      f i (mine.Nodup && mine.all (fun p => !others.contains p && !((cells.take i).any (·.contains p)))) 8])

/-- The physical bytes a region maps, as (tier, first byte, length): SRAM by cluster and bank, loans by the offer's banks. -/
def State.regionPhys (s : State) (r : Region) : Nat × Nat × Nat :=
  if r.tier = 0 then (0, (r.target % 256) * 16777216 + (r.target / 256 % 256) * 262144, r.len)
  else if r.tier = 3 then
    match s.offer (r.target % 256) (r.target / 256 % 256) with
    | some o => (0, o.cluster * 16777216 + o.bank * 262144, o.banks * 262144)
    | none => (3, 0, 0)
  else (r.tier, r.target, r.len)

/-- The offers a pattern's region table binds, as (lender, offer). -/
def bindsOf (bs : Bytes) : List (Nat × Nat) :=
  match patSec bs 0x33 with
  | some e => ((entriesOf (secBody bs e) 0 32).map regionOf).filterMap (fun r =>
      if r.tier = 3 then some (r.target % 256, r.target / 256 % 256) else none)
  | none => []

/-- Banks of a cluster that loan offers lend: those of every poured mould and of the pattern itself (R54). -/
def State.lentBanks (s : State) (bs : Bytes) (c : Nat) : Nat :=
  let own := match patSec bs 0x36 with | some e => (entriesOf (secBody bs e) 0 16).map offerOf | none => []
  let all := own ++ s.moulds.flatMap (fun k => s.offers k.1)
  ((all.filter (·.cluster = c)).map (fun o => bankBits o.bank o.banks)).foldl (· ||| ·) 0

/-- One region (R53, R54, R62). -/
def State.checkRegion (s : State) (bs : Bytes) (e : PSec) (rs : List Region) (raw : Bytes) (i : Nat) (r : Region) : Option PatErr :=
  let m := patMouldNo bs
  let v := s.envelope m
  let before := rs.take i
  let c := r.target % 256
  let bank := r.target / 256 % 256
  let cnt := r.target / 65536 % 256
  let lender := r.target % 256
  let oid := r.target / 256 % 256
  let f := fun (ok : Bool) (o : Nat) => chkAt e i o ok E.patRegion
  let p := s.regionPhys r
  firstErr [
    f (before.all (fun q => apart q.base q.len r.base r.len)) 0,
    f (0 < r.len && r.base + r.len ≤ 2 ^ 48) 8,
    f (r.tier ≤ 3) 16,
    f (r.attr < 32 && (!bit r.attr 4 || r.tier == 1 || r.tier == 2)) 17,
    f (allZero (slice raw 18 6)) 18,
    f (if r.tier = 0 then
        (claimsOf bs).contains c && r.target < 2 ^ 24 && 0 < cnt && bank + cnt ≤ 64 && r.len == cnt * 262144
          && (s.lentBanks bs c &&& bankBits bank cnt) == 0
      else if r.tier = 1 then r.target % 4096 == 0 && r.len % 4096 == 0 && r.base % 4096 == 0 && r.target + r.len ≤ v.gLen
      else if r.tier = 2 then r.target % 4096 == 0 && r.len % 4096 == 0 && r.base % 4096 == 0 && r.target + r.len ≤ v.cLen
      else
        match s.offer lender oid with
        | some o => r.target < 65536 && lender ≠ m && r.len == o.banks * 262144 && (s.mstate lender == 2 || s.mstate lender == 3)
            && (s.borrower lender oid).isNone
            && (match s.clusterBorrower o.cluster with | some b => b == m | none => true)
        | none => false) 24,
    f (before.all (fun q => let w := s.regionPhys q; w.1 ≠ p.1 || apart w.2.1 w.2.2 p.2.1 p.2.2)) 24]

/-- REGIONS, with the checks that wait for it: a borrower's ganging entries (R51) and loan-flagged route slots (R49). -/
def State.checkRegions (s : State) (bs : Bytes) (e : PSec) : Option PatErr :=
  let raw := entriesOf (secBody bs e) 0 32
  let rs := raw.map regionOf
  let binds := bindsOf bs
  let offersAt := fun (c : Nat) => (binds.filterMap (fun p => s.offer p.1 p.2)).filter (fun o => o.cluster = c)
  let gsec := (patSec bs 0x31).getD ⟨0x31, 0, 0, 0, 0, 0, 16⟩
  let gs := (entriesOf (secBody bs gsec) 0 16).map gangOf
  let rsec := (patSec bs 0x32).getD ⟨0x32, 0, 0, 0, 0, 0, 80⟩
  let rts := (entriesOf (secBody bs rsec) 0 80).map routeOf
  let owners := meshRuns (s.operSec 0x21)
  firstErr ([chk (e.cnt ≤ 256) E.patRegion e.ty 256 (e.off + 32 * 256)]
    ++ (rs.zipIdx.map fun (r, i) => s.checkRegion bs e rs (raw.getD i []) i r)
    ++ (gs.zipIdx.map fun (g, i) =>
      if (claimsOf bs).contains g.cluster then none
      else
        let os := offersAt g.cluster
        let mask := (os.map (·.arrays)).foldl (· ||| ·) 0
        chkAt gsec i 2 (!os.isEmpty && (gangSets g.mode).all (fun l => l.all (fun a => bit mask a)
          || l.all (fun a => g.ctx.getD a 0 == 0xFF))) E.patGang)
    ++ [chkMissing gsec ((binds.filterMap (fun p => s.offer p.1 p.2)).all (fun o => gs.any (fun g => g.cluster == o.cluster))) E.patGang]
    ++ (rts.zipIdx.map fun (r, i) =>
      chkAt rsec i 8 ((routeCells (s.vendorSec 0x11) s.meshM r.first r.hops).all (fun p =>
        let o := slotOwner owners p.1 p.2
        o.2 ≠ 1 || !(offersAt o.1).isEmpty)) E.patMesh))

/-- GROUPS (R56, R348, R349): each entry in order, its quota added to those before it. -/
def State.checkGroups (s : State) (bs : Bytes) (e : PSec) : Option PatErr :=
  let m := patMouldNo bs
  let n := match patSec bs 0x30 with | some q => leAt bs (q.off + 2) 1 | none => 0
  let raw := entriesOf (secBody bs e) 0 e.size
  let gs := raw.map groupEntOf
  firstErr (chk (64 ≤ e.size && e.size % 64 == 0) E.patGroup e.ty 0 e.off ::
    gs.zipIdx.map fun (g, i) => firstErr [
      chkAt e i 0 (s.groupEntOk (raw.getD i []) true && (gs.take i).all (fun h => h.handle ≠ g.handle)
        && s.groupIdx.all (fun k => s.rd F.collG_handle k ≠ g.handle) && s.groupIdx.length + i < 256) E.patGroup,
      chkAt e i 3 (g.mould == m) E.patGroup,
      chkAt e i 4 (g.ctx < n) E.patGroup,
      chkAt e i 0xA (s.quotaAll + sumNat ((gs.take (i + 1)).map (·.quota)) ≤ 4096
        && sumNat ((gs.take (i + 1)).map (·.quota)) ≤ (s.envelope m).crucible) E.patCrucibleFull])

/-- SLOT_TABLE (R57, R58, R59, R61). -/
def checkSlots (bs : Bytes) (e : PSec) : Option PatErr :=
  let b := secBody bs e
  let cycle := leAt b 0 4
  let raw := entriesOf b 16 32
  let es := raw.map slotOf
  let own := match patSec bs 0x36 with | some o => (entriesOf (secBody bs o) 0 16).map offerOf | none => []
  let f := fun (i : Nat) (ok : Bool) (o : Nat) => chkAt e i o ok E.patSlotTable
  firstErr ([
    chk (cycle % 125000 == 0 && 125000 ≤ cycle && cycle ≤ 10000000) E.patSlotTable e.ty 0 e.off,
    chk (leAt b 4 4 < cycle) E.patSlotTable e.ty 0 (e.off + 4),
    chk (leAt b 8 2 == e.cnt) E.patSlotTable e.ty 0 (e.off + 8),
    chk (allZero (slice b 10 6)) E.patSlotTable e.ty 0 (e.off + 10)]
    ++ es.zipIdx.map (fun (v, i) =>
      let mine := slotsOf (es.take i) v.cluster
      let all := slotsOf es v.cluster
      let room := slotEnd all cycle mine.length
      firstErr [
        f i ((claimsOf bs).contains v.cluster && mine.length < 64) 0,
        f i (v.kind == 1 || v.kind == 2) 1,
        f i (allZero (slice (raw.getD i []) 2 2) && allZero (slice (raw.getD i []) 20 12)) 2,
        f i (v.offset < cycle && mine.all (fun w => w.offset < v.offset)) 4,
        f i (v.kind == 2 || v.stop == 0) 8,
        f i (v.kind == 1 || own.any (fun o => o.id == v.list && o.cluster == v.cluster)) 12,
        f i (v.kind == 1 || v.wcet == 0) 16,
        chkAt e i 4 (if v.kind = 1 then 2 * v.wcet ≤ 3 * (room - v.offset) else v.offset < v.stop && v.stop ≤ room) E.patSlotWcet]))

/-- LOAN_OFFERS (R61). -/
def checkOffers (bs : Bytes) (e : PSec) : Option PatErr :=
  let raw := entriesOf (secBody bs e) 0 16
  let os := raw.map offerOf
  let slots := match patSec bs 0x35 with | some t => (entriesOf (secBody bs t) 16 32).map slotOf | none => []
  let f := fun (i : Nat) (ok : Bool) (o : Nat) => chkAt e i o ok E.patSlotTable
  firstErr (os.zipIdx.map fun (v, i) => firstErr [
    f i ((os.take i).all (fun w => w.id ≠ v.id)) 0,
    f i ((claimsOf bs).contains v.cluster) 1,
    f i (0 < v.banks && v.bank + v.banks ≤ 64
      && (os.take i).all (fun w => w.cluster ≠ v.cluster || apart w.bank w.banks v.bank v.banks)) 2,
    f i (v.arrays < 16) 4,
    f i (v.signal < 4) 5,
    f i (allZero (slice (raw.getD i []) 6 10)) 6,
    f i (slots.any (fun w => w.kind == 2 && w.list == v.id && w.cluster == v.cluster)) 0])

/-- Phase D of one section of a mould pattern. -/
def State.checkMouldSec (s : State) (bs : Bytes) (e : PSec) : Option PatErr :=
  if e.ty = 0x01 then checkIdent e
  else if e.ty = 0x24 then checkArith bs e
  else if e.ty = 0x30 then s.checkMap bs e
  else if e.ty = 0x31 then s.checkGanging bs e
  else if e.ty = 0x32 then s.checkRoutes bs e
  else if e.ty = 0x33 then s.checkRegions bs e
  else if e.ty = 0x34 then s.checkGroups bs e
  else if e.ty = 0x35 then checkSlots bs e
  else if e.ty = 0x36 then checkOffers bs e
  else none

/-- Steps of a section: one per 64 KB, at least one (R67). -/
def secSteps (e : PSec) : Nat := max 1 (cdiv e.len 65536)

/-- Steps of a pattern up to the end of phase B: header, CRC pass, signature (R67). -/
def stepsAB (bs : Bytes) : Nat := 1 + cdiv (patLen bs) 65536 + (if patKindOf bs = 1 then 96 else 48)

/-- Steps of phase D of a pattern. -/
def stepsD (bs : Bytes) : Nat := sumNat ((patDir bs).map secSteps)

/-- Bytes of the device-level tables that phase E writes. -/
def tableBytes (bs : Bytes) : Nat :=
  sumNat (((patDir bs).filter (fun e => patKindOf bs ≠ 3 || e.ty = 0x33 || e.ty = 0x34 || e.ty = 0x35 || e.ty = 0x36)).map (·.len))

/-- steps_total of a mould pour (R67). -/
def mouldSteps (bs : Bytes) : Nat :=
  stepsAB bs + stepsD bs + (claimsOf bs).length + cdiv (tableBytes bs) 65536 + 1

end Sys2Proof.Machine
end

