-- ==== Sys2Proof/Machine/Egress.lean ====
section
/-! DEFINITION. Sys2Proof/Machine/Egress.lean: egress queues, their configuration, gates and shapers, the scheduler, and how a
Joravo frame enters its link (R315, R316, R370, R376 to R391). -/
namespace Sys2Proof.Machine

/-- The port code of Table 13.2 of a global queue number (R376). -/
def queuePort (q : Nat) : Nat := if q < 24576 then q / 2048 else 0x10 + (q - 24576) / 1024

/-- The index of a queue on its port. -/
def queueIdx (q : Nat) : Nat := if q < 24576 then q % 2048 else (q - 24576) % 1024

/-- The global number of a queue. -/
def queueNo (port idx : Nat) : Nat := if port < 0x10 then 2048 * port + idx else 24576 + 1024 * (port - 0x10) + idx

/-- QUEUE_MAP of the base in effect. -/
def State.queueMap (s : State) : List QEnt := (entriesOf (s.operSec 0x22) 0 24).map qEntOf

/-- GATE_LISTS of the base in effect. -/
def State.gateEnts (s : State) : List GEnt := (entriesOf (s.operSec 0x23) 0 16).map gEntOf

/-- How a queue is served: level, gate if any, weight, shaper rate in Mb/s and burst, owner if any, and its lane. -/
structure QInfo where
  level : Nat
  gate : Option Nat
  weight : Nat
  rate : Nat
  burst : Nat
  owner : Option Nat
  lane : Nat
  deriving DecidableEq, Repr

/-- A queue listed in QUEUE_MAP. -/
def QEnt.info (e : QEnt) : QInfo :=
  ⟨e.level, some e.gate, e.weight, e.rate, e.burst, if e.owner = 0xFF then none else some e.owner, e.lane⟩

/-- The configuration of a queue (Table 13.1, R378, R379); none where a queue carries nothing. -/
def State.qInfo (s : State) (q : Nat) : Option QInfo :=
  let port := queuePort q
  let i := queueIdx q
  let ent := (s.queueMap.find? (fun e => e.kind = 1 && e.port = port && e.queue = i)).map QEnt.info
  if port < 0x10 then
    let m := (i - 512) / 24
    let r := (i - 512) % 24
    if i = 0 then some ⟨0, none, 0, 0, 0, none, 0⟩
    else if i = 2 then some ⟨1, none, 0, 0, 0, none, 0⟩
    else if i = 1 ∨ i = 3 then ent.or (some ⟨4, some 0, 64, 0, 0, none, 0⟩)
    else if i < 512 then none
    else if r = 16 then some ⟨1, none, 0, 0, 0, some m, 0⟩
    else if r ≤ 17 then ent.or (some ⟨4, some 0, 1, 0, 0, some m, 0⟩)
    else none
  else if i < 16 then (if i % 4 ≤ 1 then some ⟨0, none, 0, 0, 0, none, i / 4⟩ else none)
  else ent

/-- The sub-port a queue is scheduled on. -/
def State.queueSub (s : State) (q : Nat) : Nat :=
  let port := queuePort q
  if port < 0x10 then port else 16 + 4 * (port - 0x10) + ((s.qInfo q).map (·.lane)).getD 0

/-- An egress queue. -/
def State.eq (s : State) (q : Nat) : EgQueue := Tab.get EgQueue.init s.egr.qs q

/-- Replace an egress queue. -/
def State.setEq (s : State) (q : Nat) (v : EgQueue) : State :=
  { s with egr := { s.egr with qs := Tab.set EgQueue.init s.egr.qs q v } }

/-- Bytes queued. -/
def EgQueue.bytes (v : EgQueue) : Nat := sumNat (v.frames.map (·.len))

/-- A frame enters a queue. -/
def State.enqueue (s : State) (q : Nat) (f : EgFrame) : State :=
  let v := s.eq q
  s.setEq q { v with frames := v.frames ++ [f] }

/-- Bytes queued on an access port (R386). -/
def State.portBytes (s : State) (port : Nat) : Nat :=
  sumNat ((s.egr.qs.filter (fun e => queuePort e.1 = port)).map (fun e => e.2.bytes))

/-- An access queue has room for n bytes more: 256 KB in the queue and 2 MB on the port (R386). -/
def State.hasRoom (s : State) (q n : Nat) : Bool := (s.eq q).bytes + n ≤ 262144 && s.portBytes (queuePort q) + n ≤ 2097152

/-- The rate of a sub-port in Mb/s. -/
def State.subRateOf (s : State) (sub : Nat) : Nat :=
  if sub < 16 then 800000 else subRate (0x10 + (sub - 16) / 4) (qMode s.queueMap (0x10 + (sub - 16) / 4))

/-- The time to send n bytes on a sub-port, in 1/100 ns. -/
def State.txTime (s : State) (sub n : Nat) : Nat := n * 800000 / s.subRateOf sub

/-- The wire length of a frame (R384): an access frame with 20 B of overhead, a Joravo frame with its link word, and 32 B of
SecTAG and ICV while MACsec protects the port (R319, R545). -/
def State.wireLen (s : State) (sub len : Nat) : Nat :=
  if 16 ≤ sub then len + 20 else len + 8 + (if s.flag F.macsec_active sub then 32 else 0)

/-- The gate list of a sub-port: its head and intervals. -/
def State.gateList (s : State) (sub : Nat) : Option (GEnt × List GEnt) :=
  let gs := s.gateEnts
  let port := if sub < 16 then sub else 0x10 + (sub - 16) / 4
  let lane := if sub < 16 then 0 else (sub - 16) % 4
  (gs.findIdx? (fun g => g.ty = 1 && g.port = port && g.lane = lane)).map
    (fun i => (gs.getD i ⟨0, 0, 0, 0, 0, 0, 0⟩, gIntervals gs i))

/-- Position in a gate cycle at an instant (R389). -/
def cyclePos (cycle phase t : Nat) : Nat := if cycle = 0 then 0 else (t + cycle - phase % cycle) % cycle

/-- The interval of a list that holds position x, with where it starts and ends. -/
def intervalAt : List GEnt → Nat → Nat → Nat → Option (Nat × GEnt × Nat)
  | [], _, _, _ => none
  | v :: r, i, at_, x => if x < at_ + v.a then some (i, v, at_ + v.a) else intervalAt r (i + 1) (at_ + v.a) x

/-- Index, open mask and end (as an offset in the cycle) of the interval of a sub-port now. -/
def State.intervalNow (s : State) (sub : Nat) : Option (Nat × Nat × Nat) :=
  (s.gateList sub).bind fun (h, iv) =>
    (intervalAt iv 0 0 (cyclePos h.a h.b s.clk.ns)).map (fun (i, v, e) => (i, v.b, e))

/-- Gate g of a sub-port is open now. -/
def State.gateOpen (s : State) (sub g : Nat) : Bool :=
  match s.intervalNow sub with
  | some (_, mask, _) => bit mask g
  | none => true

/-- The end of the run of intervals from the head of the list on in which gate g stays open; none if it never closes in them. -/
def closeIn (g : Nat) : List GEnt → Nat → Option Nat
  | [], _ => none
  | v :: r, at_ => if bit v.b g then closeIn g r (at_ + v.a) else some at_

/-- The instant in ns at which gate g of a sub-port, open now, next closes; none when it never does. -/
def State.closesAt (s : State) (sub g : Nat) : Option Nat :=
  match s.gateList sub, s.intervalNow sub with
  | some (h, iv), some (i, _, e) =>
    let rot := iv.drop (i + 1) ++ iv.take (i + 1)
    let t0 := s.clk.ns + (e - cyclePos h.a h.b s.clk.ns)
    closeIn g rot t0
  | _, _ => none

/-- What the shaper credit of a queue lies below its cap now, in 1/8000 B (R384). -/
def State.spentNow (s : State) (v : EgQueue) (i : QInfo) : Nat := v.spent - i.rate * (s.clk.up - v.at_)

/-- The instant the next frame of a sub-port would start, in 1/100 ns of network time: now, or when it is ready within this ns. -/
def State.startAt (s : State) (sub : Nat) : Nat :=
  100 * s.clk.ns + ((Tab.get SubSt.init s.egr.subs sub).freeAt - 100 * s.clk.up)

/-- The guard lets a frame of n bytes through gate g (R385). -/
def State.guardOk (s : State) (sub g n : Nat) : Bool :=
  match s.closesAt sub g with
  | some t => s.startAt sub + s.txTime sub (s.wireLen sub n) ≤ 100 * t
  | none => true

/-- Port p of the fabric. -/
def State.port (s : State) (p : Nat) : PortSt := Tab.get PortSt.init s.fab.ports p

/-- Replace a port. -/
def State.setPort (s : State) (p : Nat) (v : PortSt) : State :=
  { s with fab := { s.fab with ports := Tab.set PortSt.init s.fab.ports p v } }

/-- A Joravo port is up. -/
def State.jUp (s : State) (p : Nat) : Bool := p < 12 && s.rd F.portStatus_state p == 2

/-- Lane class of a Joravo frame. -/
def fClass (f : Bytes) : Nat := beAt f 0x13 1 % 4

/-- Credit units of a Joravo frame, its FCS included (R315, log entry 35). -/
def fUnits (f : Bytes) : Nat := cdiv (f.length + 4) 64

/-- A Joravo frame carries flags.rerouted. -/
def fRerouted (f : Bytes) : Bool := bit (beAt f 0xB 1) 1

/-- The port holds credits for a whole frame: a frame that is not rerouted leaves the 256 reserved units alone (R315). The replay
buffer of 1 MB has room for it (R316). Outside CANDIDATE, MEMBER and PROBATION the port carries no frame (R314). -/
def State.linkReady (s : State) (p : Nat) (f : Bytes) : Bool :=
  let v := s.port p
  let st := s.rd F.healthStatus_state
  s.jUp p && (st == 3 || st == 4 || st == 5) && fUnits f + (if fRerouted f then 0 else 256) ≤ v.credit.getD (fClass f) 0
    && sumNat (v.replay.map (fun e => e.2.length)) + f.length ≤ 1048576

/-- A sub-port can transmit: the Joravo port is up, or the access link is. -/
def State.subUp (s : State) (sub : Nat) : Bool :=
  if sub < 16 then s.jUp sub else bit (s.rd F.apStatus_linkUp ((sub - 16) / 4)) ((sub - 16) % 4)

/-- The handle a class-2 frame carries (Table 12.5), for the sharing of R370. -/
def groupOf (f : Bytes) : Nat := beAt f 0x20 2

/-- A round of deficit round-robin over (key, quantum, length of the head) from a key on (R383): the key served and the deficits. -/
def drrScan : List (Nat × Nat × Nat) → Tab Nat → Option (Nat × Tab Nat) × Tab Nat
  | [], d => (none, d)
  | (k, q, n) :: r, d =>
    let v := Tab.get 0 d k + q
    if n ≤ v then (some (k, Tab.set 0 d k (v - n)), d) else drrScan r (Tab.set 0 d k v)

/-- Rounds of deficit round-robin until a head is covered; fuel bounds the rounds. -/
def drrRounds : Nat → List (Nat × Nat × Nat) → Tab Nat → Option (Nat × Tab Nat)
  | 0, _, _ => none
  | f + 1, l, d =>
    match drrScan l d with
    | (some r, _) => some r
    | (none, d') => drrRounds f l d'

/-- The next key of deficit round-robin: the one whose turn it is while its deficit covers its head, else the next in turn. -/
def drrPick (l : List (Nat × Nat × Nat)) (d : Tab Nat) (cur : Nat) : Option (Nat × Tab Nat) :=
  match l.find? (fun e => e.1 + 1 = cur && e.2.2 ≤ Tab.get 0 d e.1) with
  | some (k, _, n) => some (k, Tab.set 0 d k (Tab.get 0 d k - n))
  | none => drrRounds 400 (l.filter (fun e => cur ≤ e.1) ++ l.filter (fun e => e.1 < cur)) d

/-- The group whose frame is the head of a class-2 queue, and the queue's group deficits with it served (R370). -/
def EgQueue.pickGroup (v : EgQueue) : Option (Nat × Tab Nat) :=
  let gs := (v.frames.map (fun f => groupOf f.bytes)).eraseDups
  let l := (sortBy (· ≤ ·) gs).map fun g =>
    (g, 4160, (((v.frames.find? (fun f => groupOf f.bytes = g)).map (·.len)).getD 0) + 8)
  drrPick l v.gdef v.gcur

/-- A queue that groups share (Table 13.1, index 512 + 24m + 17). -/
def sharedByGroups (q : Nat) : Bool := q < 24576 && 512 ≤ queueIdx q && (queueIdx q - 512) % 24 == 17

/-- The head frame of a queue. -/
def State.headOf (s : State) (q : Nat) : Option EgFrame :=
  let v := s.eq q
  if sharedByGroups q then
    match v.pickGroup with
    | some (g, _) => v.frames.find? (fun f => groupOf f.bytes = g)
    | none => none
  else v.frames.head?

/-- Queue q is eligible on its sub-port (R381), apart from the guard. -/
def State.eligibleButGuard (s : State) (sub q : Nat) : Bool :=
  match s.qInfo q, s.headOf q with
  | some i, some f =>
    (match i.gate with | some g => s.gateOpen sub g | none => true)
      && (i.rate == 0 || s.spentNow (s.eq q) i ≤ 8000 * i.burst)
      && (16 ≤ sub || s.linkReady sub f.bytes)
  | _, _ => false

/-- The guard's verdict on the head of queue q. -/
def State.guardPass (s : State) (sub q : Nat) : Bool :=
  match s.qInfo q, s.headOf q with
  | some i, some f => (match i.gate with | some g => s.guardOk sub g f.len | none => true)
  | _, _ => false

/-- A frame held by the guard counts once (R385). -/
def State.countHeld (s : State) (sub q : Nat) : State :=
  match s.headOf q with
  | some f =>
    if f.held || !s.eligibleButGuard sub q || s.guardPass sub q then s
    else
      let v := s.eq q
      (s.setEq q { v with frames := v.frames.map (fun g => if g = f then { g with held := true } else g) }).cnt
        F.egrGate_guardHolds sub
  | none => s

/-- The queues of a sub-port that hold frames, ascending. -/
def State.subQueues (s : State) (sub : Nat) : List Nat :=
  (s.egr.qs.filter (fun e => !e.2.frames.isEmpty && s.queueSub e.1 = sub)).map (·.1)

/-- The eligible queues of a sub-port (R381). -/
def State.eligible (s : State) (sub : Nat) : List Nat :=
  (s.subQueues sub).filter (fun q => s.eligibleButGuard sub q && s.guardPass sub q)

/-- The level of a queue. -/
def State.levelOf (s : State) (q : Nat) : Nat := ((s.qInfo q).map (·.level)).getD 5

/-- The queue that starts its head frame next on a sub-port (R382, R383), with the scheduler's state after it and the deficits. -/
def State.pickQueue (s : State) (sub : Nat) : Option (Nat × SubSt × Tab Nat) :=
  let b := Tab.get SubSt.init s.egr.subs sub
  let el := s.eligible sub
  match (List.range 4).find? (fun l => el.any (fun q => s.levelOf q = l)) with
  | some l =>
    let qs := el.filter (fun q => s.levelOf q = l)
    let last := Tab.get 0 b.last l
    ((qs.find? (fun q => last ≤ q)).or qs.head?).map (fun q => (q, { b with last := Tab.set 0 b.last l (q + 1) }, []))
  | none =>
    let qs := el.filter (fun q => s.levelOf q = 4)
    let d := qs.foldl (fun (d : Tab Nat) q => Tab.set 0 d q (s.eq q).deficit) []
    let l := qs.map (fun q => (q, 64 * ((s.qInfo q).map (·.weight)).getD 1, ((s.headOf q).map (·.len)).getD 0))
    (drrPick l d b.cur).map (fun (q, d') => (q, { b with cur := q + 1 }, d'))

/-- A frame leaves the front of its queue: shaper credit and byte count follow (R383, R384). -/
def State.takeFrame (s : State) (sub q : Nat) (f : EgFrame) : State :=
  let v := s.eq q
  let w := s.wireLen sub f.len
  let g := if sharedByGroups q then v.pickGroup else none
  let frames := v.frames.erase f
  let rate := ((s.qInfo q).map (·.rate)).getD 0
  let v := { v with
    frames := frames
    deficit := if frames.isEmpty then 0 else v.deficit
    spent := if rate = 0 then 0 else (v.spent - rate * (s.clk.up - v.at_)) + 8000 * w
    at_ := if rate = 0 then 0 else s.clk.up
    gdef := if frames.isEmpty then [] else (g.map (·.2)).getD v.gdef
    gcur := if frames.isEmpty then 0 else (g.map (·.1 + 1)).getD v.gcur }
  (s.setEq q v).inc F.egrQbytes_bytes q 0 w

/-- The link word of port p (Table 11.1), with the credits owed in the lowest class that is owed any, and the port after it. -/
def PortSt.word (v : PortSt) (ltype lseq : Nat) : Bytes × PortSt :=
  let c := ((List.range 4).find? (fun k => v.owed.getD k 0 ≠ 0)).getD 0
  let n := min (v.owed.getD c 0) 16383
  (toBe 8 (lseq % 2 ^ 16 * 2 ^ 48 + v.rxSeq % 2 ^ 16 * 2 ^ 32 + c * 2 ^ 30 + n * 2 ^ 16 + ltype * 2 ^ 8),
   { v with owed := v.owed.set c (v.owed.getD c 0 - n), room := v.room.set c (v.room.getD c 0 + n) })

/-- Port p sends a link word without a frame. -/
def State.sendWord (s : State) (p ltype : Nat) : State :=
  let (w, v) := (s.port p).word ltype (s.port p).txSeq
  (s.setPort p v).emit (.link p ltype w)

/-- Credits of a frame that leaves the receive buffer of port p are owed to its peer (R315). -/
def State.owe (s : State) (p : Nat) (f : Bytes) : State :=
  if 12 ≤ p then s
  else
    let v := s.port p
    s.setPort p { v with owed := v.owed.set (fClass f) (v.owed.getD (fClass f) 0 + fUnits f) }

/-- A protected frame takes the next packet number of its link; the key number advances before 0xC000_0000 is passed (R319, R545). -/
def State.nextPn (s : State) (p : Nat) : State :=
  if !s.flag F.macsec_active p then s
  else
    let v := s.port p
    if 0xC0000000 ≤ v.pn then
      let n := (s.rd F.macsec_keyNumber p + 1) % 2 ^ 32
      ((s.setPort p { v with pn := 1 }).wr F.macsec_keyNumber n p).wr F.macsec_an (n % 4) p
    else s.setPort p { v with pn := v.pn + 1 }

/-- A frame goes out on port p: it takes its lseq and its credits and stays in the replay buffer (R315, R316). -/
def State.linkSend (s : State) (p : Nat) (f : Bytes) : State :=
  let s := s.nextPn p
  let v := s.port p
  let (w, v') := v.word 0 v.txSeq
  let v' := { v' with
    txSeq := (v.txSeq + 1) % 2 ^ 16
    replay := v.replay ++ [(v.txSeq, f)]
    lackAt := if v.replay.isEmpty then s.clk.up else v.lackAt
    credit := v.credit.set (fClass f) (v.credit.getD (fClass f) 0 - fUnits f) }
  (s.setPort p v').emit (.link p 0 (w ++ f))

/-- The key of a stream: (device, mould) (R321). -/
def streamKey (dev m : Nat) : Nat := 64 * dev + m

/-- A class-0 frame of this device goes out: the time of its last transmission (R324). -/
def State.touchTx (s : State) (f : Bytes) : State :=
  let r := beAt f 0 4
  let k := streamKey (r / 2 ^ 22) (r / 64 % 64)
  let v := Tab.get TxStream.init s.fab.tx k
  let seq := beAt f 0xC 4
  if fClass f = 0 && r / 4096 % 1024 = s.rd F.fabTopo_devId && v.out.any (fun o => o.seq = seq) then
    let v' := { v with out := v.out.map (fun o => if o.seq = seq then { o with at_ := s.clk.up } else o) }
    { s with fab := { s.fab with tx := Tab.set TxStream.init s.fab.tx k v' } }
  else s

/-- The head frame of the picked queue starts on its sub-port. -/
def State.startFrame (s : State) (sub : Nat) : State :=
  let s := (s.subQueues sub).foldl (fun u q => u.countHeld sub q) s
  match s.pickQueue sub with
  | none => if sub < 12 && s.jUp sub then s.sendWord sub 2 else s
  | some (q, b, d) =>
    match s.headOf q with
    | none => s
    | some f =>
      let at_ := max b.freeAt (100 * s.clk.up)
      let b := { b with freeAt := at_ + s.txTime sub (s.wireLen sub f.len) }
      let s := { s with egr := { s.egr with subs := Tab.set SubSt.init s.egr.subs sub b } }
      let s := d.foldl (fun (u : State) e => u.setEq e.1 { u.eq e.1 with deficit := e.2 }) s
      let s := s.takeFrame sub q f
      if sub < 12 then ((s.linkSend sub f.bytes).owe f.inPort f.bytes).touchTx f.bytes
      else s.emit (.egress sub q f.bytes)

/-- EGRESS_FRAME_START (R382): the sub-port is ready to start a frame; with none eligible a Joravo port sends an idle link word
with its lack and credits (log entry 36). -/
def execEgressFrameStart (dt sub : Nat) (s : State) : Out := s.whenLive fun s =>
  let s := s.pass dt
  if 48 ≤ sub || !s.subUp sub || 100 * s.clk.up + 99 < (Tab.get SubSt.init s.egr.subs sub).freeAt then s else s.startFrame sub

/-- GATE_INTERVAL_START (R389): the gates of a sub-port are those of the interval that holds this instant. -/
def execGateIntervalStart (dt sub : Nat) (s : State) : Out := s.whenLive fun s =>
  let s := s.pass dt
  if 48 ≤ sub then s
  else
    match s.intervalNow sub with
    | some (i, mask, _) => ((s.wr F.egrGate_openMask mask sub).wr F.egrGate_interval i sub).wr F.egrGate_list 1 sub
    | none => ((s.wr F.egrGate_openMask 0xFF sub).wr F.egrGate_interval 0 sub).wr F.egrGate_list 0 sub

/-- Every queued frame of a queue that the predicate names is discarded and counted (R387). -/
def State.discard (s : State) (q : Nat) (p : EgFrame → Bool) : State :=
  let v := s.eq q
  let gone := v.frames.filter p
  if gone.isEmpty then s
  else
    let s := gone.foldl (fun u f => u.owe f.inPort f.bytes) s
    let keep := v.frames.filter (fun f => !p f)
    (s.setEq q { v with frames := keep, deficit := if keep.isEmpty then 0 else v.deficit }).cnt F.egrQstat_discarded q 0 gone.length

/-- The frames of mould m leave its Joravo mould queues and the access queues it owns (R387). -/
def State.discardMould (s : State) (m : Nat) : State :=
  s.egr.qs.foldl (fun u e =>
    if ((u.qInfo e.1).bind (·.owner)) = some m && (24576 ≤ e.1 || 512 ≤ queueIdx e.1) then u.discard e.1 (fun _ => true) else u) s

/-- ACCESS_LINK_DOWN (R387): the frames queued on the sub-port are discarded. -/
def execAccessLinkDown (sub : Nat) (s : State) : Out := s.whenLive fun s =>
  if sub < 16 || 48 ≤ sub then s
  else
    let a := (sub - 16) / 4
    let s := s.wr F.apStatus_linkUp (setBit (s.rd F.apStatus_linkUp a) ((sub - 16) % 4) false) a
    (s.subQueues sub).foldl (fun u q => u.discard q (fun _ => true)) s

/-- ACCESS_LINK_UP (R379, R440): of a sub-port that the port's breakout mode has. -/
def execAccessLinkUp (sub : Nat) (s : State) : Out := s.whenLive fun s =>
  if sub < 16 || 48 ≤ sub then s
  else
    let a := (sub - 16) / 4
    if (sub - 16) % 4 < laneCount (qMode s.queueMap (0x10 + a))
    then s.wr F.apStatus_linkUp (setBit (s.rd F.apStatus_linkUp a) ((sub - 16) % 4) true) a else s

end Sys2Proof.Machine
end

