-- ==== Sys2Proof/Machine/Route.lean ====
section
/-! DEFINITION. Sys2Proof/Machine/Route.lean: Joravo frames (Table 11.2), routing by dimension order with its detours (R310 to
R313), and how a frame reaches a queue of its port (R345, R377). -/
namespace Sys2Proof.Machine

/-- Destination device of a frame. -/
def fDst (f : Bytes) : Nat := beAt f 0 4 / 2 ^ 22

/-- Source device of a frame. -/
def fSrc (f : Bytes) : Nat := beAt f 0 4 / 4096 % 1024

/-- Mould of a frame. -/
def fMould (f : Bytes) : Nat := beAt f 0 4 / 64 % 64

/-- Epoch of a frame. -/
def fEpoch (f : Bytes) : Nat := beAt f 4 4

/-- Heat of a frame. -/
def fHeat (f : Bytes) : Nat := beAt f 8 2

/-- Opcode of a frame. -/
def fOp (f : Bytes) : Nat := beAt f 0xA 1

/-- Flags of a frame. -/
def fFlags (f : Bytes) : Nat := beAt f 0xB 1

/-- Sequence of a frame. -/
def fSeq (f : Bytes) : Nat := beAt f 0xC 4

/-- Payload of a frame. -/
def fPay (f : Bytes) : Bytes := f.drop 32

/-- Status of a frame. -/
def fStatus (f : Bytes) : Nat := beAt f 0x18 2

/-- The first 28 bytes of a header with its CRC (Table 11.2). -/
def withHcrc (h : Bytes) : Bytes := h ++ toBe 4 (crc32c h)

/-- A frame (Table 11.2). -/
def mkFrame (dst src m epoch heat op flags seq cls stamp status : Nat) (pay : Bytes) : Bytes :=
  withHcrc (toBe 4 (dst * 2 ^ 22 + src * 2 ^ 12 + m * 2 ^ 6 + 16) ++ toBe 4 epoch ++ toBe 2 heat ++ toBe 1 op ++ toBe 1 flags
    ++ toBe 4 seq ++ toBe 2 pay.length ++ toBe 1 63 ++ toBe 1 cls ++ toBe 4 stamp ++ toBe 2 status ++ toBe 2 0) ++ pay

/-- A frame with one header byte replaced and its header CRC renewed. -/
def setHdr (f : Bytes) (off v : Nat) : Bytes := withHcrc ((f.take 28).set off (BitVec.ofNat 8 v)) ++ fPay f

/-- A frame's flags with bit i set to b. -/
def setFlagBit (f : Bytes) (i : Nat) (b : Bool) : Bytes := setHdr f 0xB (setBit (fFlags f) i b)

/-- Size of dimension k (0 X, 1 Y, 2 Z). -/
def State.dimSize (s : State) (k : Nat) : Nat :=
  let (x, y, z) := s.dims
  if k = 0 then x else if k = 1 then y else z

/-- Coordinate of a device in dimension k (R305). -/
def State.coord (s : State) (dev k : Nat) : Nat :=
  let (x, y, z) := s.dims
  if k = 0 then dev % x else if k = 1 then dev / x % y else dev / (x * y) % z

/-- The first port of a direction of dimension k (R306): plus or minus. -/
def dirPort (k : Nat) (plus : Bool) : Nat := 4 * k + (if plus then 0 else 2)

/-- An up port of a direction, the one that parity prefers first (R310); none when both are down. -/
def State.upIn (s : State) (k : Nat) (plus : Bool) (parity : Nat) : Option Nat :=
  let b := dirPort k plus
  if s.jUp (b + parity) then some (b + parity) else if s.jUp (b + 1 - parity) then some (b + 1 - parity) else none

/-- Where a hop sends a frame: to the device itself, on a port (with flags.rerouted, and whether it is a detour), or nowhere. -/
inductive Hop where
  | here
  | port (p : Nat) (rerouted detour : Bool)
  | unreachable
  deriving DecidableEq, Repr

/-- The next hop passes the destination's coordinate (R313). -/
def State.overshoots (s : State) (p k dst : Nat) (plus : Bool) : Bool :=
  let n := s.dimSize k
  let own := s.coord s.devId k
  let peer := s.coord (s.rd F.portStatus_peerId p) k
  let d := s.coord dst k
  if plus then decide ((d + n - own) % n < (peer + n - own) % n) else decide ((own + n - d) % n < (own + n - peer) % n)

/-- The route of a frame at this device (R310, R311, R313): it came in on `inPort` (12 when made here). -/
def State.route (s : State) (src dst inPort : Nat) (rerouted : Bool) : Hop :=
  match (List.range 3).find? (fun k => s.coord s.devId k ≠ s.coord dst k) with
  | none => if dst = s.devId then .here else .unreachable
  | some k =>
    let n := s.dimSize k
    let d := (s.coord dst k + n - s.coord s.devId k) % n
    let parity := (src ^^^ dst) % 2
    let kept := rerouted && inPort / 4 == k
    let plus := if kept then inPort % 4 / 2 == 1 else decide (2 * d ≤ n)
    let go := fun (p : Nat) (pl re de : Bool) => if s.overshoots p k dst pl then Hop.unreachable else .port p re de
    let aside :=
      let k' := (k + 1) % 3
      match (s.upIn k' true parity).or (s.upIn k' false parity) with
      | some p => Hop.port p false true
      | none => .unreachable
    match s.upIn k plus parity with
    | some p => go p plus kept kept
    | none =>
      if kept then aside
      else
        match s.upIn k (!plus) parity with
        | some p => go p (!plus) true true
        | none => aside

/-- The Joravo queue index of a frame (Table 13.1): made here or forwarded, by class, mould and issuing context. -/
def jQueue (made : Bool) (f : Bytes) (ctx : Nat) : Nat :=
  let c := fClass f
  if c = 3 then 0
  else if !made then (if c = 0 then 1 else if c = 1 then 2 else 3)
  else 512 + 24 * fMould f + (if c = 0 then ctx % 16 else if c = 1 then 16 else 17)

/-- A detour of a route is counted, and logged when the route first uses it (R311). -/
def State.noteDetour (s : State) (dst : Nat) (detour : Bool) : State :=
  if detour then
    let s := s.cnt F.fabStat2_rerouted
    if s.fab.detours.contains dst then s
    else { s with fab := { s.fab with detours := dst :: s.fab.detours } }.logFree 0x1103 0x0003 0xFF
  else { s with fab := { s.fab with detours := s.fab.detours.filter (· ≠ dst) } }

/-- A frame made here (`inPort` 12) or received on a port goes to its route (R310, R313, R377): the queue of its port, the device
itself, or nowhere, counted in FAB_STAT2.unreachable. -/
def State.dispatchFrame (s : State) (f : Bytes) (inPort ctx : Nat) : State :=
  match s.route (fSrc f) (fDst f) inPort (fRerouted f) with
  | .here => { s with fab := { s.fab with loopQ := s.fab.loopQ ++ [f] } }.owe inPort f
  | .unreachable => (s.owe inPort f).cnt F.fabStat2_unreachable
  | .port p re de =>
    let g := if fRerouted f = re then f else setFlagBit f 1 re
    let s := s.noteDetour (fDst f) de
    s.enqueue (queueNo p (jQueue (fSrc f = s.devId) g ctx)) ⟨g, g.length + 4, inPort, fMould g, false, 0, 0⟩

/-- Short time now (R396). -/
def State.short (s : State) : Nat := s.clk.ns % 2 ^ 32

/-- A frame of this device to dst, with the own epoch and the short time of its first enqueue. -/
def State.newFrame (s : State) (dst m heat op flags seq cls status : Nat) (pay : Bytes) : Bytes :=
  mkFrame dst s.devId m (s.rd F.fabEpoch_value) heat op flags seq cls s.short status pay

/-- This device makes a frame and sends it. -/
def State.sendNew (s : State) (dst m heat op flags seq cls status ctx : Nat) (pay : Bytes) : State :=
  s.dispatchFrame (s.newFrame dst m heat op flags seq cls status pay) 12 ctx

/-- Context of a class-0 frame made here: from its request header (Table 11.4). -/
def frameCtx (f : Bytes) : Nat := beAt f 0x26 1 % 16

/-- The frames of a port that has gone down go to their new routes (R345): those in its queues as they are, those in its replay
buffer with flags.resend. -/
def State.rerouteFrom (s : State) (p : Nat) : State :=
  let qs := s.egr.qs.filter (fun e => e.1 / 2048 = p && e.1 < 24576 && !e.2.frames.isEmpty)
  let frames := qs.flatMap (fun e => e.2.frames)
  let s := qs.foldl (fun (u : State) e => u.setEq e.1 { e.2 with frames := [], deficit := 0, gdef := [], gcur := 0 }) s
  let old := (s.port p).replay.map (·.2)
  let s := s.setPort p { s.port p with replay := [], tries := 0 }
  let s := frames.foldl (fun (u : State) g => u.dispatchFrame g.bytes g.inPort (frameCtx g.bytes)) s
  old.foldl (fun (u : State) f => u.dispatchFrame (setFlagBit f 0 true) 12 (frameCtx f)) s

/-- The device of an address exists in FAB_TOPO and the current membership holds it (R330, R566). -/
def State.isMember (s : State) (d : Nat) : Bool := bit (leAt s.health.lastCert 0x90 128) d

/-- The device is MEMBER or PROBATION. -/
def State.inPool (s : State) : Bool := s.rd F.healthStatus_state == 4 || s.rd F.healthStatus_state == 5

end Sys2Proof.Machine
end

