-- ==== Sys2Proof/Machine/Time.lean ====
section
/-! DEFINITION. Sys2Proof/Machine/Time.lean: the time unit: sources and states, the servo, steps and slews, PTP, SyncE, fabric time
transfer, captures, triggers and PPS_OUT (R392 to R410). -/
namespace Sys2Proof.Machine

/-- The nominal increment (R392). -/
def nominalIncr : Nat := 0xCCCCCCCCCCCD

/-- A radio mould is RUNNING (R400). -/
def State.radioRuns (s : State) : Bool := s.moulds.any (fun e => s.isRadio e.1 && s.mstate e.1 == 3)

/-- The part of the last second, as (start, increment) pairs newest first. -/
def State.setIncr (s : State) (v : Nat) : State :=
  let keep := s.tim.hist.takeWhile (fun e => s.clk.up < e.1 + 1000000000)
  let old := (s.tim.hist.drop keep.length).take 1
  let v : Nat := v % 2 ^ 48
  let ppm : Int := ((v : Int) - (nominalIncr : Int)) * 64000000 / (nominalIncr : Int)
  let s := { s with tim := { s.tim with hist := (s.clk.up, v) :: (keep ++ old) } }
  (s.wr F.timeIncr_incr v).wr F.timeStatus_freqOffset (ofInt 16 (satInt 16 ppm))

/-- The sum of increment times ns from `lo` to `hi` over a history, newest first. -/
def incrSum : List (Nat × Nat) → Nat → Nat → Nat
  | [], _, _ => 0
  | (t, v) :: r, lo, hi => if t ≤ lo then v * (hi - lo) else v * (hi - t) + incrSum r lo t

/-- The increment averaged over the last 1 s (R399); the present one when nothing is recorded. -/
def State.meanIncr (s : State) : Nat :=
  let start := match s.tim.hist.getLast? with
    | some e => max e.1 (s.clk.up - 1000000000)
    | none => s.clk.up
  if start < s.clk.up then incrSum s.tim.hist start s.clk.up / (s.clk.up - start) else s.rd F.timeIncr_incr

/-- The time unit changes state (Table 13.4), logged with the old and new state (R399). -/
def State.timeState (s : State) (n : Nat) : State :=
  let old := s.rd F.timeStatus_state
  if old = n then s
  else
    let hold := if n = 3 then s.clk.up + 1 else if n = 1 then s.tim.holdAt else 0
    let lock := if n = 0 || n = 2 then s.clk.ns else s.tim.lockNs
    ({ s with tim := { s.tim with holdAt := hold, lockNs := lock } }.wr F.timeStatus_state n).logWith 0x1301 0x0080 0xFF (old + n * 2 ^ 16)

/-- The source is lost: HOLDOVER with the mean increment (R399). -/
def State.holdover (s : State) : State :=
  if s.rd F.timeStatus_state = 2 then
    let v := s.meanIncr
    let s := (s.timeState 3).setIncr v
    { s with tim := { s.tim with good := 0, offs := [] } }
  else s

/-- Trigger pins whose next edge now lies at or before the time are disarmed (R400). -/
def State.missTriggers (s : State) : State :=
  (List.range 4).foldl (fun u c =>
    if u.flag F.timeTrigCfg_armed c && Tab.get 0 u.tim.trigAt c ≤ u.clk.ns then
      ((u.wr F.timeTrigCfg_armed 0 c).wr F.timeTrigCfg_missed 1 c).logWith 0x1307 0x0080 0xFF c
    else u) s

/-- The time steps to a new value (R400), logged with the signed size of the step. -/
def State.stepTime (s : State) (ns frac : Nat) : State :=
  let by_ : Int := (ns : Int) - s.clk.ns
  let s := { s with clk := { s.clk with ns := ns % 2 ^ 64, frac := frac % 2 ^ 32, hid := 0 } }
  (s.logWith 0x1302 0x0080 0xFF (ofInt 64 by_)).missTriggers

/-- The servo steers: a free increment within ±500 ppm of nominal (R392), and within ±10 ppm of the present one while a radio mould
is RUNNING (R400); core 2 must run (R477). -/
def State.steer (s : State) : State :=
  let cur := s.rd F.timeIncr_incr
  let lo := nominalIncr - nominalIncr / 2000
  let hi := nominalIncr + nominalIncr / 2000
  let lo := if s.radioRuns then max lo (cur - cur / 100000) else lo
  let hi := if s.radioRuns then min hi (cur + cur / 100000) else hi
  let (v, s) := s.fresh 48
  s.setIncr (lo + v % (hi + 1 - lo))

/-- A valid measurement of the selected source arrives with an offset in ns (R399, R400, Table 13.4). -/
def State.measure (s : State) (off : Int) : State :=
  let s := { s with tim := { s.tim with measAt := s.clk.up } }
  let s := if s.rd F.timeStatus_state = 3 then { s.timeState 1 with tim := { s.tim with good := 0 } } else s
  let near := decide (off.natAbs < 100)
  let s := { s with tim := { s.tim with good := if near then s.tim.good + 1 else 0 } }
  let s := s.wr F.timeStatus_offsetNs (ofInt 32 (satInt 32 off))
  let s := if s.rd F.timeStatus_state = 1 && 16 ≤ s.tim.good then s.timeState 2 else s
  if !s.coreUp 2 then s
  else if 1000 < off.natAbs && !s.radioRuns then s.stepTime ((s.clk.ns : Int) - off).toNat s.clk.frac
  else s.steer

/-- The time in units of 2⁻³² ns. -/
def State.stamp (s : State) : Nat := s.clk.ns * 2 ^ 32 + s.clk.frac

/-- TIME_NOW_NS_READ (R393). -/
def State.readNow (s : State) : State := s.wr F.timeNowFrac_value s.clk.frac

/-- TIME_NOW_NS_READ (R393). -/
def execTimeNowNsRead (dt : Nat) (s : State) : Out := s.whenLive fun s => (s.pass dt).readNow

/-- A write of TIME_INCR takes effect only while src is 0 (R392). -/
def State.writeIncr (s : State) (v : Nat) : State := if s.rd F.timeCtrl_src = 0 then s.setIncr v else s

/-- TIME_INCR_WRITE (R392). -/
def execTimeIncrWrite (value : Nat) (s : State) : Out := s.whenLive fun s => s.writeIncr value

/-- A phase source is available (R398). -/
def State.srcAvailable (s : State) (src ptp : Nat) : Bool :=
  if src = 1 then ptp < 32 && s.subUp (16 + ptp)
  else if src = 2 then s.inPool || s.rd F.healthStatus_state == 3
  else true

/-- A write of TIME_CTRL (R398): refused with E_TIME_SOURCE when its source is not available. The answer is the refusal code. -/
def State.writeTimeCtrl (s : State) (v : Nat) : Nat × State :=
  let src := bitsOf v 0 2
  if s.srcAvailable src (bitsOf v 2 5) then
    let old := s.rd F.timeCtrl_src
    let oldPtp := s.rd F.timeCtrl_ptpPort
    let wasEec := s.flag F.timeCtrl_synceEn
    let s := s.setReg .timeCtrl 0 0 (v % 2 ^ 18)
    let s := if src = 0 then { s with tim := { s.tim with lockNs := s.clk.ns } } else s
    let s := if s.flag F.timeCtrl_synceEn then
        (if wasEec then s else { s with tim := { s.tim with eec := 1, esmcAt := s.clk.up } })
      else { s with tim := { s.tim with eec := 0 } }
    if src = old && (src ≠ 1 || oldPtp = bitsOf v 2 5) then (0, s)
    else
      let s := { s with tim := { s.tim with good := 0, offs := [], measAt := s.clk.up, upstream := 0 } }
      (0, s.timeState (if src = 0 then 0 else 1))
  else (E.timeSource, s)

/-- TIME_CTRL_WRITE (R398, R403). -/
def execTimeCtrlWrite (value : Nat) (s : State) : Out := s.whenLive fun s => (s.writeTimeCtrl value).2

/-- An access sub-port carries a radio carrier (R574). -/
def State.isRadioSub (s : State) (sub : Nat) : Bool :=
  (List.range 128).any (fun c => s.flag F.radioCar_bound c && s.rd F.radioCar_port c + 16 == sub)

/-- PTP_MESSAGE_RX (R401, R402, R573): a message of a type on an access sub-port; `ok` is false for a malformed one. An event message
(types 0 to 3) is stamped with its sequenceId. Where the servo takes a measurement from it on the selected port, its offset. -/
def execPtpMessageRx (dt sub ty seqId : Nat) (ok : Bool) (meas : Option Int) (s : State) : Out := s.whenLive fun s =>
  let s := s.pass dt
  if sub < 16 || 48 ≤ sub || !s.subUp sub then s
  else if !ok then (if s.isRadioSub sub then s.quarNote sub else ((s.quarNote sub).quarHit sub 100000).2)
  else
    let s := if ty < 4 then
        { s with tim := { s.tim with rxStamps := s.tim.rxStamps ++ [(sub, seqId % 2 ^ 16, s.clk.ns, s.clk.frac)] } } else s
    match meas with
    | some off => if s.rd F.timeCtrl_src = 1 && s.rd F.timeCtrl_ptpPort + 16 = sub then s.measure off else s
    | none => s

/-- PTP_MESSAGE_TX (R402): a message goes to the sub-port's PTP queue and the stamp of an event message is recorded. -/
def execPtpMessageTx (dt sub ty seqId : Nat) (msg : Bytes) (s : State) : Out := s.whenLive fun s =>
  let s := s.pass dt
  if sub < 16 || 48 ≤ sub || !s.subUp sub || 256 < msg.length || !s.coreUp 2 then s
  else
    let s := s.enqueue (queueNo (0x10 + (sub - 16) / 4) (4 * ((sub - 16) % 4))) ⟨msg, msg.length, 12, 255, false, 0, 0⟩
    if ty < 4 then { s with tim := { s.tim with txStamps := s.tim.txStamps ++ [(sub, seqId % 2 ^ 16, s.clk.ns, s.clk.frac)] } } else s

/-- ESMC_RX (R403): a message on the SyncE lane renews its quality. -/
def execEsmcRx (dt sub : Nat) (s : State) : Out := s.whenLive fun s =>
  let s := s.pass dt
  if s.flag F.timeCtrl_synceEn && s.rd F.timeCtrl_synceLane + 16 = sub && s.subUp sub then
    { s with tim := { s.tim with esmcAt := s.clk.up, eec := 1 } }
  else s

/-- ESMC_TX (R403): onto the ESMC queue of a sub-port. -/
def execEsmcTx (sub : Nat) (msg : Bytes) (s : State) : Out := s.whenLive fun s =>
  if sub < 16 || 48 ≤ sub || !s.subUp sub || 256 < msg.length || !s.coreUp 2 then s
  else s.enqueue (queueNo (0x10 + (sub - 16) / 4) (4 * ((sub - 16) % 4) + 1)) ⟨msg, msg.length, 12, 255, false, 0, 0⟩

/-- ESMC_TIMEOUT (R573): no ESMC for 5 s on the SyncE lane. -/
def execEsmcTimeout (dt : Nat) (s : State) : Out := s.whenLive fun s =>
  let s := s.pass dt
  if s.flag F.timeCtrl_synceEn && s.tim.esmcAt + 5000000000 ≤ s.clk.up then s.eecHoldover else s

/-- Without a valid measurement this long, in ns, the source is lost (Table 13.4). -/
def sourceLimit (src : Nat) : Nat := if src = 1 then 3000000000 else if src = 2 then 100000 else 2000000000

/-- TIME_SOURCE_TIMEOUT (R399). -/
def execTimeSourceTimeout (dt : Nat) (s : State) : Out := s.whenLive fun s =>
  let s := s.pass dt
  let src := s.rd F.timeCtrl_src
  if src ≠ 0 && s.tim.measAt + sourceLimit src ≤ s.clk.up then s.holdover else s

/-- The device is the fabric root (R405). -/
def State.isRoot (s : State) : Bool := s.rd F.timeRoot_rootId == s.devId && s.rd F.timeCtrl_src != 2

/-- The upstream port: the one a frame to the root would take (R405). -/
def State.upstreamPort (s : State) : Option Nat :=
  match s.route s.devId (s.rd F.timeRoot_rootId) 12 false with
  | .port p _ _ => some p
  | _ => none

/-- TIME_WORD_TX (R404): every up port sends its time word (Table 13.5). -/
def execTimeWordTx (dt p : Nat) (s : State) : Out := s.whenLive fun s =>
  let s := s.pass dt
  if !s.jUp p then s
  else
    let v := s.port p
    let sync := s.isRoot || (s.rd F.timeCtrl_src == 2 && s.rd F.timeStatus_state == 2)
    let hops := if s.isRoot then 0 else if sync then s.rd F.timeStatus_hops else 0xFF
    let seq := (v.twSeq + 1) % 2 ^ 16
    let b := toBe 2 seq ++ toBe 2 v.twEcho ++ toBe 1 (ofBool sync) ++ toBe 1 hops ++ toBe 2 (s.rd F.timeRoot_rootId)
      ++ toBe 8 s.clk.ns ++ toBe 4 s.clk.frac ++ toBe 12 v.twRx ++ toBe 4 0
    let (w, v') := v.word 3 v.txSeq
    let s := s.setPort p { v' with twSeq := seq, twSent := ((seq, s.stamp) :: v'.twSent).take 64 }
    s.emit (.link p 3 (w ++ b ++ toBe 4 (crc32c b)))

/-- The offset of a time word in ns (R406): t1 the local send time of the echoed word, a the port's asymmetry in ps. -/
def wordOffset (t1 t2 t3 t4 : Nat) (asym : Int) : Int :=
  let delay : Int := (((t4 : Int) - t1) - ((t3 : Int) - t2)) / 2
  ((t4 : Int) - delay - asym * 2 ^ 32 / 1000 - t3) / 2 ^ 32

/-- An accepted word's offset joins the 16 whose mean the servo drives to 0 (R406). -/
def State.takeOffset (s : State) (off : Int) : State :=
  let l := s.tim.offs ++ [off]
  if l.length < 16 then
    let s := { s with tim := { s.tim with offs := l, measAt := s.clk.up } }
    if s.rd F.timeStatus_state = 3 then s.timeState 1 else s
  else { s with tim := { s.tim with offs := [] } }.measure (l.foldl (· + ·) 0 / 16)

/-- TIME_WORD_RX (R404 to R406): a block of 40 bytes received on port p, stamped now. -/
def execTimeWordRx (dt p : Nat) (b : Bytes) (s : State) : Out := s.whenLive fun s =>
  let s := s.pass dt
  if !s.jUp p then s
  else if b.length ≠ 40 || beAt b 0x24 4 ≠ crc32c (b.take 0x24) then s.cnt F.timeFab_badWords
  else
    let v := s.port p
    let s := s.setPort p { v with twEcho := beAt b 0 2, twRx := s.stamp }
    if s.rd F.timeCtrl_src ≠ 2 then s
    else
      let hops := beAt b 5 1
      let s := { s with tim := { s.tim with upstream := (s.upstreamPort.map (· + 1)).getD 0 } }
      if s.tim.upstream = p + 1 && bitsOf (beAt b 6 2) 0 10 = s.rd F.timeRoot_rootId && bit (beAt b 4 1) 0 && hops < 63 then
        let s := s.wr F.timeStatus_hops (hops + 1)
        match v.twSent.find? (fun e => e.1 = beAt b 2 2) with
        | some (_, t1) => s.takeOffset (wordOffset t1 (beAt b 0x14 12) (beAt b 8 12) s.stamp (sext 32 (s.rd F.timePortAsym_asymPs p)))
        | none => s
      else s.cnt F.timeFab_ignored

/-- The upstream port of the fabric source has gone down (R405): another is selected and the unit enters HOLDOVER. -/
def State.upstreamLost (s : State) (p : Nat) : State :=
  if s.rd F.timeCtrl_src = 2 && s.tim.upstream = p + 1 then
    { s with tim := { s.tim with upstream := (s.upstreamPort.map (· + 1)).getD 0 } }.holdover
  else s

/-- A pin edge is stamped into its FIFO, or lost (R408, Table 19.10): one less than 1 µs after the one before may be lost. -/
def State.stampPin (s : State) (c : Nat) : State :=
  let early := s.tim.edges.any (fun e => e.1 = c && s.clk.up < e.2 + 1000)
  let s := { s with tim := { s.tim with edges := Tab.put s.tim.edges c s.clk.up } }
  let (lost, s) := if early then s.fresh 1 else (0, s)
  let l := Tab.get [] s.tim.fifo c
  if lost = 1 then s
  else if 16 ≤ l.length then (s.wr F.timeCapFrac_overflow 1 c).logWith 0x1304 0x0080 0xFF c
  else { s with tim := { s.tim with fifo := Tab.set [] s.tim.fifo c (l ++ [(s.clk.ns, s.clk.frac)]) } }

/-- TS_CAP_EDGE (R408): a rising edge of pin c, 0 to 3. -/
def execTsCapEdge (dt c : Nat) (s : State) : Out := s.whenLive fun s =>
  let s := s.pass dt
  if c < 4 then s.stampPin c else s

/-- PPS_IN_EDGE (R408): stamped as pin 4; a measurement of source 3, whose edges mark whole seconds. -/
def execPpsInEdge (dt : Nat) (s : State) : Out := s.whenLive fun s =>
  let s := (s.pass dt).stampPin 4
  if s.rd F.timeCtrl_src = 3 then
    let r := s.clk.ns % 1000000000
    s.measure (if r < 500000000 then (r : Int) else (r : Int) - 1000000000)
  else s

/-- A read of TIME_CAP_NS_c returns and removes the oldest stamp (R408, Table 13.17); an empty FIFO gives 0. -/
def State.readCap (s : State) (c : Nat) : Nat × State :=
  match Tab.get [] s.tim.fifo c with
  | (n, f) :: r => (n, { s with tim := { s.tim with fifo := Tab.set [] s.tim.fifo c r } }.wr F.timeCapFrac_frac f c)
  | [] => (0, s)

/-- TIME_CAP_NS_READ (R408). -/
def execTimeCapNsRead (c : Nat) (s : State) : Out := s.whenLive fun s => if c < 5 then (s.readCap c).2 else s

/-- A write of TIME_TRIG_CFG_c (R409): its fields, and with arm set the checks in their order. -/
def State.writeTrig (s : State) (c v : Nat) : State :=
  let period := bitsOf v 0 32
  let width := bitsOf v 32 20
  let s := (s.wr F.timeTrigCfg_periodNs period c).wr F.timeTrigCfg_widthNs width c
  let s := if bit v 54 then s.wr F.timeTrigCfg_missed 0 c else s
  let s := if bit v 55 then s.wr F.timeTrigCfg_refused 0 c else s
  if !bit v 52 then s
  else
    let start := s.rd F.timeTrigStart_startNs c
    let late := decide (sext 32 (start % 2 ^ 32 + 2 ^ 32 - s.short) ≤ 0)
    let code := if width < 10 || 1000000 < width || (period ≠ 0 && period ≤ width) then E.timeTrig
      else if late then E.timePast else 0
    if code = 0 then
      let s := (s.wr F.timeTrigCfg_armed 1 c).wr F.timeTrigCfg_refused 0 c
      { s with tim := { s.tim with trigAt := Tab.set 0 s.tim.trigAt c start } }
    else ((s.wr F.timeTrigCfg_armed 0 c).wr F.timeTrigCfg_refused 1 c).logWith 0x1308 0x0080 0xFF (code + c * 2 ^ 16)

/-- TRIG_ARM (R409): a write of TIME_TRIG_CFG_c. -/
def execTrigArm (c value : Nat) (s : State) : Out := s.whenLive fun s => if c < 4 then s.writeTrig c value else s

/-- TRIG_EDGE (R409): an armed pin's pulse at its instant, and every period after. -/
def execTrigEdge (dt c : Nat) (s : State) : Out := s.whenLive fun s =>
  let s := s.pass dt
  let at_ := Tab.get 0 s.tim.trigAt c
  if 4 ≤ c || !s.flag F.timeTrigCfg_armed c || s.clk.ns < at_ then s
  else
    let s := s.emit (.pulse c at_ (s.rd F.timeTrigCfg_widthNs c))
    let period := s.rd F.timeTrigCfg_periodNs c
    if period = 0 then s.wr F.timeTrigCfg_armed 0 c
    else { s with tim := { s.tim with trigAt := Tab.set 0 s.tim.trigAt c (at_ + period) } }

/-- PPS_OUT_PULSE (R410): at a whole second, which the last two ticks at most have counted past; pin 4 of the pulses. -/
def execPpsOutPulse (dt : Nat) (s : State) : Out := s.whenLive fun s =>
  let s := s.pass dt
  let st := s.rd F.timeStatus_state
  if s.clk.ns % 1000000000 < 2 && (st = 2 || st = 3 || s.flag F.timeCtrl_ppsFree) then
    s.emit (.pulse 4 (s.clk.ns / 1000000000 * 1000000000) (1000 * max 1 (s.rd F.ppsCfg_widthUs)))
  else s

/-- TIME_SET (R400): ns (8 B), fraction (4 B). -/
def execTimeSet (s : State) : Out := s.takeCmd 0x0048 (fun _ => true) fun r s =>
  s.bodyOk r (r.body.length == 12) fun s =>
    if s.radioRuns then s.answer r E.timeRadio else (s.stepTime (leAt r.body 0 8) (leAt r.body 8 4)).answer r 0

/-- PTP_CONFIG (R401): the port data sets and the profile. -/
def execPtpConfig (s : State) : Out := s.takeCmd 0x0049 (fun _ => true) fun r s =>
  { s with tim := { s.tim with ptp := r.body } }.answer r 0

/-- PTP_STATUS (R401): the port data sets. -/
def execPtpStatus (s : State) : Out := s.takeCmd 0x004A (fun _ => true) fun r s =>
  s.bodyOk r r.body.isEmpty fun s => s.answer r 0 0 s.tim.ptp

end Sys2Proof.Machine
end

