-- ==== Sys2Proof/Machine/Link.lean ====
section
/-! DEFINITION. Sys2Proof/Machine/Link.lean: Joravo ports and their link layer (R304 to R319, R345, R544, R545), the epoch a peer
shows (R570), and the training of CXL links (R290 to R293, R546). -/
namespace Sys2Proof.Machine

/-- The security policy in effect (R542): the latest record of type 0x0030; without one every field is 0 but debug_max, which is 1. -/
def State.policy (s : State) : Bytes :=
  match s.latest 0x30 0 with
  | some r => r.body
  | none => [0#8, 1#8] ++ List.replicate 270 0#8

/-- Joravo port p requires MACsec. -/
def State.needsMacsec (s : State) (p : Nat) : Bool := bit (leAt s.policy 2 2) p

/-- CXL device k requires IDE. -/
def State.needsIde (s : State) (k : Nat) : Bool := bit (leAt s.policy 4 1) k

/-- The dimension a port faces (R306). -/
def portDim (p : Nat) : Nat := p / 4

/-- A membership frame to the peer of a port goes out on that port (R571): lane class 3, heat 0. -/
def State.sendToPeer (s : State) (p op seq : Nat) (pay : Bytes) : State :=
  let f := s.newFrame (s.rd F.portStatus_peerId p) 0 0 op 0 seq 3 0 pay
  s.enqueue (queueNo p 0) ⟨f, f.length + 4, 12, 255, false, 0, 0⟩

/-- Epoch a lies above epoch b as a signed 32-bit difference (Table 19.5). -/
def epochAbove (a b : Nat) : Bool := decide (0 < sext 32 (a % 2 ^ 32 + 2 ^ 32 - b % 2 ^ 32))

/-- A newer epoch is seen on port p (R570): recorded, logged, and its certificate asked for, at most every 10 ms on the port. -/
def State.seeEpoch (s : State) (e p : Nat) : State :=
  let st := s.rd F.healthStatus_state
  if (st = 3 || st = 4 || st = 5) && epochAbove e (s.rd F.fabEpoch_value) then
    let old := s.rd F.membStatus_seenEpoch
    let s := if old = 0 || epochAbove e old then (s.wr F.membStatus_seenEpoch e).logWith 0x1904 0x00A2 0xFF e else s
    let s := { s with health := { s.health with seenAt := s.health.seenAt.or (some s.clk.up) } }
    let due := match Tab.find s.health.askedAt p with
      | some t => decide (t + 10000000 ≤ s.clk.up)
      | none => true
    if due && s.jUp p then
      let s := { s with health := { s.health with askedAt := Tab.put s.health.askedAt p s.clk.up } }
      s.sendToPeer p 0x51 0 (toBe 4 e ++ toBe 4 0)
    else s
  else s

/-- The link layer of a port as training leaves it; whether it was up before stays. -/
def PortSt.trained (v : PortSt) : PortSt := { PortSt.init with rx := v.rx, was := v.was, at_ := v.at_ }

/-- The identity word of this end (R307, R544): device ID, port, dimensions, epoch, and whether a link nonce follows. -/
def State.identity (s : State) (p : Nat) : Bytes :=
  let (x, y, z) := s.dims
  toBe 2 s.devId ++ toBe 1 p ++ toBe 2 x ++ toBe 2 y ++ toBe 2 z ++ toBe 4 (s.rd F.fabEpoch_value) ++ toBe 1 (ofBool (s.needsMacsec p))

/-- PORT_TRAIN (R308): the port receives signal, trains and locks, and sends its identity word. -/
def execPortTrain (dt p : Nat) (s : State) : Out := s.whenLive fun s =>
  let s := s.pass dt
  let st := s.rd F.portStatus_state p
  if 12 ≤ p || s.blockBusy p || s.dimSize (portDim p) ≤ 1 || (st ≠ 0 && st ≠ 1) then s
  else
    let s := (s.setPort p { (s.port p).trained with at_ := s.clk.up }).wr F.portStatus_state 1 p
    s.emit (.link p 4 (s.identity p))

/-- PORT_TRAIN_RETRY (R308): a port without signal, or that fails to train, tries again every 100 ms. -/
def execPortTrainRetry (dt p : Nat) (s : State) : Out := s.whenLive fun s =>
  let s := s.pass dt
  let st := s.rd F.portStatus_state p
  if 12 ≤ p || s.blockBusy p || s.dimSize (portDim p) ≤ 1 || 1 < st || s.clk.up < (s.port p).at_ + 100000000 then s
  else (s.setPort p { s.port p with at_ := s.clk.up }).wr F.portStatus_state 1 p

/-- A port stops carrying frames, in a new state: its traffic moves (R309, R345). -/
def State.portLeaves (s : State) (p st : Nat) : State :=
  let up := s.jUp p
  let s := ((s.wr F.portStatus_state st p).wr F.portStatus_macsec 0 p).wr F.macsec_active 0 p
  if up then ((s.logWith 0x1101 (0x0010 + p) 0xFF p).rerouteFrom p).upstreamLost p else s

/-- PORT_DOWN (R309): the PCS loses lock (`unc` 0), or `unc` uncorrectable codewords came in 1 ms, with `corr` corrected ones. -/
def execPortDown (p corr unc : Nat) (s : State) : Out := s.whenLive fun s =>
  let st := s.rd F.portStatus_state p
  if 12 ≤ p || st = 5 then s
  else
    let s := (s.cnt F.portFec_corrected p 0 corr).cnt F.portFec_uncorrectable p 0 unc
    if unc ≠ 0 && unc ≤ 64 then s
    else
      let s := s.portLeaves p (if st = 4 then 4 else 0)
      s.setPort p { s.port p with at_ := s.clk.up }

/-- Quarantine begins on port p: state 4, and it counts as down for routing (R575). -/
def State.portQuar (s : State) (p : Nat) : State := s.portLeaves p 4

/-- A frame that Table 19.11 counts arrived on port p: malformed, orphan, out of window, unknown collective, or beyond its credits. -/
def State.badFrame (s : State) (p : Nat) : State :=
  if 12 ≤ p then s
  else
    let (q, s) := s.quarHit p 1000
    if q then s.portQuar p else s

/-- A port retrains (R318). -/
def State.retrainPort (s : State) (p : Nat) : State :=
  let s := ((s.cnt F.portCnt_retrains p).count 10 255)
  let (q, s) := s.quarRetrain p 8
  let s := s.portLeaves p (if q then 4 else 1)
  s.setPort p { (s.port p).trained with at_ := s.clk.up }

/-- The peer of an identity word fits the port (R307): same dimensions, another coordinate in the port's dimension alone, and a
port that faces back. -/
def State.peerFits (s : State) (p peer pport x y z : Nat) : Bool :=
  let k := portDim p
  s.dims == (x, y, z) && decide (peer < s.devCount)
    && (List.range 3).all (fun j => (s.coord peer j == s.coord s.devId j) == (j != k)) && pport / 2 == (p / 2) ^^^ 1

/-- IDENTITY_WORD_RX (R307, R309, R544, R545, R570). -/
def execIdentityWordRx (p peer pport x y z epoch : Nat) (nonce : Bool) (s : State) : Out := s.whenLive fun s =>
  let st := s.rd F.portStatus_state p
  if 12 ≤ p || (st ≠ 1 && st ≠ 2 && st ≠ 3) then s
  else if !s.peerFits p peer pport x y z then (s.portLeaves p 3).logWith 0x1106 (0x0010 + p) 0xFF p
  else
    let sec := s.needsMacsec p
    if st ≠ 2 && sec && !(nonce && s.sec.fabricKey) then
      ((s.portLeaves p 3).cnt F.macsec_keyFail p).logWith 0x1807 (0x0010 + p) 0xFF p
    else
      let v := s.port p
      let s := ((s.wr F.portStatus_peerId peer p).wr F.portStatus_peerPort pport p).wr F.portStatus_peerEpoch epoch p
      let s := if st = 2 then s
        else
          let s := (s.setPort p { v with was := true, badAt := none }).wr F.portStatus_state 2 p
          let s := ((s.setFlag F.portStatus_macsec sec p).setFlag F.macsec_active sec p).wr F.macsec_keyNumber 0 p
          let s := s.wr F.macsec_an 0 p
          if v.was then s.logWith 0x1102 (0x0010 + p) 0xFF peer else s
      s.seeEpoch epoch p

/-- Every up port shows its peer the own epoch again (R307). -/
def State.showIdentity (s : State) : State :=
  (List.range 12).foldl (fun u p => if u.jUp p then u.emit (.link p 4 (u.identity p)) else u) s

/-- MACSEC_VERIFY_TIMEOUT (R545): the frames of the peer have failed to verify for 1 ms after training. -/
def execMacsecVerifyTimeout (dt p : Nat) (s : State) : Out := s.whenLive fun s =>
  let s := s.pass dt
  match (s.port p).badAt with
  | some t =>
    if p < 12 && s.jUp p && s.flag F.macsec_active p && t + 1000000 ≤ s.clk.up then
      ((s.portLeaves p 3).cnt F.macsec_keyFail p).logWith 0x1807 (0x0010 + p) 0xFF p
    else s
  | none => s

/-- The frames of the replay buffer go out again (R316); the ninth time the port retrains instead (R318). -/
def State.replayLink (s : State) (p : Nat) : State :=
  let v := s.port p
  if v.replay.isEmpty then s
  else if 8 ≤ v.tries then s.retrainPort p
  else
    let s := (s.setPort p { v with tries := v.tries + 1, lackAt := s.clk.up }).cnt F.portCnt_replays p
    v.replay.foldl (fun (u : State) e =>
      let u := u.nextPn p
      let (w, v') := (u.port p).word 0 e.1
      (u.setPort p v').emit (.link p 0 (w ++ e.2))) s

/-- LINK_REPLAY_TIMEOUT (R316, R318): no lack advance within 4 µs. -/
def execLinkReplayTimeout (dt p : Nat) (s : State) : Out := s.whenLive fun s =>
  let s := s.pass dt
  if p < 12 && s.jUp p && (s.port p).lackAt + 4000 ≤ s.clk.up then s.replayLink p else s

/-- lseq a lies at or before b, modulo 2¹⁶. -/
def lseqLe (a b : Nat) : Bool := decide (0 ≤ sext 16 (b % 2 ^ 16 + 2 ^ 16 - a % 2 ^ 16))

/-- The lack and the credits of a link word are taken (Table 11.1, R315, R316). -/
def State.takeWord (s : State) (p w : Nat) : State :=
  let v := s.port p
  let lack := bitsOf w 32 16
  let keep := v.replay.filter (fun e => !lseqLe e.1 lack)
  let c := bitsOf w 30 2
  let v := { v with credit := v.credit.set c (min 4096 (v.credit.getD c 0 + bitsOf w 16 14)) }
  s.setPort p (if keep.length < v.replay.length then { v with replay := keep, tries := 0, lackAt := s.clk.up } else v)

/-- A frame is discarded and its replay asked for (R316). -/
def State.askReplay (s : State) (p : Nat) : State := (s.cnt F.portCnt_fcsErr p).sendWord p 1

/-- A frame in order is taken into the receive buffer, or dropped beyond its credits (R315, R573). -/
def State.takeLinkFrame (s : State) (p seq : Nat) (f : Bytes) : State :=
  let v := { s.port p with rxSeq := seq, badAt := none }
  let c := fClass f
  let n := fUnits f
  if v.room.getD c 0 < n then ((s.setPort p v).quarNote p).badFrame p
  else
    let st := s.rd F.healthStatus_state
    let s := s.setPort p { v with room := v.room.set c (v.room.getD c 0 - n) }
    if st = 3 || st = 4 || st = 5 then s.setPort p { s.port p with rx := (s.port p).rx ++ [f] } else s.owe p f

/-- LINK_WORD_RX (R316, R317, R319): the link word w, with the frame f when its ltype is 0; `ok` when the FCS and the MACsec check
pass, `icv` when it is the MACsec check that fails, `stomp` when the FCS is inverted. -/
def execLinkWordRx (dt p w : Nat) (f : Bytes) (ok icv stomp : Bool) (s : State) : Out := s.whenLive fun s =>
  let s := s.pass dt
  let st := s.rd F.portStatus_state p
  if 12 ≤ p || (st ≠ 2 && st ≠ 4) then s
  else
    let s := s.takeWord p w
    let ltype := bitsOf w 8 8
    if ltype = 1 then s.replayLink p
    else if ltype ≠ 0 || st = 4 then s
    else
      let v := s.port p
      let seq := bitsOf w 48 16
      if seq ≠ (v.rxSeq + 1) % 2 ^ 16 then s.askReplay p
      else if stomp then ((s.setPort p { v with rxSeq := seq }).cnt F.portCnt_stomped p).owe p f
      else if !ok || f.length < 32 || beAt f 0x1C 4 ≠ crc32c (f.take 0x1C) then
        let s := if icv then s.setPort p { v with badAt := v.badAt.or (some s.clk.up) } else s
        s.askReplay p
      else s.takeLinkFrame p seq f

/-- The first frame of each lane class in a receive buffer. -/
def classHeads (l : List Bytes) : List Bytes := (List.range 4).filterMap (fun c => l.find? (fun f => fClass f = c))

/-- The frames that have reached this device on port p, or from itself (port 12). -/
def State.inbox (s : State) (p : Nat) : List Bytes := if p = 12 then s.fab.loopQ else (s.port p).rx

/-- A frame leaves the receive buffer; its credits are owed unless it is forwarded. -/
def State.unbox (s : State) (p : Nat) (f : Bytes) (owe : Bool) : State :=
  if p = 12 then { s with fab := { s.fab with loopQ := s.fab.loopQ.erase f } }
  else
    let t := s.setPort p { s.port p with rx := (s.port p).rx.erase f }
    if owe then t.owe p f else t

/-- FRAME_FORWARD (R310 to R314): the first frame of a lane class on port p that is for another device. -/
def execFrameForward (p : Nat) (s : State) : Out := s.whenLive fun s =>
  if 12 ≤ p then s
  else
    match (classHeads (s.inbox p)).find? (fun f => fDst f ≠ s.devId) with
    | none => s
    | some f =>
      let ttl := beAt f 0x12 1
      if ttl = 0 then (s.unbox p f true).cnt F.fabStat2_ttlDrop
      else (s.unbox p f false).dispatchFrame (setHdr f 0x12 (ttl - 1)) p 0

/-- CXL_LINK_TRAIN (R290, R291, R293, R546): the link of device k trains with a Type-3 device of a width and capacity in GB, or with
anything else; `ide` when IDE keying succeeds. -/
def execCxlLinkTrain (k width cap : Nat) (type3 ide : Bool) (s : State) : Out := s.whenLive fun s =>
  let src := 0x0040 + k / 2
  if 4 ≤ k || s.blockBusy (16 + k / 2) || s.flag F.cxlDev_linkUp k || s.flag F.quar_active (48 + k) then s
  else if !type3 || (width ≠ 8 && width ≠ 16) then s.logWith 0x1008 src 0xFF k
  else
    let s := ((s.wr F.cxlDev_present 1 k).wr F.cxlDev_width width k).wr F.cxlDev_capacityGb (min cap 512) k
    if s.needsIde k && !ide then (s.wr F.cxlDev_ide 0 k).logWith 0x1808 src 0xFF k
    else (s.setFlag F.cxlDev_ide (s.needsIde k) k).wr F.cxlDev_linkUp 1 k

end Sys2Proof.Machine
end

