-- ==== Sys2Proof/Machine/Remote.lean ====
section
/-! DEFINITION. Sys2Proof/Machine/Remote.lean: remote operations at the requester (R324, R326, R330 to R334, R337, R342) and how
they end for the ladle or a thread (R268, R475). -/
namespace Sys2Proof.Machine

/-- A thread raises an exception (R475): cause, code and address. While its mould is quenched it is logged and nothing else (R246). -/
def State.threadExc (s : State) (c t cause code addr : Nat) : State :=
  let m := s.rd F.thrStatus_mould c t
  let x := s.rd F.thrStatus_ctx c t
  let src := srcEngine c 6
  let s := s.logWith 0x1601 src m (cause + addr % 2 ^ 64 * 2 ^ 16)
  if s.mstate m = 5 then s
  else
    let s := ((s.wr F.thrStatus_state 5 c t).wr F.thrStatus_cause cause c t).cnt F.coreCnt_exceptions c
    let s := (s.wr F.thrFault_addr addr c t).wr F.thrFault_code code c t
    let s := s.setThread c t { s.thread c t with wait := .none }
    if s.flag F.thrStatus_ctxFault c t then s.faultCtx m x E.thrException src c else s

/-- A send stream. -/
def State.txS (s : State) (k : Nat) : TxStream := Tab.get TxStream.init s.fab.tx k

/-- Replace a send stream. -/
def State.setTx (s : State) (k : Nat) (v : TxStream) : State :=
  { s with fab := { s.fab with tx := Tab.set TxStream.init s.fab.tx k v } }

/-- The stream has a sequence free: no more than 65,536 above the cum last acknowledged (R323). -/
def State.windowOpen (s : State) (dev m : Nat) : Bool :=
  let v := s.txS (streamKey dev m)
  decide ((v.seq + 2 ^ 32 - v.acked) % 2 ^ 32 < 65536)

/-- A request header (Table 11.4). -/
def reqHdr (off ctx tok : Nat) (en : Bool) (len sub : Nat) : Bytes :=
  toBe 6 off ++ toBe 1 ctx ++ toBe 1 (tok + 32 * ofBool en) ++ toBe 4 len ++ toBe 4 sub

/-- The points of the fences that cover an operation follow its frames (R338): entry (2 + dev, seq). -/
def State.raiseFences (s : State) (id dev seq : Nat) : State :=
  s.clus.foldl (fun (u : State) p => p.2.threads.foldl (fun (u : State) e =>
    let v := e.2
    if v.fence.contains (1, id) then
      u.setThread p.1 e.1 { v with fence := (2 + dev, seq) :: v.fence.filter (fun f => f.1 ≠ 2 + dev) }
    else u) u) s

/-- An operation sends a class-0 frame under the next sequence of its stream (R321). -/
def State.sendReq (s : State) (id op flags : Nat) (pay : Bytes) : State :=
  let o := s.rop id
  let k := streamKey o.dev o.mould
  let v := s.txS k
  let seq := (v.seq + 1) % 2 ^ 32
  let f := s.newFrame o.dev o.mould o.heat op flags seq 0 0 pay
  let s := s.setTx k { v with seq := seq, out := v.out ++ [⟨seq, id, s.clk.up, f⟩] }
  let o := { o with left := o.left ++ [seq] }
  let o := if o.sends = 0 then { o with first := seq, firstAt := s.clk.up, sends := 1 } else o
  let writes := o.kind == 3 || o.kind == 6 || o.kind == 7 || o.kind == 9
  let s := s.setRop id o
  let s := if writes then
      let v := s.txS k
      (s.setTx k { v with lastW := Tab.set 0 v.lastW o.ctx (seq + 1) }).raiseFences id o.dev seq
    else s
  s.dispatchFrame f 12 o.ctx

/-- The payload of a put's frame at byte `sub` of n bytes (R333): its data is read from the source now. -/
def State.putPay (s : State) (o : ROp) (sub n : Nat) : Bytes :=
  reqHdr (o.far + sub) o.ctx o.tok o.tokEn o.len sub ++ s.readMem o.mould (o.near + sub) n

/-- Bytes of the put frame at byte `sub`: up to the next multiple of 4,096 at the target (R333). -/
def putChunk (o : ROp) (sub : Nat) : Nat := min (4096 - (o.far + sub) % 4096) (o.len - sub)

/-- A put forms its next frames while its stream has sequences free (R323, R333); fuel bounds the frames. -/
def State.feedPut : Nat → State → Nat → State
  | 0, s, _ => s
  | f + 1, s, id =>
    let o := s.rop id
    if o.len ≤ o.sent || o.got || !s.windowOpen o.dev o.mould then s
    else
      let n := putChunk o o.sent
      let flags := 4 * ofBool (o.sent == 0) + 8 * ofBool (o.sent + n == o.len)
      let s := s.sendReq id 0x01 flags (s.putPay o o.sent n)
      feedPut f (s.setRop id { s.rop id with sent := o.sent + n }) id

/-- Log the end of an operation at its timeout (R331). -/
def State.logTimeout (s : State) (o : ROp) : State :=
  let src := srcEngine o.cluster (if o.thread = 16 then 7 else 6)
  let op := if o.kind = 3 then 1 else if o.kind = 4 then 2 else if o.kind = 5 then 4 else if o.kind = 6 then 3
    else if o.kind = 7 then 5 else if o.kind = 8 then 6 else 7
  s.logRec ⟨s.clk.ns, 0x1104, src, o.mould, o.heat, o.dev + op * 2 ^ 16 + o.ctx * 2 ^ 24 + o.first * 2 ^ 32⟩

/-- An operation fails under a fence of its context: the first failure is the fence's code (R338). -/
def State.noteFences (s : State) (o : ROp) (id code : Nat) : State :=
  if code = 0 then s
  else s.clus.foldl (fun (u : State) p => (List.range 16).foldl (fun (u : State) t =>
    let v := u.thread p.1 t
    if v.fence.contains (1, id) && v.fenceErr = 0 && u.rd F.thrStatus_ctx p.1 t = o.ctx then u.setThread p.1 t { v with fenceErr := code }
    else u) u) s

/-- Registers rd to rd + 7 take 64 bytes (Table 16.1). -/
def ThreadSt.load64 (v : ThreadSt) (rd : Nat) (bs : Bytes) : ThreadSt :=
  (List.range 8).foldl (fun w i => w.setReg (rd + i) (leAt bs (8 * i) 8)) v

/-- A thread's remote operation ends with a code and its result: the value, sign-extended where the load asks for it, or 64 bytes
with a version (R334, R473, R475). -/
def State.threadResult (s : State) (id : Nat) (o : ROp) (code : Nat) (res : Bytes) (ver : Nat) : State :=
  let c := o.cluster
  let t := o.thread
  let s := s.wr F.thrStatus_remoteOut (s.rd F.thrStatus_remoteOut c t - 1) c t
  let v := s.thread c t
  if o.kind = 6 then
    if code = 0 || s.rd F.thrStatus_state c t = 0 then s
    else
      let s := s.setThread c t { v with fenceErr := if v.fenceErr = 0 then code else v.fenceErr }
      s.logFree 0x1104 (srcEngine c 6) o.mould
  else if v.wait ≠ .remote id then s
  else if o.kind = 5 && o.sub = 0 && code ≠ 0 then s.threadExc c t 5 code (o.far % 2 ^ 48)
  else
    let v := { v with wait := .none }
    let v := if o.kind = 5 && o.sub = 0 then
        v.setReg o.rd (if o.tok = 1 then ofInt 64 (sext (8 * o.len) (leNat res)) else leNat res)
      else if code ≠ 0 then v.code code
      else if o.kind = 5 then { (v.load64 o.rd res).code 0 with st := setBits ((v.load64 o.rd res).code 0).st 16 32 ver }
      else (v.setReg o.rd (leNat res)).code 0
    (s.setThread c t v).wr F.thrStatus_state 1 c t

/-- A request slot of mould m is freed (R331). -/
def State.freeSlot (s : State) (m : Nat) : State := s.wr F.fabSlots_used (s.rd F.fabSlots_used m - 1) m

/-- The trailer of a get with a status (Table 11.8). -/
def getTrailer (o : ROp) (code : Nat) : Bytes :=
  toLe 4 0x54564B49 ++ toLe 4 o.v0 ++ toLe 4 o.v1 ++ toLe 2 code ++ toLe 2 o.gflags
    ++ toLe 8 (o.dev * 2 ^ 54 + o.mould * 2 ^ 48 + o.far) ++ toLe 4 o.len ++ toLe 4 o.first ++ List.replicate 32 0#8


/-- An operation ends (R331, R333, R334): its slot is freed, its frames are sent no more, a get's trailer is written unless it ends
as slag, and a thread has its result. The ladle's transfer waits for MOV_COMPLETE. -/
def State.endRop (s : State) (id code : Nat) (res : Bytes) (ver : Nat) (slag : Bool) : State :=
  let o := s.rop id
  if o.kind < 3 || o.got then s
  else
    let k := streamKey o.dev o.mould
    let v := s.txS k
    let s := s.setTx k { v with out := v.out.filter (fun e => e.op ≠ id) }
    let s := s.freeSlot o.mould
    let code := if o.fail = 0 then code else o.fail
    let s := s.noteFences o id code
    let s := if slag then s.countSlag o.mould else s
    if o.thread = 16 then
      let s := if o.kind = 4 && !slag then s.writeMem o.mould (o.near + o.len) (getTrailer o code) else s
      s.setRop id { o with got := true, fail := code, left := [], busy := if slag then 2 else o.busy }
    else
      let s := s.setRop id ROp.init
      if slag then
        let s := s.wr F.thrStatus_remoteOut (s.rd F.thrStatus_remoteOut o.cluster o.thread - 1) o.cluster o.thread
        s
      else s.threadResult id o code res ver

/-- The checks of R330 before a remote operation of mould m to a 64-bit address: the code, 0 for none. -/
def State.remoteCheck (s : State) (m addr align : Nat) : Nat :=
  let dev := addr / 2 ^ 54
  if !s.inPool then E.fabState
  else if addr / 2 ^ 48 % 64 ≠ m || s.devCount ≤ dev then E.fabAddress
  else if !s.isMember dev then E.fabUnreachable
  else if addr % align ≠ 0 then E.fabAlign
  else 0

/-- A mould holds fewer request slots than its envelope gives it (R46, R332). -/
def State.slotFree (s : State) (m : Nat) : Bool := s.rd F.fabSlots_used m < (s.envelope m).slots

/-- A slot is taken (R332). -/
def State.takeSlot (s : State) (m : Nat) : State :=
  let n := s.rd F.fabSlots_used m + 1
  (s.wr F.fabSlots_used n m).wr F.fabSlots_peak (max n (s.rd F.fabSlots_peak m)) m

/-- FRAME_RESEND_TIMEOUT (R324, R333): a frame of the stream to (dev, m) not covered or answered 100 µs after it was last sent. -/
def execFrameResendTimeout (dt dev m seq : Nat) (s : State) : Out := s.whenLive fun s =>
  let s := s.pass dt
  let k := streamKey dev m
  let v := s.txS k
  match v.out.find? (fun e => e.seq = seq) with
  | none => s
  | some e =>
    let o := s.rop e.op
    if s.clk.up < e.at_ + 100000 || o.got || o.kind = 7 || o.kind = 9 then s
    else
      let pay := if o.kind = 3 then
          let sub := beAt e.frame 0x2C 4
          s.putPay o sub ((fPay e.frame).length - 16)
        else fPay e.frame
      let att := if o.kind = 4 then (o.attempt + 1) % 16 else o.attempt
      let flags := (fFlags e.frame % 16 ||| 1) + 16 * att
      let f := s.newFrame dev m (fHeat e.frame) (fOp e.frame) flags seq 0 0 pay
      let s := s.setRop e.op { o with attempt := att, landed := if o.kind = 4 then [] else o.landed }
      let v' := { v with out := v.out.map (fun x => if x.seq = seq then { x with at_ := s.clk.up, frame := f } else x) }
      (s.setTx k v').dispatchFrame f 12 o.ctx

/-- The frame of an operation still out. -/
def State.outFrame (s : State) (id : Nat) : Option Bytes :=
  let o := s.rop id
  ((s.txS (streamKey o.dev o.mould)).out.find? (fun e => e.op = id)).map (·.frame)

/-- ATOMIC_RESEND (R342): at 100, 200 and 300 µs after the first send, under the same sequence. -/
def execAtomicResend (dt id : Nat) (s : State) : Out := s.whenLive fun s =>
  let s := s.pass dt
  let o := s.rop id
  if (o.kind ≠ 7 && o.kind ≠ 9) || o.got || 4 ≤ o.sends || s.clk.up < o.firstAt + 100000 * o.sends then s
  else
    let f := s.newFrame o.dev o.mould o.heat (if o.kind = 7 then 5 else 7) (1 + 12) o.first 0 0 o.args
    (s.setRop id { o with sends := o.sends + 1 }).dispatchFrame f 12 o.ctx

/-- ATOMIC_GIVE_UP (R342): no result 400 µs after the first send. Every send answered BUSY leaves E_FAB_BUSY; a silent one leaves
the outcome unknown. -/
def execAtomicGiveUp (dt id : Nat) (s : State) : Out := s.whenLive fun s =>
  let s := s.pass dt
  let o := s.rop id
  if (o.kind ≠ 7 && o.kind ≠ 9) || o.got || s.clk.up < o.firstAt + 400000 then s
  else if o.sends ≤ o.busy then s.endRop id E.fabBusy [] 0 false
  else (s.logWith 0x1107 (srcEngine o.cluster 6) o.mould (o.dev + o.first * 2 ^ 32)).endRop id E.fabOutcomeUnknown [] 0 false

/-- The operation timeout in ns (Table 11.12). -/
def State.opTimeout (s : State) : Nat := 1000 * max 500 (s.rd F.fabCtrl_opTimeoutUs)

/-- OP_TIMEOUT (R331). -/
def execOpTimeout (dt id : Nat) (s : State) : Out := s.whenLive fun s =>
  let s := s.pass dt
  let o := s.rop id
  if o.kind < 3 || o.kind = 10 || o.got || o.sends = 0 || s.clk.up < o.firstAt + s.opTimeout then s
  else
    let s := s.logTimeout o
    let slag := s.isSlag o.mould o.ctx o.heat o.quenches
    (s.setRop id { o with fail := 0 }).endRop id E.fabTimeout [] 0 slag

/-- Every remote operation in flight ends when the device leaves the pool (R557): an atomic or ownership request leaves its outcome
unknown (R342), any other fails with E_FAB_TIMEOUT (R331). -/
def State.endAllRemote (s : State) : State :=
  s.fab.ops.foldl (fun u e =>
    if e.2.kind < 3 || e.2.kind = 10 || e.2.got || (e.2.kind = 5 && e.2.thread = 16) then u
    else
      let slag := u.isSlag e.2.mould e.2.ctx e.2.heat e.2.quenches
      u.endRop e.1 (if e.2.kind = 7 || e.2.kind = 9 then E.fabOutcomeUnknown else E.fabTimeout) [] 0 slag) s

end Sys2Proof.Machine
end

