-- ==== Sys2Proof/Machine/Fabric.lean ====
section
/-! DEFINITION. Sys2Proof/Machine/Fabric.lean: frames that arrive for this device: the checks of Table 11.5 (R328), the receive
streams (R321 to R327), remote memory at the target (R329, R333, R335, R336, R339 to R341), and answers at the requester. -/
namespace Sys2Proof.Machine

/-- The opcodes of Table 11.3 that chapter 11 defines. -/
def memoryOps : List Nat := [1, 2, 3, 4, 5, 6, 7, 0x11, 0x12, 0x13, 0x14, 0x15, 0x18, 0x19]

/-- The header of a frame holds reserved bits 0, its length field its payload's length, and the class of its opcode (Tables 11.2, 11.3). -/
def headerOk (f : Bytes) (cls : Nat) : Bool :=
  bitsOf (beAt f 0 4) 0 6 == 16 && beAt f 0x10 2 == (fPay f).length && beAt f 0x13 1 == cls && beAt f 0x1A 2 == 0

/-- The first two checks of Table 11.5 on a frame that arrived on port p: the reason it is dropped is counted. -/
def State.checked (s : State) (p : Nat) (f : Bytes) (k : State → State) : State :=
  let own := s.rd F.fabEpoch_value
  if !s.inPool then s.cnt F.fabStat_notMember
  else if fEpoch f = own then k s
  else if epochAbove (fEpoch f) own then
    ((s.cnt F.fabStat_newEpoch).logWith 0x1105 (0x0010 + min p 11) 0xFF (fEpoch f)).seeEpoch (fEpoch f) p
  else s.cnt F.staleEpoch_value

/-- A frame of a malformed kind is dropped (check 3). -/
def State.malformed (s : State) (p : Nat) : State := (s.cnt F.fabStat_malformed).badFrame p

/-- A response, ACK or NAK that matches nothing outstanding is dropped (check 4). -/
def State.orphan (s : State) (p : Nat) : State := (s.cnt F.fabStat_orphan).badFrame p

/-- Take the first frame of a lane class on port p (12 for the device's own) that is addressed to the device and has one of the
row's opcodes. -/
def State.frameAt (s : State) (p : Nat) (sel : Nat → Bool) (k : Bytes → State → State) : State :=
  if 12 < p then s
  else
    match (classHeads (s.inbox p)).find? (fun f => fDst f = s.devId && sel (fOp f)) with
    | some f => k f (s.unbox p f true)
    | none => s

/-- A request header field (Table 11.4). -/
def qOff (f : Bytes) : Nat := beAt f 0x20 6
/-- Issuing context of a request. -/
def qCtx (f : Bytes) : Nat := beAt f 0x26 1
/-- Token byte of a request. -/
def qTok (f : Bytes) : Nat := beAt f 0x27 1
/-- op_len of a request. -/
def qLen (f : Bytes) : Nat := beAt f 0x28 4
/-- sub of a request. -/
def qSub (f : Bytes) : Nat := beAt f 0x2C 4
/-- The payload after the request header. -/
def qData (f : Bytes) : Bytes := (fPay f).drop 16

/-- An access size of a thread. -/
def sizeOk (n : Nat) : Bool := n == 1 || n == 2 || n == 4 || n == 8 || n == 64

/-- Check 3 of a request: lengths, reserved bits, sizes and alignment (Tables 11.3, 11.4, 11.7, 11.9). -/
def requestOk (f : Bytes) : Bool :=
  let n := (qData f).length
  let op := fOp f
  headerOk f 0 && decide (16 ≤ (fPay f).length) && decide (qCtx f < 16) && decide (qTok f < 64)
    && (if op = 1 then
          decide (64 ≤ n ∧ n % 64 = 0 ∧ qOff f % 64 = 0 ∧ qOff f % 4096 + n ≤ 4096 ∧ qSub f % 64 = 0 ∧ qSub f + n ≤ qLen f)
        else if op = 2 then decide (n = 0 ∧ 0 < qLen f ∧ qLen f % 64 = 0 ∧ qOff f % 64 = 0 ∧ qSub f = 0)
        else if op = 3 then sizeOk n && decide (qLen f = n ∧ qOff f % n = 0 ∧ qSub f = 0)
        else if op = 4 then sizeOk (qLen f) && decide (n = 0 ∧ qOff f % qLen f = 0 ∧ qSub f = 0)
        else if op = 5 then decide (n = 16 ∧ (qLen f = 4 ∨ qLen f = 8) ∧ qOff f % qLen f = 0 ∧ qSub f < 10)
        else if op = 6 then decide (n = 0 ∧ qSub f = 0)
        else
          let a := beAt f 0x30 8
          decide (n = 8 ∧ qSub f < 4) && (qSub f != 3 || (bit a 15 && decide (a < 65536) && bitsOf a 14 1 == 0)))

/-- A receive stream. -/
def State.rxS (s : State) (k : Nat) : RxStream := Tab.get RxStream.init s.fab.rx k

/-- Replace a receive stream. -/
def State.setRx (s : State) (k : Nat) (v : RxStream) : State :=
  { s with fab := { s.fab with rx := Tab.set RxStream.init s.fab.rx k v } }

/-- How far a sequence lies above cum, as a signed 32-bit difference (R322). -/
def RxStream.above_ (v : RxStream) (seq : Nat) : Int := sext 32 (seq % 2 ^ 32 + 2 ^ 32 - v.cum)

/-- A frame is a duplicate: at or below cum, or taken above it (R325). -/
def RxStream.dup (v : RxStream) (seq : Nat) : Bool := decide (v.above_ seq ≤ 0) || v.above.contains seq

/-- What names the put a frame belongs to: where it begins at the target, its length and its context. -/
def putName (head : Bytes) : Nat :=
  ((qOff head + 2 ^ 48 - qSub head % 2 ^ 48) % 2 ^ 48) * 2 ^ 36 + qLen head * 16 + qCtx head % 16

/-- The cluster on which a remote token of mould m is posted: of a tier-0 target address, else the lowest the mould claims. -/
def State.tokenCluster (s : State) (m a : Nat) : Option Nat :=
  match s.place m a with
  | some p => if p.space = 0 then some (p.key / 2 ^ 24) else (s.mould m).claimed.min?
  | none => (s.mould m).claimed.min?

/-- cum passes a frame of a put: its remote token is posted, once for each 64-byte granule, unless a frame of the put was refused
(R215, R327). -/
def State.passPut (s : State) (k : Nat) (r : PutRec) : State :=
  let m := k % 64
  let v := s.rxS k
  let name := putName r.head
  let refused := if bit (fFlags r.head) 2 then v.refused.filter (· ≠ name) else v.refused
  if r.refused then s.setRx k { v with refused := name :: refused.filter (· ≠ name) }
  else
    let s := s.setRx k { v with refused := refused }
    let live := s.mstate m = 2 ∨ s.mstate m = 3 ∨ s.mstate m = 4
    if refused.contains name || !bit (qTok r.head) 5 || !decide live || s.ctxCount m ≤ qCtx r.head then s
    else
      match s.tokenCluster m (qOff r.head) with
      | some c => s.post c m (qCtx r.head) (qTok r.head % 32) ((beAt r.head 0x10 2 - 16) / 64)
      | none => s

/-- The receiver sends an ACK that carries cum (R322). -/
def State.sendAck (s : State) (dev m : Nat) : State :=
  let k := streamKey dev m
  let v := s.rxS k
  (s.setRx k { v with adv := 0 }).sendNew dev m 0 0x18 0 v.cum 1 0 0 []

/-- cum advances while the next sequence has been taken; fuel bounds the advance. -/
def State.advanceCum : Nat → State → Nat → State
  | 0, s, _ => s
  | f + 1, s, k =>
    let v := s.rxS k
    let n := (v.cum + 1) % 2 ^ 32
    if !v.above.contains n then s
    else
      let r := v.puts.find? (fun e => e.seq = n)
      let s := s.setRx k { v with
        cum := n, above := v.above.erase n, puts := v.puts.filter (fun e => e.seq ≠ n)
        adv := v.adv + 1, advAt := if v.adv = 0 then s.clk.up else v.advAt }
      let s := match r with | some r => s.passPut k r | none => s
      advanceCum f s k

/-- A request frame is taken, refused or not (R322); 8 frames that advance cum are acknowledged at once. -/
def State.takeSeq (s : State) (f : Bytes) (refused : Bool) : State :=
  let k := streamKey (fSrc f) (fMould f)
  let v := s.rxS k
  let puts := if fOp f = 1 then ⟨fSeq f, refused, f.take 48⟩ :: v.puts else v.puts
  let s := s.setRx k { v with above := fSeq f :: v.above, puts := puts }
  let s := s.advanceCum ((s.rxS k).above.length) k
  if 8 ≤ (s.rxS k).adv then s.sendAck (fSrc f) (fMould f) else s

/-- A response to a request (Table 11.3). -/
def State.respond (s : State) (f : Bytes) (op status : Nat) (pay : Bytes) : State :=
  s.sendNew (fSrc f) (fMould f) (fHeat f) op 0 (fSeq f) 1 status 0 pay

/-- A request is refused (R328): its NAK goes out. -/
def State.nak (s : State) (f : Bytes) (code : Nat) : State := s.respond f 0x19 code []

/-- The owner word of the requester (R335). -/
def ownerWord (f : Bytes) : Nat := 2 ^ 15 + fSrc f * 16 + qCtx f % 16

/-- Checks 7 to 9 of Table 11.5 for a request that accesses n bytes: the code, 0 for none. -/
def State.targetCheck (s : State) (f : Bytes) (n : Nat) : Nat :=
  let m := fMould f
  let st := s.mstate m
  let op := fOp f
  let need := 4 + (if op = 7 then 0 else if op = 1 ∨ op = 3 then 2 else if op = 5 then 3 else 1)
  if st ≠ 2 && st ≠ 3 && st ≠ 4 then E.fabNoMould
  else
    match s.regionAt m (qOff f), s.regionIdx m (qOff f) with
    | some r, some i =>
      let w := Tab.get 0 s.owners (regionKey m i)
      if r.base + r.len < qOff f + n || r.attr &&& need ≠ need then E.fabRegion
      else if (op = 1 || op = 3 || op = 5) && bit w 15 && w ≠ ownerWord f then E.fabNotOwner
      else 0
    | _, _ => E.fabRegion

/-- Version of the region that holds an address, with whether it is stamped (R336). -/
def State.versionAt (s : State) (m a : Nat) : Nat × Bool :=
  match s.regionAt m a, s.regionIdx m a with
  | some r, some i => if bit r.attr 3 then (Tab.get 0 s.vers (regionKey m i), true) else (0, false)
  | _, _ => (0, false)

/-- A request on the way to check 6 (R323, R325): beyond the window it is dropped; `k` is told whether it is a duplicate. -/
def State.request (s : State) (p op : Nat) (k : Bool → Bytes → State → State) : State :=
  s.frameAt p (fun o => decide (o = op)) fun f s => s.checked p f fun s =>
    if !requestOk f then s.malformed p
    else
      let v := s.rxS (streamKey (fSrc f) (fMould f))
      if 65536 < v.above_ (fSeq f) then (s.cnt F.fabStat2_windowDrop).badFrame p
      else k (v.dup (fSeq f)) f s

/-- A request has been answered: taken the first time, acknowledged at once as a duplicate (R322, R325). -/
def State.answered (s : State) (dup : Bool) (f : Bytes) (refused : Bool) : State :=
  if dup then s.sendAck (fSrc f) (fMould f) else s.takeSeq f refused

/-- PUT_DATA and STORE: bytes written at the target, or the refusal; `ecc` and `word` are what the memory reports. -/
def State.writeRequest (s : State) (p op ecc word : Nat) : State := s.request p op fun dup f s =>
  if dup then s.sendAck (fSrc f) (fMould f)
  else
    let d := qData f
    let m := fMould f
    let code := s.targetCheck f d.length
    if code ≠ 0 then (s.nak f code).answered false f true
    else
      let (code, s) := s.access m (qOff f) d.length ecc word
      if code ≠ 0 then (s.nak f code).answered false f true
      else ((s.writeMem m (qOff f) d).bumpAt m (qOff f)).answered false f false

/-- PUT_DATA (R328, R329). -/
def execPutData (p ecc word : Nat) (s : State) : Out := s.whenLive fun s => s.writeRequest p 1 ecc word

/-- STORE (R328, R329). -/
def execStoreFrame (p ecc word : Nat) (s : State) : Out := s.whenLive fun s => s.writeRequest p 3 ecc word

/-- The GET_RESP frames of a get served whole (R333): up to 4,096 B each, the attempt echoed, versions before and after. -/
def State.sendGet (s : State) (f : Bytes) : State :=
  let m := fMould f
  let n := qLen f
  let (v, stamped) := s.versionAt m (qOff f)
  (List.range (cdiv n 4096)).foldl (fun (u : State) i =>
    let sub := 4096 * i
    let k := min 4096 (n - sub)
    let last := sub + k = n
    let flags := fFlags f / 16 * 16 + 4 * ofBool (i = 0) + 8 * ofBool last
    let pay := toBe 4 sub ++ toBe 4 v ++ toBe 4 (if last then v else 0) ++ toBe 2 (ofBool stamped) ++ toBe 2 0 ++ u.readMem m (qOff f + sub) k
    u.sendNew (fSrc f) m (fHeat f) 0x11 flags (fSeq f) 1 0 0 pay) s

/-- GET_REQ, LOAD_REQ and VREAD_REQ: checks 7 and 8, the memory, then the response (R325, R328, R329, R333). -/
def State.readRequest (s : State) (p op ecc word : Nat) (size : Bytes → Nat) (ans : Bytes → State → State) : State :=
  s.request p op fun dup f s =>
    let code := s.targetCheck f (size f)
    if code ≠ 0 then (s.nak f code).answered dup f true
    else
      let (code, s) := if op = 6 then (0, s) else s.access (fMould f) (qOff f) (size f) ecc word
      if code ≠ 0 then (s.respond f (if op = 2 then 0x11 else if op = 4 then 0x12 else 0x14) code []).answered dup f false
      else (ans f s).answered dup f false

/-- GET_REQ (R333). -/
def execGetReq (p ecc word : Nat) (s : State) : Out := s.whenLive fun s =>
  s.readRequest p 2 ecc word qLen fun f s => s.sendGet f

/-- LOAD_REQ (R328, R337): the data, with the version read after it for 64 bytes. -/
def execLoadReq (p ecc word : Nat) (s : State) : Out := s.whenLive fun s =>
  s.readRequest p 4 ecc word qLen fun f s =>
    let m := fMould f
    let d := s.readMem m (qOff f) (qLen f)
    s.respond f 0x12 0 (if qLen f = 64 then d ++ toBe 8 (s.versionAt m (qOff f)).1 else d)

/-- VREAD_REQ (R337). -/
def execVreadReq (p : Nat) (s : State) : Out := s.whenLive fun s =>
  s.readRequest p 6 0 0 (fun _ => 1) fun f s =>
    s.respond f 0x14 0 (toBe 4 (s.versionAt (fMould f) (qOff f)).1 ++ toBe 4 0)

/-- The new value of an atomic of n bytes (Table 11.9). -/
def atomicNew (op n old a b : Nat) : Nat :=
  let w := 8 * n
  let a := a % 2 ^ w
  let b := b % 2 ^ w
  if op = 0 then (old + a) % 2 ^ w else if op = 1 then a else if op = 2 then (if old = a then b else old)
  else if op = 3 then old &&& a else if op = 4 then old ||| a else if op = 5 then old ^^^ a
  else if op = 6 then (if sext w old ≤ sext w a then old else a) else if op = 7 then (if sext w old ≤ sext w a then a else old)
  else if op = 8 then min old a else max old a

/-- An atomic on bytes of mould m (Table 11.9, R336): the old value, and the memory after it. -/
def State.applyAtomic (s : State) (m addr n op a b : Nat) : Nat × State :=
  let old := leNat (s.readMem m addr n)
  let new := atomicNew op n old a b
  (old, if new = old then s else (s.writeMem m addr (toLe n new)).bumpAt m addr)

/-- The key of a request in the reply cache (R339). -/
def replyKey (f : Bytes) : Nat := (fSrc f * 64 + fMould f) * 2 ^ 32 + fSeq f

/-- The reply cache has a free entry, or one at least 1 ms old (R339). -/
def State.replyRoom (s : State) : Bool :=
  decide (s.fab.cache.length < 16384) || s.fab.cache.any (fun e => e.at_ + 1000000 ≤ s.clk.up)

/-- A response is stored: in a free entry, else in place of the oldest (R339). -/
def State.storeReply (s : State) (key : Nat) (frame : Bytes) : State :=
  let l := if s.fab.cache.length < 16384 then s.fab.cache else s.fab.cache.drop 1
  { s with fab := { s.fab with cache := l ++ [⟨key, frame, s.clk.up⟩] } }

/-- An ATOMIC_REQ or OWN_REQ (R340, R341): the stored result; BUSY when no entry is free; or the operation `apply`, whose answer has
8 bytes. -/
def State.onceRequest (s : State) (p op ecc word : Nat) (apply : Bytes → State → Nat × State) : State :=
  s.request p op fun dup f s =>
    let resp := op + 0x0E
    match s.fab.cache.find? (fun e => e.key = replyKey f) with
    | some e => ((s.cnt F.rcache_hits).respond f resp 0 (fPay e.frame)).answered dup f false
    | none =>
      let code := s.targetCheck f (if op = 5 then qLen f else 1)
      if code ≠ 0 then (s.nak f code).answered dup f true
      else
        let (code, s) := if op = 5 then s.access (fMould f) (qOff f) (qLen f) ecc word else (0, s)
        if code ≠ 0 then (s.nak f code).answered dup f true
        else if !s.replyRoom then ((s.cnt F.rcache_busy).nak f E.fabBusy).answered dup f true
        else
          let (old, s) := apply f s
          let g := s.newFrame (fSrc f) (fMould f) (fHeat f) resp 0 (fSeq f) 1 0 (toBe 8 old)
          ((s.storeReply (replyKey f) g).dispatchFrame g 12 0).answered dup f false

/-- ATOMIC_REQ (R339 to R341). -/
def execAtomicReq (p ecc word : Nat) (s : State) : Out := s.whenLive fun s =>
  s.onceRequest p 5 ecc word fun f s => s.applyAtomic (fMould f) (qOff f) (qLen f) (qSub f) (beAt f 0x30 8) (beAt f 0x38 8)

/-- The owner word after an operation of Table 11.7. -/
def ownNew (op old me a : Nat) : Nat :=
  if op = 1 then (if bit old 15 then old else me) else if op = 2 then (if old = me then 0 else old)
  else if op = 3 then (if old = me then a else old) else old

/-- OWN_REQ (R335, R339 to R341). -/
def execOwnReq (p : Nat) (s : State) : Out := s.whenLive fun s =>
  s.onceRequest p 7 0 0 fun f s =>
    match s.regionIdx (fMould f) (qOff f) with
    | some i =>
      let k := regionKey (fMould f) i
      let old := Tab.get 0 s.owners k
      (old, { s with owners := Tab.set 0 s.owners k (ownNew (qSub f) old (ownerWord f) (beAt f 0x30 8)) })
    | none => (0, s)

/-- ACK_DELAY_EXPIRY (R322): 2 µs after cum advanced on the stream from (dev, m). -/
def execAckDelayExpiry (dt dev m : Nat) (s : State) : Out := s.whenLive fun s =>
  let s := s.pass dt
  let v := s.rxS (streamKey dev m)
  if v.adv = 0 || 64 ≤ m || s.clk.up < v.advAt + 2000 then s else s.sendAck dev m

/-- UNKNOWN_OPCODE_FRAME_RX (R328, check 3): a frame of a reserved opcode. -/
def execUnknownOpcodeFrameRx (p : Nat) (s : State) : Out := s.whenLive fun s =>
  s.frameAt p (fun o => !memoryOps.contains o && !(0x20 ≤ o && o < 0x26) && o ≠ 0x50 && o ≠ 0x51) fun f s =>
    s.checked p f fun s => s.malformed p

/-- The outstanding operation that a response, or a NAK, with a sequence from (dev, m) answers (check 4). -/
def State.outstanding (s : State) (dev m seq : Nat) (kinds : Nat → Bool) : Option Nat :=
  (s.fab.ops.find? (fun e =>
    let o := e.2
    kinds o.kind && !o.got && o.dev = dev && o.mould = m && 0 < o.sends
      && (if o.kind = 3 || o.kind = 6 then o.left.contains seq else o.first = seq))).map (·.1)

/-- The sequence of a stream is covered or answered: its frame is sent no more. -/
def State.dropTx (s : State) (k : Nat) (p : Nat → Bool) : State :=
  let v := s.txS k
  s.setTx k { v with out := v.out.filter (fun e => !p e.seq) }

/-- Sequences of a put or store are settled (R331): it ends when all its frames are, and a put goes on sending into the room. -/
def State.settleSeqs (s : State) (id : Nat) (p : Nat → Bool) (code : Nat) : State :=
  let o := s.rop id
  if o.kind ≠ 3 && o.kind ≠ 6 then s
  else
    let o := { o with left := o.left.filter (fun q => !p q), fail := if o.fail = 0 then code else o.fail }
    let s := (s.setRop id o).feedPut (o.len / 64 + 1) id
    let o := s.rop id
    if o.left.isEmpty && (o.kind = 6 || o.len ≤ o.sent) then s.endRop id 0 [] 0 (s.isSlag o.mould o.ctx o.heat o.quenches) else s

/-- The put of a stream that waits for sequences goes on (R323). -/
def State.feedStream (s : State) (dev m : Nat) : State :=
  s.fab.ops.foldl (fun (u : State) e =>
    if e.2.kind = 3 && e.2.dev = dev && e.2.mould = m then u.feedPut (e.2.len / 64 + 1) e.1 else u) s

/-- Receive an answer of the row's opcode: checks 1 to 3. -/
def State.answerFrame (s : State) (p op : Nat) (ok : Bytes → Bool) (k : Bytes → State → State) : State :=
  s.frameAt p (fun o => decide (o = op)) fun f s => s.checked p f fun s =>
    if headerOk f 1 && ok f then k f s else s.malformed p

/-- ACK (R322 to R324, R331): every sequence up to the one it carries is covered. -/
def execAck (p : Nat) (s : State) : Out := s.whenLive fun s =>
  s.answerFrame p 0x18 (fun f => (fPay f).isEmpty) fun f s =>
    let dev := fSrc f
    let m := fMould f
    let k := streamKey dev m
    let v := s.txS k
    let cum := fSeq f
    let up := sext 32 (cum + 2 ^ 32 - v.acked)
    if up ≤ 0 || sext 32 (v.seq + 2 ^ 32 - cum) < 0 then s.orphan p
    else
      let cov := fun (q : Nat) => decide (0 ≤ sext 32 (cum + 2 ^ 32 - q))
      let s := (s.setTx k { v with acked := cum }).dropTx k cov
      let s := s.fab.ops.foldl (fun (u : State) e =>
        if e.2.dev = dev && e.2.mould = m && !e.2.got && 0 < e.2.sends then u.settleSeqs e.1 cov 0 else u) s
      s.feedStream dev m

/-- NAK (R328, R331, R342). -/
def execNak (p : Nat) (s : State) : Out := s.whenLive fun s =>
  s.answerFrame p 0x19 (fun f => (fPay f).isEmpty) fun f s =>
    let code := fStatus f
    match s.outstanding (fSrc f) (fMould f) (fSeq f) (fun k => 3 ≤ k && k ≤ 9) with
    | none => s.orphan p
    | some id =>
      let o := s.rop id
      let s := s.dropTx (streamKey o.dev o.mould) (· = fSeq f)
      let slag := s.isSlag o.mould o.ctx (fHeat f) o.quenches
      if o.kind = 3 || o.kind = 6 then s.settleSeqs id (· = fSeq f) code
      else if slag then s.endRop id 0 [] 0 true
      else if (o.kind = 7 || o.kind = 9) && code = E.fabBusy then s.setRop id { o with busy := o.busy + 1 }
      else s.endRop id code [] 0 false

/-- A response that ends its operation at once: its size checked, slag discarded (check 5), its status or value taken. -/
def State.response (s : State) (p op kind : Nat) (size : Bytes → Bool) (res : ROp → Bytes → Bytes × Nat) : State :=
  s.answerFrame p op (fun f => if fStatus f = 0 then size f else true) fun f s =>
    match s.outstanding (fSrc f) (fMould f) (fSeq f) (· = kind) with
    | none => s.orphan p
    | some id =>
      let o := s.rop id
      if s.isSlag o.mould o.ctx (fHeat f) o.quenches then s.endRop id 0 [] 0 true
      else if fStatus f ≠ 0 then s.endRop id (fStatus f) [] 0 false
      else
        let (r, v) := res o f
        s.endRop id 0 r v false

/-- LOAD_RESP (R328, R334). -/
def execLoadResp (p : Nat) (s : State) : Out := s.whenLive fun s =>
  s.response p 0x12 5 (fun f => let n := (fPay f).length; n == 1 || n == 2 || n == 4 || n == 8 || n == 72)
    fun o f => ((fPay f).take o.len, if o.len = 64 then beAt (fPay f) 64 8 else 0)

/-- ATOMIC_RESP (R328, R342). -/
def execAtomicResp (p : Nat) (s : State) : Out := s.whenLive fun s =>
  s.response p 0x13 7 (fun f => (fPay f).length == 8) fun _ f => ((fPay f).reverse, 0)

/-- VREAD_RESP (R328, R337). -/
def execVreadResp (p : Nat) (s : State) : Out := s.whenLive fun s =>
  s.response p 0x14 8 (fun f => (fPay f).length == 8 && beAt f 0x24 4 == 0) fun _ f => (((fPay f).take 4).reverse, 0)

/-- OWN_RESP (R328, R335). -/
def execOwnResp (p : Nat) (s : State) : Out := s.whenLive fun s =>
  s.response p 0x15 9 (fun f => (fPay f).length == 8) fun _ f => ((fPay f).reverse, 0)

/-- GET_RESP (R333, R334, R337): frames of the newest attempt land; the get ends when every granule has. -/
def execGetResp (p : Nat) (s : State) : Out := s.whenLive fun s =>
  s.answerFrame p 0x11 (fun f => fStatus f ≠ 0
      || decide (80 ≤ (fPay f).length ∧ (fPay f).length ≤ 4112 ∧ (fPay f).length % 64 = 16 ∧ beAt f 0x20 4 % 64 = 0 ∧ beAt f 0x2E 2 = 0)) fun f s =>
    match s.outstanding (fSrc f) (fMould f) (fSeq f) (· = 4) with
    | none => s.orphan p
    | some id =>
      let o := s.rop id
      let d := (fPay f).drop 16
      let sub := beAt f 0x20 4
      if s.isSlag o.mould o.ctx (fHeat f) o.quenches then s.endRop id 0 [] 0 true
      else if fFlags f / 16 ≠ o.attempt then s
      else if fStatus f ≠ 0 then s.endRop id (fStatus f) [] 0 false
      else if o.len < sub + d.length then s.malformed p
      else
        let s := s.writeMem o.mould (o.near + sub) d
        let new := ((List.range (d.length / 64)).map (· + sub / 64)).filter (fun g => !o.landed.contains g)
        let last := bit (fFlags f) 3
        let o := { o with
          landed := new ++ o.landed, v0 := beAt f 0x24 4
          v1 := if last then beAt f 0x28 4 else o.v1, gflags := if last then beAt f 0x2C 2 % 4 else o.gflags }
        let s := s.setRop id o
        if 64 * o.landed.length < o.len then s
        else s.endRop id (if bit o.gflags 1 then E.fabTorn else 0) [] 0 false

end Sys2Proof.Machine
end

