-- ==== Sys2Proof/Machine/Coll.lean ====
section
/-! DEFINITION. Sys2Proof/Machine/Coll.lean: collectives and the crucible (chapter 12): groups, contributions, reduction in member
order or over a tree, slots and credits, all-to-all, aborts. -/
namespace Sys2Proof.Machine

/-- Input bytes of a chunk (Table 12.3). -/
def chunkIn (d : Nat) : Nat := if d = 1 ∨ d = 2 then 8192 else 16384

/-- Bytes of an element of a type. -/
def collElem (d : Nat) : Nat := if d = 1 ∨ d = 2 then 2 else if d = 4 then 8 else 4

/-- Bytes of an element's partial. -/
def collPart (d : Nat) : Nat := if d = 4 then 8 else 4

/-- An element widened to its partial type: exact (R357). -/
def collWiden (d x : Nat) : Nat := if d = 1 ∨ d = 2 then toFp32 (elemVal d x) else x

/-- A partial narrowed to its element type: one rounding to nearest even, overflow to infinity (R357). -/
def collNarrow (d x : Nat) : Nat := if d = 1 ∨ d = 2 then (convert d true .rne (ofFp32 x)).code else x

/-- The order of FP32 codes with -0 below +0. -/
def fpOrder (x : Nat) : Int := if bit x 31 then -((x % 2 ^ 31 : Nat) : Int) - 1 else ((x % 2 ^ 31 : Nat) : Int)

/-- The step of a reduction on two partials (Table 12.3): 0 SUM, 1 MAX, 2 MIN. -/
def collStep (d rop a b : Nat) : Nat :=
  if d = 3 ∨ d = 4 then
    let w := 8 * collPart d
    if rop = 0 then (a + b) % 2 ^ w
    else if (rop = 1) = (sext w a ≤ sext w b) then b else a
  else if rop = 0 then fp32Add a b
  else if isNan32 a || isNan32 b then nan32
  else if (rop = 1) = (fpOrder a ≤ fpOrder b) then b else a

/-- The elements of k bytes of a byte list. -/
def elemsOf (k : Nat) (bs : Bytes) : List Nat := (List.range (bs.length / k)).map (fun i => leAt bs (k * i) k)

/-- A contribution widened to a partial. -/
def widenBytes (d : Nat) (bs : Bytes) : Bytes := (elemsOf (collElem d) bs).flatMap (fun x => toLe (collPart d) (collWiden d x))

/-- A partial narrowed to a result. -/
def narrowBytes (d : Nat) (bs : Bytes) : Bytes := (elemsOf (collPart d) bs).flatMap (fun x => toLe (collElem d) (collNarrow d x))

/-- Two partials of a chunk reduced. -/
def stepBytes (d rop : Nat) (a b : Bytes) : Bytes :=
  (List.zip (elemsOf (collPart d) a) (elemsOf (collPart d) b)).flatMap (fun (x, y) => toLe (collPart d) (collStep d rop x y))

/-- Bytes of the partial of a chunk of an operation of L bytes. -/
def partialBytes (d len chunk : Nat) : Nat := min (chunkIn d) (len - chunk * chunkIn d) / collElem d * collPart d

/-- The members whose partials member i adds: its predecessor in the chain, its children in the tree (R357, R359). -/
def collFrom (n i : Nat) (fast : Bool) : List Nat :=
  if fast then [2 * i + 1, 2 * i + 2].filter (· < n) else if i = 0 then [] else [i - 1]

/-- The member a partial goes on to; none at the member that forms the result. -/
def collNext (n i : Nat) (fast : Bool) : Option Nat :=
  if fast then (if i = 0 then none else some ((i - 1) / 2)) else if i + 1 < n then some (i + 1) else none

/-- The credits member r grants member i when the group becomes ACTIVE (R360): its quota to its predecessor, and shared out over
its children in ascending index. -/
def collGrant (quota n r i : Nat) : Nat :=
  if i + 1 = r then quota
  else
    let l := collFrom n r true
    if l.contains i then quota / l.length + (if i = l.headD 0 then quota % l.length else 0) else 0

/-- A collective frame to a member (Tables 12.4, 12.5). -/
def State.sendColl (s : State) (g dst op seq stamp len64 chunk late stage part status : Nat) (data : Bytes) : State :=
  let e := s.grpEnt g
  let pay := toBe 2 e.handle ++ toBe 2 (s.rd F.collG_generation g) ++ toBe 4 len64 ++ toBe 4 chunk ++ toBe 2 late ++ toBe 1 stage
    ++ toBe 1 part ++ data
  let f := mkFrame (e.members.getD dst 0) s.devId e.mould (s.rd F.fabEpoch_value) 0 op 0 seq 2 stamp status pay
  s.dispatchFrame f 12 0

/-- COLL_CREDIT to a member: the cumulative slot credits and landed bytes granted to it (R364). -/
def State.sendCredit (s : State) (g dst op : Nat) : State :=
  let v := s.grp g
  s.sendColl g dst 0x23 op s.short 0 0 0 4 0 0 (toBe 4 (Tab.get 0 v.credGive dst) ++ toBe 8 (Tab.get 0 v.landGive dst))

/-- The digest of a group entry in a COLL_HELLO (R350). -/
def helloDigest (e : Bytes) : Bytes := shake256 8 e

/-- COLL_HELLO to a member. -/
def State.sendHello (s : State) (g dst : Nat) : State := s.sendColl g dst 0x20 0 s.short 0 0 0 0 0 0 (helloDigest (s.grp g).entry)

/-- The other members of a group. -/
def State.others (s : State) (g : Nat) : List Nat :=
  (List.range (s.grpEnt g).members.length).filter (· ≠ s.grpIdx g)

/-- A group whose members have all said HELLO becomes ACTIVE: its setup ends, and its credits are granted (R350, R360). -/
def State.activate (s : State) (g : Nat) : State :=
  let e := s.grpEnt g
  let v := s.grp g
  let i := s.grpIdx g
  let n := e.members.length
  if s.rd F.collG_state g ≠ 1 || !(s.others g).all (fun j => v.hellos.contains j) then s
  else
    let from_ := (collFrom n i false ++ (if e.fastOk then collFrom n i true else []))
    let give := from_.foldl (fun t j => Tab.set 0 t j (collGrant e.quota n i j)) ([] : Tab Nat)
    let s := (s.setGrp g { v with setup := none, credGive := give, landGive := [] }).wr F.collG_state 2 g
    let s := match v.setup with | some o => s.endOp o 2 0 | none => s
    if opReduces e.op then from_.foldl (fun (u : State) j => u.sendCredit g j 0) s else s

/-- The aborts that have not yet been sent once go out (R373). -/
def State.sendAbort (s : State) (a : AbortSt) : State :=
  a.devs.foldl (fun (u : State) d =>
    let pay := toBe 2 a.handle ++ toBe 2 a.gen ++ toBe 4 0 ++ toBe 4 0 ++ toBe 2 0 ++ toBe 1 5 ++ toBe 1 0 ++ toBe 2 a.idx ++ toBe 6 0
    u.dispatchFrame (mkFrame d u.devId a.mould (u.rd F.fabEpoch_value) 0 0x25 0 a.op 2 u.short a.code pay) 12 0) s

/-- Aborts due now are sent, each at most three times, 100 µs apart. -/
def State.flushAborts (s : State) : State :=
  let due := s.aborts.filter (fun a => a.at_ ≤ s.clk.up)
  let rest := s.aborts.filterMap fun a =>
    if a.at_ ≤ s.clk.up then (if a.left ≤ 1 then none else some { a with left := a.left - 1, at_ := a.at_ + 100000 }) else some a
  due.foldl (fun (u : State) a => u.sendAbort a) { s with aborts := rest }

/-- A group is admitted into SETUP at a free table index (R349, R350). -/
def State.admitGroup (s : State) (entry : Bytes) (setup : Option Nat) : State :=
  let e := groupEntOf entry
  match (List.range 256).find? (fun g => s.rd F.collG_state g = 0) with
  | none => s
  | some g =>
    let s := s.setGrp g { GroupSt.init with entry := entry, setup := setup, setAt := s.clk.up, helloAt := s.clk.up }
    let s := ((((s.wr F.collG_handle e.handle g).wr F.collG_state 1 g).wr F.collG_mould e.mould g).wr F.collG_generation 0 g).wr
      F.collG_quota e.quota g
    let s := s.setFlag F.collG_list e.list g
    s.activate g

/-- The code with which a run-time setup is refused (R348, R349); 0 when it is admitted. -/
def State.groupAdmit (s : State) (entry : Bytes) : Nat :=
  let e := groupEntOf entry
  let st := s.mstate e.mould
  if !s.groupEntOk entry false then E.collEntry
  else if 4096 < s.quotaAll + e.quota then E.crucibleFull
  else if (s.envelope e.mould).crucible < s.quotaOf e.mould + e.quota then E.collCap
  else if 256 ≤ s.groupIdx.length then E.collGroups
  else if (s.grpOf e.handle).isSome then E.collHandle
  else if st ≠ 2 && st ≠ 3 && st ≠ 4 then E.mouldState
  else if s.ctxCount e.mould ≤ e.ctx then E.collEntry
  else 0

/-- Length of the result at member i (Table 12.2). -/
def resultLen (e : GroupEnt) (i len : Nat) : Nat :=
  if e.op = 1 then len / e.members.length else if e.op = 2 then e.members.length * len
  else if e.op = 4 then (if i = e.root then len else 0) else if e.op = 6 then 0 else len

/-- Bytes of the count vector of an all-to-all (R368). -/
def countBytes (n : Nat) : Nat := 64 * cdiv (4 * n) 64

/-- L is allowed (Table 12.2). -/
def lenAllowed (e : GroupEnt) (len : Nat) : Bool :=
  let n := e.members.length
  if e.op = 1 then len % (64 * n) == 0 else if e.op = 5 then len == countBytes n + n * e.a2aCap
  else if e.op = 6 then len == 64 else len % 64 == 0

/-- Bytes in flight of a group: results and data sent and not yet reported landed (R361). -/
def GroupSt.inFlight (v : GroupSt) : Nat := sumNat (v.landUsed.map (fun e => e.2 - Tab.get 0 v.landHave e.1))

/-- A waiting send may go now (R360, R361). -/
def GroupSt.mayGo (v : GroupSt) (quota : Nat) (q : CollSend) : Bool :=
  if q.stage = 1 then decide (Tab.get 0 v.credUsed q.dst < Tab.get 0 v.credHave q.dst)
  else decide (v.inFlight + (if q.data.isEmpty then q.n else q.data.length) ≤ 16384 * quota)

/-- A slot's chunk is freed: one credit goes back to each member it came from (R360). -/
def State.freeSlots (s : State) (g op chunk : Nat) : State :=
  let v := s.grp g
  let mine := v.slots.filter (fun x => x.op = op && x.chunk = chunk)
  let s := s.setGrp g { v with slots := v.slots.filter (fun x => !(x.op = op && x.chunk = chunk)) }
  mine.foldl (fun (u : State) x =>
    let w := u.grp g
    (u.setGrp g { w with credGive := Tab.set 0 w.credGive x.src ((Tab.get 0 w.credGive x.src + 1) % 2 ^ 32) }).sendCredit g x.src op) s

/-- The frames of a send go out: 4,096 B each, aligned in the chunk. -/
def State.emitSend (s : State) (g : Nat) (q : CollSend) : State :=
  let e := s.grpEnt g
  let raw := if q.data.isEmpty then s.readMem e.mould q.src q.n else q.data
  let data := if q.stage = 1 && q.data.isEmpty then widenBytes e.dtype raw else raw
  (List.range 4).foldl (fun (u : State) p =>
    let lo := max q.part (4096 * p)
    let hi := min (q.part + data.length) (4096 * (p + 1))
    if hi ≤ lo then u
    else u.sendColl g q.dst (0x20 + (if q.stage = 3 then 4 else q.stage)) q.op q.stamp q.len64 q.chunk q.late (q.stage + 16 * ofBool q.fast)
      p 0 (slice data (lo - q.part) (hi - lo))) s

/-- The first waiting send that may go is sent (R360, R361). At the member that formed the result, the chunk's slots are freed when
its last result frames have been sent; elsewhere a forwarded chunk keeps its slots until the credit comes back. -/
def State.pump (s : State) (g : Nat) : State :=
  let v := s.grp g
  let e := s.grpEnt g
  match v.outq.findIdx? (fun q => v.mayGo e.quota q) with
  | none => s
  | some i =>
    match v.outq[i]? with
    | none => s
    | some q =>
      let s := s.emitSend g q
      let v := { v with outq := v.outq.eraseIdx i }
      if q.stage = 1 then
        s.setGrp g { v with
          credUsed := Tab.set 0 v.credUsed q.dst (Tab.get 0 v.credUsed q.dst + 1)
          slots := v.slots.map (fun (x : CollSlot) => if x.op = q.op && x.chunk = q.chunk then { x with sent := true } else x) }
      else
        let n := if q.data.isEmpty then q.n else q.data.length
        let s := s.setGrp g { v with landUsed := Tab.set 0 v.landUsed q.dst (Tab.get 0 v.landUsed q.dst + n) }
        let last := q.stage = 2 && (collNext e.members.length (s.grpIdx g) q.fast).isNone
          && !v.outq.any (fun x => x.stage = 2 && x.op = q.op && x.chunk = q.chunk)
        if last then s.freeSlots g q.op q.chunk else s

/-- A granule prefix advanced over the granules landed; fuel bounds it. -/
def prefixOver (l : List Nat) : Nat → Nat → Nat
  | 0, p => p
  | f + 1, p => if l.contains p then prefixOver l f (p + 1) else p

/-- Result bytes are written at an offset of the local result, and the remote token counts its in-order prefix (R356). -/
def State.landColl (s : State) (g off : Nat) (bs : Bytes) : State :=
  match (s.grp g).cur with
  | none => s
  | some c =>
    let e := s.grpEnt g
    let s := s.writeMem e.mould (c.dst + off) bs
    let landed := ((List.range (cdiv bs.length 64)).map (· + off / 64)).filter (fun x => !c.landed.contains x && c.prefix_ ≤ x) ++ c.landed
    let p := prefixOver landed landed.length c.prefix_
    let s := s.setGrp g { s.grp g with cur := some { c with landed := landed.filter (fun x => p ≤ x), prefix_ := p } }
    if c.tokEn && c.prefix_ < p then s.post c.cluster e.mould e.ctx c.tok (p - c.prefix_) else s

/-- The later of two begin stamps, as a signed difference of short times, with its member (R371). -/
def laterStamp (a b : Nat × Nat) : Nat × Nat := if 0 < sext 32 (b.1 + 2 ^ 32 - a.1) then b else a

/-- A stamp that arrived is noted in the operation under way. -/
def CollOp.note (c : CollOp) (st late : Nat) : CollOp :=
  let (a, b) := laterStamp (c.stamp, c.late) (st, late)
  { c with stamp := a, late := b }

/-- Queue a send of a group. -/
def State.queueSend (s : State) (g : Nat) (q : CollSend) : State :=
  let v := s.grp g
  s.setGrp g { v with outq := v.outq ++ [q] }

/-- The result of a chunk is formed at this member (R358, R359): written here where it belongs, and sent on. -/
def State.deliver (s : State) (g chunk : Nat) (res : Bytes) : State :=
  match (s.grp g).cur with
  | none => s
  | some c =>
    let e := s.grpEnt g
    let i := s.grpIdx g
    let n := e.members.length
    let off := chunk * chunkIn e.dtype
    let q := fun (j lo : Nat) (d : Bytes) =>
      (⟨j, 2, c.seq, c.len / 64, c.fast, chunk, lo, d, 0, 0, c.stamp, c.late⟩ : CollSend)
    if e.op = 0 then
      let s := s.landColl g off res
      (if c.fast then collFrom n i true else if i = 0 then [] else [i - 1]).foldl (fun (u : State) j => u.queueSend g (q j 0 res)) s
    else if e.op = 4 then
      if e.root = i then s.landColl g off res else s.queueSend g (q e.root 0 res)
    else
      let b := c.len / n
      (List.range n).foldl (fun (u : State) k =>
        let lo := max off (k * b)
        let hi := min (off + res.length) ((k + 1) * b)
        if hi ≤ lo then u
        else
          let d := slice res (lo - off) (hi - lo)
          if k = i then u.landColl g (lo - k * b) d else u.queueSend g (q k (lo - off) d)) s

/-- A chunk whose partials are all here is added to the own contribution, in member order or in arrival order, and goes on (R357 to
R359). -/
def State.foldChunk (s : State) (g chunk : Nat) : State :=
  let v := s.grp g
  match v.cur with
  | none => s
  | some c =>
    let e := s.grpEnt g
    let i := s.grpIdx g
    let n := e.members.length
    let mine := v.slots.filter (fun x => x.op = c.seq && x.chunk = chunk && x.full)
    if c.summed.contains chunk || mine.length < (collFrom n i c.fast).length then s
    else
      let own := s.readMem e.mould (c.src + chunk * chunkIn e.dtype) (min (chunkIn e.dtype) (c.len - chunk * chunkIn e.dtype))
      let acc := mine.foldl (fun a x => stepBytes e.dtype e.rop ((sortBy (fun a b => a.1 ≤ b.1) x.parts).flatMap (·.2)) a)
        (widenBytes e.dtype own)
      let c := mine.foldl (fun (d : CollOp) x => d.note x.stamp x.late) { c with summed := chunk :: c.summed }
      let s := s.setGrp g { v with cur := some c }
      match collNext n i c.fast with
      | some j => s.queueSend g ⟨j, 1, c.seq, c.len / 64, c.fast, chunk, 0, acc, 0, 0, c.stamp, c.late⟩
      | none =>
        let s := s.deliver g chunk (narrowBytes e.dtype acc)
        if (s.grp g).outq.any (fun x => x.stage = 2 && x.op = c.seq && x.chunk = chunk) then s else s.freeSlots g c.seq chunk

/-- The number of chunks of an operation. -/
def chunkCount (e : GroupEnt) (len : Nat) : Nat := cdiv len (chunkIn e.dtype)

/-- The operation under way ends when its result has been written and nothing of it waits to be sent (R356): the slowest member is
reported (R371). -/
def State.endIfDone (s : State) (g : Nat) : State :=
  let v := s.grp g
  match v.cur with
  | none => s
  | some c =>
    let e := s.grpEnt g
    let i := s.grpIdx g
    let all := if opReduces e.op then decide (chunkCount e c.len ≤ c.summed.length)
      else if e.op = 6 then (s.others g).all (fun j => c.froms.contains j) else true
    if !all || 64 * c.prefix_ < resultLen e i c.len || v.outq.any (fun q => q.op = c.seq) then s
    else
      let lag := (c.stamp + 2 ^ 32 - c.stamp0) % 2 ^ 32
      let rep := if s.rd F.collSlow_slowest g = c.late && s.rd F.collSlow_repeat g ≠ 0 then satAdd 16 (s.rd F.collSlow_repeat g) 1 else 1
      let s := ((s.wr F.collSlow_slowest c.late g).wr F.collSlow_lagNs lag g).wr F.collSlow_repeat rep g
      let s := s.setGrp g { v with cur := none, taken := v.taken.filter (fun k => k / 2 ^ 48 % 2 ^ 32 ≠ c.seq) }
      s.endColl c.opId 0

/-- Handle of a collective frame. -/
def cHandle (f : Bytes) : Nat := beAt f 0x20 2
/-- Generation of a collective frame. -/
def cGen (f : Bytes) : Nat := beAt f 0x22 2
/-- op_len64 of a collective frame. -/
def cLen (f : Bytes) : Nat := beAt f 0x24 4
/-- Chunk of a collective frame. -/
def cChunk (f : Bytes) : Nat := beAt f 0x28 4
/-- late_member of a collective frame. -/
def cLate (f : Bytes) : Nat := beAt f 0x2C 2
/-- Stage byte of a collective frame. -/
def cStage (f : Bytes) : Nat := beAt f 0x2E 1
/-- Part of a collective frame. -/
def cPart (f : Bytes) : Nat := beAt f 0x2F 1
/-- Data of a collective frame. -/
def cData (f : Bytes) : Bytes := (fPay f).drop 16

/-- The key under which a frame counts as taken (R365). -/
def takenKey (src : Nat) (f : Bytes) : Nat :=
  ((src * 2 ^ 32 + fSeq f) * 2 ^ 32 + cChunk f) * 2 ^ 16 + cPart f * 256 + cStage f

/-- Check 3 of a collective frame (Tables 12.4, 12.5). -/
def collOk (f : Bytes) (op : Nat) : Bool :=
  let n := (cData f).length
  let bare := cLate f == 0 && cChunk f == 0 && cPart f == 0
  headerOk f 2 && decide (16 ≤ (fPay f).length) && decide (cStage f < 32) && fHeat f == 0
    && (if op = 0x20 then cStage f % 16 == 0 && n == 8 && bare
        else if op = 0x23 then cStage f % 16 == 4 && n == 12 && bare
        else if op = 0x25 then cStage f % 16 == 5 && n == 8 && bare
        else cStage f % 16 == (if op = 0x24 then 3 else op - 0x20) && decide (0 < n ∧ n ≤ 4096 ∧ cPart f < 4))

/-- Receive a collective frame of an opcode: checks 1 to 3, then the group, its generation and the source's member index (R365). -/
def State.collRx (s : State) (p op : Nat) (k : Nat → Nat → Bytes → State → State) : State :=
  s.frameAt p (fun o => decide (o = op)) fun f s => s.checked p f fun s =>
    if !collOk f op then s.malformed p
    else
      match s.groupIdx.find? (fun g => s.rd F.collG_handle g = cHandle f && s.rd F.collG_mould g = fMould f) with
      | none => (s.cnt F.collStat_unknown).badFrame p
      | some g =>
        let d := sext 16 (cGen f + 2 ^ 16 - s.rd F.collG_generation g)
        match (s.grpEnt g).members.findIdx? (· = fSrc f) with
        | none => s.malformed p
        | some i => if d < 0 then s.cnt F.collStat_stale else if 0 < d then s else k g i f s

/-- COLL_HELLO (R350). -/
def execCollHello (p : Nat) (s : State) : Out := s.whenLive fun s =>
  s.collRx p 0x20 fun g i f s =>
    let v := s.grp g
    let st := s.rd F.collG_state g
    if cData f ≠ helloDigest v.entry then (s.cnt F.collStat_mismatch).logWith 0x1202 0x0003 (fMould f) (cHandle f)
    else if st = 2 then s.sendHello g i
    else if st = 1 then (s.setGrp g { v with hellos := if v.hellos.contains i then v.hellos else i :: v.hellos }).activate g
    else s

/-- COLL_HELLO_TIMER (R350). -/
def execCollHelloTimer (dt g : Nat) (s : State) : Out := s.whenLive fun s =>
  let s := s.pass dt
  if 256 ≤ g || s.rd F.collG_state g ≠ 1 || s.clk.up < (s.grp g).helloAt + 1000000 then s
  else (s.others g).foldl (fun (u : State) j => u.sendHello g j) (s.setGrp g { s.grp g with helloAt := s.clk.up })

/-- COLL_SETUP_TIMEOUT (R351). -/
def execCollSetupTimeout (dt g : Nat) (s : State) : Out := s.whenLive fun s =>
  let s := s.pass dt
  match (s.grp g).setup with
  | some o =>
    if 256 ≤ g || s.rd F.collG_state g ≠ 1 || s.clk.up < (s.grp g).setAt + 100000000 then s
    else (s.removeGroup g).endOp o 3 E.collSetupTimeout
  | none => s

/-- A frame's operation has ended here: all its frames were taken. -/
def GroupSt.over (v : GroupSt) (seq : Nat) : Bool :=
  decide (sext 32 (seq + 2 ^ 32 - v.opSeq) < 0) && (v.cur.map (·.seq)) ≠ some seq

/-- A data frame of a group in SETUP or ACTIVE is taken once (R365), and its length and mode agree with the own operation (R355). -/
def State.takeColl (s : State) (g i : Nat) (f : Bytes) (k : State → State) : State :=
  let v := s.grp g
  let key := takenKey i f
  if s.rd F.collG_state g = 3 then s
  else if v.taken.contains key || v.over (fSeq f) then s.cnt F.collStat_dup
  else
    let s := s.setGrp g { v with taken := key :: v.taken }
    match v.cur with
    | some c =>
      if c.seq = fSeq f && (c.len / 64 ≠ cLen f || c.fast ≠ bit (cStage f) 4) then (s.abortGroup g E.collMismatch).flushAborts else k s
    | none => k s

/-- A residue check fails while a chunk is added (R367): once, repeated; twice, the group aborts. -/
def State.residue (s : State) (g : Nat) (retry fail : Bool) (k : State → State) : State :=
  let m := s.rd F.collG_mould g
  let s := if retry || fail then ((s.cnt F.collRes_retry).count 6 255).logWith 0x1203 0x0003 m g else s
  if fail then
    ((((s.cnt F.collRes_fail).count 7 255).logWith 0x1204 0x0003 m g).abortGroup g E.collResidue).flushAborts
  else k s

/-- COLL_PART (R357 to R360, R366, R367): `retry` when a residue check fails once, `fail` when it fails again. -/
def execCollPart (p : Nat) (retry fail : Bool) (s : State) : Out := s.whenLive fun s =>
  s.collRx p 0x21 fun g i f s =>
    let e := s.grpEnt g
    let fast := bit (cStage f) 4
    if !opReduces e.op || !(collFrom e.members.length (s.grpIdx g) fast).contains i then s.malformed p
    else s.takeColl g i f fun s =>
      let v := s.grp g
      let here := fun (x : CollSlot) => x.src = i && x.op = fSeq f && x.chunk = cChunk f
      let x := (v.slots.find? (fun x => here x)).getD ⟨i, fSeq f, cChunk f, fast, cLen f, [], false, false, 0, 0⟩
      let parts := (cPart f, cData f) :: x.parts
      let full := partialBytes e.dtype (64 * cLen f) (cChunk f) ≤ sumNat (parts.map (fun y => y.2.length))
      let x := { x with parts := parts, full := full, stamp := beAt f 0x14 4, late := cLate f }
      let s := s.setGrp g { v with slots := v.slots.filter (fun y => !here y) ++ [x] }
      if full && (v.cur.map (·.seq)) = some (fSeq f) then
        s.residue g retry fail fun s => (((s.foldChunk g (cChunk f)).pump g)).endIfDone g
      else s

/-- Bytes landed from a member are reported to it (R361). -/
def State.reportLanded (s : State) (g i op n : Nat) : State :=
  let v := s.grp g
  (s.setGrp g { v with landGive := Tab.set 0 v.landGive i ((Tab.get 0 v.landGive i + n) % 2 ^ 64) }).sendCredit g i op

/-- COLL_RESULT (R356, R358, R361). -/
def execCollResult (p : Nat) (s : State) : Out := s.whenLive fun s =>
  s.collRx p 0x22 fun g i f s =>
    let e := s.grpEnt g
    if !opReduces e.op then s.malformed p
    else s.takeColl g i f fun s =>
      match (s.grp g).cur with
      | some c =>
        if c.seq ≠ fSeq f then s
        else
          let me := s.grpIdx g
          let n := e.members.length
          let d := cData f
          let b := c.len / n
          let lo := cChunk f * chunkIn e.dtype + 4096 * cPart f
          let off := if e.op = 1 then max lo (me * b) - me * b else lo
          if resultLen e me c.len < off + d.length then s.malformed p
          else
            let s := s.setGrp g { s.grp g with cur := some (c.note (beAt f 0x14 4) (cLate f)) }
            let s := (s.landColl g off d).reportLanded g i c.seq d.length
            let on := if e.op ≠ 0 then [] else if c.fast then collFrom n me true else if me = 0 then [] else [me - 1]
            let s := on.foldl (fun (u : State) j =>
              u.queueSend g ⟨j, 2, c.seq, c.len / 64, c.fast, cChunk f, 4096 * cPart f, d, 0, 0, beAt f 0x14 4, cLate f⟩) s
            (if on.isEmpty then s else s.pump g).endIfDone g
      | none => s

/-- An all-to-all count from member j: its result entry, and zeros after its bytes (R369, log entry 43). -/
def State.countFrom (s : State) (g j count : Nat) : State :=
  match (s.grp g).cur with
  | none => s
  | some c =>
    let e := s.grpEnt g
    let n := e.members.length
    let v := min count e.a2aCap + (if e.a2aCap < count then 2 ^ 31 else 0)
    let s := s.writeMem e.mould (c.dst + 4 * j) (toLe 4 v)
    let c := { c with froms := if c.froms.contains j then c.froms else j :: c.froms, pieces := Tab.set 0 c.pieces j (min count e.a2aCap) }
    let s := s.setGrp g { s.grp g with cur := some c }
    let tail := List.replicate (e.a2aCap - min count e.a2aCap) 0#8
    let s := s.writeMem e.mould (c.dst + countBytes n + j * e.a2aCap + min count e.a2aCap) tail
    let b := j / 16
    if ((List.range 16).map (· + 16 * b)).all (fun k => n ≤ k || c.froms.contains k) then
      s.landColl g (64 * b) (s.readMem e.mould (c.dst + 64 * b) 64)
    else s

/-- A block's bytes from member j at an offset of the block, clipped to its count once that is known (R369). -/
def State.blockFrom (s : State) (g j off : Nat) (d : Bytes) : State :=
  match (s.grp g).cur with
  | none => s
  | some c =>
    let e := s.grpEnt g
    let keep := if c.froms.contains j then Tab.get 0 c.pieces j - off else d.length
    let d := d.take keep ++ List.replicate (d.length - keep) 0#8
    s.landColl g (countBytes e.members.length + j * e.a2aCap + off) d

/-- COLL_DATA of the operation under way lands (R361, R369). -/
def State.landData (s : State) (g i : Nat) (f : Bytes) : State :=
  match (s.grp g).cur with
  | none => s
  | some c =>
    let e := s.grpEnt g
    let d := cData f
    let off := cChunk f * 16384 + 4096 * cPart f
    let s := s.setGrp g { s.grp g with cur := some (c.note (beAt f 0x14 4) (cLate f)) }
    let s := if e.op = 2 then (if off + d.length ≤ c.len then s.landColl g (i * c.len + off) d else s)
      else if e.op = 3 then (if off + d.length ≤ c.len then s.landColl g off d else s)
      else if e.op = 5 then
        if cChunk f = cdiv e.a2aCap 16384 then s.countFrom g i (leAt d 0 4)
        else if off + d.length ≤ e.a2aCap then s.blockFrom g i off d else s
      else
        match (s.grp g).cur with
        | some c => s.setGrp g { s.grp g with cur := some { c with froms := if c.froms.contains i then c.froms else i :: c.froms } }
        | none => s
    (s.reportLanded g i c.seq d.length).endIfDone g

/-- COLL_DATA (R361, R369): data of an operation whose MOV has not begun here waits for it. -/
def execCollData (p : Nat) (s : State) : Out := s.whenLive fun s =>
  s.collRx p 0x24 fun g i f s =>
    let e := s.grpEnt g
    if opReduces e.op || (e.op = 3 && i ≠ e.root) || cLate f ≠ i then s.malformed p
    else s.takeColl g i f fun s =>
      let v := s.grp g
      if (v.cur.map (·.seq)) = some (fSeq f) then s.landData g i f else s.setGrp g { v with early := v.early ++ [f] }

/-- COLL_CREDIT (R360, R364): cumulative values; a credit that comes back frees the slots of chunks forwarded to that member. -/
def execCollCredit (p : Nat) (s : State) : Out := s.whenLive fun s =>
  s.collRx p 0x23 fun g i f s =>
    if s.rd F.collG_state g = 3 then s
    else
      let v := s.grp g
      let e := s.grpEnt g
      let me := s.grpIdx g
      let cr := beAt f 0x30 4
      let la := beAt f 0x34 8
      let cr := if 0 < sext 32 (cr + 2 ^ 32 - Tab.get 0 v.credHave i) then cr else Tab.get 0 v.credHave i
      let la := if 0 < sext 64 (la + 2 ^ 64 - Tab.get 0 v.landHave i) then la else Tab.get 0 v.landHave i
      let s := s.setGrp g { v with credHave := Tab.set 0 v.credHave i cr, landHave := Tab.set 0 v.landHave i la }
      let fast := decide (i < me)
      let sent := ((v.slots.filter (fun x => x.sent && x.fast == fast)).map (fun x => (x.op, x.chunk))).eraseDups
      let back := cr - collGrant e.quota e.members.length i me
      (sent.take (sent.length - (Tab.get 0 v.credUsed i - back))).foldl (fun (u : State) x => u.freeSlots g x.1 x.2) s

/-- COLL_CHUNK_SEND (R360 to R362): a waiting chunk or piece of a group goes out once it may. -/
def execCollChunkSend (g : Nat) (s : State) : Out := s.whenLive fun s =>
  if 256 ≤ g || s.rd F.collG_state g ≠ 2 then s else (s.pump g).endIfDone g

/-- COLL_ABORT (R373). -/
def execCollAbort (p : Nat) (s : State) : Out := s.whenLive fun s =>
  s.collRx p 0x25 fun g _ f s => (s.abortGroup g (fStatus f)).flushAborts

/-- COLL_ABORT_RESEND (R373): sent 3 times, 100 µs apart. -/
def execCollAbortResend (dt : Nat) (s : State) : Out := s.whenLive fun s => (s.pass dt).flushAborts

/-- COLL_OP_TIMEOUT (R373, Table 12.6). -/
def execCollOpTimeout (dt g : Nat) (s : State) : Out := s.whenLive fun s =>
  let s := s.pass dt
  match (s.grp g).cur with
  | some c =>
    if 256 ≤ g || s.clk.up < c.beganAt + 1000 * (s.grpEnt g).timeoutUs then s else (s.abortGroup g E.collTimeout).flushAborts
  | none => s

/-- The contribution of an operation that has begun is queued or used (R358, R359, R368). -/
def State.contribute (s : State) (g : Nat) : State :=
  match (s.grp g).cur with
  | none => s
  | some c =>
    let e := s.grpEnt g
    let i := s.grpIdx g
    let n := e.members.length
    let m := e.mould
    let piece := fun (u : State) (j base len k : Nat) =>
      u.queueSend g ⟨j, 3, c.seq, c.len / 64, c.fast, k, 0, [], base + 16384 * k, min 16384 (len - 16384 * k), c.stamp0, i⟩
    let block := fun (u : State) (j base len : Nat) => (List.range (cdiv len 16384)).foldl (fun (w : State) k => piece w j base len k) u
    if opReduces e.op then
      (List.range (chunkCount e c.len)).foldl (fun (u : State) k => u.foldChunk g k) s
    else if e.op = 2 then
      let s := (s.others g).foldl (fun (u : State) j => block u j c.src c.len) s
      s.landColl g (i * c.len) (s.readMem m c.src c.len)
    else if e.op = 3 then
      if i = e.root then
        let s := (s.others g).foldl (fun (u : State) j => block u j c.src c.len) s
        s.landColl g 0 (s.readMem m c.src c.len)
      else s
    else if e.op = 5 then
      let cap := e.a2aCap
      let count := fun (j : Nat) => leNat (s.readMem m (c.src + 4 * j) 4)
      if (List.range n).any (fun j => bit (count j) 31) then s.abortGroup g E.collLength
      else
        let s := (List.range n).foldl (fun (u : State) j =>
          if cap < count j then (u.cnt F.collA2a_ovfBlocks g).cnt F.collA2a_ovfBytes g 0 ((count j - cap) / 64) else u) s
        let s := (s.others g).foldl (fun (u : State) j =>
          let base := c.src + countBytes n + j * cap
          let u := (block u j base cap).cnt F.collA2a_padBytes g 0 ((cap - count j) / 64)
          u.queueSend g ⟨j, 3, c.seq, c.len / 64, c.fast, cdiv cap 16384, 0, toLe 4 (count j) ++ List.replicate 60 0#8, 0, 0, c.stamp0, i⟩) s
        let d := s.readMem m (c.src + countBytes n + i * cap) cap
        (s.blockFrom g i 0 d).countFrom g i (count i)
    else (s.others g).foldl (fun (u : State) j => block u j c.src c.len) s

/-- The code with which a kind-5 MOV fails when it begins (R354); 0 for none. -/
def State.collCheck (s : State) (g m x : Nat) (v : MovSt) : Nat :=
  let e := s.grpEnt g
  let i := s.grpIdx g
  let n := resultLen e i v.len
  if e.mould ≠ m || e.ctx ≠ x then E.collHandle
  else if !lenAllowed e v.len then E.collLength
  else if !s.covered m (v.dst / 65536) n 2 then E.collRegion
  else if v.fast && !e.fastOk then E.collFast
  else if s.rd F.collG_state g = 3 then E.collAborted
  else 0

/-- A kind-5 MOV begins as its group's next operation (R354, R355): the contribution goes out, and partials and data that came before
it are used, unless they disagree with it. -/
def State.beginColl (s : State) (g c m x : Nat) (v : MovSt) : State :=
  let e := s.grpEnt g
  let i := s.grpIdx g
  let w := s.grp g
  let cur : CollOp := ⟨w.opSeq, v.opId, c, v.src % 2 ^ 48, v.dst / 65536, v.len, v.fast, v.remTok, v.remEn, s.short, s.clk.up, [], [], 0,
    if e.op = 6 then [i] else [], [], s.short, i⟩
  let early := w.early.filter (fun f => fSeq f = cur.seq)
  let bad := early.any (fun f => cLen f ≠ v.len / 64 || bit (cStage f) 4 ≠ v.fast)
    || w.slots.any (fun x => x.op = cur.seq && (x.len64 ≠ v.len / 64 || x.fast ≠ v.fast))
  let s := s.setRop v.opId (v.rop c m x s.clk.up)
  let s := s.setGrp g { w with opSeq := (w.opSeq + 1) % 2 ^ 32, cur := some cur, early := w.early.filter (fun f => fSeq f ≠ cur.seq) }
  if bad then (s.abortGroup g E.collMismatch).flushAborts
  else
    let s := (s.contribute g).flushAborts
    let s := early.foldl (fun (u : State) f =>
      match e.members.findIdx? (· = fSrc f) with
      | some j => u.landData g j f
      | none => u) s
    s.endIfDone g

/-- A list-group operation of a mould is in flight (R375). -/
def State.listBusy (s : State) (m : Nat) : Bool :=
  s.groupIdx.any (fun g => s.flag F.collG_list g && s.rd F.collG_mould g = m && (s.grp g).cur.isSome)

end Sys2Proof.Machine
end

