-- ==== Sys2Proof/Machine/Ladle.lean ====
section
/-! DEFINITION. Sys2Proof/Machine/Ladle.lean: the ladle begins and completes MOVs (R167, R182, R268, R330 to R334, R353 to R356). -/
namespace Sys2Proof.Machine

/-- The transfer queue of a context on a cluster (R167). -/
def State.movs (s : State) (c m x : Nat) : List MovSt := Tab.get [] (s.clu c).ladle (ctxKey m x)

/-- Replace a transfer queue. -/
def State.setMovs (s : State) (c m x : Nat) (l : List MovSt) : State :=
  let k := s.clu c
  s.setClu c { k with ladle := Tab.set [] k.ladle (ctxKey m x) l }

/-- Replace the transfer of an operation number in its queue. -/
def State.setMov (s : State) (c m x : Nat) (v : MovSt) : State :=
  s.setMovs c m x ((s.movs c m x).map (fun (y : MovSt) => if y.opId = v.opId then v else y))

/-- A transfer has begun with its operation record. -/
def State.beganMov (s : State) (c m x : Nat) (v : MovSt) (o : ROp) : State :=
  (s.setMov c m x { v with begun := true }).setRop v.opId o

/-- A transfer of kind 0, 1 or 2 begins: its granules are asked for (R284, R292); a far tier that is down fails it at once. -/
def State.beginLocal (s : State) (c m x : Nat) (v : MovSt) : State :=
  let src := v.src % 2 ^ 48
  let dst := v.dst % 2 ^ 48
  let o := { v.rop c m x s.clk.up with near := if v.kind = 2 then dst else src, far := if v.kind = 2 then src else dst }
  if v.kind = 0 then s.beganMov c m x v { o with got := true }
  else
    let (code, _) := s.access m o.far v.len 0 0
    if code ≠ 0 then s.beganMov c m x v { o with got := true, fail := code }
    else
      let (n, s) := s.askGranules (.ladle c m x v.opId) (v.kind == 1) m o.far o.near v.len
      s.beganMov c m x v { o with sent := n, got := n == 0 }

/-- A put or get begins (R330 to R333): it fails at once, waits for a request slot, or takes one and sends. -/
def State.beginRemote (s : State) (c m x : Nat) (v : MovSt) : State :=
  let put := v.kind == 3
  let addr := if put then v.dst else v.src
  let code := s.remoteCheck m addr 64
  let o := { v.rop c m x s.clk.up with
    dev := addr / 2 ^ 54, far := addr % 2 ^ 48, near := (if put then v.src else v.dst) % 2 ^ 48 }
  if code ≠ 0 then (s.noteFences o v.opId code).beganMov c m x v { o with got := true, fail := code }
  else if !s.slotFree m then
    if v.beganAt ≠ 0 then s else (s.setMov c m x { v with beganAt := s.clk.up + 1 }).cnt F.fabSlots_waits m
  else if !s.windowOpen o.dev m then s
  else
    let s := (s.takeSlot m).beganMov c m x v o
    if put then s.feedPut (v.len / 64 + 1) v.opId
    else s.sendReq v.opId 2 12 (reqHdr o.far x o.tok o.tokEn o.len 0)

/-- A collective contribution begins, waits for its group, or fails (R354, R355, R375). -/
def State.beginKind5 (s : State) (c m x : Nat) (v : MovSt) : State :=
  let failed := fun (code : Nat) => s.beganMov c m x v { v.rop c m x s.clk.up with got := true, fail := code }
  match s.grpOf (v.dst % 65536) with
  | none => failed E.collHandle
  | some g =>
    let code := s.collCheck g m x v
    if code ≠ 0 then failed code
    else if s.rd F.collG_state g = 1 then
      if v.beganAt ≠ 0 then s else s.setMov c m x { v with beganAt := s.clk.up + 1 }
    else if (s.grp g).cur.isSome || (s.flag F.collG_list g && s.listBusy m) then s
    else (s.setMov c m x { v with begun := true }).beginColl g c m x v

/-- LADLE_MOV_BEGIN (R167, R354): the ladle of cluster c takes up the next MOV of context x of mould m. From shedding stage 2 on, a
non-radio MOV whose segment has ended is held (R88). -/
def execLadleMovBegin (dt c m x : Nat) (s : State) : Out := s.whenLive fun s =>
  let s := s.pass dt
  match (s.movs c m x).find? (fun v => !v.begun) with
  | none => s
  | some v =>
    let running := (s.clu c).streams.any (fun e => e.2.busy && e.2.run = v.run)
    if 2 ≤ s.stageOf c && !s.isRadio m && !running then s
    else if v.kind ≤ 2 then s.beginLocal c m x v
    else if v.kind ≤ 4 then s.beginRemote c m x v
    else s.beginKind5 c m x v

/-- COLL_MOV_SETUP_TIMEOUT (R354): the head MOV has waited timeout_us for a group in SETUP. -/
def execCollMovSetupTimeout (dt c m x : Nat) (s : State) : Out := s.whenLive fun s =>
  let s := s.pass dt
  match (s.movs c m x).find? (fun v => !v.begun) with
  | none => s
  | some v =>
    match s.grpOf (v.dst % 65536) with
    | some g =>
      if v.kind = 5 && s.rd F.collG_state g = 1 && v.beganAt ≠ 0 && v.beganAt + 1000 * (s.grpEnt g).timeoutUs ≤ s.clk.up + 1 then
        s.beganMov c m x v { v.rop c m x s.clk.up with got := true, fail := E.collSetupTimeout }
      else s
    | none => s

/-- Bytes of an SRAM-to-SRAM transfer move, up to the line whose word is uncorrectable (R280). -/
def State.copyMov (s : State) (m : Nat) (o : ROp) (ecc word : Nat) : Nat × State :=
  let (code, s) := s.access m o.near o.len ecc word
  if code ≠ 0 then (code, s) else (0, s.writeMem m o.far (s.readMem m o.near o.len))

/-- The outcome of a put or get is counted (R334). -/
def State.countMov (s : State) (o : ROp) (slag : Bool) : State :=
  if slag || (o.kind ≠ 3 && o.kind ≠ 4) then s
  else if o.fail = 0 then s.cnt F.movOut_ok o.mould o.ctx
  else (s.cnt F.movOut_failed o.mould o.ctx).wr F.movOut_lastCode o.fail o.mould o.ctx

/-- MOV_COMPLETE (R167, R268, R334, R336, R356): the first transfer of a context whose operation has ended is completed; `ecc` and
`word` are what the SRAM reports for a transfer of kind 0 or 1. -/
def execMovComplete (c m x ecc word : Nat) (s : State) : Out := s.whenLive fun s =>
  match (s.movs c m x).find? (fun v => v.begun && (s.rop v.opId).got) with
  | none => s
  | some v =>
    let o := s.rop v.opId
    let far := decide (o.kind = 3 ∨ o.kind = 4)
    let slag := o.busy = 2 || s.isSlag m x o.heat o.quenches
    let (code, s) := if o.kind = 0 && !slag then s.copyMov m o ecc word
      else if o.kind = 1 && !slag && o.fail = 0 then s.access m o.near o.len ecc word
      else (o.fail, s)
    let o := { o with fail := code }
    let s := if slag && !(far && o.busy = 2) then s.countSlag m else s
    let s := if o.kind ≤ 2 && !slag && (if o.kind = 0 then code = 0 else o.sub = 1) then s.bumpAt m (if o.kind = 2 then o.near else o.far) else s
    let s := s.countMov o slag
    let s := if o.doneEn && !slag then s.post c m x o.doneTok 1 else s
    (s.setMovs c m x ((s.movs c m x).filter (fun y => y.opId ≠ v.opId))).setRop v.opId ROp.init

end Sys2Proof.Machine
end

