-- ==== Sys2Proof/Machine/Validate.lean ====
section
/-! DEFINITION. Sys2Proof/Machine/Validate.lean: validation of a list image, in the order of Table 6.12. -/
namespace Sys2Proof.Machine

/-- An instruction of a segment as the validator reads it: where it stands, its words, and the repeats around it, outermost first. -/
structure VIns where
  pc : Nat
  n : Nat
  w0 : Nat
  w1 : Nat
  w2 : Nat
  rpts : List Rpt
  deriving DecidableEq, Repr

/-- Class of an instruction. -/
def VIns.cls (i : VIns) : Nat := bitsOf i.w0 0 4

/-- Engine of an instruction. -/
def VIns.eng (i : VIns) : Nat := bitsOf i.w0 4 4

/-- nd bit. -/
def VIns.nd (i : VIns) : Bool := bit i.w0 8

/-- outside bit. -/
def VIns.out (i : VIns) : Bool := bit i.w0 9

/-- The instructions of a segment in order, with the repeats open around each (R186). -/
def parseIns (im : Bytes) (o total : Nat) : Nat → Nat → List Rpt → List VIns
  | 0, _, _ => []
  | f + 1, pc, rs =>
    if total ≤ pc then []
    else
      let rs := rs.filter (fun r => pc < r.start + r.body)
      let w0 := segWord im o pc
      let n := bitsOf w0 14 2 + 1
      let i : VIns := ⟨pc, n, w0, segWord im o (pc + 1), segWord im o (pc + 2), rs⟩
      let rs' := if bitsOf w0 0 4 = 9 then
          rs ++ [⟨pc + 1, bitsOf w0 32 16, bitsOf w0 16 16 + 1, 0, bitsOf w0 64 32, bitsOf w0 96 32⟩] else rs
      i :: parseIns im o total f (pc + n) rs'

/-- The instructions of a segment. -/
def segIns (im : Bytes) (h : SegHdr) : List VIns := parseIns im h.off h.words (h.words + 1) 0 []

/-- How often an instruction runs, repeats expanded. -/
def VIns.times (i : VIns) : Nat := i.rpts.foldl (fun n r => n * r.count) 1

/-- A position of a failed check: segment index and word index. -/
abbrev Pos := Nat × Nat

/-- The first instruction of a list that fails a test, as a position. -/
def badIns (seg : Nat) (l : List VIns) (ok : VIns → Bool) : Option Pos := (l.find? (fun i => !ok i)).map (fun i => (seg, i.pc))

/-- Fields of a class lie in their ranges and its reserved bits are 0 (R177, Tables 6.5 to 6.11); profiles as given. -/
def fieldsOk (p : Nat → Option Profile) (i : VIns) : Bool :=
  let z := fun (w lo n : Nat) => bitsOf w lo n == 0
  let pr := p (bitsOf i.w0 18 4)
  let two := match pr with | some q => twoProduct q.aFmt q.wFmt | none => true
  let mx := match pr with | some q => isMx q.aFmt | none => true
  let mxOut := match pr with | some q => isMx q.outFmt | none => true
  match i.cls with
  | 0 => z i.w0 16 112
  | 1 => z i.w0 16 2 && z i.w0 44 4 && (bit i.w0 35 || two || bitsOf i.w0 22 7 < 64)
      && (i.n < 2 || (z i.w1 48 80 && (mx || z i.w1 0 48)))
  | 2 =>
    let mode := bitsOf i.w0 16 2
    mode != 3 && (mode == 2 || z i.w0 34 2) && (mode != 0 || bitsOf i.w0 22 12 < 256) && z i.w0 38 10
      && (i.n < 2 || (z i.w1 80 48 && (mode == 1 || mx || z i.w1 0 48)))
  | 3 => z i.w0 39 9 && bitsOf i.w0 36 2 != 3 && (match pr with | some q => q.rnd == 1 || z i.w0 96 32 | none => true)
      && (i.n < 3 || (z i.w1 112 16 && z i.w2 80 48 && (mxOut || z i.w2 0 48)))
  | 4 => bitsOf i.w0 22 2 != 3 && z i.w0 25 7 && z i.w0 112 16 && (i.n < 2 || z i.w1 80 16)
  | 5 => bitsOf i.w0 16 4 ≤ 5 && z i.w0 27 5 && bitsOf i.w0 32 32 != 0 && bitsOf i.w0 32 6 == 0 && (i.n < 2 || z i.w1 70 58)
  | 6 => bitsOf i.w0 22 16 != 0 && z i.w0 38 58 && (bit i.w0 16 || (z i.w0 96 32 && bitsOf i.w0 17 5 < 16))
  | 7 => bitsOf i.w0 22 16 != 0 && z i.w0 38 90 && (bit i.w0 16 || bitsOf i.w0 17 5 < 16)
  | 8 => z i.w0 96 32 && (i.n < 2 || (z i.w1 64 32 && (i.out || z i.w1 96 32)))
  | 9 => bitsOf i.w0 32 16 != 0 && z i.w0 48 16
  | 15 => z i.w0 16 112
  | _ => false

/-- E_LIST_FORMAT of a segment's header (R170, Table 6.2). -/
def segHdrOk (im : Bytes) (total i : Nat) (h : SegHdr) : Bool :=
  h.off + 64 ≤ total && h.idx == i && h.flags < 64 && h.words % 4 == 0 && 0 < h.words && h.off + 64 + 16 * h.words ≤ total
    && h.arrays < 16 && h.engines < 8 && h.movs ≤ 256 && leAt im (h.off + 0x1C) 4 == 0 && allZero (slice im (h.off + 0x30) 16)
    && (bitsOf h.flags 2 4 != 0 || h.dgAddr == 0)

/-- E_LIST_FORMAT of one segment: its header, then its words in order. -/
def segFormat (p : Nat → Option Profile) (im : Bytes) (total i : Nat) (h : SegHdr) : Option Pos :=
  if !segHdrOk im total i h then some (i, 0)
  else
    let l := segIns im h
    match badIns i l (fun v => bitsOf v.w0 14 2 != 3 && v.pc + v.n ≤ h.words && fieldsOk p v) with
    | some e => some e
    | none => if bitsOf (segWord im h.off (h.words - 1)) 0 4 == 15 && l.any (fun v => v.pc == h.words - 1 && v.cls == 15) then none
        else some (i, h.words - 1)

/-- The list header (Table 6.1). -/
def listHdrOk (im : Bytes) (total : Nat) : Bool :=
  leAt im 0 4 == 0x4C494B49 && leAt im 4 2 == 1 && 1 ≤ leAt im 6 2 && leAt im 6 2 ≤ 256 && listIdOf im != 0
    && total % 64 == 0 && 64 ≤ total && total ≤ 262144 && (leAt im 0x12 1 == 1 || leAt im 0x12 1 == 2)
    && leAt im 0x13 1 == 0 && allZero (slice im 0x20 28)

/-- The first failure over the segments of a list. -/
def firstSeg (l : List SegHdr) (f : Nat → SegHdr → Option Pos) : Option Pos := l.zipIdx.findSome? (fun (h, i) => f i h)

/-- E_LIST_FORMAT (R169, R170, R177). -/
def listFormat (p : Nat → Option Profile) (im : Bytes) (total : Nat) : Option Pos :=
  if !listHdrOk im total then some (0xFFFF, 0)
  else
    match firstSeg (segHdrs im) (segFormat p im total) with
    | some e => some e
    | none =>
      match (segHdrs im).getLast? with
      | some h => if h.off + 64 + 16 * h.words = total then none else some (0xFFFF, 0)
      | none => some (0xFFFF, 0)

/-- Engines and length of a class (Table 6.4). -/
def classEngines : Nat → List Nat × Nat
  | 0 => ([0, 1, 2, 3, 4, 5, 7, 8], 1)
  | 1 => ([0, 1, 2, 3], 2)
  | 2 => ([0, 1, 2, 3], 2)
  | 3 => ([0, 1, 2, 3], 3)
  | 4 => ([0, 1, 2, 3], 2)
  | 5 => ([7], 2)
  | 6 => ([0, 1, 2, 3, 4, 5, 7, 8], 1)
  | 7 => ([0, 1, 2, 3, 4, 5, 7, 8], 1)
  | 8 => ([4, 5], 2)
  | 9 => ([8], 1)
  | 15 => ([8], 1)
  | _ => ([], 0)

/-- An engine is claimed by a segment's masks; the sequencer needs no claim. -/
def engineClaimed (h : SegHdr) (e : Nat) : Bool :=
  if e < 4 then bit h.arrays e else if e < 6 then bit h.engines (e - 4) else if e = 7 then bit h.engines 2 else e == 8

/-- E_LIST_ENGINE (R178, R179, R428). -/
def State.engineOk (s : State) (c m mode : Nat) (h : SegHdr) (i : VIns) : Bool :=
  let ce := classEngines i.cls
  ce.1.contains i.eng && i.n == ce.2 && engineClaimed h i.eng
    && (i.cls != 2 || (gangMembers mode i.eng).headD i.eng != i.eng || (gangMembers mode i.eng).all (bit h.arrays ·))
    && (i.cls != 8 || (match s.progEntry c i.eng m (bitsOf i.w0 16 16) with
        | some fl => s.isRadio m || !bit fl 1
        | none => false))

/-- The arrays, signal engines and banks context (m, x) may claim on a cluster (R254). -/
def State.mayClaim (s : State) (c m x : Nat) : Nat × Nat × Nat :=
  let g := s.gang m c
  let own := fun (mask : Nat) => sumNat ((bitList 4 mask).map (fun a => if g.ctx.getD a 0xFF = x then 2 ^ a else 0))
  if s.claimer c = some m then
    let lent := ((s.offers m).filter (·.cluster = c)).foldl (fun b o => b ||| bankBits o.bank o.banks) 0
    (own 15, 3, (2 ^ 64 - 1) ^^^ lent)
  else
    let os := s.boundOffers m c
    (own (os.foldl (fun b o => b ||| o.arrays) 0), os.foldl (fun b o => b ||| o.signal) 0,
      os.foldl (fun b o => b ||| bankBits o.bank o.banks) 0)

/-- E_LIST_CLAIM (R254). -/
def State.claimOk (s : State) (c m x : Nat) (h : SegHdr) : Bool :=
  let (a, e, b) := s.mayClaim c m x
  h.arrays &&& a == h.arrays && (h.engines % 4) &&& e == h.engines % 4 && h.banks &&& b == h.banks

/-- The values a stepped address takes at the extremes of its repeats (R187, R188). -/
def extremes (i : VIns) (base : Nat) (f : Rpt → Nat) : List Nat :=
  (i.rpts.zipIdx.foldl (fun (l : List Int) (r, lv) =>
    if bit i.w0 (10 + lv) then l ++ l.map (fun o => o + sext 32 (f r) * ((r.count - 1 : Nat) : Int)) else l) [0]).map (stepAddr base)

/-- Extremes of an A address. -/
def exA (i : VIns) (base : Nat) : List Nat := extremes i base (·.strideA)

/-- Extremes of a B address. -/
def exB (i : VIns) (base : Nat) : List Nat := extremes i base (·.strideB)

/-- An array instruction's range: on the cluster, with the attributes, in claimed banks (R179). -/
def State.rangeOk (s : State) (m c : Nat) (h : SegHdr) (mask a n : Nat) : Bool :=
  n == 0 || (s.onCluster m c a n mask && (let b := s.banksOf m a n; b &&& h.banks == b))

/-- Rows of `w` bytes at a stride from a base, as the one range they span. -/
def span (rows stride w : Nat) : Nat := if rows = 0 then 0 else (rows - 1) * stride + w

/-- K rows of the plane an STR at a position uses: of the nearest LDS before it on its array in list order. -/
def ldsBefore (l : List VIns) (i : VIns) : Option VIns := (l.filter (fun j => j.cls == 1 && j.eng == i.eng && j.pc < i.pc)).getLast?

/-- K rows an LDS loads. -/
def ldsK (p : Profile) (i : VIns) : Nat := if bit i.w0 35 then (bitsOf i.w0 36 8 + 1) * vBlockK p else bitsOf i.w0 22 7 + 1

/-- The largest K rows any LDS before an STR on its array loads. -/
def strK (p : Profile) (l : List VIns) (i : VIns) : Nat :=
  ((l.filter (fun j => j.cls == 1 && j.eng == i.eng && j.pc < i.pc)).map (ldsK p)).foldl max 0

/-- The DRN a CHN binds: the next one on its array in list order. -/
def boundDrn (l : List VIns) (i : VIns) : Option VIns := l.find? (fun j => j.cls == 3 && j.eng == i.eng && i.pc < j.pc)

/-- The STR a CHN binds. -/
def boundStr (l : List VIns) (i : VIns) : Option VIns := l.find? (fun j => j.cls == 2 && j.eng == i.eng && i.pc < j.pc)

/-- Rows a stream yields. -/
def strRows (j : VIns) : Nat :=
  if bitsOf j.w0 16 2 = 1 then 64 else if bitsOf j.w0 16 2 = 0 then bitsOf j.w0 22 12 + 1 else bitsOf j.w0 34 2 + 1

/-- The ranges of a CHN's extra streams and arrival buffer (R202, R204). -/
def State.chnRanges (s : State) (m c : Nat) (h : SegHdr) (l : List VIns) (i : VIns) : Bool :=
  let ch := chainOf (bitsOf i.w0 16 6)
  let p0 := bitsOf i.w0 32 32
  let arr := bit i.w0 24
  let d := boundDrn l i
  let rows := match d with | some j => bitsOf j.w0 22 8 + 1 | none => 0
  let cols := match d with | some j => bitsOf j.w0 30 6 + 1 | none => 0
  let sr := match boundStr l i with | some j => strRows j | none => 0
  let sx := bitsOf i.w1 48 32
  let upd := ch.steps.filterMap isStat
  (ch.streams.zipIdx.all fun (kd, k) =>
    let bases := if arr || k = 1 then exB i (bitsOf i.w1 0 48) else exA i (bitsOf i.w0 64 48)
    let fmt := if k = 0 && !arr then bitsOf p0 0 4 else bitsOf p0 4 4
    bases.all fun a =>
      match kd with
      | .e => s.rangeOk m c h 1 a (span rows sx (elemBytes fmt cols))
      | .c => s.rangeOk m c h 1 a (4 * cols)
      | .w => s.rangeOk m c h 1 a (4 * sr)
      | .s => s.rangeOk m c h (if upd.contains k then 3 else 3) a (16 * (if ch.pro = .none then rows else sr)))

/-- An address of a MOV that is mould-local lies in regions of the tiers with the attribute (R182, R610). -/
def State.movSide (s : State) (m mask : Nat) (tiers : List Nat) (a n : Nat) : Bool :=
  a / 2 ^ 54 == s.devId && a / 2 ^ 48 % 64 == m &&
    (match s.cover m (a % 2 ^ 48) n with
     | some rs => rs.all (fun r => r.attr &&& mask == mask && tiers.contains r.tier)
     | none => false)

/-- E_LIST_REGION of one instruction (R179, R182, R188, R216). -/
def State.regionsOk (s : State) (c m mode : Nat) (p : Nat → Profile) (h : SegHdr) (l : List VIns) (i : VIns) : Bool :=
  let pr := p (bitsOf i.w0 18 4)
  let a := bitsOf i.w0 48 48
  let sa := bitsOf i.w0 96 32
  let b := bitsOf i.w1 0 48
  match i.cls with
  | 1 =>
    let k := ldsK pr i
    let n := bitsOf i.w0 29 6 + 1
    (exA i a).all (fun x => s.rangeOk m c h 1 x (span k sa (elemBytes pr.wFmt n)))
      && (!isMx pr.wFmt || (exB i b).all (fun x => s.rangeOk m c h 1 x (cdiv k 32 * n)))
  | 2 =>
    let md := bitsOf i.w0 16 2
    let len := bitsOf i.w0 22 12 + 1
    let sb := bitsOf i.w1 48 32
    let per := if twoProduct pr.aFmt pr.wFmt then 128 else 64
    let nrm := (l.filter (fun j => j.cls == 4 && j.eng == i.eng && j.pc < i.pc)).getLast?.any (fun j =>
      (chainOf (bitsOf j.w0 16 6)).nrm && (boundStr l j).any (fun t => t.pc == i.pc))
    let k := if md = 0 then (if nrm then 64 else strK pr l i) else len
    (gangMembers mode i.eng).headD i.eng == i.eng &&
    (if md = 1 then (exA i a).all (fun x => s.rangeOk m c h 1 x (span len sa (elemBytes pr.aFmt per)))
        && (exB i b).all (fun x => s.rangeOk m c h 1 x (span len sb (elemBytes pr.wFmt per)))
      else
        (exA i a).all (fun x => s.rangeOk m c h 1 x (span (strRows i) sa (elemBytes pr.aFmt k)))
        && (!isMx pr.aFmt || (exB i b).all (fun x => s.rangeOk m c h 1 x (span (strRows i) sb (cdiv k 32)))))
  | 3 =>
    let rows := bitsOf i.w0 22 8 + 1
    let cols := bitsOf i.w0 30 6 + 1
    let cp := (l.filter (fun j => j.cls == 4 && j.eng == i.eng && j.pc < i.pc)).getLast?.any (fun j =>
      bitsOf j.w0 16 6 == 39 && (boundDrn l j).any (fun d => d.pc == i.pc))
    let oc := if cp then cols / 2 else cols
    let w := if bit i.w0 38 then elemBytes pr.outFmt oc else 4 * oc
    (exA i a).all (fun x => s.rangeOk m c h 2 x (span rows (bitsOf i.w1 48 32) w))
      && (bitsOf i.w0 36 2 != 2 || (exB i b).all (fun x => s.rangeOk m c h 1 x (rows * cols * 4)))
      && (!(isMx pr.outFmt && bit i.w0 38) ||
        (exB i (bitsOf i.w2 0 48)).all (fun x => s.rangeOk m c h 2 x (span rows (bitsOf i.w2 48 32) (cdiv oc 32))))
  | 4 => s.chnRanges m c h l i
  | 5 =>
    let n := bitsOf i.w0 32 32
    let src := (exA i (bitsOf i.w0 64 48)).map (fun o => bitsOf i.w0 112 16 * 2 ^ 48 + o)
    let dst := (exB i (bitsOf i.w1 0 48)).map (fun o => bitsOf i.w1 48 16 * 2 ^ 48 + o)
    match bitsOf i.w0 16 4 with
    | 0 => src.all (fun x => s.movSide m 1 [0, 3] x n) && dst.all (fun x => s.movSide m 2 [0, 3] x n)
    | 1 => src.all (fun x => s.movSide m 1 [0, 3] x n) && dst.all (fun x => s.movSide m 2 [1, 2] x n)
    | 2 => src.all (fun x => s.movSide m 1 [1, 2] x n) && dst.all (fun x => s.movSide m 2 [0, 3] x n)
    | 3 => src.all (fun x => s.movSide m 1 [0, 1, 2, 3] x n)
    | 4 => dst.all (fun x => s.movSide m 2 [0, 1, 2, 3] x (n + 64))
    | _ => src.all (fun x => s.movSide m 1 [0, 1, 2, 3] x n)
  | _ => true

/-- The ranges a segment writes, for the digest record's clearance (R234). -/
def writesOf (p : Nat → Profile) (l : List VIns) : List (Nat × Nat) :=
  l.flatMap fun i =>
    let pr := p (bitsOf i.w0 18 4)
    let rows := bitsOf i.w0 22 8 + 1
    let cols := bitsOf i.w0 30 6 + 1
    if i.cls = 3 then
      (exA i (bitsOf i.w0 48 48)).map (fun x => (x, span rows (bitsOf i.w1 48 32) (if bit i.w0 38 then elemBytes pr.outFmt cols else 4 * cols)))
        ++ (if isMx pr.outFmt && bit i.w0 38 then (exB i (bitsOf i.w2 0 48)).map (fun x => (x, span rows (bitsOf i.w2 48 32) (cdiv cols 32))) else [])
    else if i.cls = 4 then
      let ch := chainOf (bitsOf i.w0 16 6)
      let n := match boundDrn l i with | some j => bitsOf j.w0 22 8 + 1 | none => 0
      (ch.steps.filterMap isStat).flatMap (fun k =>
        (if bit i.w0 24 || k = 1 then exB i (bitsOf i.w1 0 48) else exA i (bitsOf i.w0 64 48)).map (fun x => (x, 16 * n)))
    else []

/-- E_LIST_REGION of the digest record (R234). -/
def State.digestOk (s : State) (c m : Nat) (p : Nat → Profile) (h : SegHdr) (l : List VIns) : Bool :=
  bitsOf h.flags 2 4 == 0 ||
    (h.dgAddr % 64 == 0 && s.onCluster m c h.dgAddr 256 2 && (s.regionAt m h.dgAddr).any (fun r => r.tier == 0)
      && (writesOf p l).all (fun w => apart h.dgAddr 256 w.1 w.2))

/-- The instances of a run of instructions with their repeats expanded, in issue order. -/
def expand : Nat → List VIns → Nat → Nat → List VIns
  | 0, _, _, _ => []
  | d + 1, l, lo, hi =>
    ((l.filter (fun i => lo ≤ i.pc && i.pc < hi)).foldl (fun (acc : List VIns × Nat) i =>
      if i.pc < acc.2 then acc
      else if i.cls = 9 then
        let b := bitsOf i.w0 32 16
        (acc.1 ++ [i] ++ (List.replicate (bitsOf i.w0 16 16 + 1) (expand d l (i.pc + 1) (min hi (i.pc + 1 + b)))).flatten, i.pc + 1 + b)
      else (acc.1 ++ [i], acc.2)) ([], lo)).1

/-- A span as the validator follows it: source, profile, products, ended, and the CHN whose STR it holds. -/
structure VSpan where
  source : Nat
  mode : Nat
  profile : Nat
  prods : Nat
  ended : Bool
  chn : Option Nat
  deriving DecidableEq, Repr

/-- An array as the validator follows it: unpaired LDS, whether weights are active and of which K, spans, the next half, and
an open binding with whether its STR has issued. -/
structure VArr where
  lds : List VIns
  active : Option Nat
  spans : List VSpan
  half : Nat
  chn : Option VIns
  strDone : Bool
  deriving DecidableEq, Repr

/-- What the validator has found so far while following a segment: the arrays and the first failure of each code. -/
structure VState where
  arr : Tab VArr
  profile : Option Nat
  mode : Option Nat
  span : Option Nat
  chain : Option Nat
  deriving DecidableEq, Repr

/-- An array at a segment's start. -/
def VArr.init : VArr := ⟨[], none, [], 0, none, false⟩

/-- Note a failure of a code at a word, once. -/
def note (o : Option Nat) (bad : Bool) (pc : Nat) : Option Nat := if o.isNone && bad then some pc else o

/-- The validator meets an STR (R108, R136, R180, R214, R216). -/
def vStr (p : Nat → Profile) (gang : Nat) (v : VState) (i : VIns) : VState :=
  let mode := bitsOf i.w0 16 2
  let pi := bitsOf i.w0 18 4
  let pr := p pi
  let len := bitsOf i.w0 22 12 + 1
  let noSwap := bit i.w0 37
  let mem := gangMembers gang i.eng
  let lead := Tab.get VArr.init v.arr i.eng
  let nrm := match lead.chn with | some ch => !lead.strDone && (chainOf (bitsOf ch.w0 16 6)).nrm | none => false
  let arr := fun (a : Nat) => Tab.get VArr.init v.arr a
  let needs := mode != 1 && !noSwap && !nrm
  let noLds := needs && mem.any (fun a => (arr a).lds.isEmpty)
  let noAct := mode == 0 && noSwap && !nrm && mem.any (fun a => (arr a).active.isNone)
  let wrongK := mode == 2 && needs && mem.any (fun a => ((arr a).lds.head?).any (fun j => !bit j.w0 35 || ldsK pr j < len))
  let wrongV := mode == 0 && needs && mem.any (fun a => ((arr a).lds.head?).any (fun j => bit j.w0 35))
  let pmis := needs && mem.any (fun a => ((arr a).lds.head?).any (fun j => bitsOf j.w0 18 4 != pi))
  let open_ := fun (a : Nat) => ((arr a).spans.getLast?).bind (fun sp => if sp.ended then none else some sp)
  let inside := mem.any (fun a => (open_ a).any (fun sp => sp.mode != mode))
  let r136 := (mode == 1 && (isMx pr.aFmt || mem.length > 1)) || (mode == 2 && gang != 3)
  let nrmBad := nrm && (isMx pr.aFmt || mode != 0 || !noSwap || (elemBits pr.aFmt < 8 || elemBits pr.wFmt < 8))
  let k := if mode = 0 then (match lead.lds.head? with
      | some j => if noSwap then (lead.active.getD 0) else ldsK pr j
      | none => if nrm then 64 else lead.active.getD 0)
    else if mode = 1 then len * (if twoProduct pr.aFmt pr.wFmt then 2 else 1) else len
  let upd := fun (a : Nat) =>
    let x := arr a
    let sp := (open_ a).getD ⟨if mode = 0 then x.half else mode + 1, mode, pi, 0, false, none⟩
    let fin := bit i.w0 36
    let cid := if a = i.eng && !x.strDone then x.chn.map (·.pc) else none
    let sp := { sp with prods := sp.prods + k, ended := fin, chn := if cid.isSome then cid else sp.chn }
    let rest := if (open_ a).isSome then x.spans.dropLast else x.spans
    { x with lds := if needs then x.lds.drop 1 else x.lds, active := if needs then some k else x.active, spans := rest ++ [sp],
             half := if fin && mode = 0 then 1 - x.half else x.half, strDone := x.strDone || x.chn.isSome }
  let long := mem.any (fun a => (((upd a).spans.getLast?).map (·.prods)).getD 0 > 4096)
  { v with
    arr := mem.foldl (fun t a => Tab.set VArr.init t a (upd a)) v.arr
    profile := note v.profile pmis i.pc
    mode := note v.mode (noLds || noAct || wrongK || wrongV || inside || r136 || nrmBad) i.pc
    span := note v.span (long && !isMx pr.aFmt && !isWide pr.aFmt) i.pc }

/-- The validator meets a DRN (R181, R197, R200, R214, R222, Table 6.12). -/
def vDrn (p : Nat → Profile) (v : VState) (i : VIns) : VState :=
  let x := Tab.get VArr.init v.arr i.eng
  let pr := p (bitsOf i.w0 18 4)
  let cols := bitsOf i.w0 30 6 + 1
  let ch := if x.strDone then x.chn.map (fun j => bitsOf j.w0 16 6) else none
  let mxOut := isMx pr.outFmt && bit i.w0 38
  match x.spans.find? (fun sp => sp.ended && sp.source == bitsOf i.w0 16 2) with
  | none => { v with mode := note v.mode true i.pc, chain := note v.chain x.chn.isSome i.pc }
  | some sp =>
    let q := p sp.profile
    let r200 := ch.any (fun n => n != 0 && n != 40 && pr.drainInt32)
    let r214 := ch.any (fun n => (chainOf n).nrm && bitsOf i.w0 36 2 != 0)
    let r222 := ch == some 39 && (cols % 2 == 1 || (mxOut && cols != 64))
    { v with
      arr := Tab.set VArr.init v.arr i.eng { x with spans := x.spans.erase sp, chn := none, strDone := false }
      profile := note v.profile (pr.aFmt != q.aFmt || pr.wFmt != q.wFmt) i.pc
      mode := note v.mode ((mxOut && cols != 32 && cols != 64) || r200 || r214 || r222) i.pc
      chain := note v.chain ((x.chn.isSome && (!x.strDone || sp.chn != x.chn.map (·.pc))) || (sp.chn.isSome && x.chn.isNone)) i.pc }

/-- One instance of an instruction. -/
def vStep (p : Nat → Profile) (gang : Nat) (v : VState) (i : VIns) : VState :=
  match i.cls with
  | 1 =>
    let x := Tab.get VArr.init v.arr i.eng
    { v with arr := Tab.set VArr.init v.arr i.eng { x with lds := x.lds ++ [i] } }
  | 2 => vStr p gang v i
  | 3 => vDrn p v i
  | 4 =>
    let x := Tab.get VArr.init v.arr i.eng
    { v with
      arr := Tab.set VArr.init v.arr i.eng { x with chn := some i, strDone := false }
      chain := note v.chain x.chn.isSome i.pc }
  | _ => v

/-- A segment followed with its repeats expanded; at END no LDS is unpaired, no span open, no chain unbound. -/
def follow (p : Nat → Profile) (gang : Nat) (l : List VIns) (words : Nat) : VState :=
  let v := (expand 5 l 0 words).foldl (vStep p gang) ⟨[], none, none, none, none⟩
  let endPc := words - 1
  { v with
    mode := note v.mode (v.arr.any (fun e => !e.2.lds.isEmpty)) endPc
    span := note v.span (v.arr.any (fun e => e.2.spans.any (fun sp => !sp.ended))) endPc
    chain := note v.chain (v.arr.any (fun e => e.2.chn.isSome)) endPc }

/-- E_LIST_REPEAT (R186): depth, bodies inside the segment and the repeats around them, no instruction split. -/
def repeatOk (l : List VIns) (words : Nat) (i : VIns) : Bool :=
  i.cls != 9 ||
    (let stop := i.pc + 1 + bitsOf i.w0 32 16
     i.rpts.length < 4 && stop ≤ words && i.rpts.all (fun r => stop ≤ r.start + r.body)
       && (stop == words || l.any (fun j => j.pc == stop)))

/-- param1 is what the menu names (R203). -/
def paramOk (k : Param) (v : Nat) : Bool :=
  match k with
  | .zero => v == 0
  | .pi => isFin32 v && !isZero32 v
  | .tau => isFin32 v && !isZero32 v
  | .beta => isFin32 v && !sign32 v && !isZero32 v
  | .eps => isFin32 v && !sign32 v

/-- E_LIST_CHAIN of one CHN (R202, R203, R216, Tables 7.3 and 7.7). -/
def chainOk (p : Nat → Profile) (l : List VIns) (i : VIns) : Bool :=
  i.cls != 4 ||
    (let n := bitsOf i.w0 16 6
     let ch := chainOf n
     let arr := bit i.w0 24
     let p0 := bitsOf i.w0 32 32
     let fmtOf := fun (slot : Nat) => ch.streams[slot]? == some .e
     let f0 := if arr then false else fmtOf 0
     let f1 := if arr then fmtOf 0 else fmtOf 1
     let reach := match boundStr l i with
       | some j =>
         let pr := p (bitsOf j.w0 18 4)
         let k := if bitsOf j.w0 16 2 = 0 then strK pr l j else bitsOf j.w0 22 12 + 1
         (bitsOf j.w0 48 48, bitsOf j.w0 48 48 + span (strRows j) (bitsOf j.w0 96 32) (elemBytes pr.aFmt k))
       | none => (0, 0)
     let x0 := bitsOf i.w0 64 48
     n ≤ 47 && bitsOf i.w0 22 2 == ch.streams.length && (arr == (ch.pro == .arv))
       && (f0 && bitsOf p0 0 4 ≤ 8 || !f0 && bitsOf p0 0 4 == 0) && (f1 && bitsOf p0 4 4 ≤ 8 || !f1 && bitsOf p0 4 4 == 0)
       && (arr || bitsOf p0 8 5 == 0) && bitsOf p0 13 19 == 0
       && (arr || paramOk ch.param (bitsOf i.w1 96 32))
       && (!arr || (x0 ≤ reach.1 && cdiv (reach.2 - x0) 64 ≤ 65535)))

/-- The wait limit of an outside instruction (R172). -/
def VIns.limit (i : VIns) : Nat := bitsOf (if i.n = 1 then i.w0 else if i.n = 2 then i.w1 else i.w2) 96 32

/-- The outside bit is what R172 asks. -/
def State.outsideOk (s : State) (c m : Nat) (i : VIns) : Bool :=
  i.out == (match i.cls with
    | 6 => bit i.w0 16
    | 4 => bit i.w0 24
    | 8 => (s.progEntry c i.eng m (bitsOf i.w0 16 16)).any (fun fl => bit fl 0)
    | _ => false)

/-- The nd bit an instruction must carry (R189, R220). -/
def ndMust (p : Nat → Profile) (l : List VIns) (i : VIns) : Bool :=
  match i.cls with
  | 3 => (p (bitsOf i.w0 18 4)).rnd == 2
  | 4 => (boundDrn l i).any (fun d => (p (bitsOf d.w0 18 4)).rnd == 2)
  | 5 => bitsOf i.w0 16 4 == 5 && bit i.w0 20
  | _ => false

/-- The checks of Table 6.12 in order, each with its code. -/
def State.listChecks (s : State) (c m x id pages : Nat) (im : Bytes) : List (Nat × Option Pos) :=
  let body := s.arithBody m
  let ps := arithProfiles body
  let p? := fun (i : Nat) => ps[i]?
  let p := fun (i : Nat) => ps.getD i ⟨0, 0, 0, 0, false, false⟩
  let gang := (s.gang m c).mode
  let hs := segHdrs im
  let ins := fun (h : SegHdr) => segIns im h
  let each := fun (f : SegHdr → List VIns → VIns → Bool) => firstSeg hs (fun i h => let l := ins h; badIns i l (f h l))
  let seg := fun (f : SegHdr → List VIns → Bool) => firstSeg hs (fun i h => if f h (ins h) then none else some (i, 0))
  let fol := fun (g : VState → Option Nat) => firstSeg hs (fun i h => (g (follow p gang (ins h) h.words)).map (fun w => (i, w)))
  let allowNd := bit (leAt body 0 8) 16
  let k := s.clu c
  let wholeP := if s.clusterBorrower c |>.isSome then 32 else 64
  let share := wholeP / max 1 (s.ctxCount m)
  let used := sumNat ((k.lists.filter (fun r => r.mould = m && r.ctx = x)).map (fun r => cdiv (r.image.length) 8192))
    + sumNat ((k.loads.filter (fun r => r.mould = m && r.ctx = x)).map (·.pages))
  let hdr := fun (ok : Bool) => if ok then none else some (0xFFFF, 0)
  [(E.listFormat, listFormat p? im im.length),
   (E.listCrc, hdr (crc32c (im.take 0x3C ++ im.drop 0x40) == leAt im 0x3C 4)),
   (E.listOwner, hdr (leAt im 0x10 1 == m && leAt im 0x11 1 == x && leAt im 0x12 1 == s.rd F.mouldStatus_kind m
      && (s.mstate m == 2 || s.mstate m == 3))),
   (E.listArith, hdr (leAt im 0x18 8 == s.rd F.arithHash_hash m)),
   (E.listDup, hdr (k.lists.all (fun r => !(r.mould == m && r.id == id)) && k.loads.all (fun r => !(r.mould == m && r.id == id)))),
   (E.listSpace, hdr (used + pages ≤ share)),
   (E.listEngine, each (fun h _ i => s.engineOk c m gang h i)),
   (E.listClaim, seg (fun h _ => s.claimOk c m x h)),
   (E.listRegion, (each (fun h l i => s.regionsOk c m gang p h l i)).or (seg (fun h l => s.digestOk c m p h l))),
   (E.listProfile, (each (fun _ _ i => !(1 ≤ i.cls && i.cls ≤ 3) || bitsOf i.w0 18 4 < ps.length)).or (fol (·.profile))),
   (E.listMode, fol (·.mode)),
   (E.listSpan, fol (·.span)),
   (E.listRepeat, each (fun h l i => repeatOk l h.words i)),
   (E.listChain, (each (fun _ l i => chainOk p l i)).or (fol (·.chain))),
   (E.listWait, (each (fun _ _ i => s.outsideOk c m i)).or (seg (fun h l =>
      bit h.flags 0 == l.all (fun i => !i.out)
        && h.waitB == sumNat ((l.filter (·.out)).map (fun i => i.limit * i.times)) && h.waitB < 2 ^ 32))),
   (E.listNd, (each (fun _ l i => (i.nd || !ndMust p l i) && (!i.nd || allowNd))).or
      (seg (fun h l => bit h.flags 1 == l.any (·.nd)))),
   (E.listMov, seg (fun h l => h.movs == sumNat ((l.filter (fun i => i.cls == 5)).map VIns.times))),
   (E.listWcet, seg (fun h _ => h.wcet == h.active + h.waitB + h.replay && 8 ≤ h.active)),
   (E.listRadioWcet, hdr (!s.isRadio m || ((s.slots m).filter (fun e => e.cluster = c && e.kind = 1 && e.list = id)).all
      (fun e => sumNat (hs.map (·.wcet)) ≤ e.wcet)))]

/-- The first failing check of a list: check number, code, segment and word (R191). -/
def firstFail : List (Nat × Option Pos) → Nat → Option (Nat × Nat × Pos)
  | [], _ => none
  | (code, some p) :: _, n => some (n, code, p)
  | (_, none) :: r, n => firstFail r (n + 1)

/-- Validation of a list image for context (m, x) on cluster c (Table 6.12). -/
def State.validate (s : State) (c m x : Nat) (im : Bytes) : Option (Nat × Nat × Pos) :=
  firstFail (s.listChecks c m x (listIdOf im) (cdiv im.length 8192) im) 1

end Sys2Proof.Machine
end

