-- ==== Sys2Proof/Machine/Sequencer.lean ====
section
/-! DEFINITION. Sys2Proof/Machine/Sequencer.lean: the commands of the sequencer and the arrays: what a stream issues, how its
instructions complete, list loads, digest records, self-tests, slot tables, loan windows and admission. -/
namespace Sys2Proof.Machine

/-- NOP (R178): its issue beat only. -/
def execNop (c st : Nat) (s : State) : Out := s.whenLive fun s => s.issue c st 0

/-- LDS (R146, R165). -/
def execLds (c st : Nat) (s : State) : Out := s.whenLive fun s => s.issue c st 1

/-- CHN (R197). -/
def execChn (c st : Nat) (s : State) : Out := s.whenLive fun s => s.issue c st 4

/-- DRN (R181). -/
def execDrn (c st : Nat) (s : State) : Out := s.whenLive fun s => s.issue c st 3

/-- MOV (R182). -/
def execMov (c st : Nat) (s : State) : Out := s.whenLive fun s => s.issue c st 5

/-- TWT (R184). -/
def execTwt (c st : Nat) (s : State) : Out := s.whenLive fun s => s.issue c st 6

/-- TPS (R184). -/
def execTps (c st : Nat) (s : State) : Out := s.whenLive fun s => s.issue c st 7

/-- SGD (R430). -/
def execSgd (c st : Nat) (s : State) : Out := s.whenLive fun s => s.issue c st 8

/-- A check of the pass on array a failed on a line (R156, R158): a replay begins, or the allowance is too small for its length. -/
def State.mismatch (s : State) (c st a row col len : Nat) : State :=
  let s := (s.wr F.arrStatus_lastFailRow row c a).wr F.arrStatus_lastFailCol col c a
  let s := (s.cnt F.arrChk_mismatch c a).logFree 0x0D01 (srcEngine c a) (s.sMould c st)
  let v := s.stream c st
  if (segHdrAt v.image v.segOff).replay - v.replayUsed < len then
    (s.cnt F.arrChk_budgetFault c a).faultCtx (s.sMould c st) (s.sCtx c st) E.arrReplayBudget (srcEngine c a) c
  else
    let s := s.setStream c st { v with replayUsed := v.replayUsed + len, replayed := true }
    (s.setArray c a { s.array c a with replay := some len }).wr F.arrStatus_replaying 1 c a

/-- STR (R137): when `bad`, the pass's checks fail on a line and its replay would add `len` beats. -/
def execStr (c st : Nat) (bad : Bool) (row col len : Nat) (s : State) : Out := s.whenLive fun s =>
  match s.nextIns c st with
  | some (q, _) =>
    let t := s.issue c st 2
    if q.cls = 2 && bad && (t.stream c st).ordinal ≠ (s.stream c st).ordinal && (t.queue c st q.eng).isEmpty
    then t.mismatch c st q.eng row col len else t
  | none => s

/-- The stream whose running segment claims array a. -/
def State.streamOfArray (s : State) (c a : Nat) : Option Nat :=
  (List.range 4).find? (fun st => (s.stream c st).busy && bit (s.stream c st).arrays a)

/-- Every engine of a stream works on. -/
def State.runAll (s : State) (c st : Nat) : State :=
  ((List.range 9).foldl (fun u e => u.runQueue 9 c st e) s).showStream c st

/-- REPLAY_COMMIT (R156, R157): the replay of the pass on array a ends, committed or with a second mismatch on a line. -/
def execReplayCommit (c a : Nat) (ok : Bool) (row col : Nat) (s : State) : Out := s.whenLive fun s =>
  match (s.array c a).replay, s.streamOfArray c a with
  | some _, some st =>
    let m := s.sMould c st
    let x := s.sCtx c st
    let s := (s.setArray c a { s.array c a with replay := none }).wr F.arrStatus_replaying 0 c a
    if ok then
      (((s.cnt F.arrChk_replayOk c a).count 5 c).logFree 0x0D02 (srcEngine c a) m).runAll c st
    else
      let s := (s.wr F.arrStatus_lastFailRow row c a).wr F.arrStatus_lastFailCol col c a
      let s := ((s.wr F.arrStatus_suspect 1 c a).cnt F.arrChk_suspectCount c a).count 4 c
      ((s.addFault 1 a (srcCluster c)).logFree 0x0D03 (srcEngine c a) m).faultCtx m x E.arrChecksum (srcEngine c a) c
  | _, _ => s

/-- The wait of the heads of class cls that are ready now ends after `wait` beats, each within its limit (R174): the beats
count once in SEQ_BEATS.wait and the engines proceed. -/
def State.waitEnds (s : State) (c st cls wait : Nat) : State :=
  let v := s.stream c st
  let heads := v.queues.filterMap fun (_, q) =>
    match q with
    | h :: _ => if h.cls = cls && s.headReady c st h then some h else none
    | [] => none
  let outside := heads.filter (fun h => bit h.w0 9 || cls = 2)
  if !v.busy || heads.isEmpty || outside.any (fun h => s.waitLimit c h < wait) then s
  else
    let s := if outside.isEmpty then s else s.inc F.seqBeats_wait c st wait
    let s := if cls = 2 && 0 < wait then
        outside.foldl (fun u _ => u.cnt F.chnCnt_arrivalHolds c) s
      else s
    let s := heads.foldl (fun u h => u.runQueue 9 c st h.eng) s
    let s := if cls = 2 then outside.foldl (fun u h => u.wr F.chnArrive_wait wait c h.eng) s else s
    s.showStream c st

/-- ARRIVAL_GRANULE_PRESENT (R216, R217): a held arrival STR has every granule it reads, after `wait` beats. -/
def execArrivalGranulePresent (c st wait : Nat) (s : State) : Out := s.whenLive fun s => s.waitEnds c st 2 wait

/-- TWT_SATISFIED (R184): a waiting TWT finds its count, after `wait` beats. -/
def execTwtSatisfied (c st wait : Nat) (s : State) : Out := s.whenLive fun s => s.waitEnds c st 6 wait

/-- RPT (R186): executed by the stream at issue. -/
def execRpt (c st : Nat) (s : State) : Out := s.whenLive fun s =>
  match s.nextIns c st with
  | some (q, n) =>
    if q.cls ≠ 9 || !(s.queue c st 8).isEmpty then s
    else
      let s := s.advance c st n
      let v := s.stream c st
      s.setStream c st { v with
        rpts := v.rpts ++ [⟨v.pc, bitsOf q.w0 32 16, bitsOf q.w0 16 16 + 1, 0, bitsOf q.w0 64 32, bitsOf q.w0 96 32⟩] }
  | none => s

/-- END (R165): nothing issues after it. -/
def execEndSeg (c st : Nat) (s : State) : Out := s.whenLive fun s =>
  match s.nextIns c st with
  | some (q, n) =>
    if q.cls ≠ 15 || !(s.queue c st 8).isEmpty then s
    else
      let s := s.advance c st n
      (s.setStream c st { s.stream c st with ending := true }).showStream c st
  | none => s

/-- SEGMENT_END (R193). -/
def execSegmentEnd (c st : Nat) (s : State) : Out := s.whenLive fun s => if s.drained c st then s.endSeg c st else s

/-- WAIT_TIMEOUT (R174): an outside instruction has held for its wait_limit + 1 beats. -/
def execWaitTimeout (c st : Nat) (s : State) : Out := s.whenLive fun s =>
  match s.outsideHeads c st with
  | h :: _ =>
    let v := s.stream c st
    let x := s.sCtx c st
    ((s.cnt F.seqCnt_waitTimeouts c).noteRefuse c E.segWaitTimeout (segHdrAt v.image v.segOff).idx h.pc x).faultCtx
      (s.sMould c st) x E.segWaitTimeout (srcEngine c 8) c
  | [] => s

/-- SEG_OVERRUN (R175): END has not completed at wcet_beats. -/
def execSegOverrun (c st : Nat) (s : State) : Out := s.whenLive fun s =>
  let v := s.stream c st
  if !v.busy then s
  else
    let h := segHdrAt v.image v.segOff
    let m := s.sMould c st
    let x := s.sCtx c st
    let s := (s.cnt F.seqCnt_overruns c).noteRefuse c E.segOverrun h.idx v.pc x
    (s.stopSegAt c st (some E.segOverrun) h.wcet).faultCtx m x E.segOverrun (srcEngine c 8) c

/-- A load of a list for a context is accepted (R191): from now on its pages and its list_id count. -/
def State.listLoad (s : State) (c m x addr : Nat) (a : Asker) : State :=
  let hdr := if s.onCluster m c addr 64 1 then s.readMem m addr 64 else List.replicate 64 0#8
  let k := s.clu c
  s.setClu c { k with loads := k.loads ++ [⟨m, x, addr, 0, listIdOf hdr, cdiv (leAt hdr 0xC 4) 8192, a⟩] }

/-- The outcome of a list load: the image, or the check number, code, segment and word of its refusal. -/
def State.listCheck (s : State) (c : Nat) (l : LoadReq) (ue : Bool) : Except (Nat × Nat × Nat × Nat) Bytes :=
  if !s.onCluster l.mould c l.addr 64 1 then .error (0, E.listRegion, 0xFFFF, 0)
  else
    let n := max 64 (min 262144 (leAt (s.readMem l.mould l.addr 64) 0xC 4))
    if !s.onCluster l.mould c l.addr n 1 then .error (0, E.listRegion, 0xFFFF, 0)
    else if ue then .error (0, E.memSramUe, 0xFFFF, 0)
    else
      let im := s.readMem l.mould l.addr n
      match s.validate c l.mould l.ctx im with
      | some (k, e, (g, w)) => .error (k, e, g, w)
      | none => .ok im

/-- LIST_LOAD_DONE (R191): validation of the i-th load of cluster c completes; its reads met an ECC event (0 none, 1
corrected, 2 uncorrectable) at a word. -/
def execListLoadDone (c i ecc word : Nat) (s : State) : Out := s.whenLive fun s =>
  match (s.clu c).loads[i]? with
  | none => s
  | some l =>
    let k := s.clu c
    let s := (s.setClu c { k with loads := k.loads.eraseIdx i }).sramEcc c ecc word
    match s.listCheck c l (ecc = 2) with
    | .ok im =>
      let k := s.clu c
      let s := s.setClu c { k with lists := k.lists ++ [⟨l.mould, l.ctx, listIdOf im, im⟩] }
      (s.cnt F.seqCnt_loadsOk c).loadEnd c l.asker 0
    | .error (n, e, g, w) =>
      let s := (s.cnt F.seqCnt_loadsRefused c).noteRefuse c e g w l.ctx
      (s.logEvt e (srcEngine c 8) l.mould (n + g * 2 ^ 16 + w * 2 ^ 32)).loadEnd c l.asker e

/-- A list of mould m on cluster c is unloaded (R192); the code. -/
def State.listUnload (s : State) (c m id : Nat) : Nat × State :=
  let k := s.clu c
  let loading := k.loads.any (fun l => l.mould = m && l.id = id)
  if loading then (E.listBusy, s)
  else if (s.resident c m id).isNone then (E.segListGone, s)
  else
    let runs := (List.range 4).any fun st => (s.stream c st).busy && s.sMould c st = m && s.rd F.seqStream_listId c st = id
    let queued := k.queues.any (fun e => e.1 / 16 = m && e.2.any (fun r => r.list = id))
    let named := s.mstate m = 3 && (slotsOf (s.slots m) c).any (fun e => e.kind = 1 && e.list = id)
    if runs || queued || named then (E.listBusy, s)
    else (0, s.setClu c { k with lists := k.lists.filter (fun l => !(l.mould = m && l.id = id)) })

/-- DIGEST_RECORD_WRITE (R238, R239): the record that fell due first on cluster c, the lower stream first, is written. -/
def execDigestRecordWrite (c : Nat) (s : State) : Out := s.whenLive fun s =>
  let k := s.clu c
  match k.records.foldl (fun (o : Option DigestRec) r => match o with
      | none => some r
      | some b => if r.due < b.due ∨ (r.due = b.due ∧ r.stream < b.stream) then some r else some b) none with
  | none => s
  | some r =>
    let s := (s.setClu c { k with records := k.records.erase r }).writeMem r.mould r.addr r.bytes
    let s := s.cnt F.dgCnt_written c
    let s := if r.stopped then s.cnt F.dgCnt_stopped c else s
    let s := if r.nd then s.cnt F.dgCnt_nd c else s
    match (s.clu c).auditOp with
    | some i =>
      if bit (leAt r.bytes 6 1) 7 then (s.setClu c { s.clu c with auditOp := none }).endOp i 2 0 else s
    | none => s

/-- ARR_CLEAR_COUNTERS: a write of ARR_CTRL.clear_counters (Table 5.9). -/
def State.clearCounters (s : State) (c a : Nat) : State :=
  (((s.wr F.arrChk_mismatch 0 c a).wr F.arrChk_replayOk 0 c a).wr F.arrChk_budgetFault 0 c a).wr F.arrChk_skip 0 c a

/-- ARR_CLEAR_COUNTERS. -/
def execArrClearCounters (_req c a : Nat) (s : State) : Out := s.whenLive fun s =>
  if s.enabled c && a < 4 then s.clearCounters c a else s

/-- ARR_CTRL would accept a self-test: the array is unused or its context IDLE (Table 5.9). -/
def State.selfTestOk (s : State) (c a : Nat) : Bool :=
  let x := s.rd F.arrCfg_ctx c a
  (x == 0xFF || s.ctxState (s.rd F.arrCfg_mould c a) x == 0) && !s.flag F.arrStatus_selfTestBusy c a && !s.blockBusy (64 + c)

/-- A write of ARR_CTRL.self_test: it starts, or is ignored and logged with 0x0D04. -/
def State.selfTest (s : State) (c a : Nat) : State :=
  if s.selfTestOk c a then s.wr F.arrStatus_selfTestBusy 1 c a
  else s.logFree 0x0D04 (srcEngine c a) 0xFF

/-- ARR_SELF_TEST. -/
def execArrSelfTest (_req c a : Nat) (s : State) : Out := s.whenLive fun s =>
  if s.enabled c && a < 4 then s.selfTest c a else s

/-- The operation of a self-test of array a, if one runs. -/
def State.selfTestOp (s : State) (c a : Nat) : Option Nat :=
  (s.mgmt.ops.find? (fun e => e.2.state = 1 && e.2.body = .selfTest c a)).map (·.1)

/-- SELF_TEST_DONE (R163, R487): on a pass the suspect mark and its fence lift. -/
def execSelfTestDone (c a : Nat) (pass : Bool) (s : State) : Out := s.whenLive fun s =>
  if !s.flag F.arrStatus_selfTestBusy c a then s
  else
    let s := ((s.wr F.arrStatus_selfTestBusy 0 c a).setFlag F.arrStatus_selfTestPass pass c a).logFree 0x0D05 (srcEngine c a) 0xFF
    let s := if pass && s.flag F.arrStatus_suspect c a
      then (s.wr F.arrStatus_suspect 0 c a).addFault 2 a (srcCluster c) else s
    match s.selfTestOp c a with
    | some i => if pass then s.endOp i 2 0 else s.endOp i 3 E.arrSuspect
    | none => s

/-- SLOT_ENTRY_START (R259, R260): the entry i of cluster c in mould m's table, at its latest instant. -/
def execSlotEntryStart (dt m c i : Nat) (s : State) : Out := s.whenLive fun s =>
  let s := s.pass dt
  match s.slotEntry m c i with
  | none => s
  | some e =>
    match s.lastInstant m e.offset with
    | none => s
    | some t =>
      if e.kind ≠ 1 || !s.tableRuns m t e.offset || Tab.get 0 (s.mould m).slotDone (slotKey c i) = t + 1 then s
      else s.slotStart m c i t e

/-- SLOT_TABLE_ACTIVATE (R248): the table of a started radio mould runs from the first cycle instant at least 100 µs after
MOULD_START; the step is taken within the pre-warm time before it. -/
def execSlotTableActivate (dt m : Nat) (s : State) : Out := s.whenLive fun s =>
  let s := s.pass dt
  let k := s.mould m
  match k.tableAt with
  | none => s
  | some t0 =>
    let b := s.phaseNs m + cdiv (t0 + 100000 - s.phaseNs m) (s.cycleNs m) * s.cycleNs m
    if s.mstate m ≠ 3 || s.clk.ns + 10000 < b then s
    else s.setMould m { k with tableAt := none, tableFrom := some b }

/-- LOAN_WINDOW_OPEN (R261). -/
def execLoanWindowOpen (dt m c i : Nat) (s : State) : Out := s.whenLive fun s =>
  let s := s.pass dt
  match s.slotEntry m c i with
  | none => s
  | some e =>
    match s.lastInstant m e.offset with
    | none => s
    | some t =>
      let stop := t - e.offset + e.stop
      if e.kind ≠ 2 || !s.tableRuns m t e.offset || stop ≤ s.clk.ns then s
      else s.setMould m { s.mould m with windows := Tab.set 0 (s.mould m).windows (slotKey c i) stop }

/-- LOAN_WINDOW_CLOSE (R261). -/
def execLoanWindowClose (dt m c i : Nat) (s : State) : Out := s.whenLive fun s =>
  let s := s.pass dt
  if s.clk.ns < Tab.get 0 (s.mould m).windows (slotKey c i) then s
  else s.setMould m { s.mould m with windows := Tab.set 0 (s.mould m).windows (slotKey c i) 0 }

/-- ISSUE_LIMIT_EXPIRY (R87): the delay after a non-radio segment of stream st is over at the field's rate. -/
def execIssueLimitExpiry (dt c st : Nat) (s : State) : Out := s.whenLive fun s =>
  let s := s.pass dt
  let v := s.stream c st
  if v.busy || (s.clk.up - v.startNs) * s.rd F.govStatus_rateMrate (fieldOf c) / 1000 < v.notBefore then s
  else s.setStream c st { v with notBefore := 0 }

/-- An audit run that waits on cluster c starts on a free stream when nothing holds it back (R241, R242). -/
def State.tryAudit (s : State) (c st : Nat) : State :=
  match (s.clu c).auditOp with
  | none => s
  | some i =>
    match (s.op i).body with
    | .audit _ m x list seg seed =>
      match (s.resident c m list).bind (fun l => (segHdr l.image seg).map (fun h => (l, h))) with
      | none => s.endAudit c m E.auditSegment
      | some (l, h) =>
        if (s.stream c st).busy || (st = 0 && s.claimer c ≠ some m) || !s.claimsFree c st h || s.movRoom c m x < h.movs || s.testing c h.arrays then s
        else
          match s.suspectIn c h.arrays with
          | some a => (s.faultCtx m x E.arrSuspect (srcEngine c a) c).endAudit c m E.arrSuspect
          | none =>
            if s.coldOf c h.arrays ≠ 0 then s.askRamp ⟨2, c, s.coldOf c h.arrays, 0, false⟩
            else
              (s.setOp i { s.op i with body := .none }).startSeg c st m x l.image h (s.claimer c ≠ some m)
                { StreamSt.init with audit := true, auditSeed := seed }
    | _ => s

/-- SEGMENT_ADMIT (R256): free stream st of cluster c. -/
def execSegmentAdmit (dt c st : Nat) (s : State) : Out := s.whenLive fun s =>
  let s := s.pass dt
  let s := if st < 4 && c < 96 then s.tryAudit c st else s
  if (s.admitStreams c).contains st && !(s.stream c st).busy then State.admitScan (s.admitOrder c) s c st else s

end Sys2Proof.Machine
end

