-- ==== Sys2Proof/Machine/SigEngine.lean ====
section
/-! DEFINITION. Sys2Proof/Machine/SigEngine.lean: the signal engines: arithmetic, addressing, repeats, SRAM moves, jobs and
program loads (chapter 14). -/
namespace Sys2Proof.Machine

/-- The program-memory word at a of engine e (R425). -/
def State.seWord (s : State) (c e a : Nat) : Nat :=
  if a < 0x1000 then Config.seLibWord s.fwLib a
  else
    match (s.seng c e).progs.find? (fun p => p.base ≤ a && a < p.base + p.words.length) with
    | some p => p.words.getD (a - p.base) 0
    | none => 0

/-- A run-time fault of a program stops it and faults its context (R420, R421). -/
def State.seFault (s : State) (c e code : Nat) : State :=
  let i := e - 4
  let m := s.rd F.seStatus_mould c i
  let x := s.rd F.seStatus_ctx c i
  let s := ((s.wr F.seStatus_lastFault code c i).cnt F.seCnt_faults c i).wr F.seStatus_state 3 c i
  (s.setSeng c e { s.seng c e with running := false, blks := [] }).faultCtx m x code (srcEngine c e) c

/-- After a body's last word the innermost repeat loops or closes, and then the one around it (R421). -/
def closeBlks : Nat → List BlkSt → Nat → List BlkSt × Nat
  | 0, bs, pc => (bs, pc)
  | f + 1, bs, pc =>
    match bs.getLast? with
    | none => (bs, pc)
    | some b =>
      if pc ≠ b.stop then (bs, pc)
      else if 0 < b.left then (bs.dropLast ++ [{ b with left := b.left - 1 }], b.start)
      else closeBlks f bs.dropLast pc

/-- The program goes on at pc after an instruction of some beats. -/
def State.seGoto (s : State) (c e pc beats : Nat) : State :=
  let g := s.seng c e
  let (bs, p) := closeBlks 5 g.blks pc
  ((s.setSeng c e { g with blks := bs }).wr F.seStatus_pc p c (e - 4)).inc F.seBeats_beats c (e - 4) beats

/-- The program goes on with its next word. -/
def State.seNext (s : State) (c e beats : Nat) : State := s.seGoto c e (s.rd F.seStatus_pc c (e - 4) + 1) beats

/-- An engine runs, does not hold, and its next word has the opcode: k takes the word. -/
def State.seIns (s : State) (c e op : Nat) (k : Nat → State → State) : Out := s.whenLive fun s =>
  let w := s.seWord c e (s.rd F.seStatus_pc c (e - 4))
  if (e = 4 || e = 5) && (s.seng c e).running && s.rd F.seStatus_state c (e - 4) = 1 && w % 64 = op then k w s else s

/-- The signed value of a 24-bit field. -/
def s24 (v : Nat) : Int := sext 24 v

/-- A value narrowed to 24 bits, and whether it saturated. -/
def sat24 (v : Int) : Nat × Bool := (ofInt 24 (satInt 24 v), decide (satInt 24 v ≠ v))

/-- a · 2^-k rounded to an integer (R415): mode 0 nearest even, 1 nearest away from zero, 2 floor. -/
def roundShift (a : Int) (k rnd : Nat) : Int :=
  let d : Int := (2 ^ k : Nat)
  let q := a / d
  let r := 2 * (a % d)
  if rnd = 2 || k = 0 then q
  else if r < d then q
  else if d < r then q + 1
  else if rnd = 1 then (if 0 ≤ a then q + 1 else q)
  else if q % 2 = 0 then q else q + 1

/-- Rounding of R415 to a 24-bit field with scale s. -/
def round24 (a : Int) (s : Int) (rnd : Nat) : Nat × Bool := sat24 (roundShift a (23 - s).toNat rnd)

/-- An accumulator half saturated to 56 bits (R414). -/
def sat56 (v : Int) : Int × Bool := (satInt 56 v, decide (satInt 56 v ≠ v))

/-- A pointer moved by a step (R417). -/
def PtrSt.move (p : PtrSt) (step : Int) : PtrSt :=
  { p with addr := if p.len = 0 then (((p.addr : Int) + step) % 8192).toNat
      else p.base + (((p.addr : Int) - (p.base : Int) + step) % (p.len : Int)).toNat }

/-- Pointer k of an engine. -/
def SeSt.ptr (g : SeSt) (k : Nat) : PtrSt := Tab.get ⟨0, 0, 0, 0⟩ g.ptrs k

/-- Replace pointer k. -/
def SeSt.setPtr (g : SeSt) (k : Nat) (p : PtrSt) : SeSt := { g with ptrs := Tab.set ⟨0, 0, 0, 0⟩ g.ptrs k p }

/-- Pointer k moves by its own step. -/
def SeSt.bump (g : SeSt) (k : Nat) : SeSt := g.setPtr k ((g.ptr k).move (sext 14 (g.ptr k).step))

/-- Data register i. -/
def SeSt.d (g : SeSt) (i : Nat) : Nat × Nat := Tab.get (0, 0) g.regs i

/-- Write data register i. -/
def SeSt.setD (g : SeSt) (i : Nat) (v : Nat × Nat) : SeSt := { g with regs := Tab.set (0, 0) g.regs i v }

/-- Accumulator i. -/
def SeSt.ac (g : SeSt) (i : Nat) : Int × Int := Tab.get (0, 0) g.accs i

/-- Write accumulator i. -/
def SeSt.setAc (g : SeSt) (i : Nat) (v : Int × Int) : SeSt := { g with accs := Tab.set (0, 0) g.accs i v }

/-- Word a of data memory X (0) or Y (1). -/
def SeSt.mem (g : SeSt) (mem a : Nat) : Nat × Nat := Tab.get (0, 0) (if mem = 0 then g.dmA else g.dmB) a

/-- Write a data-memory word. -/
def SeSt.setMem (g : SeSt) (mem a : Nat) (v : Nat × Nat) : SeSt :=
  if mem = 0 then { g with dmA := Tab.set (0, 0) g.dmA a v } else { g with dmB := Tab.set (0, 0) g.dmB a v }

/-- Parameter i. -/
def SeSt.par (g : SeSt) (i : Nat) : Nat := Tab.get 0 g.pars i

/-- SRAM address register i. -/
def SeSt.sa (g : SeSt) (i : Nat) : Nat := Tab.get 0 g.sas i

/-- What a format-A operation does: the engine after it, 24-bit saturations and accumulator saturations. -/
structure SeOut where
  g : SeSt
  sat : Nat
  acc : Nat

/-- A data register takes two rounded lanes. -/
def SeSt.put (g : SeSt) (i : Nat) (re im : Nat × Bool) : SeOut := ⟨g.setD i (re.1, im.1), ofBool re.2 + ofBool im.2, 0⟩

/-- An accumulator takes two saturated halves. -/
def SeSt.putAc (g : SeSt) (i : Nat) (re im : Int × Bool) : SeOut := ⟨g.setAc i (re.1, im.1), 0, ofBool re.2 + ofBool im.2⟩

/-- The product of two words (R414): complex, the second conjugated under conj; or two real lanes. -/
def seProd (cplx conj : Bool) (x y : Nat × Nat) : Int × Int :=
  let a := s24 x.1
  let b := s24 x.2
  let c := s24 y.1
  let d := if conj then -(s24 y.2) else s24 y.2
  if cplx then (a * c - b * d, a * d + b * c) else (a * c, b * s24 y.2)

/-- Fields of format A (Table 14.4). -/
def aDst (w : Nat) : Nat := bitsOf w 7 3
def aS1 (w : Nat) : Nat := bitsOf w 10 3
def aS2 (w : Nat) : Nat := bitsOf w 13 3
def aAcc (w : Nat) : Nat := bitsOf w 7 2
def aScale (w : Nat) : Int := sext 6 (bitsOf w 30 6)
def aRnd (w : Nat) : Nat := bitsOf w 36 2

/-- A format-A instruction of one beat (R418): its fetches read before anything is written and land at the end of the beat. -/
def State.seA (s : State) (c e op : Nat) (f : Nat → SeSt → SeOut) : Out := s.seIns c e op fun w s =>
  let g := s.seng c e
  let x := g.mem 0 (g.ptr (bitsOf w 17 3)).addr
  let y := g.mem 1 (g.ptr (bitsOf w 24 3)).addr
  let o := f w g
  let g := o.g
  let g := if bit w 16 then (g.setD (bitsOf w 20 3) x).bump (bitsOf w 17 3) else g
  let g := if bit w 23 then (g.setD (bitsOf w 27 3) y).bump (bitsOf w 24 3) else g
  let s := ((s.setSeng c e g).cnt F.seCnt_sat c (e - 4) o.sat).cnt F.seCnt_accSat c (e - 4) o.acc
  s.seNext c e 1

/-- NOP of a signal engine: fetches only. -/
def execSeNop (c e : Nat) (s : State) : Out := s.seA c e 0x00 fun _ g => ⟨g, 0, 0⟩

/-- ADD: s1 + s2, or s1 − s2 under neg, each lane exact and then saturated (R413). -/
def seAddOp (w : Nat) (g : SeSt) : SeOut :=
  let x := g.d (aS1 w)
  let y := g.d (aS2 w)
  let k : Int := if bit w 39 then -1 else 1
  g.put (aDst w) (sat24 (s24 x.1 + k * s24 y.1)) (sat24 (s24 x.2 + k * s24 y.2))

/-- ADD. -/
def execSeAdd (c e : Nat) (s : State) : Out := s.seA c e 0x10 seAddOp

/-- MUL: the exact product rounded under R415. -/
def seMulOp (w : Nat) (g : SeSt) : SeOut :=
  let p := seProd (bit w 6) (bit w 38) (g.d (aS1 w)) (g.d (aS2 w))
  g.put (aDst w) (round24 p.1 (aScale w) (aRnd w)) (round24 p.2 (aScale w) (aRnd w))

/-- MUL. -/
def execMul (c e : Nat) (s : State) : Out := s.seA c e 0x11 seMulOp

/-- ASH: R415 of s1 with a = v · 2^23. -/
def seAshOp (w : Nat) (g : SeSt) : SeOut :=
  let x := g.d (aS1 w)
  g.put (aDst w) (round24 (s24 x.1 * 2 ^ 23) (aScale w) (aRnd w)) (round24 (s24 x.2 * 2 ^ 23) (aScale w) (aRnd w))

/-- ASH. -/
def execAsh (c e : Nat) (s : State) : Out := s.seA c e 0x12 seAshOp

/-- ABS: the saturated absolute value of each lane. -/
def seAbsOp (w : Nat) (g : SeSt) : SeOut :=
  let x := g.d (aS1 w)
  g.put (aDst w) (sat24 (s24 x.1).natAbs) (sat24 (s24 x.2).natAbs)

/-- ABS. -/
def execSeAbs (c e : Nat) (s : State) : Out := s.seA c e 0x13 seAbsOp

/-- MAX and MIN: lane-wise. -/
def sePickOp (big : Bool) (w : Nat) (g : SeSt) : SeOut :=
  let x := g.d (aS1 w)
  let y := g.d (aS2 w)
  let f := fun (a b : Nat) => if (s24 a < s24 b) = big then b else a
  ⟨g.setD (aDst w) (f x.1 y.1, f x.2 y.2), 0, 0⟩

/-- MAX. -/
def execSeMax (c e : Nat) (s : State) : Out := s.seA c e 0x14 (sePickOp true)

/-- MIN. -/
def execSeMin (c e : Nat) (s : State) : Out := s.seA c e 0x15 (sePickOp false)

/-- SEL: each lane of dst takes that lane of s1 where the lane of s2 is not negative. -/
def seSelOp (w : Nat) (g : SeSt) : SeOut :=
  let x := g.d (aS1 w)
  let y := g.d (aS2 w)
  let z := g.d (aDst w)
  ⟨g.setD (aDst w) (if 0 ≤ s24 y.1 then x.1 else z.1, if 0 ≤ s24 y.2 then x.2 else z.2), 0, 0⟩

/-- SEL. -/
def execSel (c e : Nat) (s : State) : Out := s.seA c e 0x16 seSelOp

/-- The accumulator an instruction starts from: 0 under clr. -/
def seAcc0 (w : Nat) (g : SeSt) : Int × Int := if bit w 40 then (0, 0) else g.ac (aAcc w)

/-- MAC: the accumulator plus or minus the exact product (R414). -/
def seMacOp (w : Nat) (g : SeSt) : SeOut :=
  let p := seProd (bit w 6) (bit w 38) (g.d (aS1 w)) (g.d (aS2 w))
  let k : Int := if bit w 39 then -1 else 1
  let a := seAcc0 w g
  g.putAc (aAcc w) (sat56 (a.1 + k * p.1)) (sat56 (a.2 + k * p.2))

/-- MAC. -/
def execMac (c e : Nat) (s : State) : Out := s.seA c e 0x20 seMacOp

/-- MAG2: the squared magnitude into the re half, or each lane's square. -/
def seMag2Op (w : Nat) (g : SeSt) : SeOut :=
  let x := g.d (aS1 w)
  let r := s24 x.1 * s24 x.1
  let i := s24 x.2 * s24 x.2
  let k : Int := if bit w 39 then -1 else 1
  let a := seAcc0 w g
  if bit w 6 then g.putAc (aAcc w) (sat56 (a.1 + k * (r + i))) (a.2, false)
  else g.putAc (aAcc w) (sat56 (a.1 + k * r)) (sat56 (a.2 + k * i))

/-- MAG2. -/
def execMag2 (c e : Nat) (s : State) : Out := s.seA c e 0x21 seMag2Op

/-- CLRA. -/
def execClra (c e : Nat) (s : State) : Out := s.seA c e 0x23 fun w g => ⟨g.setAc (aAcc w) (0, 0), 0, 0⟩

/-- RND: each half of the accumulator s1 rounded under R415. -/
def seRndOp (w : Nat) (g : SeSt) : SeOut :=
  let a := g.ac (bitsOf w 10 2)
  g.put (aDst w) (round24 a.1 (aScale w) (aRnd w)) (round24 a.2 (aScale w) (aRnd w))

/-- RND. -/
def execRnd (c e : Nat) (s : State) : Out := s.seA c e 0x24 seRndOp

/-- TAPM (R422): one tap, the optional move, then both pointers move by their steps. -/
def execTapm (c e : Nat) (s : State) : Out := s.seIns c e 0x22 fun w s =>
  let g := s.seng c e
  let px := g.ptr (bitsOf w 17 3)
  let py := g.ptr (bitsOf w 24 3)
  let x := g.mem 0 px.addr
  let p := seProd (bit w 6) (bit w 38) x (g.mem 1 py.addr)
  let k : Int := if bit w 39 then -1 else 1
  let a := seAcc0 w g
  let o := g.putAc (aAcc w) (sat56 (a.1 + k * p.1)) (sat56 (a.2 + k * p.2))
  let last := if px.len = 0 then 8191 else px.base + px.len - 1
  let g := if bit w 41 && px.addr ≠ last then o.g.setMem 0 (px.move 1).addr x else o.g
  let g := (g.bump (bitsOf w 17 3)).bump (bitsOf w 24 3)
  ((s.setSeng c e g).cnt F.seCnt_accSat c (e - 4) o.acc).seNext c e 1

/-- LUT: a table word by the top ib bits of s1.re (Table 14.7). -/
def execLut (c e : Nat) (s : State) : Out := s.seIns c e 0x09 fun w s =>
  let g := s.seng c e
  let p := g.ptr (bitsOf w 17 3)
  let i := (g.d (aS1 w)).1 / 2 ^ (24 - bitsOf w 42 4)
  let a := if p.len = 0 then (p.base + i) % 8192 else p.base + i % p.len
  (s.setSeng c e (g.setD (aDst w) (g.mem (bitsOf w 46 1) a))).seNext c e 1

/-- HALT (R430): the program ends and its SGD completes. -/
def execHalt (c e : Nat) (s : State) : Out := s.seIns c e 0x01 fun _ s =>
  let g := s.seng c e
  let s := ((s.setSeng c e { g with running := false, blks := [] }).wr F.seStatus_state 0 c (e - 4)).inc F.seBeats_beats c (e - 4) 1
  ((s.setQueue c g.stream e ((s.queue c g.stream e).drop 1)).runQueue 9 c g.stream e).showStream c g.stream

/-- BLK (R421). -/
def execBlk (c e : Nat) (s : State) : Out := s.seIns c e 0x02 fun w s =>
  let g := s.seng c e
  let pc := s.rd F.seStatus_pc c (e - 4)
  let body := bitsOf w 25 14
  let n := if bit w 6 then g.par (bitsOf w 7 2) else bitsOf w 9 16 + 1
  if 65536 < n then s.seFault c e E.seCount
  else if n = 0 then s.seGoto c e (pc + 1 + body) 1
  else (s.setSeng c e { g with blks := g.blks ++ [⟨pc + 1, pc + 1 + body, n - 1⟩] }).seNext c e 1

/-- SETP. -/
def execSetp (c e : Nat) (s : State) : Out := s.seIns c e 0x03 fun w s =>
  (s.setSeng c e ((s.seng c e).setPtr (bitsOf w 6 3) ⟨bitsOf w 9 13, bitsOf w 22 13, bitsOf w 35 14, bitsOf w 49 14⟩)).seNext c e 1

/-- ADDP. -/
def execAddp (c e : Nat) (s : State) : Out := s.seIns c e 0x04 fun w s =>
  let g := s.seng c e
  let k := bitsOf w 6 3
  (s.setSeng c e (g.setPtr k ((g.ptr k).move (sext 14 (bitsOf w 9 14))))).seNext c e 1

/-- SETA (R419). -/
def execSeta (c e : Nat) (s : State) : Out := s.seIns c e 0x05 fun w s =>
  let g := s.seng c e
  let v := (bitsOf w 11 24 + if bit w 8 then g.par (bitsOf w 9 2) else 0) % 2 ^ 24
  (s.setSeng c e { g with sas := Tab.set 0 g.sas (bitsOf w 6 2) v }).seNext c e 1

/-- LDI. -/
def execLdi (c e : Nat) (s : State) : Out := s.seIns c e 0x06 fun w s =>
  (s.setSeng c e ((s.seng c e).setD (bitsOf w 6 3) (bitsOf w 9 24, bitsOf w 33 24))).seNext c e 1

/-- STD: a data-memory word takes a data register, and the pointer moves. -/
def execStd (c e : Nat) (s : State) : Out := s.seIns c e 0x07 fun w s =>
  let g := s.seng c e
  let k := bitsOf w 7 3
  (s.setSeng c e ((g.setMem (bitsOf w 6 1) (g.ptr k).addr (g.d (bitsOf w 10 3))).bump k)).seNext c e 1

/-- Bytes per word of an SRAM sample format (Table 14.2). -/
def seFmtBytes (fmt : Nat) : Nat := if fmt = 1 then 6 else if fmt = 2 then 8 else 4

/-- One half loaded from SRAM: the 24-bit value, saturations, NaNs. SE_CNT.sat counts every saturation of Table 14.2, so
those of CBF16 as well. -/
def seLoadHalf (fmt v : Nat) : Nat × Nat × Nat :=
  match fmt with
  | 0 => (ofInt 24 (sext 16 v * 256), 0, 0)
  | 1 => (v % 2 ^ 24, 0, 0)
  | 2 => let r := sat24 (sext 32 v); (r.1, ofBool r.2, 0)
  | _ =>
    match elemVal 1 v with
    | .nan => (0, 0, 1)
    | .inf n => (ofInt 24 (if n then -(2 ^ 23) else 2 ^ 23 - 1), 1, 0)
    | .fin n m x =>
      let q : Int := roundInt .rne m (x + 23)
      let r := sat24 (if n then -q else q)
      (r.1, ofBool r.2, 0)

/-- One half stored to SRAM: the value and saturations. -/
def seStoreHalf (fmt rnd v : Nat) : Nat × Nat :=
  match fmt with
  | 0 =>
    let r := roundShift (s24 v * 2 ^ 23) 31 rnd
    (ofInt 16 (satInt 16 r), ofBool (satInt 16 r ≠ r))
  | 1 => (v % 2 ^ 24, 0)
  | 2 => (ofInt 32 (s24 v), 0)
  | _ => ((convert 1 false .rne (ofIntExp (s24 v) (-23))).code, 0)

/-- n bytes of cluster c's SRAM from byte offset o. -/
def State.sramBytes (s : State) (c o n : Nat) : Bytes := (List.range n).map (fun i => s.rawByte 0 (sramKey c (o + i)))

/-- Store bytes into cluster c's SRAM. -/
def State.setSram (s : State) (c o : Nat) (bs : Bytes) : State :=
  bs.zipIdx.foldl (fun u (b, i) => u.setRaw 0 (sramKey c (o + i)) b) s

/-- The regions of mould m whose bytes lie in cluster c's SRAM, with what they cover there: first byte, length, attributes. -/
def State.sramRegions (s : State) (m c : Nat) : List (Nat × Nat × Nat × Nat) :=
  (s.regions m).zipIdx.filterMap fun (r, i) =>
    let p := s.regionPhys r
    if (r.tier = 0 || r.tier = 3) && p.1 = 0 && p.2.1 / 2 ^ 24 = c then some (p.2.1 % 2 ^ 24, p.2.2, r.attr, i) else none

/-- The range check of R420: banks of the segment, regions of the mould on the cluster with the attribute. -/
def State.seRange (s : State) (c e o n mask : Nat) : Bool :=
  let v := s.stream c (s.seng c e).stream
  let m := s.rd F.seStatus_mould c (e - 4)
  o + n ≤ 2 ^ 24
    && (List.range ((o + n - 1) / 262144 + 1 - o / 262144)).all (fun i => bit v.banks (o / 262144 + i))
    && (List.range n).all (fun i => (s.sramRegions m c).any (fun r => r.1 ≤ o + i && o + i < r.1 + r.2.1 && r.2.2.1 &&& mask == mask))

/-- The stamped regions of the mould that a write to cluster c's SRAM touches count a version (R336). -/
def State.bumpSram (s : State) (m c o n : Nat) : State :=
  (s.sramRegions m c).foldl (fun u r =>
    if bit r.2.2.1 3 && r.1 < o + n && o < r.1 + r.2.1 then
      { u with vers := Tab.set 0 u.vers (regionKey m r.2.2.2) ((Tab.get 0 u.vers (regionKey m r.2.2.2) + 1) % 2 ^ 32) } else u) s

/-- Digest bytes of a signal-engine program count under the ordinal of its SGD (R235, Table 8.4). -/
def State.seAbsorb (s : State) (c e part role : Nat) (bs : Bytes) : State :=
  let st := (s.seng c e).stream
  s.absorb c st part (((s.queue c st e).head?.map (·.ord)).getD 0) role bs

/-- MVB (R432, Table 14.2). -/
def execMvb (c e : Nat) (s : State) : Out := s.seIns c e 0x08 fun w s =>
  let g := s.seng c e
  let k := bitsOf w 8 2
  let o := g.sa k
  let fmt := bitsOf w 10 2
  let n := bitsOf w 25 13 + 1
  let a := bitsOf w 12 13
  let h := seFmtBytes fmt / 2
  let len := n * (2 * h)
  let out := bit w 6
  let m := s.rd F.seStatus_mould c (e - 4)
  if o % 2 ≠ 0 || !s.seRange c e o len (if out then 2 else 1) then s.seFault c e E.seBounds
  else
    let mem := bitsOf w 7 1
    let s :=
      if out then
        let vs := (List.range n).flatMap (fun i => [(g.mem mem (a + i)).1, (g.mem mem (a + i)).2])
        let hs := vs.map (seStoreHalf fmt (bitsOf w 38 2))
        let bs := hs.flatMap (fun p => toLe h p.1)
        (((s.setSram c o bs).bumpSram m c o len).cnt F.seCnt_sat c (e - 4) (sumNat (hs.map (·.2)))).seAbsorb c e 2 0x33 bs
      else
        let bs := s.sramBytes c o len
        let hs := (List.range (2 * n)).map (fun i => seLoadHalf fmt (leAt bs (h * i) h))
        let g := (List.range n).foldl (fun (u : SeSt) i =>
          u.setMem mem (a + i) ((hs.getD (2 * i) (0, 0, 0)).1, (hs.getD (2 * i + 1) (0, 0, 0)).1)) g
        let s := ((s.setSeng c e g).cnt F.seCnt_sat c (e - 4) (sumNat (hs.map (·.2.1)))).cnt F.seCnt_nanIn c (e - 4) (sumNat (hs.map (·.2.2)))
        s.seAbsorb c e 1 0x26 bs
    let g := s.seng c e
    let s := s.setSeng c e { g with sas := Tab.set 0 g.sas k ((o + len) % 2 ^ 24) }
    s.seNext c e (4 + ((o + len - 1) / 64 + 1 - o / 64))

/-- The unit a JOB posts to (R460): class, field of the cluster, and the descriptor's unit. -/
def jobUnit (cls c dunit : Nat) : Nat :=
  if cls = 0 then 2 * fieldOf c + dunit % 2 else if cls = 1 then 8 + fieldOf c else 12 + fieldOf c

/-- Owner code of a unit in mesh routes (R47). -/
def unitNode (u : Nat) : Nat := if u < 8 then 0xC4 + u else if u < 12 then 0xCC + (u - 8) else 0xC0 + (u - 12)

/-- Descriptors a unit's queue holds (R462). -/
def unitDepth (u : Nat) : Nat := if u < 12 then 64 else 32

/-- Unit u. -/
def State.unit (s : State) (u : Nat) : UnitSt := Tab.get UnitSt.init s.units u

/-- Replace unit u; RADIO_UNIT follows. -/
def State.setUnit (s : State) (u : Nat) (v : UnitSt) : State :=
  ({ s with units := Tab.set UnitSt.init s.units u v }).wr F.radioUnit_queued v.queue.length u

/-- The mould's routes join two endpoints in both directions. -/
def State.routed (s : State) (m a b : Nat) : Bool :=
  let rs := (entriesOf (s.mouldSec m 0x32) 0 80).map routeOf
  rs.any (fun r => r.src = a && r.dst = b) && rs.any (fun r => r.src = b && r.dst = a)

/-- A JOB's word posts its descriptor when its flag is clear and its queue has room; none while it must hold. -/
def State.postJob (s : State) (c e w : Nat) : Option State :=
  let g := s.seng c e
  let o := g.sa (bitsOf w 8 2)
  let desc := s.sramBytes c o 64
  let u := jobUnit (bitsOf w 6 2) c (leAt desc 1 1)
  let q := s.unit u
  let j := bitsOf w 10 4
  if bit g.flags j || unitDepth u ≤ q.queue.length then none
  else
    let m := s.rd F.seStatus_mould c (e - 4)
    let job : JobRec := ⟨bitsOf w 6 2, c, e, o, j, m, s.rd F.seStatus_ctx c (e - 4), (s.stream c g.stream).run, s.heat m,
      (s.mould m).quenches, desc⟩
    let s := (s.seAbsorb c e 1 0x26 desc).setUnit u { q with queue := q.queue ++ [job] }
    some ((s.setSeng c e { s.seng c e with flags := setBit g.flags j true }).wr F.seStatus_state 1 c (e - 4))

/-- JOB (R420, R423, R461): posts its descriptor, or holds. -/
def execJob (c e : Nat) (s : State) : Out := s.seIns c e 0x30 fun w s =>
  let g := s.seng c e
  let o := g.sa (bitsOf w 8 2)
  let m := s.rd F.seStatus_mould c (e - 4)
  let x := s.rd F.seStatus_ctx c (e - 4)
  if o % 64 ≠ 0 || !s.seRange c e o 64 1 then s.seFault c e E.seBounds
  else
    let u := jobUnit (bitsOf w 6 2) c (leAt (s.sramBytes c o 64) 1 1)
    if s.rd F.radioUnit_state u = 0 || s.rd F.radioUnit_mould u ≠ m then s.faultCtx m x E.radioUnit (srcEngine c e) c
    else if !s.routed m c (unitNode u) then s.faultCtx m x E.radioRoute (srcEngine c e) c
    else
      match s.postJob c e w with
      | some t => t.seNext c e 1
      | none => (s.wr F.seStatus_state 2 c (e - 4)).showStream c g.stream

/-- A hold of an engine ends after `wait` beats (R424): they are wait beats of the SGD and of the segment. -/
def State.seWaited (s : State) (c e wait : Nat) : State :=
  let st := (s.seng c e).stream
  (((s.wr F.seStatus_state 1 c (e - 4)).inc F.seBeats_wait c (e - 4) wait).inc F.seqBeats_wait c st wait).seNext c e 1

/-- JOB_POSTED (R423): a held JOB posts its descriptor after `wait` beats. -/
def execJobPosted (c e wait : Nat) (s : State) : Out := s.whenLive fun s =>
  let w := s.seWord c e (s.rd F.seStatus_pc c (e - 4))
  let g := s.seng c e
  if !(e = 4 || e = 5) || !g.running || s.rd F.seStatus_state c (e - 4) ≠ 2 || w % 64 ≠ 0x30 then s
  else
    match s.postJob c e w with
    | some t => (t.seWaited c e wait).showStream c g.stream
    | none => s

/-- WAITJ (R423): holds until its job flag is 0. -/
def execWaitj (c e : Nat) (s : State) : Out := s.seIns c e 0x31 fun w s =>
  let g := s.seng c e
  if bit g.flags (bitsOf w 10 4) then (s.wr F.seStatus_state 2 c (e - 4)).showStream c g.stream else s.seNext c e 1

/-- Engine i (0 or 1) of cluster c that mould m lends there. -/
def State.lendsEngine (s : State) (m c i : Nat) : Bool := (s.offers m).any (fun o => o.cluster = c && bit o.signal i)

/-- The part of engine e's program memory a mould holds (R425): first word and end. -/
def State.sePart (s : State) (c e m : Nat) : Option (Nat × Nat) :=
  match s.claimer c with
  | none => none
  | some l =>
    let lent := s.lendsEngine l c (e - 4)
    if l = m then some (0x1000, if lent then 0x2800 else 0x4000)
    else if (s.boundOffers m c).any (fun o => bit o.signal (e - 4)) then some (0x2800, 0x4000) else none

/-- Prefix of instruction words with an opcode. -/
def seOps : List Nat := [0x00, 0x01, 0x02, 0x03, 0x04, 0x05, 0x06, 0x07, 0x08, 0x09, 0x10, 0x11, 0x12, 0x13, 0x14, 0x15, 0x16,
  0x20, 0x21, 0x22, 0x23, 0x24, 0x30, 0x31]

/-- Format-A opcodes. -/
def seFormatA (op : Nat) : Bool := op == 0 || op == 9 || (0x10 ≤ op && op ≤ 0x24)

/-- Format-A opcodes that write a data register. -/
def seWritesD (op : Nat) : Bool := op == 9 || (0x10 ≤ op && op ≤ 0x16) || op == 0x24

/-- Highest used bit of the formats of Table 14.5, plus 1, and the reserved bits below it. -/
def seFieldEnd (op : Nat) : Nat × Nat :=
  match op with
  | 0x01 => (6, 0)
  | 0x02 => (39, 0)
  | 0x03 => (63, 0)
  | 0x04 => (23, 0)
  | 0x05 => (35, 0)
  | 0x06 => (57, 0)
  | 0x07 => (13, 0)
  | 0x08 => (40, 0)
  | 0x30 => (14, 0)
  | 0x31 => (14, 0x3C0)
  | _ => (47, 0)

/-- An instruction word is well formed (E_SE_INSTR): opcode, reserved bits, ranges, and R417, R418, R432. -/
def seWordOk (radio : Bool) (w : Nat) : Bool :=
  let op := w % 64
  let fe := seFieldEnd op
  let taps := op == 0x22 || op == 0x09
  let xen := bit w 16 && !taps
  let yen := bit w 23 && !taps
  seOps.contains op && w / 2 ^ fe.1 == 0 && w &&& fe.2 == 0 &&
  (if seFormatA op then
      aRnd w != 3 && -23 ≤ aScale w && aScale w ≤ 23
        && (!((xen && yen) || op == 0x22) || bitsOf w 17 3 != bitsOf w 24 3)
        && (!(xen && yen) || bitsOf w 20 3 != bitsOf w 27 3)
        && (!(taps && op == 9) || (1 ≤ bitsOf w 42 4 && bitsOf w 42 4 ≤ 13))
        && (!(taps && (bit w 16 || bit w 23)))
        && (!(seWritesD op && xen) || bitsOf w 20 3 != aDst w) && (!(seWritesD op && yen) || bitsOf w 27 3 != aDst w)
    else if op == 0x02 then 1 ≤ bitsOf w 25 14 && bitsOf w 25 14 ≤ 12287
    else if op == 0x03 then
      let a := bitsOf w 9 13
      let b := bitsOf w 22 13
      let n := bitsOf w 35 14
      n ≤ 8192 && b + n ≤ 8192 && (n == 0 || (b ≤ a && a < b + n))
    else if op == 0x08 then bitsOf w 12 13 + bitsOf w 25 13 ≤ 8191 && bitsOf w 38 2 != 3
    else if op == 0x30 then bitsOf w 6 2 != 3 && radio
    else true)

/-- The first word whose BLK breaks R421 (nesting, bounds), as the open bodies' ends are followed. -/
def seRepeatBad (n : Nat) : Nat → List Nat → List Nat → Option Nat
  | _, _, [] => none
  | i, open_, w :: r =>
    let open_ := open_.filter (fun stop => i < stop)
    if w % 64 = 0x02 then
      let stop := i + 1 + bitsOf w 25 14
      if n < stop || 4 ≤ open_.length || open_.any (fun t => t < stop) then some i else seRepeatBad n (i + 1) (stop :: open_) r
    else seRepeatBad n (i + 1) open_ r

/-- Validation of a program image for engine e (R427, Table 14.8): the code and word index of the first failure. -/
def State.seCheck (s : State) (c e m : Nat) (im : Bytes) : Option (Nat × Nat) :=
  let n := leAt im 6 2
  let words := (List.range n).map (fun i => leAt im (64 + 8 * i) 8)
  let ec := leAt im 0x11 1
  let ents := (List.range 8).map (fun i => leAt im (0x14 + 2 * i) 2)
  let flags := leAt im 0xE 2
  let base := leAt im 0xC 2
  let fmt := leAt im 0 4 == 0x50534B49 && leAt im 4 2 == 1 && 1 ≤ n && n ≤ 12288 && leAt im 8 4 != 0 && flags < 4
    && 1 ≤ ec && ec ≤ 8 && leAt im 0x12 2 == 0 && (ents.take ec).all (· < n) && (ents.drop ec).all (· == 0) && allZero (slice im 0x24 24)
  let bad := words.zipIdx.find? (fun (w, _) => !seWordOk (s.isRadio m) w)
  let waits := words.any (fun w => w % 64 = 0x30 ∨ w % 64 = 0x31)
  let jobs := words.any (fun w => w % 64 = 0x30)
  if !fmt then some (E.seFormat, 0)
  else if crc32c (im.take 0x3C ++ im.drop 0x40) ≠ leAt im 0x3C 4 then some (E.seCrc, 0)
  else if leAt im 0x10 1 ≠ m || !(s.mstate m = 2 || s.mstate m = 3 || s.mstate m = 4) || (s.sePart c e m).isNone then some (E.seOwner, 0)
  else if !(match s.sePart c e m with | some p => p.1 ≤ base && base + n ≤ p.2 | none => false)
      || (s.seng c e).progs.any (fun p => p.base < base + n && base < p.base + p.words.length) then some (E.seSpace, 0)
  else if (s.seng c e).progs.any (fun p => p.mould = m && p.id = leAt im 8 4) then some (E.seDup, 0)
  else
    match bad with
    | some (_, i) => some (E.seInstr, i)
    | none =>
      if words.getLast? ≠ some 1 then some (E.seInstr, n - 1)
      else if bit flags 0 != waits || bit flags 1 != jobs then some (E.seInstr, 0)
      else (seRepeatBad n 0 [] words).map (fun i => (E.seRepeat, i))

/-- The engines of a load's mask, as engine indices. -/
def maskEngines (mask : Nat) : List Nat := (bitList 2 mask).map (· + 4)

/-- A program load is accepted (R426). -/
def State.seLoadAsk (s : State) (c m x mask addr : Nat) (a : Asker) : State :=
  match maskEngines mask with
  | [] => s
  | e :: _ => let g := s.seng c e; s.setSeng c e { g with loads := g.loads ++ [⟨m, x, addr, mask, 0, 0, a⟩] }

/-- SE_LOAD_DONE (R427): validation of the i-th load held with engine e completes; ecc as for LIST_LOAD_DONE. -/
def execSeLoadDone (c e i ecc word : Nat) (s : State) : Out := s.whenLive fun s =>
  match (s.seng c e).loads[i]? with
  | none => s
  | some l =>
    let g := s.seng c e
    let s := (s.setSeng c e { g with loads := g.loads.eraseIdx i }).sramEcc c ecc word
    let m := l.mould
    let inTier0 := fun (n : Nat) => s.onCluster m c l.addr n 1 && (s.regionAt m l.addr).any (fun r => r.tier = 0)
    let n := if inTier0 64 then 64 + 8 * leAt (s.readMem m l.addr 64) 6 2 else 64
    let im := s.readMem m l.addr n
    let refuse := fun (e code w : Nat) =>
      ((s.logEvt code (srcEngine c e) m (w * 2 ^ 16))).loadEnd c l.asker code
    if !inTier0 n then refuse e E.seFormat 0
    else if ecc = 2 then refuse e E.memSramUe 0
    else
      match (maskEngines l.engines).findSome? (fun e => (s.seCheck c e m im).map (fun p => (e, p))) with
      | some (e, (code, w)) => refuse e code w
      | none =>
        let p : SeProg := ⟨m, leAt im 8 4, leAt im 0xC 2, leAt im 0xE 2, (List.range (leAt im 6 2)).map (fun k => leAt im (64 + 8 * k) 8),
          (List.range (leAt im 0x11 1)).map (fun k => leAt im (0x14 + 2 * k) 2)⟩
        ((maskEngines l.engines).foldl (fun u e => u.setSeng c e { u.seng c e with progs := (u.seng c e).progs ++ [p] }) s).loadEnd c l.asker 0

end Sys2Proof.Machine
end

