-- ==== Sys2Proof/Machine/Radio.lean ====
section
/-! DEFINITION. Sys2Proof/Machine/Radio.lean: carriers (Tables 15.1 to 15.3, R434 to R439), the receive path of the fronthaul (R441 to
R446, R451 to R453), digital gain (R456, R457) and the idle noise floor (R458, R459). -/
namespace Sys2Proof.Machine

/-- Carrier c. -/
def State.car (s : State) (c : Nat) : CarrierSt := Tab.get CarrierSt.init s.cars c

/-- Replace carrier c. -/
def State.setCar (s : State) (c : Nat) (v : CarrierSt) : State := { s with cars := Tab.set CarrierSt.init s.cars c v }

/-- A field of a carrier descriptor (Table 15.2). -/
def CarrierSt.fld (v : CarrierSt) (off n : Nat) : Nat := leAt v.desc off n
/-- Mould of a carrier. -/
def CarrierSt.mould (v : CarrierSt) : Nat := v.fld 1 1
/-- Context of a carrier. -/
def CarrierSt.ctx (v : CarrierSt) : Nat := v.fld 2 1
/-- Access port of a carrier. -/
def CarrierSt.ap (v : CarrierSt) : Nat := v.fld 3 1 % 8
/-- Lane of a carrier. -/
def CarrierSt.lane (v : CarrierSt) : Nat := v.fld 3 1 / 8 % 4
/-- Sub-port of a carrier. -/
def CarrierSt.sub (v : CarrierSt) : Nat := 16 + 4 * v.ap + v.lane
/-- Split of a carrier. -/
def CarrierSt.split (v : CarrierSt) : Nat := v.fld 4 1
/-- Numerology of a carrier. -/
def CarrierSt.mu (v : CarrierSt) : Nat := v.fld 5 1
/-- PRBs of a carrier. -/
def CarrierSt.nPrb (v : CarrierSt) : Nat := v.fld 6 2
/-- FFT size of a carrier in time-domain mode. -/
def CarrierSt.fft (v : CarrierSt) : Nat := v.fld 8 2
/-- UL streams. -/
def CarrierSt.ul (v : CarrierSt) : Nat := v.fld 0xA 1
/-- DL streams. -/
def CarrierSt.dls (v : CarrierSt) : Nat := v.fld 0xB 1
/-- PRACH streams. -/
def CarrierSt.prach (v : CarrierSt) : Nat := v.fld 0xC 1
/-- Width of IQ samples. -/
def CarrierSt.iqw (v : CarrierSt) : Nat := v.fld 0xD 1
/-- A flag of a carrier: 0 static_comp, 1 vlan_en, 2 gain_auto, 3 allow_freerun. -/
def CarrierSt.flag (v : CarrierSt) (i : Nat) : Bool := bit (v.fld 0xE 2) i
/-- Bytes of the UL landing of one symbol, W of Table 15.3. -/
def CarrierSt.w (v : CarrierSt) : Nat := v.ul * v.nPrb * 72 + v.prach * 5184
/-- Slots of a subframe. -/
def CarrierSt.perSub (v : CarrierSt) : Nat := 2 ^ v.mu
/-- Length of a slot in ns. -/
def CarrierSt.slotNs (v : CarrierSt) : Nat := 1000000 / 2 ^ v.mu
/-- Frame offset in ns. -/
def CarrierSt.off (v : CarrierSt) : Nat := v.fld 0x20 4

/-- A symbol of slot k takes the long prefix (TS 38.211 clause 5.3.1, R452). -/
def longCp (mu k n : Nat) : Bool :=
  let l := 14 * (k % 2 ^ mu) + n
  l == 0 || l == 7 * 2 ^ mu

/-- Lengths of symbols 0 to n - 1 of slot k, in units of 1 / 30.72 MHz. -/
def symStart (mu k n : Nat) : Nat :=
  sumNat ((List.range n).map (fun i => 2192 / 2 ^ mu + (if longCp mu k i then 16 else 0)))

/-- T_sym of symbol n of slot k counted from network time 0, in units of 1/96 ns (R439). -/
def CarrierSt.t96 (v : CarrierSt) (k n : Nat) : Nat := 96 * (v.off + k * v.slotNs) + 3125 * symStart v.mu k n

/-- Network time in units of 1/96 ns, the fraction rounded down. -/
def State.now96 (s : State) : Nat := 96 * s.clk.ns + 96 * s.clk.frac / 2 ^ 32

/-- The key of a symbol's slot half and number: (s mod 2) × 14 + n. -/
def symKey (k n : Nat) : Nat := k % 2 * 14 + n

/-- Slots of a radio frame. -/
def CarrierSt.perFrame (v : CarrierSt) : Nat := 10 * v.perSub

/-- Buffers of a carrier (Table 15.3): address and bytes. -/
def CarrierSt.buffers (v : CarrierSt) : List (Nat × Nat) :=
  [(v.fld 0x40 8, 28 * v.w), (v.fld 0x48 8, 28 * v.dls * v.nPrb * 72), (v.fld 0x50 8, 1808), (v.fld 0x58 8, 320),
   (v.fld 0x60 8, v.fld 0x3A 2 * 2048)]

/-- The cluster of a tier-0 region of mould m that holds a buffer whole with read and write, if the mould claims it in field f. -/
def State.bufferCluster (s : State) (m f a n : Nat) : Option Nat :=
  match s.regionAt m a with
  | some r =>
    let c := r.target % 256
    if r.tier = 0 && r.attr % 4 = 3 && a + n ≤ r.base + r.len && fieldOf c = f && (s.mould m).claimed.contains c && a % 64 = 0
    then some c else none
  | none => none

/-- A descriptor lies inside Tables 15.1, 15.2 and 15.9 (R437). -/
def descOk (d : Bytes) : Bool :=
  let v : CarrierSt := { CarrierSt.init with desc := d }
  let td := v.split == 2
  d.length == 128 && decide (v.fld 0 1 < 128) && decide (v.mould < 64) && decide (v.fld 3 1 < 32) && decide (v.split ≤ 2)
    && (v.mu == 0 || v.mu == 1 || v.mu == 3) && decide (11 ≤ v.nPrb ∧ v.nPrb ≤ 275)
    && (if td then (v.fft == 512 || v.fft == 1024 || v.fft == 2048 || v.fft == 4096) && decide (12 * v.nPrb < v.fft) else v.fft == 0)
    && decide (1 ≤ v.ul ∧ v.ul ≤ 16 ∧ 1 ≤ v.dls ∧ v.dls ≤ 16 ∧ v.prach ≤ 4) && (!td || v.prach == 0)
    && (if td then v.iqw == 16 else v.iqw == 8 || v.iqw == 9 || v.iqw == 12 || v.iqw == 14 || v.iqw == 16)
    && decide (v.fld 0xE 2 < 16) && decide (v.fld 0x10 2 < 32768)
    && decide (1 ≤ v.fld 0x1C 1 ∧ v.fld 0x1C 1 ≤ 4) && v.fld 0x1A 2 % 2 ^ v.fld 0x1C 1 == 0
    && v.fld 0x18 2 &&& v.fld 0x1A 2 == v.fld 0x18 2
    && decide (v.fld 0x1D 1 ≤ 9) && decide (v.fld 0x1E 1 ≤ 4) && (td || v.fld 0x1E 1 == 0) && decide (v.off < 10000000)
    && decide (v.fld 0x38 1 < 32) && decide (v.fld 0x39 1 < 16)
    && (List.range 9).any (fun i => v.fld 0x3A 2 == 2 ^ (i + 4)) && decide (1024 ≤ v.fld 0x3C 2 ∧ v.fld 0x3C 2 ≤ 8960)
    && v.fld 0x3E 2 == 0 && allZero (slice d 0x68 24)

/-- The units a units byte names in field f: decoders, the encoder, the transform engine's job path (R460). -/
def namedUnits (f b : Nat) : List Nat :=
  (if bit b 0 then [2 * f] else []) ++ (if bit b 1 then [2 * f + 1] else []) ++ (if bit b 2 then [8 + f] else [])
    ++ (if bit b 3 then [12 + f] else [])

/-- The carriers bound. -/
def State.bound (s : State) : List Nat := (List.range 128).filter (fun c => s.flag F.radioCar_bound c)

/-- The code with which RADIO_BIND is refused (R436, R437); 0 when it is accepted. -/
def State.bindCheck (s : State) (d : Bytes) : Nat :=
  let v : CarrierSt := { CarrierSt.init with desc := d }
  let m := v.mould
  let f := v.ap / 2
  let st := s.mstate m
  let bufs := v.buffers.map (fun b => s.bufferCluster m f b.1 b.2)
  let q := fun (off : Nat) => s.qInfo (queueNo (0x10 + v.ap) (v.fld off 2))
  let qOk := fun (i : Option QInfo) => i.any (fun x => x.owner = some m && x.level = 0 && x.lane = v.lane)
  let cy := s.cycleNs m
  if !descOk d then E.radioBind
  else if st = 0 || st = 1 then E.mouldState
  else if !s.isRadio m then E.mouldKind
  else if st ≠ 2 && st ≠ 4 then E.mouldState
  else if s.ctxCount m ≤ v.ctx || bufs.any (·.isNone) then E.radioBind
  else if s.flag F.radioCar_bound (v.fld 0 1) then E.radioFull
  else if laneCount (qMode s.queueMap (0x10 + v.ap)) ≤ v.lane || !qOk (q 0x34) || !qOk (q 0x36) || s.blockBusy (18 + v.ap) then E.radioQueue
  else if !bufs.all (fun c => s.routed m (c.getD 0) (0xC0 + f)) then E.radioRoute
  else if (namedUnits f (v.fld 0x39 1)).any (fun u => s.rd F.radioUnit_state u ≠ 0 && s.rd F.radioUnit_mould u ≠ m || s.blockBusy (26 + u)) then E.radioUnit
  else if cy = 0 || 10000000 % cy ≠ 0 || v.off % cy ≠ s.phaseNs m || v.fld 0x28 4 ≤ v.fld 0x24 4 || v.fld 0x30 4 ≤ v.fld 0x2C 4
      || v.slotNs < v.fld 0x28 4 || v.slotNs < v.fld 0x30 4 then E.radioTiming
  else 0

/-- Every stream of a carrier at a gain code, in the register's 12 fields (Table 15.21). -/
def gainWord (g : Tab Nat) : Nat := sumNat ((List.range 12).map (fun k => Tab.get 0 g k * 16 ^ k))

/-- The first slot whose symbol 0 window opens after now, and the first symbol whose window closes after now. -/
def State.firstWindows (s : State) (v : CarrierSt) : Nat × Nat :=
  let k := (s.clk.ns - v.off) / v.slotNs
  let k0 := ((List.range 4).map (· + k - 1)).find? (fun i => s.now96 < v.t96 i 0 + 96 * v.fld 0x24 4) |>.getD (k + 3)
  let j := ((List.range 56).map (· + 14 * (k - 1))).find? (fun i => s.now96 < v.t96 (i / 14) (i % 14) + 96 * v.fld 0x28 4)
  (k0, j.getD (14 * (k + 3)))

/-- RADIO_BIND is accepted (R436, R456): the carrier is bound, its units owned, every stream at gain_fixed. -/
def State.bindCarrier (s : State) (d : Bytes) : State :=
  let v : CarrierSt := { CarrierSt.init with desc := d }
  let c := v.fld 0 1
  let g := (List.range v.ul).foldl (fun t k => Tab.set 0 t k (v.fld 0x1D 1)) ([] : Tab Nat)
  let (o, cl) := s.firstWindows v
  let s := s.setCar c { v with gain := g, gainOld := g, opened := o, closed := cl }
  let s := (((s.setReg .radioCar c 0 0).wr F.radioCar_bound 1 c).wr F.radioCar_mould v.mould c).wr F.radioCar_port (v.fld 3 1) c
  let s := ((s.setReg .fhRx c 0 0).setReg .fhRx2 c 0 0).setReg .radioGain c 0 (gainWord g)
  let s := (s.setReg .radioCpring c 0 0).setReg .radioNf c 0 (0x8000 + 0x8000 * 2 ^ 16)
  (namedUnits (v.ap / 2) (v.fld 0x39 1)).foldl (fun (u : State) i =>
    let u := u.wr F.radioUnit_mould v.mould i
    if u.rd F.radioUnit_state i = 0 then u.wr F.radioUnit_state 1 i else u) s

/-- Queued frames of a carrier are removed; how many there were. -/
def State.dropCarFrames (s : State) (c : Nat) (p : EgFrame → Bool) : Nat × State :=
  let hit := fun (f : EgFrame) => f.car = c + 1 && p f
  let qs := s.egr.qs.filter (fun e => e.2.frames.any hit)
  (sumNat (qs.map (fun e => (e.2.frames.filter hit).length)),
   qs.foldl (fun (u : State) e => u.setEq e.1 { e.2 with frames := e.2.frames.filter (fun f => !hit f) }) s)

/-- A carrier is removed (R436): its units that no other carrier names are owned by no mould. -/
def State.unbindCarrier (s : State) (c : Nat) : State :=
  let v := s.car c
  let (_, s) := s.dropCarFrames c (fun _ => true)
  let s := (s.setCar c CarrierSt.init).setReg .radioCar c 0 (s.rd F.radioCar_mutes c * 2 ^ 32)
  let still := s.bound.flatMap (fun i => namedUnits ((s.car i).ap / 2) ((s.car i).fld 0x39 1))
  (namedUnits (v.ap / 2) (v.fld 0x39 1)).foldl (fun (u : State) i =>
    if still.contains i then u else ((u.wr F.radioUnit_state 0 i).wr F.radioUnit_mould 0 i)) s

/-- A violation on an access sub-port without a radio carrier that Table 19.11 counts. -/
def State.accessHit (s : State) (sub : Nat) : State :=
  if s.isRadioSub sub then s else (s.quarHit sub 100000).2

/-- An access sub-port takes frames: its link is up and it is not quarantined (R575). -/
def State.subOpen (s : State) (sub : Nat) : Bool := 16 ≤ sub && sub < 48 && s.subUp sub && !s.flag F.quar_active sub

/-- UNCLASSIFIED_FRAME_RX (R441, R573). -/
def execUnclassifiedFrameRx (dt sub : Nat) (s : State) : Out := s.whenLive fun s =>
  let s := s.pass dt
  if !s.subOpen sub then s else (s.cnt F.apStatus_otherDrop ((sub - 16) / 4)).accessHit sub

/-- The carrier of a fronthaul or time-domain frame (R441): sub-port, MAC, VLAN, and eAxC for split 7.2x. -/
def State.matchCar (s : State) (sub mac : Nat) (vid : Option Nat) (eaxc : Option Nat) : Option Nat :=
  s.bound.find? fun c =>
    let v := s.car c
    v.sub == sub && beNat (slice v.desc 0x12 6) == mac && (!v.flag 1 || vid == some (v.fld 0x10 2 % 4096))
      && (match eaxc with
        | some e => v.split ≠ 2 && e &&& v.fld 0x1A 2 == v.fld 0x18 2
        | none => v.split == 2)

/-- The frame index F of an 8-bit frameId whose instant lies nearest to now (R443): `base96` is the instant within its frame. -/
def State.nearFrame (s : State) (v : CarrierSt) (period id base96 : Nat) : Nat :=
  let p : Int := ((96 * 10000000 * period : Nat) : Int)
  let d : Int := (s.now96 : Int) - ((96 * (v.off + 10000000 * id) + base96 : Nat) : Int)
  let k := (2 * d + p) / (2 * p)
  ((id : Int) + k * period).toNat

/-- n values of w bits, two's complement, packed most significant bit first (Table 15.4). -/
def unpackIq (w n : Nat) (bs : Bytes) : List Int :=
  let x := beNat bs
  let total := 8 * bs.length
  (List.range n).map (fun i => sext w (bitsOf x (total - w * (i + 1)) w))

/-- The landed value of a 16-bit v under a gain code, with whether it saturated (R444, Table 15.9). -/
def landValue (code : Nat) (v : Int) : Nat × Bool := sat24 (v * (2 ^ (6 + code) : Nat))

/-- A U-plane section as received: its PRBs from startPrbu on, each with 24 values v. -/
structure FhSection where
  start : Nat
  prbs : List (List Int)

/-- The sections of a U-plane message from its application header's end on; none when malformed (Table 15.4). The section layout is that
of the O-RAN U-plane: 12-bit id, rb, symInc, 10-bit start, 8-bit count, then compression header and PRBs (log entry 44). -/
def fhSections (v : CarrierSt) : Nat → Bytes → Option (List FhSection)
  | 0, _ => none
  | f + 1, bs =>
    if bs.isEmpty then some []
    else if bs.length < 4 then none
    else
      let h := beAt bs 0 4
      let start := bitsOf h 8 10
      let n := if h % 256 = 0 then v.nPrb else h % 256
      let comp := if v.flag 0 then 0 else 2
      let bfp := v.iqw ≠ 16
      let per := 3 * v.iqw + ofBool bfp
      let want := v.iqw % 16 * 16 + ofBool bfp
      let body := bs.drop (4 + comp)
      let l := (List.range n).map (fun i => slice body (per * i) per)
      let exps := l.map (fun p => if bfp then beAt p 0 1 else 0)
      if bitsOf h 18 2 ≠ 0 || (comp = 2 && beAt bs 4 1 ≠ want) || v.nPrb < start + n || body.length < per * n
          || exps.any (fun e => 16 - v.iqw < e) then none
      else
        let prbs := l.zipWith (fun p e => (unpackIq v.iqw 24 (if bfp then p.drop 1 else p)).map (fun (x : Int) => x * ((2 ^ e : Nat) : Int))) exps
        (fhSections v f (body.drop (per * n))).map (fun r => ⟨start, prbs⟩ :: r)

/-- The gain code of a UL stream in slot k (R457): a slot before the one opened last keeps its own; PRACH streams land at the code of
the UL stream of the same number. -/
def CarrierSt.code (v : CarrierSt) (k stream : Nat) : Nat :=
  Tab.get 0 (if k + 1 < v.opened then v.gainOld else v.gain) (stream % 16)

/-- Where element sc of a stream lands in the UL buffer (R438); PRACH streams are 16 and up. -/
def CarrierSt.ulAddr (v : CarrierSt) (k n stream sc : Nat) : Nat :=
  v.fld 0x40 8 + symKey k n * v.w
    + (if stream < 16 then stream * v.nPrb * 72 + 6 * sc else v.ul * v.nPrb * 72 + (stream - 16) * 5184 + 6 * sc)

/-- The idle tables in force name a PRB in a symbol of slot k (R458). -/
def CarrierSt.isIdle (v : CarrierSt) (k n prb : Nat) : Bool :=
  let t := Tab.get [] v.idle (k % 2)
  (List.range 8).any fun i =>
    let e := leAt t (4 * i) 4
    let a := bitsOf e 14 9
    bit e n && a ≤ prb && prb < a + bitsOf e 23 9

/-- Values of one PRB of a stream land, as they are counted for gain and noise (R444, R457, R459). -/
def State.landPrb (s : State) (c k n stream prb pos : Nat) (vals : List Int) : State :=
  let v := s.car c
  let g := v.code k stream
  let out := vals.map (landValue g)
  let sats := (out.filter (·.2)).length
  let s := s.writeMem v.mould (v.ulAddr k n stream (12 * pos)) (out.flatMap (fun o => toLe 3 o.1))
  let s := s.cnt F.radioGain_sat c 0 sats
  let e := sumNat (out.map (fun o => (s24 o.1).natAbs ^ 2))
  let sk := 16 * (k % 2) + stream
  let fk := 16 * (k / v.perFrame % 2) + stream
  let key := 32 * symKey k n + stream
  let v := { v with landed := Tab.set [] v.landed key (prb :: Tab.get [] v.landed key) }
  if 16 ≤ stream then s.setCar c v
  else
    let idle := v.isIdle k n prb
    s.setCar c { v with
      satd := if sats = 0 || v.satd.contains sk then v.satd else sk :: v.satd
      sumE := Tab.set 0 v.sumE sk (Tab.get 0 v.sumE sk + e)
      sumN := Tab.set 0 v.sumN sk (Tab.get 0 v.sumN sk + 12)
      idleE := if idle then Tab.set 0 v.idleE fk (Tab.get 0 v.idleE fk + e * 4 ^ (9 - g)) else v.idleE
      idleN := if idle then Tab.set 0 v.idleN fk (Tab.get 0 v.idleN fk + 12) else v.idleN }

/-- The verdict of Table 15.5 on a frame whose symbol window is known: `k` lands it. -/
def State.inWindow (s : State) (c k n : Nat) (land : State → State) : State :=
  let v := s.car c
  let t := v.t96 k n
  if s.now96 < t + 96 * v.fld 0x24 4 then s.cnt F.fhRx_early c
  else if t + 96 * v.fld 0x28 4 ≤ s.now96 then s.cnt F.fhRx_late c
  else land s

/-- A sequence number arrives for a stream: a gap is counted once (Table 15.5). -/
def State.ulSeq (s : State) (c stream seq m : Nat) : State :=
  let v := s.car c
  let last := Tab.get 0 v.seqUl stream
  let s := if last ≠ 0 && last % m ≠ seq % m then s.cnt F.fhRx2_seqGap c else s
  s.setCar c { v with seqUl := Tab.set 0 v.seqUl stream (seq % m + 1) }

/-- FRONTHAUL_FRAME_RX (R441 to R444): a frame of EtherType 0xAEFE on a sub-port, from a MAC, under a VLAN ID if tagged, with its eCPRI
message. -/
def execFronthaulFrameRx (dt sub mac : Nat) (vid : Option Nat) (f : Bytes) (s : State) : Out := s.whenLive fun s =>
  let s := s.pass dt
  if !s.subOpen sub then s
  else
    match s.matchCar sub mac vid (some (beAt f 4 2)) with
    | none => s.cnt F.apStatus_fhUnmatched ((sub - 16) / 4)
    | some c =>
      let v := s.car c
      let dir := beAt f 8 1
      let filter := dir % 16
      let stream := beAt f 4 2 % 2 ^ v.fld 0x1C 1
      let ids := beAt f 10 2
      let sf := bitsOf ids 12 4
      let sl := bitsOf ids 6 6
      let n := ids % 64
      let bad := beAt f 0 1 ≠ 0x10 || beAt f 1 1 ≠ 0 || beAt f 2 2 + 4 ≠ f.length || f.length < 12 || beAt f 7 1 ≠ 0x80
        || dir / 16 ≠ 1 || 10 ≤ sf || v.perSub ≤ sl || 14 ≤ n
        || (if filter = 0 then decide (v.ul ≤ stream) else decide (v.prach ≤ stream))
      match fhSections v f.length (f.drop 12) with
      | none => s.cnt F.fhRx_malformed c
      | some secs =>
        if bad || (filter ≠ 0 && secs.any (fun x => 72 < x.prbs.length)) then s.cnt F.fhRx_malformed c
        else
          let inFrame := sf * v.perSub + sl
          let fr := s.nearFrame v 256 (beAt f 9 1) (96 * inFrame * v.slotNs + 3125 * symStart v.mu inFrame n)
          let k := fr * v.perFrame + inFrame
          let st := if filter = 0 then stream else 16 + stream
          s.inWindow c k n fun s =>
            let have_ := Tab.get [] v.landed (32 * symKey k n + st)
            let prbs := secs.flatMap (fun x => (List.range x.prbs.length).map (· + x.start))
            if prbs.any (fun p => have_.contains p) || !prbs.Nodup then s.cnt F.fhRx_dup c
            else
              let s := s.ulSeq c st (beAt f 6 1) 256
              secs.foldl (fun (u : State) x => x.prbs.zipIdx.foldl (fun (w : State) (p, i) =>
                w.landPrb c k n st (x.start + i) (if filter = 0 then x.start + i else i) p) u) s

/-- Samples of the cyclic prefix of symbol n of slot k (R452). -/
def CarrierSt.cpLen (v : CarrierSt) (k n : Nat) : Nat := v.fft * 9 / 128 + (if longCp v.mu k n then v.fft * v.perSub / 128 else 0)

/-- First sample within the radio frame of symbol n of slot k. -/
def CarrierSt.symSample (v : CarrierSt) (k n : Nat) : Nat :=
  k % v.perFrame * 15 * v.fft + sumNat ((List.range n).map (fun i => v.fft + v.cpLen k i))

/-- The symbol of a frame's slots that holds a sample. -/
def CarrierSt.sampleSym (v : CarrierSt) (i : Nat) : Option (Nat × Nat) :=
  let k := i / (15 * v.fft)
  ((List.range 14).find? (fun n => v.symSample k n ≤ i && i < v.symSample k n + v.fft + v.cpLen k n)).map (fun n => (k, n))

/-- TIME_DOMAIN_FRAME_RX (R451): a frame of EtherType 0x88B5 (Table 15.7); its samples wait for their symbol's window to close. -/
def execTimeDomainFrameRx (dt sub mac : Nat) (vid : Option Nat) (f : Bytes) (s : State) : Out := s.whenLive fun s =>
  let s := s.pass dt
  if !s.subOpen sub then s
  else
    match s.matchCar sub mac vid none with
    | none => s.cnt F.apStatus_fhUnmatched ((sub - 16) / 4)
    | some c =>
      let v := s.car c
      let stream := beAt f 2 1
      let count := beAt f 6 2
      let first := beAt f 12 4
      let bad := f.length < 16 || beAt f 0 1 ≠ 1 || beAt f 1 1 ≠ 1 || v.ul ≤ stream || 1 < beAt f 3 1 || count = 0
        || v.fld 0x3C 2 / 4 < count || f.length ≠ 16 + 4 * count || 1024 ≤ beAt f 8 2 || beAt f 10 2 ≠ 0
        || 150 * v.fft * v.perSub < first + count
      match v.sampleSym (first + count - 1) with
      | none => s.cnt F.fhRx_malformed c
      | some (kf, n) =>
        if bad then s.cnt F.fhRx_malformed c
        else
          let fr := s.nearFrame v 1024 (beAt f 8 2) (96 * (first + count - 1) * 10000000 / (150 * v.fft * v.perSub))
          let k := fr * v.perFrame + kf
          s.inWindow c k n fun s =>
            let idx := (List.range count).map (· + first)
            let key := fun (i : Nat) => (v.sampleSym i).map (fun (x : Nat × Nat) => 32 * symKey x.1 x.2 + stream)
            let have_ := fun (i : Nat) => match key i with
              | some q => (Tab.get [] v.samples q).any (fun e => e.1 = i)
              | none => false
            if idx.any have_ then s.cnt F.fhRx_dup c
            else
              let s := s.ulSeq c stream (beAt f 4 2) 65536
              let v := s.car c
              let t := idx.zipIdx.foldl (fun t (i, j) => match key i with
                | some q => Tab.set [] t q ((i, beAt f (16 + 4 * j) 2, beAt f (18 + 4 * j) 2) :: Tab.get [] t q)
                | none => t) v.samples
              s.setCar c { v with samples := t }

/-- RX_WINDOW_OPEN (R446, R457, R458): the window of symbol 0 of a carrier's next slot opens: its idle table is read, gain codes for the
slot apply, and its half of the buffer begins anew. -/
def execRxWindowOpen (dt c : Nat) (s : State) : Out := s.whenLive fun s =>
  let s := s.pass dt
  let v := s.car c
  let k := v.opened
  if 128 ≤ c || !s.flag F.radioCar_bound c || s.now96 < v.t96 k 0 + 96 * v.fld 0x24 4 then s
  else
    let par := k % 2
    let now := v.gainNext.filter (fun g => g.1 ≤ k)
    let gain := now.foldl (fun t g => Tab.set 0 t g.2.1 g.2.2) v.gain
    let mine := fun (key : Nat) => decide (key / 32 / 14 ≠ par)
    let slot := fun (t : Tab Nat) => t.filter (fun e => e.1 / 16 ≠ par)
    let s := s.setCar c { v with
      opened := k + 1, gain := gain, gainOld := v.gain, gainNext := v.gainNext.filter (fun g => k < g.1)
      gainDiff := Tab.set 0 v.gainDiff par (ofBool (gain ≠ v.gain))
      landed := v.landed.filter (fun e => mine e.1), samples := v.samples.filter (fun e => mine e.1)
      satd := v.satd.filter (fun e => e / 16 ≠ par), sumE := slot v.sumE, sumN := slot v.sumN
      idle := Tab.set [] v.idle par (s.readMem v.mould (v.fld 0x58 8 + 32 * par) 32) }
    s.wr F.radioGain_code (gainWord gain) c

/-- cos and sin of 2π · k / n in fixed point, by their series. -/
def fxTrig (k n : Nat) : Int × Int :=
  let k' : Int := if 2 * (k % n) ≤ n then ((k % n : Nat) : Int) else ((k % n : Nat) : Int) - n
  let x := 2 * fxPi * k' / n
  let go := fun (t0 : Int) (i0 : Nat) =>
    ((List.range 110).foldl (fun (a : Int × Int) j =>
      (a.1 + a.2, -(fxMul (fxMul a.2 x) x) / (((2 * j + i0 + 1) * (2 * j + i0 + 2) : Nat) : Int))) (0, t0)).1
  (go fxOne 0, go x 1)

/-- A fixed-point number times 2^-k to the nearest integer, ties to even. -/
def fxRound (a : Int) (k : Nat) : Int := roundShift a (fxBits + k) 0

/-- Output bin b of the n-point transform of complex values: the exact sum in fixed point (log entry 5); inverse under inv. -/
def dftBin (inv : Bool) (xs : List (Int × Int)) (n b : Nat) : Int × Int :=
  xs.zipIdx.foldl (fun (a : Int × Int) (p, i) =>
    let (co, si) := fxTrig (b * i % n) n
    let si := if inv then si else -si
    (a.1 + p.1 * co - p.2 * si, a.2 + p.1 * si + p.2 * co)) (0, 0)

/-- ⌈log₂(n) / 2⌉ for a power of two. -/
def halfLog (n : Nat) : Nat := (Nat.log2 n + 1) / 2

/-- The subcarriers of a UL symbol from its samples (R453): prefix removed, transformed, scaled, rounded to 16 bits. -/
def ulBins (v : CarrierSt) (k n : Nat) (samples : List (Nat × Nat × Nat)) : List (Int × Int) :=
  let base := v.symSample (k % v.perFrame) n + v.cpLen k n
  let xs := (List.range v.fft).map (fun i =>
    match samples.find? (fun e => e.1 = base + i) with
    | some (_, a, b) => (sext 16 a, sext 16 b)
    | none => (0, 0))
  (List.range (12 * v.nPrb)).map (fun sc =>
    let (re, im) := dftBin false xs v.fft ((sc + v.fft - 6 * v.nPrb) % v.fft)
    (satInt 16 (fxRound re (halfLog v.fft)), satInt 16 (fxRound im (halfLog v.fft))))

/-- Time-domain UL symbols pass the transform engine when their window closes (R453). -/
def State.landSamples (s : State) (c k n : Nat) : State :=
  let v := s.car c
  if v.split ≠ 2 then s
  else
    (List.range v.ul).foldl (fun (u : State) st =>
      let l := Tab.get [] v.samples (32 * symKey k n + st)
      let bins := ulBins v k n l
      (List.range v.nPrb).foldl (fun (w : State) p =>
        w.landPrb c k n st p p ((bins.drop (12 * p)).take 12 |>.flatMap (fun b => [b.1, b.2]))) u) s

/-- PRBs of a stream that count as landed for a symbol: in time-domain mode all or none, by whether every sample came. -/
def CarrierSt.prbRx (v : CarrierSt) (k n st : Nat) : Nat :=
  if v.split = 2 then
    if (Tab.get [] v.samples (32 * symKey k n + st)).length = v.fft + v.cpLen k n then v.nPrb else 0
  else (Tab.get [] v.landed (32 * symKey k n + st)).length

/-- The PRBs of a symbol that have not landed are zeroed (R444). -/
def State.zeroMissing (s : State) (c k n : Nat) : State :=
  let v := s.car c
  let fill := fun (u : State) (st count : Nat) =>
    let l := Tab.get [] v.landed (32 * symKey k n + st)
    (List.range count).foldl (fun (w : State) p =>
      if l.contains p then w else w.writeMem v.mould (v.ulAddr k n st (12 * p)) (List.replicate 72 0#8)) u
  let s := (List.range v.ul).foldl (fun (u : State) st => fill u st v.nPrb) s
  (List.range v.prach).foldl (fun (u : State) p =>
    let l := (Tab.get [] v.landed (32 * symKey k n + 16 + p)).length
    if l = 0 then fill u (16 + p) 72
    else u.writeMem v.mould (v.ulAddr k n (16 + p) (12 * l)) (List.replicate (5184 - 72 * min l 72) 0#8)) s

/-- The power of an idle floor (R459): round(160 · log₁₀(E / (N · 2⁴⁶))), with E in units of 2⁻⁶⁰: each square is kept
at the scale of gain code 9. -/
def noisePower (e n : Nat) : Int :=
  let num := e ^ 320
  let den := (n * 2 ^ 60) ^ 320
  let ge := fun (p : Int) => if 0 ≤ 2 * p - 1 then decide (10 ^ (2 * p - 1).toNat * den ≤ num) else decide (den ≤ num * 10 ^ (1 - 2 * p).toNat)
  let lo : Int := -32767
  (List.range 16).foldl (fun (a : Int) i => if a + 2 ^ (15 - i) ≤ 32767 && ge (a + 2 ^ (15 - i)) then a + 2 ^ (15 - i) else a) lo

/-- The noise record of a frame (R459, Table 15.10). -/
def State.noiseRecord (s : State) (c k : Nat) : State :=
  let v := s.car c
  let fr := k / v.perFrame
  let par := fr % 2
  let pw := (List.range v.ul).map (fun st =>
    let n := Tab.get 0 v.idleN (16 * par + st)
    if n = 0 then (-32768 : Int) else noisePower (Tab.get 0 v.idleE (16 * par + st)) n)
  let cnts := (List.range v.ul).map (fun st => Tab.get 0 v.idleN (16 * par + st))
  let pad := fun (n : Nat) (b : Bytes) => slice b 0 n
  let rec_ := toLe 2 (fr % 1024) ++ toLe 1 v.ul ++ toLe 5 0 ++ pad 32 (pw.flatMap (fun p => toLe 2 (ofInt 16 p)))
    ++ pad 64 (cnts.flatMap (fun n => toLe 4 n)) ++ toLe 24 0
  let s := s.writeMem v.mould (v.fld 0x58 8 + 64 + 128 * par) rec_
  let lo := pw.foldl min 32767
  let hi := pw.foldl max (-32768)
  let s := ((s.wr F.radioNf_low (ofInt 16 lo) c).wr F.radioNf_high (ofInt 16 hi) c).wr F.radioNf_sfn (fr % 1024) c
  let keep := fun (t : Tab Nat) => t.filter (fun e => e.1 / 16 ≠ par)
  s.setCar c { v with idleE := keep v.idleE, idleN := keep v.idleN }

/-- The gain decision at the close of slot k (R457). -/
def State.decideGain (s : State) (c k : Nat) : State :=
  let v := s.car c
  if !v.flag 2 then s
  else
    (List.range v.ul).foldl (fun (u : State) st =>
      let v := u.car c
      let sk := 16 * (k % 2) + st
      let e := Tab.get 0 v.sumE sk
      let n := Tab.get 0 v.sumN sk
      let code := (((v.gainNext.filter (fun g => g.2.1 = st)).getLast?).map (·.2.2)).getD (Tab.get 0 v.gain st)
      let next := fun (x : Nat) => if x = code then v.gainNext else v.gainNext ++ [(k + 2, st, x)]
      if n = 0 then u
      else if n * 2 ^ 46 ≤ 64 * e || v.satd.contains sk then
        u.setCar c { v with gainNext := next (code - 1), weak := Tab.set 0 v.weak st 0 }
      else if 1024 * e < n * 2 ^ 46 then
        let w := Tab.get 0 v.weak st + 1
        if 4 ≤ w then u.setCar c { v with gainNext := next (min 9 (code + 1)), weak := Tab.set 0 v.weak st 0 }
        else u.setCar c { v with weak := Tab.set 0 v.weak st w }
      else u.setCar c { v with weak := Tab.set 0 v.weak st 0 }) s

/-- RX_WINDOW_CLOSE (R444, R445, R457, R459): the window of a carrier's next symbol has closed. -/
def execRxWindowClose (dt c : Nat) (s : State) : Out := s.whenLive fun s =>
  let s := s.pass dt
  let v := s.car c
  let k := v.closed / 14
  let n := v.closed % 14
  if 128 ≤ c || !s.flag F.radioCar_bound c || s.now96 < v.t96 k n + 96 * v.fld 0x28 4 then s
  else
    let rx := (List.range v.ul).map (fun st => v.prbRx k n st)
    let miss := sumNat ((List.range v.ul).map (fun st => if rx.getD st 0 < v.nPrb then 2 ^ st else 0))
    let pmiss := sumNat ((List.range v.prach).map (fun p => if (Tab.get [] v.landed (32 * symKey k n + 16 + p)).isEmpty then 2 ^ p else 0))
    let s := ((s.landSamples c k n).zeroMissing c k n).cnt F.fhRx2_missing c 0 (popCount 16 miss)
    let v := s.car c
    let flags := ofBool (s.flag F.radioCar_muted c) + 2 * ofBool (s.rd F.timeStatus_state ≠ 2) + 4 * Tab.get 0 v.gainDiff (k % 2)
    let rec_ := toLe 4 (k / v.perFrame % 1024 + k % v.perFrame * 2 ^ 16) ++ toLe 1 n ++ toLe 1 flags ++ toLe 2 0 ++ toLe 2 miss ++ toLe 1 pmiss
      ++ toLe 5 0 ++ slice (rx.flatMap (fun x => toLe 2 x)) 0 32
      ++ toLe 8 (sumNat ((List.range v.ul).map (fun st => v.code k st * 16 ^ st))) ++ toLe 8 0
    let s := s.writeMem v.mould (v.fld 0x50 8 + 64 * symKey k n) rec_
    let s := match s.tokenCluster v.mould (v.fld 0x50 8) with
      | some cl => s.post cl v.mould v.ctx (v.fld 0x38 1) 1
      | none => s
    let s := s.setCar c { s.car c with closed := v.closed + 1 }
    if n ≠ 13 then s
    else
      let s := s.decideGain c k
      if k % v.perFrame + 1 = v.perFrame then s.noiseRecord c k else s

end Sys2Proof.Machine
end

