-- ==== Sys2Proof/Machine/RadioTx.lean ====
section
/-! DEFINITION. Sys2Proof/Machine/RadioTx.lean: the transmit path of a carrier (R448 to R450, R453 to R455), muting (R465), and the jobs
of decoders, encoders and transform engines (R460 to R464). -/
namespace Sys2Proof.Machine

/-- An Ethernet frame of a carrier: the radio unit's address, the own one, a VLAN tag where enabled, an EtherType. -/
def CarrierSt.ether (v : CarrierSt) (ty : Nat) (pay : Bytes) : Bytes :=
  slice v.desc 0x12 6 ++ toBe 6 (Config.accessMac v.sub) ++ (if v.flag 1 then toBe 2 0x8100 ++ toBe 2 (v.fld 0x10 2) else [])
    ++ toBe 2 ty ++ pay

/-- A frame of a carrier enters an access queue, or is dropped and counted for want of room (R386); a muted carrier sends none. -/
def State.sendCar (s : State) (c off ty until_ : Nat) (pay : Bytes) : State :=
  let v := s.car c
  let q := queueNo (0x10 + v.ap) (v.fld off 2)
  let f := v.ether ty pay
  if s.flag F.radioCar_muted c then s
  else if s.hasRoom q (f.length + 4) then s.enqueue q ⟨f, f.length + 4, 12, v.mould, false, c + 1, until_⟩
  else
    let s := s.cnt F.egrQstat_drops q
    if s.egr.logged.contains (0x10 + v.ap) then s
    else { s with egr := { s.egr with logged := (0x10 + v.ap) :: s.egr.logged } }.logWith 0x1305 0x0070 v.mould q

/-- The next ecpriSeqId of a stream and message type (Table 15.4). -/
def State.nextDl (s : State) (c key : Nat) : Nat × State :=
  let v := s.car c
  let n := Tab.get 0 v.seqDl key
  (n, s.setCar c { v with seqDl := Tab.set 0 v.seqDl key ((n + 1) % 65536) })

/-- Entry i of the C-plane ring: its release time and message. -/
def State.cpEntry (s : State) (c i : Nat) : Nat × Nat × Bytes :=
  let v := s.car c
  let a := v.fld 0x60 8 + i % v.fld 0x3A 2 * 2048
  let e := s.readMem v.mould a 2048
  (leAt e 0 8, leAt e 8 2, (e.drop 16).take (leAt e 8 2))

/-- The tail has passed an entry (R448): it waits for its release, or is dropped as late or bad. -/
def State.takeCp (s : State) (c i : Nat) : State :=
  let v := s.car c
  let (rel, n, msg) := s.cpEntry c i
  let s := s.wr F.radioCpring_head (i + 1) c
  if rel < s.clk.ns then s.cnt F.fhRx2_txLate c
  else if n < 8 || 2000 < n || beAt msg 1 1 ≠ 2 || beAt msg 4 2 &&& v.fld 0x1A 2 ≠ v.fld 0x18 2 then s.cnt F.fhRx2_txBad c
  else s.setCar c { v with cp := v.cp ++ [(rel, msg)] }

/-- A write of RADIO_CPRING.tail (R448): by the management controller or the carrier's mould; any other is ignored and logged. -/
def State.writeCpTail (s : State) (req c value : Nat) : State :=
  let v := s.car c
  let ok := req = 0 || (s.flag F.radioCar_bound c && 2 ≤ req && (req - 2) % 64 = v.mould)
  if !ok then s.csrLog 0x0001 (regAddr .radioCpring c 0) true req value
  else
    let tail := bitsOf value 16 16
    let head := s.rd F.radioCpring_head c
    let s := s.wr F.radioCpring_tail tail c
    if !s.flag F.radioCar_bound c then s
    else (List.range ((tail + 65536 - head) % 65536)).foldl (fun (u : State) k => u.takeCp c ((head + k) % 65536)) s

/-- CPRING_TAIL_WRITE (R448). -/
def execCpringTailWrite (req c value : Nat) (s : State) : Out := s.whenLive fun s => if 128 ≤ c then s else s.writeCpTail req c value

/-- CPLANE_RELEASE (R448): network time has reached the release of a carrier's next message. -/
def execCplaneRelease (dt c : Nat) (s : State) : Out := s.whenLive fun s =>
  let s := s.pass dt
  let v := s.car c
  match v.cp with
  | [] => s
  | (rel, msg) :: r =>
    if 128 ≤ c || s.clk.ns < rel then s
    else
      let s := s.setCar c { v with cp := r }
      let (q, s) := s.nextDl c (2 * (beAt msg 4 2 % 2 ^ v.fld 0x1C 1) + 1)
      let m := msg.take 2 ++ toBe 2 (msg.length - 4) ++ slice msg 4 2 ++ toBe 1 (q % 256) ++ toBe 1 0x80 ++ msg.drop 8
      s.sendCar c 0x34 0xAEFE 0 m

/-- The DL control word of slot k as it was read. -/
def CarrierSt.dlWordOf (v : CarrierSt) (k : Nat) : Nat := Tab.get 0 v.dlWord (k % 2)

/-- Bytes of a DL symbol of one stream. -/
def CarrierSt.dlLen (v : CarrierSt) : Nat := v.nPrb * 72

/-- DL_SYMBOL_READ (R449): symbol n of slot k is read within its interval; with symbol 0, the slot's control word. -/
def execDlSymbolRead (dt c k n : Nat) (s : State) : Out := s.whenLive fun s =>
  let s := s.pass dt
  let v := s.car c
  let t := v.t96 k n
  if 128 ≤ c || 14 ≤ n || !s.flag F.radioCar_bound c || s.now96 + 96 * (v.fld 0x30 4 + 10000) < t || t ≤ s.now96 + 96 * v.fld 0x30 4 then s
  else
    let v := if n = 0 then
        { v with dlWord := Tab.set 0 v.dlWord (k % 2) (leNat (s.readMem v.mould (v.fld 0x50 8 + 1792 + 8 * (k % 2)) 8)) } else v
    let w := v.dlWordOf k
    let read := (bitList v.dls (bitsOf w 16 16)).map (fun st =>
      (st, s.readMem v.mould (v.fld 0x48 8 + symKey k n * (v.dls * v.dlLen) + st * v.dlLen) v.dlLen))
    s.setCar c { v with dl := if bit w n then Tab.set [] v.dl (14 * k + n) read else v.dl }

/-- The 16-bit values of a DL symbol's stream (R450): re and im in turn. -/
def dlValues (d : Bytes) : List Int := (List.range (d.length / 3)).map (fun i => satInt 16 (roundShift (sext 24 (leAt d (3 * i) 3)) 8 0))

/-- A value fits w bits. -/
def fitsIn (w : Nat) (x : Int) : Bool := decide (satInt w x = x)

/-- The BFP exponent and mantissas of a PRB (R450). -/
def bfpOf (w : Nat) (vals : List Int) : Nat × List Int :=
  let sc := fun (e : Nat) => vals.map (fun x => roundShift x e 0)
  let e := ((List.range (17 - w)).find? (fun e => (sc e).all (fitsIn w))).getD (16 - w)
  (e, (sc e).map (satInt w))

/-- Values of w bits packed most significant bit first. -/
def packIq (w : Nat) (vals : List Int) : Bytes :=
  toBe (cdiv (w * vals.length) 8) (vals.foldl (fun a x => a * 2 ^ w + ofInt w x) 0)

/-- A PRB as it is sent: uncompressed, or with its exponent and mantissas. -/
def prbBytes (w : Nat) (vals : List Int) : Bytes :=
  if w = 16 then packIq 16 vals
  else
    let (e, m) := bfpOf w vals
    toBe 1 e ++ packIq w m

/-- PRBs a U-plane frame of the carrier carries at most (R450). -/
def CarrierSt.prbMax (v : CarrierSt) : Nat :=
  let per := 3 * v.iqw + ofBool (v.iqw ≠ 16)
  let room := (v.fld 0x3C 2 - 12 - (if v.flag 0 then 0 else 2)) / per
  if v.nPrb ≤ room then v.nPrb else max 1 (min room 255)

/-- A U-plane message of a stream from PRB `start` on (Table 15.4). -/
def CarrierSt.uplane (v : CarrierSt) (seq k n st start : Nat) (prbs : List Bytes) : Bytes :=
  let sub := k % v.perFrame
  let cnt := if prbs.length = v.nPrb then 0 else prbs.length
  let body := toBe 2 (v.fld 0x18 2 + st) ++ toBe 1 (seq % 256) ++ toBe 1 0x80 ++ toBe 1 0x90 ++ toBe 1 (k / v.perFrame % 256)
    ++ toBe 2 (sub / v.perSub * 4096 + sub % v.perSub * 64 + n) ++ toBe 4 (start * 256 + cnt % 256)
    ++ (if v.flag 0 then [] else toBe 1 (v.iqw % 16 * 16 + ofBool (v.iqw ≠ 16)) ++ toBe 1 0) ++ prbs.flatMap id
  toBe 1 0x10 ++ toBe 1 0 ++ toBe 2 body.length ++ body

/-- The samples of a DL symbol: inverse transform, then its cyclic prefix in front (R453). -/
def dlSamples (v : CarrierSt) (k n : Nat) (d : Bytes) : List (Int × Int) :=
  let vals := dlValues d
  let bins := (List.range v.fft).map (fun b =>
    let sc := (b + 6 * v.nPrb) % v.fft
    if sc < 12 * v.nPrb then (vals.getD (2 * sc) 0, vals.getD (2 * sc + 1) 0) else ((0 : Int), (0 : Int)))
  let xs := (List.range v.fft).map (fun i =>
    let (re, im) := dftBin true bins v.fft i
    (satInt 16 (fxRound re (halfLog v.fft)), satInt 16 (fxRound im (halfLog v.fft))))
  xs.drop (v.fft - v.cpLen k n) ++ xs

/-- Ramp length of a carrier in samples. -/
def CarrierSt.ramp (v : CarrierSt) : Nat := if v.fld 0x1E 1 = 0 then 0 else 8 * 2 ^ v.fld 0x1E 1

/-- The ramp length beside a gap of g samples (R455). -/
def rampIn (len g : Nat) : Nat := if g < 2 * len then g / 2 else len

/-- Ramp weight w[k] of length L, in 24-bit units of 2⁻²³ (R454): sin²(π(k + 0.5) / (2L)) = (1 - cos(2π(2k + 1) / (4L))) / 2. -/
def rampWeight (len k : Nat) : Int := fxRound ((fxOne - (fxTrig (2 * k + 1) (4 * len)).1) * 2 ^ 22) 0

/-- A sample under a weight, rounded under R415 with rnd 0. -/
def weighted (w : Int) (p : Int × Int) : Int × Int := (satInt 16 (roundShift (w * p.1) 23 0), satInt 16 (roundShift (w * p.2) 23 0))

/-- The ramp before a run: the L samples that continue the symbol's periodic signal backwards (R454). -/
def rampUp (v : CarrierSt) (k n len : Nat) (xs : List (Int × Int)) : List (Int × Int) :=
  let body := xs.drop (v.cpLen k n)
  (List.range len).map (fun j => weighted (rampWeight len j) (body.getD ((v.fft - v.cpLen k n + v.fft - len + j) % v.fft) (0, 0)))

/-- The ramp after a run: the L samples that continue the symbol's periodic signal forwards (R454). -/
def rampDown (v : CarrierSt) (k n len : Nat) (xs : List (Int × Int)) : List (Int × Int) :=
  let body := xs.drop (v.cpLen k n)
  (List.range len).map (fun j => weighted (rampWeight len (len - 1 - j)) (body.getD (j % v.fft) (0, 0)))

/-- Time-domain DL frames of samples from index `first` of the radio frame on (Table 15.7). -/
def State.sendSamples (s : State) (c k st first until_ : Nat) (sym : Bool) (xs : List (Int × Int)) : State :=
  let v := s.car c
  let per := v.fld 0x3C 2 / 4
  (List.range (cdiv xs.length per)).foldl (fun (u : State) i =>
    let part := (xs.drop (per * i)).take per
    let (q, u) := u.nextDl c (2 * st)
    let at_ := (first + per * i) % (150 * v.fft * v.perSub)
    let pay := toBe 1 1 ++ toBe 1 2 ++ toBe 1 st ++ toBe 1 (ofBool (sym && i = 0)) ++ toBe 2 q ++ toBe 2 part.length
      ++ toBe 2 (k / v.perFrame % 1024) ++ toBe 2 0 ++ toBe 4 at_ ++ part.flatMap (fun p => toBe 2 (ofInt 16 p.1) ++ toBe 2 (ofInt 16 p.2))
    u.sendCar c 0x36 0x88B5 until_ pay) s

/-- The DL symbol before symbol n of slot k. -/
def prevSym (k n : Nat) : Nat := 14 * k + n - 1

/-- The symbol's frames in time-domain mode, with the ramp before the run it begins and the ramp after the run that ended before it. -/
def State.queueTd (s : State) (c k n until_ : Nat) : State :=
  let v := s.car c
  let cur := Tab.get [] v.dl (14 * k + n)
  let old := Tab.get [] v.dl (prevSym k n)
  let pk := prevSym k n / 14
  let pn := prevSym k n % 14
  let first := v.symSample k n
  let s := if cur.isEmpty then
      let len := rampIn v.ramp (v.fft + v.cpLen k n)
      if len = 0 then s
      else old.foldl (fun (u : State) e => u.sendSamples c k e.1 first until_ false (rampDown v pk pn len (dlSamples v pk pn e.2))) s
    else s
  cur.foldl (fun (u : State) e =>
    let xs := dlSamples v k n e.2
    let len := if old.isEmpty then rampIn v.ramp (v.fft + v.cpLen pk pn) else 0
    let u := if len = 0 then u
      else u.sendSamples c k e.1 (first + 150 * v.fft * v.perSub - len) until_ false (rampUp v k n len xs)
    u.sendSamples c k e.1 first until_ true xs) s

/-- The symbol's U-plane frames in split 7.2x (R450). -/
def State.queueFd (s : State) (c k n until_ : Nat) : State :=
  let v := s.car c
  (Tab.get [] v.dl (14 * k + n)).foldl (fun (u : State) e =>
    let prbs := (chunks 24 (dlValues e.2)).map (prbBytes v.iqw)
    let per := v.prbMax
    (List.range (cdiv prbs.length per)).foldl (fun (w : State) i =>
      let (q, w) := w.nextDl c (2 * e.1)
      w.sendCar c 0x36 0xAEFE until_ (v.uplane q k n e.1 (per * i) ((prbs.drop (per * i)).take per))) u) s

/-- DL_FRAME_QUEUE (R449, R450, R453 to R455): at T_sym(n) - t1a_max_ns the symbol's frames enter up_queue. -/
def execDlFrameQueue (dt c k n : Nat) (s : State) : Out := s.whenLive fun s =>
  let s := s.pass dt
  let v := s.car c
  let t := v.t96 k n
  let until_ := (t - 96 * v.fld 0x2C 4) / 96
  if 128 ≤ c || 14 ≤ n || !s.flag F.radioCar_bound c || s.now96 + 96 * v.fld 0x30 4 < t || t ≤ s.now96 + 96 * v.fld 0x2C 4 then s
  else
    let s := if v.split = 2 then s.queueTd c k n until_ else s.queueFd c k n until_
    let v := s.car c
    s.setCar c { v with dl := v.dl.filter (fun e => 14 * k + n < e.1 + 1 && (v.split = 2 || e.1 ≠ 14 * k + n)) }

/-- DL_FRAME_EXPIRY (R449): frames of a carrier that have not started by the end of their window are removed. -/
def execDlFrameExpiry (dt c : Nat) (s : State) : Out := s.whenLive fun s =>
  let s := s.pass dt
  if 128 ≤ c then s
  else
    let (n, s) := s.dropCarFrames c (fun f => f.until_ ≠ 0 && f.until_ ≤ s.clk.ns)
    s.cnt F.fhRx2_txLate c 0 n

/-- A carrier must be muted now (R465). -/
def State.mustMute (s : State) (c : Nat) : Bool :=
  let v := s.car c
  let h := v.fld 0x1F 1
  let st := s.rd F.timeStatus_state
  (st == 0 && !v.flag 3)
    || ((st == 1 || st == 3) && s.tim.holdAt != 0 && h != 255 && decide (s.tim.holdAt + h * 1000000000 ≤ s.clk.up + 1))

/-- CARRIER_MUTE (R465). -/
def execCarrierMute (dt c : Nat) (s : State) : Out := s.whenLive fun s =>
  let s := s.pass dt
  if 128 ≤ c || !s.flag F.radioCar_bound c || s.flag F.radioCar_muted c || !s.mustMute c then s
  else
    let (n, s) := s.dropCarFrames c (fun _ => true)
    let s := ((s.cnt F.fhRx2_txLate c 0 n).wr F.radioCar_muted 1 c).cnt F.radioCar_mutes c
    s.logWith 0x1501 (0x0050 + (s.car c).ap) (s.car c).mould c

/-- CARRIER_UNMUTE (R465): the first radio-frame start after LOCKED, or after a write of src 0 where the carrier allows FREERUN. -/
def execCarrierUnmute (dt c : Nat) (s : State) : Out := s.whenLive fun s =>
  let s := s.pass dt
  let v := s.car c
  let st := s.rd F.timeStatus_state
  let next := s.tim.lockNs + (10000000 - (s.tim.lockNs + 10000000 - v.off) % 10000000)
  if 128 ≤ c || !s.flag F.radioCar_bound c || !s.flag F.radioCar_muted c || !(st = 2 || (st = 0 && v.flag 3)) || s.clk.ns < next then s
  else (s.wr F.radioCar_muted 0 c).logWith 0x1502 (0x0050 + v.ap) v.mould c

/-- Source code of unit u (Table 1.1). -/
def srcUnit (u : Nat) : Nat := 0x0060 + u

/-- A job's fields (Tables 15.12, 15.13). -/
def JobRec.p (j : JobRec) (off n : Nat) : Nat := leAt j.desc off n

/-- Ncb of a coding job. -/
def jobNcb (j : JobRec) : Nat := (if bit (j.p 0x20 4) 0 then 50 else 66) * bitsOf (j.p 0x20 4) 1 9

/-- N is 2^a · 3^b · 5^c within [12, 4096]. -/
def dftSize (n : Nat) : Bool :=
  12 ≤ n && n ≤ 4096
    && (List.range 13).any (fun a => (List.range 8).any (fun b => (List.range 6).any (fun c => n == 2 ^ a * 3 ^ b * 5 ^ c)))

/-- Bytes a job takes, writes, and keeps as its HARQ buffer. -/
def jobBytes (j : JobRec) : Nat × Nat × Nat :=
  let op := j.p 0 1
  let p0 := j.p 0x20 4
  let e := j.p 0x28 4
  let k := if op = 1 ∨ op = 0x11 then bitsOf p0 10 14 else bitsOf p0 11 10
  if op = 1 then (e, cdiv k 8, jobNcb j) else if op = 2 then (e, cdiv k 8, 0)
  else if op = 0x11 ∨ op = 0x12 then (cdiv k 8, cdiv e 8, 0)
  else let n := j.p 0x24 4 * bitsOf p0 0 13 * 6; (n, n, 0)

/-- E_JOB_FORMAT of R463: a field outside Table 15.13, or a range too small. -/
def jobFormatOk (j : JobRec) : Bool :=
  let op := j.p 0 1
  let fl := j.p 2 2
  let p0 := j.p 0x20 4
  let p1 := j.p 0x24 4
  let e := j.p 0x28 4
  let (i, o, h) := jobBytes j
  let ldpc := op == 1 || op == 0x11
  let polar := op == 2 || op == 0x12
  let clsOk := if op = 1 ∨ op = 2 then j.cls == 0 && j.p 1 1 < 2 else if op = 0x11 ∨ op = 0x12 then j.cls == 1 && j.p 1 1 == 0
    else op == 0x21 && j.cls == 2 && j.p 1 1 == 0
  clsOk && decide (fl < 16) && decide (j.p 4 1 < 32) && allZero (slice j.desc 5 3)
    && (!ldpc || (p0 < 2 ^ 24 && 2 ≤ bitsOf p0 1 9 && 1 ≤ bitsOf p0 10 14 && p1 < 2 ^ 29 && 1 ≤ e && j.p 0x2C 4 == 0
      && (if op = 1 then 1 ≤ bitsOf p1 22 5 else bitsOf p1 22 5 == 0)))
    && (!polar || (p0 < 2 ^ 24 && (List.range 6).any (fun a => bitsOf p0 0 11 == 2 ^ (a + 5)) && 1 ≤ bitsOf p0 11 10
      && bitsOf p0 11 10 ≤ bitsOf p0 0 11 && p1 == 0 && 1 ≤ e && j.p 0x2C 4 == 0))
    && (op != 0x21 || (p0 < 2 ^ 21 && dftSize (bitsOf p0 0 13) && decide (-23 ≤ sext 6 (bitsOf p0 14 6) ∧ sext 6 (bitsOf p0 14 6) ≤ 23)
      && 1 ≤ p1 && p1 ≤ 256 && e == 0 && j.p 0x2C 4 == 0))
    && decide (i ≤ j.p 0xC 4) && decide (o ≤ j.p 0x14 4) && (fl % 4 == 0 || decide (h ≤ j.p 0x1C 4))

/-- A range of cluster SRAM lies in banks that the job's mould claims there, none of them a loan bank (R463). -/
def State.jobRange (s : State) (j : JobRec) (o n : Nat) : Bool :=
  n == 0 || (o + n ≤ 2 ^ 24 && (s.mould j.mould).claimed.contains j.cluster
    && !(s.offers j.mould).any (fun f => f.cluster = j.cluster && f.bank * 262144 < o + n && o < (f.bank + f.banks) * 262144))

/-- UNIT_JOB_START (R462, R463): unit u takes the next descriptor of its queue and checks it; `ecc` and `word` are what the SRAM reports
for its input. -/
def execUnitJobStart (u ecc word : Nat) (s : State) : Out := s.whenLive fun s =>
  let q := s.unit u
  match q.queue with
  | [] => s
  | j :: r =>
    if 16 ≤ u || q.busy.isSome then s
    else
      let (i, o, h) := jobBytes j
      let harq := j.p 2 2 % 4 ≠ 0
      let ok := s.jobRange j (j.p 8 4) i && s.jobRange j (j.p 0x10 4) o && (!harq || s.jobRange j (j.p 0x18 4) h)
      let (code, s) := if !jobFormatOk j then (E.jobFormat, s) else if !ok then (E.jobBounds, s)
        else
          let s := s.sramEcc j.cluster ecc word
          (if ecc = 2 then E.memSramUe else 0, s)
      (s.setUnit u { queue := r, busy := some (j, code) }).wr F.radioUnit_state 2 u

/-- A transform job's output (Table 15.13): each vector's DFT or inverse, rounded under R415. -/
def dftOut (j : JobRec) (inp : Bytes) : Bytes :=
  let p0 := j.p 0x20 4
  let n := bitsOf p0 0 13
  let sh := sext 6 (bitsOf p0 14 6)
  (List.range (j.p 0x24 4)).flatMap fun v =>
    let xs := (List.range n).map (fun i => (sext 24 (leAt inp (6 * (v * n + i)) 3), sext 24 (leAt inp (6 * (v * n + i) + 3) 3)))
    (List.range n).flatMap fun b =>
      let (re, im) := dftBin (bit p0 13) xs n b
      let r := fun (x : Int) => toLe 3 (sat24 (roundShift (x * (2 ^ 23 : Nat)) (fxBits + (23 - sh).toNat) (bitsOf p0 20 1))).1
      r re ++ r im

/-- Beats of a job (Table 15.13): an LDPC decode that stops early takes those of the iterations it ran. -/
def jobBeats (j : JobRec) (iters : Nat) : Nat :=
  let op := j.p 0 1
  let p0 := j.p 0x20 4
  let e := j.p 0x28 4
  let n := bitsOf p0 0 11
  if op = 1 then 128 + iters * cdiv (bitsOf p0 10 14 + min e (jobNcb j)) 64
  else if op = 2 then 64 + cdiv (n * Nat.log2 n) 16
  else if op = 0x11 then 64 + cdiv (bitsOf p0 10 14 + e) 256
  else if op = 0x12 then 32 + cdiv n 32
  else
    let n := bitsOf p0 0 13
    j.p 0x24 4 * (32 + (if n = 2 ^ Nat.log2 n then cdiv n 4 else cdiv n 2))

/-- The output, HARQ buffer, iterations and crc_ok of a job that passed its checks. -/
def State.jobResult (s : State) (j : JobRec) : Bytes × Bytes × Nat × Nat :=
  let op := j.p 0 1
  let (i, o, h) := jobBytes j
  let inp := s.sramBytes j.cluster (j.p 8 4) i
  if op = 0x21 then (dftOut j inp, [], 0, 0xFF)
  else
    let harq := if bit (j.p 2 2) 0 then s.sramBytes j.cluster (j.p 0x18 4) h else []
    let out := Config.coded op (j.p 0x20 4) (j.p 0x24 4) (j.p 0x28 4) (j.p 2 2) inp harq
    let hb := Config.codedHarq op (j.p 0x20 4) (j.p 0x24 4) (j.p 0x28 4) (j.p 2 2) inp harq
    let it := Config.codedIters op (j.p 0x20 4) (j.p 0x24 4) (j.p 0x28 4) (j.p 2 2) inp harq
    let ok := Config.codedCrc op (j.p 0x20 4) (j.p 0x24 4) (j.p 0x28 4) (j.p 2 2) inp harq
    let crc := if op = 1 then bitsOf (j.p 0x24 4) 27 2 else bitsOf (j.p 0x20 4) 21 2
    let most := bitsOf (j.p 0x24 4) 22 5
    let it := if op ≠ 1 then 0 else if bit (j.p 2 2) 3 then 1 + it % most else most
    (slice out 0 o, slice hb 0 h, it, if op = 0x11 ∨ op = 0x12 ∨ crc = 0 then 0xFF else ofBool ok)

/-- JOB_COMPLETE (R268, R464): unit u completes the job it runs. -/
def execJobComplete (u : Nat) (s : State) : Out := s.whenLive fun s =>
  let q := s.unit u
  match q.busy with
  | none => s
  | some (j, code) =>
    let slag := s.isSlag j.mould j.ctx j.heat j.quenches
    let s := ((s.setUnit u { q with busy := none }).wr F.radioUnit_state (if s.rd F.radioUnit_state u = 0 then 0 else 1) u).inc F.radioUnit_jobs u
    if slag then s.countSlag j.mould
    else
      let (out, hb, it, crc) := s.jobResult j
      let done_ := code = 0
      let s := if done_ then (s.setSram j.cluster (j.p 0x10 4) out).bumpSram j.mould j.cluster (j.p 0x10 4) out.length else s
      let s := if done_ && bit (j.p 2 2) 1 then (s.setSram j.cluster (j.p 0x18 4) hb).bumpSram j.mould j.cluster (j.p 0x18 4) hb.length else s
      let st := if done_ then toLe 2 0 ++ toLe 1 it ++ toLe 1 crc ++ toLe 4 out.length ++ toLe 4 (jobBeats j it)
        else toLe 2 code ++ toLe 1 0 ++ toLe 1 0xFF ++ toLe 4 0 ++ toLe 4 0
      let s := s.setSram j.cluster (j.sa + 0x30) st
      let g := s.seng j.cluster j.eng
      let s := if (s.stream j.cluster g.stream).run = j.run then
          s.setSeng j.cluster j.eng { g with flags := setBit g.flags j.j false } else s
      let s := if bit (j.p 2 2) 2 then s.post j.cluster j.mould j.ctx (j.p 4 1) 1 else s
      if done_ then s else (s.wr F.radioUnit_lastFail code u).logWith 0x1505 (srcUnit u) j.mould code

end Sys2Proof.Machine
end

