-- ==== Sys2Proof/Machine/CsrMap.lean ====
section
/-! DEFINITION. Sys2Proof/Machine/CsrMap.lean: which register an address names, and what a block reset does to a stored register
(R13, R589). -/
namespace Sys2Proof.Machine

/-- The indices (i, j) at which a register array holds the address, if any. -/
def RegShape.indexOf (r : RegShape) (addr : Nat) : Option (Nat × Nat) :=
  if addr < r.base then none
  else
    let d := addr - r.base
    let i := if r.ostride = 0 then 0 else min (d / r.ostride) (r.ocount - 1)
    let e := d - r.ostride * i
    let j := if r.istride = 0 then 0 else min (e / r.istride) (r.icount - 1)
    if e = r.istride * j then some (i, j) else none

/-- The register at an address with its indices. -/
def regAt (addr : Nat) : Option (RegName × Nat × Nat) :=
  RegName.all.findSome? (fun r => (r.shape.indexOf addr).map (fun p => (r, p.1, p.2)))

/-- A register's value after a reset that keeps its RWS fields. -/
def RegShape.keepRws (r : RegShape) (v : Nat) : Nat :=
  r.flds.foldl (fun n f => if f.acc = .rws then setBits n f.lo (f.hi + 1 - f.lo) (bitsOf v f.lo (f.hi + 1 - f.lo)) else n) r.resetVal

/-- The stored registers whose addresses satisfy p take their reset values, except RWS fields (R589). -/
def State.resetRegs (s : State) (p : Nat → Bool) : State :=
  { s with csr := s.csr.foldl (fun t e =>
      if !p e.1 then t
      else match regAt e.1 with
        | some (r, _, _) => Tab.set r.shape.resetVal t e.1 (r.shape.keepRws e.2)
        | none => t) s.csr }

end Sys2Proof.Machine
end

