-- ==== Sys2Proof/Machine/Moulds.lean ====
section
/-! DEFINITION. Sys2Proof/Machine/Moulds.lean: mould life (R244 to R250), context quench (R267), start requests (R253), loads and
unloads by command, audit runs and array self-tests. -/
namespace Sys2Proof.Machine

/-- READY, RUNNING or CHILLED. -/
def State.mouldLive (s : State) (m : Nat) : Bool := s.mstate m == 2 || s.mstate m == 3 || s.mstate m == 4

/-- A one-byte body that names a mould. -/
def mouldBody (b : Bytes) : Bool := b.length == 1 && leAt b 0 1 < 64

/-- MOULD_START (R245, R248). -/
def execMouldStart (s : State) : Out := s.takeCmd 0x0011 (fun _ => true) fun r s =>
  s.bodyOk r (mouldBody r.body) fun s =>
    let m := leAt r.body 0 1
    if s.mstate m ≠ 2 && s.mstate m ≠ 4 then s.answer r E.mouldState
    else
      let k := s.mould m
      let s := s.setMould m { k with
        chilling := false, tableAt := if s.isRadio m then some s.clk.ns else none, tableFrom := none, windows := [], slotDone := [],
        preWarmed := [] }
      (s.moveMould m 3 (s.heat m)).answer r 0

/-- MOULD_CHILL (R247): admission and slot-table starts stop. -/
def execMouldChill (s : State) : Out := s.takeCmd 0x0012 (fun _ => true) fun r s =>
  s.bodyOk r (mouldBody r.body) fun s =>
    let m := leAt r.body 0 1
    if s.mstate m ≠ 3 || (s.mould m).auditing then s.answer r E.mouldState
    else (s.setMould m { s.mould m with chilling := true }).answer r 0

/-- A chill has drained (R247): no segment of the mould runs, none of a borrower on its clusters, no MOV waits in its ladle queues. -/
def State.chillDrained (s : State) (m : Nat) : Bool :=
  s.runs.all (fun p => p.2.2.1 != m && s.claimer p.1 != some m)
    && s.clus.all (fun e => e.2.ladle.all (fun q => q.1 / 16 != m || q.2.isEmpty))

/-- MOULD_CHILLED (R247). -/
def execMouldChilled (m : Nat) (s : State) : Out := s.whenLive fun s =>
  if s.mstate m = 3 && (s.mould m).chilling && s.chillDrained m then
    (s.setMould m { s.mould m with chilling := false, tableAt := none, tableFrom := none }).moveMould m 4 (s.heat m)
  else s

/-- Clusters on which mould m binds a loan offer. -/
def State.loanClusters (s : State) (m : Nat) : List Nat := (((s.mould m).bound.filterMap (fun p => (s.offer p.1 p.2).map (·.cluster)))).eraseDups

/-- Bytes of the tables that step 5 of a quench releases: REGIONS, GROUPS, SLOT_TABLE, LOAN_OFFERS (R67, Table 9.2). -/
def State.releaseBytes (s : State) (m : Nat) : Nat :=
  sumNat ([0x33, 0x34, 0x35, 0x36].map (fun t => (s.mouldSec m t).length))

/-- Mould m enters QUENCHING with its heat one higher (Table 9.2 step 2); an admission, a start or a chill stops with it. -/
def State.enterQuench (s : State) (m : Nat) : State :=
  let h := s.heat m
  let k := s.mould m
  ((s.setMould m { k with chilling := false, quenches := k.quenches + 1, tableAt := none, tableFrom := none }).raiseHeat m).moveMould m 5 h

/-- The body of a quench operation of mould m that ends in a state with a code. -/
def State.quenchBody (s : State) (m tables endState endCode : Nat) : OpBody :=
  .quench m ((s.mould m).claimed ++ (s.loanClusters m).filter (fun c => !(s.mould m).claimed.contains c)) 0 tables endState endCode

/-- The operation that quenches mould m or tears down its pour. -/
def State.quenchOp (s : State) (m : Nat) : Option Nat :=
  (s.mgmt.ops.find? (fun e => e.2.state = 1 && (match e.2.body with | .quench n _ _ _ _ _ => n = m | _ => false))).map (·.1)

/-- The pour operation in progress that names mould m. -/
def State.pourOp (s : State) (m : Nat) : Option Nat :=
  (s.mgmt.ops.find? (fun e => e.2.state = 1 && (match e.2.body with | .pour p => !p.base && p.mould = m | _ => false))).map (·.1)

/-- A pour stops (R69, R71): before phase C its operation ends; after it the mould returns through QUENCHING under the pour's handle. -/
def State.stopPour (s : State) (i state code : Nat) : State :=
  match (s.op i).body with
  | .pour p =>
    if p.poured then
      let s := s.enterQuench p.mould
      s.setOp i { s.op i with body := s.quenchBody p.mould 1 state code }
    else s.endOp i state code
  | _ => s

/-- A quench of mould m is begun under a new handle: the entry, if there is room for one. -/
def State.beginQuench (s : State) (cmd m : Nat) : Option (Nat × State) :=
  let tables := cdiv (s.releaseBytes m) 65536 + 1
  let body := s.quenchBody m tables 2 0
  let n := match body with | .quench _ todo _ _ _ _ => todo.length | _ => 0
  (s.newOp cmd 1 (2 + n + tables) body).map (fun p => (p.1, p.2.enterQuench m))

/-- Moulds that bind an offer of mould m (R72). -/
def State.borrowersOf (s : State) (m : Nat) : List Nat :=
  s.moulds.filterMap (fun e => if e.1 ≠ m && e.2.bound.any (fun p => p.1 = m) then some e.1 else none)

/-- A bound borrower is quenched first, or its pour is cancelled (R72). -/
def State.quenchBorrower (s : State) (b : Nat) : State :=
  if s.mouldLive b then ((s.beginQuench 0x0013 b).map (·.2)).getD s
  else match s.pourOp b with
    | some i => s.stopPour i 4 E.patCancelled
    | none => s

/-- MOULD_QUENCH (R245, R249, R72): the handle of the quench, or of the pour that it tears down. -/
def execMouldQuench (s : State) : Out := s.takeCmd 0x0013 (fun _ => true) fun r s =>
  s.bodyOk r (mouldBody r.body) fun s =>
    let m := leAt r.body 0 1
    match s.quenchOp m with
    | some i => s.answer r 0 (s.op i).handle
    | none =>
      match s.pourOp m with
      | some i =>
        let h := if s.mstate m = 1 then (s.op i).handle else 0
        (s.stopPour i 4 E.patCancelled).answer r 0 h
      | none =>
        if !s.mouldLive m then s.answer r E.mouldState
        else
          let bs := s.borrowersOf m
          if 64 < s.opsRunning + 1 + (bs.filter (fun b => s.mouldLive b)).length then s.answer r E.mgmtHandles
          else
            let s := bs.foldl (fun u b => u.quenchBorrower b) s
            match s.beginQuench r.code m with
            | some (i, t) => t.answer r 0 (t.op i).handle
            | none => s.answer r E.mgmtHandles

/-- Step 3 of a quench: segments, start queues, threads, cached lines and predictor entries of the mould (R195, R300, R472). -/
def State.quenchStop (s : State) (m : Nat) : State :=
  let s := (List.range 16).foldl (fun (u : State) x => ((u.stopCtx m x none).abandon m x).zeroTokens m x) s
  s.clus.foldl (fun (u : State) e =>
    let k := u.clu e.1
    u.setClu e.1 { k with
      icache := k.icache.filter (fun l => l.2.mould ≠ m), dcache := k.dcache.filter (fun l => l.2.mould ≠ m),
      predictor := k.predictor.filter (fun p => p.2 ≠ m + 1) }) s

/-- Step 4 on a cluster the mould claims: banks, list memory, arrays and tokens are zeroed, the cluster is in CHILL. -/
def State.quenchOwn (s : State) (c : Nat) : State :=
  let k := s.clu c
  let s := (s.setClu c { k with lists := [], queues := [], tokens := [], nextCtx := 0 }).zeroBanks c 0 64
  (List.range 4).foldl (fun (u : State) a =>
    (((u.clearArray c a).setArray c a ArraySt.init).setReg .arrCfg c a (RegShape.resetVal (RegName.arrCfg).shape)).wr F.arrStatus_power 0 c a) s

/-- Step 4 on a cluster where the mould binds an offer: the offer's banks, the mould's list pages and programs, and its tokens there. -/
def State.quenchLoan (s : State) (c m : Nat) : State :=
  let k := s.clu c
  let s := s.setClu c { k with
    lists := k.lists.filter (fun l => l.mould ≠ m), tokens := k.tokens.filter (fun p => p.1 / 512 ≠ m),
    se := k.se.map (fun e => (e.1, { e.2 with progs := e.2.progs.filter (fun p => p.mould ≠ m) })) }
  (s.boundOffers m c).foldl (fun (u : State) o => u.zeroBanks c o.bank o.banks) s

/-- A group is removed; a setup that still waits for it fails. -/
def State.freeGroup (s : State) (g : Nat) : State :=
  let s := match (s.grp g).setup with
    | some i => if (s.op i).state = 1 then s.endOp i 3 E.collAborted else s
    | none => s
  s.removeGroup g

/-- Step 5: queues, groups, carriers, hot-set entries, service endpoints and keys of the mould are released (R250, R295, R352, R436, R547). -/
def State.quenchRelease (s : State) (m : Nat) : State :=
  let s := (s.discardMould m)
  let s := s.groupIdx.foldl (fun (u : State) g => if u.rd F.collG_mould g = m then u.freeGroup g else u) s
  let s := (List.range 128).foldl (fun (u : State) c => if u.flag F.radioCar_bound c && (u.car c).mould = m then u.unbindCarrier c else u) s.flushAborts
  let s := { s with hot := s.hot.filter (fun e => e.mould ≠ m), svc := s.svc.filter (fun e => e.2.mould ≠ m),
                    vers := s.vers.filter (fun e => e.1 / 256 ≠ m), owners := s.owners.filter (fun e => e.1 / 256 ≠ m) }
  let k := s.mould m
  s.setMould m { k with pooled := false, pools := [], maxHot := 0, xtsGen := k.xtsGen + 1 }

/-- Step 6: the mould is EMPTY; its programs leave, and an offer it bound is unbound (R62, R229, R425). -/
def State.quenchEmpty (s : State) (m : Nat) : State :=
  let k := s.mould m
  let s := s.clus.foldl (fun (u : State) e =>
    let c := u.clu e.1
    u.setClu e.1 { c with
      lists := c.lists.filter (fun l => l.mould ≠ m)
      se := c.se.map (fun g => (g.1, { g.2 with progs := g.2.progs.filter (fun p => p.mould ≠ m) }))
      dcache := c.dcache.filter (fun l => l.2.mould ≠ m) }) s
  let s := s.setMould m { MouldSt.init with quenches := k.quenches, xtsGen := k.xtsGen }
  let s := (((s.setReg .arithHash m 0 0).setReg .reproKeyLo m 0 0).setReg .reproKeyHi m 0 0).wr F.mouldStatus_kind 0 m
  (s.wr F.mouldStatus_contextCount 0 m).moveMould m 0 (s.heat m)

/-- One step of a quench (Table 9.2): the state and whether it was the last. -/
def State.quenchStep (s : State) (i m : Nat) (todo : List Nat) (phase tables endState endCode : Nat) : State :=
  let count := fun (u : State) => if (u.op i).kind = 1 then u.setOp i { u.op i with done := (u.op i).done + 1 } else u
  let next := fun (u : State) (todo : List Nat) (phase : Nat) =>
    count (u.setOp i { u.op i with body := .quench m todo phase tables endState endCode })
  if phase = 0 then next (s.quenchStop m) todo 1
  else if phase = 1 && !todo.isEmpty then
    let c := todo.headD 0
    next (if (s.mould m).claimed.contains c then s.quenchOwn c else s.quenchLoan c m) (todo.drop 1) 1
  else
    let p := max phase 2
    if p < 2 + tables then next (if p + 1 = 2 + tables then s.quenchRelease m else s) [] (p + 1)
    else (count (s.quenchEmpty m)).endOp i endState endCode

/-- CTX_QUENCH (R251, R267): everything it does to the context happens at once; its steps follow (log entry 17). -/
def execCtxQuench (s : State) : Out := s.takeCmd 0x0014 (fun _ => true) fun r s =>
  s.bodyOk r (r.body.length == 2 && leAt r.body 0 1 < 64) fun s =>
    let m := leAt r.body 0 1
    let x := leAt r.body 1 1
    if !s.mouldLive m then s.answer r E.mouldState
    else if s.ctxCount m ≤ x then s.answer r E.ctxRange
    else
      let n := ((s.gangs m).filter (fun g => g.ctx.contains x)).length
      s.startOp r 1 (n + 1) (.ctxQuench m x) fun _ t => (t.quenchCtx m x).flushAborts

/-- A step of a context quench. -/
def State.ctxQuenchStep (s : State) (i : Nat) : State :=
  let o := s.op i
  let s := s.setOp i { o with done := o.done + 1 }
  if o.total ≤ o.done + 1 then s.endOp i 2 0 else s

/-- A start request of context (m, x) on cluster c (R251, R253): the code, and the state with it queued. -/
def State.enqueueStart (s : State) (c m x : Nat) (q : StartReq) : Nat × State :=
  let k := s.clu c
  let l := Tab.get [] k.queues (ctxKey m x)
  let owns := (s.gangs m).any (fun g => g.cluster = c && g.ctx.contains x)
  if !s.mouldLive m then (E.mouldState, s)
  else if s.ctxCount m ≤ x then (E.ctxRange, s)
  else if 32 ≤ l.length then (E.ctxQueueFull, s)
  else if (s.mould m).faulted.contains x then (E.ctxFaulted, s)
  else
    match s.resident c m q.list with
    | none => (E.segListGone, s)
    | some r =>
      if r.ctx ≠ x then (E.segListGone, s)
      else
        match segHdr r.image q.seg with
        | none => (E.ctxSegment, s)
        | some h =>
          if !bit h.flags 0 && !owns then (E.ctxNotClosed, s)
          else if s.isRadio m then (E.mouldKind, s)
          else (0, s.setClu c { k with queues := Tab.put k.queues (ctxKey m x) (l ++ [q]) })

/-- SEG_START (R253; the entry's layout is log entry 46). -/
def execSegStart (s : State) : Out := s.takeCmd 0x0015 (fun _ => true) fun r s =>
  let b := r.body
  let ok := b.length == 16 && leAt b 0 1 < 64 && s.enabled (leAt b 2 1) && leAt b 3 1 == 0 && leAt b 10 1 < 32 && leAt b 11 1 < 2
    && leAt b 14 2 == 0
  s.bodyOk r ok fun s =>
    let p := s.enqueueStart (leAt b 2 1) (leAt b 0 1) (leAt b 1 1) ⟨leAt b 4 4, leAt b 8 2, leAt b 10 1, leAt b 11 1 == 1, leAt b 12 2⟩
    p.2.answer r p.1

/-- LIST_LOAD (R191): answered when the load completes. -/
def execListLoad (s : State) : Out := s.takeCmd 0x0016 (fun _ => true) fun r s =>
  let b := r.body
  let m := leAt b 0 1
  let x := leAt b 1 1
  s.bodyOk r (b.length == 16 && m < 64 && s.enabled (leAt b 2 1) && allZero (slice b 3 5)) fun s =>
    if s.ctxCount m ≠ 0 && s.ctxCount m ≤ x then s.answer r E.ctxRange
    else s.listLoad (leAt b 2 1) m x (leAt b 8 8 % 2 ^ 48) (.mgmt r.sess r.reqId r.port)

/-- LIST_UNLOAD (R192). -/
def execListUnload (s : State) : Out := s.takeCmd 0x0017 (fun _ => true) fun r s =>
  let b := r.body
  s.bodyOk r (b.length == 8 && leAt b 0 1 < 64 && s.enabled (leAt b 1 1) && leAt b 2 2 == 0) fun s =>
    let p := s.listUnload (leAt b 1 1) (leAt b 0 1) (leAt b 4 4)
    p.2.answer r p.1

/-- SE_LOAD (R426): answered when the load completes. -/
def execSeLoad (s : State) : Out := s.takeCmd 0x0018 (fun _ => true) fun r s =>
  let b := r.body
  let mask := leAt b 2 1
  s.bodyOk r (b.length == 16 && leAt b 0 1 < 64 && s.enabled (leAt b 1 1) && 0 < mask && mask < 4 && allZero (slice b 3 5)) fun s =>
    s.seLoadAsk (leAt b 1 1) (leAt b 0 1) 0 mask (leAt b 8 8 % 2 ^ 48) (.mgmt r.sess r.reqId r.port)

/-- SE_UNLOAD (R429). -/
def execSeUnload (s : State) : Out := s.takeCmd 0x0019 (fun _ => true) fun r s =>
  let b := r.body
  let m := leAt b 0 1
  let c := leAt b 1 1
  let e := leAt b 2 1
  let id := leAt b 4 4
  s.bodyOk r (b.length == 8 && m < 64 && s.enabled c && (e == 4 || e == 5) && leAt b 3 1 == 0) fun s =>
    let g := s.seng c e
    if !g.progs.any (fun p => p.mould = m && p.id = id) then s.answer r E.seNoProg
    else if (List.range 4).any (fun st => (s.stream c st).busy && s.sMould c st = m && bit (s.stream c st).engines (e - 4)) then s.answer r E.seBusy
    else (s.setSeng c e { g with progs := g.progs.filter (fun p => !(p.mould = m && p.id = id)) }).answer r 0

/-- AUDIT_RUN (R241, R242): the mould is RUNNING until the segment ends. -/
def execAuditRun (s : State) : Out := s.takeCmd 0x001C (fun _ => true) fun r s =>
  let b := r.body
  let m := leAt b 0 1
  let x := leAt b 1 1
  let c := leAt b 2 1
  s.bodyOk r (b.length == 16 && m < 64 && s.enabled c && leAt b 3 1 == 0 && leAt b 10 2 == 0) fun s =>
    if s.mstate m ≠ 2 then s.answer r E.auditState
    else if s.ctxCount m ≤ x then s.answer r E.ctxRange
    else
      match (s.resident c m (leAt b 4 4)).bind (fun l => if l.ctx = x then segHdr l.image (leAt b 8 2) else none) with
      | none => s.answer r E.auditSegment
      | some h =>
        if bitsOf h.flags 2 4 = 0 then s.answer r E.auditSegment
        else if (s.clu c).auditOp.isSome then s.answer r E.auditBusy
        else
          s.startOp r 8 1 (.audit c m x (leAt b 4 4) (leAt b 8 2) (leAt b 12 4)) fun i t =>
            let t := t.setClu c { t.clu c with auditOp := some i }
            let t := (t.setMould m { t.mould m with auditing := true }).moveMould m 3 (t.heat m)
            let sts := if t.claimer c = some m then [0, 1, 2, 3] else [1, 2, 3]
            sts.foldl (fun (u : State) st => u.tryAudit c st) t

/-- ARR_SELFTEST (R159, R487). -/
def execArrSelftest (s : State) : Out := s.takeCmd 0x001D (fun _ => true) fun r s =>
  let c := leAt r.body 0 1
  let a := leAt r.body 1 1
  s.bodyOk r (r.body.length == 2 && s.enabled c && a < 4) fun s =>
    if !s.selfTestOk c a then s.answer r E.thrState
    else s.startOp r 8 1 (.selfTest c a) fun _ t => t.selfTest c a

end Sys2Proof.Machine
end

