-- ==== Sys2Proof/Machine/HotSvc.lean ====
section
/-! DEFINITION. Sys2Proof/Machine/HotSvc.lean: the hot set (R262 to R265) and the tenants' service endpoints (R269 to R272). -/
namespace Sys2Proof.Machine

/-- The hot-set entry of a digest in mould m. -/
def State.hotOf (s : State) (m : Nat) (d : Bytes) : Option HotEntry := s.hot.find? (fun e => e.mould = m && e.digest = d)

/-- Replace an entry. -/
def State.setHot (s : State) (v : HotEntry) : State :=
  { s with hot := s.hot.map (fun (e : HotEntry) => if e.mould = v.mould && e.digest = v.digest then v else e) }

/-- Evict the entries a predicate names (R265): the directory entry goes, the bytes stay. -/
def State.evict (s : State) (p : HotEntry → Bool) : State :=
  let n := (s.hot.filter p).length
  if n = 0 then s else { s with hot := s.hot.filter (fun e => !p e) }.cnt F.hotStatus_evictions 0 0 n

/-- A pool range (R262): 64 KB aligned, inside one tier-0 region with read and write, clear of the banks the mould lends. -/
def State.poolOk (s : State) (m a n : Nat) : Bool :=
  a % 65536 == 0 && n % 65536 == 0 && n != 0
    && (match s.regionAt m a with
        | some r => r.tier == 0 && a + n ≤ r.base + r.len && r.attr % 4 == 3
            && (s.offers m).all (fun o => o.cluster != r.target % 256 || s.banksOf m a n &&& bankBits o.bank o.banks == 0)
        | none => false)

/-- HOT_POOL (R262; its body is log entry 46). -/
def execHotPool (s : State) : Out := s.takeCmd 0x0020 (fun _ => true) fun r s =>
  let b := r.body
  let m := leAt b 0 1
  let n := leAt b 1 1
  s.bodyOk r (8 ≤ b.length && m < 64 && n ≤ 16 && b.length == 8 + 16 * n && leAt b 4 4 == 0) fun s =>
    let l := (List.range n).map (fun i => (leAt b (8 + 16 * i) 8, leAt b (16 + 16 * i) 8))
    let k := s.mould m
    if !s.mouldLive m then s.answer r E.mouldState
    else if 1024 < sumNat (s.moulds.map (fun e => e.2.maxHot)) + leAt b 2 2 then s.answer r E.hotFull
    else if k.pooled || !l.all (fun p => s.poolOk m p.1 p.2) then s.answer r E.hotPool
    else (s.setMould m { k with pooled := true, pools := l, maxHot := leAt b 2 2 }).answer r 0

/-- The unpinned RESIDENT entry of a mould with the oldest last_use. -/
def State.oldestHot (s : State) (m : Nat) : Option HotEntry :=
  (s.hot.filter (fun e => e.mould = m && e.pins = 0 && !e.loading)).foldl (fun (o : Option HotEntry) e =>
    match o with
    | some b => if e.lastUse < b.lastUse then some e else o
    | none => some e) none

/-- HOT_LOAD (R263, R264). -/
def execHotLoad (s : State) : Out := s.takeCmd 0x0021 (fun _ => true) fun r s =>
  let b := r.body
  let m := leAt b 0 1
  let d := slice b 8 32
  let src := leAt b 40 8 % 2 ^ 48
  let dst := leAt b 48 8 % 2 ^ 48
  let n := leAt b 56 8
  s.bodyOk r (b.length == 64 && m < 64 && allZero (slice b 1 7) && n != 0 && n % 64 == 0 && n < 2 ^ 40) fun s =>
    let inPool := (s.mould m).pools.any (fun p => p.1 ≤ dst && dst + n ≤ p.1 + p.2)
    let fromFar := s.covered m src n 1 && ((s.cover m src n).getD []).all (fun g => g.tier = 1 || g.tier = 2)
    let clash := fun (e : HotEntry) => decide (e.mould = m ∧ e.dst < dst + n ∧ dst < e.dst + e.len)
    if !s.mouldLive m then s.answer r E.mouldState
    else if !inPool || !fromFar then s.answer r E.hotPool
    else
      match s.hotOf m d with
      | some e =>
        if e.loading then s.answer r 0 e.handle
        else if e.dst = dst then (s.setHot { e with lastUse := s.clk.ns }).answer r 0
        else s.answer r E.hotExists
      | none =>
        if s.hot.any (fun e => clash e && (e.pins ≠ 0 || e.loading)) then s.answer r E.hotPinned
        else
          let left := (s.hot.filter (fun e => e.mould = m && !clash e)).length
          let full := (s.mould m).maxHot ≤ left
          if full && ((s.mould m).maxHot = 0 || (s.oldestHot m).isNone) then s.answer r E.hotFull
          else if 64 ≤ s.opsRunning then s.answer r E.mgmtHandles
          else
            let s := s.evict clash
            let s := match s.oldestHot m with
              | some o => if full then s.evict (fun e => e = o) else s
              | none => s
            s.startOp r 5 (2 + cdiv n 262144 + cdiv n 1048576) (.hot m d src dst n) fun i t =>
              { t with hot := t.hot ++ [⟨d, m, true, dst, n, 0, t.clk.ns, (t.op i).handle⟩] }

/-- A hot-set load's entry leaves the directory and its operation ends. -/
def State.hotEnd (s : State) (i : Nat) (state code : Nat) : State :=
  match (s.op i).body with
  | .hot m d _ _ _ => { s with hot := s.hot.filter (fun e => !(e.mould = m && e.digest = d && e.loading)) }.endOp i state code
  | _ => s

/-- One step of a hot-set load (R264): directory, copies, verifies, commit. A read of its source may fail. -/
def State.hotStep (s : State) (i ecc word : Nat) : State :=
  match (s.op i).body with
  | .hot m d src dst n =>
    let k := (s.op i).done
    let copies := cdiv n 262144
    let verifies := cdiv n 1048576
    let s := s.setOp i { s.op i with done := k + 1 }
    match s.hotOf m d with
    | none => s.endOp i 3 E.hotCancelled
    | some e =>
      if k = 0 then s
      else if k ≤ copies then
        let o := 262144 * (k - 1)
        let p := s.access m (src + o) (min 262144 (n - o)) ecc word
        if p.1 ≠ 0 then p.2.hotEnd i 3 p.1
        else p.2.writeMem m (dst + o) (p.2.readMem m (src + o) (min 262144 (n - o)))
      else if k ≤ copies + verifies then
        if k < copies + verifies || digest256 (s.readMem m dst n) = d then s
        else ((s.cnt F.hotStatus_digestFail).logWith 0x0F05 0x00A0 m (beNat (d.take 16))).hotEnd i 3 E.hotDigest
      else (s.setHot { e with loading := false, lastUse := s.clk.ns }).endOp i 2 0
  | _ => s

/-- A body of a mould and a digest. -/
def hotBody (b : Bytes) : Bool := b.length == 40 && leAt b 0 1 < 64 && allZero (slice b 1 7)

/-- HOT_PIN (R265). -/
def execHotPin (s : State) : Out := s.takeCmd 0x0022 (fun _ => true) fun r s =>
  s.bodyOk r (hotBody r.body) fun s =>
    match s.hotOf (leAt r.body 0 1) (slice r.body 8 32) with
    | none => s.answer r E.hotNotFound
    | some e =>
      if e.pins = 65535 then s.answer r E.hotPinLimit
      else (s.setHot { e with pins := e.pins + 1, lastUse := s.clk.ns }).answer r 0

/-- HOT_UNPIN (R265). -/
def execHotUnpin (s : State) : Out := s.takeCmd 0x0023 (fun _ => true) fun r s =>
  s.bodyOk r (hotBody r.body) fun s =>
    match s.hotOf (leAt r.body 0 1) (slice r.body 8 32) with
    | none => s.answer r E.hotNotFound
    | some e => if e.pins = 0 then s.answer r E.hotNotPinned else (s.setHot { e with pins := e.pins - 1 }).answer r 0

/-- HOT_EVICT (R265). -/
def execHotEvict (s : State) : Out := s.takeCmd 0x0024 (fun _ => true) fun r s =>
  s.bodyOk r (hotBody r.body) fun s =>
    match s.hotOf (leAt r.body 0 1) (slice r.body 8 32) with
    | none => s.answer r E.hotNotFound
    | some e => if e.pins ≠ 0 then s.answer r E.hotPinned else (s.evict (fun x => x = e)).answer r 0

/-- HOT_LOOKUP (R265): state, dst and length. -/
def execHotLookup (s : State) : Out := s.takeCmd 0x0025 (fun _ => true) fun r s =>
  s.bodyOk r (hotBody r.body) fun s =>
    match s.hotOf (leAt r.body 0 1) (slice r.body 8 32) with
    | none => s.answer r E.hotNotFound
    | some e =>
      (s.setHot { e with lastUse := s.clk.ns }).answer r 0 0
        (toLe 1 (if e.loading then 1 else 2) ++ toLe 7 0 ++ toLe 8 e.dst ++ toLe 8 e.len)

/-- Service endpoint e. -/
def State.svcEp (s : State) (e : Nat) : SvcSt := Tab.get SvcSt.init s.svc e

/-- Replace an endpoint. -/
def State.setSvc (s : State) (e : Nat) (v : SvcSt) : State := { s with svc := Tab.set SvcSt.init s.svc e v }

/-- Endpoint e is bound. -/
def State.svcBound (s : State) (e : Nat) : Bool := (s.svcEp e).mould < 64

/-- A ring of an endpoint (R269): a power of two of 16 to 4,096 slots of 2,048 B in a tier-0 region with read and write, on a
cluster the context owns. The answer is the cluster. -/
def State.svcRing (s : State) (m x a n : Nat) : Option Nat :=
  match s.regionAt m a with
  | some r =>
    let c := r.target % 256
    if r.tier = 0 && a + 2048 * n ≤ r.base + r.len && r.attr % 4 = 3 && 16 ≤ n && n ≤ 4096 && 2 ^ Nat.log2 n = n
      && (s.gangs m).any (fun g => g.cluster = c && g.ctx.contains x) then some c else none
  | none => none

/-- The endpoint an SVC_BIND body describes (log entry 46). -/
def svcOf (b : Bytes) : SvcSt :=
  { SvcSt.init with
    mould := leAt b 2 1, ctx := leAt b 3 1, port := leAt b 4 1, token := leAt b 5 1, queue := leAt b 6 2, udp := leAt b 8 2,
    rxSlots := leAt b 10 2, txSlots := leAt b 12 2, rxRate := leAt b 14 2, ipv6 := slice b 16 16, rxBase := leAt b 32 8 % 2 ^ 48,
    txBase := leAt b 40 8 % 2 ^ 48, key := slice b 48 32 }

/-- SVC_BIND (R269). -/
def execSvcBind (s : State) : Out := s.takeCmd 0x0028 (fun _ => true) fun r s =>
  let b := r.body
  let e := leAt b 0 2
  let v := svcOf b
  s.bodyOk r (b.length == 80 && v.mould < 64) fun s =>
    let ring := match s.svcRing v.mould v.ctx v.rxBase v.rxSlots, s.svcRing v.mould v.ctx v.txBase v.txSlots with
      | some _, some _ => true
      | _, _ => false
    let q := queueNo (0x10 + v.port) v.queue
    let queueOk := v.port < 8 && v.queue < 1024 && (s.qInfo q).bind (·.owner) = some v.mould
    if !s.mouldLive v.mould then s.answer r E.mouldState
    else if s.ctxCount v.mould ≤ v.ctx then s.answer r E.ctxRange
    else if 256 ≤ e || s.svcBound e || 16 ≤ (s.svc.filter (fun p => p.2.mould = v.mould)).length || !ring || !queueOk || 32 ≤ v.token || s.blockBusy (18 + v.port) then
      s.answer r E.svcBind
    else (((s.setSvc e v).setReg .svcRing e 0 0).setReg .svcStat e 0 0).answer r 0

/-- SVC_UNBIND (R269, R547). -/
def execSvcUnbind (s : State) : Out := s.takeCmd 0x0029 (fun _ => true) fun r s =>
  let e := leAt r.body 0 2
  s.bodyOk r (r.body.length == 2) fun s =>
    if 256 ≤ e || !s.svcBound e then s.answer r E.svcBind else (s.setSvc e SvcSt.init).answer r 0

/-- A counter passes a receive window of 1,024 below the highest (R270, R481). -/
def WindowSt.fresh (w : WindowSt) (c : Nat) : Bool := c != 0 && (w.top < c || (w.top ≤ c + 1024 && !w.seen.contains c))

/-- A counter enters a window. -/
def WindowSt.add (w : WindowSt) (c : Nat) : WindowSt :=
  let top := max w.top c
  ⟨top, (c :: w.seen).filter (fun n => top ≤ n + 1024)⟩

/-- Encryption under AES-256-GCM. -/
def gcmCrypt (key nonce data : Bytes) : Bytes := data.zipIdx.map (fun (b, i) => b ^^^ Config.gcmByte key nonce i)

/-- The nonce of a service datagram (R270): direction 0 towards the device, 1 from it. -/
def svcNonce (h : Bytes) (dir : Nat) : Bytes := slice h 4 4 ++ slice h 20 4 ++ slice h 2 2 ++ toBe 1 dir ++ [0#8]

/-- A header of a service datagram is well formed (Table 9.6) with n bytes after it. -/
def svcHdrOk (h : Bytes) (n : Nat) : Bool :=
  beAt h 0 1 == 1 && (beAt h 1 1 == 1 || beAt h 1 1 == 3) && beAt h 18 2 == 0 && beAt h 16 2 ≤ 1400 && n == beAt h 16 2 + 16

/-- The session of a verified datagram is tracked, with its counter seen (R270, R271); none where the datagram is dropped. -/
def SvcSt.track (v : SvcSt) (id ctr now : Nat) : Option SvcSt :=
  match v.sessions.find? (fun z => z.id = id) with
  | some z =>
    if z.win.fresh ctr then
      some { v with sessions := v.sessions.map (fun (y : SvcSession) => if y.id = id then { y with win := y.win.add ctr, last := now } else y) }
    else none
  | none =>
    if ctr = 0 || id ≤ v.floor then none
    else
      let full := 64 ≤ v.sessions.length
      let old := v.sessions.foldl (fun (o : Option SvcSession) z => match o with
        | some b => if z.last < b.last then some z else o
        | none => some z) none
      let v := match old with
        | some o => if full then { v with sessions := v.sessions.filter (fun z => z.id ≠ o.id), floor := max v.floor o.id } else v
        | none => v
      some { v with sessions := v.sessions ++ [⟨id, ⟨ctr, [ctr]⟩, now⟩] }

/-- SERVICE_DATAGRAM_RX (R270 to R272, Table 9.6): on sub-port sub, from an address and port to an address and port. -/
def execServiceDatagramRx (dt sub : Nat) (src : Bytes) (sport : Nat) (dst : Bytes) (dport : Nat) (d : Bytes) (s : State) : Out :=
  s.whenLive fun s =>
  let s := s.pass dt
  let h := d.take 24
  let e := beAt h 2 2
  let v := s.svcEp e
  if !s.subOpen sub then s
  else if d.length < 24 || 256 ≤ e || !s.svcBound e || v.port ≠ (sub - 16) / 4 || v.ipv6 ≠ dst || v.udp ≠ dport then
    s.cnt F.svcUnmatched_count
  else if !svcHdrOk h (d.length - 24) then s.cnt F.svcStat_dropOther e
  else
    let n := beAt h 16 2
    let ct := slice d 24 n
    if slice d (24 + n) 16 ≠ Config.gcmTag v.key (svcNonce h 0) h ct then s.cnt F.svcStat_dropAuth e
    else
      match v.track (beAt h 4 4) (beAt h 20 4) s.clk.up with
      | none => s.cnt F.svcStat_dropAuth e
      | some v =>
        let ms := s.clk.ns / 1000000
        let v := if v.msStart = ms then v else { v with msStart := ms, msCount := 0 }
        let s := s.setSvc e v
        let tail := s.rd F.svcRing_rxTail e
        if v.rxRate ≤ v.msCount then s.cnt F.svcStat_dropOther e
        else if v.rxSlots ≤ (tail + 65536 - s.rd F.svcRing_rxHead e) % 65536 then s.cnt F.svcStat_dropFull e
        else
          let slot := toLe 8 s.clk.ns ++ src ++ toLe 2 sport ++ toLe 2 n ++ toLe 4 0 ++ h ++ gcmCrypt v.key (svcNonce h 0) ct
          let a := v.rxBase + tail % v.rxSlots * 2048
          let s := ((s.setSvc e { v with msCount := v.msCount + 1 }).writeMem v.mould a slot).bumpAt v.mould a
          let s := (s.inc F.svcRing_rxTail e).cnt F.svcStat_rxOk e
          match s.svcRing v.mould v.ctx v.rxBase v.rxSlots with
          | some c => s.post c v.mould v.ctx v.token 1
          | none => s

/-- A write of SVC_RING_e (Table 9.14): rx_head and tx_tail, by the bound context or the management controller. -/
def State.writeSvcRing (s : State) (req e value : Nat) : State :=
  let v := s.svcEp e
  if req = 0 || (2 ≤ req && s.svcBound e && req - 2 = v.mould + 64 * v.ctx) then
    (s.wr F.svcRing_rxHead (bitsOf value 0 16) e).wr F.svcRing_txTail (bitsOf value 32 16) e
  else s.csrLog 0x0001 (regAddr .svcRing e 0) true req value

/-- SVC_RING_WRITE. -/
def execSvcRingWrite (req e value : Nat) (s : State) : Out := s.whenLive fun s => if 256 ≤ e then s else s.writeSvcRing req e value

/-- SERVICE_DATAGRAM_TX (R272, R386): the next tx slot of endpoint e, once its queue has room. -/
def execServiceDatagramTx (e : Nat) (s : State) : Out := s.whenLive fun s =>
  let v := s.svcEp e
  let head := s.rd F.svcRing_txHead e
  if 256 ≤ e || !s.svcBound e || head = s.rd F.svcRing_txTail e || 2 ^ 32 - 1 ≤ v.txCount then s
  else
    let a := v.txBase + head % v.txSlots * 2048
    let dst := s.readMem v.mould (a + 8) 18
    let h := s.readMem v.mould (a + 32) 24
    let n := beAt h 16 2
    let q := queueNo (0x10 + v.port) v.queue
    let len := 14 + 40 + 8 + 24 + n + 16
    if 1400 < n then s.inc F.svcRing_txHead e
    else if !s.hasRoom q len then s
    else
      let h := h.take 20 ++ toBe 4 (v.txCount + 1)
      let ct := gcmCrypt v.key (svcNonce h 1) (s.readMem v.mould (a + 56) n)
      let f := dst ++ h ++ ct ++ Config.gcmTag v.key (svcNonce h 1) h ct
      let s := (s.setSvc e { v with txCount := v.txCount + 1 }).inc F.svcRing_txHead e
      s.enqueue q ⟨f, len, 12, v.mould, false, 0, 0⟩

end Sys2Proof.Machine
end

