-- ==== Sys2Proof/Machine/Threads.lean ====
section
/-! DEFINITION. Sys2Proof/Machine/Threads.lean: control-core threads (R467 to R475): scheduling, fetch, local and cached accesses,
remote accesses, and the system instructions of Table 16.1. -/
namespace Sys2Proof.Machine

/-- State of a thread (Table 16.11). -/
def State.thrState (s : State) (c t : Nat) : Nat := s.rd F.thrStatus_state c t

/-- The mould a thread is bound to. -/
def State.tMould (s : State) (c t : Nat) : Nat := s.rd F.thrStatus_mould c t

/-- The context a thread is bound to. -/
def State.tCtx (s : State) (c t : Nat) : Nat := s.rd F.thrStatus_ctx c t

/-- The next ready thread in ascending index order after one (R471). -/
def State.nextReady (s : State) (c after : Nat) : Option Nat :=
  ((List.range 16).map (fun i => (after + 1 + i) % 16)).find? (fun t => s.thrState c t = 1)

/-- The thread the core issues from, if one runs. -/
def State.runningThread (s : State) (c : Nat) : Option Nat := (List.range 16).find? (fun t => s.thrState c t = 2)

/-- Thread t may issue now: it runs and its 256 instructions are not over while another is ready, or it is the next ready one. -/
def State.mayIssue (s : State) (c t : Nat) : Bool :=
  c < 96 && t < 16 && (match s.runningThread c with
    | some r => r == t && ((s.thread c t).quantum < 256 || (s.nextReady c t).isNone)
    | none => s.nextReady c (s.clu c).curThread == some t)

/-- The core switches to thread t (R471, Table 16.13). -/
def State.switchTo (s : State) (c t : Nat) : State :=
  if s.thrState c t = 2 then s
  else
    let s := if (s.clu c).curThread = t then s else s.inc F.coreCnt_switches c
    let s := (s.setThread c t { s.thread c t with quantum := 0 }).wr F.thrStatus_state 2 c t
    s.setClu c { s.clu c with curThread := t }

/-- A thread is switched out at its pc until its wait ends (R471). -/
def State.switchOut (s : State) (c t : Nat) (w : ThrWait) : State :=
  (s.setThread c t { s.thread c t with wait := w }).wr F.thrStatus_state 3 c t

/-- An instruction has been executed: the pc moves on, the quantum counts it. -/
def State.retire (s : State) (c t : Nat) (f : ThreadSt → ThreadSt) : State :=
  let v := f (s.thread c t)
  s.setThread c t { v with pc := (v.pc + 4) % 2 ^ 64, quantum := v.quantum + 1 }

/-- The thread parks at its next instruction while stage 2 sheds load in its field (R88, R472). -/
def State.mustPark (s : State) (c t : Nat) : Bool := 2 ≤ s.stageOf c && !s.isRadio (s.tMould c t)

/-- An address lies at the own device and in the thread's mould (R470). -/
def State.isLocal (s : State) (c t addr : Nat) : Bool := addr / 2 ^ 54 == s.devId && addr / 2 ^ 48 % 64 == s.tMould c t

/-- n bytes at a mould-local address lie in one region with the attributes of the mask. -/
def State.inRegion (s : State) (m a n mask : Nat) : Bool :=
  match s.regionAt m a with
  | some r => a + n ≤ r.base + r.len && r.attr &&& mask == mask
  | none => false

/-- A region reached through the caches of cluster c (R298). -/
def State.cachedAt (s : State) (c m a : Nat) : Bool :=
  match s.regionAt m a with
  | some r =>
    !bit r.attr 3 && (if r.tier = 0 then r.target % 256 == c
      else if r.tier = 3 then (s.offer (r.target % 256) (r.target / 256 % 256)).any (fun o => o.cluster = c) else true)
  | none => false

/-- A far region: its lines come over a GDDR7 channel or a CXL port. -/
def State.farAt (s : State) (m a : Nat) : Bool := (s.regionAt m a).any (fun r => r.tier = 1 || r.tier = 2)

/-- The cached line of mould m that holds an address. -/
def State.lineOf (s : State) (ins : Bool) (c m a : Nat) : Option LineSt :=
  (s.place m (a / 64 * 64)).bind fun p => Tab.find (if ins then (s.clu c).icache else (s.clu c).dcache) (lineKey m p)

/-- The bytes of a line at an address, from the cache when it is there, else from memory. -/
def State.throughLine (s : State) (ins : Bool) (c m a n : Nat) : Bytes :=
  match s.lineOf ins c m a with
  | some l => slice l.data (a % 64) n
  | none => s.readMem m a n

/-- The word at a thread's pc, where it can be fetched without a wait or an exception (R470). -/
def State.peekWord (s : State) (c t : Nat) : Option Nat :=
  let v := s.thread c t
  let m := s.tMould c t
  let a := v.pc % 2 ^ 48
  if !s.isLocal c t v.pc || v.pc % 4 ≠ 0 || !s.inRegion m a 4 1 || (s.farAt m a && (s.lineOf true c m a).isNone) then none
  else some (leNat (s.throughLine true c m a 4))

/-- The fetched line is in the instruction cache afterwards. -/
def State.fetched (s : State) (c t : Nat) : State :=
  let m := s.tMould c t
  let a := (s.thread c t).pc % 2 ^ 48
  if (s.lineOf true c m a).isSome || !s.cachedAt c m a then s else s.fillLine true c m a

/-- Fields of a system instruction. -/
def sRd (w : Nat) : Nat := bitsOf w 7 5
/-- rs1. -/
def sRs1 (w : Nat) : Nat := bitsOf w 12 5
/-- rs2. -/
def sRs2 (w : Nat) : Nat := bitsOf w 17 5
/-- mod. -/
def sMod (w : Nat) : Nat := bitsOf w 22 4
/-- sysop. -/
def sOp (w : Nat) : Nat := bitsOf w 26 6

/-- A system instruction's unused fields are 0: the mask holds 1 for rd, 2 for rs1, 4 for rs2, 8 for mod. -/
def fieldsClear (w mask : Nat) : Bool :=
  (bit mask 0 || sRd w == 0) && (bit mask 1 || sRs1 w == 0) && (bit mask 2 || sRs2 w == 0) && (bit mask 3 || sMod w == 0)

/-- The thread executes the system instruction `op` at its pc, when that is what stands there (R471 to R473, R475). -/
def State.sysIns (s : State) (c t op mask : Nat) (k : Nat → State → State) : Out := s.whenLive fun s =>
  if !s.mayIssue c t then s
  else
    match s.peekWord c t with
    | none => s
    | some w =>
      if w % 128 ≠ 0x5D || sOp w ≠ op then s
      else
        let s := s.switchTo c t
        if s.mustPark c t then s.wr F.thrStatus_state 4 c t
        else
          let s := s.fetched c t
          if !fieldsClear w mask then s.threadExc c t 4 0 ((s.thread c t).pc % 2 ^ 48) else k w s

/-- A register of a thread. -/
def State.xreg (s : State) (c t i : Nat) : Nat := (s.thread c t).reg i

/-- A line is in the data cache, or the access is uncached and its read meets no error: then `k`; otherwise an exception of cause 3,
or a wait for the line (R298, R471, R475). -/
def State.dataReady (s : State) (c t m a n ecc word : Nat) (k : State → State) : State :=
  let fail := fun (u : State) (code : Nat) => u.threadExc c t 3 code a
  if s.cachedAt c m a then
    if (s.lineOf false c m a).isSome then k s
    else
      let v := s.thread c t
      let line := a / 64 * 64
      if s.farAt m a then
        if v.missErr ≠ 0 then fail (s.setThread c t { v with missErr := 0 }) v.missErr
        else
          let code := (s.access m line 64 0 0).1
          if code ≠ 0 then fail s code
          else ((s.askGranules (.thread c t) false m line 0 64).2).switchOut c t .miss
      else
        let p := s.access m line 64 ecc word
        if p.1 ≠ 0 then fail p.2 p.1 else k (p.2.fillLine false c m a)
  else
    let p := s.access m a n ecc word
    if p.1 ≠ 0 then fail p.2 p.1 else k p.2

/-- Bytes a thread reads at a local address. -/
def State.threadRead (s : State) (c m a n : Nat) : Bytes := if s.cachedAt c m a then s.throughLine false c m a n else s.readMem m a n

/-- A thread writes bytes at a local address: into its line, or to memory (R298, R336). -/
def State.threadWrite (s : State) (c m a : Nat) (bs : Bytes) : State :=
  match s.cachedAt c m a, s.place m (a / 64 * 64), s.lineOf false c m a with
  | true, some p, some l =>
    let k := s.clu c
    let o := a % 64
    let l' : LineSt := { l with data := l.data.take o ++ bs ++ l.data.drop (o + bs.length), dirty := true }
    s.setClu c { k with dcache := Tab.put k.dcache (lineKey m p) l' }
  | _, _, _ => (s.writeMem m a bs).bumpAt m a

/-- An access of n bytes at a 64-bit address that needs attributes `need` (R470, R475): local, remote, or an exception. -/
def State.threadAccess (s : State) (c t addr n need : Nat) (loc : Nat → State → State) (rem : State → State) : State :=
  let m := s.tMould c t
  let a := addr % 2 ^ 48
  if addr / 2 ^ 54 ≠ s.devId then rem s
  else if !s.isLocal c t addr then s.threadExc c t 1 0 a
  else if a % n ≠ 0 then s.threadExc c t 2 0 a
  else if !s.inRegion m a n need then s.threadExc c t 1 0 a
  else loc a s

/-- A thread's remote operation (R330 to R332, R334): failed at once, waiting for a slot, or sent. `op` is its opcode, `hsub` the
sub field and `extra` what follows the request header. -/
def State.issueRemote (s : State) (c t addr align : Nat) (o : ROp) (op hsub : Nat) (extra : Bytes) (fail : Nat → State → State) : State :=
  let m := s.tMould c t
  let x := s.tCtx c t
  let code := s.remoteCheck m addr align
  let dev := addr / 2 ^ 54
  let out := s.rd F.thrStatus_remoteOut c t
  if code ≠ 0 then fail code s
  else if !s.slotFree m then (s.cnt F.fabSlots_waits m).switchOut c t .slot
  else if !s.windowOpen dev m || (o.kind = 6 && 64 ≤ out) then s.switchOut c t .slot
  else
    let id := s.fab.opSeq + 1
    let pay := reqHdr (addr % 2 ^ 48) x 0 false o.len hsub ++ extra
    let o := { o with
      cluster := c, mould := m, ctx := x, thread := t, heat := s.heat m, quenches := (s.mould m).quenches, dev := dev,
      far := addr % 2 ^ 48, args := pay }
    let s := { s with fab := { s.fab with opSeq := id } }.takeSlot m
    let s := ((s.setRop id o).wr F.thrStatus_remoteOut (out + 1) c t).cnt F.coreCnt_remote c
    let s := (s.sendReq id op 12 pay).retire c t (fun v => { v with quantum := 0 })
    if o.kind = 6 then s.wr F.thrStatus_state 1 c t else s.switchOut c t (.remote id)

/-- The instruction ends with a code in ST. -/
def State.retireCode (s : State) (c t e : Nat) : State := s.retire c t (fun v => v.code e)

/-- A remote store fails at once: its code waits for the thread's next fence (R334). -/
def State.storeFails (s : State) (c t e : Nat) : State :=
  (s.logFree 0x1104 (srcEngine c 6) (s.tMould c t)).retire c t (fun v => { v with fenceErr := if v.fenceErr = 0 then e else v.fenceErr })

/-- LDL (R337, R473). -/
def execLdl (c t ecc word : Nat) (s : State) : Out := s.sysIns c t 0x01 3 fun w s =>
  let addr := s.xreg c t (sRs1 w)
  let rd := sRd w
  let m := s.tMould c t
  if 24 < rd then s.threadExc c t 2 0 (addr % 2 ^ 48)
  else
    s.threadAccess c t addr 64 1
      (fun a s => s.dataReady c t m a 64 ecc word fun s =>
        let bs := s.threadRead c m a 64
        let ver := s.versionAt m a
        s.retire c t fun v =>
          let v := (v.load64 rd bs).code 0
          if ver.2 then { v with st := setBits v.st 16 32 ver.1 } else v)
      (fun s => s.issueRemote c t addr 64 { ROp.init with kind := 5, len := 64, rd := rd, sub := 1 } 4 0 [] fun e s => s.retireCode c t e)

/-- STL (R473). -/
def execStl (c t ecc word : Nat) (s : State) : Out := s.sysIns c t 0x02 3 fun w s =>
  let addr := s.xreg c t (sRs1 w)
  let rd := sRd w
  let m := s.tMould c t
  let bs := (List.range 8).flatMap (fun i => toLe 8 (s.xreg c t (rd + i)))
  if 24 < rd then s.threadExc c t 2 0 (addr % 2 ^ 48)
  else
    s.threadAccess c t addr 64 2
      (fun a s => s.dataReady c t m a 64 ecc word fun s => (s.threadWrite c m a bs).retire c t id)
      (fun s => s.issueRemote c t addr 64 { ROp.init with kind := 6, len := 64 } 3 0 bs fun e s => s.storeFails c t e)

/-- An atomic of n bytes (Table 11.9): rd carries operand b in and the old value out. -/
def State.threadAtomic (s : State) (c t n ecc word w : Nat) : State :=
  let addr := s.xreg c t (sRs1 w)
  let a := s.xreg c t (sRs2 w)
  let b := s.xreg c t (sRd w)
  let m := s.tMould c t
  if 9 < sMod w then s.threadExc c t 4 0 ((s.thread c t).pc % 2 ^ 48)
  else
    s.threadAccess c t addr n 3
      (fun o s =>
        let p := s.access m o n ecc word
        if p.1 ≠ 0 then p.2.threadExc c t 3 p.1 o
        else
          let q := p.2.applyAtomic m o n (sMod w) a b
          q.2.retire c t fun v => (v.setReg (sRd w) q.1).code 0)
      (fun s => s.issueRemote c t addr n { ROp.init with kind := 7, len := n, rd := sRd w } 5 (sMod w) (toBe 8 a ++ toBe 8 b)
        fun e s => s.retireCode c t e)

/-- ATOM4 (R473). -/
def execAtom4 (c t ecc word : Nat) (s : State) : Out := s.sysIns c t 0x03 15 fun w s => s.threadAtomic c t 4 ecc word w

/-- ATOM8 (R473). -/
def execAtom8 (c t ecc word : Nat) (s : State) : Out := s.sysIns c t 0x04 15 fun w s => s.threadAtomic c t 8 ecc word w

/-- OWN (R335, R473). -/
def execOwn (c t : Nat) (s : State) : Out := s.sysIns c t 0x05 15 fun w s =>
  let addr := s.xreg c t (sRs1 w)
  let a := s.xreg c t (sRs2 w)
  let m := s.tMould c t
  if 3 < sMod w then s.threadExc c t 4 0 ((s.thread c t).pc % 2 ^ 48)
  else
    s.threadAccess c t addr 1 4
      (fun o s =>
        match s.regionIdx m o with
        | some i =>
          let k := regionKey m i
          let old := Tab.get 0 s.owners k
          let me := 2 ^ 15 + s.devId * 16 + s.tCtx c t
          let ok := sMod w ≠ 3 || (bit a 15 && a < 65536 && !bit a 14)
          let s := if ok then { s with owners := Tab.set 0 s.owners k (ownNew (sMod w) old me a) } else s
          s.retire c t fun v => (v.setReg (sRd w) old).code 0
        | none => s)
      (fun s => s.issueRemote c t addr 1 { ROp.init with kind := 9, rd := sRd w } 7 (sMod w) (toBe 8 a) fun e s => s.retireCode c t e)

/-- VREAD (R336, R473). -/
def execVread (c t : Nat) (s : State) : Out := s.sysIns c t 0x06 3 fun w s =>
  let addr := s.xreg c t (sRs1 w)
  let m := s.tMould c t
  s.threadAccess c t addr 1 1
    (fun a s => s.retire c t fun v => (v.setReg (sRd w) (s.versionAt m a).1).code 0)
    (fun s => s.issueRemote c t addr 1 { ROp.init with kind := 8, rd := sRd w } 6 0 [] fun e s => s.retireCode c t e)

/-- What a fence of context (m, x) covers (R338): its writes in flight, its queued puts, and the points of its streams. -/
def State.fenceSet (s : State) (m x : Nat) : List (Nat × Nat) :=
  let ops := s.fab.ops.filterMap fun (e : Nat × ROp) =>
    let o := e.2
    if o.mould = m && o.ctx = x && !o.got && (o.kind = 3 || o.kind = 6 || o.kind = 7 || o.kind = 9) then some (1, e.1) else none
  let movs := s.clus.flatMap fun e => (Tab.get [] e.2.ladle (ctxKey m x)).filterMap fun v =>
    if v.kind = 3 && !v.begun then some (1, v.opId) else none
  let points := s.fab.tx.filterMap fun (e : Nat × TxStream) =>
    if e.1 % 64 = m && Tab.get 0 e.2.lastW x ≠ 0 then some (2 + e.1 / 64, Tab.get 0 e.2.lastW x - 1) else none
  ops ++ movs ++ points

/-- A fence of mould m is complete (R338). -/
def State.fenceDone (s : State) (m x : Nat) (l : List (Nat × Nat)) : Bool :=
  l.all fun f =>
    if f.1 = 1 then
      let o := s.rop f.2
      (o.kind < 3 || o.got) && s.clus.all (fun e => (Tab.get [] e.2.ladle (ctxKey m x)).all (fun v => v.opId ≠ f.2 || v.begun))
    else decide (0 ≤ sext 32 ((s.txS (streamKey (f.1 - 2) m)).acked + 2 ^ 32 - f.2))

/-- The code of a fence goes into ST. -/
def ThreadSt.fenceEnd (v : ThreadSt) : ThreadSt := { v.code v.fenceErr with fenceErr := 0, fence := [], wait := .none }

/-- FENCE (R338). -/
def execFence (c t : Nat) (s : State) : Out := s.sysIns c t 0x07 0 fun _ s =>
  let m := s.tMould c t
  let x := s.tCtx c t
  let l := s.fenceSet m x
  if s.fenceDone m x l then s.retire c t ThreadSt.fenceEnd
  else (s.retire c t (fun v => { v with fence := l, quantum := 0 })).switchOut c t .fence

/-- FENCE_COMPLETE (R338). -/
def execFenceComplete (c t : Nat) (s : State) : Out := s.whenLive fun s =>
  let v := s.thread c t
  if s.thrState c t ≠ 3 || v.wait ≠ .fence || !s.fenceDone (s.tMould c t) (s.tCtx c t) v.fence then s
  else (s.setThread c t v.fenceEnd).wr F.thrStatus_state 1 c t

/-- TPOST (R184, R474). -/
def execTpost (c t : Nat) (s : State) : Out := s.sysIns c t 0x08 6 fun w s =>
  (s.post c (s.tMould c t) (s.tCtx c t) (s.xreg c t (sRs1 w) % 32) (s.xreg c t (sRs2 w))).retire c t id

/-- TWAIT (R184, R474). -/
def execTwait (c t : Nat) (s : State) : Out := s.sysIns c t 0x09 6 fun w s =>
  let m := s.tMould c t
  let x := s.tCtx c t
  let k := s.xreg c t (sRs1 w) % 32
  let n := s.xreg c t (sRs2 w)
  if n ≤ s.tok c m x k then (s.setTok c m x k (s.tok c m x k - n)).retire c t id
  else (s.retire c t (fun v => { v with quantum := 0 })).switchOut c t (.token k n)

/-- SREQ (R253, R473). -/
def execSreq (c t : Nat) (s : State) : Out := s.sysIns c t 0x0A 6 fun w s =>
  let a := s.xreg c t (sRs1 w)
  let b := s.xreg c t (sRs2 w)
  let p := s.enqueueStart c (s.tMould c t) (s.tCtx c t) ⟨bitsOf a 0 32, bitsOf a 32 16, bitsOf b 16 5, bit b 21, bitsOf b 0 16⟩
  p.2.retireCode c t p.1

/-- LLOAD (R191, R473). -/
def execLload (c t : Nat) (s : State) : Out := s.sysIns c t 0x0B 2 fun w s =>
  let addr := s.xreg c t (sRs1 w)
  if !s.isLocal c t addr then s.retireCode c t E.listRegion
  else ((s.retire c t (fun v => { v with quantum := 0 })).switchOut c t .load).listLoad c (s.tMould c t) (s.tCtx c t) (addr % 2 ^ 48) (.thread t)

/-- LUNLOAD (R192, R473). -/
def execLunload (c t : Nat) (s : State) : Out := s.sysIns c t 0x0C 2 fun w s =>
  let p := s.listUnload c (s.tMould c t) (s.xreg c t (sRs1 w) % 2 ^ 32)
  p.2.retireCode c t p.1

/-- SELOAD (R426, R473). -/
def execSeload (c t : Nat) (s : State) : Out := s.sysIns c t 0x0D 10 fun w s =>
  let addr := s.xreg c t (sRs1 w)
  if sMod w = 0 || 3 < sMod w then s.threadExc c t 4 0 ((s.thread c t).pc % 2 ^ 48)
  else if !s.isLocal c t addr then s.retireCode c t E.seFormat
  else
    ((s.retire c t (fun v => { v with quantum := 0 })).switchOut c t .load).seLoadAsk c (s.tMould c t) (s.tCtx c t) (sMod w) (addr % 2 ^ 48) (.thread t)

/-- The lines of mould m that cover [a, a + n). -/
def covers (m a n : Nat) (l : LineSt) : Bool := decide (l.mould = m ∧ n ≠ 0 ∧ a / 64 * 64 ≤ l.addr ∧ l.addr < a + n)

/-- CINV (R474). -/
def execCinv (c t : Nat) (s : State) : Out := s.sysIns c t 0x0E 6 fun w s =>
  let addr := s.xreg c t (sRs1 w)
  let n := s.xreg c t (sRs2 w)
  let m := s.tMould c t
  let a := addr % 2 ^ 48
  if addr / 2 ^ 54 = s.devId && (!s.isLocal c t addr || (s.cover m a n).isNone) then s.threadExc c t 1 0 a
  else
    let k := s.clu c
    let s := if addr / 2 ^ 54 ≠ s.devId then s
      else s.setClu c { k with
        icache := k.icache.filter (fun e => !covers m a n e.2), dcache := k.dcache.filter (fun e => !covers m a n e.2) }
    s.retire c t id

/-- CCLN (R474). -/
def execCcln (c t : Nat) (s : State) : Out := s.sysIns c t 0x0F 6 fun w s =>
  let addr := s.xreg c t (sRs1 w)
  let n := s.xreg c t (sRs2 w)
  let m := s.tMould c t
  let a := addr % 2 ^ 48
  if addr / 2 ^ 54 = s.devId && (!s.isLocal c t addr || (s.cover m a n).isNone) then s.threadExc c t 1 0 a
  else
    let hit := fun (e : Nat × LineSt) => decide (addr / 2 ^ 54 = s.devId) && e.2.dirty && covers m a n e.2
    let k := s.clu c
    let s := (k.dcache.filter hit).foldl (fun (u : State) e => u.writeMem m e.2.addr e.2.data) s
    let k := s.clu c
    (s.setClu c { k with dcache := k.dcache.map (fun e => if hit e then (e.1, { e.2 with dirty := false }) else e) }).retire c t id

/-- A thread that R467 allows mould m on cluster c. -/
def State.threadFor (s : State) (c m t : Nat) : Bool :=
  t < 16 && (match s.clusterBorrower c with
    | some b => (s.claimer c == some m && t < 8) || (b == m && 8 ≤ t)
    | none => s.claimer c == some m)

/-- A thread is bound and starts (R468): index (none for any free one), entry, argument, ctx_fault. The answer is the code and the index. -/
def State.startThread (s : State) (c m x : Nat) (want : Option Nat) (entry arg : Nat) (cf : Bool) : Nat × Nat × State :=
  let pick := match want with
    | some t => if s.threadFor c m t then some t else none
    | none => (List.range 16).find? (fun t => s.threadFor c m t && s.thrState c t = 0)
  match pick with
  | none => (E.thrRange, 0, s)
  | some t =>
    if s.thrState c t ≠ 0 then (E.thrState, 0, s)
    else if (s.mould m).faulted.contains x then (E.ctxFaulted, 0, s)
    else if !s.mouldLive m then (E.mouldState, 0, s)
    else
      let out := s.rd F.thrStatus_remoteOut c t
      let s := (s.setThread c t ({ ThreadSt.init with pc := entry }.setReg 1 arg)).setReg .thrStatus c t 0
      let s := (((s.wr F.thrStatus_remoteOut out c t).wr F.thrStatus_state 1 c t).wr F.thrStatus_mould m c t).wr F.thrStatus_ctx x c t
      (0, t, (s.setFlag F.thrStatus_ctxFault cf c t).setReg .thrFault c t 0)

/-- TSPAWN (R468, R473). -/
def execTspawn (c t : Nat) (s : State) : Out := s.sysIns c t 0x10 7 fun w s =>
  let r := s.startThread c (s.tMould c t) (s.tCtx c t) none (s.xreg c t (sRs1 w)) (s.xreg c t (sRs2 w)) (s.flag F.thrStatus_ctxFault c t)
  r.2.2.retire c t fun v => (if r.1 = 0 then v.setReg (sRd w) r.2.1 else v).code r.1

/-- PARK (R471, R473). -/
def execPark (dt c t : Nat) (s : State) : Out := (s.pass dt).sysIns c t 0x11 2 fun w s =>
  let ns := s.xreg c t (sRs1 w)
  (s.retire c t (fun v => { v with quantum := 0 })).switchOut c t (.park ns)

/-- TEXIT (R469). -/
def execTexit (c t : Nat) (s : State) : Out := s.sysIns c t 0x12 0 fun _ s => s.freeThread c t

/-- TIME (R473). -/
def execTimeRead (dt c t : Nat) (s : State) : Out := (s.pass dt).sysIns c t 0x13 1 fun w s =>
  s.retire c t (fun v => v.setReg (sRd w) s.clk.ns)

/-- GETST (R473). -/
def execGetst (c t : Nat) (s : State) : Out := s.sysIns c t 0x14 1 fun w s => s.retire c t (fun v => v.setReg (sRd w) v.st)

/-- THREAD_WAKE (R471, R472, R474): the wait of thread t ends. -/
def execThreadWake (dt c t : Nat) (s : State) : Out := s.whenLive fun s =>
  let s := s.pass dt
  let v := s.thread c t
  let m := s.tMould c t
  let x := s.tCtx c t
  let wake := fun (u : State) => (u.setThread c t { v with wait := .none }).wr F.thrStatus_state 1 c t
  if 96 ≤ c || 16 ≤ t then s
  else if s.thrState c t = 4 then (if s.mustPark c t then s else wake s)
  else if s.thrState c t ≠ 3 then s
  else
    match v.wait with
    | .token k n =>
      let first := (List.range t).all fun u => !(s.thrState c u = 3 && s.tMould c u = m && s.tCtx c u = x &&
        (match (s.thread c u).wait with | .token k' n' => k' = k && n' ≤ s.tok c m x k | _ => false))
      if n ≤ s.tok c m x k && first then wake (s.setTok c m x k (s.tok c m x k - n)) else s
    | .park ns => if ns ≤ s.clk.ns then wake s else s
    | .slot => if s.slotFree m then wake s else s
    | _ => s

/-- THREAD_SWITCH_QUANTUM (R471). -/
def execThreadSwitchQuantum (c : Nat) (s : State) : Out := s.whenLive fun s =>
  match s.runningThread c with
  | none => s
  | some t =>
    match s.nextReady c t with
    | some n => if 96 ≤ c || (s.thread c t).quantum < 256 || n = t then s else (s.wr F.thrStatus_state 1 c t).switchTo c n
    | none => s

/-- A base load of n bytes (R470, R475). -/
def State.baseLoad (s : State) (c t rd n : Nat) (sgn : Bool) (addr ecc word : Nat) : State :=
  let m := s.tMould c t
  s.threadAccess c t addr n 1
    (fun a s => s.dataReady c t m a n ecc word fun s =>
      let v := leNat (s.threadRead c m a n)
      s.retire c t (fun th => th.setReg rd (if sgn then ofInt 64 (sext (8 * n) v) else v)))
    (fun s => s.issueRemote c t addr n { ROp.init with kind := 5, len := n, rd := rd, tok := ofBool sgn } 4 0 []
      fun e s => s.threadExc c t 5 e (addr % 2 ^ 48))

/-- A base store of n bytes (R470, R475). -/
def State.baseStore (s : State) (c t n addr value ecc word : Nat) : State :=
  let m := s.tMould c t
  let bs := toLe n value
  s.threadAccess c t addr n 2
    (fun a s => s.dataReady c t m a n ecc word fun s => (s.threadWrite c m a bs).retire c t id)
    (fun s => s.issueRemote c t addr n { ROp.init with kind := 6, len := n } 3 0 bs fun e s => s.storeFails c t e)

/-- THREAD_BASE_INSTRUCTION (R470, R475; the base instructions have no encoding in the manual, so the operands say what the one at the
pc does, log entry 48): kind 0 loads and 1 stores n bytes at addr, 2 writes register rd and moves the pc to next, 3 is a reserved
opcode. The fetch itself may raise an exception or wait for its line. -/
def execThreadBaseInstruction (c t kind rd n : Nat) (sgn : Bool) (addr value next ecc word : Nat) (s : State) : Out :=
  s.whenLive fun s =>
  if !s.mayIssue c t then s
  else
    let s := s.switchTo c t
    let pc := (s.thread c t).pc
    let a := pc % 2 ^ 48
    let m := s.tMould c t
    if s.mustPark c t then s.wr F.thrStatus_state 4 c t
    else if !s.isLocal c t pc then s.threadExc c t 1 0 a
    else if pc % 4 ≠ 0 then s.threadExc c t 2 0 a
    else if !s.inRegion m a 4 1 then s.threadExc c t 1 0 a
    else
      match s.peekWord c t with
      | none =>
        let v := s.thread c t
        if v.missErr ≠ 0 then (s.setThread c t { v with missErr := 0 }).threadExc c t 3 v.missErr a
        else
          let code := (s.access m (a / 64 * 64) 64 0 0).1
          if code ≠ 0 then s.threadExc c t 3 code a
          else ((s.askGranules (.thread c t) false m (a / 64 * 64) 1 64).2).switchOut c t .miss
      | some w =>
        let s := s.fetched c t
        let n := if n = 2 || n = 4 || n = 8 then n else 1
        if w % 128 = 0x5D then
          if 1 ≤ sOp w && sOp w ≤ 0x14 then s else s.threadExc c t 4 0 a
        else if kind = 0 then s.baseLoad c t (rd % 32) n sgn (addr % 2 ^ 64) ecc word
        else if kind = 1 then s.baseStore c t n (addr % 2 ^ 64) value ecc word
        else if kind = 2 then
          let s := if next = pc + 4 then s
            else s.setClu c { s.clu c with predictor := Tab.put (s.clu c).predictor (pc / 4 % 1024) (m + 1) }
          s.retire c t (fun v => { v.setReg (rd % 32) value with pc := (next + 2 ^ 64 - 4) % 2 ^ 64 })
        else s.threadExc c t 4 0 a

/-- THR_START (R468). -/
def execThrStart (s : State) : Out := s.takeCmd 0x001A (fun _ => true) fun r s =>
  let b := r.body
  let m := leAt b 0 1
  let x := leAt b 1 1
  let c := leAt b 2 1
  let t := leAt b 3 1
  s.bodyOk r (b.length == 24 && m < 64 && s.enabled c && leAt b 4 1 < 2 && allZero (slice b 5 3)) fun s =>
    if s.ctxCount m ≤ x && s.ctxCount m ≠ 0 then s.answer r E.ctxRange
    else
      let p := s.startThread c m x (if t = 0xFF then none else some t) (leAt b 8 8) (leAt b 16 8) (leAt b 4 1 == 1)
      p.2.2.answer r p.1

/-- THR_STOP (R469). -/
def execThrStop (s : State) : Out := s.takeCmd 0x001B (fun _ => true) fun r s =>
  let c := leAt r.body 0 1
  let t := leAt r.body 1 1
  s.bodyOk r (r.body.length == 2 && s.enabled c) fun s =>
    if 16 ≤ t then s.answer r E.thrRange
    else (if s.thrState c t = 0 then s else s.freeThread c t).answer r 0

end Sys2Proof.Machine
end

