-- ==== Sys2Proof/Machine/DevOps.lean ====
section
/-! DEFINITION. Sys2Proof/Machine/DevOps.lean: commands for collective groups (R349 to R352, R374), carriers (R436, R437), check-value
scans (R301 to R303) and GDDR7 retraining (R287, R288). -/
namespace Sys2Proof.Machine

/-- GROUP_SETUP (R347, R349, R350): the answer carries the handle and the group's table index. -/
def execGroupSetup (s : State) : Out := s.takeCmd 0x0030 (fun _ => true) fun r s =>
  let code := s.groupAdmit r.body
  if code ≠ 0 then s.answer r code
  else
    match (List.range 256).find? (fun g => s.rd F.collG_state g = 0), s.newOp r.code 8 1 (.group (leAt r.body 0 2)) with
    | some g, some (i, t) => (t.answer r 0 (t.op i).handle (toLe 2 g)).admitGroup r.body (some i)
    | _, _ => s.answer r E.mgmtHandles

/-- GROUP_FREE (R352). -/
def execGroupFree (s : State) : Out := s.takeCmd 0x0031 (fun _ => true) fun r s =>
  s.bodyOk r (r.body.length == 2) fun s =>
    match s.grpOf (leAt r.body 0 2) with
    | none => s.answer r E.collHandle
    | some g => if (s.grp g).cur.isSome then s.answer r E.collBusy else ((s.freeGroup g).flushAborts).answer r 0

/-- GROUP_RESET (R374). -/
def execGroupReset (s : State) : Out := s.takeCmd 0x0032 (fun _ => true) fun r s =>
  s.bodyOk r (r.body.length == 2) fun s =>
    match s.grpOf (leAt r.body 0 2) with
    | none => s.answer r E.collHandle
    | some g =>
      if s.rd F.collG_state g ≠ 3 then s.answer r E.collState
      else
        let v := s.grp g
        let s := s.setGrp g { v with opSeq := 0, hellos := [], helloAt := s.clk.up, setAt := s.clk.up, setup := none }
        (((s.inc F.collG_generation g).wr F.collG_state 1 g).activate g).answer r 0

/-- RADIO_BIND (R436, R437). -/
def execRadioBind (s : State) : Out := s.takeCmd 0x0038 (fun _ => true) fun r s =>
  let code := s.bindCheck r.body
  if code ≠ 0 then s.answer r code else (s.bindCarrier r.body).answer r 0

/-- RADIO_UNBIND (R436). -/
def execRadioUnbind (s : State) : Out := s.takeCmd 0x0039 (fun _ => true) fun r s =>
  let c := leAt r.body 0 1
  s.bodyOk r (r.body.length == 1 && c < 128) fun s =>
    let m := (s.car c).mould
    if !s.flag F.radioCar_bound c then s.answer r E.radioBind
    else if s.mstate m ≠ 2 && s.mstate m ≠ 4 then s.answer r E.mouldState
    else (s.unbindCarrier c).answer r 0

/-- Scans in progress. -/
def State.scans (s : State) : Nat :=
  (s.mgmt.ops.filter (fun e => e.2.state = 1 && (match e.2.body with | .scan _ _ _ _ _ _ _ _ => true | _ => false))).length

/-- SCAN (R301, R302; its body is log entry 46). -/
def execScan (s : State) : Out := s.takeCmd 0x0040 (fun _ => true) fun r s =>
  let b := r.body
  let m := leAt b 0 1
  let poly := leAt b 1 1
  let cont := leAt b 3 1
  let a := leAt b 8 8
  let n := leAt b 16 8
  s.bodyOk r (b.length == 32 && m < 64 && poly < 3 && leAt b 2 1 < 3 && cont < 2) fun s =>
    if !s.mouldLive m then s.answer r E.mouldState
    else if a % 64 ≠ 0 || n % 64 ≠ 0 || n = 0 || 2 ^ 40 < n || 2 ^ 48 < a + n || !s.covered m a n 1 then s.answer r E.scanRange
    else if 4 ≤ s.scans then s.answer r E.scanBusy
    else
      let reg := if cont = 1 then (leAt b 24 8 ^^^ scanOnes poly) &&& scanOnes poly else scanOnes poly
      s.startOp r 4 (cdiv n 65536) (.scan m a n poly (leAt b 2 1) (leAt b 4 4) reg 0) fun _ t => t

/-- The register after the lines of [a, a + 64 k) of mould m under a fold (R302); i is the number of the first line. -/
def State.scanLines (s : State) (m a poly fold seqBase i k reg : Nat) : Nat :=
  (List.range k).foldl (fun c j =>
    let l := a + 64 * j
    let pre := if fold = 1 then toLe 8 l else if fold = 2 then toLe 4 ((seqBase + i + j) % 2 ^ 32) else []
    crcRun (scanPoly poly) c (pre ++ s.readMem m l 64)) reg

/-- One step of a scan (R303): 64 KB of its range, or its end by a read error or with its mould. -/
def State.scanStep (s : State) (i ecc word : Nat) : State :=
  match (s.op i).body with
  | .scan m a n poly fold seqBase reg pos =>
    if !s.mouldLive m then s.endOp i 4 E.scanCancelled
    else
      let k := min 65536 (n - pos)
      let p := s.access m (a + pos) k ecc word
      let s := p.2.setOp i { p.2.op i with done := (p.2.op i).done + 1 }
      if p.1 ≠ 0 then s.endOp i 3 p.1
      else
        let reg := s.scanLines m (a + pos) poly fold seqBase (pos / 64) (k / 64) reg
        if n ≤ pos + k then (s.setOp i { s.op i with res := reg ^^^ scanOnes poly }).endOp i 2 0
        else s.setOp i { s.op i with body := .scan m a n poly fold seqBase reg (pos + k) }
  | _ => s

/-- A retraining runs on the controller group of a channel (R288). -/
def State.retraining (s : State) (ch : Nat) : Bool :=
  s.mgmt.ops.any (fun e => e.2.state = 1 && (match e.2.body with | .retrain d => d / 32 = ch / 32 | _ => false))

/-- GDDR_RETRAIN (R287, R288). -/
def execGddrRetrain (s : State) : Out := s.takeCmd 0x0041 (fun _ => true) fun r s =>
  let ch := leAt r.body 0 1
  s.bodyOk r (r.body.length == 1 && ch < 128) fun s =>
    let m := s.rd F.gddrCh_radioMould ch
    if s.rd F.gddrCh_state ch = 0 then s.answer r E.memChannelDown
    else if (s.flag F.gddrCh_radio ch && s.mstate m ≠ 4 && s.mstate m ≠ 0) || s.retraining ch || s.blockBusy (12 + ch / 32) then s.answer r E.memChannelBusy
    else s.startOp r 3 10 (.retrain ch) fun _ t => t

/-- The device retrains a channel by itself (R288); it waits while 64 operations are in progress or its group retrains. -/
def State.autoRetrain (s : State) (ch : Nat) : State :=
  if s.retraining ch || s.blockBusy (12 + ch / 32) then s else ((s.newOp 0 3 10 (.retrain ch)).map (·.2)).getD s

/-- One step of a retraining (R287): quiesce, eight training steps, resume; `ok` is whether the training holds. -/
def State.retrainStep (s : State) (i : Nat) (ok : Bool) : State :=
  match (s.op i).body with
  | .retrain ch =>
    let k := (s.op i).done + 1
    let s := s.setOp i { s.op i with done := k }
    if k = 1 then s.wr F.gddrCh_state 3 ch
    else if k ≤ 9 && !ok then
      ((((s.wr F.gddrCh_state 4 ch).logWith 0x1004 (srcGddr ch) 0xFF ch).failChannel ch E.memChannelDown).addFault 3 ch (srcGddr ch)).endOp i 3 E.memChannelDown
    else if k < 10 then s
    else (s.wr F.gddrCh_state 2 ch).endOp i 2 0
  | _ => s

end Sys2Proof.Machine
end

