-- ==== Sys2Proof/Machine/Member.lean ====
section
/-! DEFINITION. Sys2Proof/Machine/Member.lean: device states (R555 to R557), hard limits (R561), fences (R563, R564), quorum
certificates (R565 to R571) and how they reach and leave this device. -/
namespace Sys2Proof.Machine

/-- The device changes state, or keeps it under a row of Table 19.1 that has a cause (R555). -/
def State.devState (s : State) (new cause : Nat) : State :=
  let old := s.rd F.healthStatus_state
  ((s.wr F.healthStatus_state new).wr F.membStatus_lastCause cause).logEvt 0x1901 0x00A2 0xFF (old + new * 2 ^ 8 + cause * 2 ^ 16)

/-- RETAINED sets or clears (R562); a change is logged. -/
def State.setRetained (s : State) (until_ : Option Nat) : State :=
  let was := s.flag F.healthStatus_retained
  let s := { s with health := { s.health with retainEnd := until_ } }
  let s := s.setFlag F.healthStatus_retained until_.isSome
  if was = until_.isSome then s else s.logWith 0x1908 0x00A2 0xFF (ofBool until_.isSome)

/-- Leaving the pool (R557): groups abort, remote operations in flight end, and the bypass closes with the state. -/
def State.leavePool (s : State) : State :=
  let s := s.groupIdx.foldl (fun u g => u.abortGroup g E.collMemberLost) s
  s.endAllRemote.flushAborts

/-- CANDIDATE, MEMBER or PROBATION. -/
def inFabric (st : Nat) : Bool := st == 3 || st == 4 || st == 5

/-- A transition of Table 19.1 with what goes with it (R557, R562). -/
def State.goTo (s : State) (new cause : Nat) : State :=
  let old := s.rd F.healthStatus_state
  let s := s.devState new cause
  let s := if (old = 4 || old = 5) && new ≠ 4 && new ≠ 5 then s.setRetained none else s
  let s := if new = 6 || (old = 3 && new ≠ 4) then s.leavePool else s
  { s with health := { s.health with
    candAt := if new = 3 then s.clk.up else s.health.candAt
    cameFrom := if new = 3 then old else s.health.cameFrom
    low300 := 0
    ok650 := none
    seenAt := if inFabric new then s.health.seenAt else none } }

/-- At least one port of each direction is up in every dimension of size above 1, and satisfies p (Table 19.1). -/
def State.portsUp (s : State) (p : Nat → Bool) : Bool :=
  (List.range 3).all (fun k => s.dimSize k ≤ 1 ||
    [4 * k, 4 * k + 2].all (fun b => [b, b + 1].any (fun q => s.jUp q && p q)))

/-- The tamper latches that halt the device (R551). -/
def State.halted (s : State) : Bool := (s.bkp.tamper &&& leAt s.policy 0 1) != 0

/-- The device may enter CANDIDATE: a base is in effect, debug is below level 2, and no tamper latch halts it (R37, R551, R553). -/
def State.mayJoin (s : State) : Bool := s.oper.isSome && s.rd F.dbgStatus_level < 2 && !s.halted

/-- One evaluation of Table 19.1 (R556): the withdrawal rows first, in order, then the others; cert is the cause 0x12 or 0x13 that
an applied certificate gives. -/
def State.evaluate (s : State) (cert : Option Nat) : State :=
  let st := s.rd F.healthStatus_state
  let h := s.health
  let pool := inFabric st
  if pool && s.flag F.hardLimit_rateAlarm then s.goTo 6 0x10
  else if pool && s.flag F.hardLimit_ueRate then s.goTo 6 0x11
  else if pool && cert.isSome then s.goTo 6 (cert.getD 0)
  else if pool && h.seenAt.any (fun t => t + 500000000 ≤ s.clk.up) then s.goTo 6 0x14
  else if pool && 10 ≤ h.low300 && !s.flag F.healthStatus_retained then s.goTo 6 0x15
  else if st = 2 || st = 6 then
    match h.admitAt with
    | none => s
    | some t =>
      if s.portsUp (fun _ => true) && s.mayJoin then ({ s with health := { h with admitAt := none } }).goTo 3 0x02
      else if t + 1000000000 ≤ s.clk.up then ({ s with health := { h with admitAt := none } }).devState st 0x03
      else s
  else if st = 3 then
    if s.portsUp (fun q => s.rd F.portStatus_peerEpoch q = s.rd F.fabEpoch_value) then s.goTo 4 0x04
    else if h.candAt + 10000000000 ≤ s.clk.up then s.goTo h.cameFrom 0x05
    else s
  else if st = 4 then if s.rd F.healthStatus_score < 600 then s.goTo 5 0x06 else s
  else if st = 5 then if h.ok650.any (fun t => t + 60000000000 ≤ s.clk.up) then s.goTo 4 0x07 else s
  else s

/-- The counted events of some kinds in the current second and the w - 1 before it, outside fenced clusters (R558). -/
def State.evSum (s : State) (kinds : List Nat) (w : Nat) : Nat :=
  let now := s.clk.up / 1000000000
  sumNat ((s.health.evs.filter (fun e => kinds.contains e.kind && now < e.sec + w && !(e.cluster < 96 && s.fencedCluster e.cluster))).map
    (·.n))

/-- A hard limit sets (R561). -/
def State.hardSet (s : State) (f : Field) : State :=
  if s.flag f then s
  else ((((s.wr f 1).wr F.healthStatus_hard 1).cnt F.hardLimit_events).count 14 255).alert 2 |>.logFree 0x1905 0x00A2 0xFF

/-- A hard limit no longer holds. -/
def State.hardClear (s : State) (f : Field) : State :=
  let s := s.wr f 0
  s.setFlag F.healthStatus_hard (s.flag F.hardLimit_rateAlarm || s.flag F.hardLimit_ueRate)

/-- A rate-margin alarm has stayed set for more than 1 s in some field (R561). -/
def State.longAlarm (s : State) : Bool :=
  (List.range 4).any (fun f => s.flag F.govStatus_alarm f && (s.fieldSt f).alarmAt + 1000000000 < s.clk.up)

/-- Uncorrectable errors of component 0 in the last 60 s. -/
def State.ueNow (s : State) : Nat := s.evSum [0, 1, 2] 60

/-- The hard limits as they stand now (R561). -/
def State.hardLimits (s : State) : State :=
  let s := if s.longAlarm then s.hardSet F.hardLimit_rateAlarm else s.hardClear F.hardLimit_rateAlarm
  if 2 ≤ s.ueNow then s.hardSet F.hardLimit_ueRate else if s.ueNow ≤ 1 then s.hardClear F.hardLimit_ueRate else s

/-- Set or clear the fence of a cluster. -/
def State.setFence (s : State) (c : Nat) (b : Bool) : State :=
  s.wr F.membFence_fenced (setBit (s.rd F.membFence_fenced (c / 64)) (c % 64) b) (c / 64)

/-- A cluster is failed (R563). -/
def State.failedCluster (s : State) (c : Nat) : Bool :=
  s.enabled c && ((List.range 4).any (fun a => s.flag F.arrStatus_suspect c a) ||
    decide (2 ≤ sumNat ((s.health.evs.filter (fun e => e.kind = 0 && e.cluster = c && s.clk.up / 1000000000 < e.sec + 3600)).map (·.n))))

/-- The contexts with a running segment, a thread or a start request on a cluster. -/
def State.ctxsOn (s : State) (c : Nat) : List (Nat × Nat) :=
  let runs := s.runs.filterMap (fun (k, _, m, x) => if k = c then some (m, x) else none)
  let thr := (List.range 16).filterMap (fun t =>
    if s.rd F.thrStatus_state c t = 0 then none else some (s.rd F.thrStatus_mould c t, s.rd F.thrStatus_ctx c t))
  let q := ((s.clu c).queues.filter (fun e => !e.2.isEmpty)).map (fun e => (e.1 / 16, e.1 % 16))
  (runs ++ thr ++ q).eraseDups

/-- A cluster is fenced (R563, R564): logged, entered in the fault map, and its contexts fault. -/
def State.fence (s : State) (c : Nat) : State :=
  let s := ((s.setFence c true).logWith 0x1906 0x00A2 0xFF c).addFault 4 0 (srcCluster c)
  (s.ctxsOn c).foldl (fun u p => u.faultCtx p.1 p.2 E.membFenced 0x00A2 c) s

/-- At a heartbeat with RETAINED set and a score below 300, every failed cluster is fenced (R563). -/
def State.fenceFailed (s : State) : State :=
  if s.flag F.healthStatus_retained && s.rd F.healthStatus_score < 300 then
    (List.range 96).foldl (fun u c => if u.failedCluster c && !u.fencedCluster c then u.fence c else u) s
  else s

/-- Certificate header (Table 19.4). -/
def certKind (b : Bytes) : Nat := leAt b 6 1
/-- sig_count. -/
def certSigs (b : Bytes) : Nat := leAt b 7 1
/-- epoch. -/
def certEpoch (b : Bytes) : Nat := leAt b 8 4
/-- subject. -/
def certSubject (b : Bytes) : Nat := leAt b 0x30 2
/-- dims. -/
def certDims (b : Bytes) : Nat := leAt b 0x32 2
/-- Devices of the dims field. -/
def certDevs (b : Bytes) : Nat :=
  let d := certDims b
  (d % 16 + 1) * (d / 16 % 16 + 1) * (d / 256 % 16 + 1)
/-- Device d stands in members. -/
def certMember (b : Bytes) (d : Nat) : Bool := bit (leAt b 0x90 128) d
/-- The certificate digest (R566). -/
def certDigest (b : Bytes) : Bytes := digest256 (b.take 272)

/-- Step 1 of the check of a certificate (R567): layout, ranges, reserved fields, length and kind; auth for an AUTH (R569). -/
def certFormat (auth : Bool) (b : Bytes) : Bool :=
  let k := certKind b
  let mem := k == 1 || k == 2
  leAt b 0 4 == 0x43514B49 && leAt b 4 2 == 1 && b.length == 272 + 16240 * certSigs b
    && (if auth then k == 4 else mem || k == 3 || k == 5)
    && (if auth then certEpoch b == 0 && certSubject b == 0 && allZero (slice b 0x40 32)
        else leAt b 0x0C 4 == 0 && certSubject b < 1024 && allZero (slice b 0x60 32))
    && (if mem then certDims b < 4096 && decide (certDevs b ≤ 1024) && leAt b 0x34 2 < 1024
        else certDims b == 0 && leAt b 0x34 2 == 0 && allZero (slice b 0x90 128))
    && leAt b 0x36 2 == 0 && leAt b 0x3C 4 == 0 && leAt b 0x8C 4 == 0
    && (if k = 3 then decide (leAt b 0x38 4 ≤ 604800) else leAt b 0x38 4 == 0)
    && (k == 5 || leAt b 0x80 12 == 0)
    && (List.range (certSigs b)).all (fun i => allZero (slice b (272 + 16240 * i + 8) 8))

/-- The identity public key: that of the vendor certificate (R533, R548). -/
def State.idPub (s : State) : Bytes := ((s.ledBytes 0x2100 80).drop 28).take 48

/-- FAB_TOPO is set. -/
def State.topoSet (s : State) : Bool := s.reg .fabTopo != 0

/-- The certificate's subject_key is the device's own. -/
def State.ownKey (s : State) (b : Bytes) : Bool := slice b 0x40 32 == digest256 s.idPub

/-- The certificate names this device: by its device ID, or while FAB_TOPO is 0 by its key. -/
def State.isSubject (s : State) (b : Bytes) : Bool := if s.topoSet then certSubject b == s.devId else s.ownKey b

/-- Steps 2 and 3 of the check (R567, R568, Table 19.5): 0, or the code of the first failure; 0xFFFF for a certificate that completes
without effect. -/
def State.certRules (s : State) (b : Bytes) : Nat :=
  let k := certKind b
  let own := s.rd F.fabEpoch_value
  let st := s.rd F.healthStatus_state
  let e := certEpoch b
  let subj := s.isSubject b
  if k = 1 || k = 2 then
    if e = own then (if certDigest b = certDigest s.health.lastCert && !s.health.lastCert.isEmpty then 0xFFFF else E.membConflict)
    else if !epochAbove e own then E.membStale
    else if !(inFabric st || ((st = 2 || st = 6) && subj)) then E.membState
    else if k = 1 then
      if certMember b (certSubject b) || (s.topoSet && certDims b ≠ s.reg .fabTopo % 4096) then E.membSubject else 0
    else if !certMember b (certSubject b) || certDevs b ≤ certSubject b then E.membSubject
    else if !subj then 0
    else if !s.ownKey b then E.membSubject
    else if s.rd F.healthStatus_score < 600 || s.flag F.healthStatus_hard then E.membHealth
    else if !s.mayJoin then E.membState
    else 0
  else if e ≠ own then E.membStale
  else if (if k = 3 then st ≠ 4 && st ≠ 5 else st < 2) then E.membState
  else if !subj || !s.ownKey b then E.membSubject
  else 0

/-- The policy in effect (R565): its digest, k, n and key_ids; without a policy slot a single key with role M. -/
def State.quorum (s : State) : Bytes × Nat × Nat × List Bytes :=
  match s.policySlot with
  | some p =>
    let n := leAt p.body 0 1
    (digest256 p.body, leAt p.body 1 1, n, (List.range n).map (fun i => slice p.body (8 + 8 * i) 8))
  | none =>
    (List.replicate 32 0#8, 1, 1,
      ((s.keySlots.filter (fun k => k.valid && k.kind = 1 && bit k.roles 3)).map (fun k => keyId (k.body.take 48))))

/-- Signature entry i of a certificate: its key_id and signature. -/
def certSig (b : Bytes) (i : Nat) : Bytes × Bytes := (slice b (272 + 16240 * i) 8, slice b (272 + 16240 * i + 16) 16224)

/-- Step 4 of the check (R567): the quorum has signed. -/
def State.certQuorum (s : State) (b : Bytes) : Bool :=
  let (d, k, n, ids) := s.quorum
  let c := certSigs b
  let used := (List.range c).map (fun i => (certSig b i).1)
  slice b 0x10 32 == d && decide (k ≤ c) && decide (c ≤ n) && used.eraseDups.length == c
    && (List.range c).all (fun i =>
      let (id, sig) := certSig b i
      ids.contains id && (match s.keyOf 1 id with
        | some key => Config.slhVerify 2 (key.body.take 48) (b.take 272) sig
        | none => false))

/-- A certificate is refused with a code (R567). -/
def State.certRefused (s : State) (code : Nat) : State := (s.cnt F.membStatus_refused).logWith 0x1903 0x00A2 0xFF code

/-- The payload of a MEM_CERT fragment (Table 19.6): at most 4,096 bytes of the certificate from an offset. -/
def certPiece (b : Bytes) (i : Nat) : Bytes := toBe 4 b.length ++ toBe 4 (4096 * i) ++ slice b (4096 * i) (min 4096 (b.length - 4096 * i))

/-- The certificate held goes out on port p (R571). -/
def State.sendCert (s : State) (p : Nat) : State :=
  let b := s.health.lastCert
  if b.length ≤ 272 then s else (List.range (cdiv b.length 4096)).foldl (fun u i => u.sendToPeer p 0x50 i (certPiece b i)) s

/-- Every group that lists a device absent from members aborts (R373, Table 19.5). -/
def State.abortAbsent (s : State) (b : Bytes) : State :=
  (s.groupIdx.foldl (fun (u : State) g =>
    if (u.grpEnt g).members.any (fun d => !certMember b d) then u.abortGroup g E.collMemberLost else u) s).flushAborts

/-- An ADMIT at its subject: FAB_TOPO, the streams and the ports (Table 19.5, R305, R306). -/
def State.admitSelf (s : State) (b : Bytes) : State :=
  let d := certSubject b
  let x := certDims b % 16 + 1
  let y := certDims b / 16 % 16 + 1
  let s := s.setReg .fabTopo 0 0 (certDims b + d * 2 ^ 16 + d % x * 2 ^ 32 + d / x % y * 2 ^ 36 + d / (x * y) * 2 ^ 40)
  let s := { s with fab := { s.fab with tx := [], rx := [] }, health := { s.health with admitAt := some s.clk.up } }
  (List.range 12).foldl (fun (u : State) p =>
    if u.rd F.portStatus_state p = 4 || u.blockBusy p then u else (u.portLeaves p 0).setPort p (u.port p).trained) s

/-- The effects of an EXPEL or ADMIT (Table 19.5) once its MEMBERSHIP record stands in the ledger. -/
def State.applyMembers (s : State) (b : Bytes) : State :=
  let e := certEpoch b
  let subj := s.isSubject b
  let older := (List.range 12).filter (fun p => s.jUp p && s.rd F.portStatus_peerEpoch p ≠ e && epochAbove e (s.rd F.portStatus_peerEpoch p))
  let s := (s.wr F.fabEpoch_value e).wr F.timeRoot_rootId (leAt b 0x34 2)
  let seen := s.rd F.membStatus_seenEpoch
  let later := seen ≠ 0 && epochAbove seen e
  let s := if later then s else s.wr F.membStatus_seenEpoch 0
  let s := { s with health := { s.health with
    lastCert := b, seenAt := if later then s.health.seenAt else none, askedAt := if later then s.health.askedAt else [] } }
  let s := s.abortAbsent b
  let s := if certKind b = 2 then
      (if subj then s.admitSelf b
        else { s with fab := { s.fab with
          tx := s.fab.tx.filter (fun t => t.1 / 64 ≠ certSubject b), rx := s.fab.rx.filter (fun t => t.1 / 64 ≠ certSubject b) } })
    else s
  let s := older.foldl (fun (u : State) p => u.sendCert p) s.showIdentity
  let cause := if certKind b = 1 && subj then some 0x12 else if !certMember b s.devId then some 0x13 else none
  s.evaluate cause

/-- A RETAIN is applied (R562). -/
def State.applyRetain (s : State) (b : Bytes) : State :=
  let sec := leAt b 0x38 4
  s.setRetained (if sec = 0 then none else some (s.clk.up + sec * 1000000000))

/-- A FENCE_LIFT is applied (R564). -/
def State.applyLift (s : State) (b : Bytes) : State :=
  (bitList 96 (leAt b 0x80 12)).foldl (fun (u : State) c =>
    if u.fencedCluster c then ((u.setFence c false).addFault 5 0 (srcCluster c)).logWith 0x1907 0x00A2 0xFF c else u) s

/-- The apply step of a certificate: steps 2 and 3 are checked again, the record is written first, and its effects follow (R567,
R568). The answer holds the code; none while the record finds no room in the ledger. -/
def State.applyCert (s : State) (b : Bytes) : Option (Nat × State) :=
  let code := s.certRules b
  if code = 0xFFFF then some (0, s)
  else if code ≠ 0 then some (code, s.certRefused code)
  else
    let note := fun (u : State) =>
      ({ u with health := { u.health with applied := certDigest b :: u.health.applied } } : State).logFree 0x1902 0x00A2 0xFF
    if certKind b = 3 then some (0, note (s.applyRetain b))
    else if certKind b = 5 then some (0, note (s.applyLift b))
    else (s.append 0x40 (b.take 272 ++ certDigest b)).map (fun t => (0, note (t.applyMembers b)))

/-- Steps of the check of a certificate (R567). -/
def certSteps (b : Bytes) : Nat := 48 * certSigs b + 1

/-- CERT_APPLY (R567). -/
def execCertApply (s : State) : Out := s.takeCmd 0x0060 (fun _ => true) fun r s =>
  s.bodyOk r (decide (272 ≤ r.body.length)) fun s => s.startOp r 6 (certSteps r.body) (.cert r.body) fun _ t => t

/-- One step of a certificate's operation: the first makes checks 1 to 3, the one before the last the signatures, the last applies. -/
def State.certStep (s : State) (i : Nat) (b : Bytes) : State :=
  let k := (s.op i).done + 1
  let adv := fun (u : State) => u.setOp i { u.op i with done := k }
  let fail := fun (u : State) (code : Nat) => ((u.certRefused code).endOp i 3 code)
  let first := if certFormat false b then s.certRules b else E.membCertFormat
  if k = 1 && first = 0xFFFF then (adv s).endOp i 2 0
  else if k = 1 && first ≠ 0 then fail (adv s) first
  else if k < certSteps b then
    if k = 48 * certSigs b && !s.certQuorum b then fail (adv s) E.membQuorum else adv s
  else if certSigs b = 0 then fail (adv s) E.membQuorum
  else
    match s.applyCert b with
    | none => s.ledHold (.op i)
    | some (0, t) => ((adv t).ledRelease (.op i)).endOp i 2 0
    | some (code, t) => ((adv t).ledRelease (.op i)).endOp i 3 code

/-- A certificate is being verified by an operation. -/
def State.certRuns (s : State) (d : Bytes) : Bool :=
  s.mgmt.ops.any (fun e => e.2.state = 1 && (match e.2.body with | .cert b => certDigest b = d | _ => false))

/-- The bytes of a reassembled certificate, once all are there. -/
def assemble (len : Nat) (have_ : List (Nat × Bytes)) : Option Bytes :=
  let bs := ((sortBy (fun a b => a.1 ≤ b.1) have_).foldl (fun (o : Option Bytes) (p : Nat × Bytes) =>
    o.bind (fun l => if p.1 = l.length then some (l ++ p.2) else none)) (some []))
  bs.bind (fun l => if l.length = len then some l else none)

/-- MEM_CERT (R571): a fragment of a certificate from the peer of port p. -/
def execMemCert (p : Nat) (s : State) : Out := s.whenLive fun s => s.frameAt p (· = 0x50) fun f s =>
  let pay := fPay f
  let len := beAt pay 0 4
  let off := beAt pay 4 4
  let data := pay.drop 8
  if !headerOk f 3 || fHeat f ≠ 0 || pay.length < 9 || 4104 < pay.length || len < 272 || 272 + 7 * 16240 < len || off % 4096 ≠ 0
      || len < off + data.length || fSeq f ≠ off / 4096 || (data.length ≠ 4096 && off + data.length ≠ len) then s.malformed p
  else
    let old := ((s.health.frags.find? (fun g => g.port = p && g.len = len)).getD ⟨p, len, [], s.clk.up⟩)
    let have_ := if old.have_.any (fun e => e.1 = off) then old.have_ else old.have_ ++ [(off, data)]
    let rest := s.health.frags.filter (fun g => g.port ≠ p)
    match assemble len have_ with
    | none => { s with health := { s.health with frags := rest ++ [{ old with have_ := have_ }] } }
    | some b =>
      let s := { s with health := { s.health with frags := rest } }
      if s.certRuns (certDigest b) || s.health.applied.contains (certDigest b) then s
      else s.inner 6 (certSteps b) (.cert b)

/-- MEM_CERT_REQ (R571): answered with the certificate of that epoch, when it is held. -/
def execMemCertReq (p : Nat) (s : State) : Out := s.whenLive fun s => s.frameAt p (· = 0x51) fun f s =>
  let pay := fPay f
  if !headerOk f 3 || fHeat f ≠ 0 || fSeq f ≠ 0 || pay.length ≠ 8 || beAt pay 4 4 ≠ 0 then s.malformed p
  else if 272 < s.health.lastCert.length && certEpoch s.health.lastCert = beAt pay 0 4 && p < 12 then s.sendCert p
  else s

/-- MEM_CERT_REASSEMBLY_TIMEOUT (R571): the fragments of port p that began 100 ms ago are discarded. -/
def execMemCertReassemblyTimeout (dt p : Nat) (s : State) : Out := s.whenLive fun s =>
  let s := s.pass dt
  { s with health := { s.health with frags := s.health.frags.filter (fun g => !(g.port = p && g.firstAt + 100000000 ≤ s.clk.up)) } }

/-- EPOCH_GRACE_EXPIRY (R570): 500 ms after a newer epoch was seen, without a certificate of it applied. -/
def execEpochGraceExpiry (dt : Nat) (s : State) : Out := s.whenLive fun s =>
  let s := s.pass dt
  if inFabric (s.rd F.healthStatus_state) && s.health.seenAt.any (fun t => t + 500000000 ≤ s.clk.up) then s.goTo 6 0x14 else s

/-- ADMIT_PORT_TIMEOUT (Table 19.1): 1 s after an ADMIT was applied without the ports up. -/
def execAdmitPortTimeout (dt : Nat) (s : State) : Out := s.whenLive fun s =>
  let s := s.pass dt
  let st := s.rd F.healthStatus_state
  if (st = 2 || st = 6) && s.health.admitAt.any (fun t => t + 1000000000 ≤ s.clk.up) then
    (if s.portsUp (fun _ => true) && s.mayJoin then s.evaluate none
      else ({ s with health := { s.health with admitAt := none } } : State).devState st 0x03)
  else s

/-- CANDIDATE_TIMEOUT (Table 19.1): 10 s after CANDIDATE was entered. -/
def execCandidateTimeout (dt : Nat) (s : State) : Out := s.whenLive fun s =>
  let s := s.pass dt
  if s.rd F.healthStatus_state = 3 && s.health.candAt + 10000000000 ≤ s.clk.up then s.evaluate none else s

/-- RETAIN_EXPIRY (R562). -/
def execRetainExpiry (dt : Nat) (s : State) : Out := s.whenLive fun s =>
  let s := s.pass dt
  if s.health.retainEnd.any (fun t => t ≤ s.clk.up) then s.setRetained none else s

/-- HARD_LIMIT_RATE (R561): the alarm of a field has stayed set for more than 1 s. -/
def execHardLimitRate (dt : Nat) (s : State) : Out := s.whenLive fun s =>
  let s := s.pass dt
  if s.longAlarm && !s.flag F.hardLimit_rateAlarm then
    let s := s.hardSet F.hardLimit_rateAlarm
    if inFabric (s.rd F.healthStatus_state) then s.goTo 6 0x10 else s
  else s

/-- UE_LIMIT_CLEAR (R561): 60 s with no more than one uncorrectable error. -/
def execUeLimitClear (dt : Nat) (s : State) : Out := s.whenLive fun s =>
  let s := s.pass dt
  if s.flag F.hardLimit_ueRate && s.ueNow ≤ 1 then s.hardClear F.hardLimit_ueRate else s

/-- QUARANTINE_END (R574, R575): subject k of QUAR_s, or management source k - 64. -/
def execQuarantineEnd (dt k : Nat) (s : State) : Out := s.whenLive fun s =>
  let s := s.pass dt
  if k < 52 then
    let q := s.quar k
    if !q.active || s.clk.up < q.until_ then s
    else
      let s := ((s.setQuar k (q.end_ s.clk.up)).wr F.quar_active 0 k).quarLog 0x190A k (quarSeconds q.level)
      if k < 12 && s.rd F.portStatus_state k = 4 then (s.setPort k (s.port k).trained).wr F.portStatus_state 0 k else s
  else
    match s.health.srcs[k - 64]? with
    | none => s
    | some v =>
      if k < 64 || !v.q.active || s.clk.up < v.q.until_ then s
      else
        let s := s.setSrcQuar v.addr (v.q.end_ s.clk.up)
        (s.wr F.mgmtQuar_active s.srcsActive).quarLog 0x190A 0xFFFF (quarSeconds v.q.level)

end Sys2Proof.Machine
end

