-- ==== Sys2Proof/Machine/Health.lean ====
section
/-! DEFINITION. Sys2Proof/Machine/Health.lean: the heartbeat (R397) and what hangs on it: the health score (R558, R559), reports
(R572), hot banks (R289), channel retries (R288), throttle and fettle (R515, R520, R296, R499), the budget of core 0 (R490); and the
records the ledger keeps of it. -/
namespace Sys2Proof.Machine

/-- The penalties p[0] to p[9] (Table 19.2). -/
def State.penalties (s : State) : List Nat :=
  let hour := fun (k : List Nat) => s.evSum k 3600
  let tj := sext 8 (s.rd F.thermStatus_tjMax)
  let ports := if inFabric (s.rd F.healthStatus_state) then
      ((List.range 12).filter (fun p => s.dimSize (portDim p) > 1 && s.rd F.portStatus_state p ≠ 2)).length else 0
  let chans := ((List.range 128).filter (fun n => s.rd F.gddrCh_state n = 4)).length
  let cxl := ((List.range 4).filter (fun k => s.flag F.cxlDev_present k && !s.flag F.cxlDev_linkUp k)).length
  [ min 400 (100 * hour [0, 1, 2]),
    min 100 (hour [3] / 64),
    min 300 (50 * s.evSum [4] 86400 + s.evSum [5] 86400),
    min 300 (5 * hour [6] + 100 * hour [7]),
    min 300 (10 * ((List.range 96).filter s.fencedCluster).length),
    min 200 (20 * hour [8] + hour [9] / 10),
    min 200 (10 * (tj - 95).toNat),
    min 300 (25 * ports + 10 * hour [10]),
    min 200 (20 * chans + 50 * cxl),
    min 300 (100 * hour [11] + 50 * hour [12]) ]

/-- The score and its registers (R558, R559), and what Table 19.1 counts over heartbeats. -/
def State.score (s : State) : State :=
  let p := s.penalties
  let v := 1000 - sumNat p
  let s := ((s.wr F.healthStatus_score v).setFlag F.healthStatus_watch (decide (v < 800)))
  let s := (List.range 3).foldl (fun (u : State) i =>
    ((((u.wr F.healthPen_penA (p.getD (4 * i) 0) i).wr F.healthPen_penB (p.getD (4 * i + 1) 0) i).wr F.healthPen_penC
      (p.getD (4 * i + 2) 0) i).wr F.healthPen_penD (p.getD (4 * i + 3) 0) i)) s
  let now := s.clk.up / 1000000000
  let h := s.health
  let low := match h.lows.head? with
    | some (t, w) => if t = now then (now, min w v) :: h.lows.drop 1 else (now, v) :: h.lows
    | none => [(now, v)]
  { s with health := { h with
    evs := h.evs.filter (fun e => now < e.sec + 86400)
    lows := low.filter (fun e => now < e.1 + 3600)
    low300 := if v < 300 && !s.flag F.healthStatus_retained then h.low300 + 1 else 0
    ok650 := if 650 ≤ v then h.ok650.or (some s.clk.up) else none } }

/-- The heartbeat report (Table 19.7). -/
def State.makeReport (s : State) : Bytes :=
  let st := s.rd F.healthStatus_state + 128 * s.rd F.healthStatus_retained
  let fl := s.rd F.healthStatus_watch + 2 * s.rd F.healthStatus_hard + 4 * ofBool (s.rd F.membStatus_seenEpoch ≠ 0)
  let ports := fun (k : Nat) => sumNat ((List.range 12).map (fun p => if s.rd F.portStatus_state p = k then 2 ^ p else 0))
  toLe 8 s.clk.ns ++ toLe 2 s.devId ++ toLe 1 st ++ toLe 1 fl ++ toLe 4 (s.rd F.fabEpoch_value) ++ toLe 4 (s.rd F.membStatus_seenEpoch)
    ++ toLe 2 (s.rd F.healthStatus_score) ++ toLe 1 (s.rd F.membStatus_lastCause) ++ toLe 1 0
    ++ s.penalties.flatMap (toLe 2) ++ toLe 2 (ports 2) ++ toLe 2 (ports 4)
    ++ toLe 12 (s.rd F.membFence_fenced 0 + s.rd F.membFence_fenced 1 * 2 ^ 64) ++ toLe 4 0

/-- Bytes of an event record (Table 16.9). -/
def LogRec.bytes (r : LogRec) : Bytes :=
  toLe 8 r.time ++ toLe 2 r.code ++ toLe 2 r.source ++ toLe 1 r.mould ++ toLe 1 0 ++ toLe 2 r.heat ++ toLe 16 r.detail

/-- The event records from a sequence number on, at most n, with the sequence of the first (R494). -/
def State.logFrom (s : State) (seq n : Nat) : Nat × List LogRec :=
  let first := max seq (s.log.seq - s.log.recs.length)
  (first, ((s.log.recs.take (s.log.seq - first)).reverse).take n)

/-- The notifications of a heartbeat to one session (R494): its report, and the event records since the one before, at most 40. -/
def State.beatNotes (s : State) (z : Nat) : State :=
  match s.session z with
  | none => s
  | some y =>
    let s := if bit y.mask 0 then s.notify y 1 s.health.report else s
    let (_, recs) := s.logFrom y.sentTo 40
    let y := (s.session z).getD y
    let s := if bit y.mask 1 && !recs.isEmpty then s.notify y 2 (recs.flatMap LogRec.bytes) else s
    let y := (s.session z).getD y
    s.setSession { y with sentTo := s.log.seq }

/-- The hot spot of each mould in the heartbeat that ends (R289). -/
def State.hotBanks (s : State) : State :=
  let s := (List.range 64).foldl (fun (u : State) m =>
    let mine := s.tier.waits.filter (fun e => e.1 / 4096 = m)
    let best := mine.foldl (fun (o : Option (Nat × Nat)) e => match o with
      | none => some e
      | some b => if b.2 < e.2 then some e else some b) none
    match best with
    | none => u.setReg .hotBank m 0 0xFF
    | some (k, w) => u.setReg .hotBank m 0 (k % 4096 / 16 + (if k % 4096 / 16 < 128 then k % 16 * 2 ^ 8 else 0) + min w (2 ^ 32 - 1) * 2 ^ 16)) s
  { s with tier := { s.tier with waits := [] } }

/-- The CRC retries of the heartbeat (R288): shown, and a channel with more than 16 retrains or, in a radio envelope, alerts. -/
def State.channelRetries (s : State) : State :=
  let old := s.tier.retries
  let s := { s with tier := { s.tier with retries := [] } }
  (List.range 128).foldl (fun (u : State) ch =>
    let n := Tab.get 0 old ch
    let u := u.wr F.gddrCh_crcRetries (min 255 n) ch
    if n ≤ 16 then u
    else if u.flag F.gddrCh_radio ch then (u.alert 1).logWith 0x1005 (srcGddr ch) (u.rd F.gddrCh_radioMould ch) ch
    else u.autoRetrain ch) s

/-- Minimum steps of a kind in a heartbeat (Table 16.7). -/
def minSteps (kind : Nat) : Nat := if kind = 6 then 16 else if kind = 8 then 0 else 8

/-- The kind whose minimum and priority an operation has: a pour that tears its mould down runs as a quench (R69), and the
signature steps of a staging as kind 6 (R522). -/
def OpSt.prio (o : OpSt) : Nat := match o.body with
  | .quench _ _ _ _ _ _ => 1
  | .stage t => if o.done + 1 < o.total && o.total ≤ o.done + 1 + (if t = 0 then 96 else 144) then 6 else 7
  | _ => o.kind

/-- A new heartbeat's budget of core 0 (R490): operations left below their minimum come first within their kind. -/
def State.newBudget (s : State) : State :=
  let left := (s.mgmt.ops.filter (fun e => e.2.state = 1 && e.2.kind ≠ 9 && e.2.hb < minSteps e.2.prio)).map (·.1)
  let ops := s.mgmt.ops.map (fun e => (e.1, { e.2 with hb := 0 }))
  { s with mgmt := { s.mgmt with ops := ops, starved := left, hbSteps := 0, hbCmds := 0 } }

/-- A fettle operation of a kind of scrub runs: 0 SRAM, 1 ledger. -/
def State.scrubRuns (s : State) (kind : Nat) : Bool :=
  s.mgmt.ops.any (fun e => e.2.state = 1 && (match e.2.body with | .scrub k _ => k = kind | _ => false))

/-- A pass of scrub begins as an operation that no command started (R489). -/
def State.beginScrub (s : State) (kind total : Nat) : State :=
  match s.newOp 0 9 total (.scrub kind 0) with
  | some (i, t) => t.setOp i { t.op i with res := t.clk.up }
  | none => s

/-- The period of an SRAM pass in ns (Table 10.9). -/
def State.sramPeriod (s : State) : Nat := max 1 (s.rd F.scrubCtrl_sramPeriodS) * 1000000000

/-- Scrub passes begin where none runs: an SRAM pass once per period, a ledger pass after the one before (R296, R499). -/
def State.startScrub (s : State) : State :=
  let s := if s.flag F.scrubCtrl_sramEn && !s.scrubRuns 0 && (s.tier.sramAt = 0 || s.tier.sramAt - 1 + s.sramPeriod ≤ s.clk.up) then
      ({ s with tier := { s.tier with sramAt := s.clk.up + 1 } } : State).beginScrub 0 ((List.range 96).filter s.enabled).length else s
  if s.scrubRuns 1 then s else s.beginScrub 1 512

/-- Causes of ALERT_N that still hold set their bits again (R595). -/
def State.realert (s : State) : State :=
  let s := if s.flag F.healthStatus_hard then s.alert 2 else s
  let s := if s.rst.thermLow.isEmpty then s else s.alert 3
  let s := if s.rst.vinOut then s.alert 4 else s
  if 4 ≤ s.rst.pmbTries then s.alert 5 else s

/-- What core 2 does at a heartbeat: limits, score, fences, transitions, report, notifications. -/
def State.healthBeat (s : State) : State :=
  let s := (s.hardLimits.score.fenceFailed).evaluate none
  let s := { s with health := { s.health with report := s.makeReport } }
  (s.mgmt.sessions.map (fun (y : SessSt) => y.id)).foldl (fun u z => u.beatNotes z) s

/-- The log's count for the heartbeat that ends (R493). -/
def State.logBeat (s : State) : State :=
  let n := s.log.hbDropped
  let s := { s with log := { s.log with hbCount := 0, hbDropped := 0 } }
  if n = 0 then s else s.logEvt 0x16FF 0x00A3 0xFF (n % 2 ^ 32)

/-- HEARTBEAT (R397): the time unit has just counted past a multiple of 1,000,000 ns (its last two ticks at most), and this
instant has not ticked yet. -/
def execHeartbeat (dt : Nat) (s : State) : Out := s.whenLive fun s =>
  let s := s.pass dt
  if 2 ≤ s.clk.ns % 1000000 || s.clk.beats = s.clk.ns / 1000000 + 1 then s
  else
    let s := { s with clk := { s.clk with beats := s.clk.ns / 1000000 + 1 }, xingLogged := [], egr := { s.egr with logged := [] } }
    let s := s.hotBanks.channelRetries.logBeat
    let s := if s.rst.powLow.isEmpty then s else s.cnt F.pwrAlarm_powerCap
    let s := if s.coreUp 2 then s.healthBeat else s
    let s := if s.coreUp 3 then s.setThrottle.startCompact else s
    (if s.coreUp 0 then s.startScrub else s).realert.newBudget

/-- The body of a HEALTH record (Table 19.8). -/
def State.healthBody (s : State) : Bytes :=
  let hour := fun (k : List Nat) => s.evSum k 3600
  toLe 8 s.opSeconds ++ slice s.health.report 0 64 ++ toLe 2 ((s.health.lows.map (·.2)).foldl min 1000) ++ toLe 2 (min 0xFFFF (hour [14]))
    ++ toLe 4 (hour [9]) ++ toLe 4 (hour [0]) ++ toLe 4 (hour [1]) ++ toLe 4 (hour [2]) ++ toLe 4 (hour [4]) ++ toLe 4 (hour [13])
    ++ toLe 28 0

/-- HEALTH_RECORD_TIMER (R514, R520): every 3,600 s, or 14,400 s in stage 1. -/
def execHealthRecordTimer (dt : Nat) (s : State) : Out := s.whenLive fun s =>
  let s := s.pass dt
  let t := if s.throttle = 1 then 14400000000000 else 3600000000000
  if s.clk.up < s.led.healthAt + t || !s.coreUp 3 then s
  else { s with led := { s.led with healthAt := s.clk.up } }.appendSoft 0x20 s.healthBody

/-- The summary interval in s (Table 17.18, R520). -/
def State.summaryS (s : State) : Nat :=
  (if s.throttle = 1 then 4 else 1) * max 10 (min 3600 (s.rd F.ledgerCtrl_summaryS))

/-- The 28 most frequent codes with their counts (Table 17.8). -/
def State.topCodes (s : State) : List (Nat × Nat) :=
  ((sortBy (fun a b => b.2 < a.2 || (a.2 = b.2 && a.1 ≤ b.1)) s.log.codes).take 28)

/-- The body of a SUMMARY record (Table 17.8). -/
def State.summaryBody (s : State) : Bytes :=
  let n := s.log.seq - s.led.sumSeq
  let last := ((s.log.recs.take (min 3 n)).reverse).flatMap LogRec.bytes
  toLe 8 s.led.sumNs ++ toLe 8 s.clk.ns ++ toLe 8 s.led.sumSeq ++ toLe 4 n ++ toLe 4 s.log.dropped
    ++ slice (s.topCodes.flatMap (fun e => toLe 2 e.1 ++ toLe 2 (min 0xFFFF e.2))) 0 112 ++ slice last 0 96 ++ toLe 16 0

/-- SUMMARY_INTERVAL_END (R514, R520). -/
def execSummaryIntervalEnd (dt : Nat) (s : State) : Out := s.whenLive fun s =>
  let s := s.pass dt
  if s.clk.up < s.led.sumAt + s.summaryS * 1000000000 || !s.coreUp 3 then s
  else
    let s := s.appendSoft 0x21 s.summaryBody
    { s with
      led := { s.led with sumAt := s.clk.up, sumNs := s.clk.ns, sumSeq := s.log.seq }
      log := { s.log with codes := [], dropped := 0 } }

/-- HEALTH_READ (R572). -/
def execHealthRead (s : State) : Out := s.takeCmd 0x0061 (fun _ => true) fun r s =>
  s.bodyOk r (r.body.length == 0) fun s =>
    let rec_ := ((s.latestOf 0x20).map (·.body)).getD []
    s.answer r 0 0 (slice s.health.report 0 64 ++ slice rec_ 0 128)

end Sys2Proof.Machine
end

