-- ==== Sys2Proof/Machine/PourOp.lean ====
section
/-! DEFINITION. Sys2Proof/Machine/PourOp.lean: pours, step by step (R33 to R43, R65 to R73, R535, R541). -/
namespace Sys2Proof.Machine

/-- The key that must have signed a pattern (R42): the Irkor key for a vendor base, else an enrolled operator pattern key. -/
def State.patKey (s : State) (bs : Bytes) : Option Bytes :=
  let id := slice bs (patLen bs - sigBlockLen (patKindOf bs) + 8) 8
  if patKindOf bs = 1 then (if id = keyId Config.irkorKey then some Config.irkorKey else none)
  else (s.keyOf 2 id).map (fun k => k.body.take 48)

/-- The part of phase B that stands before the signature steps: digest, algorithm, key. -/
def phaseB0 (bs : Bytes) (key : Option Bytes) : Option PatErr :=
  let k := patKindOf bs
  let at_ := patLen bs - sigBlockLen k
  firstErr [
    chk (slice bs (at_ + 0x10) 32 == patDigest bs) E.patDigest 0 0 (at_ + 0x10),
    chk (leAt bs (at_ + 4) 2 == if k = 1 then 1 else 2) E.patSignature 0 0 (at_ + 4),
    chk key.isSome E.patSignature 0 0 (at_ + 8)]

/-- The key of a pattern has been revoked since phase B began (R541). -/
def State.keyGone (s : State) (bs : Bytes) : Option PatErr :=
  chk (s.patKey bs).isSome E.patSignature 0 0 (patLen bs - sigBlockLen (patKindOf bs) + 8)

/-- A rejection is recorded (R65, Table 2.11). -/
def State.reject (s : State) (m : Nat) (e : PatErr) : State :=
  ((s.wr F.patStatus_lastReject e.code).wr F.patStatus_lastRejectSection e.sec).logEvt e.code 0x00A0 m
    (e.sec % 2 ^ 16 + e.idx % 2 ^ 32 * 2 ^ 16 + e.off % 2 ^ 32 * 2 ^ 48)

/-- Measurement register n as bytes (Table 18.12). -/
def State.measBytes (s : State) (n : Nat) : Bytes := (List.range 4).flatMap (fun w => toLe 8 (s.rd F.meas_value n w))

/-- Extend measurement register n (R534). -/
def State.extendMeas (s : State) (n : Nat) (v : Bytes) : State :=
  let d := digest256 (s.measBytes n ++ v)
  (List.range 4).foldl (fun (u : State) w => u.wr F.meas_value (leAt d (8 * w) 8) n w) s

/-- A pattern as it stands in effect. -/
def patInEffect (bs : Bytes) : PatInEffect := ⟨patDigest bs, patSecs bs, leAt bs 0x10 8, leAt bs 0x18 4⟩

/-- The section of phase D that step k (from 0) belongs to, and the step within it. -/
def stepSec : List PSec → Nat → Option (PSec × Nat)
  | [], _ => none
  | e :: r, k => if k < secSteps e then some (e, k) else stepSec r (k - secSteps e)

/-- The error that step j of section e reports: one whose entry begins in the section's first j + 1 pieces of 64 KB. -/
def errBy (e : PSec) (j : Nat) (o : Option PatErr) : Option PatErr :=
  o.bind (fun x => if min (secSteps e - 1) ((x.off - e.off) / 65536) ≤ j then some x else none)

/-- The mould number of an event of a pour: 0xFF where the pattern names none. -/
def patMouldOr (bs : Bytes) : Nat := let m := patMouldNo bs; if m < 64 then m else 0xFF

/-- Phase C has passed: the mould enters POURING, its heat rises and its clusters are reserved (R69). -/
def State.enterPouring (s : State) (i : Nat) (p : PourSt) : State :=
  let m := patMouldNo p.data
  let h := s.heat m
  let s := s.setMould m { s.mould m with claimed := claimsOf p.data, digest := patDigest p.data }
  let s := (s.raiseHeat m).moveMould m 1 h
  s.setOp i { s.op i with body := .pour { p with mould := m, poured := true } }

/-- What phase D does when it has checked a section whole: group quotas admitted, loan offers bound (Table 2.10). -/
def State.sectionDone (s : State) (m : Nat) (bs : Bytes) (e : PSec) : State :=
  if e.ty = 0x33 then s.setMould m { s.mould m with bound := bindsOf bs }
  else if e.ty = 0x34 then (entriesOf (secBody bs e) 0 e.size).foldl (fun (u : State) g => u.admitGroup g none) s
  else s

/-- The reproducibility key of a mould (Table 8.1) into its registers, with its arithmetic hash (R64, R228, R229). -/
def State.setRepro (s : State) (m : Nat) : State :=
  let h := arithHashOf (s.arithBody m)
  ((s.wr F.arithHash_hash h m).setReg .reproKeyLo m 0 (0xB1 + 0x01 * 2 ^ 8 + h % 2 ^ 48 * 2 ^ 16)).setReg .reproKeyHi m 0
    (h / 2 ^ 48 + s.fwLib * 2 ^ 16)

/-- The commit step of a mould pour (R68, R251, R535): the counter advances, then the mould enters READY. -/
def State.commitMould (s : State) (bs : Bytes) : State :=
  let m := patMouldNo bs
  let b := match patSec bs 0x30 with | some e => secBody bs e | none => []
  let s := s.advanceOrLog 2 (leAt bs 0x18 4)
  let s := s.setMould m { s.mould m with secs := patSecs bs, runSeq := [], faulted := [] }
  let s := (s.wr F.mouldStatus_kind (leAt b 1 1) m).wr F.mouldStatus_contextCount (leAt b 2 1) m
  let s := (List.range (leAt b 2 1)).foldl (fun (u : State) x => u.wr F.ctxStatus_baseHeat (u.heat m) m x) s
  (s.setRepro m).moveMould m 2 (s.heat m)

/-- One step of a mould pour (R65, R67, R68). -/
def State.mouldPourStep (s : State) (i : Nat) (p : PourSt) : State :=
  let bs := p.data
  let m := patMouldNo bs
  let k := (s.op i).done + 1
  let nA := 1 + cdiv (patLen bs) 65536
  let nB := stepsAB bs
  let nD := nB + stepsD bs
  let cs := claimsOf bs
  let adv := fun (u : State) => u.setOp i { u.op i with done := k }
  let try_ := fun (o : Option PatErr) (next : State → State) => match o with
    | some e => (s.reject (patMouldOr bs) e).stopPour i 3 e.code
    | none => next (adv s)
  if k = 1 then
    try_ (firstErr [phaseA1 bs bs.length, chk (patLen bs = bs.length) E.patTooLarge 0 0 0xC])
      (fun u => u.setOp i { u.op i with total := mouldSteps bs })
  else if k < nA then adv s
  else if k = nA then try_ (phaseA2 bs) id
  else if k = nA + 1 then try_ (phaseB0 bs (s.patKey bs)) id
  else if k < nB then try_ (s.keyGone bs) id
  else if k = nB then
    try_ (firstErr [phaseB bs (s.patKey bs), mapMissing bs, s.phaseCMould bs (s.counter 2)]) (fun u => u.enterPouring i p)
  else
    let gone := firstErr [s.keyGone bs, chk (!cs.any s.fencedCluster) E.patCluster 0x30 0 (((patSec bs 0x30).map (·.off + 4)).getD 0)]
    if k ≤ nD then
      match stepSec (patDir bs) (k - nB - 1) with
      | none => try_ gone id
      | some (e, j) =>
        let head := if k = nB + 1 then sectionsOk bs ((s.envelope m).kind = 1) else none
        try_ (firstErr [gone, head, errBy e j (s.checkMouldSec bs e)]) (fun u =>
          let u := if j + 1 = secSteps e then u.sectionDone m bs e else u
          if k = nD then u.setMould m { u.mould m with secs := patSecs bs } else u)
    else if k ≤ nD + cs.length then
      try_ gone (fun u => (List.range 4).foldl (fun (w : State) a => w.loadArrCfg (cs.getD (k - nD - 1) 0) a m false) u)
    else if k < mouldSteps bs then try_ gone id
    else try_ gone (fun u => (u.commitMould bs).endOp i 2 0)

/-- The vendor base and the operator base of a bundle (R34). -/
def bundleParts (bs : Bytes) : Bytes × Bytes := (bs.take (patLen bs), bs.drop (patLen bs))

/-- Steps that R67 counts for one pattern of a base bundle. -/
def baseSteps (bs : Bytes) : Nat := stepsAB bs + stepsD bs + cdiv (tableBytes bs) 65536 + 1

/-- Phase C of a base bundle (R34, R35, R43). -/
def State.phaseCBase (s : State) (v o : Bytes) : Option PatErr :=
  firstErr [
    chk (patKindOf v == 1 && patKindOf o == 2) E.patKind 0 0 6,
    phaseCommon v (List.replicate 32 0#8) (s.counter 0),
    phaseCommon o (patDigest v) (s.counter 1)]

/-- The channels of radio envelopes show their mould (Table 10.6). -/
def State.markRadio (s : State) : State :=
  s.envelopes.foldl (fun (u : State) v =>
    if v.kind ≠ 1 then u else (bitList 128 v.chans).foldl (fun (w : State) ch => (w.wr F.gddrCh_radio 1 ch).wr F.gddrCh_radioMould v.mould ch) u) s

/-- The vendor base takes effect (R534, R535). -/
def State.commitVendor (s : State) (v : Bytes) : State :=
  let s := (s.advanceOrLog 0 (leAt v 0x18 4)).extendMeas 2 (patDigest v)
  { s with vendor := some (patInEffect v) }

/-- The operator base takes effect: a base is in effect from here on (R534, R535). -/
def State.commitOper (s : State) (o : Bytes) : State :=
  let s := (s.advanceOrLog 1 (leAt o 0x18 4)).extendMeas 3 (patDigest o)
  ({ s with oper := some (patInEffect o) } : State).markRadio

/-- One step of a base pour: each phase over both patterns in turn (R34, R65, R67). -/
def State.basePourStep (s : State) (i : Nat) (p : PourSt) : State :=
  let (v, o) := bundleParts p.data
  let k := (s.op i).done + 1
  let cv := cdiv (patLen v) 65536
  let co := cdiv (patLen o) 65536
  let bv := stepsAB v - 1 - cv
  let nA := 2 + cv + co
  let nB := stepsAB v + stepsAB o
  let dv := nB + stepsD v
  let nD := dv + stepsD o
  let adv := fun (u : State) => u.setOp i { u.op i with done := k }
  let try_ := fun (e : Option PatErr) (next : State → State) => match e with
    | some e => (s.reject 0xFF e).stopPour i 3 e.code
    | none => next (adv s)
  let part := fun (bs : Bytes) (j : Nat) => match stepSec (patDir bs) j with
    | none => none
    | some (e, j') => firstErr [if j = 0 then sectionsOk bs false else none, errBy e j' (s.checkBaseSec (patSecs v) bs e)]
  if k = 1 then try_ (firstErr [chk (p.data.length ≤ 4194304) E.patTooLarge 0 0 0xC, phaseA1 v p.data.length]) id
  else if k = 2 then
    try_ (firstErr [phaseA1 o o.length, chk (patLen o = o.length) E.patTooLarge 0 0 0xC])
      (fun u => u.setOp i { u.op i with total := baseSteps v + baseSteps o })
  else if k < 2 + cv then adv s
  else if k = 2 + cv then try_ (phaseA2 v) id
  else if k < nA then adv s
  else if k = nA then try_ (phaseA2 o) id
  else if k = nA + 1 then try_ (firstErr [phaseB0 v (s.patKey v), phaseB0 o (s.patKey o)]) id
  else if k = nA + bv then try_ (firstErr [s.keyGone o, phaseB v (s.patKey v)]) id
  else if k < nB then try_ (s.keyGone o) id
  else if k = nB then
    try_ (firstErr [phaseB o (s.patKey o), chk s.oper.isNone E.patKind 0 0 6, s.phaseCBase v o]) id
  else if k ≤ dv then try_ (firstErr [s.keyGone o, part v (k - nB - 1)]) id
  else if k ≤ nD then try_ (firstErr [s.keyGone o, part o (k - dv - 1)]) id
  else
    let total := baseSteps v + baseSteps o
    if k + 1 < total then try_ (s.keyGone o) id
    else if k + 1 = total then try_ (s.keyGone o) (fun u => u.commitVendor v)
    else (adv s).commitOper o |>.endOp i 2 0

/-- One step of a pour. -/
def State.pourStep (s : State) (i : Nat) (p : PourSt) : State := if p.base then s.basePourStep i p else s.mouldPourStep i p

/-- The commit step of a pour has begun, or is the next one that no cancel stops (R71). -/
def State.pourCommitting (s : State) (i : Nat) (p : PourSt) : Bool := p.base && (s.op i).total ≤ (s.op i).done + 1 && (s.op i).total ≠ 0

/-- A pour is in progress: until the mould of a failing one is EMPTY (R66, R69). -/
def State.pouring (s : State) : Option (Nat × OpSt) := (s.mgmt.ops.find? (fun e => e.2.state = 1 && e.2.kind = 2))

/-- A base pour of the device's own begins (R36). -/
def State.ownBasePour (s : State) (data : Bytes) : State :=
  ((s.newOp 0 2 0 (.pour ⟨data, true, 64, false⟩)).map (·.2)).getD s

/-- POUR (R36, R66, R553, Table 2.10). -/
def execPour (s : State) : Out := s.takeCmd 0x0010 (fun _ => true) fun r s =>
  let base := patKindOf r.body == 1
  if s.pouring.isSome then s.answer r E.patBusy
  else if 2 ≤ s.rd F.dbgStatus_level then s.answer r E.secDebugState
  else if !base && s.oper.isNone then s.answer r E.patKind
  else s.startOp r 2 0 (.pour ⟨r.body, base, patMouldNo r.body, false⟩) fun _ t => t

end Sys2Proof.Machine
end

