-- ==== Sys2Proof/Machine/Stage.lean ====
section
/-! DEFINITION. Sys2Proof/Machine/Stage.lean: staging and committing an image or a base bundle (R521 to R526), LEDGER_READ (R530),
the network record (R529), and appends that found no room (R518). -/
namespace Sys2Proof.Machine

/-- An append has found its room, or waits no longer: the records behind it follow. -/
def State.ledDone (s : State) (w : LedWait) : State := (s.ledRelease w).drainWaits 16

/-- The command that core 0 has just taken waits at the front again for room in the ledger (R518). -/
def State.ledRetry (s : State) (r : MReq) : State :=
  { s with mgmt := { s.mgmt with waiting := r :: s.mgmt.waiting, hbCmds := s.mgmt.hbCmds - 1 } }.ledHold .cmd

/-- Key word of a CHUNK record (Table 17.7). -/
def chunkKey (id idx : Nat) : Nat := id + idx * 2 ^ 32

/-- Chunks of a staging of n bytes. -/
def stgChunks (n : Nat) : Nat := cdiv n 65536

/-- Bytes of chunk i of n. -/
def stgLen (n i : Nat) : Nat := min 65536 (n - 65536 * i)

/-- The data of chunk idx of stage id, when its record is valid and readable. -/
def State.chunkOf (s : State) (id n idx : Nat) : Option Bytes :=
  (s.latest 2 (chunkKey id idx)).bind fun r =>
    if (List.range (cdiv r.body.length 8 + 4)).any (fun j => s.led.bad.contains (logWord r.seg r.off + j)) then none
    else some (slice r.body 8 (stgLen n idx))

/-- All n bytes of stage id, when every chunk is valid. -/
def State.stageData (s : State) (id n : Nat) : Option Bytes :=
  (List.range (stgChunks n)).foldl (fun (o : Option Bytes) i => o.bind fun b => (s.chunkOf id n i).map (b ++ ·)) (some [])

/-- Signature steps of a staging (R522). -/
def stageSigs (target : Nat) : Nat := if target = 0 then 96 else 144

/-- steps_total of a staging (R522). -/
def stageSteps (target n : Nat) : Nat := stgChunks n + cdiv n 1048576 + stageSigs target + 1

/-- The digest of an image: every byte before its signature block; of a bundle: every byte (log entry 49). -/
def stageDigest (target : Nat) (b : Bytes) : Bytes := digest256 (if target = 0 then b.take (b.length - sigBlockLen 1) else b)

/-- The header of a firmware image (Table 17.10). -/
def imageHeaderOk (b : Bytes) : Bool :=
  leAt b 0 4 == 0x57464B49 && leAt b 4 2 == 1 && leAt b 6 1 == 0xB1 && leAt b 8 4 == b.length && leAt b 8 4 % 64 == 0
    && decide (b.length ≤ 8388608) && decide (sigBlockLen 1 + 64 ≤ b.length) && leAt b 0x3C 4 == crc32c (b.take 0x3C)

/-- Header and digest of an image: what R524 checks before the signature. -/
def imageOk (b : Bytes) : Bool :=
  let at_ := b.length - sigBlockLen 1
  imageHeaderOk b && sigBlockOk b at_ 1 && leAt b (at_ + 4) 2 == 1 && slice b (at_ + 8) 8 == keyId Config.irkorKey
    && slice b (at_ + 0x10) 32 == stageDigest 0 b

/-- The signature of an image (R524, R527). -/
def imageSigned (b : Bytes) : Bool :=
  let at_ := b.length - sigBlockLen 1
  Config.slhVerify 1 Config.irkorKey (slice b at_ 0x40) (slice b (at_ + 0x40) 29792)

/-- security_version of an image, or of the vendor base of a bundle. -/
def stageVersion (target : Nat) (b : Bytes) : Nat := if target = 0 then leAt b 0xC 4 else leAt b 0x18 4

/-- The current staging ends without a COMMIT (R526). -/
def State.dropStage (s : State) : State :=
  match s.led.stage with
  | none => s
  | some st => ({ s with led := { s.led with stage := none } } : State).logWith 0x1707 0x00B0 0xFF (st.target + st.id * 2 ^ 32)

/-- A staging's operation fails or is cancelled (R526). -/
def State.stageEnd (s : State) (i state code : Nat) : State := (s.ledRelease (.op i)).dropStage.endOp i state code

/-- The format of a staging command (Table 17.11). -/
def stageFormat (b : Bytes) : Bool :=
  allZero (slice b 1 3) && allZero (slice b 14 2) && decide (16 ≤ b.length)
    && (if leAt b 0 1 = 0 then leAt b 4 4 == 0 && leAt b 12 2 == 0 && b.length == 80
        else leAt b 8 4 == 0 && (leAt b 0 1 == 1 || (leAt b 0 1 == 2 && leAt b 12 2 == 0 && b.length == 16)))

/-- An open's total_length fits its target and the header (R522); a bundle's header is its vendor base's (log entry 49). -/
def stageLenOk (target n : Nat) (head : Bytes) : Bool :=
  n % 64 == 0 && decide (n ≤ if target = 0 then 8388608 else 4194304)
    && (if target = 0 then leAt head 8 4 == n else decide (leAt head 0xC 4 < n))

/-- An open (R522). -/
def State.stageOpen (s : State) (r : MReq) (target : Nat) : State :=
  let n := leAt r.body 8 4
  let head := slice r.body 16 64
  if !stageFormat r.body then s.answer r E.mgmtFormat
  else if s.led.stage.any (fun (st : StageSt) => !st.staged) then s.answer r E.ledgerBusy
  else if !stageLenOk target n head then s.answer r E.ledgerImage
  else if s.freeBytes + s.deadBytes < stgChunks n * 65576 + 4194304 then s.answer r E.ledgerSpace
  else if s.freeEntry.isNone then s.answer r E.mgmtHandles
  else
    match s.append 1 (toLe 8 target ++ toLe 8 n ++ head) with
    | none => s.ledRetry r
    | some t =>
      (t.dropStage.ledDone .cmd).startOp r 7 (stageSteps target n) (.stage target) fun i u =>
        { u with led := { u.led with stage := some ⟨target, t.led.seq % 2 ^ 32, n, (u.op i).handle, false, false⟩ } }

/-- The staging that a handle names, of a target, while it takes chunks or waits for its commit. -/
def State.staging (s : State) (target h : Nat) : Option StageSt := s.led.stage.filter (fun st => st.target = target && st.op = h)

/-- A chunk (R523). -/
def State.stageChunk (s : State) (r : MReq) (target : Nat) : State :=
  let idx := leAt r.body 12 2
  let data := r.body.drop 16
  if !stageFormat r.body then s.answer r E.mgmtFormat
  else
    match s.staging target (leAt r.body 4 4) with
    | none => s.answer r E.ledgerStageState
    | some st =>
      if st.closed then s.answer r E.ledgerStageState
      else if stgChunks st.total ≤ idx || data.length ≠ stgLen st.total idx then s.answer r E.ledgerChunk
      else
        match s.chunkOf st.id st.total idx with
        | some d => s.answer r (if d = data then 0 else E.ledgerChunk)
        | none =>
          match s.append 2 (toLe 8 (chunkKey st.id idx) ++ data) with
          | none => s.ledRetry r
          | some t =>
            let i := st.op % 256
            ((t.setOp i { t.op i with done := (t.op i).done + 1 }).ledDone .cmd).answer r 0

/-- A close (R524). -/
def State.stageClose (s : State) (r : MReq) (target : Nat) : State :=
  if !stageFormat r.body then s.answer r E.mgmtFormat
  else
    match s.staging target (leAt r.body 4 4) with
    | none => s.answer r E.ledgerStageState
    | some st =>
      if st.closed || (List.range (stgChunks st.total)).any (fun i => (s.chunkOf st.id st.total i).isNone) then
        s.answer r E.ledgerStageState
      else ({ s with led := { s.led with stage := some { st with closed := true } } } : State).answer r 0

/-- IMAGE_STAGE op 0 (R522). -/
def execImageStageOpen (s : State) : Out := s.takeCmd 0x0050 (fun b => leAt b 0 1 == 0 || 2 < leAt b 0 1) fun r s => s.stageOpen r 0

/-- IMAGE_STAGE op 1 (R523). -/
def execImageStageChunk (s : State) : Out := s.takeCmd 0x0050 (fun b => leAt b 0 1 == 1) fun r s => s.stageChunk r 0

/-- IMAGE_STAGE op 2 (R524). -/
def execImageStageClose (s : State) : Out := s.takeCmd 0x0050 (fun b => leAt b 0 1 == 2) fun r s => s.stageClose r 0

/-- BASE_STAGE op 0 (R522). -/
def execBaseStageOpen (s : State) : Out := s.takeCmd 0x0052 (fun b => leAt b 0 1 == 0 || 2 < leAt b 0 1) fun r s => s.stageOpen r 1

/-- BASE_STAGE op 1 (R523). -/
def execBaseStageChunk (s : State) : Out := s.takeCmd 0x0052 (fun b => leAt b 0 1 == 1) fun r s => s.stageChunk r 1

/-- BASE_STAGE op 2 (R524). -/
def execBaseStageClose (s : State) : Out := s.takeCmd 0x0052 (fun b => leAt b 0 1 == 2) fun r s => s.stageClose r 1

/-- IMAGE_COMMIT (R525). -/
def execImageCommit (s : State) : Out := s.takeCmd 0x0051 (fun _ => true) fun r s =>
  let target := leAt r.body 0 1
  s.bodyOk r (r.body.length == 8 && target < 2 && allZero (slice r.body 1 3)) fun s =>
    match (s.staging target (leAt r.body 4 4)).filter (·.staged), s.latestOf 3 with
    | some st, some q =>
      let b := (s.stageData st.id st.total).getD []
      match s.append 4 (slice q.body 0 44 ++ toLe 4 (stageVersion target b) ++ toLe 4 st.total) with
      | none => s.ledRetry r
      | some t =>
        ((({ t with led := { t.led with stage := none } } : State).ledDone .cmd).logWith 0x1708 0x00B0 0xFF (target + st.id * 2 ^ 32)).answer r 0
    | _, _ => s.answer r E.ledgerStageState

/-- The patterns of a bundle pass phases A and the first part of B (R524). -/
def State.bundleFormat (s : State) (b : Bytes) : Option PatErr :=
  let (v, o) := bundleParts b
  firstErr [phaseA1 v b.length, phaseA1 o o.length, chk (patLen o = o.length) E.patTooLarge 0 0 0xC, phaseA2 v, phaseA2 o,
    phaseB0 v (s.patKey v), phaseB0 o (s.patKey o)]

/-- One step of a staging after its close (R524): what it checks ends at the last step of its part. -/
def State.stageStep (s : State) (i ecc word : Nat) : State :=
  match s.led.stage with
  | none => s
  | some st =>
    if st.op % 256 ≠ i || !st.closed || st.staged then s
    else
      let k := (s.op i).done + 1
      let nD := stgChunks st.total + cdiv st.total 1048576
      let adv := fun (u : State) => u.setOp i { u.op i with done := k }
      let s := if k ≤ nD then s.ledEcc ecc word else s
      let fail := fun (code : Nat) => (adv s).stageEnd i 3 code
      let try_ := fun (o : Option PatErr) => match o with
        | some e => fail e.code
        | none => adv s
      let b := (s.stageData st.id st.total).getD []
      let (v, o) := bundleParts b
      if k < nD then adv s
      else if k = nD then
        if st.target = 0 then (if imageOk b then adv s else fail E.ledgerImage) else try_ (s.bundleFormat b)
      else if k = nD + 96 then
        if st.target = 0 then
          (if !imageSigned b then fail E.ledgerImage else if stageVersion 0 b < s.counter 3 then fail E.ledgerRollback else adv s)
        else try_ (phaseB v (s.patKey v))
      else if k + 1 < (s.op i).total then adv s
      else if k + 1 = (s.op i).total && st.target = 1 then try_ (firstErr [phaseB o (s.patKey o), s.phaseCBase v o])
      else if k + 1 = (s.op i).total then adv s
      else
        match s.append 3 (toLe 8 st.target ++ toLe 4 st.id ++ stageDigest st.target b) with
        | none => s.ledHold (.op i)
        | some t =>
          ((adv { t with led := { t.led with stage := some { st with staged := true } } }).ledDone (.op i)).endOp i 2 0

/-- LEDGER_READ (R530); `ecc` and `word` say whether a word read needed correction or was uncorrectable (R498). -/
def execLedgerRead (ecc word : Nat) (s : State) : Out := s.takeCmd 0x0053 (fun _ => true) fun r s =>
  let o := leAt r.body 0 4
  let n := leAt r.body 4 2
  s.bodyOk r (r.body.length == 6 && o % 8 == 0 && n % 8 == 0 && 8 ≤ n && n ≤ 1024) fun s =>
    if 33554432 < o + n then s.answer r E.ledgerRange
    else
      let s := if o / 8 ≤ word && word < (o + n) / 8 then s.ledEcc ecc word else s
      let bad := (List.range (n / 8)).any (fun i => s.led.bad.contains (o / 8 + i))
      s.answer r (if bad then E.ledgerUe else 0) 0 (s.ledBytes o n)

/-- NETCFG is stored (R529). -/
def State.storeNet (s : State) : State :=
  if s.led.netAt.any (fun t => s.clk.up < t + 1000000000) then s.logFree 0x1706 0x00B0 0xFF
  else
    { s with led := { s.led with netAt := some s.clk.up } }.appendOwn 0x11
      (toLe 8 (s.reg .ledgerNet0) ++ toLe 8 (s.reg .ledgerNet1) ++ toLe 1 (s.rd F.ledgerNet2_prefixLen) ++ toLe 7 0)

/-- A write of LEDGER_CTRL (Table 17.18). -/
def State.writeLedgerCtrl (s : State) (v : Nat) : State :=
  let s := s.wr F.ledgerCtrl_summaryS (bitsOf v 16 16)
  if bit v 0 then s.storeNet else s

/-- STORE_NET (R529): a write of LEDGER_CTRL with store_net 1. -/
def execStoreNet (value : Nat) (s : State) : Out := s.whenLive fun s => if bit value 0 then s.writeLedgerCtrl value else s

/-- Compaction can free no segment. -/
def State.noCompaction (s : State) : Bool := !s.flag F.ledgerStatus_compacting && s.victim.isNone

/-- An append that waited fails (R518). -/
def State.appendFails (s : State) (w : LedWait) : State :=
  let s := s.logEvt 0x1701 0x00B0 0xFF 0xFFFF
  match w with
  | .own _ _ => s
  | .op i => match (s.op i).body with
    | .stage _ => s.stageEnd i 3 E.ledgerFull
    | _ => s.endOp i 3 E.ledgerFull
  | .cmd => match s.mgmt.waiting with
    | [] => s
    | r :: rest => ({ s with mgmt := { s.mgmt with waiting := rest } } : State).answer r E.ledgerFull

/-- LEDGER_APPEND_TIMEOUT (R518): appends that have waited 10 ms, or that compaction cannot help, fail. -/
def execLedgerAppendTimeout (dt : Nat) (s : State) : Out := s.whenLive fun s =>
  let s := s.pass dt
  let late := fun (p : Nat × LedWait) => decide (p.1 + 10000000 ≤ s.clk.up) || s.noCompaction
  let gone := s.led.waits.filter late
  (gone.map (·.2)).foldl State.appendFails { s with led := { s.led with waits := s.led.waits.filter (fun p => !late p) } }

end Sys2Proof.Machine
end

