-- ==== Sys2Proof/Machine/Reset.lean ====
section
/-! DEFINITION. Sys2Proof/Machine/Reset.lean: input supply, rails and temperature (R576 to R582), device resets (R583 to R587), the
boot chain and firmware start (R36, R70, R286, R501, R504, R514, R527 to R529, R531 to R535, R590, R594), block resets (R588, R589),
the power cap (R30), ALERT_N (R595), SMBus and PMBus (R573). -/
namespace Sys2Proof.Machine

/-- The device reset is asserted (R583, R584): every block returns to its reset state; the ledger, the backup domain, the TAP, far
memory behind CXL and the release conditions stay. A reset that is already asserted records no further cause. -/
def State.assertReset (s : State) (cause : Nat) : State :=
  if s.rst.asserted then s
  else
    let r := State.reset
    let refclk := s.rd F.alertCause_refclk
    ({ r with
      free := s.free
      bkp := s.bkp
      led := { s.led with
        waits := [], netAt := none, healthAt := 0, sumAt := 0, sumNs := 0, sumSeq := 0 }
      tap := s.tap
      cxl := s.cxl
      xts := s.xts.filter (fun e => 2 * 2 ^ 60 ≤ e.1)
      moulds := s.moulds.map (fun e => (e.1, { MouldSt.init with xtsGen := e.2.xtsGen + 1 }))
      sec := { r.sec with tampCond := s.sec.tampCond }
      rst := { r.rst with
        cause := cause, pinLow := s.rst.pinLow, refLost := s.rst.refLost, qualified := s.rst.qualified, vinOut := s.rst.vinOut
        rails := s.rst.rails, waitPin := s.rst.waitPin }
      out := s.out
      pending := s.pending } : State).wr F.alertCause_refclk refclk

/-- The converter stops: the rails are down (R576, R582), and with VAUX the TAP loses its state (R600). -/
def State.powerDown (s : State) : State := { s with rst := { s.rst with rails := false }, tap := TapSt.init }

/-- POWER_FAIL (R576): VIN has fallen below 38 V. -/
def execPowerFail (s : State) : Out :=
  let s := (s.assertReset 0x03).powerDown
  done { s with rst := { s.rst with qualified := false } }

/-- VIN_OVERVOLTAGE (R576): VIN, in mV, has stood above 66 V for 1 ms; above 80 V lies the absolute maximum. -/
def execVinOvervoltage (mV : Nat) (s : State) : Out :=
  if mV ≤ 66000 then done s
  else if 80000 < mV then .fault .absoluteMaximum
  else
    let s := (s.assertReset 0x09).powerDown
    done { s with rst := { s.rst with qualified := false } }

/-- VIN_OUT_OF_RANGE (R576): VIN in mV enters 38 to 40 V or 60 to 66 V, or comes back between 40 and 60 V. -/
def execVinOutOfRange (mV : Nat) (s : State) : Out :=
  let out := (38000 ≤ mV && mV < 40000) || (60000 < mV && mV ≤ 66000)
  if out then
    if s.rst.vinOut then done s
    else
      let s := { s with rst := { s.rst with vinOut := true } }
      done (if s.live then ((s.cnt F.pwrAlarm_vinOut).alert 4).logFree 0x2001 0x00C1 0xFF else s)
  else if 40000 ≤ mV && mV ≤ 60000 then done { s with rst := { s.rst with vinOut := false } }
  else done s

/-- VIN_QUALIFIED (R577, R580): VIN has stayed between 42 and 60 V for 10 ms; the converter starts and the rails come up, unless a
thermal trip holds the device down (R582). -/
def execVinQualified (s : State) : Out :=
  done { s with rst := { s.rst with qualified := true, vinOut := false, rails := s.rst.rails || !s.rst.waitPin } }

/-- RAIL_FAULT (R580): a rail has been outside its band for some ns. -/
def execRailFault (ns : Nat) (s : State) : Out :=
  if !s.live then done s
  else if 10000 < ns then
    let s := s.assertReset 0x0B
    done { s with rst := { s.rst with rails := false } }
  else done (s.cnt F.pwrAlarm_railFault)

/-- OVERPOWER (R579): the mean input power over 10 ms, in W. -/
def execOverpower (w : Nat) (s : State) : Out := done (if 2400 < w then s.assertReset 0x08 else s)

/-- issue_limit_power of field f: the lower of what the thermal cap and the power cap set (R30, R582). -/
def State.setPowerLimit (s : State) (f : Nat) : State :=
  s.wr F.govStatus_issueLimitPower (16 - max (Tab.get 0 s.rst.thermLow f) (Tab.get 0 s.rst.powLow f)) f

/-- How far the thermal cap lowers field f, in sixteenths. -/
def State.setTherm (s : State) (f n : Nat) : State :=
  let s := { s with rst := { s.rst with thermLow := Tab.set 0 s.rst.thermLow f n, capAt := Tab.set 0 s.rst.capAt f s.clk.up } }
  s.setPowerLimit f

/-- The new reading of field f: THERM_STATUS (Table 20.12). -/
def State.setTj (s : State) (f : Nat) (tj : Int) : State :=
  let w := setBits (s.rd F.thermStatus_tj) (8 * f) 8 (ofInt 8 tj)
  let top := (List.range 4).foldl (fun (m : Int) k => max m (sext 8 (bitsOf w (8 * k) 8))) (sext 8 (bitsOf w 0 8))
  (s.wr F.thermStatus_tj w).wr F.thermStatus_tjMax (ofInt 8 top)

/-- THERMAL_CAP_STEP (Table 20.3): field f reads tj °C. At or above 100 °C its limit falls by 1/16 each 1 ms, below 97 °C it
rises by 1/16 each 10 ms. -/
def execThermalCapStep (dt f : Nat) (tj : Int) (s : State) : Out := s.whenLive fun s =>
  let s := s.pass dt
  if 4 ≤ f then s
  else
    let s := s.setTj f tj
    let low := Tab.get 0 s.rst.thermLow f
    let at_ := Tab.get 0 s.rst.capAt f
    if 100 ≤ tj then
      if low = 0 then (((s.setTherm f 1).cnt F.pwrAlarm_capEntries).alert 3).logWith 0x2002 0x00C1 0xFF (f + 2 ^ 8)
      else if low < 16 && at_ + 1000000 ≤ s.clk.up then s.setTherm f (low + 1)
      else s
    else if tj < 97 && low ≠ 0 && at_ + 10000000 ≤ s.clk.up then
      let s := s.setTherm f (low - 1)
      if low = 1 then s.logWith 0x2002 0x00C1 0xFF f else s
    else s

/-- THERMAL_TRIP (R582): THERMTRIP_N is latched low, the device resets, regulators and converter stop. -/
def execThermalTrip (s : State) : Out :=
  let s := (s.assertReset 0x04).powerDown
  done { s with bkp := { s.bkp with trip := true }, rst := { s.rst with waitPin := true } }

/-- RESET_N_ASSERT (R585): 100 low samples; a latched THERMTRIP_N is released (R582). -/
def execResetNAssert (s : State) : Out :=
  let s := s.assertReset 0x02
  done { s with rst := { s.rst with pinLow := true }, bkp := { s.bkp with trip := false } }

/-- RESET_N_RELEASE (R585): 100 high samples; after a thermal trip whose pin has been released the rails start again (R582). -/
def execResetNRelease (s : State) : Out :=
  let free := s.rst.waitPin && !s.bkp.trip
  done { s with rst := { s.rst with
    pinLow := false, waitPin := s.rst.waitPin && !free, rails := s.rst.rails || (free && s.rst.qualified) } }

/-- REFCLK_LOST (R101, R586): no edge for 4 backup periods. -/
def execRefclkLost (s : State) : Out :=
  let s := s.assertReset 0x0A
  done (({ s with rst := { s.rst with refLost := true } } : State).alert 0)

/-- REFCLK_RESTORED (R586): REFCLK has run within its limits for 1 ms. -/
def execRefclkRestored (s : State) : Out := done { s with rst := { s.rst with refLost := false } }

/-- Every release condition of R587 holds. -/
def State.releasable (s : State) : Bool :=
  s.rst.asserted && !s.rst.pinLow && s.rst.rails && !s.rst.refLost && s.rst.qualified && !s.rst.waitPin && !s.bkp.trip
    && decide (s.rst.assertAt + 10000 ≤ s.clk.up)

/-- A record that waits for firmware: code, source, mould, detail. -/
def State.bootNote (s : State) (code source m detail : Nat) : State :=
  { s with rst := { s.rst with bootLog := s.rst.bootLog ++ [(code, source, m, detail)] } }

/-- The backup domain at a release (R587, R590). -/
def State.backupRelease (s : State) (lost : Bool) : State :=
  if lost then ({ s with bkp := ⟨1, 0x01, 0, 0, 1, false, false⟩ } : State).bootNote 0x1804 0x00C0 0xFF 0
  else { s with bkp := { s.bkp with counter := (s.bkp.counter + 1) % 2 ^ 32, cause := s.rst.cause, valid := true } }

/-- The last fault entry of kinds a or b for a source and an index is of kind a (R504, R564). -/
def lastEntryIs (es : List (Nat × Nat × Nat)) (a b index source : Nat) : Bool :=
  ((es.filter (fun e => (e.1 = a || e.1 = b) && e.2.1 = index && e.2.2 = source)).getLast?).any (·.1 = a)

/-- Suspect arrays and fenced clusters of the fault map (R504, R564). -/
def State.bootFaults (s : State) : State :=
  let es := s.faultEntries
  (List.range 96).foldl (fun (u : State) c =>
    let u := (List.range 4).foldl (fun (w : State) a => if lastEntryIs es 1 2 a (srcCluster c) then w.wr F.arrStatus_suspect 1 c a else w) u
    if lastEntryIs es 4 5 0 (srcCluster c) then u.setFence c true else u) s

/-- The reset counter's mirror (R528). -/
def State.mirror (s : State) : State :=
  let b := s.bkp.counter
  let m := ((s.latestOf 0x10).map (fun r => leAt r.body 0 4)).getD 0
  let keep := s.bkp.valid && decide (m < b)
  let v := if keep then b else (m + 1) % 2 ^ 32
  let s := { s with bkp := { s.bkp with counter := v } }
  let s := (s.wr F.ledgerReset_mirror v).setFlag F.ledgerReset_restored (!keep)
  let body := toLe 4 v ++ toLe 1 s.bkp.cause ++ toLe 3 0 ++ toLe 8 s.opSeconds ++ toLe 8 s.bkp.seconds
  (s.appendOwn 0x10 body).bootNote 0x1704 0x00B0 0xFF v

/-- Every mould's heat after a reset (R70). -/
def State.bootHeats (s : State) : State :=
  (List.range 64).foldl (fun (u : State) m => u.wr F.mouldStatus_heat (s.bkp.counter % 16 * 2 ^ 12) m) s

/-- The fabric key of the policy unwraps (R543). -/
def State.wrapOk (s : State) : Bool :=
  let p := s.policy
  leAt p 2 2 ≠ 0 && Config.gcmTag Config.wrapKey (slice p 0x10 12) [] (slice p 0x20 32) == slice p 0x40 16

/-- What BOOT loads from the ledger's records (R529, R542, R568). -/
def State.bootRecords (s : State) : State :=
  let net := ((s.latestOf 0x11).map (·.body)).getD (List.replicate 24 0#8)
  let s := ((s.setReg .ledgerNet0 0 0 (leAt net 0 8)).setReg .ledgerNet1 0 0 (leAt net 8 8)).wr F.ledgerNet2_prefixLen (leAt net 16 1)
  let s := match s.latest 0x40 0 with
    | some r => { s.wr F.fabEpoch_value (certEpoch r.body) with health := { s.health with lastCert := slice r.body 0 272 } }
    | none => s
  { s with sec := { s.sec with fabricKey := s.wrapOk } }

/-- The committed image of R527: its bytes, or the code of the check that failed. -/
def State.bootImage (s : State) : Except Nat Bytes :=
  match s.latest 4 0 with
  | none => .error E.ledgerImage
  | some r =>
    match s.stageData (leAt r.body 8 4) (leAt r.body 48 4) with
    | none => .error E.ledgerImage
    | some b =>
      if !imageOk b || stageDigest 0 b ≠ slice r.body 12 32 || !imageSigned b then .error E.ledgerImage
      else if stageVersion 0 b < s.counter 3 then .error E.ledgerRollback
      else .ok b

/-- The boot chain from step 2 on (Table 18.1): whether the PUF's root was recovered, whether the derived identity key is the
certificate's, and a ledger word that needed correction or was uncorrectable. -/
def State.boot (s : State) (pufOk keyOk : Bool) (ecc word : Nat) : State :=
  let s := s.wr F.secStatus_puf (if pufOk then 1 else 2)
  let s := s.ledEcc ecc word
  let gone := s.led.stage
  let (n, s) := s.bootScan
  let s := (List.range n).foldl (fun (u : State) _ => u.bootNote 0x1703 0x00B0 0xFF 0) (s.wr F.ledgerStatus_state 1)
  let s := match gone with
    | some st => s.bootNote 0x1707 0x00B0 0xFF (st.target + st.id * 2 ^ 32)
    | none => s
  if !pufOk || !s.identOk || !keyOk then s
  else
    let s := { s with disabled := s.identMap }
    let s := s.wr F.devIdent_clustersEnabled (leAt (s.ledBytes 0 64) 3 1)
    let s := (s.mirror.bootHeats.bootFaults.bootRecords).setFlag F.hardLimit_thermalLast (s.bkp.cause == 4)
    match s.bootImage with
    | .error e => { s with sec := { s.sec with recovering := some e } }
    | .ok b =>
      let s := (s.extendMeas 0 Config.romDigest).extendMeas 1 (stageDigest 0 b)
      { s with rst := { s.rst with booted := true } }

/-- RESET_RELEASE (R587): the internal reset is released, the reset counter rises, the PLLs lock and BOOT runs. `lost` says that the
backup domain finds its valid word wrong at a power-up (R590). -/
def execResetRelease (dt : Nat) (lost pufOk keyOk : Bool) (ecc word : Nat) (s : State) : Out :=
  let s := s.pass dt
  if !s.releasable then done s
  else
    let s := { s with
      clk := ⟨0, 0, 0, 0, 0⟩
      rst := { s.rst with asserted := false, alertUntil := s.rst.alertUntil - s.clk.up, recovered := false }
      tap := if s.tap.mode = 4 || s.tap.mode = 5 || s.tap.mode = 6 || s.tap.mode = 8 || s.tap.mode = 9 then { s.tap with mode := 0xFF }
        else s.tap }.setFlag F.secStatus_recovery s.rst.recovered
    let s := (s.wr F.clkStatus_present (2 ^ 18 - 1 - 2 ^ 14)).wr F.mcStatus_coreUp 1
    let s := (s.bootNote 0x1901 0x00A2 0xFF (1 * 2 ^ 8)).backupRelease lost
    done (s.boot pufOk keyOk ecc word)

/-- GDDR7 training (R286): groups populated, density code, rate, and a mask of the channels that train. -/
def State.trainGddr (s : State) (groups density gbps trained : Nat) : State :=
  let s := (((s.wr F.gddrCfg_groups groups).wr F.gddrCfg_density density).wr F.gddrCfg_pinGbps gbps).wr F.gddrCfg_channelMb
    (if density = 1 then 512 else if density = 2 then 768 else if density = 3 then 1024 else 0)
  (List.range 128).foldl (fun (u : State) ch =>
    if !bit groups (ch / 32) then u
    else if bit trained ch then u.wr F.gddrCh_state 2 ch
    else (u.wr F.gddrCh_state 4 ch).addFault 3 ch (srcGddr ch)) s

/-- The committed base bundle, or nothing when there is none (R36). -/
def State.committedBundle (s : State) : Option Bytes :=
  (s.latest 4 1).map (fun r => (s.stageData (leAt r.body 8 4) (leAt r.body 48 4)).getD [])

/-- FIRMWARE_START (R36, R286, R425, R535, R594): the image BOOT accepted starts, memory has trained, and the device enters ISOLATED. -/
def execFirmwareStart (dt groups density gbps trained : Nat) (s : State) : Out := s.whenLive fun s =>
  let s := s.pass dt
  if !s.rst.booted || s.rd F.healthStatus_state ≠ 1 || groups = 0 || 16 ≤ groups || density = 0 || 4 ≤ density || gbps < 28 || 40 < gbps
  then s
  else
    match s.bootImage with
    | .error _ => s
    | .ok b =>
      let s := s.advanceOrLog 3 (stageVersion 0 b)
      let s := ({ s with fwLib := leAt b 0x10 2 } : State).trainGddr groups density gbps trained
      let s := (s.rst.bootLog.foldl (fun (u : State) e => u.logEvt e.1 e.2.1 e.2.2.1 e.2.2.2) s).wr F.mcStatus_coreUp 0xF
      let s := if 400000000 < s.clk.up then s.logFree 0x2005 0x00C1 0xFF else s
      let s := ({ s with rst := { s.rst with bootLog := [] } } : State).goTo 2 0x01
      match s.committedBundle with
      | some v => s.ownBasePour v
      | none => s

/-- No egress queue of a port holds a frame: queues lo to hi - 1. -/
def State.queuesEmpty (s : State) (lo hi : Nat) : Bool := s.egr.qs.all (fun e => !(lo ≤ e.1 && e.1 < hi && !e.2.frames.isEmpty))

/-- The envelopes of moulds that are not EMPTY. -/
def State.usedEnvelopes (s : State) : List Envelope := s.envelopes.filter (fun v => v.kind ≠ 0 && s.mstate v.mould ≠ 0)

/-- A port's replay buffer and egress queues are empty, and it carries nothing (Table 20.5). -/
def State.portChill (s : State) (p : Nat) : Bool :=
  let st := s.rd F.portStatus_state p
  (st == 0 || st == 3 || st == 4 || st == 5) && (s.port p).replay.isEmpty && s.queuesEmpty (queueNo p 0) (queueNo (p + 1) 0)

/-- An access port is used by a carrier, a service endpoint, PTP or SyncE (Table 20.5). -/
def State.apUsed (s : State) (a : Nat) : Bool :=
  (List.range 128).any (fun c => s.flag F.radioCar_bound c && (s.car c).ap = a)
    || s.svc.any (fun e => e.2.mould < 64 && e.2.port = a)
    || (s.rd F.timeCtrl_src == 1 && s.rd F.timeCtrl_ptpPort / 4 == a)
    || (s.flag F.timeCtrl_synceEn && s.rd F.timeCtrl_synceLane / 4 == a)

/-- Block i of Table 20.5 is in CHILL; no reserved index is. -/
def State.blockChill (s : State) (i : Nat) : Bool :=
  !s.blockBusy i &&
    (if i < 12 then s.portChill i
     else if i < 16 then
       let g := i - 12
       s.usedEnvelopes.all (fun v => v.chans / 2 ^ (32 * g) % 2 ^ 32 == 0) && !s.retraining (32 * g)
     else if i < 18 then
       let k := i - 16
       s.usedEnvelopes.all (fun v => v.cLen == 0 || !(v.cBase / 2 ^ 40 == k)) && s.tier.cq.all (fun e => e.1 / 64 / 2 ≠ k)
     else if i < 26 then
       let a := i - 18
       !s.apUsed a && s.queuesEmpty (queueNo (0x10 + a) 0) (queueNo (0x11 + a) 0)
     else if i < 38 then s.rd F.radioUnit_state (i - 26) == 0
     else if i < 42 then
       let f := i - 38
       s.rd F.radioUnit_state (12 + f) == 0 && (List.range 128).all (fun c => !(s.flag F.radioCar_bound c && (s.car c).ap / 2 = f))
     else if 64 ≤ i && i < 160 then
       let c := i - 64
       (s.claimer c).isNone && (List.range 16).all (fun t => s.rd F.thrStatus_state c t == 0) && (s.clu c).lists.isEmpty
     else false)

/-- An index of Table 20.5. -/
def isBlock (i : Nat) : Bool := i < 42 || (64 ≤ i && i < 160)

/-- A block reset is requested (R588): the code and the state. -/
def State.requestBlock (s : State) (i : Nat) : Nat × State :=
  let fin := fun (code : Nat) (u : State) => (code, (u.wr F.blkRst_lastCode code).wr F.blkRst_lastIndex i)
  if !isBlock i then fin E.resetBlock s
  else if !s.blockChill i then fin E.resetNotChill (s.logWith 0x2003 0x00C1 0xFF i)
  else
    let s := (s.logWith 0x2004 0x00C1 0xFF i).wr F.blkRst_busy 1
    let s := { s with rst := { s.rst with blocks := s.rst.blocks ++ [(i, s.clk.up)] } }
    let s := if 12 ≤ i && i < 16 then
        (List.range 32).foldl (fun (u : State) k =>
          let ch := 32 * (i - 12) + k
          if u.rd F.gddrCh_state ch = 0 then u else u.wr F.gddrCh_state 4 ch) s
      else s
    fin 0 s

/-- BLOCK_RESET (R588, R593). -/
def execBlockReset (s : State) : Out := s.takeCmd 0x0068 (fun _ => true) fun r s =>
  s.bodyOk r (r.body.length == 4 && allZero (slice r.body 1 3)) fun s =>
    let p := s.requestBlock (leAt r.body 0 1)
    p.2.answer r p.1

/-- A write of BLK_RST (Table 20.16). -/
def State.writeBlkRst (s : State) (v : Nat) : State := if bit v 8 then (s.requestBlock (bitsOf v 0 8)).2 else s

/-- BLK_RST_GO (R588). -/
def execBlkRstGo (value : Nat) (s : State) : Out := s.whenLive fun s => s.writeBlkRst value

/-- The block returns to its reset state (R589). `trained` masks the channels of a GDDR7 group that train. -/
def State.clearBlock (s : State) (i trained : Nat) : State :=
  let at_ := fun (r : RegName) (k : Nat) (a : Nat) => a == regAddr r k 0
  if i < 12 then
    let was := s.rd F.portStatus_state i
    let s := (s.resetRegs (fun a => at_ .portStatus i a || at_ .portCnt i a || at_ .portFec i a)).setPort i PortSt.init
    if s.flag F.quar_active i then s.wr F.portStatus_state 4 i else if was = 5 then s.wr F.portStatus_state 5 i else s
  else if i < 16 then
    let g := i - 12
    let there := bit (s.rd F.gddrCfg_groups) g
    let s := s.resetRegs (fun a => regAddr .gddrCh (32 * g) 0 ≤ a && a < regAddr .gddrCh (32 * g + 32) 0)
    let s := if !there then s else (List.range 32).foldl (fun (u : State) k =>
      let ch := 32 * g + k
      if bit trained k then u.wr F.gddrCh_state 2 ch else (u.wr F.gddrCh_state 4 ch).addFault 3 ch (srcGddr ch)) s
    s.markRadio
  else if i < 18 then s.resetRegs (fun a => at_ .cxlDev (2 * (i - 16)) a || at_ .cxlDev (2 * (i - 16) + 1) a)
  else if i < 26 then s.resetRegs (at_ .apStatus (i - 18))
  else if i < 42 then
    let s := s.resetRegs (at_ .radioUnit (i - 26))
    { s with units := Tab.del s.units (i - 26) }
  else
    let c := i - 64
    let s := s.resetRegs (fun a => csrCluster a = some c)
    { s with clus := Tab.del s.clus c, sram := s.sram.filter (fun e => e.1 / 2 ^ 24 ≠ c) }

/-- BLOCK_RESET_DONE (R589): within 1 ms of its request the reset of block i is complete. -/
def execBlockResetDone (dt i trained : Nat) (s : State) : Out := s.whenLive fun s =>
  let s := s.pass dt
  if !s.blockBusy i then s
  else
    let left := s.rst.blocks.filter (fun e => e.1 ≠ i)
    let s := { s with rst := { s.rst with blocks := left } }
    (s.clearBlock i trained).setFlag F.blkRst_busy (!left.isEmpty)

/-- DEVICE_RESET (R593). -/
def execDeviceReset (s : State) : Out := s.takeCmd 0x0069 (fun _ => true) fun r s =>
  let b := r.body
  s.bodyOk r (b.length == 8 && leAt b 0 4 == 0x54455352 && leAt b 4 1 < 2 && allZero (slice b 5 3)) fun s =>
    if leAt b 4 1 = 0 && (List.range 64).any (fun m => s.isRadio m && (s.mstate m = 3 || s.mstate m = 4)) then s.answer r E.resetState
    else ({ s with rst := { s.rst with devAt := s.rst.devAt.or (some (s.clk.up + 10000000)) } } : State).answer r 0

/-- DEVICE_RESET_DELAY_EXPIRY (R593). -/
def execDeviceResetDelayExpiry (dt : Nat) (s : State) : Out := s.whenLive fun s =>
  let s := s.pass dt
  if s.rst.devAt.any (fun t => t ≤ s.clk.up) then s.assertReset 0x07 else s

/-- The limits of R30 are met: input power and the die's own power, in W, over the last 1 ms. -/
def powerOver (pin die : Nat) : Bool := decide (2050 < pin) || decide (1850 < die)

/-- POWER_CAP_ADJUST (R30, R579): the means over 1 ms of VIN (10 mV), current (10 mA), input power and die power (W). How far the cap
lowers the limit while a power is exceeded is a free value (log entry 50). -/
def execPowerCapAdjust (dt vin iin pin die : Nat) (s : State) : Out := s.whenLive fun s =>
  let s := s.pass dt
  let s := ((s.wr F.pwrStatus_vin vin).wr F.pwrStatus_iin iin).wr F.pwrStatus_pinW pin
  (List.range 4).foldl (fun (u : State) f =>
    let (v, u) := u.fresh 4
    let n := if powerOver pin die then v + 1 else 0
    ({ u with rst := { u.rst with powLow := Tab.set 0 u.rst.powLow f n } } : State).setPowerLimit f) s

/-- ALERT_N_HOLD_EXPIRY (R595): 1 ms after a cause set; ALERT_N is released when no cause is left. -/
def execAlertNHoldExpiry (dt : Nat) (s : State) : Out := s.whenLive fun s => s.pass dt

/-- An SMBus transaction is NACKed (R573). -/
def State.smbusNack (s : State) : State := ((s.cnt F.sideStat_smbusNack).logFree 0x190B 0x00A0 0xFF).emit (.smbus 1 [])

/-- SMBUS_COMMAND_RX (R573): any transaction but a key claim is NACKed. -/
def execSmbusCommandRx (s : State) : Out := s.whenLive fun s => s.smbusNack

/-- PMBUS_TRANSFER_END (R573): a transfer is answered, or fails; after 3 retries that fail too, ALERT_N. -/
def execPmbusTransferEnd (ok : Bool) (s : State) : Out := s.whenLive fun s =>
  if ok then { s with rst := { s.rst with pmbTries := 0 } }
  else
    let n := min 4 (s.rst.pmbTries + 1)
    let s := { s with rst := { s.rst with pmbTries := n } }
    if n < 4 then s else ((s.cnt F.sideStat_pmbusErr).alert 5).logFree 0x190B 0x00A0 0xFF

end Sys2Proof.Machine
end

