-- ==== Sys2Proof/Machine/Security.lean ====
section
/-! DEFINITION. Sys2Proof/Machine/Security.lean: key enrolment (R537 to R541, R569), the security policy (R542, R543), attestation
(R548), recovery (R550), tamper latches (R551) and debug levels (R552, R553). -/
namespace Sys2Proof.Machine

/-- A session closes (R482, R547): its keys are destroyed with it. -/
def State.closeSession (s : State) (z : Nat) : State :=
  if (s.session z).isNone then s
  else
    ({ s with mgmt := { s.mgmt with
        sessions := s.mgmt.sessions.filter (fun (y : SessSt) => y.id ≠ z)
        waiting := s.mgmt.waiting.filter (fun (r : MReq) => r.sess ≠ z) } } : State).logWith 0x1604 0x00A1 0xFF z

/-- A key holds a role (0 O, 1 P, 2 C, 3 M) when the highest role it is enrolled with is that or a higher one; M only when enrolled. -/
def hasRole (roles k : Nat) : Bool := decide (2 ^ k ≤ roles % 16)

/-- Valid slots of a kind. -/
def State.validKeys (s : State) (kind : Nat) : List KeySlot := s.keySlots.filter (fun k => k.valid && k.kind = kind)

/-- Table 19.3 holds for a quorum policy body. -/
def State.quorumOk (s : State) (b : Bytes) : Bool :=
  let n := leAt b 0 1
  let k := leAt b 1 1
  let ids := (List.range n).map (fun i => slice b (8 + 8 * i) 8)
  let mKeys := ((s.validKeys 1).filter (fun q => bit q.roles 3)).map (fun q => keyId (q.body.take 48))
  decide (1 ≤ n) && decide (n ≤ 7) && decide (n / 2 + 1 ≤ k) && decide (k ≤ n) && allZero (slice b 2 6)
    && ids.all mKeys.contains && ids.eraseDups.length == n && allZero (slice b (8 + 8 * n) (56 - 8 * n)) && allZero (slice b 0x40 40)

/-- Table 18.4 holds for a policy as enrolled, its fabric key in clear. -/
def policyOk (b : Bytes) : Bool :=
  decide (leAt b 1 1 ≤ 2) && decide (leAt b 2 2 < 2 ^ 12) && decide (leAt b 4 1 < 2 ^ 4) && allZero (slice b 5 11)
    && allZero (slice b 0x1C 4) && (leAt b 2 2 != 0 || allZero (slice b 0x20 48))

/-- Length of an item's body (Table 18.3). -/
def itemLen (item : Nat) : Nat := if item = 1 then 56 else if item = 2 then 48 else if item = 3 then 104 else 272

/-- The body of KEY_ENROLL before its certificate has its format. -/
def enrolFormat (b : Bytes) : Bool :=
  let item := leAt b 0 1
  let n := 4 + itemLen item
  1 ≤ item && item ≤ 4 && allZero (slice b 1 3) && decide (n ≤ b.length)
    && (b.length == n || item == 3 || (item == 1 && bit (leAt b 4 1) 3))
    && (item != 1 || (leAt b 4 1 != 0 && decide (leAt b 4 1 < 16) && allZero (slice b 5 7)))

/-- The device reads one AUTH certificate after the first n bytes of a command (R569): layout, generation and item digest. -/
def State.authFits (s : State) (b : Bytes) (n : Nat) : Bool :=
  let c := b.drop n
  certFormat true c && leAt c 0x0C 4 == s.counter 4 && slice c 0x60 32 == digest256 (b.take n)

/-- An AUTH certificate that the quorum in effect has signed. -/
def State.authOk (s : State) (b : Bytes) (n : Nat) : Bool := s.authFits b n && certSigs (b.drop n) != 0 && s.certQuorum (b.drop n)

/-- The bytes of key slot i. -/
def State.slotBytes (s : State) (i : Nat) : Bytes := s.ledBytes (8 * (0x4000 + 16 * i)) 128

/-- Counter slot 4 advances and a measurement extends, with every enrolment and revocation (R538, R540). -/
def State.keyChange (s : State) (reg : Nat) (v : Bytes) : State := (s.advanceOrLog 4 (s.counter 4 + 1)).extendMeas reg (digest256 v)

/-- Fill a key slot with an enrolment (R502, R538); none: the key area is full. -/
def State.enrolSlot (s : State) (kind roles : Nat) (body : Bytes) : Option State :=
  (s.enrolKey kind roles body).map fun p => p.2.keyChange 4 (p.2.slotBytes p.1)

/-- The body of the policy record: the fabric key wrapped under a fresh nonce (R543). -/
def State.wrapPolicy (s : State) (b : Bytes) : Bytes × State :=
  if leAt b 2 2 = 0 then (slice b 0 0x10 ++ List.replicate 16 0#8 ++ slice b 0x20 240, s)
  else
    let (nonce, s) := s.freshBytes 12
    let ct := gcmCrypt Config.wrapKey nonce (slice b 0x20 32)
    (slice b 0 0x10 ++ nonce ++ List.replicate 4 0#8 ++ ct ++ slice (Config.gcmTag Config.wrapKey nonce [] ct) 0 16 ++ slice b 0x50 192, s)

/-- Enrol a security policy (R538, R542, R543); none while its record finds no room. -/
def State.enrolPolicy (s : State) (b : Bytes) : Option State :=
  let (rec_, s) := s.wrapPolicy b
  (s.append 0x30 rec_).map fun t =>
    let t := (t.keyChange 5 rec_).logFree 0x180A 0x0090 0xFF
    { t with sec := { t.sec with fabricKey := t.wrapOk && !t.sec.destroyed } }

/-- The refusal of R539 for an enrolment whose certificate, where one is needed, has been checked. -/
def State.enrolRefused (s : State) (b : Bytes) : Nat :=
  let item := leAt b 0 1
  let body := slice b 4 (itemLen item)
  let key := if item = 1 then slice body 8 48 else slice body 0 48
  if item ≤ 2 && s.keySlots.any (fun k => k.valid && k.kind ≠ 3 && keyId (k.body.take 48) == keyId key) then E.secKeyExists
  else if (item = 3 && !s.quorumOk body) || (item = 4 && !policyOk body) then E.secPolicy
  else 0

/-- An enrolment takes place, or is refused (R502, R507, R538, R539). -/
def State.enrol (s : State) (r : MReq) : State :=
  let b := r.body
  let item := leAt b 0 1
  let body := slice b 4 (itemLen item)
  let bad := s.enrolRefused b
  if bad ≠ 0 then s.answer r bad
  else if (s.advanceCounter 4 (s.counter 4 + 1)).isNone then s.answer r E.ledgerCounterFull
  else if item = 4 then
    match s.enrolPolicy body with
    | none => s.ledRetry r
    | some t => ((t.ledDone .cmd).logFree 0x1802 0x0090 0xFF).answer r 0
  else
    let o := if item = 1 then s.enrolSlot 1 (leAt body 0 1) (slice body 8 48 ++ List.replicate 56 0#8)
      else if item = 2 then s.enrolSlot 2 0 (body ++ List.replicate 56 0#8)
      else s.enrolSlot 3 0 body
    match o with
    | none => s.answer r E.ledgerKeysFull
    | some t => (t.logFree 0x1802 0x0090 0xFF).answer r 0

/-- The command carries, or needs, a quorum certificate after its first n bytes: it is checked by an operation without a handle. -/
def State.underAuth (s : State) (r : MReq) (n : Nat) (k : State → State) : State :=
  if s.authFits r.body n then s.inner 6 (48 * certSigs (r.body.drop n) + 1) (.auth r) else k s

/-- KEY_ENROLL of one item (R538, R539, R569). -/
def State.keyEnroll (s : State) (r : MReq) : State :=
  let b := r.body
  let item := leAt b 0 1
  s.bodyOk r (enrolFormat b) fun s =>
    let bad := s.enrolRefused b
    if item = 3 || (item = 1 && bit (leAt b 4 1) 3) then
      if bad = E.secKeyExists then s.answer r bad else s.underAuth r (4 + itemLen item) (fun u => u.answer r E.secQuorum)
    else s.enrol r

/-- KEY_ENROLL item 1. -/
def execKeyEnrollManager (s : State) : Out :=
  s.takeCmd 0x0058 (fun b => leAt b 0 1 ≤ 1 || 4 < leAt b 0 1) fun r s => s.keyEnroll r

/-- KEY_ENROLL item 2. -/
def execKeyEnrollPattern (s : State) : Out := s.takeCmd 0x0058 (fun b => leAt b 0 1 == 2) fun r s => s.keyEnroll r

/-- KEY_ENROLL item 3. -/
def execKeyEnrollQuorum (s : State) : Out := s.takeCmd 0x0058 (fun b => leAt b 0 1 == 3) fun r s => s.keyEnroll r

/-- KEY_ENROLL item 4. -/
def execKeyEnrollPolicy (s : State) : Out := s.takeCmd 0x0058 (fun b => leAt b 0 1 == 4) fun r s => s.keyEnroll r

/-- The key_id by which a slot is named: of its key, or for a policy the start of its digest (log entry 51). -/
def KeySlot.id (k : KeySlot) : Bytes := if k.kind = 3 then (digest256 k.body).take 8 else keyId (k.body.take 48)

/-- The valid slot that a key_id names. -/
def State.slotOf (s : State) (id : Bytes) : Option KeySlot := s.keySlots.find? (fun k => k.valid && k.id == id)

/-- The refusal of a revocation by its key alone (R540). -/
def State.revokeRefused (s : State) (id : Bytes) : Nat :=
  match s.slotOf id with
  | none => E.secKeyUnknown
  | some k =>
    if k.kind = 1 && hasRole k.roles 2 && ((s.validKeys 1).filter (fun q => hasRole q.roles 2)).length ≤ 1 then E.secLastKey else 0

/-- A revocation needs a quorum certificate: of a key with role M, or of the policy in effect. -/
def State.revokeNeedsAuth (s : State) (id : Bytes) : Bool :=
  (s.slotOf id).any (fun k => (k.kind = 1 && bit k.roles 3) || (k.kind = 3 && (s.policySlot.map (·.idx)) == some k.idx))

/-- A key is revoked, or the command refused (R540). -/
def State.revoke (s : State) (r : MReq) : State :=
  let id := slice r.body 0 8
  let bad := s.revokeRefused id
  if bad ≠ 0 then s.answer r bad
  else if (s.advanceCounter 4 (s.counter 4 + 1)).isNone then s.answer r E.ledgerCounterFull
  else
    match s.slotOf id with
    | none => s
    | some k =>
      let s := s.setLed (0x4000 + 16 * k.idx + 15) s.clk.ns
      let s := ((s.keyChange 4 (s.slotBytes k.idx)).logFree 0x1803 0x0090 0xFF).answer r 0
      if k.kind ≠ 1 then s
      else ((s.mgmt.sessions.filter (fun (y : SessSt) => y.keyId == id)).map (·.id)).foldl (fun u z => u.closeSession z) s

/-- KEY_REVOKE (R540, R569). -/
def execKeyRevoke (s : State) : Out := s.takeCmd 0x0059 (fun _ => true) fun r s =>
  s.bodyOk r (decide (8 ≤ r.body.length)) fun s =>
    let id := slice r.body 0 8
    let bad := s.revokeRefused id
    if bad ≠ 0 then s.answer r bad
    else if s.revokeNeedsAuth id then s.underAuth r 8 (fun u => u.answer r E.secQuorum)
    else if r.body.length ≠ 8 then s.answer r E.mgmtFormat
    else s.revoke r

/-- One step of the check of an AUTH certificate; the last answers the command that carried it. -/
def State.authStep (s : State) (i : Nat) (r : MReq) : State :=
  let k := (s.op i).done + 1
  let s := s.setOp i { s.op i with done := k }
  if k < (s.op i).total then s
  else
    let n := if r.code = 0x0058 then 4 + itemLen (leAt r.body 0 1) else 8
    let s := s.endOp i 2 0
    if !s.authOk r.body n then s.answer r E.secQuorum else if r.code = 0x0058 then s.enrol r else s.revoke r

/-- SMBUS_CLAIM (R537): the block write's payload. -/
def execSmbusClaim (payload : Bytes) (s : State) : Out := s.whenLive fun s =>
  let roles := leAt payload 48 1
  if !s.coreUp 0 || s.rd F.healthStatus_state = 1 then s
  else if s.keySlots.any (fun k => k.kind = 1) || payload.length ≠ 56 || 16 ≤ roles || !allZero (slice payload 49 7) then s.smbusNack
  else
    match s.enrolSlot 1 (7 + (if bit roles 3 then 8 else 0)) (slice payload 0 48 ++ List.replicate 56 0#8) with
    | none => s.smbusNack
    | some t => (t.logFree 0x180B 0x0090 0xFF).emit (.smbus 0 [])

/-- The values of counter slots 0 to 4. -/
def State.counters (s : State) : Bytes := (List.range 5).flatMap (fun k => toLe 4 (s.counter k))

/-- An attestation report without its signature (Table 18.6). -/
def State.attestReport (s : State) (m : Nat) (nonce : Bytes) : Bytes :=
  let fl := s.rd F.secStatus_recovery + 2 * ofBool (s.latestOf 0x31).isSome + 4 * ofBool (s.bkp.tamper != 0)
    + 8 * ofBool (s.rd F.dbgStatus_level != 0)
  let own := m < 64
  toLe 4 0x54414B49 ++ toLe 2 1 ++ toLe 1 m ++ toLe 1 fl ++ slice s.serial 0 16 ++ toLe 8 (s.reg .devIdent) ++ slice nonce 0 32
    ++ toLe 8 s.clk.ns ++ toLe 4 (s.rd F.fabEpoch_value)
    ++ toLe 1 (s.rd F.healthStatus_state + 128 * s.rd F.healthStatus_retained) ++ toLe 3 0
    ++ s.counters ++ toLe 4 s.bkp.counter ++ toLe 24 0 ++ (List.range 8).flatMap s.measBytes
    ++ toLe 1 (if own then s.mstate m else 0) ++ toLe 1 (if own then s.rd F.mouldStatus_kind m else 0)
    ++ toLe 2 (if own then s.heat m else 0) ++ toLe 4 0 ++ slice (if own then (s.mould m).digest else []) 0 32
    ++ (if own then toLe 8 (s.reg .reproKeyLo m) ++ toLe 8 (s.reg .reproKeyHi m) else toLe 16 0) ++ toLe 8 0
    ++ slice s.idPub 0 48 ++ toLe 16 0

/-- ATTEST op 0 (R548). -/
def execAttestCapture (s : State) : Out := s.takeCmd 0x005A (fun b => leAt b 0 1 != 1) fun r s =>
  let b := r.body
  let m := leAt b 1 1
  s.bodyOk r (b.length == 36 && leAt b 0 1 == 0 && (m < 64 || m == 0xFF) && allZero (slice b 2 2)) fun s =>
    if m < 64 && s.mstate m ≤ 1 then s.answer r E.secAttestMould
    else s.startOp r 6 64 (.attest (s.attestReport m (slice b 4 32))) fun _ t => t

/-- One step of a report's signature; the last keeps the signed report (R548). Once the key material is destroyed (R554) the signature
fails, with a code that no rule gives (log entry 56). -/
def State.attestStep (s : State) (i : Nat) (report : Bytes) : State :=
  let k := (s.op i).done + 1
  let s := s.setOp i { s.op i with done := k }
  if k < 64 then s
  else
    if s.sec.destroyed then
      let (e, s) := s.fresh 16
      s.endOp i 3 e
    else
    let signed := report ++ slice (Config.slhSign 3 Config.identKey report) 0 35664
    let kept := s.sec.reports.filter (fun p => (s.opOf p.1).isSome)
    ({ s with sec := { s.sec with reports := kept ++ [((s.op i).handle, signed)] } } : State).endOp i 2 0

/-- ATTEST op 1 (R548). -/
def execAttestFetch (s : State) : Out := s.takeCmd 0x005A (fun b => leAt b 0 1 == 1) fun r s =>
  let b := r.body
  let h := leAt b 4 4
  let o := leAt b 8 4
  let n := leAt b 12 2
  s.bodyOk r (b.length == 14 && allZero (slice b 2 2) && 1 ≤ n && n ≤ 1376 && decide (o + n ≤ 36176)) fun s =>
    match (s.opOf h).bind (fun _ => s.sec.reports.find? (fun p => p.1 = h)) with
    | some p => s.answer r 0 0 (slice p.2 o n)
    | none => s.answer r E.secNoReport

/-- The debug level changes (R534, R553). -/
def State.setDebug (s : State) (level : Nat) (until_ : Option Nat) : State :=
  let old := s.rd F.dbgStatus_level
  let s := ({ s with sec := { s.sec with debugEnd := until_ } } : State).wr F.dbgStatus_level level
  if level = old then s
  else (s.extendMeas 6 (toLe 32 level)).logFree (if old < level then 0x1805 else 0x1806) 0x0090 0xFF

/-- Every mould is EMPTY. -/
def State.allEmpty (s : State) : Bool := (List.range 64).all (fun m => s.mstate m = 0)

/-- The body of DEBUG_AUTH has its format (R553). -/
def debugFormat (b : Bytes) : Bool :=
  b.length == 8 && allZero (slice b 2 2) && (leAt b 0 1 != 0 || (1 ≤ leAt b 4 4 && leAt b 4 4 ≤ 86400))

/-- DEBUG_AUTH op 0 (R553). -/
def execDebugAuthRaise (s : State) : Out := s.takeCmd 0x005B (fun b => leAt b 0 1 == 0 || 2 < leAt b 0 1) fun r s =>
  let level := leAt r.body 1 1
  let st := s.rd F.healthStatus_state
  s.bodyOk r (debugFormat r.body && leAt r.body 0 1 == 0) fun s =>
    if leAt s.policy 1 1 < level || 3 ≤ level || s.rd F.dbgStatus_level = 3 then s.answer r E.secDebugLevel
    else if level = 2 && ((st ≠ 2 && st ≠ 6) || !s.allEmpty) then s.answer r E.secDebugState
    else (s.setDebug level (if level = 0 then none else some (s.clk.up + leAt r.body 4 4 * 1000000000))).answer r 0

/-- DEBUG_AUTH op 1 (R553). -/
def execDebugAuthDrop (s : State) : Out := s.takeCmd 0x005B (fun b => leAt b 0 1 == 1) fun r s =>
  s.bodyOk r (debugFormat r.body) fun s =>
    if s.rd F.dbgStatus_level = 3 then s.answer r E.secDebugLevel else (s.setDebug 0 none).answer r 0

/-- DEBUG_AUTH op 2 (R551, R553): latches whose condition no longer holds are cleared. -/
def execDebugAuthClearTamper (s : State) : Out := s.takeCmd 0x005B (fun b => leAt b 0 1 == 2) fun r s =>
  s.bodyOk r (debugFormat r.body) fun s =>
    ({ s with bkp := { s.bkp with tamper := s.bkp.tamper &&& s.sec.tampCond } } : State).answer r 0

/-- DEBUG_LEVEL_EXPIRY (R553): duration_s has passed. -/
def execDebugLevelExpiry (dt : Nat) (s : State) : Out := s.whenLive fun s =>
  let s := s.pass dt
  if s.sec.debugEnd.any (fun t => t ≤ s.clk.up) && s.rd F.dbgStatus_level ≠ 3 then s.setDebug 0 none else s

/-- TAMPER_EVENT (R551): condition k of Table 18.7 begins or ends. -/
def execTamperEvent (k : Nat) (on : Bool) (s : State) : Out :=
  if 6 ≤ k then done s
  else
    let s := { s with sec := { s.sec with tampCond := setBit s.sec.tampCond k on } }
    if !on || bit s.bkp.tamper k then done s
    else
      let s := { s with bkp := { s.bkp with tamper := setBit s.bkp.tamper k true } }
      if !s.live then done (s.bootNote 0x1804 0x00C0 0xFF k)
      else
        let s := s.logWith 0x1804 0x00C0 0xFF k
        done (if bit (leAt s.policy 0 1) k then s.assertReset 0x06 else s)

/-- The next chunk the recovery loader wants. -/
def State.recNext (s : State) : Nat :=
  match s.led.stage with
  | none => 0
  | some st => ((List.range (stgChunks st.total)).find? (fun i => (s.chunkOf st.id st.total i).isNone)).getD 0

/-- The stage id the recovery loader shows; 0 before it has one. -/
def State.recId (s : State) : Nat := (s.led.stage.map (·.id)).getD 0

/-- RECOVERY_REQUEST (R550): every 100 ms, on MGMT_A and MGMT_B in turn. -/
def execRecoveryRequest (dt : Nat) (s : State) : Out := s.whenLive fun s =>
  let s := s.pass dt
  match s.sec.recovering with
  | none => s
  | some reason =>
    if s.clk.up < s.sec.recAt + 100000000 then s
    else
      let p := s.sec.recPort
      let s := { s with sec := { s.sec with recAt := s.clk.up, recPort := 1 - p % 2 } }
      s.emit (.mgmt p 0x100 (toLe 4 0x51524B49 ++ slice s.serial 0 16 ++ digest256 s.idPub ++ toLe 4 s.recId ++ toLe 2 s.recNext ++ toLe 2 reason))

/-- The recovery loader has every chunk: it checks and commits the image, and resets the device; or starts again from chunk 0. -/
def State.recCommit (s : State) (st : StageSt) : State :=
  let b := (s.stageData st.id st.total).getD []
  let again := fun (u : State) => ({ u.dropStage with sec := { u.sec with recHave := [], recStage := 0 } } : State)
  if !imageOk b || !imageSigned b then again { s with sec := { s.sec with recovering := some E.ledgerImage } }
  else if stageVersion 0 b < s.counter 3 then again { s with sec := { s.sec with recovering := some E.ledgerRollback } }
  else
    let body := toLe 8 0 ++ toLe 4 st.id ++ stageDigest 0 b
    match (s.append 3 body).bind (fun t => t.append 4 (body ++ toLe 4 (stageVersion 0 b) ++ toLe 4 st.total)) with
    | none => s
    | some t =>
      let t := ({ t with led := { t.led with stage := none } } : State).assertReset 0x07
      { t with rst := { t.rst with recovered := true } }

/-- A chunk of the image has come whole (R550): it is staged, behind a STAGE_OPEN when it is the first. -/
def State.recChunk (s : State) (idx total : Nat) (data : Bytes) : State :=
  let opened := match s.led.stage with
    | some st => some (st, s)
    | none =>
      if !stageLenOk 0 total (slice data 0 64) then none
      else (s.append 1 (toLe 8 0 ++ toLe 8 total ++ slice data 0 64)).map fun (t : State) =>
        let st : StageSt := ⟨0, t.led.seq % 2 ^ 32, total, 0, false, false⟩
        (st, ({ t with led := { t.led with stage := some st } } : State))
  let clear := fun (u : State) => ({ u with sec := { u.sec with recHave := [] } } : State)
  match opened with
  | none => clear s
  | some (st, t) =>
    match t.append 2 (toLe 8 (chunkKey st.id idx) ++ data) with
    | none => clear t
    | some u =>
      let u := clear u
      if (List.range (stgChunks st.total)).all (fun i => (u.chunkOf st.id st.total i).isSome) then u.recCommit st else u

/-- RECOVERY_DATA_RX (R550): a data datagram on a management port. -/
def execRecoveryDataRx (d : Bytes) (s : State) : Out := s.whenLive fun s =>
  let idx := leAt d 8 2
  let frag := leAt d 10 1
  let total := leAt d 11 4
  let data := d.drop 15
  let len := stgLen total idx
  if s.sec.recovering.isNone || leAt d 0 4 ≠ 0x44524B49 || leAt d 4 4 ≠ s.recId || idx ≠ s.recNext || 64 ≤ frag || stgChunks total ≤ idx then s
  else if (s.led.stage.any (fun st => st.total ≠ total)) || (!s.sec.recHave.isEmpty && s.sec.recStage ≠ total) then s
  else if data.length ≠ min 1024 (len - 1024 * frag) || data.isEmpty then s
  else
    let have_ := if s.sec.recHave.any (fun p => p.1 = frag) then s.sec.recHave else s.sec.recHave ++ [(frag, data)]
    let s := { s with sec := { s.sec with recHave := have_, recStage := total } }
    if have_.length < cdiv len 1024 then s
    else s.recChunk idx total ((sortBy (fun a b => a.1 ≤ b.1) have_).flatMap (·.2))

end Sys2Proof.Machine
end

