-- ==== Sys2Proof/Machine/CsrAccess.lean ====
section
/-! DEFINITION. Sys2Proof/Machine/CsrAccess.lean: reads and writes of CSRs by address (R13, R14, R20, R74, R609, Table 0.3): what a
register reads when its fields show other state, what its write does, and which accesses are logged. -/
namespace Sys2Proof.Machine

/-- The bits of the fields whose access codes satisfy p. -/
def RegShape.bitsWith (r : RegShape) (p : Acc → Bool) : Nat :=
  sumNat ((r.flds.filter (fun f => p f.acc)).map (fun f => (2 ^ (f.hi + 1 - f.lo) - 1) * 2 ^ f.lo))

/-- Bits of x outside a mask, in 64 bits. -/
def clearBits (x mask : Nat) : Nat := x % 2 ^ 64 &&& (mask % 2 ^ 64 ^^^ (2 ^ 64 - 1))

/-- Fields that a write replaces. -/
def Acc.stored : Acc → Bool
  | .rw | .rws | .rl => true
  | .ro | .w1c | .wo => false

/-- Whole seconds left until an instant, a part counting as one. -/
def State.secondsLeft (s : State) (t : Nat) : Nat := cdiv (t - s.clk.up) 1000000000

/-- Set consecutive fields of a register value: low bit, width, value. -/
def withFields (v : Nat) (l : List (Nat × Nat × Nat)) : Nat := l.foldl (fun n (lo, w, x) => setBits n lo w x) v

/-- Free words of engine e in mould m's part of program memory (R425). -/
def State.seFree (s : State) (c e m : Nat) : Nat :=
  match s.sePart c e m with
  | none => 0
  | some (a, b) => b - a - sumNat (((s.seng c e).progs.filter (fun p => p.mould = m)).map (fun p => p.words.length))

/-- SRAM scrub stands still in field f (R297). -/
def State.scrubStopped (s : State) (f : Nat) : Bool := 2 ≤ s.rd F.govStatus_shedStage f || !s.flag F.scrubCtrl_sramEn

/-- A token is being verified (R607). -/
def State.tokenBusy (s : State) : Bool :=
  s.mgmt.ops.any (fun e => e.2.state = 1 && (match e.2.body with | .token _ _ => true | _ => false))

/-- PAT_STATUS (Table 2.11). -/
def State.patStatusNow (s : State) : List (Nat × Nat × Nat) :=
  let p := s.pouring
  let isBase := p.any (fun e => match e.2.body with | .pour q => q.base | _ => false)
  let m := (p.map (fun e => match e.2.body with | .pour q => q.mould | .quench m _ _ _ _ _ => m | _ => 0)).getD 0
  [(0, 1, ofBool s.oper.isSome), (1, 1, ofBool p.isSome), (2, 6, if isBase then 0 else m), (8, 1, ofBool isBase)]

/-- EGR_QSTAT_q (Table 13.8). -/
def State.queueNow (s : State) (q : Nat) : List (Nat × Nat × Nat) :=
  let o := (s.qInfo q).bind (·.owner)
  [(0, 16, min 0xFFFF ((s.eq q).bytes / 64)), (48, 6, o.getD 0), (54, 1, ofBool o.isSome)]

/-- SEQ_MEM (Table 6.16). -/
def State.seqMemNow (s : State) (c : Nat) : List (Nat × Nat × Nat) :=
  let k := s.clu c
  let used := sumNat (k.lists.map (fun l => cdiv l.image.length 8192)) + sumNat (k.loads.map (·.pages))
  [(0, 7, 64 - used), (8, 7, k.lists.length), (15, 1, ofBool (!k.loads.isEmpty))]

/-- SE_PROG_e (Table 14.12). -/
def State.seProgNow (s : State) (c e : Nat) : List (Nat × Nat × Nat) :=
  let own := ((s.claimer c).map (s.seFree c e)).getD 0
  let other := ((s.clusterBorrower c).map (s.seFree c e)).getD 0
  [(0, 14, own), (14, 14, other), (28, 8, (s.seng c e).progs.length), (36, 1, ofBool (!(s.seng c e).loads.isEmpty))]

/-- LEDGER_STATUS (Table 17.13). -/
def State.ledStatusNow (s : State) : List (Nat × Nat × Nat) :=
  let st := s.led.stage
  let live := sumNat ((List.range 31).map (fun g => s.liveBytes (g + 1)))
  [(2, 5, s.led.head), (8, 5, s.freeSegs.length), (17, 1, ofBool (st.any (fun x => !x.staged))), (18, 1, (st.map (·.target)).getD 0),
   (19, 1, ofBool (st.any (·.staged))), (32, 32, live / 1024)]

/-- SEC_STATUS (Table 18.9). -/
def State.secStatusNow (s : State) : List (Nat × Nat × Nat) :=
  [(2, 1, ofBool (s.keySlots.any (fun k => k.kind = 1))), (4, 1, ofBool (s.latestOf 0x31).isSome), (5, 2, s.rd F.dbgStatus_level),
   (7, 1, ofBool (s.latestOf 0x30).isSome), (16, 16, (s.validKeys 1).length), (32, 16, (s.validKeys 2).length)]

/-- The fields of a register that show other state at the instant of a read. -/
def State.shown (s : State) (r : RegName) (i j : Nat) : List (Nat × Nat × Nat) :=
  match r with
  | .patStatus => s.patStatusNow
  | .baseDigest => [(0, 64, (s.oper.map (fun p => leAt p.digest (8 * i) 8)).getD 0)]
  | .seqMem => s.seqMemNow i
  | .mouldStatus => [(32, 8, (s.runsOfMould i).length)]
  | .ctxStatus => [(0, 3, s.ctxState i j), (48, 8, (s.runsOf i j).length),
      (56, 8, min 255 (sumNat (s.clus.map (fun e => (Tab.get [] e.2.queues (ctxKey i j)).length))))]
  | .hotStatus => [(0, 16, s.hot.length), (16, 16, sumNat (s.moulds.map (fun e => e.2.maxHot)))]
  | .scrubStatus => [(32, 4, sumNat ((List.range 4).map (fun f => if s.scrubStopped f then 2 ^ f else 0)))]
  | .rcache => [(0, 16, (s.fab.cache.filter (fun e => s.clk.up < e.at_ + 1000000)).length)]
  | .collStatus => [(0, 9, s.groupIdx.length), (16, 13, s.quotaAll), (32, 13, sumNat (s.groups.map (fun e => e.2.slots.length)))]
  | .egrQstat => s.queueNow i
  | .timeNowNs => [(0, 64, s.clk.ns)]
  | .timeCapFrac => [(32, 5, (Tab.get [] s.tim.fifo i).length)]
  | .seProg => s.seProgNow i (j + 4)
  | .apStatus => [(0, 2, qMode s.queueMap (0x10 + i))]
  | .radioCar => [(2, 1, ofBool (s.flag F.radioCar_bound i && s.mstate (s.rd F.radioCar_mould i) == 3))]
  | .mcStatus => [(8, 5, (s.mgmt.sessions.filter (·.confirmed)).length), (16, 7, s.opsRunning)]
  | .logStatus => [(0, 48, s.log.seq)]
  | .ledgerStatus => s.ledStatusNow
  | .ledgerWear => [(0, 20, s.cmax), (20, 20, min 0xFFFFF s.projection), (40, 24, s.opSeconds / 3600)]
  | .secStatus => s.secStatusNow
  | .tamper => [(0, 8, s.bkp.tamper), (8, 8, leAt s.policy 0 1)]
  | .dbgStatus => [(2, 1, ofBool s.tokenBusy),
      (8, 17, if s.rd F.dbgStatus_level = 3 then 0 else (s.sec.debugEnd.map s.secondsLeft).getD 0)]
  | .healthStatus => [(32, 20, if s.flag F.healthStatus_retained then (s.health.retainEnd.map s.secondsLeft).getD 0 else 0)]
  | .quar => [(8, 8, if s.flag F.quar_active i then s.secondsLeft (s.quar i).until_ else 0)]
  | .rstStatus => [(0, 32, s.bkp.counter), (32, 8, s.bkp.cause), (40, 1, ofBool s.bkp.valid), (41, 1, ofBool s.bkp.trip)]
  | .thermStatus => [(40, 1, ofBool (!s.rst.thermLow.isEmpty))]
  | .bkpSeconds => [(0, 48, s.bkp.seconds)]
  | .blkChill => [(0, 64, sumNat ((List.range 64).map (fun k => if s.blockChill (64 * i + k) then 2 ^ k else 0)))]
  | _ => []

/-- The registers whose unreported counts no event carries: held and holding beats of an array (log entry 52). -/
def State.readArrBeats (s : State) (i j : Nat) : Nat × State :=
  let (a, s) := s.fresh 16
  let (b, s) := s.fresh 16
  (withFields (s.reg .arrBeats i j) [(32, 16, a), (48, 16, b)], s)

/-- What a register reads. -/
def State.csrValue (s : State) (r : RegName) (i j : Nat) : Nat := withFields (s.reg r i j) (s.shown r i j)

/-- A read of register r (Table 0.3), with what a read does beside: TIME_NOW_NS copies the fraction (R393), TIME_CAP_NS_c removes its
stamp (R408). -/
def State.readReg (s : State) (r : RegName) (i j : Nat) : Nat × State :=
  match r with
  | .timeNowNs => (s.clk.ns, s.readNow)
  | .timeCapNs => s.readCap i
  | .arrBeats => s.readArrBeats i j
  | r => (s.csrValue r i j, s)

/-- An access by its address: in the window of a disabled cluster (R20), at no register (R609), or at a register. -/
inductive CsrAt where
  | disabled
  | none
  | reg (r : RegName) (i j : Nat)
  deriving DecidableEq, Repr

/-- Where an address leads. -/
def State.csrAt (s : State) (addr : Nat) : CsrAt :=
  if (csrCluster addr).any (fun c => !s.enabled c) then .disabled
  else
    match regAt addr with
    | some (r, i, j) => .reg r i j
    | none => .none

/-- A CSR read by a requester (0 a management command, 1 the TAP, 2 and up a thread). -/
def State.readCsr (s : State) (req addr : Nat) : Nat × State :=
  match s.csrAt addr with
  | .disabled => (0, s.csrLog 0x0002 addr false req 0)
  | .none => (0, s.csrLog 0x0003 addr false req 0)
  | .reg r i j => s.readReg r i j

/-- The value a masked write brings: of W1C and WO fields only the bits in the mask, of the others the old bits outside it. -/
def effective (r : RegName) (old value mask : Nat) : Nat :=
  let keep := r.shape.bitsWith Acc.stored
  (clearBits old mask &&& keep) ||| (value &&& mask)

/-- What a write leaves in a register without behaviour of its own (Table 0.3); ARR_STATUS.suspect ignores writes (Table 5.6). -/
def plainValue (r : RegName) (old eff : Nat) : Nat :=
  let st := if r = .arrStatus then 0 else r.shape.bitsWith Acc.stored
  let w1 := r.shape.bitsWith (· = .w1c)
  clearBits old (st ||| (w1 &&& eff)) ||| (eff &&& st)

/-- Registers whose writes have a rule of their own; LEDGER_CTRL only with store_net set. -/
def hasRule (r : RegName) (eff : Nat) : Bool :=
  match r with
  | .govCtrl | .arrCtrl | .svcRing | .radioCpring | .timeIncr | .timeCtrl | .timeTrigCfg | .blkRst => true
  | .ledgerCtrl => bit eff 0
  | _ => false

/-- A write to a register without a rule of its own (R14): a locked RL field keeps its value, and the write is logged. -/
def State.writePlain (s : State) (req : Nat) (r : RegName) (i j value eff : Nat) : State :=
  if r = .arrCfg && (s.claimer i).isSome then s.csrLog 0x0001 (regAddr r i j) true req value
  else s.setReg r i j (plainValue r (s.reg r i j) eff)

/-- A write of ARR_CTRL_a (Table 5.9). -/
def State.writeArrCtrl (s : State) (c a eff : Nat) : State :=
  let s := if bit eff 0 then s.clearCounters c a else s
  if bit eff 1 then s.selfTest c a else s

/-- A write to register r: the code it is refused with, if any, and the state. -/
def State.writeReg (s : State) (req : Nat) (r : RegName) (i j value mask : Nat) : Nat × State :=
  let eff := effective r (s.reg r i j) value mask
  if mask &&& r.shape.bitsWith (· ≠ .ro) = 0 then (0, s)
  else
    match r with
    | .govCtrl => (0, s.govWrite i eff)
    | .arrCtrl => (0, s.writeArrCtrl i j eff)
    | .svcRing => (0, s.writeSvcRing req i eff)
    | .radioCpring => (0, s.writeCpTail req i eff)
    | .timeIncr => (0, s.writeIncr eff)
    | .timeCtrl => s.writeTimeCtrl eff
    | .timeTrigCfg => (0, s.writeTrig i eff)
    | .ledgerCtrl => (0, s.writeLedgerCtrl eff)
    | .blkRst => (0, s.writeBlkRst eff)
    | r => (0, s.writePlain req r i j value eff)

/-- A CSR write by a requester. -/
def State.writeCsr (s : State) (req addr value mask : Nat) : Nat × State :=
  match s.csrAt addr with
  | .disabled => (0, s.csrLog 0x0002 addr true req value)
  | .none => (0, s.csrLog 0x0003 addr true req value)
  | .reg r i j => s.writeReg req r i j (value % 2 ^ 64) (mask % 2 ^ 64)

/-- REGISTER_WRITE (R14): a register without behaviour of its own. -/
def execRegisterWrite (req addr value : Nat) (s : State) : Out := s.whenLive fun s =>
  match s.csrAt addr with
  | .reg r i j => if hasRule r value then s else (s.writeReg req r i j (value % 2 ^ 64) (2 ^ 64 - 1)).2
  | .disabled => s
  | .none => s

/-- CSR_INVALID_ACCESS (R609). -/
def execCsrInvalidAccess (req addr : Nat) (write : Bool) (value : Nat) (s : State) : Out := s.whenLive fun s =>
  if s.csrAt addr = .none then s.csrLog 0x0003 addr write req (if write then value else 0) else s

/-- DISABLED_CLUSTER_ACCESS (R20). -/
def execDisabledClusterAccess (req addr : Nat) (write : Bool) (value : Nat) (s : State) : Out := s.whenLive fun s =>
  if s.csrAt addr = .disabled then s.csrLog 0x0002 addr write req (if write then value else 0) else s

end Sys2Proof.Machine
end

