-- ==== Sys2Proof/Machine/Tap.lean ====
section
/-! DEFINITION. Sys2Proof/Machine/Tap.lean: the test access port (R599 to R608): instructions, test modes, the boundary register, debug
tokens (R554) and debug accesses (R552). -/
namespace Sys2Proof.Machine

/-- The TAP after a change. -/
def State.setTap (s : State) (f : TapSt → TapSt) : State := { s with tap := f s.tap }

/-- Capture-IR (R600): it loads the status bits, and clears test_denied. -/
def State.captureIr (s : State) : State :=
  let v := 1 + s.rd F.dbgStatus_level * 2 ^ 2 + ofBool s.tokenBusy * 2 ^ 4 + ofBool s.tap.denied * 2 ^ 5
  s.setTap fun t => { t with irOut := v, denied := false }

/-- An instruction is loaded (Update-IR): its code and the instruction in effect. -/
def State.loadIr (s : State) (code mode : Nat) : State := s.captureIr.setTap fun t => { t with ir := code, mode := mode }

/-- A test-mode instruction is loaded (R602): in effect only while the device reset is asserted. -/
def State.loadTest (s : State) (code : Nat) : State :=
  if s.rst.asserted then s.loadIr code code else (s.loadIr code 0xFF).setTap fun t => { t with denied := true }

/-- What Capture-DR loads into the selected data register. -/
def State.captureDr (s : State) (v : Nat) : State := s.setTap fun t => { t with dr := v }

/-- Cells of the boundary register (R605). -/
def boundaryLen : Nat := 3583

/-- The pin levels as the boundary cells see them: from outside, and of the pins that the state drives THERMTRIP_N, the bypass pins
and ALERT_N (Table 21.5). -/
def State.pinLevels (s : State) (pins : Nat) : Nat :=
  withFields (pins % 2 ^ boundaryLen) [(2, 1, ofBool (!s.bkp.trip)), (3, 3, s.rst.bypass), (27, 1, ofBool (!s.rst.alertLow))]

/-- The control cell that governs an output cell (Table 21.5): none for a cell that drives no pin, some none for a pin without one. -/
def outputCtrl (n : Nat) : Option (Option Nat) :=
  if n < 28 then
    (if 11 ≤ n && n ≤ 15 then some (some 16) else if n = 17 then some (some 18)
     else if n = 20 || n = 22 || n = 24 || n = 26 || n = 27 then some none else none)
  else if n < 34 then (if (n - 28) % 3 = 0 then some (some (n + 2)) else none)
  else if n < 214 then (if (n - 34) % 9 < 4 then some (some (n - (n - 34) % 9 + 8)) else none)
  else if n < 280 then (if (n - 214) % 33 < 16 then some (some (n - (n - 214) % 33 + 32)) else none)
  else if n < 282 then some (some (214 + 33 * (n - 280) + 32))
  else if n < 286 then some (some 286)
  else if n < 287 then none
  else if n < boundaryLen then
    let b := 287 + 103 * ((n - 287) / 103)
    let o := (n - 287) % 103
    if o < 76 then
      let k := o / 19
      let q := o % 19
      (if (q % 2 = 0 && 2 ≤ q) then some (some (b + 19 * k)) else none)
    else if o < 102 then some (some (b + 102))
    else none
  else none

/-- The level that a boundary cell drives on its pin in the test mode in effect (R602, R603, R605): none where it drives nothing. -/
def State.driven (s : State) (n : Nat) : Option Bool :=
  let m := s.tap.mode
  if m = 4 || m = 5 || m = 8 || m = 9 then
    (outputCtrl n).bind fun c => if (c.map (bit s.tap.cells)).getD true then some (bit s.tap.cells n) else none
  else none

/-- TAP_RESET (R600, R601): Test-Logic-Reset. -/
def execTapReset (s : State) : Out := done (s.setTap fun t => { t with ir := 0x01, mode := 0x01 })

/-- IDCODE (R604). -/
def execIdcode (s : State) : Out := done ((s.loadIr 0x01 0x01).captureDr 0x209608BB)

/-- SAMPLE (R605): the levels at the pins. -/
def execSample (pins : Nat) (s : State) : Out := done ((s.loadIr 0x02 0x02).captureDr (s.pinLevels pins))

/-- PRELOAD (R605): the cells take the shifted value; no pin changes. -/
def execPreload (value : Nat) (s : State) : Out :=
  done ((s.loadIr 0x03 0x03).setTap fun t => { t with cells := value % 2 ^ boundaryLen })

/-- A scan of the boundary register under a test mode: it captures the pins and loads the cells; the bypass register captures 0. -/
def State.testScan (s : State) (scan : Bool) (pins value : Nat) : State :=
  if !scan then s
  else if s.tap.mode = 0xFF then s.captureDr 0
  else (s.captureDr (s.pinLevels pins)).setTap fun t => { t with cells := value % 2 ^ boundaryLen }

/-- EXTEST (R599, R602), with a scan of the selected register or without. -/
def execExtest (scan : Bool) (pins value : Nat) (s : State) : Out := done ((s.loadTest 0x04).testScan scan pins value)

/-- EXTEST_PULSE (R599, R602). -/
def execExtestPulse (scan : Bool) (pins value : Nat) (s : State) : Out := done ((s.loadTest 0x08).testScan scan pins value)

/-- EXTEST_TRAIN (R599, R602). -/
def execExtestTrain (scan : Bool) (pins value : Nat) (s : State) : Out := done ((s.loadTest 0x09).testScan scan pins value)

/-- CLAMP (R602): pins stay driven by the cells; the bypass register is selected. -/
def execClamp (s : State) : Out := done ((s.loadTest 0x05).captureDr 0)

/-- HIGHZ (R599, R602): no controlled pin is driven; the bypass register is selected. -/
def execHighz (s : State) : Out := done ((s.loadTest 0x06).captureDr 0)

/-- Codes of Table 21.4 other than BYPASS. -/
def tapDecodes (c : Nat) : Bool :=
  (1 ≤ c && c ≤ 6) || c == 8 || c == 9 || (0x20 ≤ c && c ≤ 0x22) || (0x40 ≤ c && c ≤ 0x4F)

/-- BYPASS (R601): its own code, or any that the TAP does not decode. -/
def execBypass (code : Nat) (s : State) : Out :=
  if tapDecodes (code % 256) then done s else done ((s.loadIr (code % 256) 0xFF).captureDr 0)

/-- INTERNAL_SCAN (R601): vendor scan k at level 3, whose contents no rule gives (log entry 53); bypass below it. -/
def execInternalScan (k : Nat) (s : State) : Out :=
  let code := 0x40 + k % 16
  if s.rd F.dbgStatus_level = 3 then
    let (v, s) := s.fresh 64
    done ((s.loadIr code code).captureDr v)
  else done ((s.loadIr code 0xFF).captureDr 0)

/-- DBG_CHALLENGE (R554, R606): a fresh challenge with its instant; the device in reset has none to give. -/
def execDbgChallenge (s : State) : Out :=
  let (b, s) := s.freshBytes 32
  let s := (s.loadIr 0x20 0x20).captureDr (leNat b)
  done (if s.live then { s with sec := { s.sec with challenge := some (b, s.clk.up) } } else s)

/-- Length of a token with its signature (R607). -/
def tokenLen : Nat := 29864

/-- DBG_TOKEN (R607): Capture-DR shows the result; Update-DR starts a verification, which uses the challenge up. -/
def execDbgToken (data : Bytes) (s : State) : Out :=
  let s := s.loadIr 0x21 0x21
  let s := s.captureDr (if s.tokenBusy then 1 else s.tap.tokenRes)
  if s.tokenBusy || !s.live then done s
  else
    let d := slice data 0 tokenLen
    let ok := s.sec.challenge.any (fun c => c.1 == slice d 8 32 && s.clk.up ≤ c.2 + 600000000000)
    done (({ s with sec := { s.sec with challenge := none } } : State).inner 6 96 (.token d ok))

/-- A token as R554 gives it: level 3, this device, the Irkor key, and its signature. -/
def State.tokenSigned (s : State) (d : Bytes) : Bool :=
  leAt d 0 1 == 3 && allZero (slice d 1 7) && slice d 40 16 == s.serial && slice d 56 8 == keyId Config.irkorKey
    && allZero (slice d 68 4) && Config.slhVerify 1 Config.irkorKey (slice d 0 72) (slice d 72 29792)

/-- The result of a token (R607). -/
def State.tokenResult (s : State) (d : Bytes) (fresh : Bool) : Nat :=
  if !s.tokenSigned d then 2 else if !fresh then 3
  else if s.rd F.healthStatus_state ≠ 2 || !s.allEmpty then 4 else 0

/-- The operation that verifies a token. -/
def State.tokenOp (s : State) : Option (Nat × Bytes × Bool) :=
  s.mgmt.ops.findSome? (fun e => if e.2.state = 1 then (match e.2.body with | .token d f => some (e.1, d, f) | _ => none) else none)

/-- Level 3 is unlocked (R554): key material is destroyed, sessions close, and the ledger keeps record 0x0031. Ports that MACsec protects
lose their keys. -/
def State.unlock (s : State) : State :=
  let s := (s.mgmt.sessions.map (fun (y : SessSt) => y.id)).foldl (fun (u : State) z => u.closeSession z) s
  let s := { s with sec := { s.sec with destroyed := true, fabricKey := false } }
  let s := (List.range 12).foldl (fun (u : State) p => if u.flag F.portStatus_macsec p then u.portLeaves p 0 else u) s
  (s.appendOwn 0x31 (toLe 8 s.clk.ns)).setDebug 3 none

/-- DEBUG_TOKEN_VERIFIED (R554, R607): all 96 steps have run. -/
def execDebugTokenVerified (s : State) : Out := s.whenLive fun s =>
  match s.tokenOp with
  | none => s
  | some (i, d, f) =>
    if (s.op i).done < 96 then s
    else
      let r := s.tokenResult d f
      let s := (s.endOp i (if r = 0 then 2 else 3) 0).setTap fun t => { t with tokenRes := r }
      if r = 0 then s.unlock else s

/-- A debug access (R608): Capture-DR shows the last one; the new one leaves its status and data. -/
def State.dbgAccess (s : State) (level : Nat) (k : State → Nat × Nat × State) : Out :=
  let s := s.loadIr 0x22 0x22
  let s := s.captureDr (s.tap.accStatus + s.tap.accData * 2 ^ 64)
  let (st, v, s) := if s.live && level ≤ s.rd F.dbgStatus_level then k s else (2, 0, s)
  done (s.setTap fun t => { t with accStatus := st, accData := v })

/-- DBG_CSR_READ (R608). -/
def execDbgCsrRead (addr : Nat) (s : State) : Out := s.dbgAccess 1 fun s =>
  let (v, t) := s.readCsr 1 (addr % 2 ^ 32)
  (0, v, t)

/-- DBG_CSR_WRITE (R608). -/
def execDbgCsrWrite (addr value : Nat) (s : State) : Out := s.dbgAccess 2 fun s =>
  (0, 0, (s.writeCsr 1 (addr % 2 ^ 32) value (2 ^ 64 - 1)).2)

/-- Word w of the event record whose sequence has these low 30 bits, while the ring holds it (R608; log entry 54). -/
def State.logWordOf (s : State) (q w : Nat) : Option Nat :=
  (s.log.recs[(s.log.seq + 2 ^ 30 - 1 - q % 2 ^ 30) % 2 ^ 30]?).map (fun r => leAt r.bytes (8 * w) 8)

/-- A memory read of DBG_ACCESS (Table 21.6): the status, the data and the state. -/
def State.dbgMemory (s : State) (space cluster addr : Nat) : Nat × Nat × State :=
  if space = 3 then
    match s.logWordOf (addr / 4) (addr % 4) with
    | some v => (0, v, s)
    | none => (3, 0, s)
  else if addr % 8 ≠ 0 then (3, 0, s)
  else if space = 0 then
    if s.enabled cluster && addr < 2 ^ 24 then (0, leNat (s.sramBytes cluster addr 8), s) else (3, 0, s)
  else if space = 1 then
    if addr < 2 ^ 23 then
      let (v, t) := s.fresh 64
      (0, v, t)
    else (3, 0, s)
  else if addr < 2 ^ 25 then (0, s.ledW (addr / 8), s)
  else (3, 0, s)

/-- DBG_MEMORY_READ (R608): space 3, the event log, needs level 1, the others level 2. The contents of management SRAM are free
values (log entry 55). -/
def execDbgMemoryRead (space cluster addr : Nat) (s : State) : Out :=
  s.dbgAccess (if space % 4 = 3 then 1 else 2) fun s => s.dbgMemory (space % 4) (cluster % 256) (addr % 2 ^ 32)

end Sys2Proof.Machine
end

