-- ==== Sys2Proof/Machine/MgmtProto.lean ====
section
/-! DEFINITION. Sys2Proof/Machine/MgmtProto.lean: the management protocol (R478 to R485): datagrams, sessions and their handshake,
records and request_ids; the management ports; watchdogs of the management cores (R477). -/
namespace Sys2Proof.Machine

/-- A datagram reaches the protocol: the port's link is up, core 1 runs, and its source is not quarantined (R478, R575). -/
def State.mgmtRx (s : State) (p : Nat) (src : Bytes) (k : State → State) : Out := s.whenLive fun s =>
  if p < 2 && s.portUp p && s.coreUp 1 && !(s.srcQuar (src.take 16)).active then k s else s

/-- A datagram that is not the protocol, or malformed, is dropped and counted (R478, Table 16.15). -/
def State.dropOther (s : State) (p : Nat) : State := s.cnt F.mgmtPort_dropOther p

/-- A record is dropped and counted against its source (R481, Table 19.11). -/
def State.dropAuth (s : State) (p : Nat) (src : Bytes) : State := (s.cnt F.mgmtPort_dropAuth p).srcHit (src.take 16) false

/-- A handshake is refused (R480): logged with 0x1605, without a reply. -/
def State.refuseHs (s : State) (p : Nat) (src : Bytes) : State :=
  ((s.cnt F.mgmtPort_dropAuth p).logFree 0x1605 0x00A1 0xFF).srcHit (src.take 16) true

/-- The header of Table 16.3 stands before a payload of its length. -/
def hdrOk (d : Bytes) (ty : Nat) : Bool :=
  24 ≤ d.length && beAt d 0 1 == 1 && beAt d 1 1 == ty && beAt d 2 2 == 0 && beAt d 22 2 == 0
    && beAt d 20 2 + 24 == d.length && beAt d 20 2 ≤ 1408

/-- The header of fragment frag_index of a handshake message of n bytes (R479). -/
def hsHdrOk (d : Bytes) (ty n : Nat) : Bool :=
  let i := beAt d 16 2
  hdrOk d ty && beAt d 8 8 == 0 && beAt d 18 2 == cdiv n 1200 && i < cdiv n 1200 && beAt d 20 2 == min 1200 (n - 1200 * i)
    && (ty != 1 || beAt d 4 4 == 0)

/-- A fragment of a handshake message arrives: the whole message, once its fragments are all there. -/
def State.hsCollect (s : State) (src : Bytes) (ty n : Nat) (d : Bytes) : Option Bytes × State :=
  let sess := beAt d 4 4
  let mine := fun (f : HsFrag) => f.source == src && f.ty == ty && f.sess == sess
  let old := ((s.mgmt.hs.find? mine).map (·.have_)).getD []
  let i := beAt d 16 2
  let have_ := old.filter (fun e => e.1 ≠ i) ++ [(i, d.drop 24)]
  let rest := s.mgmt.hs.filter (fun f => !mine f)
  if have_.length = cdiv n 1200 then
    (some ((sortBy (fun a b => a.1 ≤ b.1) have_).flatMap (·.2)), { s with mgmt := { s.mgmt with hs := rest } })
  else (none, { s with mgmt := { s.mgmt with hs := rest ++ [⟨src, ty, sess, have_⟩] } })

/-- HELLO (R479, R480, Table 16.4): the session is held, and its ACCEPT goes to be signed. -/
def State.hello (s : State) (p : Nat) (src : Bytes) (h : Bytes) : State :=
  match s.keyOf 1 (slice h 32 8) with
  | none => s.refuseHs p src
  | some k =>
    if 16 ≤ s.mgmt.sessions.length then s.emit (.mgmt p 0x1F (toBe 2 E.mgmtSessions))
    else if s.sec.destroyed then s
    else
      let id := s.mgmt.nextSession
      let draw := s.free
      let (nonce, s) := s.freshBytes 32
      let accept := toBe 4 id ++ nonce ++ slice (Config.kemCipher (slice h 40 1568) draw) 0 1568 ++ s.idPub
      let z : SessSt := ⟨id, slice h 32 8, k.roles, false, s.clk.up, s.clk.up, src, p, ⟨0, []⟩, 0, shake256 32 (h ++ accept),
        slice (Config.kemSecret (slice h 40 1568) draw) 0 32, accept, [], [], 0, 1, 0⟩
      ({ s with mgmt := { s.mgmt with sessions := s.mgmt.sessions ++ [z], nextSession := (id + 1) % 2 ^ 32 } } : State).inner 6 64 (.hsSign id)

/-- HELLO: a fragment of it. -/
def execHello (dt port : Nat) (src d : Bytes) (s : State) : Out := s.mgmtRx port src fun s =>
  let s := s.pass dt
  if !hsHdrOk d 1 1608 then s.dropOther port
  else
    match s.hsCollect src 1 1608 d with
    | (some h, t) => t.hello port src h
    | (none, t) => t

/-- One step of the signature of an ACCEPT; the last sends it (R479). -/
def State.hsSignStep (s : State) (i id : Nat) : State :=
  let k := (s.op i).done + 1
  let s := s.setOp i { s.op i with done := k }
  if k < (s.op i).total then s
  else
    let s := s.endOp i 2 0
    match s.session id with
    | none => s
    | some z => s.emit (.mgmt (s.sendPort z.port) 0x02 (z.accept ++ slice (Config.slhSign 3 Config.identKey z.transcript) 0 35664))

/-- The PROVE of a session is being verified. -/
def State.proving (s : State) (id : Nat) : Bool :=
  s.mgmt.ops.any (fun e => e.2.state = 1 && (match e.2.body with | .hsVerify n _ => n = id | _ => false))

/-- PROVE (R480): a fragment of it, from the source of the session's HELLO. -/
def execProve (dt port : Nat) (src d : Bytes) (s : State) : Out := s.mgmtRx port src fun s =>
  let s := s.pass dt
  if !hsHdrOk d 3 16224 then s.dropOther port
  else
    match s.session (beAt d 4 4) with
    | none => s.refuseHs port src
    | some z =>
      if z.source ≠ src then s.refuseHs port src
      else if z.confirmed || s.proving z.id then s
      else
        match s.hsCollect src 3 16224 d with
        | (some sig, t) => t.inner 6 48 (.hsVerify z.id sig)
        | (none, t) => t

/-- The key material of a session (R479): k_c2d, k_d2c, salt_c2d, salt_d2c, confirm. -/
def SessSt.keys (z : SessSt) : Bytes := shake256 88 (z.shared ++ z.transcript)

/-- One step of the check of a PROVE; the last opens the session with its first record, or refuses (R479, R480). -/
def State.hsVerifyStep (s : State) (i id : Nat) (sig : Bytes) : State :=
  let k := (s.op i).done + 1
  let s := s.setOp i { s.op i with done := k }
  if k < (s.op i).total then s
  else
    let s := s.endOp i 2 0
    match s.session id with
    | none => s
    | some z =>
      match s.keyOf 1 z.keyId with
      | none => s.refuseHs z.port z.source
      | some key =>
        if Config.slhVerify 2 (key.body.take 48) z.transcript sig then
          let s := s.setSession { z with confirmed := true, lastAt := s.clk.up, outCtr := z.outCtr + 1 }
          (s.logWith 0x1603 0x00A1 0xFF id).emit (.response id 0 0 0 false (slice z.keys 72 16) (s.sendPort z.port))
        else s.refuseHs z.port z.source

/-- SESSION_PROVE_TIMEOUT (R480): 500 ms after its HELLO a session without a verified PROVE is discarded. -/
def execSessionProveTimeout (dt : Nat) (s : State) : Out := s.whenLive fun s =>
  let s := s.pass dt
  { s with mgmt := { s.mgmt with
    sessions := s.mgmt.sessions.filter (fun (z : SessSt) => z.confirmed || s.clk.up < z.openedAt + 500000000) } }

/-- SESSION_EXPIRY (R482): 60 s without a valid record, or 24 h after its HELLO. -/
def execSessionExpiry (dt : Nat) (s : State) : Out := s.whenLive fun s =>
  let s := s.pass dt
  let old := s.mgmt.sessions.filter (fun (z : SessSt) =>
    z.confirmed && (z.lastAt + 60000000000 ≤ s.clk.up || z.openedAt + 86400000000000 ≤ s.clk.up))
  (old.map (fun (z : SessSt) => z.id)).foldl (fun (u : State) z => u.closeSession z) s

/-- The role that a command needs (Table 16.6): 0 O, 1 P, 2 C, 3 M; none for a code that is no command. -/
def cmdRole (c : Nat) : Option Nat :=
  if c = 1 || c = 2 || c = 4 || c = 5 || c = 7 || c = 0x4A || c = 0x53 || c = 0x5A || c = 0x61 then some 0
  else if c = 3 || c = 6 || (0x11 ≤ c && c ≤ 0x1D) || (0x20 ≤ c && c ≤ 0x25) || c = 0x28 || c = 0x29 || (0x30 ≤ c && c ≤ 0x32)
      || c = 0x38 || c = 0x39 || c = 0x40 || c = 0x41 then some 1
  else if c = 0x10 || c = 0x48 || c = 0x49 || (0x50 ≤ c && c ≤ 0x52) || c = 0x58 || c = 0x59 || c = 0x5B || c = 0x68 || c = 0x69 then some 2
  else if c = 0x60 then some 3
  else none

/-- An authenticated record of an open session (R481): its session and plaintext. -/
def State.openRecord (s : State) (d : Bytes) : Option (SessSt × Bytes) :=
  match (s.session (beAt d 4 4)).filter (·.confirmed) with
  | none => none
  | some z =>
    let n := beAt d 20 2 - 16
    let nonce := slice z.keys 64 4 ++ slice d 8 8
    let key := slice z.keys 0 32
    let ct := slice d 24 n
    if beAt d 20 2 < 16 || !z.winIn.fresh (beAt d 8 8) || slice d (24 + n) 16 ≠ Config.gcmTag key nonce (d.take 24) ct then none
    else some ({ z with winIn := z.winIn.add (beAt d 8 8), lastAt := s.clk.up }, gcmCrypt key nonce ct)

/-- A command is accepted with all its parts (R484, R485): its request_id is kept, and it is answered at once or waits for core 0. -/
def State.acceptCmd (s : State) (z : SessSt) (r : MReq) (whole : Bool) : State :=
  let reqs := sortBy (fun (a b : ReqRec) => b.reqId ≤ a.reqId) (⟨r.reqId, none, []⟩ :: z.reqs)
  let s := s.setSession { z with reqs := reqs.take 256, collecting := z.collecting.filter (fun c => c.reqId ≠ r.reqId) }
  match cmdRole r.code with
  | none => s.answer r E.mgmtUnknown
  | some k =>
    if !hasRole z.roles k || (k = 3 && !bit z.roles 3) then s.answer r E.mgmtRole
    else if !whole then s.answer r E.mgmtFormat
    else { s with mgmt := { s.mgmt with waiting := s.mgmt.waiting ++ [r] } }

/-- A request_id below all 256 kept (R484). -/
def SessSt.stale (z : SessSt) (id : Nat) : Bool := 256 ≤ z.reqs.length && z.reqs.all (fun q => id < q.reqId)

/-- A request_id that has arrived before (R484): its response goes out again, or will when it is formed. -/
def State.duplicate (s : State) (z : SessSt) (q : ReqRec) (p : Nat) : State :=
  match q.resp with
  | some (st, h, b) => (s.setSession { z with outCtr := z.outCtr + 1 }).emit (.response z.id q.reqId st h true b (s.sendPort p))
  | none => s.setSession { z with reqs := z.reqs.map fun x => if x.reqId = q.reqId then { x with dups := x.dups ++ [p] } else x }

/-- A part of a command arrives (R483). -/
def State.takePart (s : State) (z : SessSt) (p : Nat) (t : Bytes) : State :=
  let id := leAt t 8 8
  let part := leAt t 16 2
  let parts := leAt t 18 2
  let c := (z.collecting.find? (fun c => c.reqId = id)).getD ⟨id, leAt t 2 2, parts, [], s.clk.up, p⟩
  let have_ := if c.have_.any (fun e => e.1 = part) then c.have_ else c.have_ ++ [(part, t.drop 24)]
  if c.parts ≤ part then s.setSession z
  else if have_.length < c.parts then
    s.setSession { z with collecting := z.collecting.filter (fun x => x.reqId ≠ id) ++ [{ c with have_ := have_ }] }
  else
    let body := (sortBy (fun a b => a.1 ≤ b.1) have_).flatMap (·.2)
    s.acceptCmd z ⟨z.id, id, c.code, body, p, s.clk.up⟩ (body.length = leAt t 4 4)

/-- The plaintext of an authenticated record (R483, R484, Table 16.5). -/
def State.takePlain (s : State) (z : SessSt) (p : Nat) (t : Bytes) : State :=
  let id := leAt t 8 8
  let first := leAt t 16 2 == 0
  if t.length < 24 || leAt t 0 1 ≠ 1 || leAt t 1 1 ≠ 0 || leAt t 20 4 ≠ 0 || leAt t 18 2 ≤ leAt t 16 2 || 1408 < t.length then
    (s.setSession z).dropOther p
  else
    match z.reqs.find? (fun q => q.reqId = id) with
    | some q => if first then s.duplicate z q p else s.setSession z
    | none =>
      if z.stale id then
        (if first then (s.setSession { z with outCtr := z.outCtr + 1 }).emit (.response z.id id E.mgmtStaleReq 0 false [] (s.sendPort p))
          else s.setSession z)
      else s.takePart z p t

/-- RECORD (R481 to R484). -/
def execRecord (dt port : Nat) (src d : Bytes) (s : State) : Out := s.mgmtRx port src fun s =>
  let s := s.pass dt
  if !hdrOk d 0x10 || beAt d 16 2 ≠ 0 || beAt d 18 2 ≠ 1 then s.dropOther port
  else
    match s.openRecord d with
    | none => s.dropAuth port src
    | some (z, t) => (s.cnt F.mgmtPort_rxOk port).takePlain z port t

/-- CLOSE (R482): an authenticated CLOSE record. -/
def execClose (dt port : Nat) (src d : Bytes) (s : State) : Out := s.mgmtRx port src fun s =>
  let s := s.pass dt
  if !hdrOk d 0x1F || beAt d 16 2 ≠ 0 || beAt d 18 2 ≠ 1 then s.dropOther port
  else
    match s.openRecord d with
    | none => s.dropAuth port src
    | some (z, _) => (s.cnt F.mgmtPort_rxOk port).closeSession z.id

/-- A session's commands whose first part came 1 s ago are discarded and answered (R483). -/
def State.dropParts (s : State) (id : Nat) : State :=
  match s.session id with
  | none => s
  | some z =>
    let late := fun (c : Collecting) => decide (c.firstAt + 1000000000 ≤ s.clk.up)
    let gone := z.collecting.filter late
    let s := s.setSession { z with collecting := z.collecting.filter (fun c => !late c), outCtr := z.outCtr + gone.length }
    gone.foldl (fun (u : State) c => u.emit (.response id c.reqId E.mgmtIncomplete 0 false [] (u.sendPort c.port))) s

/-- COMMAND_PARTS_TIMEOUT (R483). -/
def execCommandPartsTimeout (dt : Nat) (s : State) : Out := s.whenLive fun s =>
  let s := s.pass dt
  (s.mgmt.sessions.map (fun (z : SessSt) => z.id)).foldl (fun (u : State) z => u.dropParts z) s

/-- MGMT_NON_PROTOCOL_RX (R478). -/
def execMgmtNonProtocolRx (port : Nat) (src : Bytes) (s : State) : Out := s.mgmtRx port src fun s => s.dropOther port

/-- An address of the device: link-local, or the global one of the network record (R478, R529; log entry 57). -/
def State.ownAddr (s : State) (a : Bytes) : Bool :=
  beAt a 0 2 / 64 == 0x3FA || a == toLe 8 (s.reg .ledgerNet0) ++ toLe 8 (s.reg .ledgerNet1)

/-- MGMT_ICMPV6_RX (R478): an echo request (type 128) or a neighbour solicitation (135) for an own address is answered, with its echo
reply (129) or advertisement (136); what follows the type is the message's. -/
def execMgmtIcmpv6Rx (port ty : Nat) (src target body : Bytes) (s : State) : Out := s.mgmtRx port src fun s =>
  if ty = 128 && s.ownAddr target then s.emit (.mgmt port 0x81 body)
  else if ty = 135 && s.ownAddr target then s.emit (.mgmt port 0x88 target)
  else if ty = 128 || ty = 135 then s
  else s.dropOther port

/-- MGMT_LINK_CHANGE (R482). -/
def execMgmtLinkChange (port : Nat) (up : Bool) (s : State) : Out := s.whenLive fun s =>
  if port < 2 then s.setFlag F.mgmtPort_linkUp up port else s

/-- An operation ends before its last step, in a state with a code: what its body holds goes with it (R69, R71, R264, R477, R491). -/
def State.breakOp (s : State) (i state code : Nat) : State :=
  let s := s.ledRelease (.op i)
  match (s.op i).body with
  | .pour p => if s.pourCommitting i p then s.pourStep i p else s.stopPour i state code
  | .hot _ _ _ _ _ => s.hotEnd i state code
  | .stage _ => s.stageEnd i state code
  | .retrain ch =>
    let s := if s.rd F.gddrCh_state ch = 3 then
        ((s.wr F.gddrCh_state 4 ch).logWith 0x1004 (srcGddr ch) 0xFF ch).failChannel ch E.memChannelDown else s
    s.endOp i state code
  | .auth r => (s.endOp i state code).answer r code
  | .audit c _ _ _ _ _ => (s.setClu c { s.clu c with auditOp := none }).endOp i state code
  | .group h =>
    let s := match s.grpOf h with
      | some g => if (s.grp g).setup = some i then s.setGrp g { s.grp g with setup := none } else s
      | none => s
    s.endOp i state code
  | .token _ _ =>
    let (r, s) := s.fresh 8
    (s.endOp i state code).setTap fun t => { t with tokenRes := r }
  | .compact _ _ _ => (s.wr F.ledgerStatus_compacting 0).endOp i state code
  | _ => s.endOp i state code

/-- An operation that core 0's restart fails (R477): any but a quench, and a pour that is already being torn down. -/
def OpSt.restartFails (o : OpSt) : Bool :=
  o.state == 1 && (match o.body with
    | .quench _ _ _ _ _ _ => false
    | .ctxQuench _ _ => false
    | _ => true)

/-- What the restart of core k does beside (R477). -/
def State.coreFails (s : State) (k : Nat) : State :=
  if k = 0 then
    ((s.mgmt.ops.filter (fun e => e.2.restartFails)).map (·.1)).foldl (fun (u : State) i => u.breakOp i 3 E.mgmtRestart) s
  else if k = 1 then
    let s := (s.mgmt.sessions.map (fun (z : SessSt) => z.id)).foldl (fun (u : State) z => u.closeSession z) s
    { s with mgmt := { s.mgmt with hs := [] } }
  else s

/-- WATCHDOG_EXPIRY (R477): core k restarts; a second expiry within 60 s resets the device. -/
def execWatchdogExpiry (dt k : Nat) (s : State) : Out := s.whenLive fun s =>
  let s := s.pass dt
  if 4 ≤ k || !s.coreUp k || s.rd F.healthStatus_state = 1 then s
  else
    let again := s.mgmt.wdogAt.any (fun t => s.clk.up ≤ t + 60000000000)
    let s := { s with mgmt := { s.mgmt with wdogAt := some s.clk.up } }
    let s := ((s.wr F.mcStatus_wdogExpired (setBit (s.rd F.mcStatus_wdogExpired) k true)).logWith 0x1602 (0x00A0 + k) 0xFF k).count 11 255
    let s := s.wr F.mcStatus_coreUp (setBit (s.rd F.mcStatus_coreUp) k false)
    if again then s.assertReset 0x05 else s.coreFails k

/-- MGMT_CORE_RESTARTED (R477): core k runs again. -/
def execMgmtCoreRestarted (dt k : Nat) (s : State) : Out := s.whenLive fun s =>
  let s := s.pass dt
  if k < 4 && !s.coreUp k && s.rd F.healthStatus_state ≠ 1 then s.wr F.mcStatus_coreUp (setBit (s.rd F.mcStatus_coreUp) k true) else s

end Sys2Proof.Machine
end

