-- ==== Sys2Proof/Machine/MgmtCmds.lean ====
section
/-! DEFINITION. Sys2Proof/Machine/MgmtCmds.lean: the commands of the management plane itself (Table 16.6, codes 0x0001 to 0x0007). -/
namespace Sys2Proof.Machine

/-- IDENT (R486; the response's layout is log entry 46). -/
def execIdent (s : State) : Out := s.takeCmd 0x0001 (fun _ => true) fun r s =>
  s.bodyOk r r.body.isEmpty fun s =>
    s.answer r 0 0 (toLe 8 (s.reg .devIdent) ++ toLe 2 s.devId ++ toLe 1 (s.rd F.healthStatus_state) ++ toLe 1 0
      ++ toLe 4 (s.rd F.fabEpoch_value))

/-- The values of n registers from an address on, read in ascending order. -/
def State.readCsrs (s : State) (addr : Nat) : Nat → Bytes × State
  | 0 => ([], s)
  | n + 1 =>
    let (v, t) := s.readCsr 0 addr
    let (l, u) := State.readCsrs t (addr + 8) n
    (toLe 8 v ++ l, u)

/-- CSR_READ (R486, R609): count registers at consecutive addresses. -/
def execCsrRead (s : State) : Out := s.takeCmd 0x0002 (fun _ => true) fun r s =>
  let n := leAt r.body 4 2
  s.bodyOk r (r.body.length == 6 && 1 ≤ n && n ≤ 128) fun s =>
    let (b, t) := s.readCsrs (leAt r.body 0 4) n
    t.answer r 0 0 b

/-- CSR_WRITE (R14, R486): only the bits set in the mask. -/
def execCsrWrite (s : State) : Out := s.takeCmd 0x0003 (fun _ => true) fun r s =>
  s.bodyOk r (r.body.length == 20) fun s =>
    let (code, t) := s.writeCsr 0 (leAt r.body 0 4) (leAt r.body 4 8) (leAt r.body 12 8)
    t.answer r code

/-- LOG_READ (R494). -/
def execLogRead (s : State) : Out := s.takeCmd 0x0004 (fun _ => true) fun r s =>
  let from_ := leAt r.body 0 8
  let n := leAt r.body 8 2
  s.bodyOk r (r.body.length == 10 && 1 ≤ n && n ≤ 40) fun s =>
    let (first, recs) := s.logFrom from_ n
    s.answer r 0 0 (toLe 1 (ofBool (first ≠ from_)) ++ toLe 7 0 ++ toLe 8 first ++ recs.flatMap LogRec.bytes)

/-- OP_STATUS (R488, Table 16.8). -/
def execOpStatus (s : State) : Out := s.takeCmd 0x0005 (fun _ => true) fun r s =>
  s.bodyOk r (r.body.length == 4) fun s =>
    match s.opOf (leAt r.body 0 4) with
    | some i => s.answer r 0 0 (opBody (s.op i))
    | none => s.answer r E.mgmtNoHandle

/-- The code with which a cancel ends operation i; none for one that may not be cancelled (R491, Table 16.7). -/
def State.cancelCode (s : State) (i : Nat) : Option Nat :=
  let o := s.op i
  if o.state ≠ 1 then none
  else
    match o.body with
    | .pour p => if s.pourCommitting i p then none else some E.patCancelled
    | .scan _ _ _ _ _ _ _ _ => some E.scanCancelled
    | .hot _ _ _ _ _ => some E.hotCancelled
    | .attest _ => some E.mgmtCancelled
    | .stage _ => some E.mgmtCancelled
    | _ => none

/-- OP_CANCEL (R491): commands fall between steps, so the operation ends at once. -/
def execOpCancel (s : State) : Out := s.takeCmd 0x0006 (fun _ => true) fun r s =>
  s.bodyOk r (r.body.length == 4) fun s =>
    match s.opOf (leAt r.body 0 4) with
    | none => s.answer r E.mgmtNoHandle
    | some i =>
      match s.cancelCode i with
      | none => s.answer r E.mgmtNotCancellable
      | some code => (s.breakOp i 4 code).answer r 0

/-- SUBSCRIBE (R486, R494): event records are sent from here on. -/
def execSubscribe (s : State) : Out := s.takeCmd 0x0007 (fun _ => true) fun r s =>
  s.bodyOk r (r.body.length == 4) fun s =>
    match s.session r.sess with
    | none => s
    | some z =>
      let mask := leAt r.body 0 4 % 8
      (s.setSession { z with mask := mask, sentTo := if bit z.mask 1 then z.sentTo else s.log.seq }).answer r 0

end Sys2Proof.Machine
end

