-- ==== Sys2Proof/Machine/OperStep.lean ====
section
/-! DEFINITION. Sys2Proof/Machine/OperStep.lean: the steps of sliced operations (R490, Table 16.7): which step may run next, what it
takes, and what it does. -/
namespace Sys2Proof.Machine

/-- The cluster that the next step of an SRAM scrub pass reads: the lowest not yet read whose field does not stop it (R296, R297). -/
def State.scrubNext (s : State) (mask : Nat) : Option Nat :=
  (List.range 96).find? (fun c => s.enabled c && !bit mask c && !s.scrubStopped (fieldOf c) && !s.blockBusy (64 + c))

/-- Steps of a ledger scrub pass, and the ns of a pass (R499). -/
def ledScrubSteps : Nat := 512
/-- Seven days. -/
def ledScrubNs : Nat := 604800000000000

/-- The next step of a scrub pass is due: steps spread evenly over the period (R296, R499). -/
def State.scrubDue (s : State) (o : OpSt) (kind pos : Nat) : Bool :=
  if kind = 0 then decide (o.res + o.done * s.sramPeriod / max 1 o.total ≤ s.clk.up) && (s.scrubNext pos).isSome
  else decide (o.res + o.done * (ledScrubNs / ledScrubSteps) ≤ s.clk.up) && s.coreUp 3

/-- A record of 304 bytes would find room in the ledger. -/
def State.ledRoom (s : State) : Bool := (s.append 0x40 (List.replicate 304 0#8)).isSome

/-- Operation i has a step that may run. -/
def State.stepReady (s : State) (i : Nat) : Bool :=
  let o := s.op i
  o.state == 1 && (!(s.led.waits.any (fun p => p.2 = .op i)) || s.ledRoom) && (match o.body with
    | .none => false
    | .group _ => false
    | .audit _ _ _ _ _ _ => false
    | .selfTest _ _ => false
    | .token _ _ => o.done < 96
    | .stage _ => s.led.stage.any (fun st => st.op % 256 == i && st.closed && !st.staged)
    | .scrub k pos => s.scrubDue o k pos
    | .compact _ _ _ => s.coreUp 3
    | _ => true)

/-- A management-controller step of at most 20 µs (R68, Table 16.7). -/
def mcStep : Bool × Nat := (true, 20000)
/-- A table step of at most 100 µs. -/
def tableStep : Bool × Nat := (true, 100000)
/-- A step of a cluster, a channel or an engine, which takes no time of core 0. -/
def freeStep (ns : Nat) : Bool × Nat := (false, ns)

/-- The class of the next step of a pour (R68). -/
def State.pourClass (s : State) (i : Nat) (p : PourSt) : Bool × Nat :=
  let k := (s.op i).done + 1
  let bs := p.data
  if p.base then
    let (v, o) := bundleParts bs
    if k ≤ stepsAB v + stepsAB o then mcStep else tableStep
  else
    let nB := stepsAB bs
    let nD := nB + stepsD bs
    if k ≤ nB then mcStep
    else if nD < k && k ≤ nD + (claimsOf bs).length then freeStep 200000
    else tableStep

/-- Whether the next step of operation i is core 0's, and its bound in ns (R68, R249, R490, Table 16.7). -/
def State.stepClass (s : State) (i : Nat) : Bool × Nat :=
  match (s.op i).body with
  | .quench _ todo phase _ _ _ => if phase = 0 then mcStep else if phase = 1 && !todo.isEmpty then freeStep 200000 else tableStep
  | .ctxQuench _ _ => tableStep
  | .pour p => s.pourClass i p
  | .retrain _ => freeStep 100000
  | .scan _ _ _ _ _ _ _ _ => freeStep 100000
  | .hot _ _ _ _ _ => freeStep 200000
  | .scrub k _ => freeStep (if k = 0 then 200000 else 100000)
  | .compact _ _ _ => freeStep 100000
  | .stage _ => if (s.op i).prio = 6 then mcStep else tableStep
  | _ => mcStep

/-- The order among operations whose next step is core 0's (R490): those below their minimum first, by priority, those that the last
heartbeat left short first within it, then in ascending handle order; operations without a handle come last. -/
def State.stepRank (s : State) (i : Nat) : Nat :=
  let o := s.op i
  let below := decide (o.hb < minSteps o.prio)
  let short := below && s.mgmt.starved.contains i
  (((ofBool (!below) * 16 + o.prio) * 2 + ofBool (!short)) * 2 + ofBool (decide (256 ≤ i))) * 2 ^ 40 + o.handle * 2 ^ 8 + i

/-- The operation whose core-0 step runs next. -/
def State.stepPick (s : State) : Option Nat :=
  (((s.mgmt.ops.map (·.1)).filter (fun i => s.stepReady i && (s.stepClass i).1)).foldl (fun (o : Option Nat) i => match o with
    | none => some i
    | some j => if s.stepRank i < s.stepRank j then some i else some j) none)

/-- Core 0 may begin a step of dt ns (R490): its budget of 800 µs holds it; it has taken a waiting command since its last step; and no
command has waited 500 µs while the heartbeat's command time lasts. -/
def State.coreStepOk (s : State) (dt : Nat) : Bool :=
  let held := s.led.waits.any (fun p => p.2 = .cmd)
  decide (s.mgmt.hbSteps + dt ≤ 800000)
    && (held || !s.mgmt.stepped || s.mgmt.waiting.isEmpty)
    && (held || 10 ≤ s.mgmt.hbCmds || s.mgmt.waiting.all (fun r => s.clk.up < r.at_ + 500000))

/-- One step of a scrub pass (R280, R296, R297, R498, R499). -/
def State.scrubStep (s : State) (i kind pos ecc word : Nat) : State :=
  let adv := fun (u : State) (p : Nat) => u.setOp i { u.op i with done := (u.op i).done + 1, body := .scrub kind p }
  if kind = 0 then
    match s.scrubNext pos with
    | none => s
    | some c =>
      let s := adv (s.sramEcc c ecc word) (setBit pos c true)
      if (s.op i).done < (s.op i).total then s
      else
        let s := s.cnt F.scrubStatus_sramPasses
        let s := if (s.op i).res + s.sramPeriod < s.clk.up then s.wr F.scrubStatus_late 1 else s
        s.endOp i 2 0
  else
    let s := adv (s.ledEcc ecc word) (pos + 1)
    if (s.op i).done < ledScrubSteps then s else s.endOp i 2 0

/-- The step of operation i: `ok` says whether a channel's training holds, `ecc` and `word` what the memory it reads reports. -/
def State.runStep (s : State) (i : Nat) (ok : Bool) (ecc word : Nat) : State :=
  match (s.op i).body with
  | .quench m todo phase tables st code => s.quenchStep i m todo phase tables st code
  | .ctxQuench _ _ => s.ctxQuenchStep i
  | .pour p => s.pourStep i p
  | .retrain _ => s.retrainStep i ok
  | .scan _ _ _ _ _ _ _ _ => s.scanStep i ecc word
  | .hot _ _ _ _ _ => s.hotStep i ecc word
  | .stage _ => s.stageStep i ecc word
  | .cert b => s.certStep i b
  | .auth r => s.authStep i r
  | .attest b => s.attestStep i b
  | .token _ _ => s.setOp i { s.op i with done := (s.op i).done + 1 }
  | .hsSign z => s.hsSignStep i z
  | .hsVerify z sig => s.hsVerifyStep i z sig
  | .scrub k pos => s.scrubStep i k pos ecc word
  | .compact v todo phase => s.compactStep i v todo phase
  | .none => s
  | .group _ => s
  | .audit _ _ _ _ _ _ => s
  | .selfTest _ _ => s

/-- OPERATION_STEP (R490): the step of operation i that takes dt ns; a core-0 step only when it is that operation's turn. -/
def execOperationStep (dt i : Nat) (ok : Bool) (ecc word : Nat) (s : State) : Out := s.whenLive fun s =>
  let (core, bound) := s.stepClass i
  if !s.coreUp 0 || !s.stepReady i || bound < dt || (core && (s.stepPick ≠ some i || !s.coreStepOk dt)) then s
  else
    let s := s.pass dt
    let m := s.mgmt
    let s := if core then { s with mgmt := { m with stepped := true, hbSteps := m.hbSteps + dt } } else s
    (s.setOp i { s.op i with hb := (s.op i).hb + 1 }).runStep i ok ecc word

end Sys2Proof.Machine
end

