-- ==== Sys2Proof/Machine/Dispatch.lean ====
section
/-! DEFINITION. Sys2Proof/Machine/Dispatch.lean: one arm per command. -/
namespace Sys2Proof.Machine

def exec (i : Instr) (s : State) : Host.Outcome State Fault Refusal :=
  match i with
  | .registerWrite req addr value => Sys2Proof.Machine.execRegisterWrite req addr value s
  | .csrInvalidAccess req addr write value => Sys2Proof.Machine.execCsrInvalidAccess req addr write value s
  | .disabledClusterAccess req addr write value => Sys2Proof.Machine.execDisabledClusterAccess req addr write value s
  | .govCtrlWrite req f value => Sys2Proof.Machine.execGovCtrlWrite req f value s
  | .governorSample dt f rate slowest => Sys2Proof.Machine.execGovernorSample dt f rate slowest s
  | .shedStageLift dt f => Sys2Proof.Machine.execShedStageLift dt f s
  | .fieldRejoin dt f => Sys2Proof.Machine.execFieldRejoin dt f s
  | .meshFrameEnd f lost m x c => Sys2Proof.Machine.execMeshFrameEnd f lost m x c s
  | .holdingExpiry dt c a => Sys2Proof.Machine.execHoldingExpiry dt c a s
  | .preWarm dt m c ix => Sys2Proof.Machine.execPreWarm dt m c ix s
  | .rampUpGrant f done => Sys2Proof.Machine.execRampUpGrant f done s
  | .crossingItem d toCore taken => Sys2Proof.Machine.execCrossingItem d toCore taken s
  | .clockLost d pll => Sys2Proof.Machine.execClockLost d pll s
  | .refclkLost => Sys2Proof.Machine.execRefclkLost s
  | .refclkRestored => Sys2Proof.Machine.execRefclkRestored s
  | .slotEntryStart dt m c ix => Sys2Proof.Machine.execSlotEntryStart dt m c ix s
  | .slotTableActivate dt m => Sys2Proof.Machine.execSlotTableActivate dt m s
  | .loanWindowOpen dt m c ix => Sys2Proof.Machine.execLoanWindowOpen dt m c ix s
  | .loanWindowClose dt m c ix => Sys2Proof.Machine.execLoanWindowClose dt m c ix s
  | .issueLimitExpiry dt c st => Sys2Proof.Machine.execIssueLimitExpiry dt c st s
  | .segmentAdmit dt c st => Sys2Proof.Machine.execSegmentAdmit dt c st s
  | .nop c st => Sys2Proof.Machine.execNop c st s
  | .lds c st => Sys2Proof.Machine.execLds c st s
  | .str c st bad row col len => Sys2Proof.Machine.execStr c st bad row col len s
  | .replayCommit c a ok row col => Sys2Proof.Machine.execReplayCommit c a ok row col s
  | .arrivalGranulePresent c st wait => Sys2Proof.Machine.execArrivalGranulePresent c st wait s
  | .drn c st => Sys2Proof.Machine.execDrn c st s
  | .chn c st => Sys2Proof.Machine.execChn c st s
  | .mov c st => Sys2Proof.Machine.execMov c st s
  | .ladleMovBegin dt c m x => Sys2Proof.Machine.execLadleMovBegin dt c m x s
  | .movComplete c m x ecc word => Sys2Proof.Machine.execMovComplete c m x ecc word s
  | .twt c st => Sys2Proof.Machine.execTwt c st s
  | .twtSatisfied c st wait => Sys2Proof.Machine.execTwtSatisfied c st wait s
  | .tps c st => Sys2Proof.Machine.execTps c st s
  | .sgd c st => Sys2Proof.Machine.execSgd c st s
  | .rpt c st => Sys2Proof.Machine.execRpt c st s
  | .endSeg c st => Sys2Proof.Machine.execEndSeg c st s
  | .segmentEnd c st => Sys2Proof.Machine.execSegmentEnd c st s
  | .waitTimeout c st => Sys2Proof.Machine.execWaitTimeout c st s
  | .segOverrun c st => Sys2Proof.Machine.execSegOverrun c st s
  | .listLoadDone c ix ecc word => Sys2Proof.Machine.execListLoadDone c ix ecc word s
  | .digestRecordWrite c => Sys2Proof.Machine.execDigestRecordWrite c s
  | .arrClearCounters req c a => Sys2Proof.Machine.execArrClearCounters req c a s
  | .arrSelfTest req c a => Sys2Proof.Machine.execArrSelfTest req c a s
  | .selfTestDone c a pass => Sys2Proof.Machine.execSelfTestDone c a pass s
  | .mouldChilled m => Sys2Proof.Machine.execMouldChilled m s
  | .operationStep dt ix ok ecc word => Sys2Proof.Machine.execOperationStep dt ix ok ecc word s
  | .serviceDatagramRx dt sub src sport dst dport d => Sys2Proof.Machine.execServiceDatagramRx dt sub src sport dst dport d s
  | .svcRingWrite req e value => Sys2Proof.Machine.execSvcRingWrite req e value s
  | .serviceDatagramTx e => Sys2Proof.Machine.execServiceDatagramTx e s
  | .gddrGranuleServe dt ch m own retries ecc line => Sys2Proof.Machine.execGddrGranuleServe dt ch m own retries ecc line s
  | .cxlRequestComplete dt k m poison malformed line => Sys2Proof.Machine.execCxlRequestComplete dt k m poison malformed line s
  | .cxlTimeout dt k m => Sys2Proof.Machine.execCxlTimeout dt k m s
  | .cxlLinkTrain k width cap type3 ide => Sys2Proof.Machine.execCxlLinkTrain k width cap type3 ide s
  | .cxlLinkDown k => Sys2Proof.Machine.execCxlLinkDown k s
  | .portTrain dt p => Sys2Proof.Machine.execPortTrain dt p s
  | .portTrainRetry dt p => Sys2Proof.Machine.execPortTrainRetry dt p s
  | .identityWordRx p peer pport x y z epoch nonce => Sys2Proof.Machine.execIdentityWordRx p peer pport x y z epoch nonce s
  | .portDown p corr unc => Sys2Proof.Machine.execPortDown p corr unc s
  | .linkWordRx dt p w f ok icv stomp => Sys2Proof.Machine.execLinkWordRx dt p w f ok icv stomp s
  | .linkReplayTimeout dt p => Sys2Proof.Machine.execLinkReplayTimeout dt p s
  | .frameForward p => Sys2Proof.Machine.execFrameForward p s
  | .putData p ecc word => Sys2Proof.Machine.execPutData p ecc word s
  | .getReq p ecc word => Sys2Proof.Machine.execGetReq p ecc word s
  | .storeFrame p ecc word => Sys2Proof.Machine.execStoreFrame p ecc word s
  | .loadReq p ecc word => Sys2Proof.Machine.execLoadReq p ecc word s
  | .atomicReq p ecc word => Sys2Proof.Machine.execAtomicReq p ecc word s
  | .vreadReq p => Sys2Proof.Machine.execVreadReq p s
  | .ownReq p => Sys2Proof.Machine.execOwnReq p s
  | .getResp p => Sys2Proof.Machine.execGetResp p s
  | .loadResp p => Sys2Proof.Machine.execLoadResp p s
  | .atomicResp p => Sys2Proof.Machine.execAtomicResp p s
  | .vreadResp p => Sys2Proof.Machine.execVreadResp p s
  | .ownResp p => Sys2Proof.Machine.execOwnResp p s
  | .ack p => Sys2Proof.Machine.execAck p s
  | .nak p => Sys2Proof.Machine.execNak p s
  | .ackDelayExpiry dt dev m => Sys2Proof.Machine.execAckDelayExpiry dt dev m s
  | .frameResendTimeout dt dev m seq => Sys2Proof.Machine.execFrameResendTimeout dt dev m seq s
  | .atomicResend dt id => Sys2Proof.Machine.execAtomicResend dt id s
  | .atomicGiveUp dt id => Sys2Proof.Machine.execAtomicGiveUp dt id s
  | .opTimeout dt id => Sys2Proof.Machine.execOpTimeout dt id s
  | .collHello p => Sys2Proof.Machine.execCollHello p s
  | .collPart p retry fail => Sys2Proof.Machine.execCollPart p retry fail s
  | .collResult p => Sys2Proof.Machine.execCollResult p s
  | .collCredit p => Sys2Proof.Machine.execCollCredit p s
  | .collData p => Sys2Proof.Machine.execCollData p s
  | .collAbort p => Sys2Proof.Machine.execCollAbort p s
  | .collChunkSend g => Sys2Proof.Machine.execCollChunkSend g s
  | .collHelloTimer dt g => Sys2Proof.Machine.execCollHelloTimer dt g s
  | .collSetupTimeout dt g => Sys2Proof.Machine.execCollSetupTimeout dt g s
  | .collMovSetupTimeout dt c m x => Sys2Proof.Machine.execCollMovSetupTimeout dt c m x s
  | .collOpTimeout dt g => Sys2Proof.Machine.execCollOpTimeout dt g s
  | .collAbortResend dt => Sys2Proof.Machine.execCollAbortResend dt s
  | .egressFrameStart dt sub => Sys2Proof.Machine.execEgressFrameStart dt sub s
  | .gateIntervalStart dt sub => Sys2Proof.Machine.execGateIntervalStart dt sub s
  | .accessLinkDown sub => Sys2Proof.Machine.execAccessLinkDown sub s
  | .heartbeat dt => Sys2Proof.Machine.execHeartbeat dt s
  | .timeNowNsRead dt => Sys2Proof.Machine.execTimeNowNsRead dt s
  | .timeIncrWrite value => Sys2Proof.Machine.execTimeIncrWrite value s
  | .timeCtrlWrite value => Sys2Proof.Machine.execTimeCtrlWrite value s
  | .ptpMessageRx dt sub ty seqId ok meas => Sys2Proof.Machine.execPtpMessageRx dt sub ty seqId ok meas s
  | .esmcRx dt sub => Sys2Proof.Machine.execEsmcRx dt sub s
  | .esmcTimeout dt => Sys2Proof.Machine.execEsmcTimeout dt s
  | .timeSourceTimeout dt => Sys2Proof.Machine.execTimeSourceTimeout dt s
  | .timeWordTx dt p => Sys2Proof.Machine.execTimeWordTx dt p s
  | .timeWordRx dt p b => Sys2Proof.Machine.execTimeWordRx dt p b s
  | .ppsInEdge dt => Sys2Proof.Machine.execPpsInEdge dt s
  | .tsCapEdge dt c => Sys2Proof.Machine.execTsCapEdge dt c s
  | .timeCapNsRead c => Sys2Proof.Machine.execTimeCapNsRead c s
  | .trigArm c value => Sys2Proof.Machine.execTrigArm c value s
  | .trigEdge dt c => Sys2Proof.Machine.execTrigEdge dt c s
  | .ppsOutPulse dt => Sys2Proof.Machine.execPpsOutPulse dt s
  | .seNop c e => Sys2Proof.Machine.execSeNop c e s
  | .halt c e => Sys2Proof.Machine.execHalt c e s
  | .blk c e => Sys2Proof.Machine.execBlk c e s
  | .setp c e => Sys2Proof.Machine.execSetp c e s
  | .addp c e => Sys2Proof.Machine.execAddp c e s
  | .seta c e => Sys2Proof.Machine.execSeta c e s
  | .ldi c e => Sys2Proof.Machine.execLdi c e s
  | .std c e => Sys2Proof.Machine.execStd c e s
  | .mvb c e => Sys2Proof.Machine.execMvb c e s
  | .lut c e => Sys2Proof.Machine.execLut c e s
  | .seAdd c e => Sys2Proof.Machine.execSeAdd c e s
  | .mul c e => Sys2Proof.Machine.execMul c e s
  | .ash c e => Sys2Proof.Machine.execAsh c e s
  | .seAbs c e => Sys2Proof.Machine.execSeAbs c e s
  | .seMax c e => Sys2Proof.Machine.execSeMax c e s
  | .seMin c e => Sys2Proof.Machine.execSeMin c e s
  | .sel c e => Sys2Proof.Machine.execSel c e s
  | .mac c e => Sys2Proof.Machine.execMac c e s
  | .mag2 c e => Sys2Proof.Machine.execMag2 c e s
  | .tapm c e => Sys2Proof.Machine.execTapm c e s
  | .clra c e => Sys2Proof.Machine.execClra c e s
  | .rnd c e => Sys2Proof.Machine.execRnd c e s
  | .job c e => Sys2Proof.Machine.execJob c e s
  | .jobPosted c e wait => Sys2Proof.Machine.execJobPosted c e wait s
  | .waitj c e => Sys2Proof.Machine.execWaitj c e s
  | .unitJobStart u ecc word => Sys2Proof.Machine.execUnitJobStart u ecc word s
  | .jobComplete u => Sys2Proof.Machine.execJobComplete u s
  | .seLoadDone c e ix ecc word => Sys2Proof.Machine.execSeLoadDone c e ix ecc word s
  | .fronthaulFrameRx dt sub mac vid f => Sys2Proof.Machine.execFronthaulFrameRx dt sub mac vid f s
  | .timeDomainFrameRx dt sub mac vid f => Sys2Proof.Machine.execTimeDomainFrameRx dt sub mac vid f s
  | .unclassifiedFrameRx dt sub => Sys2Proof.Machine.execUnclassifiedFrameRx dt sub s
  | .rxWindowOpen dt c => Sys2Proof.Machine.execRxWindowOpen dt c s
  | .rxWindowClose dt c => Sys2Proof.Machine.execRxWindowClose dt c s
  | .cpringTailWrite req c value => Sys2Proof.Machine.execCpringTailWrite req c value s
  | .cplaneRelease dt c => Sys2Proof.Machine.execCplaneRelease dt c s
  | .dlSymbolRead dt c k n => Sys2Proof.Machine.execDlSymbolRead dt c k n s
  | .dlFrameQueue dt c k n => Sys2Proof.Machine.execDlFrameQueue dt c k n s
  | .dlFrameExpiry dt c => Sys2Proof.Machine.execDlFrameExpiry dt c s
  | .carrierMute dt c => Sys2Proof.Machine.execCarrierMute dt c s
  | .carrierUnmute dt c => Sys2Proof.Machine.execCarrierUnmute dt c s
  | .ldl c t ecc word => Sys2Proof.Machine.execLdl c t ecc word s
  | .stl c t ecc word => Sys2Proof.Machine.execStl c t ecc word s
  | .atom4 c t ecc word => Sys2Proof.Machine.execAtom4 c t ecc word s
  | .atom8 c t ecc word => Sys2Proof.Machine.execAtom8 c t ecc word s
  | .own c t => Sys2Proof.Machine.execOwn c t s
  | .vread c t => Sys2Proof.Machine.execVread c t s
  | .fence c t => Sys2Proof.Machine.execFence c t s
  | .fenceComplete c t => Sys2Proof.Machine.execFenceComplete c t s
  | .tpost c t => Sys2Proof.Machine.execTpost c t s
  | .twait c t => Sys2Proof.Machine.execTwait c t s
  | .sreq c t => Sys2Proof.Machine.execSreq c t s
  | .lload c t => Sys2Proof.Machine.execLload c t s
  | .lunload c t => Sys2Proof.Machine.execLunload c t s
  | .seload c t => Sys2Proof.Machine.execSeload c t s
  | .cinv c t => Sys2Proof.Machine.execCinv c t s
  | .ccln c t => Sys2Proof.Machine.execCcln c t s
  | .tspawn c t => Sys2Proof.Machine.execTspawn c t s
  | .park dt c t => Sys2Proof.Machine.execPark dt c t s
  | .texit c t => Sys2Proof.Machine.execTexit c t s
  | .timeRead dt c t => Sys2Proof.Machine.execTimeRead dt c t s
  | .getst c t => Sys2Proof.Machine.execGetst c t s
  | .threadWake dt c t => Sys2Proof.Machine.execThreadWake dt c t s
  | .threadSwitchQuantum c => Sys2Proof.Machine.execThreadSwitchQuantum c s
  | .watchdogExpiry dt k => Sys2Proof.Machine.execWatchdogExpiry dt k s
  | .hello dt port src d => Sys2Proof.Machine.execHello dt port src d s
  | .prove dt port src d => Sys2Proof.Machine.execProve dt port src d s
  | .record dt port src d => Sys2Proof.Machine.execRecord dt port src d s
  | .close dt port src d => Sys2Proof.Machine.execClose dt port src d s
  | .mgmtNonProtocolRx port src => Sys2Proof.Machine.execMgmtNonProtocolRx port src s
  | .sessionProveTimeout dt => Sys2Proof.Machine.execSessionProveTimeout dt s
  | .sessionExpiry dt => Sys2Proof.Machine.execSessionExpiry dt s
  | .commandPartsTimeout dt => Sys2Proof.Machine.execCommandPartsTimeout dt s
  | .ident => Sys2Proof.Machine.execIdent s
  | .csrRead => Sys2Proof.Machine.execCsrRead s
  | .csrWrite => Sys2Proof.Machine.execCsrWrite s
  | .logRead => Sys2Proof.Machine.execLogRead s
  | .opStatus => Sys2Proof.Machine.execOpStatus s
  | .opCancel => Sys2Proof.Machine.execOpCancel s
  | .subscribe => Sys2Proof.Machine.execSubscribe s
  | .pour => Sys2Proof.Machine.execPour s
  | .mouldStart => Sys2Proof.Machine.execMouldStart s
  | .mouldChill => Sys2Proof.Machine.execMouldChill s
  | .mouldQuench => Sys2Proof.Machine.execMouldQuench s
  | .ctxQuench => Sys2Proof.Machine.execCtxQuench s
  | .segStart => Sys2Proof.Machine.execSegStart s
  | .listLoad => Sys2Proof.Machine.execListLoad s
  | .listUnload => Sys2Proof.Machine.execListUnload s
  | .seLoad => Sys2Proof.Machine.execSeLoad s
  | .seUnload => Sys2Proof.Machine.execSeUnload s
  | .thrStart => Sys2Proof.Machine.execThrStart s
  | .thrStop => Sys2Proof.Machine.execThrStop s
  | .auditRun => Sys2Proof.Machine.execAuditRun s
  | .arrSelftest => Sys2Proof.Machine.execArrSelftest s
  | .hotPool => Sys2Proof.Machine.execHotPool s
  | .hotLoad => Sys2Proof.Machine.execHotLoad s
  | .hotPin => Sys2Proof.Machine.execHotPin s
  | .hotUnpin => Sys2Proof.Machine.execHotUnpin s
  | .hotEvict => Sys2Proof.Machine.execHotEvict s
  | .hotLookup => Sys2Proof.Machine.execHotLookup s
  | .svcBind => Sys2Proof.Machine.execSvcBind s
  | .svcUnbind => Sys2Proof.Machine.execSvcUnbind s
  | .groupSetup => Sys2Proof.Machine.execGroupSetup s
  | .groupFree => Sys2Proof.Machine.execGroupFree s
  | .groupReset => Sys2Proof.Machine.execGroupReset s
  | .radioBind => Sys2Proof.Machine.execRadioBind s
  | .radioUnbind => Sys2Proof.Machine.execRadioUnbind s
  | .scan => Sys2Proof.Machine.execScan s
  | .gddrRetrain => Sys2Proof.Machine.execGddrRetrain s
  | .timeSet => Sys2Proof.Machine.execTimeSet s
  | .ptpConfig => Sys2Proof.Machine.execPtpConfig s
  | .ptpStatus => Sys2Proof.Machine.execPtpStatus s
  | .imageStageOpen => Sys2Proof.Machine.execImageStageOpen s
  | .imageStageChunk => Sys2Proof.Machine.execImageStageChunk s
  | .imageStageClose => Sys2Proof.Machine.execImageStageClose s
  | .baseStageOpen => Sys2Proof.Machine.execBaseStageOpen s
  | .baseStageChunk => Sys2Proof.Machine.execBaseStageChunk s
  | .baseStageClose => Sys2Proof.Machine.execBaseStageClose s
  | .imageCommit => Sys2Proof.Machine.execImageCommit s
  | .ledgerRead ecc word => Sys2Proof.Machine.execLedgerRead ecc word s
  | .keyEnrollManager => Sys2Proof.Machine.execKeyEnrollManager s
  | .keyEnrollPattern => Sys2Proof.Machine.execKeyEnrollPattern s
  | .keyEnrollQuorum => Sys2Proof.Machine.execKeyEnrollQuorum s
  | .keyEnrollPolicy => Sys2Proof.Machine.execKeyEnrollPolicy s
  | .keyRevoke => Sys2Proof.Machine.execKeyRevoke s
  | .attestCapture => Sys2Proof.Machine.execAttestCapture s
  | .attestFetch => Sys2Proof.Machine.execAttestFetch s
  | .debugAuthRaise => Sys2Proof.Machine.execDebugAuthRaise s
  | .debugAuthDrop => Sys2Proof.Machine.execDebugAuthDrop s
  | .debugAuthClearTamper => Sys2Proof.Machine.execDebugAuthClearTamper s
  | .certApply => Sys2Proof.Machine.execCertApply s
  | .healthRead => Sys2Proof.Machine.execHealthRead s
  | .blockReset => Sys2Proof.Machine.execBlockReset s
  | .deviceReset => Sys2Proof.Machine.execDeviceReset s
  | .deviceResetDelayExpiry dt => Sys2Proof.Machine.execDeviceResetDelayExpiry dt s
  | .blkRstGo value => Sys2Proof.Machine.execBlkRstGo value s
  | .blockResetDone dt ix trained => Sys2Proof.Machine.execBlockResetDone dt ix trained s
  | .memCert p => Sys2Proof.Machine.execMemCert p s
  | .memCertReq p => Sys2Proof.Machine.execMemCertReq p s
  | .memCertReassemblyTimeout dt p => Sys2Proof.Machine.execMemCertReassemblyTimeout dt p s
  | .epochGraceExpiry dt => Sys2Proof.Machine.execEpochGraceExpiry dt s
  | .admitPortTimeout dt => Sys2Proof.Machine.execAdmitPortTimeout dt s
  | .candidateTimeout dt => Sys2Proof.Machine.execCandidateTimeout dt s
  | .retainExpiry dt => Sys2Proof.Machine.execRetainExpiry dt s
  | .hardLimitRate dt => Sys2Proof.Machine.execHardLimitRate dt s
  | .ueLimitClear dt => Sys2Proof.Machine.execUeLimitClear dt s
  | .quarantineEnd dt k => Sys2Proof.Machine.execQuarantineEnd dt k s
  | .macsecVerifyTimeout dt p => Sys2Proof.Machine.execMacsecVerifyTimeout dt p s
  | .healthRecordTimer dt => Sys2Proof.Machine.execHealthRecordTimer dt s
  | .summaryIntervalEnd dt => Sys2Proof.Machine.execSummaryIntervalEnd dt s
  | .storeNet value => Sys2Proof.Machine.execStoreNet value s
  | .ledgerAppendTimeout dt => Sys2Proof.Machine.execLedgerAppendTimeout dt s
  | .smbusClaim payload => Sys2Proof.Machine.execSmbusClaim payload s
  | .tamperEvent k on => Sys2Proof.Machine.execTamperEvent k on s
  | .debugLevelExpiry dt => Sys2Proof.Machine.execDebugLevelExpiry dt s
  | .recoveryRequest dt => Sys2Proof.Machine.execRecoveryRequest dt s
  | .recoveryDataRx d => Sys2Proof.Machine.execRecoveryDataRx d s
  | .powerFail => Sys2Proof.Machine.execPowerFail s
  | .vinOvervoltage mV => Sys2Proof.Machine.execVinOvervoltage mV s
  | .vinOutOfRange mV => Sys2Proof.Machine.execVinOutOfRange mV s
  | .vinQualified => Sys2Proof.Machine.execVinQualified s
  | .railFault ns => Sys2Proof.Machine.execRailFault ns s
  | .overpower w => Sys2Proof.Machine.execOverpower w s
  | .thermalCapStep dt f tj => Sys2Proof.Machine.execThermalCapStep dt f tj s
  | .thermalTrip => Sys2Proof.Machine.execThermalTrip s
  | .resetNAssert => Sys2Proof.Machine.execResetNAssert s
  | .resetNRelease => Sys2Proof.Machine.execResetNRelease s
  | .resetRelease dt lost pufOk keyOk ecc word => Sys2Proof.Machine.execResetRelease dt lost pufOk keyOk ecc word s
  | .firmwareStart dt groups density gbps trained => Sys2Proof.Machine.execFirmwareStart dt groups density gbps trained s
  | .tapReset => Sys2Proof.Machine.execTapReset s
  | .idcode => Sys2Proof.Machine.execIdcode s
  | .sample pins => Sys2Proof.Machine.execSample pins s
  | .preload value => Sys2Proof.Machine.execPreload value s
  | .extest scan pins value => Sys2Proof.Machine.execExtest scan pins value s
  | .clamp => Sys2Proof.Machine.execClamp s
  | .highz => Sys2Proof.Machine.execHighz s
  | .extestPulse scan pins value => Sys2Proof.Machine.execExtestPulse scan pins value s
  | .extestTrain scan pins value => Sys2Proof.Machine.execExtestTrain scan pins value s
  | .bypass code => Sys2Proof.Machine.execBypass code s
  | .internalScan k => Sys2Proof.Machine.execInternalScan k s
  | .dbgChallenge => Sys2Proof.Machine.execDbgChallenge s
  | .dbgToken data => Sys2Proof.Machine.execDbgToken data s
  | .debugTokenVerified => Sys2Proof.Machine.execDebugTokenVerified s
  | .dbgCsrRead addr => Sys2Proof.Machine.execDbgCsrRead addr s
  | .dbgCsrWrite addr value => Sys2Proof.Machine.execDbgCsrWrite addr value s
  | .dbgMemoryRead space cluster addr => Sys2Proof.Machine.execDbgMemoryRead space cluster addr s
  | .rampDownComplete c a => Sys2Proof.Machine.execRampDownComplete c a s
  | .clockRestored d => Sys2Proof.Machine.execClockRestored d s
  | .accessLinkUp sub => Sys2Proof.Machine.execAccessLinkUp sub s
  | .mgmtLinkChange port up => Sys2Proof.Machine.execMgmtLinkChange port up s
  | .mgmtCoreRestarted dt k => Sys2Proof.Machine.execMgmtCoreRestarted dt k s
  | .gddrMaintenanceUnit dt ch ce => Sys2Proof.Machine.execGddrMaintenanceUnit dt ch ce s
  | .powerCapAdjust dt vin iin pin die => Sys2Proof.Machine.execPowerCapAdjust dt vin iin pin die s
  | .unknownOpcodeFrameRx p => Sys2Proof.Machine.execUnknownOpcodeFrameRx p s
  | .mgmtIcmpv6Rx port ty src target body => Sys2Proof.Machine.execMgmtIcmpv6Rx port ty src target body s
  | .smbusCommandRx => Sys2Proof.Machine.execSmbusCommandRx s
  | .pmbusTransferEnd ok => Sys2Proof.Machine.execPmbusTransferEnd ok s
  | .ptpMessageTx dt sub ty seqId msg => Sys2Proof.Machine.execPtpMessageTx dt sub ty seqId msg s
  | .esmcTx sub msg => Sys2Proof.Machine.execEsmcTx sub msg s
  | .threadBaseInstruction c t kind rd n sgn addr value next ecc word => Sys2Proof.Machine.execThreadBaseInstruction c t kind rd n sgn addr value next ecc word s
  | .alertNHoldExpiry dt => Sys2Proof.Machine.execAlertNHoldExpiry dt s

end Sys2Proof.Machine
end

