-- ==== Sys2Proof/Safety.lean ====
section
/-! DEFINITION. Sys2Proof/Safety.lean: what the statements call a good state, and what it means for a command to complete. -/
namespace Sys2Proof.Machine

/-- The pins that follow the state are settled: a bypass pin is high only as Table 20.7 allows, and ALERT_N is low exactly while a
cause stands or its hold runs (R592, R595). -/
def State.pinsSettled (s : State) : Prop :=
  s.rst.bypass = s.settle.rst.bypass ∧ s.rst.alertLow = s.settle.rst.alertLow

/-- Every table of memory is in its canonical form: addresses rise, and none holds what an unlisted address reads as. -/
def State.memWf (s : State) : Bool := Tab.wf 0#8 s.sram && Tab.wf 0#8 s.gddr && Tab.wf 0#8 s.cxl

/-- The register file is canonical: every listed register differs from its reset value and fits 64 bits. -/
def State.csrSorted (s : State) : Bool := Tab.sortedFrom none s.csr

/-- Every register of t is as in s, but for those at the listed addresses. -/
def RegsBut (s t : State) (as : List Nat) : Prop := ∀ a, a ∉ as → Tab.find t.csr a = Tab.find s.csr a

/-- The newest record of the event log. -/
def State.logHead (s : State) : Option LogRec := s.log.recs.head?

/-- Code, source and mould of the newest record. -/
def State.lastEvt (s : State) : Option (Nat × Nat × Nat) := s.logHead.map (fun r => (r.code, r.source, r.mould))

/-- The event log has room for n more records in this heartbeat (R493). -/
abbrev State.logRoom (s : State) (n : Nat) : Prop := s.log.hbCount + n ≤ 16384

/-- Context x of mould m is FAULTED, or has been quenched at once (R266, R267): its runs count from 0 again. -/
abbrev State.faultedOrQuenched (s : State) (m x : Nat) : Prop := (s.mould m).faulted.contains x = true ∨ Tab.get 0 (s.mould m).runSeq x = 0

/-- Core 0 runs, and the command at the front of those that wait is r, with the row's code and from a session that is open (R485). -/
abbrev State.serves (s : State) (code : Nat) (r : MReq) (rest : List MReq) : Prop :=
  s.live = true ∧ s.coreUp 0 = true ∧ s.mgmt.waiting = r :: rest ∧ r.code = code ∧ (s.session r.sess).isSome = true

/-- Status, handle and body of the newest first response given to a request. -/
def State.lastAnswer (s : State) (r : MReq) : Option (Nat × Nat × Bytes) :=
  s.out.reverse.findSome? fun e => match e with
    | .response z q st h false b _ => if z = r.sess ∧ q = r.reqId then some (st, h, b) else none
    | _ => none

/-- u answers r of s with a status, handle and body; r no longer waits, and of the management controller only the sessions' own
records (the response kept, the records sent) change beside. -/
abbrev State.answeredAs (s u : State) (r : MReq) (rest : List MReq) (status handle : Nat) (body : Bytes) : Prop :=
  u.lastAnswer r = some (status, handle, body)
  ∧ u.mgmt = { s.mgmt with waiting := rest, stepped := false, hbCmds := s.mgmt.hbCmds + 1, sessions := u.mgmt.sessions }

/-- Core 0 has taken the command at the front of those that wait. -/
def State.taken (s : State) (rest : List MReq) : State :=
  { s with mgmt := { s.mgmt with waiting := rest, stepped := false, hbCmds := s.mgmt.hbCmds + 1 } }

/-- The entry of an operation that begins now for r at index i (R488). -/
def State.opBegun (s : State) (r : MReq) (i kind total : Nat) (body : OpBody) : OpSt :=
  ⟨i + (s.mgmt.handleSeq + 1) % 2 ^ 24 * 256, r.code, 1, kind, 0, total, s.clk.ns, 0, 0, body, 0, 0⟩

/-- u answers r of s with the handle of an operation begun in entry i, the one the rules give out next; no other entry changes. -/
abbrev State.opStarted (s u : State) (r : MReq) (rest : List MReq) (i kind total : Nat) (body : OpBody) : Prop :=
  u.lastAnswer r = some (0, i + (s.mgmt.handleSeq + 1) % 2 ^ 24 * 256, [])
  ∧ u.mgmt = { s.mgmt with
      waiting := rest, stepped := false, hbCmds := s.mgmt.hbCmds + 1, sessions := u.mgmt.sessions, handleSeq := s.mgmt.handleSeq + 1,
      ended := s.mgmt.ended.filter (· ≠ i), ops := Tab.set OpSt.init s.mgmt.ops i (s.opBegun r i kind total body) }

/-- The state in which a thread's instruction runs: the core has switched to the thread and its line is fetched (R471, R470). -/
def State.issued (s : State) (c t : Nat) : State := (s.switchTo c t).fetched c t

/-- Thread t of cluster c issues the system instruction op now: its word is w, the fields it does not use are 0, and v is the state in
which it runs. -/
abbrev State.sysRuns (s v : State) (c t op mask w : Nat) : Prop :=
  s.live = true ∧ s.mayIssue c t = true ∧ s.peekWord c t = some w ∧ w % 128 = 0x5D ∧ sOp w = op ∧ (s.switchTo c t).mustPark c t = false
    ∧ fieldsClear w mask = true ∧ v = s.issued c t

/-- Thread state v after its instruction: the pc moves on and the quantum counts it. -/
abbrev ThreadSt.next (v : ThreadSt) : ThreadSt := { v with pc := (v.pc + 4) % 2 ^ 64, quantum := v.quantum + 1 }

/-- An address a thread accesses lies at the own device, aligned to n bytes, in one region of its mould with the attributes (R470, R475). -/
abbrev State.threadMay (s : State) (c t addr n need : Nat) : Prop :=
  addr / 2 ^ 54 = s.devId ∧ s.isLocal c t addr = true ∧ addr % 2 ^ 48 % n = 0 ∧ s.inRegion (s.tMould c t) (addr % 2 ^ 48) n need = true

/-- The state in which n bytes at a local address are at hand: through the data cache, its line there or filled from a near tier, or
straight from memory where the region is not cached; none where the access fails or its line has to come from a far tier (R298, R471). -/
def State.atHand (s : State) (c m a n ecc word : Nat) : Option State :=
  if s.cachedAt c m a then
    if (s.lineOf false c m a).isSome then some s
    else if s.farAt m a then none
    else
      let p := s.access m (a / 64 * 64) 64 ecc word
      if p.1 = 0 then some (p.2.fillLine false c m a) else none
  else
    let p := s.access m a n ecc word
    if p.1 = 0 then some p.2 else none

/-- A remote operation of a thread can be sent now: its checks pass, and a request slot and a sequence are free (R330 to R334). -/
abbrev State.remoteMay (s : State) (c t kind addr align : Nat) : Prop :=
  addr / 2 ^ 54 ≠ s.devId ∧ s.remoteCheck (s.tMould c t) addr align = 0 ∧ s.slotFree (s.tMould c t) = true
    ∧ s.windowOpen (addr / 2 ^ 54) (s.tMould c t) = true ∧ s.rd F.thrStatus_remoteOut c t < (if kind = 6 then 64 else 2 ^ 32 - 1)

/-- u is s after thread t sent a remote operation of a kind on n bytes at an address: the operation is recorded under the next number,
it holds a request slot and counts among the thread's, and of u beside the registers only the clusters, the fabric, the egress queues
and the log differ. -/
abbrev State.remoteSent (s u : State) (c t kind addr n : Nat) : Prop :=
  u.fab.opSeq = s.fab.opSeq + 1 ∧ (u.rop u.fab.opSeq).kind = kind ∧ (u.rop u.fab.opSeq).len = n
    ∧ (u.rop u.fab.opSeq).dev = addr / 2 ^ 54 ∧ (u.rop u.fab.opSeq).far = addr % 2 ^ 48 ∧ (u.rop u.fab.opSeq).cluster = c
    ∧ (u.rop u.fab.opSeq).thread = t ∧ u.rd F.thrStatus_remoteOut c t = s.rd F.thrStatus_remoteOut c t + 1
    ∧ u.rd F.fabSlots_used (s.tMould c t) = s.rd F.fabSlots_used (s.tMould c t) + 1
    ∧ (u.thread c t).pc = ((s.thread c t).pc + 4) % 2 ^ 64 ∧ u.thrState c t = (if kind = 6 then 1 else 3)
    ∧ u = { s with csr := u.csr, clus := u.clus, fab := u.fab, egr := u.egr, log := u.log, free := u.free }

/-- Signal engine e of cluster c executes the program word w, of opcode op, now (R411, R420). -/
abbrev State.seRuns (s : State) (c e op w : Nat) : Prop :=
  s.live = true ∧ c < 96 ∧ (e = 4 ∨ e = 5) ∧ (s.seng c e).running = true ∧ s.rd F.seStatus_state c (e - 4) = 1
    ∧ w = s.seWord c e (s.rd F.seStatus_pc c (e - 4)) ∧ w % 64 = op

/-- The two fetches of a format-A word land: each puts the data-memory word its pointer had addressed into its register, and moves
that pointer by its step (R418). -/
def SeSt.landed (w : Nat) (before g : SeSt) : SeSt :=
  let g := if bit w 16 then (g.setD (bitsOf w 20 3) (before.mem 0 (before.ptr (bitsOf w 17 3)).addr)).bump (bitsOf w 17 3) else g
  if bit w 23 then (g.setD (bitsOf w 27 3) (before.mem 1 (before.ptr (bitsOf w 24 3)).addr)).bump (bitsOf w 24 3) else g

/-- u is s after the engine executed a word: its storage is g, its program goes on at word pc1, with the repeats that end there looped
or closed (R421), its counters rise by sat, acc and the beats, and nothing else changes. -/
abbrev State.seStepped (s u : State) (c e : Nat) (g : SeSt) (pc1 sat acc beats : Nat) : Prop :=
  u.rd F.seStatus_pc c (e - 4) = (closeBlks 5 g.blks pc1).2 % 2 ^ F.seStatus_pc.width
    ∧ u.rd F.seStatus_state c (e - 4) = s.rd F.seStatus_state c (e - 4)
    ∧ u.rd F.seBeats_beats c (e - 4) = (s.rd F.seBeats_beats c (e - 4) + beats) % 2 ^ F.seBeats_beats.width
    ∧ u.rd F.seCnt_sat c (e - 4) = satAdd F.seCnt_sat.width (s.rd F.seCnt_sat c (e - 4)) sat
    ∧ u.rd F.seCnt_accSat c (e - 4) = satAdd F.seCnt_accSat.width (s.rd F.seCnt_accSat c (e - 4)) acc
    ∧ RegsBut s u [regAddr .seStatus c (e - 4), regAddr .seCnt c (e - 4), regAddr .seBeats c (e - 4)]
    ∧ u = { s.setSeng c e { g with blks := (closeBlks 5 g.blks pc1).1 } with csr := u.csr }

/-- u is s after a format-A word of one beat whose operation gives o. -/
abbrev State.seDone (s u : State) (c e w : Nat) (o : SeOut) : Prop :=
  s.seStepped u c e (SeSt.landed w (s.seng c e) o.g) (s.rd F.seStatus_pc c (e - 4) + 1) o.sat o.acc 1

/-- A frame of opcode op for this device is the next to be taken from port p (12: the device's own), v is the state once it has left the
receive buffer, and the checks of R328 up to the epoch pass. -/
abbrev State.takesFrame (s v : State) (p op : Nat) (f : Bytes) : Prop :=
  s.live = true ∧ p ≤ 12 ∧ (classHeads (s.inbox p)).find? (fun g => fDst g = s.devId && fOp g = op) = some f ∧ v = s.unbox p f true
    ∧ v.inPool = true ∧ fEpoch f = v.rd F.fabEpoch_value

/-- It is a request in form and within the window of its stream (R323, R328). -/
abbrev State.takesRequest (s v : State) (p op : Nat) (f : Bytes) : Prop :=
  s.takesFrame v p op f ∧ requestOk f = true ∧ (v.rxS (streamKey (fSrc f) (fMould f))).above_ (fSeq f) ≤ 65536

/-- It answers operation id, a thread's, which waits for it: o is the operation, not slag by the frame's heat (R268, R328). -/
abbrev State.takesAnswer (s v : State) (p op kind id : Nat) (f : Bytes) (o : ROp) : Prop :=
  s.takesFrame v p op f ∧ headerOk f 1 = true ∧ v.outstanding (fSrc f) (fMould f) (fSeq f) (fun k => k = kind) = some id ∧ o = s.rop id
    ∧ o.kind = kind ∧ o.got = false ∧ o.fail = 0 ∧ o.mould < 64 ∧ o.cluster < 96 ∧ o.thread < 16
    ∧ v.isSlag o.mould o.ctx (fHeat f) o.quenches = false ∧ (v.thread o.cluster o.thread).wait = .remote id

/-- u is v after a thread's remote operation ended: its record and its slot are free, and the thread is ready again in the state t. -/
abbrev State.remoteEnded (v u : State) (id : Nat) (o : ROp) (t : ThreadSt) : Prop :=
  u.rop id = ROp.init ∧ u.rd F.fabSlots_used o.mould = v.rd F.fabSlots_used o.mould - 1
    ∧ u.rd F.thrStatus_remoteOut o.cluster o.thread = v.rd F.thrStatus_remoteOut o.cluster o.thread - 1
    ∧ u.thrState o.cluster o.thread = 1 ∧ u.thread o.cluster o.thread = t
    ∧ RegsBut v u [regAddr .fabSlots o.mould 0, regAddr .thrStatus o.cluster o.thread]
    ∧ u = { v with csr := u.csr, clus := u.clus, fab := u.fab }

/-- It is a collective frame in form, of group g in the group's generation, from member i (R365). -/
abbrev State.takesColl (s v : State) (p op g i : Nat) (f : Bytes) : Prop :=
  s.takesFrame v p op f ∧ collOk f op = true
    ∧ v.groupIdx.find? (fun g => v.rd F.collG_handle g = cHandle f && v.rd F.collG_mould g = fMould f) = some g
    ∧ cGen f = v.rd F.collG_generation g ∧ (v.grpEnt g).members.findIdx? (· = fSrc f) = some i

/-- u is v after group g aborted with a code while the operation c was under way: the group is ABORTED with nothing in flight, c's
transfer has ended with the code, and of v only the parts an abort and its frames touch differ. -/
abbrev State.collAborted (v u : State) (g code : Nat) (c : CollOp) : Prop :=
  u.rd F.collG_state g = 3 ∧ (u.grp g).cur = none ∧ (u.grp g).slots = [] ∧ (u.grp g).outq = [] ∧ (u.grp g).early = []
    ∧ (u.rop c.opId).got = true ∧ (u.rop c.opId).fail = code
    ∧ u = { v with csr := u.csr, free := u.free, log := u.log, clus := u.clus, fab := u.fab, groups := u.groups, aborts := u.aborts, egr := u.egr }

/-- A fronthaul message is well formed for a carrier, as an uplink message of a data stream (Table 15.4). -/
abbrev fhWell (v : CarrierSt) (f : Bytes) : Prop :=
  beAt f 0 1 = 0x10 ∧ beAt f 1 1 = 0 ∧ beAt f 2 2 + 4 = f.length ∧ 12 ≤ f.length ∧ beAt f 7 1 = 0x80 ∧ beAt f 8 1 = 0x10
    ∧ bitsOf (beAt f 10 2) 12 4 < 10 ∧ bitsOf (beAt f 10 2) 6 6 < v.perSub ∧ beAt f 10 2 % 64 < 14
    ∧ beAt f 4 2 % 2 ^ v.fld 0x1C 1 < v.ul

/-- The slot a fronthaul message belongs to: its frame is the one of its frameId nearest to now (R443). -/
def State.fhSlot (s : State) (v : CarrierSt) (f : Bytes) : Nat :=
  let i := bitsOf (beAt f 10 2) 12 4 * v.perSub + bitsOf (beAt f 10 2) 6 6
  s.nearFrame v 256 (beAt f 9 1) (96 * i * v.slotNs + 3125 * symStart v.mu i (beAt f 10 2 % 64)) * v.perFrame + i

/-- An egress frame of carrier c, of an EtherType. -/
def State.carFrame (s : State) (c ty until_ : Nat) (pay : Bytes) : EgFrame :=
  ⟨(s.car c).ether ty pay, ((s.car c).ether ty pay).length + 4, 12, (s.car c).mould, false, c + 1, until_⟩

/-- A queued frame of carrier c whose transmit window has ended by now (R449). -/
def EgFrame.past (c now : Nat) (f : EgFrame) : Bool := decide (f.car = c + 1) && decide (f.until_ ≠ 0) && decide (f.until_ ≤ now)

/-- The queue that a carrier's descriptor names at an offset (Table 15.2). -/
def State.carQueue (s : State) (c off : Nat) : Nat := queueNo (0x10 + (s.car c).ap) ((s.car c).fld off 2)

/-- u is w after the device left the pool for SUSPECT (6) with a cause of Table 19.1 (R555, R557): its groups are ABORTED and no newer
epoch is remembered; where no remote operation was in flight, only the parts that this touches differ. -/
abbrev State.withdrawn (w u : State) (cause : Nat) : Prop :=
  u.rd F.healthStatus_state = 6 ∧ u.rd F.membStatus_lastCause = cause ∧ u.health.seenAt = none ∧ u.health.low300 = 0
    ∧ (w.groupIdx.all (fun g => u.rd F.collG_state g = 3)) = true
    ∧ (w.fab.ops = [] → u = { w with csr := u.csr, free := u.free, rst := u.rst, log := u.log, clus := u.clus, fab := u.fab, groups := u.groups, aborts := u.aborts, egr := u.egr, health := u.health })

/-- A MEM_CERT frame on port p is in form: a fragment of a certificate of len bytes at an offset, and v is the state once it has left
the receive buffer (R571, Table 19.6). -/
abbrev State.takesCert (s v : State) (p len off : Nat) (f d : Bytes) : Prop :=
  s.live = true ∧ p ≤ 12 ∧ (classHeads (s.inbox p)).find? (fun g => fDst g = s.devId && fOp g = 0x50) = some f ∧ v = s.unbox p f true
    ∧ headerOk f 3 = true ∧ fHeat f = 0 ∧ len = beAt (fPay f) 0 4 ∧ off = beAt (fPay f) 4 4 ∧ d = (fPay f).drop 8 ∧ 0 < d.length ∧ d.length ≤ 4096
    ∧ 272 ≤ len ∧ len ≤ 272 + 7 * 16240 ∧ off % 4096 = 0 ∧ off + d.length ≤ len ∧ fSeq f = off / 4096
    ∧ (d.length = 4096 ∨ off + d.length = len)

/-- A datagram on management port p from a source reaches the protocol (R478, R575). -/
abbrev State.hears (s : State) (p : Nat) (src : Bytes) : Prop :=
  s.live = true ∧ p < 2 ∧ s.portUp p = true ∧ s.coreUp 1 = true ∧ (s.srcQuar (src.take 16)).active = false

/-- A datagram of type ty has the header of one that is not cut into fragments, with room for a tag (Table 16.3, R481). -/
abbrev recordForm (d : Bytes) (ty : Nat) : Prop := hdrOk d ty = true ∧ beAt d 16 2 = 0 ∧ beAt d 18 2 = 1 ∧ 16 ≤ beAt d 20 2

/-- A command's first part came 1 s before now (R483). -/
def Collecting.late (c : Collecting) (now : Nat) : Bool := decide (c.firstAt + 1000000000 ≤ now)

/-- The tag of a record is right under a session's keys (R481). -/
def SessSt.tagOk (z : SessSt) (d : Bytes) : Bool :=
  slice d (8 + beAt d 20 2) 16 == Config.gcmTag (slice z.keys 0 32) (slice z.keys 64 4 ++ slice d 8 8) (d.take 24) (slice d 24 (beAt d 20 2 - 16))

/-- The plaintext of a record under a session's keys (R481). -/
def SessSt.plain (z : SessSt) (d : Bytes) : Bytes :=
  gcmCrypt (slice z.keys 0 32) (slice z.keys 64 4 ++ slice d 8 8) (slice d 24 (beAt d 20 2 - 16))

/-- A plaintext is a part of a command in form (Table 16.5). -/
abbrev cmdForm (t : Bytes) : Prop :=
  24 ≤ t.length ∧ t.length ≤ 1408 ∧ leAt t 0 1 = 1 ∧ leAt t 1 1 = 0 ∧ leAt t 20 4 = 0 ∧ leAt t 16 2 < leAt t 18 2

/-- The command at the front opens a staging of n bytes for a target (0 image, 1 base bundle) with a header: everything R522 asks holds,
its STAGE_OPEN record finds room, and t is the state with it appended. -/
abbrev State.opensStage (s t : State) (code target : Nat) (r : MReq) (rest : List MReq) (n : Nat) : Prop :=
  s.serves code r rest ∧ r.body.length = 80 ∧ stageFormat r.body = true ∧ leAt r.body 0 1 = 0 ∧ n = leAt r.body 8 4
    ∧ s.led.stage.all (fun st => st.staged) = true ∧ stageLenOk target n (slice r.body 16 64) = true
    ∧ stgChunks n * 65576 + 4194304 ≤ s.freeBytes + s.deadBytes ∧ s.freeEntry.isSome = true
    ∧ (s.taken rest).append 1 (toLe 8 target ++ toLe 8 n ++ slice r.body 16 64) = some t

/-- u is w after the staging was opened under the handle of entry i, its stage id the sequence of its record in t (R522). -/
abbrev State.stageOpened (s t w u : State) (r : MReq) (target n i : Nat) : Prop :=
  u.lastAnswer r = some (0, i + (w.mgmt.handleSeq + 1) % 2 ^ 24 * 256, []) ∧ u.op i = s.opBegun r i 7 (stageSteps target n) (.stage target)
    ∧ u.led = { w.led with stage := some ⟨target, t.led.seq % 2 ^ 32, n, i + (w.mgmt.handleSeq + 1) % 2 ^ 24 * 256, false, false⟩ }
    ∧ u.mgmt = { w.mgmt with
        sessions := u.mgmt.sessions, handleSeq := w.mgmt.handleSeq + 1, ended := w.mgmt.ended.filter (· ≠ i)
        ops := Tab.set OpSt.init w.mgmt.ops i (s.opBegun r i 7 (stageSteps target n) (.stage target)) }
    ∧ u = { w with mgmt := u.mgmt, led := u.led, out := u.out }

/-- The command at the front is a chunk of the staging st of a target, of the length its index has (R523). -/
abbrev State.sendsChunk (s : State) (code target : Nat) (r : MReq) (rest : List MReq) (st : StageSt) (idx : Nat) (data : Bytes) : Prop :=
  s.serves code r rest ∧ stageFormat r.body = true ∧ leAt r.body 0 1 = 1 ∧ s.staging target (leAt r.body 4 4) = some st ∧ st.closed = false
    ∧ idx = leAt r.body 12 2 ∧ idx < stgChunks st.total ∧ data = r.body.drop 16 ∧ data.length = stgLen st.total idx

/-- The command at the front closes the staging st of a target, whose chunks are all there (R524). -/
abbrev State.closesStage (s : State) (code target : Nat) (r : MReq) (rest : List MReq) (st : StageSt) : Prop :=
  s.serves code r rest ∧ stageFormat r.body = true ∧ leAt r.body 0 1 = 2 ∧ s.staging target (leAt r.body 4 4) = some st ∧ st.closed = false
    ∧ (List.range (stgChunks st.total)).all (fun i => (s.chunkOf st.id st.total i).isSome) = true

/-- It is operation i's turn for a core-0 step of dt ns (R490). -/
abbrev State.coreStepMay (s : State) (dt i : Nat) : Prop :=
  s.live = true ∧ s.coreUp 0 = true ∧ s.stepReady i = true ∧ (s.stepClass i).1 = true ∧ dt ≤ (s.stepClass i).2 ∧ s.stepPick = some i
    ∧ s.coreStepOk dt = true

/-- The state in which a step of operation i that takes dt ns runs: time has passed, and the step counts in the heartbeat (R490). -/
def State.stepping (s : State) (core : Bool) (dt i : Nat) : State :=
  let v := s.pass dt
  let m := s.mgmt
  { v with mgmt := { m with
    stepped := core || m.stepped, hbSteps := m.hbSteps + (if core then dt else 0), ops := Tab.set OpSt.init m.ops i { s.op i with hb := (s.op i).hb + 1 } } }

/-- u is s, which ran, with the device reset asserted for a cause (R583, R584): every register but ALERT_CAUSE has its reset value, no
mould, operation, session, record of the log or byte of SRAM and GDDR7 is left, no base is in effect; the ledger's words and records,
the memory behind CXL and the queue stay. -/
abbrev State.resetBy (s u : State) (cause : Nat) : Prop :=
  u.live = false ∧ u.rst.cause = cause ∧ RegsBut State.reset u [regAddr .alertCause 0 0] ∧ u.log = State.reset.log ∧ u.mgmt = State.reset.mgmt
    ∧ ((List.range 64).all (fun m => u.mstate m = 0)) = true ∧ u.vendor = none ∧ u.oper = none ∧ u.sram = [] ∧ u.gddr = [] ∧ u.clus = [] ∧ u.clk = ⟨0, 0, 0, 0, 0⟩
    ∧ u.led.words = s.led.words ∧ u.led.recs = s.led.recs ∧ u.cxl = s.cxl ∧ u.pending = s.pending ∧ u.rst.refLost = s.rst.refLost

/-- The reset of the supply (R576): with the converter stopped, the TAP loses its state too. -/
abbrev State.downBy (s u : State) (cause : Nat) : Prop :=
  s.resetBy u cause ∧ u.tap = TapSt.init ∧ u.bkp = s.bkp ∧ u.rst.rails = false ∧ u.rst.qualified = false

/-- What Capture-IR loads (R600). -/
def State.irStatus (s : State) : Nat := 1 + s.rd F.dbgStatus_level * 2 ^ 2 + ofBool s.tokenBusy * 2 ^ 4 + ofBool s.tap.denied * 2 ^ 5

/-- The TAP once an instruction is loaded (R600): its code, the instruction in effect, and what Capture-IR had loaded. -/
def State.tapLoaded (s : State) (code mode : Nat) : TapSt := { s.tap with ir := code, mode := mode, irOut := s.irStatus, denied := false }

/-- The TAP once a test-mode instruction is loaded with a scan of the selected register or without (R602). -/
def State.tapTested (s : State) (code : Nat) (scan : Bool) (pins value : Nat) : TapSt :=
  let a := s.rst.asserted
  { s.tapLoaded code (if a then code else 0xFF) with
    denied := !a
    dr := if scan then (if a then s.pinLevels pins else 0) else s.tap.dr
    cells := if scan && a then value % 2 ^ boundaryLen else s.tap.cells }

/-- A command completes in a state: it answers a next state. -/
def Completes (i : Instr) (s : State) : Prop := ∃ t, exec i s = .next t

end Sys2Proof.Machine
end

