-- ==== Sys2Proof/Certificates/Slice0/Obligations.lean ====
section
/-! DEFINITION. Sys2Proof/Certificates/Slice0/Obligations.lean: the statements for the provers. In a completion statement the command
answers `u.settle`: u holds the command's own effect, and settling moves nothing but the pins that follow the state (R592, R595);
the equation `u = { s with ... }` of each clause says that every part of the state which it does not list is as it was. -/
open Sys2Proof Sys2Proof.Machine

/-- With command c at the front of the queue and rest behind it, step answers exactly what exec answers for c on the state whose queue is rest. The queue is the model's own form of the block's commands (log entry 1). -/
def Obligations.StepRunsFrontCommand : Prop :=
  ∀ (s : State) (c : Instr) (rest : List Instr), s.pending = c :: rest → step s = exec c { s with pending := rest }

/-- On an empty queue step answers the state itself (the model's choice, log entry 1: time passes only in commands). -/
def Obligations.EmptyQueueIdles : Prop := ∀ s : State, s.pending = [] → step s = .next s

/-- In State.reset every CSR reads the value of its register's Reset column as the register map holds it, the event log is empty, every mould is EMPTY with no section, no operation runs, no base is in effect, the queue is empty and the device reset is asserted with cause 0x01 (log entries 3, 4 and 13 name what the model chose). -/
def Obligations.ResetLeavesEveryRegisterAtItsResetValue : Prop :=
  (∀ (r : RegName) (i j : Nat), State.reset.reg r i j = r.shape.resetVal) ∧ State.reset.log.recs = []
  ∧ (∀ m, State.reset.mstate m = 0 ∧ State.reset.mould m = MouldSt.init) ∧ (∀ i, State.reset.op i = OpSt.init)
  ∧ State.reset.vendor = none ∧ State.reset.oper = none ∧ State.reset.pending = [] ∧ State.reset.live = false
  ∧ State.reset.rst.cause = 0x01 ∧ State.reset.sram = [] ∧ State.reset.gddr = [] ∧ State.reset.cxl = []

/-- For every command and every state exec answers a next state, except VIN_OVERVOLTAGE with more than 80,000 mV, which stops with absoluteMaximum; no command is refused. -/
def Obligations.EveryCommandAnswers : Prop :=
  (∀ (i : Instr) (s : State), (∀ v, i = .vinOvervoltage v → v ≤ 80000) → ∃ t, exec i s = .next t)
  ∧ (∀ (v : Nat) (s : State), 80000 < v → exec (.vinOvervoltage v) s = .fault .absoluteMaximum)

/-- If the bypass pins and ALERT_N are as Table 20.7 and R595 give them for a state, they are so in the state after any step, whatever command runs: no command leaves a bypass pin or ALERT_N behind the state it follows. -/
def Obligations.EveryStepSettlesThePins : Prop :=
  ∀ s t : State, s.pinsSettled → step s = .next t → t.pinsSettled

/-- State.reset has its bypass pins and ALERT_N as the state gives them. -/
def Obligations.ResetPinsSettled : Prop := State.reset.pinsSettled

/-- After every command, from every state, a bypass pin is high only if the device is out of reset, its state is CANDIDATE (3), MEMBER (4) or PROBATION (5), and the pin's dimension has a size above 1. -/
def Obligations.BypassPinsHighOnlyInPool : Prop :=
  ∀ (i : Instr) (s t : State), exec i s = .next t →
    (t.rst.bypass ≠ 0 → t.live = true ∧ (t.rd F.healthStatus_state = 3 ∨ t.rd F.healthStatus_state = 4 ∨ t.rd F.healthStatus_state = 5))
    ∧ (t.rd F.fabTopo_xM1 = 0 → bit t.rst.bypass 0 = false) ∧ (t.rd F.fabTopo_yM1 = 0 → bit t.rst.bypass 1 = false)
    ∧ (t.rd F.fabTopo_zM1 = 0 → bit t.rst.bypass 2 = false)

/-- After every command, from every state, ALERT_N is driven low if and only if a bit of ALERT_CAUSE is 1 or the hold of 1 ms after the last cause has not ended. -/
def Obligations.AlertPinFollowsItsCauses : Prop :=
  ∀ (i : Instr) (s t : State), exec i s = .next t → (t.rst.alertLow = true ↔ t.reg .alertCause ≠ 0 ∨ t.clk.up < t.rst.alertUntil)

/-- A write of GOV_CTRL.target_mrate within 1,500 to 2,100 stores it and touches nothing else; outside it stores nothing and logs 0x0C07. A sample that reads at least 1,500 with no alarm and no sample below 1,560 at vmax stores the rate, the slowest cluster and the rail moved by at most one 5 mV step. A shedding stage is left when its time has come, with the issue limit of the stage below. A field whose rate has held for 1 ms rejoins the fence. -/
def Obligations.GovernorAndShedding : Prop :=
  (∀ (s : State) (req f v : Nat), s.live = true → f < 4 → 1500 ≤ v → v ≤ 2100 →
    ∃ u : State, exec (.govCtrlWrite req f v) s = .next u.settle ∧ u.rd F.govCtrl_targetMrate f = v
      ∧ RegsBut s u [regAddr .govCtrl f 0] ∧ u = { s with csr := u.csr })
  ∧ (∀ (s : State) (req f v : Nat), s.live = true → f < 4 → v < 4096 → (v < 1500 ∨ 2100 < v) → s.logRoom 1 →
    ∃ u : State, exec (.govCtrlWrite req f v) s = .next u.settle
      ∧ u.lastEvt = some (0x0C07, 0x00D1 + f, 0xFF) ∧ u = { s with log := u.log })
  ∧ (∀ (s : State) (dt f rate cl : Nat), s.live = true → f < 4 → s.rd F.govStatus_alarm f = 0 → 1500 ≤ rate → rate < 4096 → cl < 96 →
    (s.rd F.govStatus_atVmax f = 0 ∨ 1560 ≤ rate) →
    ∃ u : State, exec (.governorSample dt f rate cl) s = .next u.settle ∧ u.rd F.govStatus_rateMrate f = rate
      ∧ u.rd F.govStatus_slowestCluster f = cl
      ∧ u.rd F.govStatus_railMv f = railStep (s.rd F.govStatus_railMv f) rate (s.rd F.govCtrl_targetMrate f) (s.vmax f) % 2 ^ 10
      ∧ RegsBut s u [regAddr .govStatus f 0, regAddr .govAlarm f 0]
      ∧ u = { s.pass dt with csr := u.csr, fields := u.fields })
  ∧ (∀ (s : State) (dt f t : Nat), s.live = true → f < 4 → (s.fieldSt f).liftAt = some t → t ≤ s.clk.up + dt →
    s.rd F.govStatus_alarm f = 0 → 0 < s.rd F.govStatus_shedStage f →
    ∃ u : State, exec (.shedStageLift dt f) s = .next u.settle ∧ u.rd F.govStatus_shedStage f = s.rd F.govStatus_shedStage f - 1
      ∧ u.rd F.govStatus_issueLimitRate f = stageLimit (s.rd F.govStatus_shedStage f - 1)
      ∧ (u.fieldSt f).liftAt = (if 1 < s.rd F.govStatus_shedStage f then some (s.clk.up + dt + 100000) else none)
      ∧ RegsBut s u [regAddr .govStatus f 0, regAddr .logStatus 0 0]
      ∧ u = { s.pass dt with csr := u.csr, fields := u.fields, log := u.log })
  ∧ (∀ (s : State) (dt f : Nat), s.live = true → (s.fieldSt f).below = true → 0 < (s.fieldSt f).okSince →
    (s.fieldSt f).okSince - 1 + 1000000 ≤ s.clk.up + dt →
    ∃ u : State, exec (.fieldRejoin dt f) s = .next u.settle ∧ u.fieldSt f = { s.fieldSt f with below := false }
      ∧ (∀ g, g ≠ f → u.fieldSt g = s.fieldSt g) ∧ u = { s.pass dt with fields := u.fields })

/-- A field that ends its frame waits while another fenced field has not ended its own, and a field below the floor counts its frames alone. An item that crosses into the core leaves the FIFO at what its domain has not taken; one that crosses out joins it if it holds fewer than its depth, and is otherwise discarded and counted. -/
def Obligations.FrameFenceAndCrossings : Prop :=
  (∀ (s : State) (f g m x c : Nat), s.live = true → f < 4 → (s.fieldSt f).below = false → g < 4 → g ≠ f →
    (s.fieldSt g).below = false → (s.fieldSt g).frameDone = false →
    ∃ u : State, exec (.meshFrameEnd f 0 m x c) s = .next u.settle ∧ u.fieldSt f = { s.fieldSt f with frameDone := true }
      ∧ (∀ h, h ≠ f → u.fieldSt h = s.fieldSt h) ∧ u = { s with fields := u.fields })
  ∧ (∀ (s : State) (f m x c : Nat), s.live = true → f < 4 → (s.fieldSt f).below = true →
    ∃ u : State, exec (.meshFrameEnd f 0 m x c) s = .next u.settle
      ∧ u.fieldSt f = { s.fieldSt f with frames := (s.fieldSt f).frames + 1 }
      ∧ (∀ h, h ≠ f → u.fieldSt h = s.fieldSt h) ∧ u = { s with fields := u.fields })
  ∧ (∀ (s : State) (d n : Nat), s.live = true → 0 < d → d ≤ 18 → s.clockOn d = true →
    ∃ u : State, exec (.crossingItem d true n) s = .next u.settle ∧ Tab.get 0 u.xing d = Tab.get 0 s.xing d - n
      ∧ (∀ e, e ≠ d → Tab.get 0 u.xing e = Tab.get 0 s.xing e) ∧ u = { s with xing := u.xing })
  ∧ (∀ (s : State) (d n : Nat), s.live = true → 0 < d → d ≤ 18 → s.clockOn d = true →
    ∃ u : State, exec (.crossingItem d false n) s = .next u.settle
      ∧ (if Tab.get 0 s.xing d - n < Config.crossingDepth d
          then Tab.get 0 u.xing d = Tab.get 0 s.xing d - n + 1 ∧ u.csr = s.csr
          else Tab.get 0 u.xing d = Tab.get 0 s.xing d - n
            ∧ u.rd F.xingDrop_count (d - 1) = satAdd 32 (s.rd F.xingDrop_count (d - 1)) 1)
      ∧ RegsBut s u [regAddr .xingDrop (d - 1) 0, regAddr .logStatus 0 0]
      ∧ u = { s with csr := u.csr, xing := u.xing, xingLogged := u.xingLogged, log := u.log })

/-- An array whose holding window is over takes its gang to RAMP_DOWN, and a finished ramp-down takes it to COLD. A pre-warm due for a radio entry is noted for its instant. The next ramp request of a field is granted, and the granted one that ends leaves the queue. A monitored domain that stops has its present bit cleared and its lost bit set with 0x0C05 logged; one that runs again has its present bit set. -/
def Obligations.ArrayPowerAndClocks : Prop :=
  (∀ (s : State) (dt c a : Nat), s.live = true → s.enabled c = true → a < 4 → s.rd F.arrStatus_power c a = 3 →
    (s.array c a).holdEnd ≤ s.clk.up + dt →
    ∃ u : State, exec (.holdingExpiry dt c a) s = .next u.settle ∧ (∀ b ∈ s.gangOfArray c a, u.rd F.arrStatus_power c b = 4)
      ∧ RegsBut s u ((s.gangOfArray c a).map (regAddr .arrStatus c ·)) ∧ u = { s.pass dt with csr := u.csr })
  ∧ (∀ (s : State) (c a : Nat), s.live = true → s.enabled c = true → a < 4 → s.rd F.arrStatus_power c a = 4 →
    ∃ u : State, exec (.rampDownComplete c a) s = .next u.settle ∧ (∀ b ∈ s.gangOfArray c a, u.rd F.arrStatus_power c b = 0)
      ∧ RegsBut s u ((s.gangOfArray c a).map (regAddr .arrStatus c ·)) ∧ u = { s with csr := u.csr })
  ∧ (∀ (s : State) (dt m c i : Nat) (e : SlotEntry), s.live = true → (s.pass dt).slotEntry m c i = some e → e.kind = 1 →
    (s.pass dt).nextInstant m e.offset ≤ (s.pass dt).clk.ns + 10000 →
    (s.pass dt).tableRuns m ((s.pass dt).nextInstant m e.offset) e.offset = true →
    (s.mould m).preWarmed.contains (slotKey c i, (s.pass dt).nextInstant m e.offset) = false →
    ∃ u : State, exec (.preWarm dt m c i) s = .next u.settle
      ∧ (u.mould m).preWarmed.contains (slotKey c i, (s.pass dt).nextInstant m e.offset) = true
      ∧ u = { s.pass dt with csr := u.csr, moulds := u.moulds, fields := u.fields, clus := u.clus })
  ∧ (∀ (s : State) (f : Nat) (r : RampReq), s.live = true → s.nextRamp f = some r →
    ∃ u : State, exec (.rampUpGrant f false) s = .next u.settle
      ∧ (u.fieldSt f).ramps = (s.fieldSt f).ramps.map (fun q => if q = r then { q with granted := true } else q)
      ∧ u = { s with csr := u.csr, fields := u.fields })
  ∧ (∀ (s : State) (f : Nat) (r : RampReq), s.live = true → (s.fieldSt f).ramps.find? (·.granted) = some r →
    ∃ u : State, exec (.rampUpGrant f true) s = .next u.settle ∧ (u.fieldSt f).ramps = (s.fieldSt f).ramps.erase r
      ∧ u = { s with csr := u.csr, fields := u.fields, clus := u.clus })
  ∧ (∀ (s : State) (d : Nat) (pll : Bool), s.live = true → monitored d = true → (pll = true → hasPll d = true) → s.clockOn d = true →
    d ≠ 14 → s.logRoom 1 →
    ∃ u : State, exec (.clockLost d pll) s = .next u.settle ∧ u.clockOn d = false ∧ bit (u.rd F.clkLost_lost) (d - 1) = true
      ∧ u.logHead = some ⟨s.clk.ns, 0x0C05, 0x00D0, 0xFF, 0, d + ofBool pll * 2 ^ 8⟩
      ∧ RegsBut s u [regAddr .clkStatus 0 0, regAddr .clkLost 0 0]
      ∧ u = { s with csr := u.csr, health := u.health, log := u.log })
  ∧ (∀ (s : State) (d : Nat), s.live = true → monitored d = true →
    ∃ u : State, exec (.clockRestored d) s = .next u.settle ∧ u.clockOn d = true
      ∧ (∀ e, e ≠ d → 0 < e → e ≤ 18 → u.clockOn e = s.clockOn e) ∧ RegsBut s u [regAddr .clkStatus 0 0] ∧ u = { s with csr := u.csr })

/-- At a radio entry's instant stream 0 starts the first segment of the entry's list when nothing holds it back, and the occurrence is settled; if stream 0 is still busy 4 ns after the instant the entry is skipped, counted as missed and logged with 0x0F03. A started mould's table runs from the first cycle instant at least 100 µs after its start. A loan window opens until its end instant and closes at it. The delay of R87 ends when the stream has waited its beats at the field's rate. -/
def Obligations.SlotTablesAndLoans : Prop :=
  (∀ (s : State) (dt m c i t : Nat) (e : SlotEntry) (l : ResList) (h : SegHdr), s.live = true → (s.pass dt).slotEntry m c i = some e →
    (s.pass dt).lastInstant m e.offset = some t → e.kind = 1 → (s.pass dt).tableRuns m t e.offset = true →
    Tab.get 0 (s.mould m).slotDone (slotKey c i) ≠ t + 1 → s.resident c m e.list = some l → (s.mould m).faulted.contains l.ctx = false →
    segHdr l.image 0 = some h → s.fencedCluster c = false → s.testing c h.arrays = false → (s.stream c 0).busy = false →
    s.claimsFree c 0 h = true → s.suspectIn c h.arrays = none → s.coldOf c h.arrays = 0 → h.movs ≤ s.movRoom c m l.ctx →
    ∃ u : State, exec (.slotEntryStart dt m c i) s = .next u.settle ∧ (u.stream c 0).busy = true ∧ (u.stream c 0).slot = some (m, i)
      ∧ (u.stream c 0).image = l.image ∧ (u.stream c 0).startNs = s.clk.up + dt ∧ u.rd F.seqStream_state c 0 = 1
      ∧ Tab.get 0 (u.mould m).slotDone (slotKey c i) = t + 1
      ∧ u = { s.pass dt with csr := u.csr, clus := u.clus, moulds := u.moulds, runNo := u.runNo })
  ∧ (∀ (s : State) (dt m c i t : Nat) (e : SlotEntry) (l : ResList) (h : SegHdr), s.live = true → (s.pass dt).slotEntry m c i = some e →
    (s.pass dt).lastInstant m e.offset = some t → e.kind = 1 → (s.pass dt).tableRuns m t e.offset = true →
    Tab.get 0 (s.mould m).slotDone (slotKey c i) ≠ t + 1 → s.resident c m e.list = some l → (s.mould m).faulted.contains l.ctx = false →
    segHdr l.image 0 = some h → s.fencedCluster c = false → s.testing c h.arrays = false → (s.stream c 0).busy = true →
    t + 4 ≤ (s.pass dt).clk.ns → s.logRoom 1 →
    ∃ u : State, exec (.slotEntryStart dt m c i) s = .next u.settle ∧ u.rd F.slotCnt_missed m = satAdd F.slotCnt_missed.width (s.rd F.slotCnt_missed m) 1
      ∧ u.lastEvt = some (0x0F03, srcEngine c 8, m) ∧ Tab.get 0 (u.mould m).slotDone (slotKey c i) = t + 1
      ∧ RegsBut s u [regAddr .slotCnt m 0] ∧ u = { s.pass dt with csr := u.csr, moulds := u.moulds, log := u.log })
  ∧ (∀ (s : State) (dt m t0 b : Nat), s.live = true → (s.mould m).tableAt = some t0 → s.mstate m = 3 →
    b = s.phaseNs m + cdiv (t0 + 100000 - s.phaseNs m) (s.cycleNs m) * s.cycleNs m → b ≤ (s.pass dt).clk.ns + 10000 →
    ∃ u : State, exec (.slotTableActivate dt m) s = .next u.settle ∧ (u.mould m).tableFrom = some b ∧ (u.mould m).tableAt = none
      ∧ (∀ n, n ≠ m → u.mould n = s.mould n) ∧ u = { s.pass dt with moulds := u.moulds })
  ∧ (∀ (s : State) (dt m c i t : Nat) (e : SlotEntry), s.live = true → (s.pass dt).slotEntry m c i = some e →
    (s.pass dt).lastInstant m e.offset = some t → e.kind = 2 → (s.pass dt).tableRuns m t e.offset = true →
    (s.pass dt).clk.ns < t - e.offset + e.stop →
    ∃ u : State, exec (.loanWindowOpen dt m c i) s = .next u.settle ∧ Tab.get 0 (u.mould m).windows (slotKey c i) = t - e.offset + e.stop
      ∧ (∀ n, n ≠ m → u.mould n = s.mould n) ∧ u = { s.pass dt with moulds := u.moulds })
  ∧ (∀ (s : State) (dt m c i : Nat), s.live = true → Tab.get 0 (s.mould m).windows (slotKey c i) ≤ (s.pass dt).clk.ns →
    ∃ u : State, exec (.loanWindowClose dt m c i) s = .next u.settle ∧ Tab.get 0 (u.mould m).windows (slotKey c i) = 0
      ∧ (∀ n, n ≠ m → u.mould n = s.mould n) ∧ u = { s.pass dt with moulds := u.moulds })
  ∧ (∀ (s : State) (dt c st : Nat), s.live = true → (s.stream c st).busy = false →
    (s.stream c st).notBefore ≤ (s.clk.up + dt - (s.stream c st).startNs) * s.rd F.govStatus_rateMrate (fieldOf c) / 1000 →
    ∃ u : State, exec (.issueLimitExpiry dt c st) s = .next u.settle ∧ u.stream c st = { s.stream c st with notBefore := 0 }
      ∧ u = { s.pass dt with clus := u.clus })

/-- When a free admitting stream finds its first context's head request eligible, the segment starts on it: the request leaves its queue, the gate count leaves its token if the gate is enabled, and SEQ_STREAM names the mould, the context and the segment in state 1. -/
def Obligations.SegmentAdmission : Prop :=
  ∀ (s : State) (dt c st m x : Nat) (r : StartReq) (l : ResList) (h : SegHdr) (rest : List (Nat × Nat)) (q : List StartReq),
    s.live = true → m < 64 → x < 16 → (s.clu c).auditOp = none → (s.admitStreams c).contains st = true → (s.stream c st).busy = false →
    (s.pass dt).admitOrder c = (m, x) :: rest → Tab.get [] (s.clu c).queues (ctxKey m x) = r :: q →
    (s.pass dt).verdict c st m x r = .ok → s.resident c m r.list = some l → segHdr l.image r.seg = some h →
    ∃ u : State, exec (.segmentAdmit dt c st) s = .next u.settle ∧ (u.stream c st).busy = true ∧ (u.stream c st).image = l.image
      ∧ (u.stream c st).segOff = h.off ∧ Tab.get [] (u.clu c).queues (ctxKey m x) = q
      ∧ u.tok c m x r.gateTok = (if r.gateEn then s.tok c m x r.gateTok - r.gateCnt else s.tok c m x r.gateTok)
      ∧ u.rd F.seqStream_state c st = 1 ∧ u.rd F.seqStream_mould c st = m ∧ u.rd F.seqStream_ctx c st = x
      ∧ u = { s.pass dt with csr := u.csr, clus := u.clus, runNo := u.runNo }

/-- An instruction that a stream issues into an empty engine queue takes effect at once: NOP takes only its place; TPS adds its value to its token, saturating at 65,535; a satisfied TWT subtracts its count; MOV joins its context's transfer queue; CHN binds its chain; RPT opens its repeat; END closes the issue of the segment. Each advances the stream by one ordinal. -/
def Obligations.InstructionsOfTheSequencer : Prop :=
  (∀ (s : State) (c st n : Nat) (q : QIns), s.live = true → c < 96 → st < 4 → s.nextIns c st = some (q, n) → q.cls = 0 → s.queue c st q.eng = [] →
    s.queue c st 8 = [] →
    ∃ u : State, exec (.nop c st) s = .next u.settle ∧ (u.stream c st).ordinal = (s.stream c st).ordinal + 1 ∧ u.queue c st q.eng = []
      ∧ RegsBut s u [regAddr .seqStream c st] ∧ u = { s with csr := u.csr, clus := u.clus })
  ∧ (∀ (s : State) (c st n : Nat) (q : QIns), s.live = true → c < 96 → st < 4 → s.nextIns c st = some (q, n) → q.cls = 7 → s.queue c st q.eng = [] →
    s.queue c st 8 = [] →
    ∃ u : State, exec (.tps c st) s = .next u.settle ∧ (u.stream c st).ordinal = (s.stream c st).ordinal + 1
      ∧ u.tokenSeen c st q = min 65535 (s.tokenSeen c st q + q.count)
      ∧ RegsBut s u [regAddr .seqStream c st, regAddr .logStatus 0 0] ∧ u = { s with csr := u.csr, clus := u.clus, log := u.log })
  ∧ (∀ (s : State) (c st n : Nat) (q : QIns), s.live = true → c < 96 → st < 4 → s.nextIns c st = some (q, n) → q.cls = 6 → s.queue c st q.eng = [] →
    s.queue c st 8 = [] → (s.stream c st).audit = false → q.count ≤ s.tokenSeen c st q →
    ∃ u : State, exec (.twt c st) s = .next u.settle ∧ (u.stream c st).ordinal = (s.stream c st).ordinal + 1
      ∧ u.tokenSeen c st q = s.tokenSeen c st q - q.count
      ∧ RegsBut s u [regAddr .seqStream c st] ∧ u = { s with csr := u.csr, clus := u.clus })
  ∧ (∀ (s : State) (c st n : Nat) (q : QIns), s.live = true → c < 96 → st < 4 → s.nextIns c st = some (q, n) → q.cls = 5 → s.queue c st q.eng = [] →
    s.queue c st 8 = [] →
    ∃ u : State, exec (.mov c st) s = .next u.settle ∧ (u.stream c st).ordinal = (s.stream c st).ordinal + 1
      ∧ (Tab.get [] (u.clu c).ladle (ctxKey (s.sMould c st) (s.sCtx c st))).map (fun v => (v.kind, v.len, v.begun))
        = (Tab.get [] (s.clu c).ladle (ctxKey (s.sMould c st) (s.sCtx c st))).map (fun v => (v.kind, v.len, v.begun))
          ++ [(bitsOf q.w0 16 4, bitsOf q.w0 32 32, false)]
      ∧ RegsBut s u [regAddr .seqStream c st] ∧ u = { s with csr := u.csr, clus := u.clus, fab := u.fab })
  ∧ (∀ (s : State) (c st n : Nat) (q : QIns), s.live = true → c < 96 → st < 4 → s.nextIns c st = some (q, n) → q.cls = 4 → q.eng < 4 → s.queue c st q.eng = [] →
    s.queue c st 8 = [] →
    ∃ u : State, exec (.chn c st) s = .next u.settle ∧ (u.stream c st).ordinal = (s.stream c st).ordinal + 1
      ∧ (u.array c q.eng).binding.map (fun b => (b.chain, b.param0, b.strDone)) = some (bitsOf q.w0 16 6, bitsOf q.w0 32 32, false)
      ∧ RegsBut s u [regAddr .seqStream c st] ∧ u = { s with csr := u.csr, clus := u.clus })
  ∧ (∀ (s : State) (c st n : Nat) (q : QIns), s.live = true → c < 96 → st < 4 → s.nextIns c st = some (q, n) → q.cls = 9 → s.queue c st 8 = [] →
    ∃ u : State, exec (.rpt c st) s = .next u.settle ∧ (u.stream c st).ordinal = (s.stream c st).ordinal + 1
      ∧ ((u.stream c st).rpts.getLast?).map (fun r => (r.start, r.body, r.count, r.iter))
        = some ((u.stream c st).pc, bitsOf q.w0 32 16, bitsOf q.w0 16 16 + 1, 0)
      ∧ u = { s with clus := u.clus })
  ∧ (∀ (s : State) (c st n : Nat) (q : QIns), s.live = true → c < 96 → st < 4 → s.nextIns c st = some (q, n) → q.cls = 15 → s.queue c st 8 = [] →
    ∃ u : State, exec (.endSeg c st) s = .next u.settle ∧ (u.stream c st).ending = true
      ∧ RegsBut s u [regAddr .seqStream c st] ∧ u = { s with csr := u.csr, clus := u.clus })

/-- Issued into an empty queue, LDS puts one plane into its array's shadow; STR makes every array of the gang ACTIVE in its mode; DRN takes the first complete span of its source out of its array; SGD starts its program with P0 to P3 and stays at the head of its queue. -/
def Obligations.ArraysTakeTheirInstructions : Prop :=
  (∀ (s : State) (c st n : Nat) (q : QIns), s.live = true → c < 96 → st < 4 → s.nextIns c st = some (q, n) → q.cls = 1 → q.eng < 4 → s.queue c st q.eng = [] →
    s.queue c st 8 = [] →
    ∃ u : State, exec (.lds c st) s = .next u.settle ∧ (u.stream c st).ordinal = (s.stream c st).ordinal + 1
      ∧ (u.array c q.eng).shadow = (s.array c q.eng).shadow ++ [(s.ldsPlane (s.sMould c st) q).1]
      ∧ RegsBut s u [regAddr .seqStream c st] ∧ u = { s with csr := u.csr, clus := u.clus })
  ∧ (∀ (s : State) (c st n row col len : Nat) (q : QIns), s.live = true → c < 96 → st < 4 → s.nextIns c st = some (q, n) → q.cls = 2 → q.eng < 4 →
    s.queue c st q.eng = [] → s.queue c st 8 = [] → s.arrivalNeed c st q = none →
    ∃ u : State, exec (.str c st false row col len) s = .next u.settle ∧ (u.stream c st).ordinal = (s.stream c st).ordinal + 1
      ∧ (∀ a ∈ s.gangOfArray c q.eng, u.rd F.arrStatus_power c a = 2)
      ∧ (∀ a ∈ s.gangOfArray c q.eng, u.rd F.arrStatus_mode c a = bitsOf q.w0 16 2)
      ∧ RegsBut s u ((s.gangOfArray c q.eng).flatMap (fun a => [regAddr .arrStatus c a, regAddr .arrBeats c a, regAddr .arrChk c a])
        ++ [regAddr .seqStream c st, regAddr .chnCnt c 0])
      ∧ u = { s with csr := u.csr, clus := u.clus })
  ∧ (∀ (s : State) (c st n : Nat) (q : QIns) (sp : Span), s.live = true → c < 96 → st < 4 → s.nextIns c st = some (q, n) → q.cls = 3 → q.eng < 4 →
    s.queue c st q.eng = [] → s.queue c st 8 = [] → (s.gangOfArray c q.eng).all (fun a => (s.array c a).replay.isNone) = true →
    (s.array c q.eng).spans.find? (fun p => p.ended && p.source = bitsOf q.w0 16 2) = some sp →
    ∃ u : State, exec (.drn c st) s = .next u.settle ∧ (u.stream c st).ordinal = (s.stream c st).ordinal + 1
      ∧ (u.array c q.eng).spans = (s.array c q.eng).spans.erase sp
      ∧ RegsBut s u [regAddr .seqStream c st, regAddr .arithCnt c 0, regAddr .chnCnt c 0]
      ∧ u = { s with csr := u.csr, clus := u.clus, sram := u.sram, gddr := u.gddr, cxl := u.cxl, xts := u.xts, vers := u.vers })
  ∧ (∀ (s : State) (c st n : Nat) (q : QIns), s.live = true → c < 96 → st < 4 → s.nextIns c st = some (q, n) → q.cls = 8 → 4 ≤ q.eng → q.eng ≤ 5 →
    s.queue c st q.eng = [] → s.queue c st 8 = [] → (s.seng c q.eng).running = false →
    (s.progEntry c q.eng (s.sMould c st) (bitsOf q.w0 16 16)).isSome = true →
    ∃ u : State, exec (.sgd c st) s = .next u.settle ∧ (u.stream c st).ordinal = (s.stream c st).ordinal + 1
      ∧ (u.seng c q.eng).running = true ∧ (u.seng c q.eng).stream = st ∧ u.queue c st q.eng = [q]
      ∧ Tab.get 0 (u.seng c q.eng).pars 0 = bitsOf q.w0 32 32 ∧ Tab.get 0 (u.seng c q.eng).pars 1 = bitsOf q.w0 64 32
      ∧ Tab.get 0 (u.seng c q.eng).pars 2 = bitsOf q.w1 0 32 ∧ Tab.get 0 (u.seng c q.eng).pars 3 = bitsOf q.w1 32 32
      ∧ RegsBut s u [regAddr .seqStream c st, regAddr .seStatus c (q.eng - 4), regAddr .seBeats c (q.eng - 4)]
      ∧ u = { s with csr := u.csr, clus := u.clus })

/-- A committed replay clears its array's replay, counts in ARR_CHK and logs 0x0D02. A waiting TWT whose count is there proceeds after its wait: its token falls by the count and the wait beats count in SEQ_BEATS. A held arrival STR whose granules are there proceeds: its token falls by the granules, which CHN_ARRIVE records with the wait. -/
def Obligations.WaitsAndReplaysEnd : Prop :=
  (∀ (s : State) (c a st row col len : Nat), s.live = true → c < 96 → a < 4 → (s.array c a).replay = some len →
    s.streamOfArray c a = some st → (List.range 9).all (fun e => (s.queue c st e).isEmpty) = true → s.logRoom 1 →
    ∃ u : State, exec (.replayCommit c a true row col) s = .next u.settle ∧ (u.array c a).replay = none ∧ u.rd F.arrStatus_replaying c a = 0
      ∧ u.rd F.arrChk_replayOk c a = satAdd F.arrChk_replayOk.width (s.rd F.arrChk_replayOk c a) 1
      ∧ u.lastEvt = some (0x0D02, srcEngine c a, s.sMould c st)
      ∧ RegsBut s u [regAddr .arrStatus c a, regAddr .arrChk c a, regAddr .seqStream c st]
      ∧ u = { s with csr := u.csr, clus := u.clus, log := u.log, free := u.free, health := u.health })
  ∧ (∀ (s : State) (c st w : Nat) (h : QIns), s.live = true → c < 96 → st < 4 → (s.stream c st).busy = true →
    (s.stream c st).queues = [(h.eng, [h])] → h.cls = 6 → s.headReady c st h = true → (s.stream c st).audit = false →
    bit h.w0 9 = true → w ≤ s.waitLimit c h →
    ∃ u : State, exec (.twtSatisfied c st w) s = .next u.settle ∧ u.tokenSeen c st h = s.tokenSeen c st h - h.count
      ∧ u.rd F.seqBeats_wait c st = (s.rd F.seqBeats_wait c st + w) % 2 ^ F.seqBeats_wait.width ∧ u.queue c st h.eng = []
      ∧ RegsBut s u [regAddr .seqBeats c st, regAddr .seqStream c st] ∧ u = { s with csr := u.csr, clus := u.clus })
  ∧ (∀ (s : State) (c st w t g : Nat) (h : QIns), s.live = true → c < 96 → st < 4 → (s.stream c st).busy = true →
    (s.stream c st).queues = [(h.eng, [h])] → h.cls = 2 → h.eng < 4 → s.arrivalNeed c st h = some (t, g) →
    g ≤ s.tok c (s.sMould c st) (s.sCtx c st) t → (s.stream c st).audit = false → w ≤ s.waitLimit c h →
    ∃ u : State, exec (.arrivalGranulePresent c st w) s = .next u.settle
      ∧ u.tok c (s.sMould c st) (s.sCtx c st) t = s.tok c (s.sMould c st) (s.sCtx c st) t - g
      ∧ u.rd F.chnArrive_granules c h.eng = g % 2 ^ F.chnArrive_granules.width
      ∧ u.rd F.chnArrive_wait c h.eng = w % 2 ^ F.chnArrive_wait.width
      ∧ u.rd F.seqBeats_wait c st = (s.rd F.seqBeats_wait c st + w) % 2 ^ F.seqBeats_wait.width
      ∧ u = { s with csr := u.csr, clus := u.clus })

/-- A drained segment ends: its stream is free, SEQ_BEATS reports its active, wait and replay beats, and its context's run count rises. A held outside instruction past its wait limit, and a segment past its WCET, fault their context: it is FAULTED, or quenched at once where its automatic quench is on; nothing outside the parts that a context fault reaches changes. -/
def Obligations.SegmentsEnd : Prop :=
  (∀ (s : State) (c st : Nat), s.live = true → c < 96 → st < 4 → s.drained c st = true → (s.stream c st).audit = false →
    (s.stream c st).slot = none →
    ∃ u : State, exec (.segmentEnd c st) s = .next u.settle ∧ (u.stream c st).busy = false ∧ u.rd F.seqStream_state c st = 0
      ∧ u.rd F.seqBeats_elapsed c st = ((segHdrAt (s.stream c st).image (s.stream c st).segOff).active + s.rd F.seqBeats_wait c st
        + (s.stream c st).replayUsed) % 2 ^ F.seqBeats_elapsed.width
      ∧ Tab.get 0 (u.mould (s.sMould c st)).runSeq (s.sCtx c st) = Tab.get 0 (s.mould (s.sMould c st)).runSeq (s.sCtx c st) + 1
      ∧ u = { s with csr := u.csr, clus := u.clus, moulds := u.moulds })
  ∧ (∀ (s : State) (c st : Nat) (h : QIns) (hs : List QIns), s.live = true → c < 96 → st < 4 → s.outsideHeads c st = h :: hs →
    s.mstate (s.sMould c st) ≠ 5 → (s.mould (s.sMould c st)).faulted.contains (s.sCtx c st) = false →
    ∃ u : State, exec (.waitTimeout c st) s = .next u.settle ∧ u.faultedOrQuenched (s.sMould c st) (s.sCtx c st)
      ∧ u = { s with csr := u.csr, clus := u.clus, moulds := u.moulds, log := u.log, free := u.free, mgmt := u.mgmt, out := u.out, groups := u.groups, aborts := u.aborts, fab := u.fab })
  ∧ (∀ (s : State) (c st : Nat), s.live = true → c < 96 → st < 4 → (s.stream c st).busy = true →
    (s.stream c st).audit = false → s.mstate (s.sMould c st) ≠ 5 → (s.mould (s.sMould c st)).faulted.contains (s.sCtx c st) = false →
    ∃ u : State, exec (.segOverrun c st) s = .next u.settle ∧ u.faultedOrQuenched (s.sMould c st) (s.sCtx c st)
      ∧ u = { s with csr := u.csr, clus := u.clus, moulds := u.moulds, log := u.log, free := u.free, mgmt := u.mgmt, out := u.out, groups := u.groups, aborts := u.aborts, fab := u.fab })

/-- A list whose validation finds no fault becomes resident and its load leaves the queue. The one digest record due is written at its address and counted. Clearing an array's counters leaves suspect_count alone; a self-test of an unused array sets its busy bit; one that passes clears it, sets pass, and lifts the suspect mark. -/
def Obligations.ListLoadsDigestsAndSelfTests : Prop :=
  (∀ (s : State) (c m x addr e id pg t : Nat) (im : Bytes), s.live = true → c < 96 →
    (s.clu c).loads = [⟨m, x, addr, e, id, pg, .thread t⟩] →
    ((s.setClu c { s.clu c with loads := [] }).listCheck c ⟨m, x, addr, e, id, pg, .thread t⟩ false).toOption = some im →
    ∃ u : State, exec (.listLoadDone c 0 0 0) s = .next u.settle ∧ (u.clu c).loads = []
      ∧ (u.clu c).lists = (s.clu c).lists ++ [⟨m, x, listIdOf im, im⟩]
      ∧ u = { s with csr := u.csr, clus := u.clus })
  ∧ (∀ (s : State) (c : Nat) (r : DigestRec), s.live = true → c < 96 → (s.clu c).records = [r] → (s.clu c).auditOp = none →
    ∃ u : State, exec (.digestRecordWrite c) s = .next u.settle ∧ (u.clu c).records = []
      ∧ u.rd F.dgCnt_written c = satAdd F.dgCnt_written.width (s.rd F.dgCnt_written c) 1
      ∧ u.sram = (s.writeMem r.mould r.addr r.bytes).sram
      ∧ RegsBut s u [regAddr .dgCnt c 0]
      ∧ u = { s with csr := u.csr, clus := u.clus, sram := u.sram, gddr := u.gddr, cxl := u.cxl, xts := u.xts })
  ∧ (∀ (s : State) (req c a : Nat), s.live = true → s.enabled c = true → a < 4 →
    ∃ u : State, exec (.arrClearCounters req c a) s = .next u.settle ∧ u.rd F.arrChk_mismatch c a = 0 ∧ u.rd F.arrChk_replayOk c a = 0
      ∧ u.rd F.arrChk_budgetFault c a = 0 ∧ u.rd F.arrChk_skip c a = 0
      ∧ u.rd F.arrChk_suspectCount c a = s.rd F.arrChk_suspectCount c a
      ∧ RegsBut s u [regAddr .arrChk c a] ∧ u = { s with csr := u.csr })
  ∧ (∀ (s : State) (req c a : Nat), s.live = true → s.enabled c = true → a < 4 → s.selfTestOk c a = true →
    ∃ u : State, exec (.arrSelfTest req c a) s = .next u.settle ∧ u.rd F.arrStatus_selfTestBusy c a = 1
      ∧ RegsBut s u [regAddr .arrStatus c a] ∧ u = { s with csr := u.csr })
  ∧ (∀ (s : State) (c a : Nat) (pass : Bool), s.live = true → c < 96 → a < 4 → s.flag F.arrStatus_selfTestBusy c a = true →
    s.flag F.arrStatus_suspect c a = false → s.selfTestOp c a = none → s.logRoom 1 →
    ∃ u : State, exec (.selfTestDone c a pass) s = .next u.settle ∧ u.rd F.arrStatus_selfTestBusy c a = 0
      ∧ u.rd F.arrStatus_selfTestPass c a = ofBool pass ∧ u.lastEvt = some (0x0D05, srcEngine c a, 0xFF)
      ∧ RegsBut s u [regAddr .arrStatus c a] ∧ u = { s with csr := u.csr, log := u.log, free := u.free })

/-- MOULD_START moves a READY or CHILLED mould to RUNNING with any chill ended, its slot table due from now where it is a radio mould, and event 0x0F01. MOULD_CHILL of a RUNNING mould stops admission and changes no state by itself; the mould becomes CHILLED, its table stopped, when nothing of it runs or waits. MOULD_QUENCH of a live mould with no borrower raises its heat by 1, moves it to QUENCHING and answers the handle of an operation that begins. Each is answered, and nothing outside the parts named changes. -/
def Obligations.MouldLife : Prop :=
  (∀ (s : State) (r : MReq) (rest : List MReq) (m : Nat), s.serves 0x0011 r rest → mouldBody r.body = true → m = leAt r.body 0 1 →
    (s.mstate m = 2 ∨ s.mstate m = 4) → s.logRoom 1 →
    ∃ u : State, exec .mouldStart s = .next u.settle ∧ s.answeredAs u r rest 0 0 [] ∧ u.mstate m = 3 ∧ (u.mould m).chilling = false
      ∧ (u.mould m).tableAt = (if s.isRadio m then some s.clk.ns else none) ∧ (u.mould m).tableFrom = none
      ∧ u.lastEvt = some (0x0F01, 0x00A0, m) ∧ RegsBut s u [regAddr .mouldStatus m 0] ∧ (∀ n, n ≠ m → u.mould n = s.mould n)
      ∧ u = { s with csr := u.csr, moulds := u.moulds, log := u.log, mgmt := u.mgmt, out := u.out })
  ∧ (∀ (s : State) (r : MReq) (rest : List MReq) (m : Nat), s.serves 0x0012 r rest → mouldBody r.body = true → m = leAt r.body 0 1 →
    s.mstate m = 3 → (s.mould m).auditing = false →
    ∃ u : State, exec .mouldChill s = .next u.settle ∧ s.answeredAs u r rest 0 0 [] ∧ u.mould m = { s.mould m with chilling := true }
      ∧ (∀ n, n ≠ m → u.mould n = s.mould n) ∧ u = { s with moulds := u.moulds, mgmt := u.mgmt, out := u.out })
  ∧ (∀ (s : State) (m : Nat), s.live = true → m < 64 → s.mstate m = 3 → (s.mould m).chilling = true → s.chillDrained m = true → s.logRoom 1 →
    ∃ u : State, exec (.mouldChilled m) s = .next u.settle ∧ u.mstate m = 4
      ∧ u.mould m = { s.mould m with chilling := false, tableAt := none, tableFrom := none }
      ∧ u.lastEvt = some (0x0F01, 0x00A0, m) ∧ RegsBut s u [regAddr .mouldStatus m 0] ∧ (∀ n, n ≠ m → u.mould n = s.mould n)
      ∧ u = { s with csr := u.csr, moulds := u.moulds, log := u.log })
  ∧ (∀ (s : State) (r : MReq) (rest : List MReq) (m i : Nat), s.serves 0x0013 r rest → mouldBody r.body = true → m = leAt r.body 0 1 →
    s.quenchOp m = none → s.pourOp m = none → s.mouldLive m = true → s.borrowersOf m = [] → s.freeEntry = some i → s.logRoom 1 →
    ∃ u : State, exec .mouldQuench s = .next u.settle
      ∧ s.opStarted u r rest i 1 (u.op i).total (s.quenchBody m (cdiv (s.releaseBytes m) 65536 + 1) 2 0)
      ∧ u.mstate m = 5 ∧ u.heat m = (s.heat m + 1) % 2 ^ F.mouldStatus_heat.width ∧ (u.mould m).quenches = (s.mould m).quenches + 1
      ∧ u.lastEvt = some (0x0F01, 0x00A0, m) ∧ RegsBut s u [regAddr .mouldStatus m 0] ∧ (∀ n, n ≠ m → u.mould n = s.mould n)
      ∧ u = { s with csr := u.csr, moulds := u.moulds, log := u.log, mgmt := u.mgmt, out := u.out })

/-- CTX_QUENCH of a context of a live mould answers a handle at once, and the context's run counts start from 0 and it is no longer FAULTED. SEG_START whose request the rules accept puts it at the tail of its context's queue on the cluster. AUDIT_RUN of a READY mould moves it to RUNNING for the audit (here while no stream can take it at once). ARR_SELFTEST sets the array's busy bit. Each answers its request. -/
def Obligations.ContextQuenchesStartsAndAudits : Prop :=
  (∀ (s : State) (r : MReq) (rest : List MReq) (m x i : Nat), s.serves 0x0014 r rest → r.body.length = 2 → m = leAt r.body 0 1 → m < 64 →
    x = leAt r.body 1 1 → s.mouldLive m = true → x < s.ctxCount m → s.freeEntry = some i →
    ∃ u : State, exec .ctxQuench s = .next u.settle ∧ Tab.get 0 (u.mould m).runSeq x = 0 ∧ (u.mould m).faulted.contains x = false
      ∧ Emit.response r.sess r.reqId 0 (i + (s.mgmt.handleSeq + 1) % 2 ^ 24 * 256) false [] (s.sendPort r.port) ∈ u.out
      ∧ u.mgmt.waiting = rest
      ∧ u = { s with csr := u.csr, clus := u.clus, moulds := u.moulds, log := u.log, free := u.free, mgmt := u.mgmt, out := u.out, groups := u.groups, aborts := u.aborts, fab := u.fab, egr := u.egr })
  ∧ (∀ (s : State) (r : MReq) (rest : List MReq) (c m x : Nat) (q : StartReq), s.serves 0x0015 r rest → r.body.length = 16 →
    leAt r.body 3 1 = 0 → leAt r.body 10 1 < 32 → leAt r.body 11 1 < 2 → leAt r.body 14 2 = 0 → s.enabled c = true → m < 64 →
    m = leAt r.body 0 1 → x = leAt r.body 1 1 → c = leAt r.body 2 1 →
    q = ⟨leAt r.body 4 4, leAt r.body 8 2, leAt r.body 10 1, leAt r.body 11 1 == 1, leAt r.body 12 2⟩ → (s.enqueueStart c m x q).1 = 0 →
    ∃ u : State, exec .segStart s = .next u.settle ∧ s.answeredAs u r rest 0 0 []
      ∧ Tab.get [] (u.clu c).queues (ctxKey m x) = Tab.get [] (s.clu c).queues (ctxKey m x) ++ [q]
      ∧ u.clu c = { s.clu c with queues := (u.clu c).queues } ∧ (∀ d, d ≠ c → u.clu d = s.clu d)
      ∧ u = { s with clus := u.clus, mgmt := u.mgmt, out := u.out })
  ∧ (∀ (s : State) (r : MReq) (rest : List MReq) (c m x i : Nat) (l : ResList) (h : SegHdr), s.serves 0x001C r rest →
    r.body.length = 16 → leAt r.body 3 1 = 0 → leAt r.body 10 2 = 0 → m < 64 → s.enabled c = true → m = leAt r.body 0 1 →
    x = leAt r.body 1 1 → c = leAt r.body 2 1 → s.mstate m = 2 → x < s.ctxCount m → s.resident c m (leAt r.body 4 4) = some l →
    l.ctx = x → segHdr l.image (leAt r.body 8 2) = some h → bitsOf h.flags 2 4 ≠ 0 → (s.clu c).auditOp = none → s.freeEntry = some i →
    (List.range 4).all (fun st => (s.stream c st).busy) = true → s.logRoom 1 →
    ∃ u : State, exec .auditRun s = .next u.settle
      ∧ s.opStarted u r rest i 8 1 (.audit c m x (leAt r.body 4 4) (leAt r.body 8 2) (leAt r.body 12 4))
      ∧ u.mstate m = 3 ∧ u.mould m = { s.mould m with auditing := true } ∧ u.clu c = { s.clu c with auditOp := some i }
      ∧ u.lastEvt = some (0x0F01, 0x00A0, m) ∧ RegsBut s u [regAddr .mouldStatus m 0]
      ∧ u = { s with csr := u.csr, clus := u.clus, moulds := u.moulds, log := u.log, mgmt := u.mgmt, out := u.out })
  ∧ (∀ (s : State) (r : MReq) (rest : List MReq) (c a i : Nat), s.serves 0x001D r rest → r.body.length = 2 → c = leAt r.body 0 1 →
    a = leAt r.body 1 1 → s.enabled c = true → a < 4 → s.selfTestOk c a = true → s.freeEntry = some i →
    ∃ u : State, exec .arrSelftest s = .next u.settle ∧ s.opStarted u r rest i 8 1 (.selfTest c a) ∧ u.rd F.arrStatus_selfTestBusy c a = 1
      ∧ RegsBut s u [regAddr .arrStatus c a] ∧ u = { s with csr := u.csr, mgmt := u.mgmt, out := u.out })

/-- LIST_LOAD and SE_LOAD put a load behind those that wait, and stay unanswered until it completes. LIST_UNLOAD and SE_UNLOAD of what nothing uses remove it and answer 0. THR_START of a FREE thread that the rules allow binds it READY at its entry with its argument in register 1; THR_STOP frees a thread. -/
def Obligations.LoadsAndThreadsByCommand : Prop :=
  (∀ (s : State) (r : MReq) (rest : List MReq) (c m x a : Nat), s.serves 0x0016 r rest → r.body.length = 16 → m = leAt r.body 0 1 →
    x = leAt r.body 1 1 → c = leAt r.body 2 1 → allZero (slice r.body 3 5) = true → a = leAt r.body 8 8 % 2 ^ 48 → m < 64 →
    s.enabled c = true → (s.ctxCount m = 0 ∨ x < s.ctxCount m) → s.onCluster m c a 64 1 = true →
    ∃ u : State, exec .listLoad s = .next u.settle ∧ u.clu c = { s.clu c with loads := (s.clu c).loads
        ++ [⟨m, x, a, 0, listIdOf (s.readMem m a 64), cdiv (leAt (s.readMem m a 64) 0xC 4) 8192, .mgmt r.sess r.reqId r.port⟩] }
      ∧ (∀ d, d ≠ c → u.clu d = s.clu d)
      ∧ u = { s with clus := u.clus, mgmt := { s.mgmt with waiting := rest, stepped := false, hbCmds := s.mgmt.hbCmds + 1 } })
  ∧ (∀ (s : State) (r : MReq) (rest : List MReq) (c m id : Nat), s.serves 0x0017 r rest → r.body.length = 8 → m = leAt r.body 0 1 →
    c = leAt r.body 1 1 → leAt r.body 2 2 = 0 → id = leAt r.body 4 4 → m < 64 → s.enabled c = true → (s.listUnload c m id).1 = 0 →
    ∃ u : State, exec .listUnload s = .next u.settle ∧ s.answeredAs u r rest 0 0 [] ∧ u.resident c m id = none
      ∧ u.clu c = { s.clu c with lists := (s.clu c).lists.filter (fun l => !(l.mould = m && l.id = id)) }
      ∧ (∀ d, d ≠ c → u.clu d = s.clu d) ∧ u = { s with clus := u.clus, mgmt := u.mgmt, out := u.out })
  ∧ (∀ (s : State) (r : MReq) (rest : List MReq) (c m k e : Nat) (es : List Nat), s.serves 0x0018 r rest → r.body.length = 16 →
    m = leAt r.body 0 1 → c = leAt r.body 1 1 → k = leAt r.body 2 1 → allZero (slice r.body 3 5) = true → m < 64 → s.enabled c = true →
    0 < k → k < 4 → maskEngines k = e :: es →
    ∃ u : State, exec .seLoad s = .next u.settle ∧ u.seng c e = { s.seng c e with loads := (s.seng c e).loads
        ++ [⟨m, 0, leAt r.body 8 8 % 2 ^ 48, k, 0, 0, .mgmt r.sess r.reqId r.port⟩] }
      ∧ u.clu c = { s.clu c with se := (u.clu c).se } ∧ (∀ d, d ≠ c → u.clu d = s.clu d)
      ∧ u = { s with clus := u.clus, mgmt := { s.mgmt with waiting := rest, stepped := false, hbCmds := s.mgmt.hbCmds + 1 } })
  ∧ (∀ (s : State) (r : MReq) (rest : List MReq) (c m e id : Nat), s.serves 0x0019 r rest → r.body.length = 8 → m = leAt r.body 0 1 →
    c = leAt r.body 1 1 → e = leAt r.body 2 1 → leAt r.body 3 1 = 0 → id = leAt r.body 4 4 → m < 64 → s.enabled c = true → (e = 4 ∨ e = 5) →
    (s.seng c e).progs.any (fun p => p.mould = m && p.id = id) = true →
    (List.range 4).any (fun st => (s.stream c st).busy && s.sMould c st = m && bit (s.stream c st).engines (e - 4)) = false →
    ∃ u : State, exec .seUnload s = .next u.settle ∧ s.answeredAs u r rest 0 0 []
      ∧ u.seng c e = { s.seng c e with progs := (s.seng c e).progs.filter (fun p => !(p.mould = m && p.id = id)) }
      ∧ u.clu c = { s.clu c with se := (u.clu c).se } ∧ (∀ d, d ≠ c → u.clu d = s.clu d)
      ∧ u = { s with clus := u.clus, mgmt := u.mgmt, out := u.out })
  ∧ (∀ (s : State) (r : MReq) (rest : List MReq) (c m x t : Nat), s.serves 0x001A r rest → r.body.length = 24 → m = leAt r.body 0 1 →
    x = leAt r.body 1 1 → c = leAt r.body 2 1 → t = leAt r.body 3 1 → leAt r.body 4 1 < 2 → allZero (slice r.body 5 3) = true → m < 64 →
    s.enabled c = true → x < s.ctxCount m → s.threadFor c m t = true → s.thrState c t = 0 → (s.mould m).faulted.contains x = false →
    s.mouldLive m = true →
    ∃ u : State, exec .thrStart s = .next u.settle ∧ s.answeredAs u r rest 0 0 [] ∧ u.thrState c t = 1 ∧ u.tMould c t = m ∧ u.tCtx c t = x % 16
      ∧ u.flag F.thrStatus_ctxFault c t = (leAt r.body 4 1 == 1) ∧ (u.thread c t).pc = leAt r.body 8 8
      ∧ u.xreg c t 1 = leAt r.body 16 8 ∧ (∀ i, 2 ≤ i → u.xreg c t i = 0) ∧ u.reg .thrFault c t = 0
      ∧ RegsBut s u [regAddr .thrStatus c t, regAddr .thrFault c t] ∧ u.clu c = { s.clu c with threads := (u.clu c).threads }
      ∧ u = { s with csr := u.csr, clus := u.clus, mgmt := u.mgmt, out := u.out })
  ∧ (∀ (s : State) (r : MReq) (rest : List MReq) (c t : Nat), s.serves 0x001B r rest → r.body.length = 2 → c = leAt r.body 0 1 →
    t = leAt r.body 1 1 → s.enabled c = true → t < 16 → s.thrState c t ≠ 0 →
    ∃ u : State, exec .thrStop s = .next u.settle ∧ s.answeredAs u r rest 0 0 [] ∧ u.thrState c t = 0 ∧ u.thread c t = ThreadSt.init
      ∧ u.rd F.thrStatus_remoteOut c t = s.rd F.thrStatus_remoteOut c t ∧ RegsBut s u [regAddr .thrStatus c t]
      ∧ u.clu c = { s.clu c with threads := (u.clu c).threads } ∧ u = { s with csr := u.csr, clus := u.clus, mgmt := u.mgmt, out := u.out })

/-- Where the bytes are at hand, LDL loads eight registers from 64 bytes, with code 0 in ST and the version of a version-stamped region beside it; STL writes eight registers to 64 bytes; ATOM4 and ATOM8 return the old value and store the new one of Table 11.9; OWN returns the owner word and updates it; VREAD returns the version. At another device each is sent as a remote operation of its kind. The pc moves on, and nothing else changes. -/
def Obligations.ThreadMemoryAccess : Prop :=
  (∀ (s v q : State) (c t ecc word w a : Nat), s.sysRuns v c t 0x01 3 w → sRd w ≤ 24 → a = v.xreg c t (sRs1 w) → v.threadMay c t a 64 1 →
    v.atHand c (v.tMould c t) (a % 2 ^ 48) 64 ecc word = some q →
    ∃ u : State, exec (.ldl c t ecc word) s = .next u.settle
      ∧ (List.range 8).all (fun i => u.xreg c t (sRd w + i) == (if sRd w + i = 0 then 0
        else leAt (q.threadRead c (v.tMould c t) (a % 2 ^ 48) 64) (8 * i) 8)) = true
      ∧ bitsOf (u.thread c t).st 0 16 = 0
      ∧ bitsOf (u.thread c t).st 16 32 = (if (q.versionAt (v.tMould c t) (a % 2 ^ 48)).2 then (q.versionAt (v.tMould c t) (a % 2 ^ 48)).1 % 2 ^ 32
        else bitsOf (q.thread c t).st 16 32)
      ∧ u = q.setThread c t { (q.thread c t).next with regs := (u.thread c t).regs, st := (u.thread c t).st })
  ∧ (∀ (s v q : State) (c t ecc word w a : Nat), s.sysRuns v c t 0x02 3 w → sRd w ≤ 24 → a = v.xreg c t (sRs1 w) → v.threadMay c t a 64 2 →
    v.atHand c (v.tMould c t) (a % 2 ^ 48) 64 ecc word = some q →
    ∃ u : State, exec (.stl c t ecc word) s = .next u.settle
      ∧ u = (q.threadWrite c (v.tMould c t) (a % 2 ^ 48) ((List.range 8).flatMap (fun i => toLe 8 (v.xreg c t (sRd w + i))))).setThread c t
        (v.thread c t).next)
  ∧ (∀ (s v : State) (c t ecc word w a old new : Nat), s.sysRuns v c t 0x03 15 w → sMod w ≤ 9 → a = v.xreg c t (sRs1 w) →
    v.threadMay c t a 4 3 → (v.access (v.tMould c t) (a % 2 ^ 48) 4 ecc word).1 = 0 →
    old = leNat ((v.access (v.tMould c t) (a % 2 ^ 48) 4 ecc word).2.readMem (v.tMould c t) (a % 2 ^ 48) 4) →
    new = atomicNew (sMod w) 4 old (v.xreg c t (sRs2 w)) (v.xreg c t (sRd w)) →
    ∃ u : State, exec (.atom4 c t ecc word) s = .next u.settle 
      ∧ u = (if new = old then (v.access (v.tMould c t) (a % 2 ^ 48) 4 ecc word).2
        else ((v.access (v.tMould c t) (a % 2 ^ 48) 4 ecc word).2.writeMem (v.tMould c t) (a % 2 ^ 48) (toLe 4 new)).bumpAt (v.tMould c t) (a % 2 ^ 48)).setThread
        c t (((v.thread c t).setReg (sRd w) old).code 0).next)
  ∧ (∀ (s v : State) (c t ecc word w a old new : Nat), s.sysRuns v c t 0x04 15 w → sMod w ≤ 9 → a = v.xreg c t (sRs1 w) →
    v.threadMay c t a 8 3 → (v.access (v.tMould c t) (a % 2 ^ 48) 8 ecc word).1 = 0 →
    old = leNat ((v.access (v.tMould c t) (a % 2 ^ 48) 8 ecc word).2.readMem (v.tMould c t) (a % 2 ^ 48) 8) →
    new = atomicNew (sMod w) 8 old (v.xreg c t (sRs2 w)) (v.xreg c t (sRd w)) →
    ∃ u : State, exec (.atom8 c t ecc word) s = .next u.settle 
      ∧ u = (if new = old then (v.access (v.tMould c t) (a % 2 ^ 48) 8 ecc word).2
        else ((v.access (v.tMould c t) (a % 2 ^ 48) 8 ecc word).2.writeMem (v.tMould c t) (a % 2 ^ 48) (toLe 8 new)).bumpAt (v.tMould c t) (a % 2 ^ 48)).setThread
        c t (((v.thread c t).setReg (sRd w) old).code 0).next)
  ∧ (∀ (s v : State) (c t w a i b : Nat), s.sysRuns v c t 0x05 15 w → sMod w ≤ 3 → a = v.xreg c t (sRs1 w) → b = v.xreg c t (sRs2 w) →
    v.threadMay c t a 1 4 → v.regionIdx (v.tMould c t) (a % 2 ^ 48) = some i →
    ∃ u : State, exec (.own c t) s = .next u.settle
      ∧ u = { v.setThread c t (((v.thread c t).setReg (sRd w) (Tab.get 0 v.owners (regionKey (v.tMould c t) i))).code 0).next with owners := if sMod w = 3 ∧ ¬(bit b 15 = true ∧ b < 65536 ∧ bit b 14 = false) then v.owners else Tab.set 0 v.owners (regionKey (v.tMould c t) i) (ownNew (sMod w) (Tab.get 0 v.owners (regionKey (v.tMould c t) i)) (2 ^ 15 + v.devId * 16 + v.tCtx c t) b) })
  ∧ (∀ (s v : State) (c t w a : Nat), s.sysRuns v c t 0x06 3 w → a = v.xreg c t (sRs1 w) → v.threadMay c t a 1 1 →
    ∃ u : State, exec (.vread c t) s = .next u.settle
      ∧ u = v.setThread c t (((v.thread c t).setReg (sRd w) (v.versionAt (v.tMould c t) (a % 2 ^ 48)).1).code 0).next)
  ∧ (∀ (s v : State) (c t ecc word w a : Nat), s.sysRuns v c t 0x01 3 w → sRd w ≤ 24 → a = v.xreg c t (sRs1 w) → v.remoteMay c t 5 a 64 →
    ∃ u : State, exec (.ldl c t ecc word) s = .next u.settle ∧ v.remoteSent u c t 5 a 64)
  ∧ (∀ (s v : State) (c t ecc word w a : Nat), s.sysRuns v c t 0x02 3 w → sRd w ≤ 24 → a = v.xreg c t (sRs1 w) → v.remoteMay c t 6 a 64 →
    ∃ u : State, exec (.stl c t ecc word) s = .next u.settle ∧ v.remoteSent u c t 6 a 64)
  ∧ (∀ (s v : State) (c t ecc word w a : Nat), s.sysRuns v c t 0x03 15 w → sMod w ≤ 9 → a = v.xreg c t (sRs1 w) → v.remoteMay c t 7 a 4 →
    ∃ u : State, exec (.atom4 c t ecc word) s = .next u.settle ∧ v.remoteSent u c t 7 a 4)
  ∧ (∀ (s v : State) (c t ecc word w a : Nat), s.sysRuns v c t 0x04 15 w → sMod w ≤ 9 → a = v.xreg c t (sRs1 w) → v.remoteMay c t 7 a 8 →
    ∃ u : State, exec (.atom8 c t ecc word) s = .next u.settle ∧ v.remoteSent u c t 7 a 8)
  ∧ (∀ (s v : State) (c t w a : Nat), s.sysRuns v c t 0x05 15 w → sMod w ≤ 3 → a = v.xreg c t (sRs1 w) → v.remoteMay c t 9 a 1 →
    ∃ u : State, exec (.own c t) s = .next u.settle ∧ v.remoteSent u c t 9 a 0)
  ∧ (∀ (s v : State) (c t w a : Nat), s.sysRuns v c t 0x06 3 w → a = v.xreg c t (sRs1 w) → v.remoteMay c t 8 a 1 →
    ∃ u : State, exec (.vread c t) s = .next u.settle ∧ v.remoteSent u c t 8 a 0)

/-- FENCE with nothing outstanding puts the first failure since the last fence, or 0, in ST; otherwise the thread waits for what it covers, and FENCE_COMPLETE ends that wait. TPOST posts to a token of the thread's context. TWAIT takes the count where it is there and waits otherwise. SREQ queues a start request and LUNLOAD removes a list, each with its code in ST. LLOAD and SELOAD queue a load and switch the thread out until it completes. -/
def Obligations.ThreadSynchronisation : Prop :=
  (∀ (s v : State) (c t w : Nat), s.sysRuns v c t 0x07 0 w →
    v.fenceDone (v.tMould c t) (v.tCtx c t) (v.fenceSet (v.tMould c t) (v.tCtx c t)) = true →
    ∃ u : State, exec (.fence c t) s = .next u.settle ∧ bitsOf (u.thread c t).st 0 16 = (v.thread c t).fenceErr % 2 ^ 16
      ∧ u = v.setThread c t { (v.thread c t).next with st := (u.thread c t).st, fenceErr := 0, fence := [], wait := .none })
  ∧ (∀ (s v : State) (c t w : Nat) (l : List (Nat × Nat)), s.sysRuns v c t 0x07 0 w → l = v.fenceSet (v.tMould c t) (v.tCtx c t) →
    v.fenceDone (v.tMould c t) (v.tCtx c t) l = false →
    ∃ u : State, exec (.fence c t) s = .next u.settle ∧ u.thrState c t = 3 ∧ RegsBut v u [regAddr .thrStatus c t]
      ∧ u = { v.setThread c t { (v.thread c t).next with quantum := 1, fence := l, wait := .fence } with csr := u.csr })
  ∧ (∀ (s : State) (c t : Nat), s.live = true → s.thrState c t = 3 → (s.thread c t).wait = .fence →
    s.fenceDone (s.tMould c t) (s.tCtx c t) (s.thread c t).fence = true →
    ∃ u : State, exec (.fenceComplete c t) s = .next u.settle ∧ u.thrState c t = 1
      ∧ bitsOf (u.thread c t).st 0 16 = (s.thread c t).fenceErr % 2 ^ 16 ∧ RegsBut s u [regAddr .thrStatus c t]
      ∧ u = { s.setThread c t { s.thread c t with st := (u.thread c t).st, fenceErr := 0, fence := [], wait := .none } with csr := u.csr })
  ∧ (∀ (s v : State) (c t w k n : Nat), s.sysRuns v c t 0x08 6 w → k = v.xreg c t (sRs1 w) % 32 → n = v.xreg c t (sRs2 w) →
    ∃ u : State, exec (.tpost c t) s = .next u.settle
      ∧ u.tok c (v.tMould c t) (v.tCtx c t) k = min (v.tok c (v.tMould c t) (v.tCtx c t) k + n) 65535
      ∧ u.thread c t = (v.thread c t).next
      ∧ (v.tok c (v.tMould c t) (v.tCtx c t) k + n ≤ 65535 → u = { v with clus := u.clus })
      ∧ u = { v with csr := u.csr, clus := u.clus, log := u.log })
  ∧ (∀ (s v : State) (c t w k n : Nat), s.sysRuns v c t 0x09 6 w → k = v.xreg c t (sRs1 w) % 32 → n = v.xreg c t (sRs2 w) →
    n ≤ v.tok c (v.tMould c t) (v.tCtx c t) k →
    ∃ u : State, exec (.twait c t) s = .next u.settle
      ∧ u = (v.setTok c (v.tMould c t) (v.tCtx c t) k (v.tok c (v.tMould c t) (v.tCtx c t) k - n)).setThread c t (v.thread c t).next)
  ∧ (∀ (s v : State) (c t w k n : Nat), s.sysRuns v c t 0x09 6 w → k = v.xreg c t (sRs1 w) % 32 → n = v.xreg c t (sRs2 w) →
    v.tok c (v.tMould c t) (v.tCtx c t) k < n →
    ∃ u : State, exec (.twait c t) s = .next u.settle ∧ u.thrState c t = 3 ∧ RegsBut v u [regAddr .thrStatus c t]
      ∧ u = { v.setThread c t { (v.thread c t).next with quantum := 1, wait := .token k n } with csr := u.csr })
  ∧ (∀ (s v : State) (c t w a b : Nat) (q : StartReq), s.sysRuns v c t 0x0A 6 w → a = v.xreg c t (sRs1 w) → b = v.xreg c t (sRs2 w) →
    q = ⟨bitsOf a 0 32, bitsOf a 32 16, bitsOf b 16 5, bit b 21, bitsOf b 0 16⟩ →
    ∃ u : State, exec (.sreq c t) s = .next u.settle
      ∧ u.thread c t = ((v.thread c t).code (v.enqueueStart c (v.tMould c t) (v.tCtx c t) q).1).next
      ∧ ((v.enqueueStart c (v.tMould c t) (v.tCtx c t) q).1 = 0 → Tab.get [] (u.clu c).queues (ctxKey (v.tMould c t) (v.tCtx c t))
        = Tab.get [] (v.clu c).queues (ctxKey (v.tMould c t) (v.tCtx c t)) ++ [q])
      ∧ ((v.enqueueStart c (v.tMould c t) (v.tCtx c t) q).1 ≠ 0 → (u.clu c).queues = (v.clu c).queues)
      ∧ u = { v with clus := u.clus })
  ∧ (∀ (s v : State) (c t w a : Nat), s.sysRuns v c t 0x0B 2 w → a = v.xreg c t (sRs1 w) → v.isLocal c t a = true →
    ∃ u : State, exec (.lload c t) s = .next u.settle ∧ u.thrState c t = 3 ∧ u.thread c t = { (v.thread c t).next with quantum := 1, wait := .load }
      ∧ (u.clu c).loads.take (v.clu c).loads.length = (v.clu c).loads ∧ (u.clu c).loads.length = (v.clu c).loads.length + 1
      ∧ ((u.clu c).loads.getLast?.map (fun l => (l.mould, l.ctx, l.addr))) = some (v.tMould c t, v.tCtx c t, a % 2 ^ 48)
      ∧ RegsBut v u [regAddr .thrStatus c t] ∧ u = { v with csr := u.csr, clus := u.clus })
  ∧ (∀ (s v : State) (c t w id : Nat), s.sysRuns v c t 0x0C 2 w → id = v.xreg c t (sRs1 w) % 2 ^ 32 →
    ∃ u : State, exec (.lunload c t) s = .next u.settle ∧ u.thread c t = ((v.thread c t).code (v.listUnload c (v.tMould c t) id).1).next
      ∧ ((v.listUnload c (v.tMould c t) id).1 = 0 → u.resident c (v.tMould c t) id = none)
      ∧ ((v.listUnload c (v.tMould c t) id).1 ≠ 0 → (u.clu c).lists = (v.clu c).lists)
      ∧ u = { v with clus := u.clus })
  ∧ (∀ (s v : State) (c t w a e : Nat) (es : List Nat), s.sysRuns v c t 0x0D 10 w → sMod w ≠ 0 → sMod w ≤ 3 → a = v.xreg c t (sRs1 w) →
    v.isLocal c t a = true → maskEngines (sMod w) = e :: es →
    ∃ u : State, exec (.seload c t) s = .next u.settle ∧ u.thrState c t = 3 ∧ u.thread c t = { (v.thread c t).next with quantum := 1, wait := .load }
      ∧ (u.seng c e).loads = (v.seng c e).loads ++ [⟨v.tMould c t, v.tCtx c t, a % 2 ^ 48, sMod w, 0, 0, .thread t⟩]
      ∧ RegsBut v u [regAddr .thrStatus c t] ∧ u = { v with csr := u.csr, clus := u.clus })

/-- CINV drops the lines that cover the range; CCLN writes its dirty ones to memory and keeps them clean. TSPAWN starts a thread where one is free and puts code and index in the registers. PARK switches the thread out until its time, and THREAD_WAKE makes it ready again. TEXIT frees it. TIME and GETST read the time of day and ST. After 256 instructions a thread yields to the next ready one. A base instruction that writes a register and moves the pc does just that. -/
def Obligations.ThreadControl : Prop :=
  (∀ (s v : State) (c t w a n : Nat), s.sysRuns v c t 0x0E 6 w → a = v.xreg c t (sRs1 w) → n = v.xreg c t (sRs2 w) →
    (a / 2 ^ 54 = v.devId → v.isLocal c t a = true ∧ (v.cover (v.tMould c t) (a % 2 ^ 48) n).isSome = true) →
    ∃ u : State, exec (.cinv c t) s = .next u.settle
      ∧ (u.clu c).dcache = (if a / 2 ^ 54 = v.devId then (v.clu c).dcache.filter (fun e => !covers (v.tMould c t) (a % 2 ^ 48) n e.2) else (v.clu c).dcache)
      ∧ (u.clu c).icache = (if a / 2 ^ 54 = v.devId then (v.clu c).icache.filter (fun e => !covers (v.tMould c t) (a % 2 ^ 48) n e.2) else (v.clu c).icache)
      ∧ u.thread c t = (v.thread c t).next ∧ u = { v with clus := u.clus })
  ∧ (∀ (s v : State) (c t w a n : Nat), s.sysRuns v c t 0x0F 6 w → a = v.xreg c t (sRs1 w) → n = v.xreg c t (sRs2 w) →
    (a / 2 ^ 54 = v.devId → v.isLocal c t a = true ∧ (v.cover (v.tMould c t) (a % 2 ^ 48) n).isSome = true) →
    ∃ u : State, exec (.ccln c t) s = .next u.settle
      ∧ (a / 2 ^ 54 = v.devId → (u.clu c).dcache.all (fun e => !(covers (v.tMould c t) (a % 2 ^ 48) n e.2 && e.2.dirty)) = true)
      ∧ (a / 2 ^ 54 ≠ v.devId → u = v.setThread c t (v.thread c t).next)
      ∧ (u.clu c).dcache.map (fun e => (e.1, e.2.data)) = (v.clu c).dcache.map (fun e => (e.1, e.2.data))
      ∧ u.thread c t = (v.thread c t).next
      ∧ u = { v with clus := u.clus, sram := u.sram, gddr := u.gddr, cxl := u.cxl, xts := u.xts })
  ∧ (∀ (s v : State) (c t w i : Nat), s.sysRuns v c t 0x10 7 w →
    (List.range 16).find? (fun k => v.threadFor c (v.tMould c t) k && v.thrState c k == 0) = some i →
    (v.mould (v.tMould c t)).faulted.contains (v.tCtx c t) = false → v.mouldLive (v.tMould c t) = true → v.thrState c t ≠ 0 →
    ∃ u : State, exec (.tspawn c t) s = .next u.settle ∧ u.thrState c i = 1 ∧ u.tMould c i = v.tMould c t ∧ u.tCtx c i = v.tCtx c t
      ∧ (u.thread c i).pc = v.xreg c t (sRs1 w) ∧ u.xreg c i 1 = v.xreg c t (sRs2 w) % 2 ^ 64
      ∧ u.thread c t = (((v.thread c t).setReg (sRd w) i).code 0).next
      ∧ RegsBut v u [regAddr .thrStatus c i, regAddr .thrFault c i] ∧ u = { v with csr := u.csr, clus := u.clus })
  ∧ (∀ (s v : State) (dt c t w : Nat), (s.pass dt).sysRuns v c t 0x11 2 w →
    ∃ u : State, exec (.park dt c t) s = .next u.settle ∧ u.thrState c t = 3 ∧ RegsBut v u [regAddr .thrStatus c t]
      ∧ u = { v.setThread c t { (v.thread c t).next with quantum := 1, wait := .park (v.xreg c t (sRs1 w)) } with csr := u.csr })
  ∧ (∀ (s v : State) (c t w : Nat), s.sysRuns v c t 0x12 0 w →
    ∃ u : State, exec (.texit c t) s = .next u.settle ∧ u.thrState c t = 0
      ∧ u.rd F.thrStatus_remoteOut c t = v.rd F.thrStatus_remoteOut c t ∧ RegsBut v u [regAddr .thrStatus c t]
      ∧ u = { v.setThread c t ThreadSt.init with csr := u.csr })
  ∧ (∀ (s v : State) (dt c t w : Nat), (s.pass dt).sysRuns v c t 0x13 1 w →
    ∃ u : State, exec (.timeRead dt c t) s = .next u.settle ∧ u = v.setThread c t ((v.thread c t).setReg (sRd w) (s.pass dt).clk.ns).next)
  ∧ (∀ (s v : State) (c t w : Nat), s.sysRuns v c t 0x14 1 w →
    ∃ u : State, exec (.getst c t) s = .next u.settle ∧ u = v.setThread c t ((v.thread c t).setReg (sRd w) (v.thread c t).st).next)
  ∧ (∀ (s : State) (dt c t n : Nat), s.live = true → c < 96 → t < 16 → s.thrState c t = 3 → (s.thread c t).wait = .park n →
    n ≤ (s.pass dt).clk.ns →
    ∃ u : State, exec (.threadWake dt c t) s = .next u.settle ∧ u.thrState c t = 1 ∧ RegsBut s u [regAddr .thrStatus c t]
      ∧ u = { (s.pass dt).setThread c t { s.thread c t with wait := .none } with csr := u.csr })
  ∧ (∀ (s : State) (c t n : Nat), s.live = true → c < 96 → s.runningThread c = some t → s.nextReady c t = some n → n ≠ t →
    256 ≤ (s.thread c t).quantum → (s.clu c).curThread = t →
    ∃ u : State, exec (.threadSwitchQuantum c) s = .next u.settle ∧ u.thrState c t = 1 ∧ u.thrState c n = 2 ∧ (u.thread c n).quantum = 0
      ∧ (u.clu c).curThread = n ∧ u.rd F.coreCnt_switches c = (s.rd F.coreCnt_switches c + 1) % 2 ^ 32
      ∧ RegsBut s u [regAddr .thrStatus c t, regAddr .thrStatus c n, regAddr .coreCnt c 0] ∧ u = { s with csr := u.csr, clus := u.clus })
  ∧ (∀ (s v : State) (c t rd n value addr next ecc word w : Nat) (sgn : Bool), s.live = true → s.mayIssue c t = true →
    (s.switchTo c t).mustPark c t = false → (s.switchTo c t).peekWord c t = some w → v = s.issued c t → w % 128 ≠ 0x5D → rd < 32 →
    ∃ u : State, exec (.threadBaseInstruction c t 2 rd n sgn addr value next ecc word) s = .next u.settle
      ∧ u.thread c t = { (v.thread c t).setReg rd value with pc := next % 2 ^ 64, quantum := (v.thread c t).quantum + 1 }
      ∧ (u.clu c).predictor = (if next = (v.thread c t).pc + 4 then (v.clu c).predictor
        else Tab.put (v.clu c).predictor ((v.thread c t).pc / 4 % 1024) (v.tMould c t + 1))
      ∧ u.clu c = { v.clu c with threads := (u.clu c).threads, predictor := (u.clu c).predictor } ∧ (∀ d, d ≠ c → u.clu d = v.clu d)
      ∧ u = { v with clus := u.clus })
  ∧ (∀ (s v q : State) (c t rd n value addr next ecc word w : Nat) (sgn : Bool), s.live = true → s.mayIssue c t = true →
    (s.switchTo c t).mustPark c t = false → (s.switchTo c t).peekWord c t = some w → v = s.issued c t → w % 128 ≠ 0x5D → rd < 32 →
    (n = 1 ∨ n = 2 ∨ n = 4 ∨ n = 8) → addr < 2 ^ 64 → v.threadMay c t addr n 1 → v.atHand c (v.tMould c t) (addr % 2 ^ 48) n ecc word = some q →
    ∃ u : State, exec (.threadBaseInstruction c t 0 rd n sgn addr value next ecc word) s = .next u.settle
      ∧ u = q.setThread c t ((q.thread c t).setReg rd (if sgn then ofInt 64 (sext (8 * n) (leNat (q.threadRead c (v.tMould c t) (addr % 2 ^ 48) n)))
        else leNat (q.threadRead c (v.tMould c t) (addr % 2 ^ 48) n))).next)
  ∧ (∀ (s v q : State) (c t rd n value addr next ecc word w : Nat) (sgn : Bool), s.live = true → s.mayIssue c t = true →
    (s.switchTo c t).mustPark c t = false → (s.switchTo c t).peekWord c t = some w → v = s.issued c t → w % 128 ≠ 0x5D →
    (n = 1 ∨ n = 2 ∨ n = 4 ∨ n = 8) → addr < 2 ^ 64 → v.threadMay c t addr n 2 → v.atHand c (v.tMould c t) (addr % 2 ^ 48) n ecc word = some q →
    ∃ u : State, exec (.threadBaseInstruction c t 1 rd n sgn addr value next ecc word) s = .next u.settle
      ∧ u = (q.threadWrite c (v.tMould c t) (addr % 2 ^ 48) (toLe n value)).setThread c t (v.thread c t).next)

/-- Each of NOP, ADD, MUL, ASH, ABS, MAX, MIN and SEL writes its destination register with the lanes the rules give from its sources as they were, saturated to 24 bits with each saturation counted, lets its fetches land after that, and goes on with the next word after one beat; no other storage of the device changes. -/
def Obligations.SignalEngineArithmetic : Prop :=
  (∀ (s : State) (c e w : Nat) (g : SeSt), s.seRuns c e 0x00 w → g = s.seng c e →
    ∃ u : State, exec (.seNop c e) s = .next u.settle ∧ s.seDone u c e w ⟨g, 0, 0⟩)
  ∧ (∀ (s : State) (c e w : Nat) (g : SeSt) (a b : Int), s.seRuns c e 0x10 w → g = s.seng c e → a = s24 (g.d (aS1 w)).1 + (if bit w 39 then -1 else 1 : Int) * s24 (g.d (aS2 w)).1 → b = s24 (g.d (aS1 w)).2 + (if bit w 39 then -1 else 1 : Int) * s24 (g.d (aS2 w)).2 →
    ∃ u : State, exec (.seAdd c e) s = .next u.settle ∧ s.seDone u c e w (g.put (aDst w) (sat24 a) (sat24 b)))
  ∧ (∀ (s : State) (c e w : Nat) (g : SeSt) (a b : Int), s.seRuns c e 0x11 w → g = s.seng c e → (a, b) = seProd (bit w 6) (bit w 38) (g.d (aS1 w)) (g.d (aS2 w)) →
    ∃ u : State, exec (.mul c e) s = .next u.settle ∧ s.seDone u c e w (g.put (aDst w) (round24 a (aScale w) (aRnd w)) (round24 b (aScale w) (aRnd w))))
  ∧ (∀ (s : State) (c e w : Nat) (g : SeSt) (a b : Int), s.seRuns c e 0x12 w → g = s.seng c e → a = s24 (g.d (aS1 w)).1 * 2 ^ 23 → b = s24 (g.d (aS1 w)).2 * 2 ^ 23 →
    ∃ u : State, exec (.ash c e) s = .next u.settle ∧ s.seDone u c e w (g.put (aDst w) (round24 a (aScale w) (aRnd w)) (round24 b (aScale w) (aRnd w))))
  ∧ (∀ (s : State) (c e w : Nat) (g : SeSt) (a b : Int), s.seRuns c e 0x13 w → g = s.seng c e → a = (s24 (g.d (aS1 w)).1).natAbs → b = (s24 (g.d (aS1 w)).2).natAbs →
    ∃ u : State, exec (.seAbs c e) s = .next u.settle ∧ s.seDone u c e w (g.put (aDst w) (sat24 a) (sat24 b)))
  ∧ (∀ (s : State) (c e w : Nat) (g : SeSt), s.seRuns c e 0x14 w → g = s.seng c e →
    ∃ u : State, exec (.seMax c e) s = .next u.settle ∧ s.seDone u c e w ⟨g.setD (aDst w) ((if s24 (g.d (aS1 w)).1 < s24 (g.d (aS2 w)).1 then (g.d (aS2 w)).1 else (g.d (aS1 w)).1), (if s24 (g.d (aS1 w)).2 < s24 (g.d (aS2 w)).2 then (g.d (aS2 w)).2 else (g.d (aS1 w)).2)), 0, 0⟩)
  ∧ (∀ (s : State) (c e w : Nat) (g : SeSt), s.seRuns c e 0x15 w → g = s.seng c e →
    ∃ u : State, exec (.seMin c e) s = .next u.settle ∧ s.seDone u c e w ⟨g.setD (aDst w) ((if s24 (g.d (aS1 w)).1 ≥ s24 (g.d (aS2 w)).1 then (g.d (aS2 w)).1 else (g.d (aS1 w)).1), (if s24 (g.d (aS1 w)).2 ≥ s24 (g.d (aS2 w)).2 then (g.d (aS2 w)).2 else (g.d (aS1 w)).2)), 0, 0⟩)
  ∧ (∀ (s : State) (c e w : Nat) (g : SeSt), s.seRuns c e 0x16 w → g = s.seng c e →
    ∃ u : State, exec (.sel c e) s = .next u.settle ∧ s.seDone u c e w ⟨g.setD (aDst w) ((if 0 ≤ s24 (g.d (aS2 w)).1 then (g.d (aS1 w)).1 else (g.d (aDst w)).1), (if 0 ≤ s24 (g.d (aS2 w)).2 then (g.d (aS1 w)).2 else (g.d (aDst w)).2)), 0, 0⟩)

/-- MAC and MAG2 add to an accumulator saturated to 56 bits, from 0 under clr; CLRA clears one; RND rounds one to a register; TAPM does one tap and moves its pointers; LUT reads its table word; SETP, ADDP, SETA, LDI and STD set what they name. Each takes one beat and goes on with the next word; nothing else changes. -/
def Obligations.SignalEngineAccumulatorsAndAddresses : Prop :=
  (∀ (s : State) (c e w : Nat) (g : SeSt) (a b : Int) (x : Int × Int), s.seRuns c e 0x20 w → g = s.seng c e → (a, b) = seProd (bit w 6) (bit w 38) (g.d (aS1 w)) (g.d (aS2 w)) → x = (if bit w 40 then (0, 0) else g.ac (aAcc w)) →
    ∃ u : State, exec (.mac c e) s = .next u.settle ∧ s.seDone u c e w (g.putAc (aAcc w) (sat56 (x.1 + (if bit w 39 then -1 else 1 : Int) * a)) (sat56 (x.2 + (if bit w 39 then -1 else 1 : Int) * b))))
  ∧ (∀ (s : State) (c e w : Nat) (g : SeSt) (a b : Int) (x : Int × Int), s.seRuns c e 0x21 w → g = s.seng c e → a = s24 (g.d (aS1 w)).1 * s24 (g.d (aS1 w)).1 → b = s24 (g.d (aS1 w)).2 * s24 (g.d (aS1 w)).2 → x = (if bit w 40 then (0, 0) else g.ac (aAcc w)) →
    ∃ u : State, exec (.mag2 c e) s = .next u.settle ∧ s.seDone u c e w (if bit w 6 then g.putAc (aAcc w) (sat56 (x.1 + (if bit w 39 then -1 else 1 : Int) * (a + b))) (x.2, false) else g.putAc (aAcc w) (sat56 (x.1 + (if bit w 39 then -1 else 1 : Int) * a)) (sat56 (x.2 + (if bit w 39 then -1 else 1 : Int) * b))))
  ∧ (∀ (s : State) (c e w : Nat) (g : SeSt), s.seRuns c e 0x23 w → g = s.seng c e →
    ∃ u : State, exec (.clra c e) s = .next u.settle ∧ s.seDone u c e w ⟨g.setAc (aAcc w) (0, 0), 0, 0⟩)
  ∧ (∀ (s : State) (c e w : Nat) (g : SeSt), s.seRuns c e 0x24 w → g = s.seng c e →
    ∃ u : State, exec (.rnd c e) s = .next u.settle ∧ s.seDone u c e w (g.put (aDst w) (round24 (g.ac (bitsOf w 10 2)).1 (aScale w) (aRnd w)) (round24 (g.ac (bitsOf w 10 2)).2 (aScale w) (aRnd w))))
  ∧ (∀ (s : State) (c e w : Nat) (g : SeSt) (px py : PtrSt) (a b : Int) (x v : Int × Int) (h : SeSt), s.seRuns c e 0x22 w → g = s.seng c e → px = g.ptr (bitsOf w 17 3) → py = g.ptr (bitsOf w 24 3) → (a, b) = seProd (bit w 6) (bit w 38) (g.mem 0 px.addr) (g.mem 1 py.addr) → x = (if bit w 40 then (0, 0) else g.ac (aAcc w)) → v = (x.1 + (if bit w 39 then -1 else 1 : Int) * a, x.2 + (if bit w 39 then -1 else 1 : Int) * b) → h = (if bit w 41 ∧ px.addr ≠ (if px.len = 0 then 8191 else px.base + px.len - 1) then (g.putAc (aAcc w) (sat56 v.1) (sat56 v.2)).g.setMem 0 (px.move 1).addr (g.mem 0 px.addr)
      else (g.putAc (aAcc w) (sat56 v.1) (sat56 v.2)).g) →
    ∃ u : State, exec (.tapm c e) s = .next u.settle ∧ s.seStepped u c e ((h.bump (bitsOf w 17 3)).bump (bitsOf w 24 3)) (s.rd F.seStatus_pc c (e - 4) + 1) 0 (g.putAc (aAcc w) (sat56 v.1) (sat56 v.2)).acc 1)
  ∧ (∀ (s : State) (c e w : Nat) (g : SeSt) (p : PtrSt) (i : Nat), s.seRuns c e 0x09 w → g = s.seng c e → p = g.ptr (bitsOf w 17 3) → i = (g.d (aS1 w)).1 / 2 ^ (24 - bitsOf w 42 4) →
    ∃ u : State, exec (.lut c e) s = .next u.settle ∧ s.seStepped u c e (g.setD (aDst w) (g.mem (bitsOf w 46 1) (if p.len = 0 then (p.base + i) % 8192 else p.base + i % p.len))) (s.rd F.seStatus_pc c (e - 4) + 1) 0 0 1)
  ∧ (∀ (s : State) (c e w : Nat) (g : SeSt), s.seRuns c e 0x03 w → g = s.seng c e →
    ∃ u : State, exec (.setp c e) s = .next u.settle ∧ s.seStepped u c e (g.setPtr (bitsOf w 6 3) ⟨bitsOf w 9 13, bitsOf w 22 13, bitsOf w 35 14, bitsOf w 49 14⟩) (s.rd F.seStatus_pc c (e - 4) + 1) 0 0 1)
  ∧ (∀ (s : State) (c e w : Nat) (g : SeSt), s.seRuns c e 0x04 w → g = s.seng c e →
    ∃ u : State, exec (.addp c e) s = .next u.settle ∧ s.seStepped u c e (g.setPtr (bitsOf w 6 3) ((g.ptr (bitsOf w 6 3)).move (sext 14 (bitsOf w 9 14)))) (s.rd F.seStatus_pc c (e - 4) + 1) 0 0 1)
  ∧ (∀ (s : State) (c e w : Nat) (g : SeSt), s.seRuns c e 0x05 w → g = s.seng c e →
    ∃ u : State, exec (.seta c e) s = .next u.settle ∧ s.seStepped u c e { g with sas := Tab.set 0 g.sas (bitsOf w 6 2) ((bitsOf w 11 24 + (if bit w 8 then g.par (bitsOf w 9 2) else 0)) % 2 ^ 24) } (s.rd F.seStatus_pc c (e - 4) + 1) 0 0 1)
  ∧ (∀ (s : State) (c e w : Nat) (g : SeSt), s.seRuns c e 0x06 w → g = s.seng c e →
    ∃ u : State, exec (.ldi c e) s = .next u.settle ∧ s.seStepped u c e (g.setD (bitsOf w 6 3) (bitsOf w 9 24, bitsOf w 33 24)) (s.rd F.seStatus_pc c (e - 4) + 1) 0 0 1)
  ∧ (∀ (s : State) (c e w : Nat) (g : SeSt) (k : Nat), s.seRuns c e 0x07 w → g = s.seng c e → k = bitsOf w 7 3 →
    ∃ u : State, exec (.std c e) s = .next u.settle ∧ s.seStepped u c e ((g.setMem (bitsOf w 6 1) (g.ptr k).addr (g.d (bitsOf w 10 3))).bump k) (s.rd F.seStatus_pc c (e - 4) + 1) 0 0 1)

/-- BLK opens a repeat, or skips its body for a count of 0. HALT ends the program and completes its SGD. MVB moves words between SRAM and a data memory in the format it names. JOB posts its descriptor to its unit where its flag is clear and there is room, and holds otherwise until JOB_POSTED; WAITJ holds while its flag is set. A program whose validation finds no fault becomes resident. Nothing else changes. -/
def Obligations.SignalEngineControlAndJobs : Prop :=
  (∀ (s : State) (c e w : Nat) (g : SeSt) (n body : Nat), s.seRuns c e 0x02 w → g = s.seng c e → body = bitsOf w 25 14 → n = (if bit w 6 then g.par (bitsOf w 7 2) else bitsOf w 9 16 + 1) → 0 < n → n ≤ 65536 →
    ∃ u : State, exec (.blk c e) s = .next u.settle ∧ s.seStepped u c e { g with blks := g.blks ++ [⟨s.rd F.seStatus_pc c (e - 4) + 1, s.rd F.seStatus_pc c (e - 4) + 1 + body, n - 1⟩] } (s.rd F.seStatus_pc c (e - 4) + 1) 0 0 1)
  ∧ (∀ (s : State) (c e w : Nat) (g : SeSt), s.seRuns c e 0x02 w → g = s.seng c e → bit w 6 = true → g.par (bitsOf w 7 2) = 0 →
    ∃ u : State, exec (.blk c e) s = .next u.settle ∧ s.seStepped u c e g (s.rd F.seStatus_pc c (e - 4) + 1 + bitsOf w 25 14) 0 0 1)
  ∧ (∀ (s : State) (c e w : Nat) (g : SeSt) (q : QIns), s.seRuns c e 0x01 w → g = s.seng c e → g.stream < 4 → (s.stream c g.stream).busy = true → s.queue c g.stream e = [q] →
    ∃ u : State, exec (.halt c e) s = .next u.settle ∧ u.seng c e = { g with running := false, blks := [] }
      ∧ u.rd F.seStatus_state c (e - 4) = 0 ∧ u.queue c g.stream e = []
      ∧ u.rd F.seBeats_beats c (e - 4) = (s.rd F.seBeats_beats c (e - 4) + 1) % 2 ^ F.seBeats_beats.width
      ∧ RegsBut s u [regAddr .seStatus c (e - 4), regAddr .seBeats c (e - 4), regAddr .seqStream c g.stream]
      ∧ u = { s with csr := u.csr, clus := u.clus })
  ∧ (∀ (s : State) (c e w : Nat) (g : SeSt), s.seRuns c e 0x31 w → g = s.seng c e → bit g.flags (bitsOf w 10 4) = false →
    ∃ u : State, exec (.waitj c e) s = .next u.settle ∧ s.seStepped u c e g (s.rd F.seStatus_pc c (e - 4) + 1) 0 0 1)
  ∧ (∀ (s : State) (c e w : Nat) (g : SeSt), s.seRuns c e 0x31 w → g = s.seng c e → bit g.flags (bitsOf w 10 4) = true → g.stream < 4 →
    ∃ u : State, exec (.waitj c e) s = .next u.settle ∧ u.rd F.seStatus_state c (e - 4) = 2
      ∧ u.rd F.seStatus_pc c (e - 4) = s.rd F.seStatus_pc c (e - 4)
      ∧ RegsBut s u [regAddr .seStatus c (e - 4), regAddr .seqStream c g.stream] ∧ u = { s with csr := u.csr })
  ∧ (∀ (s : State) (c e w : Nat) (g : SeSt) (o n a h len mm : Nat) (xs : List (Nat × Nat × Nat)), s.seRuns c e 0x08 w → g = s.seng c e → o = g.sa (bitsOf w 8 2) → n = bitsOf w 25 13 + 1 → a = bitsOf w 12 13 → h = seFmtBytes (bitsOf w 10 2) / 2 → len = n * (2 * h) → mm = bitsOf w 7 1 → bit w 6 = false → o % 2 = 0 → s.seRange c e o len 1 = true → xs = (List.range (2 * n)).map (fun i => seLoadHalf (bitsOf w 10 2) (leAt (s.sramBytes c o len) (h * i) h)) →
    ∃ u : State, exec (.mvb c e) s = .next u.settle ∧ (List.range n).all (fun i =>
        (u.seng c e).mem mm (a + i) == ((xs.getD (2 * i) (0, 0, 0)).1, (xs.getD (2 * i + 1) (0, 0, 0)).1)) = true
      ∧ (u.seng c e).sa (bitsOf w 8 2) = (o + len) % 2 ^ 24
      ∧ u.rd F.seCnt_sat c (e - 4) = satAdd F.seCnt_sat.width (s.rd F.seCnt_sat c (e - 4)) (sumNat (xs.map (·.2.1)))
      ∧ u.rd F.seCnt_nanIn c (e - 4) = satAdd F.seCnt_nanIn.width (s.rd F.seCnt_nanIn c (e - 4)) (sumNat (xs.map (·.2.2)))
      ∧ u.rd F.seBeats_beats c (e - 4) = (s.rd F.seBeats_beats c (e - 4) + (4 + ((o + len - 1) / 64 + 1 - o / 64))) % 2 ^ F.seBeats_beats.width
      ∧ RegsBut s u [regAddr .seStatus c (e - 4), regAddr .seCnt c (e - 4), regAddr .seBeats c (e - 4)]
      ∧ u = { s with csr := u.csr, clus := u.clus })
  ∧ (∀ (s : State) (c e w : Nat) (g : SeSt) (o n a h len mm : Nat) (xs : List (Nat × Nat)), s.seRuns c e 0x08 w → g = s.seng c e → o = g.sa (bitsOf w 8 2) → n = bitsOf w 25 13 + 1 → a = bitsOf w 12 13 → h = seFmtBytes (bitsOf w 10 2) / 2 → len = n * (2 * h) → mm = bitsOf w 7 1 → bit w 6 = true → o % 2 = 0 → s.seRange c e o len 2 = true → xs = ((List.range n).flatMap (fun i => [(g.mem mm (a + i)).1, (g.mem mm (a + i)).2])).map (seStoreHalf (bitsOf w 10 2) (bitsOf w 38 2)) →
    ∃ u : State, exec (.mvb c e) s = .next u.settle ∧ u.sramBytes c o len = xs.flatMap (fun p => toLe h p.1)
      ∧ (∀ k, (k < sramKey c o ∨ sramKey c (o + len) ≤ k) → Tab.get 0#8 u.sram k = Tab.get 0#8 s.sram k)
      ∧ (u.seng c e).sa (bitsOf w 8 2) = (o + len) % 2 ^ 24 ∧ u.vers = (s.bumpSram (s.rd F.seStatus_mould c (e - 4)) c o len).vers
      ∧ u.rd F.seCnt_sat c (e - 4) = satAdd F.seCnt_sat.width (s.rd F.seCnt_sat c (e - 4)) (sumNat (xs.map (·.2)))
      ∧ RegsBut s u [regAddr .seStatus c (e - 4), regAddr .seCnt c (e - 4), regAddr .seBeats c (e - 4)]
      ∧ u = { s with csr := u.csr, clus := u.clus, sram := u.sram, vers := u.vers })
  ∧ (∀ (s : State) (c e w : Nat) (g : SeSt) (o m k : Nat), s.seRuns c e 0x30 w → g = s.seng c e → o = g.sa (bitsOf w 8 2) → m = s.rd F.seStatus_mould c (e - 4) → k = jobUnit (bitsOf w 6 2) c (leAt (s.sramBytes c o 64) 1 1) → o % 64 = 0 → s.seRange c e o 64 1 = true → s.rd F.radioUnit_state k ≠ 0 → s.rd F.radioUnit_mould k = m → s.routed m c (unitNode k) = true → bit g.flags (bitsOf w 10 4) = false → (s.unit k).queue.length < unitDepth k →
    ∃ u : State, exec (.job c e) s = .next u.settle ∧ (u.unit k).queue = (s.unit k).queue ++ [⟨bitsOf w 6 2, c, e, o, bitsOf w 10 4, m, s.rd F.seStatus_ctx c (e - 4), (s.stream c g.stream).run,
        s.heat m, (s.mould m).quenches, s.sramBytes c o 64⟩]
      ∧ (u.seng c e).flags = setBit g.flags (bitsOf w 10 4) true ∧ u.rd F.radioUnit_queued k = ((s.unit k).queue.length + 1) % 2 ^ 8
      ∧ u.rd F.seStatus_state c (e - 4) = 1
      ∧ u.rd F.seStatus_pc c (e - 4) = (closeBlks 5 g.blks (s.rd F.seStatus_pc c (e - 4) + 1)).2 % 2 ^ F.seStatus_pc.width
      ∧ RegsBut s u [regAddr .seStatus c (e - 4), regAddr .seBeats c (e - 4), regAddr .radioUnit k 0]
      ∧ u = { s with csr := u.csr, clus := u.clus, units := u.units })
  ∧ (∀ (s : State) (c e w : Nat) (g : SeSt) (o m k : Nat), s.seRuns c e 0x30 w → g = s.seng c e → o = g.sa (bitsOf w 8 2) → m = s.rd F.seStatus_mould c (e - 4) → k = jobUnit (bitsOf w 6 2) c (leAt (s.sramBytes c o 64) 1 1) → o % 64 = 0 → s.seRange c e o 64 1 = true → s.rd F.radioUnit_state k ≠ 0 → s.rd F.radioUnit_mould k = m → s.routed m c (unitNode k) = true → (bit g.flags (bitsOf w 10 4) = true ∨ unitDepth k ≤ (s.unit k).queue.length) → g.stream < 4 →
    ∃ u : State, exec (.job c e) s = .next u.settle ∧ u.rd F.seStatus_state c (e - 4) = 2
      ∧ u.rd F.seStatus_pc c (e - 4) = s.rd F.seStatus_pc c (e - 4)
      ∧ RegsBut s u [regAddr .seStatus c (e - 4), regAddr .seqStream c g.stream] ∧ u = { s with csr := u.csr })
  ∧ (∀ (s : State) (c e w o m k d : Nat) (g : SeSt), s.live = true → c < 96 → (e = 4 ∨ e = 5) → (s.seng c e).running = true →
    s.rd F.seStatus_state c (e - 4) = 2 → w = s.seWord c e (s.rd F.seStatus_pc c (e - 4)) → w % 64 = 0x30 → g = s.seng c e → g.stream < 4 →
    o = g.sa (bitsOf w 8 2) → m = s.rd F.seStatus_mould c (e - 4) → k = jobUnit (bitsOf w 6 2) c (leAt (s.sramBytes c o 64) 1 1) → bit g.flags (bitsOf w 10 4) = false → (s.unit k).queue.length < unitDepth k →
    ∃ u : State, exec (.jobPosted c e d) s = .next u.settle ∧ (u.unit k).queue = (s.unit k).queue ++ [⟨bitsOf w 6 2, c, e, o, bitsOf w 10 4, m, s.rd F.seStatus_ctx c (e - 4), (s.stream c g.stream).run,
        s.heat m, (s.mould m).quenches, s.sramBytes c o 64⟩]
      ∧ (u.seng c e).flags = setBit g.flags (bitsOf w 10 4) true ∧ u.rd F.radioUnit_queued k = ((s.unit k).queue.length + 1) % 2 ^ 8
      ∧ u.rd F.seStatus_state c (e - 4) = 1
      ∧ u.rd F.seStatus_pc c (e - 4) = (closeBlks 5 g.blks (s.rd F.seStatus_pc c (e - 4) + 1)).2 % 2 ^ F.seStatus_pc.width
      ∧ u.rd F.seBeats_wait c (e - 4) = (s.rd F.seBeats_wait c (e - 4) + d) % 2 ^ F.seBeats_wait.width
      ∧ u.rd F.seqBeats_wait c g.stream = (s.rd F.seqBeats_wait c g.stream + d) % 2 ^ F.seqBeats_wait.width
      ∧ RegsBut s u [regAddr .seStatus c (e - 4), regAddr .seBeats c (e - 4), regAddr .radioUnit k 0, regAddr .seqBeats c g.stream, regAddr .seqStream c g.stream]
      ∧ u = { s with csr := u.csr, clus := u.clus, units := u.units })
  ∧ (∀ (s : State) (c e i t word : Nat) (l : LoadReq) (im : Bytes), s.live = true → c < 96 → (s.seng c e).loads[i]? = some l → l.asker = .thread t →
    l.engines = 2 ^ (e - 4) → (e = 4 ∨ e = 5) → s.onCluster l.mould c l.addr 64 1 = true → (s.regionAt l.mould l.addr).any (fun r => r.tier = 0) = true →
    s.onCluster l.mould c l.addr (64 + 8 * leAt (s.readMem l.mould l.addr 64) 6 2) 1 = true →
    im = s.readMem l.mould l.addr (64 + 8 * leAt (s.readMem l.mould l.addr 64) 6 2) →
    (s.setSeng c e { s.seng c e with loads := (s.seng c e).loads.eraseIdx i }).seCheck c e l.mould im = none → t < 16 → s.thrState c t = 3 →
    ∃ u : State, exec (.seLoadDone c e i 0 word) s = .next u.settle ∧ u.thrState c t = 1
      ∧ u.thread c t = { (s.thread c t).code 0 with wait := .none } ∧ RegsBut s u [regAddr .thrStatus c t]
      ∧ u = { s.setClu c { s.clu c with threads := (u.clu c).threads, se := (u.clu c).se } with csr := u.csr }
      ∧ u.seng c e = { s.seng c e with
        loads := (s.seng c e).loads.eraseIdx i,
        progs := (s.seng c e).progs ++ [⟨l.mould, leAt im 8 4, leAt im 0xC 2, leAt im 0xE 2,
          (List.range (leAt im 6 2)).map (fun k => leAt im (64 + 8 * k) 8), (List.range (leAt im 0x11 1)).map (fun k => leAt im (0x14 + 2 * k) 2)⟩] })

/-- HOT_POOL gives a live mould without a pool the ranges that the rules allow. HOT_LOAD of a digest that is RESIDENT at the same place only notes its use; of one that is absent, where no entry is in its way and the directory has room, it adds an entry LOADING and answers the handle of the operation that loads it. HOT_PIN and HOT_UNPIN count the entry's pins; HOT_EVICT removes an unpinned entry and counts it; HOT_LOOKUP answers its state, place and length. Each is answered and nothing else changes. -/
def Obligations.HotSet : Prop :=
  (∀ (s : State) (r : MReq) (rest : List MReq) (m n : Nat) (l : List (Nat × Nat)), s.serves 0x0020 r rest → 8 ≤ r.body.length →
    m = leAt r.body 0 1 → n = leAt r.body 1 1 → m < 64 → n ≤ 16 → r.body.length = 8 + 16 * n → leAt r.body 4 4 = 0 →
    l = (List.range n).map (fun i => (leAt r.body (8 + 16 * i) 8, leAt r.body (16 + 16 * i) 8)) → s.mouldLive m = true →
    sumNat (s.moulds.map (fun e => e.2.maxHot)) + leAt r.body 2 2 ≤ 1024 → (s.mould m).pooled = false → l.all (fun p => s.poolOk m p.1 p.2) = true →
    ∃ u : State, exec .hotPool s = .next u.settle ∧ s.answeredAs u r rest 0 0 []
      ∧ u = { s.setMould m { s.mould m with pooled := true, pools := l, maxHot := leAt r.body 2 2 } with mgmt := u.mgmt, out := u.out })
  ∧ (∀ (s : State) (r : MReq) (rest : List MReq) (m dst n : Nat) (d : Bytes) (e : HotEntry), s.serves 0x0021 r rest → r.body.length = 64 →
    m = leAt r.body 0 1 → m < 64 → allZero (slice r.body 1 7) = true → d = slice r.body 8 32 → dst = leAt r.body 48 8 % 2 ^ 48 →
    n = leAt r.body 56 8 → n ≠ 0 → n % 64 = 0 → n < 2 ^ 40 → s.mouldLive m = true →
    (s.mould m).pools.any (fun p => p.1 ≤ dst && dst + n ≤ p.1 + p.2) = true → s.covered m (leAt r.body 40 8 % 2 ^ 48) n 1 = true →
    ((s.cover m (leAt r.body 40 8 % 2 ^ 48) n).getD []).all (fun g => g.tier = 1 || g.tier = 2) = true →
    s.hotOf m d = some e → e.loading = false → e.dst = dst →
    ∃ u : State, exec .hotLoad s = .next u.settle ∧ s.answeredAs u r rest 0 0 [] ∧ u.hotOf m d = some { e with lastUse := s.clk.ns }
      ∧ u = { s.setHot { e with lastUse := s.clk.ns } with mgmt := u.mgmt, out := u.out })
  ∧ (∀ (s : State) (r : MReq) (rest : List MReq) (m src dst n i : Nat) (d : Bytes), s.serves 0x0021 r rest → r.body.length = 64 →
    m = leAt r.body 0 1 → m < 64 → allZero (slice r.body 1 7) = true → d = slice r.body 8 32 → src = leAt r.body 40 8 % 2 ^ 48 →
    dst = leAt r.body 48 8 % 2 ^ 48 → n = leAt r.body 56 8 → n ≠ 0 → n % 64 = 0 → n < 2 ^ 40 → s.mouldLive m = true →
    (s.mould m).pools.any (fun p => p.1 ≤ dst && dst + n ≤ p.1 + p.2) = true → s.covered m src n 1 = true →
    ((s.cover m src n).getD []).all (fun g => g.tier = 1 || g.tier = 2) = true → s.hotOf m d = none →
    s.hot.any (fun e => e.mould = m && e.dst < dst + n && dst < e.dst + e.len) = false →
    (s.hot.filter (fun e => e.mould = m)).length < (s.mould m).maxHot → s.freeEntry = some i →
    ∃ u : State, exec .hotLoad s = .next u.settle ∧ s.opStarted u r rest i 5 (2 + cdiv n 262144 + cdiv n 1048576) (.hot m d src dst n)
      ∧ u = { s with hot := s.hot ++ [⟨d, m, true, dst, n, 0, s.clk.ns, (u.op i).handle⟩], mgmt := u.mgmt, out := u.out })
  ∧ (∀ (s : State) (r : MReq) (rest : List MReq) (m : Nat) (d : Bytes) (e : HotEntry), s.serves 0x0022 r rest → hotBody r.body = true →
    m = leAt r.body 0 1 → d = slice r.body 8 32 → s.hotOf m d = some e → e.pins < 65535 →
    ∃ u : State, exec .hotPin s = .next u.settle ∧ s.answeredAs u r rest 0 0 []
      ∧ u.hotOf m d = some { e with pins := e.pins + 1, lastUse := s.clk.ns } ∧ u.hot.length = s.hot.length
      ∧ (∀ n f, (n, f) ≠ (m, d) → u.hotOf n f = s.hotOf n f) ∧ u = { s with hot := u.hot, mgmt := u.mgmt, out := u.out })
  ∧ (∀ (s : State) (r : MReq) (rest : List MReq) (m : Nat) (d : Bytes) (e : HotEntry), s.serves 0x0023 r rest → hotBody r.body = true →
    m = leAt r.body 0 1 → d = slice r.body 8 32 → s.hotOf m d = some e → 0 < e.pins →
    ∃ u : State, exec .hotUnpin s = .next u.settle ∧ s.answeredAs u r rest 0 0 []
      ∧ u.hotOf m d = some { e with pins := e.pins - 1 } ∧ u.hot.length = s.hot.length
      ∧ (∀ n f, (n, f) ≠ (m, d) → u.hotOf n f = s.hotOf n f) ∧ u = { s with hot := u.hot, mgmt := u.mgmt, out := u.out })
  ∧ (∀ (s : State) (r : MReq) (rest : List MReq) (m : Nat) (d : Bytes) (e : HotEntry), s.serves 0x0024 r rest → hotBody r.body = true →
    m = leAt r.body 0 1 → d = slice r.body 8 32 → s.hotOf m d = some e → e.pins = 0 →
    ∃ u : State, exec .hotEvict s = .next u.settle ∧ s.answeredAs u r rest 0 0 [] ∧ u.hot = s.hot.filter (fun x => !decide (x = e))
      ∧ u.rd F.hotStatus_evictions = satAdd F.hotStatus_evictions.width (s.rd F.hotStatus_evictions) (s.hot.filter (fun x => x = e)).length
      ∧ RegsBut s u [regAddr .hotStatus 0 0] ∧ u = { s with csr := u.csr, hot := u.hot, mgmt := u.mgmt, out := u.out })
  ∧ (∀ (s : State) (r : MReq) (rest : List MReq) (m : Nat) (d : Bytes) (e : HotEntry), s.serves 0x0025 r rest → hotBody r.body = true →
    m = leAt r.body 0 1 → d = slice r.body 8 32 → s.hotOf m d = some e →
    ∃ u : State, exec .hotLookup s = .next u.settle
      ∧ s.answeredAs u r rest 0 0 (toLe 1 (if e.loading then 1 else 2) ++ toLe 7 0 ++ toLe 8 e.dst ++ toLe 8 e.len)
      ∧ u.hotOf m d = some { e with lastUse := s.clk.ns } ∧ u = { s.setHot { e with lastUse := s.clk.ns } with mgmt := u.mgmt, out := u.out })

/-- SVC_BIND of a free endpoint with rings and a queue that the rules allow binds it with its ring indices and counters at 0, and SVC_UNBIND clears it. A write of SVC_RING by the bound context or a management command sets rx_head and tx_tail only. A datagram with a good header and a counter not seen before either carries the right tag and, with room in the ring, is written to the slot at rx_tail, counted and announced on the endpoint's token, or counts in drop_auth. The next transmit slot becomes a frame in the endpoint's queue, with the next counter. -/
def Obligations.ServiceEndpoints : Prop :=
  (∀ (s : State) (r : MReq) (rest : List MReq) (e : Nat) (v : SvcSt), s.serves 0x0028 r rest → r.body.length = 80 → e = leAt r.body 0 2 →
    v = svcOf r.body → v.mould < 64 → s.mouldLive v.mould = true → v.ctx < s.ctxCount v.mould → e < 256 → s.svcBound e = false →
    (s.svc.filter (fun p => p.2.mould = v.mould)).length < 16 → (s.svcRing v.mould v.ctx v.rxBase v.rxSlots).isSome = true →
    (s.svcRing v.mould v.ctx v.txBase v.txSlots).isSome = true → v.port < 8 → v.queue < 1024 →
    (s.qInfo (queueNo (0x10 + v.port) v.queue)).bind (·.owner) = some v.mould → v.token < 32 → s.blockBusy (18 + v.port) = false →
    ∃ u : State, exec .svcBind s = .next u.settle ∧ s.answeredAs u r rest 0 0 [] ∧ u.svcEp e = v ∧ u.reg .svcRing e = 0 ∧ u.reg .svcStat e = 0
      ∧ (∀ f, f ≠ e → u.svcEp f = s.svcEp f) ∧ RegsBut s u [regAddr .svcRing e 0, regAddr .svcStat e 0]
      ∧ u = { s with csr := u.csr, svc := u.svc, mgmt := u.mgmt, out := u.out })
  ∧ (∀ (s : State) (r : MReq) (rest : List MReq) (e : Nat), s.serves 0x0029 r rest → r.body.length = 2 → e = leAt r.body 0 2 → e < 256 →
    s.svcBound e = true →
    ∃ u : State, exec .svcUnbind s = .next u.settle ∧ s.answeredAs u r rest 0 0 []
      ∧ u = { s.setSvc e SvcSt.init with mgmt := u.mgmt, out := u.out })
  ∧ (∀ (s : State) (q e v : Nat), s.live = true → e < 256 →
    (q = 0 ∨ 2 ≤ q ∧ s.svcBound e = true ∧ q - 2 = (s.svcEp e).mould + 64 * (s.svcEp e).ctx) →
    ∃ u : State, exec (.svcRingWrite q e v) s = .next u.settle ∧ u.rd F.svcRing_rxHead e = bitsOf v 0 16
      ∧ u.rd F.svcRing_txTail e = bitsOf v 32 16 ∧ u.rd F.svcRing_rxTail e = s.rd F.svcRing_rxTail e
      ∧ u.rd F.svcRing_txHead e = s.rd F.svcRing_txHead e ∧ RegsBut s u [regAddr .svcRing e 0] ∧ u = { s with csr := u.csr })
  ∧ (∀ (s : State) (dt sub e sport dport n c tail a : Nat) (src dst d h : Bytes) (v w : SvcSt), s.live = true → s.subOpen sub = true →
    24 ≤ d.length → h = d.take 24 → e = beAt h 2 2 → e < 256 → v = s.svcEp e → v.mould < 64 → v.port = (sub - 16) / 4 → v.ipv6 = dst →
    v.udp = dport → svcHdrOk h (d.length - 24) = true → n = beAt h 16 2 → v.track (beAt h 4 4) (beAt h 20 4) (s.clk.up + dt) = some w →
    (w.msStart = (s.pass dt).clk.ns / 1000000 → w.msCount < v.rxRate) → 0 < v.rxRate → tail = s.rd F.svcRing_rxTail e →
    (tail + 65536 - s.rd F.svcRing_rxHead e) % 65536 < v.rxSlots → a = v.rxBase + tail % v.rxSlots * 2048 →
    s.svcRing v.mould v.ctx v.rxBase v.rxSlots = some c → s.tok c v.mould v.ctx v.token < 65535 →
    ∃ u : State, exec (.serviceDatagramRx dt sub src sport dst dport d) s = .next u.settle
      ∧ (slice d (24 + n) 16 ≠ Config.gcmTag v.key (svcNonce h 0) h (slice d 24 n) → u = (s.pass dt).cnt F.svcStat_dropAuth e)
      ∧ (slice d (24 + n) 16 = Config.gcmTag v.key (svcNonce h 0) h (slice d 24 n) →
        u.rd F.svcRing_rxTail e = (tail + 1) % 2 ^ 16 ∧ u.rd F.svcStat_rxOk e = satAdd 16 (s.rd F.svcStat_rxOk e) 1
        ∧ (u.svcEp e).sessions = w.sessions ∧ u.tok c v.mould v.ctx v.token = s.tok c v.mould v.ctx v.token + 1
        ∧ u.sram = (s.writeMem v.mould a (toLe 8 (s.pass dt).clk.ns ++ src ++ toLe 2 sport ++ toLe 2 n ++ toLe 4 0 ++ h
          ++ gcmCrypt v.key (svcNonce h 0) (slice d 24 n))).sram
        ∧ RegsBut s u [regAddr .svcRing e 0, regAddr .svcStat e 0])
      ∧ u = { s.pass dt with csr := u.csr, clus := u.clus, svc := u.svc, sram := u.sram, gddr := u.gddr, cxl := u.cxl, xts := u.xts, vers := u.vers })
  ∧ (∀ (s : State) (e a n q : Nat) (v : SvcSt) (h : Bytes), s.live = true → e < 256 → v = s.svcEp e → v.mould < 64 →
    s.rd F.svcRing_txHead e ≠ s.rd F.svcRing_txTail e → v.txCount < 2 ^ 32 - 1 → a = v.txBase + s.rd F.svcRing_txHead e % v.txSlots * 2048 →
    h = (s.readMem v.mould (a + 32) 24).take 20 ++ toBe 4 (v.txCount + 1) → n = beAt (s.readMem v.mould (a + 32) 24) 16 2 → n ≤ 1400 →
    q = queueNo (0x10 + v.port) v.queue → s.hasRoom q (14 + 40 + 8 + 24 + n + 16) = true →
    ∃ u : State, exec (.serviceDatagramTx e) s = .next u.settle ∧ u.svcEp e = { v with txCount := v.txCount + 1 }
      ∧ u.rd F.svcRing_txHead e = (s.rd F.svcRing_txHead e + 1) % 2 ^ 16
      ∧ (u.eq q).frames = (s.eq q).frames ++ [⟨s.readMem v.mould (a + 8) 18 ++ h ++ gcmCrypt v.key (svcNonce h 1) (s.readMem v.mould (a + 56) n)
        ++ Config.gcmTag v.key (svcNonce h 1) h (gcmCrypt v.key (svcNonce h 1) (s.readMem v.mould (a + 56) n)),
        14 + 40 + 8 + 24 + n + 16, 12, v.mould, false, 0, 0⟩]
      ∧ (∀ f, f ≠ e → u.svcEp f = s.svcEp f) ∧ (∀ k, k ≠ q → u.eq k = s.eq k)
      ∧ RegsBut s u [regAddr .svcRing e 0] ∧ u = { s with csr := u.csr, svc := u.svc, egr := u.egr })

/-- A granule served without an error moves its bytes for its transfer, or fills its thread's line and makes the thread ready; one that meets more than 4 retries or an uncorrectable word fails its transfer and is counted and logged with 0x1003. A maintenance unit counts corrections and moves the scrub on, counting a finished pass. GDDR_RETRAIN starts a retraining. A CXL request completes likewise, fails after 10 ms, or fails when its link goes down; a link that trains shows its width, capacity and IDE. -/
def Obligations.FarTiers : Prop :=
  (∀ (s : State) (dt ch m retries line c x id : Nat) (own : Bool) (g : Gran) (r : List Gran), s.live = true → m < 64 → ch < 128 →
    s.rd F.gddrCh_state ch = 2 → (own = true ∨ nextTurn (s.waiters false ch) (Tab.get 0 s.tier.gLast ch) = some m) →
    bit (s.envelope m).chans ch = true → s.granules' false (tierKey ch m) = g :: r → retries ≤ 4 → g.who = .ladle c m x id →
    s.isSlag m x (s.rop id).heat (s.rop id).quenches = false →
    ∃ u : State, exec (.gddrGranuleServe dt ch m own retries 0 line) s = .next u.settle
      ∧ (u.rop id).sent = (s.rop id).sent - 1 ∧ (u.rop id).got = ((s.rop id).sent - 1 == 0) ∧ (u.rop id).fail = (s.rop id).fail
      ∧ (u.granules' false (tierKey ch m)).map (·.far) = r.map (·.far) ∧ (∀ i, i ≠ id → u.rop i = s.rop i)
      ∧ u = { (s.pass dt).moveGran g g.len with tier := u.tier, fab := u.fab })
  ∧ (∀ (s : State) (dt ch m retries line c t : Nat) (own : Bool) (g : Gran) (r : List Gran), s.live = true → m < 64 → ch < 128 →
    s.rd F.gddrCh_state ch = 2 → (own = true ∨ nextTurn (s.waiters false ch) (Tab.get 0 s.tier.gLast ch) = some m) →
    bit (s.envelope m).chans ch = true → s.granules' false (tierKey ch m) = g :: r → retries ≤ 4 → g.who = .thread c t → c < 96 → t < 16 →
    g.far % 64 = 0 → s.thrState c t = 3 →
    ∃ u : State, exec (.gddrGranuleServe dt ch m own retries 0 line) s = .next u.settle ∧ u.thrState c t = 1
      ∧ u.thread c t = { s.thread c t with wait := .none, missErr := 0 } ∧ ((s.place g.mould g.far).isSome = true → (u.lineOf (g.near == 1) c g.mould g.far).isSome = true)
      ∧ (u.granules' false (tierKey ch m)).map (·.far) = r.map (·.far) ∧ RegsBut s u [regAddr .thrStatus c t]
      ∧ u = { s.pass dt with csr := u.csr, clus := u.clus, tier := u.tier, free := u.free, sram := u.sram, gddr := u.gddr, cxl := u.cxl, xts := u.xts })
  ∧ (∀ (s : State) (dt ch m retries ecc line c x id : Nat) (own : Bool) (g : Gran) (r : List Gran), s.live = true → m < 64 → ch < 128 →
    s.rd F.gddrCh_state ch = 2 → (own = true ∨ nextTurn (s.waiters false ch) (Tab.get 0 s.tier.gLast ch) = some m) →
    bit (s.envelope m).chans ch = true → s.granules' false (tierKey ch m) = g :: r → (4 < retries ∨ ecc = 2) → g.who = .ladle c m x id →
    (s.rop id).fail = 0 → s.logRoom 1 →
    ∃ u : State, exec (.gddrGranuleServe dt ch m own retries ecc line) s = .next u.settle ∧ (u.rop id).got = true ∧ (u.rop id).fail = E.memGddrUe
      ∧ u.rd F.gddrCh_ue ch = satAdd 16 (s.rd F.gddrCh_ue ch) 1 ∧ u.rd F.memEcc_gddrUe = satAdd 16 (s.rd F.memEcc_gddrUe) 1
      ∧ u.lastEvt = some (0x1003, srcGddr ch, m) ∧ RegsBut s u [regAddr .gddrCh ch 0, regAddr .memEcc 0 0]
      ∧ u = { s.pass dt with csr := u.csr, tier := u.tier, fab := u.fab, health := u.health, log := u.log, sram := u.sram, gddr := u.gddr, cxl := u.cxl, xts := u.xts })
  ∧ (∀ (s : State) (dt ch ce n : Nat), s.live = true → ch < 128 → s.rd F.gddrCh_state ch = 2 → s.flag F.scrubCtrl_gddrEn = true →
    n = ((List.range 128).filter (fun k => s.rd F.gddrCh_state k = 2)).length * s.rd F.gddrCfg_channelMb * 4096 →
    ∃ u : State, exec (.gddrMaintenanceUnit dt ch ce) s = .next u.settle
      ∧ u.rd F.gddrCh_ce ch = satAdd 16 (s.rd F.gddrCh_ce ch) (min ce 4)
      ∧ u.tier = (if s.tier.gddrPos + 1 < n then { s.tier with gddrPos := s.tier.gddrPos + 1 } else { s.tier with gddrPos := 0, gddrAt := s.clk.up + dt })
      ∧ u.rd F.scrubStatus_gddrPasses = (if s.tier.gddrPos + 1 < n then s.rd F.scrubStatus_gddrPasses else satAdd 16 (s.rd F.scrubStatus_gddrPasses) 1)
      ∧ RegsBut s u [regAddr .gddrCh ch 0, regAddr .scrubStatus 0 0] ∧ u = { s.pass dt with csr := u.csr, tier := u.tier, health := u.health })
  ∧ (∀ (s : State) (r : MReq) (rest : List MReq) (ch i : Nat), s.serves 0x0041 r rest → r.body.length = 1 → ch = leAt r.body 0 1 → ch < 128 →
    s.rd F.gddrCh_state ch ≠ 0 → (s.flag F.gddrCh_radio ch = true → s.mstate (s.rd F.gddrCh_radioMould ch) = 4 ∨ s.mstate (s.rd F.gddrCh_radioMould ch) = 0) →
    s.retraining ch = false → s.blockBusy (12 + ch / 32) = false → s.freeEntry = some i →
    ∃ u : State, exec .gddrRetrain s = .next u.settle ∧ s.opStarted u r rest i 3 10 (.retrain ch) ∧ u = { s with mgmt := u.mgmt, out := u.out })
  ∧ (∀ (s : State) (dt k m line c x id : Nat) (g : Gran) (r : List Gran), s.live = true → k < 4 → m < 64 → s.flag F.cxlDev_linkUp k = true →
    s.granules' true (tierKey k m) = g :: r → nextTurn (s.waiters true k) (Tab.get 0 s.tier.cLast k) = some m → g.who = .ladle c m x id →
    s.isSlag m x (s.rop id).heat (s.rop id).quenches = false →
    ∃ u : State, exec (.cxlRequestComplete dt k m false false line) s = .next u.settle
      ∧ (u.rop id).sent = (s.rop id).sent - 1 ∧ (u.rop id).got = ((s.rop id).sent - 1 == 0) ∧ (u.rop id).fail = (s.rop id).fail
      ∧ (u.granules' true (tierKey k m)).map (·.far) = r.map (·.far) ∧ (∀ i, i ≠ id → u.rop i = s.rop i)
      ∧ u = { (s.pass dt).moveGran g g.len with tier := u.tier, fab := u.fab })
  ∧ (∀ (s : State) (dt k m c x id : Nat) (g : Gran) (r : List Gran), s.live = true → k < 4 → m < 64 →
    s.granules' true (tierKey k m) = g :: r → nextTurn (s.waiters true k) (Tab.get 0 s.tier.cLast k) = some m → g.who = .ladle c m x id →
    (s.rop id).fail = 0 → g.at_ + 10000000 ≤ s.clk.up + dt →
    ∃ u : State, exec (.cxlTimeout dt k m) s = .next u.settle ∧ (u.rop id).got = true ∧ (u.rop id).fail = E.memTimeout
      ∧ u.rd F.cxlDev_timeouts k = satAdd 16 (s.rd F.cxlDev_timeouts k) 1 ∧ RegsBut s u [regAddr .cxlDev k 0]
      ∧ u = { s.pass dt with csr := u.csr, tier := u.tier, fab := u.fab })
  ∧ (∀ (s : State) (k width cap : Nat) (ide : Bool), s.live = true → k < 4 → s.blockBusy (16 + k / 2) = false → s.flag F.cxlDev_linkUp k = false →
    s.flag F.quar_active (48 + k) = false → (width = 8 ∨ width = 16) → (s.needsIde k = true → ide = true) →
    ∃ u : State, exec (.cxlLinkTrain k width cap true ide) s = .next u.settle ∧ u.rd F.cxlDev_present k = 1 ∧ u.rd F.cxlDev_linkUp k = 1
      ∧ u.rd F.cxlDev_width k = width ∧ u.rd F.cxlDev_capacityGb k = min cap 512 ∧ u.flag F.cxlDev_ide k = s.needsIde k
      ∧ RegsBut s u [regAddr .cxlDev k 0] ∧ u = { s with csr := u.csr })
  ∧ (∀ (s : State) (k : Nat), s.live = true → k < 4 → s.flag F.cxlDev_linkUp k = true →
    ∃ u : State, exec (.cxlLinkDown k) s = .next u.settle ∧ u.rd F.cxlDev_linkUp k = 0
      ∧ (List.range 64).all (fun m => (u.granules' true (tierKey k m)).isEmpty) = true
      ∧ u = { s with csr := u.csr, clus := u.clus, tier := u.tier, fab := u.fab })

/-- The next transfer of a context that is not held begins: within the cluster it is ready to complete, to or from a far tier its granules are asked for, a put or get that passes its checks takes a request slot and is sent. A completed transfer within SRAM has moved its bytes; any transfer that is not slag posts its done token where it has one; a put or get counts in MOV_OUT; slag only counts in SLAG_COUNT. A collective MOV that waits for a group in SETUP longer than its timeout fails. -/
def Obligations.LadleTransfers : Prop :=
  (∀ (s : State) (dt c m x : Nat) (v : MovSt), s.live = true → (s.movs c m x).find? (fun y => !y.begun) = some v →
    (s.stageOf c < 2 ∨ s.isRadio m = true ∨ (s.clu c).streams.any (fun e => e.2.busy && e.2.run = v.run) = true) → v.kind = 0 →
    ∃ u : State, exec (.ladleMovBegin dt c m x) s = .next u.settle ∧ u.movs c m x = (s.movs c m x).map (fun y => if y.opId = v.opId then { v with begun := true } else y)
      ∧ u.rop v.opId = { v.rop c m x (s.clk.up + dt) with near := v.src % 2 ^ 48, far := v.dst % 2 ^ 48, got := true }
      ∧ (∀ i, i ≠ v.opId → u.rop i = s.rop i) ∧ u = { s.pass dt with clus := u.clus, fab := u.fab })
  ∧ (∀ (s : State) (dt c m x far near : Nat) (v : MovSt), s.live = true → (s.movs c m x).find? (fun y => !y.begun) = some v →
    (s.stageOf c < 2 ∨ s.isRadio m = true ∨ (s.clu c).streams.any (fun e => e.2.busy && e.2.run = v.run) = true) → (v.kind = 1 ∨ v.kind = 2) →
    far = (if v.kind = 2 then v.src else v.dst) % 2 ^ 48 → near = (if v.kind = 2 then v.dst else v.src) % 2 ^ 48 → (s.access m far v.len 0 0).1 = 0 →
    ∃ u : State, exec (.ladleMovBegin dt c m x) s = .next u.settle ∧ u.movs c m x = (s.movs c m x).map (fun y => if y.opId = v.opId then { v with begun := true } else y)
      ∧ (u.rop v.opId).sent = ((s.pass dt).askGranules (.ladle c m x v.opId) (v.kind == 1) m far near v.len).1
      ∧ u.tier = ((s.pass dt).askGranules (.ladle c m x v.opId) (v.kind == 1) m far near v.len).2.tier
      ∧ (∀ i, i ≠ v.opId → u.rop i = s.rop i) ∧ u = { s.pass dt with clus := u.clus, tier := u.tier, fab := u.fab })
  ∧ (∀ (s : State) (dt c m x a : Nat) (v : MovSt), s.live = true → (s.movs c m x).find? (fun y => !y.begun) = some v →
    (s.stageOf c < 2 ∨ s.isRadio m = true ∨ (s.clu c).streams.any (fun e => e.2.busy && e.2.run = v.run) = true) → (v.kind = 3 ∨ v.kind = 4) →
    a = (if v.kind = 3 then v.dst else v.src) → m < 64 → s.remoteCheck m a 64 = 0 → s.slotFree m = true → s.windowOpen (a / 2 ^ 54) m = true →
    ∃ u : State, exec (.ladleMovBegin dt c m x) s = .next u.settle ∧ u.movs c m x = (s.movs c m x).map (fun y => if y.opId = v.opId then { v with begun := true } else y)
      ∧ (u.rop v.opId).kind = v.kind ∧ (u.rop v.opId).dev = a / 2 ^ 54 ∧ (u.rop v.opId).far = a % 2 ^ 48 ∧ (u.rop v.opId).len = v.len
      ∧ u.rd F.fabSlots_used m = s.rd F.fabSlots_used m + 1
      ∧ u = { s.pass dt with csr := u.csr, clus := u.clus, fab := u.fab, egr := u.egr, log := u.log, free := u.free })
  ∧ (∀ (s q : State) (c m x ecc word : Nat) (v : MovSt) (o : ROp), s.live = true → (s.movs c m x).find? (fun y => y.begun && (s.rop y.opId).got) = some v → o = s.rop v.opId → o.kind = 0 → o.busy ≠ 2 →
    s.isSlag m x o.heat o.quenches = false → s.access m o.near o.len ecc word = (0, q) → (o.doneEn = true → s.tok c m x o.doneTok < 65535) →
    ∃ u : State, exec (.movComplete c m x ecc word) s = .next u.settle ∧ u.movs c m x = (s.movs c m x).filter (fun y => y.opId ≠ v.opId) ∧ u.rop v.opId = ROp.init
      ∧ u.tok c m x o.doneTok = s.tok c m x o.doneTok + ofBool o.doneEn
      ∧ u = { (q.writeMem m o.far (q.readMem m o.near o.len)).bumpAt m o.far with clus := u.clus, fab := u.fab })
  ∧ (∀ (s : State) (c m x ecc word : Nat) (v : MovSt) (o : ROp), s.live = true → (s.movs c m x).find? (fun y => y.begun && (s.rop y.opId).got) = some v → o = s.rop v.opId → (o.kind = 3 ∨ o.kind = 4) → o.busy ≠ 2 → o.mould = m → o.ctx = x → m < 64 → x < 16 →
    s.isSlag m x o.heat o.quenches = false → (o.doneEn = true → s.tok c m x o.doneTok < 65535) →
    ∃ u : State, exec (.movComplete c m x ecc word) s = .next u.settle ∧ u.movs c m x = (s.movs c m x).filter (fun y => y.opId ≠ v.opId) ∧ u.rop v.opId = ROp.init
      ∧ u.tok c m x o.doneTok = s.tok c m x o.doneTok + ofBool o.doneEn
      ∧ (o.fail = 0 → u.rd F.movOut_ok m x = satAdd 32 (s.rd F.movOut_ok m x) 1)
      ∧ (o.fail ≠ 0 → u.rd F.movOut_failed m x = satAdd 16 (s.rd F.movOut_failed m x) 1 ∧ u.rd F.movOut_lastCode m x = o.fail % 2 ^ 16)
      ∧ RegsBut s u [regAddr .movOut m x] ∧ u = { s with csr := u.csr, clus := u.clus, fab := u.fab })
  ∧ (∀ (s : State) (c m x ecc word : Nat) (v : MovSt) (o : ROp), s.live = true → (s.movs c m x).find? (fun y => y.begun && (s.rop y.opId).got) = some v → o = s.rop v.opId → m < 64 → o.busy ≠ 2 → s.isSlag m x o.heat o.quenches = true →
    ∃ u : State, exec (.movComplete c m x ecc word) s = .next u.settle ∧ u.movs c m x = (s.movs c m x).filter (fun y => y.opId ≠ v.opId) ∧ u.rop v.opId = ROp.init
      ∧ u.rd F.slagCount_count m = satAdd 32 (s.rd F.slagCount_count m) 1 ∧ (u.clu c).tokens = (s.clu c).tokens
      ∧ RegsBut s u [regAddr .slagCount m 0] ∧ u = { s with csr := u.csr, clus := u.clus, fab := u.fab })
  ∧ (∀ (s : State) (dt c m x g : Nat) (v : MovSt), s.live = true → (s.movs c m x).find? (fun y => !y.begun) = some v →
    s.grpOf (v.dst % 65536) = some g → v.kind = 5 → s.rd F.collG_state g = 1 → v.beganAt ≠ 0 →
    v.beganAt + 1000 * (s.grpEnt g).timeoutUs ≤ s.clk.up + dt + 1 →
    ∃ u : State, exec (.collMovSetupTimeout dt c m x) s = .next u.settle ∧ u.movs c m x = (s.movs c m x).map (fun y => if y.opId = v.opId then { v with begun := true } else y)
      ∧ u.rop v.opId = { v.rop c m x (s.clk.up + dt) with got := true, fail := E.collSetupTimeout }
      ∧ (∀ i, i ≠ v.opId → u.rop i = s.rop i) ∧ u = { s.pass dt with clus := u.clus, fab := u.fab })

/-- A port that trains goes to state 1 and shows its identity word; without signal it tries again 100 ms later. A port that goes down leaves state 2, counts its codewords, and no frame stays in its queues. An identity word that fits the port brings it up with the peer's ID, port and epoch; one that does not fit leaves it in state 3 with event 0x1106. Verification that fails for 1 ms leaves it in state 3, counted. Unacknowledged frames are replayed, and the ninth time the port retrains. A good frame in order enters the receive buffer and takes its credits; any other asks for a replay. A frame for another device goes to the queue of its route with its ttl one lower, and ends with ttl 0. -/
def Obligations.JoravoLinks : Prop :=
  (∀ (s : State) (dt p : Nat), s.live = true → p < 12 → s.blockBusy p = false → 1 < s.dimSize (portDim p) → s.rd F.portStatus_state p ≤ 1 →
    ∃ u : State, exec (.portTrain dt p) s = .next u.settle ∧ u.rd F.portStatus_state p = 1
      ∧ u.port p = { (s.port p).trained with at_ := s.clk.up + dt } ∧ u.out = s.out ++ [.link p 4 (s.identity p)]
      ∧ RegsBut s u [regAddr .portStatus p 0] ∧ (∀ q, q ≠ p → u.port q = s.port q) ∧ u = { s.pass dt with csr := u.csr, fab := u.fab, out := u.out })
  ∧ (∀ (s : State) (dt p : Nat), s.live = true → p < 12 → s.blockBusy p = false → 1 < s.dimSize (portDim p) → s.rd F.portStatus_state p ≤ 1 →
    (s.port p).at_ + 100000000 ≤ s.clk.up + dt →
    ∃ u : State, exec (.portTrainRetry dt p) s = .next u.settle ∧ u.rd F.portStatus_state p = 1 ∧ u.port p = { s.port p with at_ := s.clk.up + dt }
      ∧ RegsBut s u [regAddr .portStatus p 0] ∧ (∀ q, q ≠ p → u.port q = s.port q) ∧ u = { s.pass dt with csr := u.csr, fab := u.fab })
  ∧ (∀ (s : State) (p corr unc : Nat), s.live = true → p < 12 → s.rd F.portStatus_state p ≠ 5 → (unc = 0 ∨ 64 < unc) →
    ∃ u : State, exec (.portDown p corr unc) s = .next u.settle ∧ u.rd F.portStatus_state p = (if s.rd F.portStatus_state p = 4 then 4 else 0)
      ∧ u.rd F.portFec_corrected p = satAdd 32 (s.rd F.portFec_corrected p) corr
      ∧ u.rd F.portFec_uncorrectable p = satAdd 32 (s.rd F.portFec_uncorrectable p) unc
      ∧ (s.jUp p = true → ∀ q, q / 2048 = p → (u.eq q).frames = [])
      ∧ u = { s with csr := u.csr, free := u.free, log := u.log, fab := u.fab, egr := u.egr, tim := u.tim })
  ∧ (∀ (s : State) (p peer pport x y z epoch : Nat) (nonce : Bool), s.live = true → p < 12 →
    (s.rd F.portStatus_state p = 1 ∨ s.rd F.portStatus_state p = 3) → s.peerFits p peer pport x y z = true →
    (s.needsMacsec p = true → nonce = true ∧ s.sec.fabricKey = true) →
    ∃ u : State, exec (.identityWordRx p peer pport x y z epoch nonce) s = .next u.settle ∧ u.rd F.portStatus_state p = 2
      ∧ u.rd F.portStatus_peerId p = peer % 2 ^ 10 ∧ u.rd F.portStatus_peerPort p = pport % 2 ^ 4
      ∧ u.rd F.portStatus_peerEpoch p = epoch % 2 ^ 32 ∧ u.flag F.portStatus_macsec p = s.needsMacsec p
      ∧ u.flag F.macsec_active p = s.needsMacsec p ∧ u.rd F.macsec_keyNumber p = 0 ∧ u.rd F.macsec_an p = 0
      ∧ (u.port p).was = true ∧ u = { s with csr := u.csr, free := u.free, log := u.log, fab := u.fab, egr := u.egr, health := u.health })
  ∧ (∀ (s : State) (p peer pport x y z epoch : Nat) (nonce : Bool), s.live = true → p < 12 →
    (s.rd F.portStatus_state p = 1 ∨ s.rd F.portStatus_state p = 3) → s.peerFits p peer pport x y z = false → s.logRoom 1 →
    ∃ u : State, exec (.identityWordRx p peer pport x y z epoch nonce) s = .next u.settle ∧ u.rd F.portStatus_state p = 3
      ∧ u.rd F.portStatus_macsec p = 0 ∧ u.rd F.macsec_active p = 0 ∧ u.lastEvt = some (0x1106, 0x0010 + p, 0xFF)
      ∧ RegsBut s u [regAddr .portStatus p 0, regAddr .macsec p 0] ∧ u = { s with csr := u.csr, log := u.log })
  ∧ (∀ (s : State) (dt p t : Nat), s.live = true → s.jUp p = true → s.flag F.macsec_active p = true → (s.port p).badAt = some t →
    t + 1000000 ≤ s.clk.up + dt →
    ∃ u : State, exec (.macsecVerifyTimeout dt p) s = .next u.settle ∧ u.rd F.portStatus_state p = 3
      ∧ u.rd F.macsec_keyFail p = satAdd 16 (s.rd F.macsec_keyFail p) 1 ∧ u.rd F.macsec_active p = 0
      ∧ u = { s.pass dt with csr := u.csr, free := u.free, log := u.log, fab := u.fab, egr := u.egr, tim := u.tim })
  ∧ (∀ (s : State) (dt p : Nat), s.live = true → s.jUp p = true → (s.port p).lackAt + 4000 ≤ s.clk.up + dt → (s.port p).replay ≠ [] →
    (s.port p).tries < 8 →
    ∃ u : State, exec (.linkReplayTimeout dt p) s = .next u.settle ∧ (u.port p).tries = (s.port p).tries + 1 ∧ (u.port p).lackAt = s.clk.up + dt
      ∧ (u.port p).replay = (s.port p).replay ∧ u.rd F.portCnt_replays p = satAdd 16 (s.rd F.portCnt_replays p) 1
      ∧ u.out.length = s.out.length + (s.port p).replay.length ∧ (∀ q, q ≠ p → u.port q = s.port q)
      ∧ RegsBut s u [regAddr .portCnt p 0, regAddr .macsec p 0] ∧ u = { s.pass dt with csr := u.csr, fab := u.fab, out := u.out })
  ∧ (∀ (s : State) (dt p : Nat), s.live = true → s.jUp p = true → (s.port p).lackAt + 4000 ≤ s.clk.up + dt → (s.port p).replay ≠ [] →
    8 ≤ (s.port p).tries →
    ∃ u : State, exec (.linkReplayTimeout dt p) s = .next u.settle ∧ (u.rd F.portStatus_state p = 1 ∨ u.rd F.portStatus_state p = 4)
      ∧ u.rd F.portCnt_retrains p = satAdd 16 (s.rd F.portCnt_retrains p) 1
      ∧ u = { s.pass dt with csr := u.csr, free := u.free, log := u.log, fab := u.fab, egr := u.egr, tim := u.tim, health := u.health })
  ∧ (∀ (s : State) (dt p w n c : Nat) (f : Bytes), s.live = true → s.jUp p = true → bitsOf w 8 8 = 0 → bitsOf w 48 16 = ((s.port p).rxSeq + 1) % 2 ^ 16 →
    32 ≤ f.length → beAt f 0x1C 4 = crc32c (f.take 0x1C) → n = fUnits f → c = fClass f → n ≤ (s.port p).room.getD c 0 → s.inPool = true →
    ∃ u : State, exec (.linkWordRx dt p w f true false false) s = .next u.settle ∧ (u.port p).rx = (s.port p).rx ++ [f]
      ∧ (u.port p).rxSeq = bitsOf w 48 16 ∧ (u.port p).room = (s.port p).room.set c ((s.port p).room.getD c 0 - n)
      ∧ (u.port p).replay = (s.port p).replay.filter (fun e => !lseqLe e.1 (bitsOf w 32 16))
      ∧ (u.port p).credit = (s.port p).credit.set (bitsOf w 30 2) (min 4096 ((s.port p).credit.getD (bitsOf w 30 2) 0 + bitsOf w 16 14))
      ∧ (∀ q, q ≠ p → u.port q = s.port q) ∧ u = { s.pass dt with fab := u.fab })
  ∧ (∀ (s : State) (dt p w : Nat) (f : Bytes) (ok : Bool), s.live = true → s.jUp p = true → bitsOf w 8 8 = 0 →
    (bitsOf w 48 16 ≠ ((s.port p).rxSeq + 1) % 2 ^ 16 ∨ ok = false) →
    ∃ u : State, exec (.linkWordRx dt p w f ok false false) s = .next u.settle ∧ (u.port p).rx = (s.port p).rx ∧ (u.port p).rxSeq = (s.port p).rxSeq
      ∧ u.rd F.portCnt_fcsErr p = satAdd 16 (s.rd F.portCnt_fcsErr p) 1 ∧ u.out.length = s.out.length + 1
      ∧ RegsBut s u [regAddr .portCnt p 0] ∧ (∀ q, q ≠ p → u.port q = s.port q) ∧ u = { s.pass dt with csr := u.csr, fab := u.fab, out := u.out })
  ∧ (∀ (s : State) (p q : Nat) (f g h : Bytes) (re de : Bool), s.live = true → p < 12 →
    (classHeads (s.inbox p)).find? (fun f => fDst f ≠ s.devId) = some f → beAt f 0x12 1 ≠ 0 → h = setHdr f 0x12 (beAt f 0x12 1 - 1) →
    s.route (fSrc h) (fDst h) p (fRerouted h) = .port q re de → g = (if fRerouted h = re then h else setFlagBit h 1 re) →
    ∃ u : State, exec (.frameForward p) s = .next u.settle ∧ u.inbox p = (s.inbox p).erase f
      ∧ (u.eq (queueNo q (jQueue (decide (fSrc h = s.devId)) g 0))).frames = (s.eq (queueNo q (jQueue (decide (fSrc h = s.devId)) g 0))).frames
        ++ [⟨g, g.length + 4, p, fMould g, false, 0, 0⟩]
      ∧ u = { s with csr := u.csr, free := u.free, log := u.log, fab := u.fab, egr := u.egr })
  ∧ (∀ (s : State) (p : Nat) (f : Bytes), s.live = true → p < 12 →
    (classHeads (s.inbox p)).find? (fun f => fDst f ≠ s.devId) = some f → beAt f 0x12 1 = 0 →
    ∃ u : State, exec (.frameForward p) s = .next u.settle ∧ u.inbox p = (s.inbox p).erase f
      ∧ u.rd F.fabStat2_ttlDrop = satAdd 16 (s.rd F.fabStat2_ttlDrop) 1 ∧ RegsBut s u [regAddr .fabStat2 0 0] ∧ u = { s with csr := u.csr, fab := u.fab })

/-- A put's or a store's frame that is taken for the first time and passes the target's checks writes its data at the target's address, and the stream takes its sequence; a put's frame in order posts the remote token once for each 64 bytes. A duplicate is only acknowledged and a refused frame is answered with its code: neither changes memory. A get, a load or a version read is answered with the memory as it is, the version behind 64 bytes. -/
def Obligations.RemoteReadsAndWrites : Prop :=
  (∀ (s v q : State) (p k ecc word : Nat) (f : Bytes), s.takesRequest v p 1 f → k = streamKey (fSrc f) (fMould f) →
    (v.rxS k).dup (fSeq f) = false → v.targetCheck f (qData f).length = 0 → v.access (fMould f) (qOff f) (qData f).length ecc word = (0, q) →
    ∃ u : State, exec (.putData p ecc word) s = .next u.settle
      ∧ u = ((q.writeMem (fMould f) (qOff f) (qData f)).bumpAt (fMould f) (qOff f)).takeSeq f false)
  ∧ (∀ (s v q : State) (p k ecc word : Nat) (f : Bytes), s.takesRequest v p 3 f → k = streamKey (fSrc f) (fMould f) →
    (v.rxS k).dup (fSeq f) = false → v.targetCheck f (qData f).length = 0 → v.access (fMould f) (qOff f) (qData f).length ecc word = (0, q) →
    ∃ u : State, exec (.storeFrame p ecc word) s = .next u.settle
      ∧ u = ((q.writeMem (fMould f) (qOff f) (qData f)).bumpAt (fMould f) (qOff f)).takeSeq f false)
  ∧ (∀ (s v q : State) (p k c n ecc word : Nat) (f : Bytes), s.takesRequest v p 1 f → k = streamKey (fSrc f) (fMould f) →
    v.targetCheck f (qData f).length = 0 → v.access (fMould f) (qOff f) (qData f).length ecc word = (0, q) → (v.rxS k).above = [] →
    fSeq f = ((v.rxS k).cum + 1) % 2 ^ 32 → (v.rxS k).cum < 2 ^ 32 → (v.rxS k).refused = [] → (v.rxS k).adv < 7 → bit (qTok f) 5 = true →
    v.mouldLive (fMould f) = true → qCtx f < v.ctxCount (fMould f) → v.tokenCluster (fMould f) (qOff f) = some c →
    n = (beAt f 0x10 2 - 16) / 64 → v.tok c (fMould f) (qCtx f) (qTok f % 32) + n ≤ 65535 →
    ∃ u : State, exec (.putData p ecc word) s = .next u.settle
      ∧ u.tok c (fMould f) (qCtx f) (qTok f % 32) = v.tok c (fMould f) (qCtx f) (qTok f % 32) + n
      ∧ (u.rxS k).cum = fSeq f ∧ (u.rxS k).above = [] ∧ (u.rxS k).adv = (v.rxS k).adv + 1
      ∧ u.sram = (q.writeMem (fMould f) (qOff f) (qData f)).sram ∧ u.gddr = (q.writeMem (fMould f) (qOff f) (qData f)).gddr
      ∧ u = { q with clus := u.clus, fab := u.fab, sram := u.sram, gddr := u.gddr, cxl := u.cxl, xts := u.xts, vers := u.vers })
  ∧ (∀ (s v : State) (p k ecc word : Nat) (f : Bytes), s.takesRequest v p 1 f → k = streamKey (fSrc f) (fMould f) →
    (v.rxS k).dup (fSeq f) = true →
    ∃ u : State, exec (.putData p ecc word) s = .next u.settle ∧ u = v.sendAck (fSrc f) (fMould f) ∧ u.sram = s.sram ∧ u.gddr = s.gddr ∧ u.cxl = s.cxl
      ∧ u.clus = s.clus)
  ∧ (∀ (s v : State) (p k ecc word : Nat) (f : Bytes), s.takesRequest v p 1 f → k = streamKey (fSrc f) (fMould f) →
    (v.rxS k).dup (fSeq f) = false → v.targetCheck f (qData f).length ≠ 0 →
    ∃ u : State, exec (.putData p ecc word) s = .next u.settle ∧ u = (v.nak f (v.targetCheck f (qData f).length)).takeSeq f true
      ∧ u.sram = s.sram ∧ u.gddr = s.gddr ∧ u.cxl = s.cxl)
  ∧ (∀ (s v : State) (p k ecc word : Nat) (f : Bytes), s.takesRequest v p 3 f → k = streamKey (fSrc f) (fMould f) →
    (v.rxS k).dup (fSeq f) = true →
    ∃ u : State, exec (.storeFrame p ecc word) s = .next u.settle ∧ u = v.sendAck (fSrc f) (fMould f) ∧ u.sram = s.sram ∧ u.gddr = s.gddr ∧ u.cxl = s.cxl
      ∧ u.clus = s.clus)
  ∧ (∀ (s v : State) (p k ecc word : Nat) (f : Bytes), s.takesRequest v p 3 f → k = streamKey (fSrc f) (fMould f) →
    (v.rxS k).dup (fSeq f) = false → v.targetCheck f (qData f).length ≠ 0 →
    ∃ u : State, exec (.storeFrame p ecc word) s = .next u.settle ∧ u = (v.nak f (v.targetCheck f (qData f).length)).takeSeq f true
      ∧ u.sram = s.sram ∧ u.gddr = s.gddr ∧ u.cxl = s.cxl)
  ∧ (∀ (s v q : State) (p ecc word : Nat) (f : Bytes), s.takesRequest v p 2 f → v.targetCheck f (qLen f) = 0 →
    v.access (fMould f) (qOff f) (qLen f) ecc word = (0, q) →
    ∃ u : State, exec (.getReq p ecc word) s = .next u.settle
      ∧ u = (q.sendGet f).answered ((v.rxS (streamKey (fSrc f) (fMould f))).dup (fSeq f)) f false
      ∧ u.sram = s.sram ∧ u.gddr = s.gddr ∧ u.cxl = s.cxl)
  ∧ (∀ (s v q : State) (p ecc word : Nat) (f : Bytes), s.takesRequest v p 4 f → v.targetCheck f (qLen f) = 0 →
    v.access (fMould f) (qOff f) (qLen f) ecc word = (0, q) →
    ∃ u : State, exec (.loadReq p ecc word) s = .next u.settle
      ∧ u = (q.respond f 0x12 0 (q.readMem (fMould f) (qOff f) (qLen f) ++ (if qLen f = 64 then toBe 8 (q.versionAt (fMould f) (qOff f)).1 else []))).answered ((v.rxS (streamKey (fSrc f) (fMould f))).dup (fSeq f)) f false
      ∧ u.sram = s.sram ∧ u.gddr = s.gddr ∧ u.cxl = s.cxl)
  ∧ (∀ (s v : State) (p : Nat) (f : Bytes), s.takesRequest v p 6 f → v.targetCheck f (1) = 0 →
    ∃ u : State, exec (.vreadReq p) s = .next u.settle
      ∧ u = (v.respond f 0x14 0 (toBe 4 (v.versionAt (fMould f) (qOff f)).1 ++ toBe 4 0)).answered ((v.rxS (streamKey (fSrc f) (fMould f))).dup (fSeq f)) f false
      ∧ u.sram = s.sram ∧ u.gddr = s.gddr ∧ u.cxl = s.cxl)

/-- An atomic or ownership request without a stored reply is executed once: the memory or the owner word takes its new value, the reply with the old one is stored and sent. A request whose reply is stored is answered from it, counted, and changes neither memory nor owner words. A frame of a reserved opcode is dropped and counted as malformed. 2 µs after cum advanced the stream is acknowledged. -/
def Obligations.RemoteAtomicsOwnershipAndAcks : Prop :=
  (∀ (s v q w : State) (p ecc word old : Nat) (f g : Bytes), s.takesRequest v p 5 f → v.fab.cache.find? (fun e => e.key = replyKey f) = none →
    v.targetCheck f (qLen f) = 0 → v.access (fMould f) (qOff f) (qLen f) ecc word = (0, q) → q.replyRoom = true →
    old = leNat (q.readMem (fMould f) (qOff f) (qLen f)) →
    w = (if atomicNew (qSub f) (qLen f) old (beAt f 0x30 8) (beAt f 0x38 8) = old then q
      else (q.writeMem (fMould f) (qOff f) (toLe (qLen f) (atomicNew (qSub f) (qLen f) old (beAt f 0x30 8) (beAt f 0x38 8)))).bumpAt (fMould f) (qOff f)) →
    g = q.newFrame (fSrc f) (fMould f) (fHeat f) 0x13 0 (fSeq f) 1 0 (toBe 8 old) →
    ∃ u : State, exec (.atomicReq p ecc word) s = .next u.settle
      ∧ u = ((w.storeReply (replyKey f) g).dispatchFrame g 12 0).answered ((v.rxS (streamKey (fSrc f) (fMould f))).dup (fSeq f)) f false
      ∧ u.sram = w.sram ∧ u.gddr = w.gddr ∧ u.cxl = w.cxl)
  ∧ (∀ (s v : State) (p i : Nat) (f g : Bytes), s.takesRequest v p 7 f → v.fab.cache.find? (fun e => e.key = replyKey f) = none →
    v.targetCheck f 1 = 0 → v.replyRoom = true → v.regionIdx (fMould f) (qOff f) = some i →
    g = v.newFrame (fSrc f) (fMould f) (fHeat f) 0x15 0 (fSeq f) 1 0 (toBe 8 (Tab.get 0 v.owners (regionKey (fMould f) i))) →
    ∃ u : State, exec (.ownReq p) s = .next u.settle
      ∧ u.owners = Tab.set 0 s.owners (regionKey (fMould f) i) (ownNew (qSub f) (Tab.get 0 s.owners (regionKey (fMould f) i)) (ownerWord f) (beAt f 0x30 8))
      ∧ u = { ((v.storeReply (replyKey f) g).dispatchFrame g 12 0).answered ((v.rxS (streamKey (fSrc f) (fMould f))).dup (fSeq f)) f false with owners := u.owners }
      ∧ u.sram = s.sram ∧ u.gddr = s.gddr ∧ u.cxl = s.cxl)
  ∧ (∀ (s v : State) (p ecc word : Nat) (f : Bytes) (e : Reply), s.takesRequest v p 5 f →
    v.fab.cache.find? (fun e => e.key = replyKey f) = some e →
    ∃ u : State, exec (.atomicReq p ecc word) s = .next u.settle
      ∧ u = ((v.cnt F.rcache_hits).respond f (5 + 0x0E) 0 (fPay e.frame)).answered ((v.rxS (streamKey (fSrc f) (fMould f))).dup (fSeq f)) f false
      ∧ u.sram = s.sram ∧ u.gddr = s.gddr ∧ u.cxl = s.cxl ∧ u.owners = s.owners ∧ u.vers = s.vers)
  ∧ (∀ (s v : State) (p : Nat) (f : Bytes) (e : Reply), s.takesRequest v p 7 f →
    v.fab.cache.find? (fun e => e.key = replyKey f) = some e →
    ∃ u : State, exec (.ownReq p) s = .next u.settle
      ∧ u = ((v.cnt F.rcache_hits).respond f (7 + 0x0E) 0 (fPay e.frame)).answered ((v.rxS (streamKey (fSrc f) (fMould f))).dup (fSeq f)) f false
      ∧ u.sram = s.sram ∧ u.gddr = s.gddr ∧ u.cxl = s.cxl ∧ u.owners = s.owners ∧ u.vers = s.vers)
  ∧ (∀ (s v : State) (p op : Nat) (f : Bytes), s.live = true → p ≤ 12 →
    (classHeads (s.inbox p)).find? (fun g => fDst g = s.devId && (!memoryOps.contains (fOp g) && !(0x20 ≤ fOp g && fOp g < 0x26) && fOp g ≠ 0x50 && fOp g ≠ 0x51))
      = some f → v = s.unbox p f true → v.inPool = true → fEpoch f = v.rd F.fabEpoch_value → op = fOp f →
    ∃ u : State, exec (.unknownOpcodeFrameRx p) s = .next u.settle ∧ u.inbox p = (s.inbox p).erase f
      ∧ u.rd F.fabStat_malformed = satAdd 16 (s.rd F.fabStat_malformed) 1 ∧ u.sram = s.sram ∧ u.gddr = s.gddr ∧ u.cxl = s.cxl ∧ u.clus = s.clus
      ∧ u = { s with csr := u.csr, free := u.free, log := u.log, fab := u.fab, egr := u.egr, tim := u.tim, health := u.health })
  ∧ (∀ (s : State) (dt dev m : Nat), s.live = true → m < 64 → (s.rxS (streamKey dev m)).adv ≠ 0 →
    (s.rxS (streamKey dev m)).advAt + 2000 ≤ s.clk.up + dt →
    ∃ u : State, exec (.ackDelayExpiry dt dev m) s = .next u.settle ∧ u = (s.pass dt).sendAck dev m ∧ (u.rxS (streamKey dev m)).adv = 0
      ∧ u = { s.pass dt with csr := u.csr, free := u.free, log := u.log, fab := u.fab, egr := u.egr })

/-- A response that answers an operation a thread waits for ends it: its slot and its record are free, the thread is ready, and its register holds the value (eight of them and the version for a 64-byte load). A refusal ends it with its code in ST; BUSY to an atomic or ownership request is counted and the operation goes on; the refusal of a store is the failure of its fence. An acknowledgement covers every sequence up to its own and ends a store that is wholly covered; one that covers nothing is counted. A get's frame lands at its place; of another attempt it does nothing; when every granule has landed the get ends with its trailer behind the data. -/
def Obligations.AnswersAtTheRequester : Prop :=
  (∀ (s v : State) (p id : Nat) (f : Bytes) (o : ROp), s.takesAnswer v p 0x12 5 id f o → fStatus f = 0 → (fPay f).length ∈ [1, 2, 4, 8, 72] →
    o.sub = 0 →
    ∃ u : State, exec (.loadResp p) s = .next u.settle
      ∧ v.remoteEnded u id o (({ v.thread o.cluster o.thread with wait := .none } : ThreadSt).setReg o.rd
        (if o.tok = 1 then ofInt 64 (sext (8 * o.len) (leNat ((fPay f).take o.len))) else leNat ((fPay f).take o.len))))
  ∧ (∀ (s v : State) (p id : Nat) (f : Bytes) (o : ROp) (w : ThreadSt), s.takesAnswer v p 0x12 5 id f o → fStatus f = 0 → (fPay f).length = 72 →
    o.sub ≠ 0 → o.len = 64 → w = ((({ v.thread o.cluster o.thread with wait := .none } : ThreadSt).load64 o.rd ((fPay f).take 64)).code 0) →
    ∃ u : State, exec (.loadResp p) s = .next u.settle ∧ v.remoteEnded u id o { w with st := setBits w.st 16 32 (beAt (fPay f) 64 8) })
  ∧ (∀ (s v : State) (p id : Nat) (f : Bytes) (o : ROp), s.takesAnswer v p 0x13 7 id f o → fStatus f = 0 → (fPay f).length = 8 →
    ∃ u : State, exec (.atomicResp p) s = .next u.settle
      ∧ v.remoteEnded u id o ((({ v.thread o.cluster o.thread with wait := .none } : ThreadSt).setReg o.rd (leNat (fPay f).reverse)).code 0))
  ∧ (∀ (s v : State) (p id : Nat) (f : Bytes) (o : ROp), s.takesAnswer v p 0x14 8 id f o → fStatus f = 0 → (fPay f).length = 8 →
    beAt f 0x24 4 = 0 →
    ∃ u : State, exec (.vreadResp p) s = .next u.settle
      ∧ v.remoteEnded u id o ((({ v.thread o.cluster o.thread with wait := .none } : ThreadSt).setReg o.rd (leNat ((fPay f).take 4).reverse)).code 0))
  ∧ (∀ (s v : State) (p id : Nat) (f : Bytes) (o : ROp), s.takesAnswer v p 0x15 9 id f o → fStatus f = 0 → (fPay f).length = 8 →
    ∃ u : State, exec (.ownResp p) s = .next u.settle
      ∧ v.remoteEnded u id o ((({ v.thread o.cluster o.thread with wait := .none } : ThreadSt).setReg o.rd (leNat (fPay f).reverse)).code 0))
  ∧ (∀ (s v : State) (p kind id : Nat) (f : Bytes) (o : ROp), s.takesAnswer v p 0x19 kind id f o → (kind = 7 ∨ kind = 8 ∨ kind = 9) → fPay f = [] →
    v.outstanding (fSrc f) (fMould f) (fSeq f) (fun k => decide (3 ≤ k) && decide (k ≤ 9)) = some id → (v.thread o.cluster o.thread).fence = [] →
    fStatus f ≠ E.fabBusy → fStatus f ≠ 0 →
    ∃ u : State, exec (.nak p) s = .next u.settle
      ∧ v.remoteEnded u id o (({ v.thread o.cluster o.thread with wait := .none } : ThreadSt).code (fStatus f)))
  ∧ (∀ (s v : State) (p kind id : Nat) (f : Bytes) (o : ROp), s.takesAnswer v p 0x19 kind id f o → (kind = 7 ∨ kind = 9) → fPay f = [] →
    v.outstanding (fSrc f) (fMould f) (fSeq f) (fun k => decide (3 ≤ k) && decide (k ≤ 9)) = some id → fStatus f = E.fabBusy →
    ∃ u : State, exec (.nak p) s = .next u.settle ∧ u.rop id = { o with busy := o.busy + 1 } ∧ u = { v with fab := u.fab })
  ∧ (∀ (s v : State) (p id : Nat) (f : Bytes) (o : ROp), s.takesFrame v p 0x19 f → headerOk f 1 = true → fPay f = [] → fStatus f ≠ 0 →
    v.outstanding (fSrc f) (fMould f) (fSeq f) (fun k => decide (3 ≤ k) && decide (k ≤ 9)) = some id → o = s.rop id → o.kind = 6 → o.got = false →
    o.fail = 0 → o.left = [fSeq f] → o.len ≤ o.sent → o.mould < 64 → o.cluster < 96 → o.thread < 16 →
    v.isSlag o.mould o.ctx o.heat o.quenches = false → v.thrState o.cluster o.thread ≠ 0 →
    ∃ u : State, exec (.nak p) s = .next u.settle ∧ u.rop id = ROp.init ∧ u.rd F.fabSlots_used o.mould = v.rd F.fabSlots_used o.mould - 1
      ∧ u.rd F.thrStatus_remoteOut o.cluster o.thread = v.rd F.thrStatus_remoteOut o.cluster o.thread - 1
      ∧ (u.thread o.cluster o.thread).fenceErr
        = (if (v.thread o.cluster o.thread).fenceErr = 0 then fStatus f else (v.thread o.cluster o.thread).fenceErr)
      ∧ u = { v with csr := u.csr, clus := u.clus, fab := u.fab, log := u.log, free := u.free })
  ∧ (∀ (s v : State) (p k : Nat) (f : Bytes), s.takesFrame v p 0x18 f → headerOk f 1 = true → fPay f = [] → k = streamKey (fSrc f) (fMould f) →
    0 < sext 32 (fSeq f + 2 ^ 32 - (v.txS k).acked) → 0 ≤ sext 32 ((v.txS k).seq + 2 ^ 32 - fSeq f) →
    v.fab.ops.all (fun e => e.2.dev ≠ fSrc f || e.2.mould ≠ fMould f || (e.2.kind ≠ 3 && e.2.kind ≠ 6)) = true →
    v.fab.ops.all (fun e => v.rop e.1 = e.2) = true →
    ∃ u : State, exec (.ack p) s = .next u.settle
      ∧ u.txS k = { v.txS k with acked := fSeq f, out := (v.txS k).out.filter (fun e => decide (sext 32 (fSeq f + 2 ^ 32 - e.seq) < 0)) }
      ∧ (∀ j, j ≠ k → u.txS j = v.txS j) ∧ u.fab.ops = v.fab.ops ∧ u.fab.ports = v.fab.ports ∧ u = { v with fab := u.fab })
  ∧ (∀ (s v : State) (p k id : Nat) (f : Bytes) (o : ROp), s.takesFrame v p 0x18 f → headerOk f 1 = true → fPay f = [] →
    k = streamKey (fSrc f) (fMould f) → 0 < sext 32 (fSeq f + 2 ^ 32 - (v.txS k).acked) → 0 ≤ sext 32 ((v.txS k).seq + 2 ^ 32 - fSeq f) →
    v.fab.ops = [(id, o)] → o.kind = 6 → o.dev = fSrc f → o.mould = fMould f → o.got = false → o.fail = 0 → 0 < o.sends → o.left = [fSeq f] →
    o.len ≤ o.sent → o.cluster < 96 → o.thread < 16 → v.isSlag o.mould o.ctx o.heat o.quenches = false →
    ∃ u : State, exec (.ack p) s = .next u.settle ∧ u.rop id = ROp.init ∧ (u.txS k).acked = fSeq f
      ∧ u.rd F.fabSlots_used o.mould = v.rd F.fabSlots_used o.mould - 1
      ∧ u.rd F.thrStatus_remoteOut o.cluster o.thread = v.rd F.thrStatus_remoteOut o.cluster o.thread - 1
      ∧ RegsBut v u [regAddr .fabSlots o.mould 0, regAddr .thrStatus o.cluster o.thread] ∧ u = { v with csr := u.csr, fab := u.fab })
  ∧ (∀ (s v : State) (p : Nat) (f : Bytes), s.takesFrame v p 0x18 f → headerOk f 1 = true → fPay f = [] →
    sext 32 (fSeq f + 2 ^ 32 - (v.txS (streamKey (fSrc f) (fMould f))).acked) ≤ 0 →
    ∃ u : State, exec (.ack p) s = .next u.settle ∧ u.rd F.fabStat_orphan = satAdd 16 (v.rd F.fabStat_orphan) 1 ∧ u.fab.tx = v.fab.tx ∧ u.fab.ops = v.fab.ops
      ∧ u = { v with csr := u.csr, free := u.free, log := u.log, fab := u.fab, egr := u.egr, tim := u.tim, health := u.health })
  ∧ (∀ (s v q : State) (p id sub : Nat) (f d : Bytes) (o : ROp), s.takesFrame v p 0x11 f → headerOk f 1 = true → fStatus f = 0 →
    v.outstanding (fSrc f) (fMould f) (fSeq f) (fun k => k = 4) = some id → o = s.rop id → o.kind = 4 → o.got = false →
    v.isSlag o.mould o.ctx (fHeat f) o.quenches = false → fFlags f / 16 = o.attempt → d = (fPay f).drop 16 → sub = beAt f 0x20 4 →
    16 < (fPay f).length → (fPay f).length ≤ 4112 → d.length % 64 = 0 → sub % 64 = 0 → beAt f 0x2E 2 = 0 → sub + d.length ≤ o.len → o.landed = [] → d.length < o.len →
    q = v.writeMem o.mould (o.near + sub) d →
    ∃ u : State, exec (.getResp p) s = .next u.settle ∧ (u.rop id).landed = (List.range (d.length / 64)).map (fun g => g + sub / 64)
      ∧ (u.rop id).v0 = beAt f 0x24 4 ∧ (u.rop id).got = false ∧ u = { q with fab := u.fab })
  ∧ (∀ (s v q w : State) (p id code : Nat) (f d : Bytes) (o g : ROp), s.takesFrame v p 0x11 f → headerOk f 1 = true → fStatus f = 0 →
    v.outstanding (fSrc f) (fMould f) (fSeq f) (fun k => k = 4) = some id → o = s.rop id → o.kind = 4 → o.got = false → o.fail = 0 →
    o.thread = 16 → o.mould < 64 → v.isSlag o.mould o.ctx (fHeat f) o.quenches = false → fFlags f / 16 = o.attempt → d = (fPay f).drop 16 →
    beAt f 0x20 4 = 0 → 16 < (fPay f).length → (fPay f).length ≤ 4112 → d.length % 64 = 0 → beAt f 0x2E 2 = 0 → d.length = o.len → o.landed = [] →
    bit (fFlags f) 3 = true → q = v.writeMem o.mould o.near d → code = (if bit (beAt f 0x2C 2) 1 then E.fabTorn else 0) →
    g = { o with landed := List.range (d.length / 64), v0 := beAt f 0x24 4, v1 := beAt f 0x28 4, gflags := beAt f 0x2C 2 % 4 } →
    w = q.writeMem o.mould (o.near + o.len) (getTrailer g code) →
    ∃ u : State, exec (.getResp p) s = .next u.settle ∧ u.rop id = { g with got := true, fail := code, left := [] }
      ∧ u.rd F.fabSlots_used o.mould = v.rd F.fabSlots_used o.mould - 1 ∧ u.sram = w.sram ∧ u.gddr = w.gddr ∧ u.cxl = w.cxl ∧ u.xts = w.xts
      ∧ RegsBut q u [regAddr .fabSlots o.mould 0]
      ∧ u = { q with csr := u.csr, clus := u.clus, fab := u.fab, sram := u.sram, gddr := u.gddr, cxl := u.cxl, xts := u.xts, vers := u.vers })
  ∧ (∀ (s v : State) (p id : Nat) (f : Bytes) (o : ROp), s.takesFrame v p 0x11 f → headerOk f 1 = true →
    80 ≤ (fPay f).length → (fPay f).length ≤ 4112 → (fPay f).length % 64 = 16 → beAt f 0x20 4 % 64 = 0 → beAt f 0x2E 2 = 0 →
    v.outstanding (fSrc f) (fMould f) (fSeq f) (fun k => k = 4) = some id → o = s.rop id →
    v.isSlag o.mould o.ctx (fHeat f) o.quenches = false → fFlags f / 16 ≠ o.attempt →
    ∃ u : State, exec (.getResp p) s = .next u.settle ∧ u = v)

/-- A frame of a stream that is still out 100 µs after it was last sent is sent again with flags.resend, a get with its next attempt. An atomic or ownership request goes out again under its first sequence at most three times; 400 µs after its first send it ends with E_FAB_BUSY where every send was answered BUSY, and with E_FAB_OUTCOME_UNKNOWN and event 0x1107 otherwise. At the operation timeout an operation ends with E_FAB_TIMEOUT and event 0x1104: in ST, as an exception of cause 5 where it was a load, or in the transfer's record. -/
def Obligations.RemoteRetriesAndTimeouts : Prop :=
  (∀ (s w : State) (dt dev m seq k att : Nat) (e : TxFrame) (o : ROp) (f pay : Bytes), s.live = true → w = s.pass dt → k = streamKey dev m →
    (s.txS k).out.find? (fun e => e.seq = seq) = some e → o = s.rop e.op → e.at_ + 100000 ≤ s.clk.up + dt → o.got = false → o.kind ≠ 7 → o.kind ≠ 9 →
    att = (if o.kind = 4 then (o.attempt + 1) % 16 else o.attempt) →
    pay = (if o.kind = 3 then w.putPay o (beAt e.frame 0x2C 4) ((fPay e.frame).length - 16) else fPay e.frame) →
    f = w.newFrame dev m (fHeat e.frame) (fOp e.frame) ((fFlags e.frame % 16 ||| 1) + 16 * att) seq 0 0 pay →
    ∃ u : State, exec (.frameResendTimeout dt dev m seq) s = .next u.settle
      ∧ u.txS k = { s.txS k with out := (s.txS k).out.map (fun x => if x.seq = seq then { x with at_ := s.clk.up + dt, frame := f } else x) }
      ∧ u.rop e.op = { o with attempt := att, landed := if o.kind = 4 then [] else o.landed }
      ∧ u = { w with csr := u.csr, free := u.free, log := u.log, fab := u.fab, egr := u.egr })
  ∧ (∀ (s w : State) (dt id : Nat) (o : ROp) (f : Bytes), s.live = true → w = s.pass dt → o = s.rop id → (o.kind = 7 ∨ o.kind = 9) →
    o.got = false → o.sends < 4 → o.firstAt + 100000 * o.sends ≤ s.clk.up + dt →
    f = w.newFrame o.dev o.mould o.heat (if o.kind = 7 then 5 else 7) 13 o.first 0 0 o.args →
    ∃ u : State, exec (.atomicResend dt id) s = .next u.settle ∧ u = (w.setRop id { o with sends := o.sends + 1 }).dispatchFrame f 12 o.ctx
      ∧ (u.rop id).sends = o.sends + 1 ∧ u = { w with csr := u.csr, free := u.free, log := u.log, fab := u.fab, egr := u.egr })
  ∧ (∀ (s : State) (dt id : Nat) (o : ROp), s.live = true → o = s.rop id → (o.kind = 7 ∨ o.kind = 9) → o.got = false →
    o.firstAt + 400000 ≤ s.clk.up + dt → o.sends ≤ o.busy → o.fail = 0 → o.mould < 64 → o.cluster < 96 → o.thread < 16 →
    (s.thread o.cluster o.thread).wait = .remote id → (s.thread o.cluster o.thread).fence = [] →
    ∃ u : State, exec (.atomicGiveUp dt id) s = .next u.settle
      ∧ (s.pass dt).remoteEnded u id o (({ s.thread o.cluster o.thread with wait := .none } : ThreadSt).code E.fabBusy))
  ∧ (∀ (s : State) (dt id : Nat) (o : ROp), s.live = true → o = s.rop id → (o.kind = 7 ∨ o.kind = 9) → o.got = false →
    o.firstAt + 400000 ≤ s.clk.up + dt → o.busy < o.sends → o.fail = 0 → o.mould < 64 → o.cluster < 96 → o.thread < 16 →
    (s.thread o.cluster o.thread).wait = .remote id → (s.thread o.cluster o.thread).fence = [] → s.logRoom 1 →
    ∃ u : State, exec (.atomicGiveUp dt id) s = .next u.settle ∧ u.lastEvt = some (0x1107, srcEngine o.cluster 6, o.mould)
      ∧ ((s.pass dt).logWith 0x1107 (srcEngine o.cluster 6) o.mould (o.dev + o.first * 2 ^ 32)).remoteEnded u id o (({ s.thread o.cluster o.thread with wait := .none } : ThreadSt).code E.fabOutcomeUnknown))
  ∧ (∀ (s : State) (dt id : Nat) (o : ROp), s.live = true → o = s.rop id → (o.kind = 7 ∨ o.kind = 8 ∨ o.kind = 9) → o.got = false → 0 < o.sends →
    o.firstAt + 1000 * max 500 (s.rd F.fabCtrl_opTimeoutUs) ≤ s.clk.up + dt → o.mould < 64 → o.cluster < 96 → o.thread < 16 →
    s.isSlag o.mould o.ctx o.heat o.quenches = false →
    (s.thread o.cluster o.thread).wait = .remote id → (s.thread o.cluster o.thread).fence = [] → s.logRoom 1 →
    ∃ u : State, exec (.opTimeout dt id) s = .next u.settle ∧ u.lastEvt = some (0x1104, srcEngine o.cluster 6, o.mould)
      ∧ ((s.pass dt).logTimeout o).remoteEnded u id o (({ s.thread o.cluster o.thread with wait := .none } : ThreadSt).code E.fabTimeout))
  ∧ (∀ (s : State) (dt id : Nat) (o : ROp), s.live = true → o = s.rop id → o.kind = 5 → o.sub = 0 → o.got = false → 0 < o.sends →
    o.firstAt + 1000 * max 500 (s.rd F.fabCtrl_opTimeoutUs) ≤ s.clk.up + dt → o.mould < 64 → o.cluster < 96 → o.thread < 16 →
    s.isSlag o.mould o.ctx o.heat o.quenches = false → (s.thread o.cluster o.thread).wait = .remote id →
    s.mstate (s.rd F.thrStatus_mould o.cluster o.thread) ≠ 5 → s.flag F.thrStatus_ctxFault o.cluster o.thread = false →
    ∃ u : State, exec (.opTimeout dt id) s = .next u.settle ∧ u.thrState o.cluster o.thread = 5 ∧ u.rd F.thrStatus_cause o.cluster o.thread = 5
      ∧ u.rd F.thrFault_code o.cluster o.thread = E.fabTimeout ∧ u.rd F.thrFault_addr o.cluster o.thread = o.far % 2 ^ 48 ∧ u.rop id = ROp.init
      ∧ u.rd F.fabSlots_used o.mould = s.rd F.fabSlots_used o.mould - 1
      ∧ u = { s.pass dt with csr := u.csr, clus := u.clus, fab := u.fab, log := u.log, free := u.free })
  ∧ (∀ (s : State) (dt id : Nat) (o : ROp), s.live = true → o = s.rop id → o.kind = 3 → o.thread = 16 → o.got = false → 0 < o.sends →
    o.firstAt + 1000 * max 500 (s.rd F.fabCtrl_opTimeoutUs) ≤ s.clk.up + dt → o.mould < 64 → o.cluster < 96 →
    s.isSlag o.mould o.ctx o.heat o.quenches = false → s.logRoom 1 →
    ∃ u : State, exec (.opTimeout dt id) s = .next u.settle ∧ u.rop id = { o with got := true, fail := E.fabTimeout, left := [] }
      ∧ u.rd F.fabSlots_used o.mould = s.rd F.fabSlots_used o.mould - 1 ∧ u.lastEvt = some (0x1104, srcEngine o.cluster 7, o.mould)
      ∧ (u.txS (streamKey o.dev o.mould)).out = (s.txS (streamKey o.dev o.mould)).out.filter (fun e => decide (e.op ≠ id))
      ∧ RegsBut s u [regAddr .fabSlots o.mould 0] ∧ u = { s.pass dt with csr := u.csr, clus := u.clus, fab := u.fab, log := u.log })

/-- GROUP_SETUP of an entry the rules let in puts the group into SETUP at the lowest free index and answers its handle and the index. A HELLO that matches makes its sender known; the last one makes the group ACTIVE, grants its credits and ends the setup; one that does not match is counted and logged; an ACTIVE group answers with its own. The own HELLO goes out again every 1 ms, and after 100 ms the setup fails and the group is gone. GROUP_FREE of an idle group removes it, GROUP_RESET of an ABORTED one puts it into SETUP under the next generation. A group aborts at its timeout and at a COLL_ABORT; its own aborts go out three times, 100 µs apart. A frame of an earlier generation is only counted. -/
def Obligations.CollectiveGroups : Prop :=
  (∀ (s : State) (r : MReq) (rest : List MReq) (g i : Nat), s.serves 0x0030 r rest → s.groupAdmit r.body = 0 →
    (List.range 256).find? (fun g => s.rd F.collG_state g = 0) = some g → s.freeEntry = some i → 1 < (groupEntOf r.body).members.length →
    ∃ u : State, exec .groupSetup s = .next u.settle ∧ u.lastAnswer r = some (0, i + (s.mgmt.handleSeq + 1) % 2 ^ 24 * 256, toLe 2 g)
      ∧ u.op i = s.opBegun r i 8 1 (.group (leAt r.body 0 2)) ∧ u.mgmt.waiting = rest
      ∧ u.rd F.collG_state g = 1 ∧ u.rd F.collG_handle g = (groupEntOf r.body).handle ∧ u.rd F.collG_mould g = (groupEntOf r.body).mould
      ∧ u.rd F.collG_generation g = 0 ∧ u.rd F.collG_quota g = (groupEntOf r.body).quota % 2 ^ F.collG_quota.width
      ∧ u.grp g = { GroupSt.init with entry := r.body, setup := some i, setAt := s.clk.up, helloAt := s.clk.up }
      ∧ (∀ h, h ≠ g → u.grp h = s.grp h) ∧ RegsBut s u [regAddr .collG g 0] ∧ u = { s with csr := u.csr, groups := u.groups, mgmt := u.mgmt, out := u.out })
  ∧ (∀ (s : State) (r : MReq) (rest : List MReq) (g : Nat), s.serves 0x0031 r rest → r.body.length = 2 → s.grpOf (leAt r.body 0 2) = some g →
    (s.grp g).cur = none → (s.grp g).setup = none →
    ∃ u : State, exec .groupFree s = .next u.settle ∧ s.answeredAs u r rest 0 0 [] ∧ u.reg .collG g 0 = 0 ∧ u.grp g = GroupSt.init
      ∧ (∀ h, h ≠ g → u.grp h = s.grp h)
      ∧ u = { s with csr := u.csr, free := u.free, log := u.log, clus := u.clus, fab := u.fab, groups := u.groups, aborts := u.aborts, egr := u.egr, mgmt := u.mgmt, out := u.out })
  ∧ (∀ (s : State) (r : MReq) (rest : List MReq) (g : Nat), s.serves 0x0032 r rest → r.body.length = 2 → s.grpOf (leAt r.body 0 2) = some g →
    s.rd F.collG_state g = 3 → 1 < (s.grpEnt g).members.length →
    ∃ u : State, exec .groupReset s = .next u.settle ∧ s.answeredAs u r rest 0 0 [] ∧ u.rd F.collG_state g = 1
      ∧ u.rd F.collG_generation g = (s.rd F.collG_generation g + 1) % 2 ^ 16
      ∧ u.grp g = { s.grp g with opSeq := 0, hellos := [], helloAt := s.clk.up, setAt := s.clk.up, setup := none }
      ∧ (∀ h, h ≠ g → u.grp h = s.grp h) ∧ RegsBut s u [regAddr .collG g 0] ∧ u = { s with csr := u.csr, groups := u.groups, mgmt := u.mgmt, out := u.out })
  ∧ (∀ (s v : State) (p g i o : Nat) (f : Bytes), s.takesColl v p 0x20 g i f → cData f = helloDigest (v.grp g).entry → v.rd F.collG_state g = 1 →
    (v.others g).all (fun j => decide (j = i) || (v.grp g).hellos.contains j) = true → (v.grp g).setup = some o → o < 256 →
    ∃ u : State, exec (.collHello p) s = .next u.settle ∧ u.rd F.collG_state g = 2 ∧ (u.grp g).setup = none ∧ (u.op o).state = 2 ∧ (u.op o).status = 0
      ∧ ((v.grpEnt g).fastOk = false → ∀ j ∈ collFrom (v.grpEnt g).members.length (v.grpIdx g) false,
        Tab.get 0 (u.grp g).credGive j = collGrant (v.grpEnt g).quota (v.grpEnt g).members.length (v.grpIdx g) j)
      ∧ u = { v with csr := u.csr, free := u.free, log := u.log, fab := u.fab, groups := u.groups, egr := u.egr, mgmt := u.mgmt, out := u.out })
  ∧ (∀ (s v : State) (p g i j : Nat) (f : Bytes), s.takesColl v p 0x20 g i f → cData f = helloDigest (v.grp g).entry → v.rd F.collG_state g = 1 →
    (v.others g).contains j = true → j ≠ i → (v.grp g).hellos.contains j = false →
    ∃ u : State, exec (.collHello p) s = .next u.settle
      ∧ u.grp g = { v.grp g with hellos := if (v.grp g).hellos.contains i then (v.grp g).hellos else i :: (v.grp g).hellos }
      ∧ (∀ h, h ≠ g → u.grp h = v.grp h) ∧ u = { v with groups := u.groups })
  ∧ (∀ (s v : State) (p g i : Nat) (f : Bytes), s.takesColl v p 0x20 g i f → cData f ≠ helloDigest (v.grp g).entry → v.logRoom 1 →
    ∃ u : State, exec (.collHello p) s = .next u.settle ∧ u.rd F.collStat_mismatch = satAdd 16 (v.rd F.collStat_mismatch) 1
      ∧ u.lastEvt = some (0x1202, 0x0003, fMould f) ∧ RegsBut v u [regAddr .collStat 0 0] ∧ u = { v with csr := u.csr, log := u.log })
  ∧ (∀ (s v : State) (p g i : Nat) (f : Bytes), s.takesColl v p 0x20 g i f → cData f = helloDigest (v.grp g).entry → v.rd F.collG_state g = 2 →
    ∃ u : State, exec (.collHello p) s = .next u.settle ∧ u = v.sendHello g i ∧ u.groups = v.groups
      ∧ u = { v with csr := u.csr, free := u.free, log := u.log, fab := u.fab, egr := u.egr })
  ∧ (∀ (s v : State) (p g i : Nat) (f : Bytes), s.takesFrame v p 0x20 f → collOk f 0x20 = true →
    v.groupIdx.find? (fun g => v.rd F.collG_handle g = cHandle f && v.rd F.collG_mould g = fMould f) = some g →
    (v.grpEnt g).members.findIdx? (· = fSrc f) = some i → sext 16 (cGen f + 2 ^ 16 - v.rd F.collG_generation g) < 0 →
    ∃ u : State, exec (.collHello p) s = .next u.settle ∧ u.rd F.collStat_stale = satAdd 16 (v.rd F.collStat_stale) 1
      ∧ RegsBut v u [regAddr .collStat 0 0] ∧ u = { v with csr := u.csr })
  ∧ (∀ (s : State) (dt g : Nat), s.live = true → g < 256 → s.rd F.collG_state g = 1 → (s.grp g).helloAt + 1000000 ≤ s.clk.up + dt →
    ∃ u : State, exec (.collHelloTimer dt g) s = .next u.settle ∧ u.grp g = { s.grp g with helloAt := s.clk.up + dt } ∧ u.rd F.collG_state g = 1
      ∧ (∀ h, h ≠ g → u.grp h = s.grp h)
      ∧ u = (s.others g).foldl (fun (w : State) j => w.sendHello g j) ((s.pass dt).setGrp g { s.grp g with helloAt := s.clk.up + dt })
      ∧ u = { s.pass dt with csr := u.csr, free := u.free, log := u.log, fab := u.fab, groups := u.groups, egr := u.egr })
  ∧ (∀ (s : State) (dt g o : Nat), s.live = true → g < 256 → s.rd F.collG_state g = 1 → (s.grp g).setup = some o → o < 256 →
    (s.grp g).setAt + 100000000 ≤ s.clk.up + dt →
    ∃ u : State, exec (.collSetupTimeout dt g) s = .next u.settle ∧ u.reg .collG g 0 = 0 ∧ u.grp g = GroupSt.init
      ∧ (u.op o).state = 3 ∧ (u.op o).status = E.collSetupTimeout ∧ (∀ h, h ≠ g → u.grp h = s.grp h)
      ∧ RegsBut s u [regAddr .collG g 0, regAddr .collSlow g 0]
      ∧ u = { s.pass dt with csr := u.csr, clus := u.clus, fab := u.fab, groups := u.groups, mgmt := u.mgmt, out := u.out })
  ∧ (∀ (s : State) (dt g : Nat) (c : CollOp), s.live = true → g < 256 → (s.rd F.collG_state g = 1 ∨ s.rd F.collG_state g = 2) →
    (s.grp g).cur = some c → c.beganAt + 1000 * (s.grpEnt g).timeoutUs ≤ s.clk.up + dt →
    ∃ u : State, exec (.collOpTimeout dt g) s = .next u.settle ∧ (s.pass dt).collAborted u g E.collTimeout c)
  ∧ (∀ (s v : State) (p g i : Nat) (f : Bytes) (c : CollOp), s.takesColl v p 0x25 g i f → (v.rd F.collG_state g = 1 ∨ v.rd F.collG_state g = 2) →
    (v.grp g).cur = some c →
    ∃ u : State, exec (.collAbort p) s = .next u.settle ∧ v.collAborted u g (fStatus f) c)
  ∧ (∀ (s : State) (dt : Nat), s.live = true →
    ∃ u : State, exec (.collAbortResend dt) s = .next u.settle
      ∧ u.aborts = s.aborts.filterMap (fun a => if a.at_ ≤ s.clk.up + dt then (if a.left ≤ 1 then none else some { a with left := a.left - 1, at_ := a.at_ + 100000 }) else some a)
      ∧ (s.aborts.all (fun a => decide (s.clk.up + dt < a.at_)) = true → u = s.pass dt)
      ∧ u = { s.pass dt with csr := u.csr, free := u.free, log := u.log, fab := u.fab, aborts := u.aborts, egr := u.egr })

/-- A partial that comes before the own operation begins is kept in a slot; the last member of the chain that is the root of a reduction adds it to its own contribution, rounds once, writes the result, frees the slot and ends its transfer. A duplicate is only counted, a partial that disagrees aborts the group, and so does a residue check that fails twice. A result lands at its offset and is reported back; data of a broadcast lands, and waits where the operation has not begun here. Credits are cumulative: the later value counts. A waiting piece goes out once its bytes fit. -/
def Obligations.CollectiveData : Prop :=
  (∀ (s v : State) (p g i : Nat) (f : Bytes), s.takesColl v p 0x21 g i f → opReduces (v.grpEnt g).op = true →
    (collFrom (v.grpEnt g).members.length (v.grpIdx g) (bit (cStage f) 4)).contains i = true → v.rd F.collG_state g ≠ 3 →
    (v.grp g).taken.contains (takenKey i f) = false → (v.grp g).cur = none → 0 ≤ sext 32 (fSeq f + 2 ^ 32 - (v.grp g).opSeq) → (v.grp g).slots = [] →
    ∃ u : State, exec (.collPart p false false) s = .next u.settle
      ∧ u.grp g = { v.grp g with
        taken := takenKey i f :: (v.grp g).taken,
        slots := [⟨i, fSeq f, cChunk f, bit (cStage f) 4, cLen f, [(cPart f, cData f)],
          decide (partialBytes (v.grpEnt g).dtype (64 * cLen f) (cChunk f) ≤ (cData f).length), false, beAt f 0x14 4, cLate f⟩] }
      ∧ (∀ h, h ≠ g → u.grp h = v.grp h) ∧ u = { v with groups := u.groups })
  ∧ (∀ (s v w : State) (p g i : Nat) (f res : Bytes) (e : GroupEnt) (c : CollOp), s.takesColl v p 0x21 g i f → e = v.grpEnt g → e.op = 4 →
    e.root = v.grpIdx g → (v.grp g).cur = some c → c.fast = false → bit (cStage f) 4 = false → fSeq f = c.seq → cLen f = c.len / 64 →
    collFrom e.members.length (v.grpIdx g) false = [i] → collNext e.members.length (v.grpIdx g) false = none →
    v.rd F.collG_state g ≠ 3 → (v.grp g).taken.contains (takenKey i f) = false → (v.grp g).slots = [] → (v.grp g).outq = [] →
    cChunk f = 0 → c.summed = [] → c.landed = [] → c.prefix_ = 0 → c.tokEn = false → 0 < c.len → c.len ≤ chunkIn e.dtype →
    partialBytes e.dtype (64 * cLen f) 0 ≤ (cData f).length →
    res = narrowBytes e.dtype (stepBytes e.dtype e.rop (cData f) (widenBytes e.dtype (v.readMem e.mould c.src c.len))) → res.length = c.len →
    w = v.writeMem e.mould c.dst res →
    ∃ u : State, exec (.collPart p false false) s = .next u.settle ∧ u.sram = w.sram ∧ u.gddr = w.gddr ∧ u.cxl = w.cxl
      ∧ (u.grp g).cur = none ∧ (u.grp g).slots = [] ∧ (u.rop c.opId).got = true ∧ (u.rop c.opId).fail = 0
      ∧ Tab.get 0 (u.grp g).credGive i = (Tab.get 0 (v.grp g).credGive i + 1) % 2 ^ 32
      ∧ u = { w with csr := u.csr, free := u.free, log := u.log, fab := u.fab, groups := u.groups, egr := u.egr })
  ∧ (∀ (s v : State) (p g i : Nat) (f : Bytes) (retry fail : Bool), s.takesColl v p 0x21 g i f → opReduces (v.grpEnt g).op = true →
    (collFrom (v.grpEnt g).members.length (v.grpIdx g) (bit (cStage f) 4)).contains i = true → v.rd F.collG_state g ≠ 3 →
    (v.grp g).taken.contains (takenKey i f) = true →
    ∃ u : State, exec (.collPart p retry fail) s = .next u.settle ∧ u.rd F.collStat_dup = satAdd 16 (v.rd F.collStat_dup) 1
      ∧ RegsBut v u [regAddr .collStat 0 0] ∧ u = { v with csr := u.csr })
  ∧ (∀ (s v : State) (p g i : Nat) (f : Bytes) (retry fail : Bool) (c : CollOp), s.takesColl v p 0x21 g i f → opReduces (v.grpEnt g).op = true →
    (collFrom (v.grpEnt g).members.length (v.grpIdx g) (bit (cStage f) 4)).contains i = true →
    (v.rd F.collG_state g = 1 ∨ v.rd F.collG_state g = 2) → (v.grp g).taken.contains (takenKey i f) = false → (v.grp g).cur = some c →
    fSeq f = c.seq → (c.len / 64 ≠ cLen f ∨ c.fast ≠ bit (cStage f) 4) →
    ∃ u : State, exec (.collPart p retry fail) s = .next u.settle ∧ v.collAborted u g E.collMismatch c)
  ∧ (∀ (s v : State) (p g i : Nat) (f : Bytes) (retry : Bool) (c : CollOp), s.takesColl v p 0x21 g i f → opReduces (v.grpEnt g).op = true →
    (collFrom (v.grpEnt g).members.length (v.grpIdx g) (bit (cStage f) 4)).contains i = true →
    (v.rd F.collG_state g = 1 ∨ v.rd F.collG_state g = 2) → (v.grp g).taken.contains (takenKey i f) = false → (v.grp g).cur = some c →
    fSeq f = c.seq → cLen f = c.len / 64 → bit (cStage f) 4 = c.fast → (v.grp g).slots = [] →
    partialBytes (v.grpEnt g).dtype (64 * cLen f) (cChunk f) ≤ (cData f).length →
    ∃ u : State, exec (.collPart p retry true) s = .next u.settle ∧ u.rd F.collRes_fail = satAdd 16 (v.rd F.collRes_fail) 1
      ∧ u.rd F.collRes_retry = satAdd 32 (v.rd F.collRes_retry) 1 ∧ u.rd F.collG_state g = 3 ∧ (u.grp g).cur = none ∧ (u.grp g).slots = []
      ∧ (u.rop c.opId).got = true ∧ (u.rop c.opId).fail = E.collResidue
      ∧ u = { v with csr := u.csr, free := u.free, log := u.log, clus := u.clus, fab := u.fab, groups := u.groups, aborts := u.aborts, egr := u.egr, health := u.health })
  ∧ (∀ (s v w : State) (p g i : Nat) (f : Bytes) (e : GroupEnt) (c : CollOp), s.takesColl v p 0x22 g i f → e = v.grpEnt g → e.op = 0 →
    v.grpIdx g = 0 → (v.grp g).cur = some c → c.fast = false → bit (cStage f) 4 = false → fSeq f = c.seq → cLen f = c.len / 64 →
    v.rd F.collG_state g ≠ 3 → (v.grp g).taken.contains (takenKey i f) = false → c.tokEn = false →
    cChunk f * chunkIn e.dtype + 4096 * cPart f + (cData f).length ≤ c.len → c.summed = [] → 0 < c.len →
    w = v.writeMem e.mould (c.dst + (cChunk f * chunkIn e.dtype + 4096 * cPart f)) (cData f) →
    ∃ u : State, exec (.collResult p) s = .next u.settle ∧ u.sram = w.sram ∧ u.gddr = w.gddr ∧ u.cxl = w.cxl
      ∧ Tab.get 0 (u.grp g).landGive i = (Tab.get 0 (v.grp g).landGive i + (cData f).length) % 2 ^ 64
      ∧ (u.grp g).outq = (v.grp g).outq ∧ (u.grp g).taken = takenKey i f :: (v.grp g).taken
      ∧ u = { w with csr := u.csr, free := u.free, log := u.log, fab := u.fab, groups := u.groups, egr := u.egr })
  ∧ (∀ (s v w : State) (p g i : Nat) (f : Bytes) (e : GroupEnt) (c : CollOp), s.takesColl v p 0x24 g i f → e = v.grpEnt g → e.op = 3 →
    i = e.root → cLate f = i → (v.grp g).cur = some c → bit (cStage f) 4 = c.fast → fSeq f = c.seq → cLen f = c.len / 64 →
    v.rd F.collG_state g ≠ 3 → (v.grp g).taken.contains (takenKey i f) = false → c.tokEn = false →
    cChunk f * 16384 + 4096 * cPart f + (cData f).length ≤ c.len →
    w = v.writeMem e.mould (c.dst + (cChunk f * 16384 + 4096 * cPart f)) (cData f) →
    ∃ u : State, exec (.collData p) s = .next u.settle ∧ u.sram = w.sram ∧ u.gddr = w.gddr ∧ u.cxl = w.cxl
      ∧ Tab.get 0 (u.grp g).landGive i = (Tab.get 0 (v.grp g).landGive i + (cData f).length) % 2 ^ 64
      ∧ u = { w with csr := u.csr, free := u.free, log := u.log, fab := u.fab, groups := u.groups, egr := u.egr })
  ∧ (∀ (s v : State) (p g i : Nat) (f : Bytes), s.takesColl v p 0x24 g i f → opReduces (v.grpEnt g).op = false →
    ((v.grpEnt g).op = 3 → i = (v.grpEnt g).root) → cLate f = i → (v.grp g).cur = none → 0 ≤ sext 32 (fSeq f + 2 ^ 32 - (v.grp g).opSeq) →
    v.rd F.collG_state g ≠ 3 → (v.grp g).taken.contains (takenKey i f) = false →
    ∃ u : State, exec (.collData p) s = .next u.settle
      ∧ u.grp g = { v.grp g with taken := takenKey i f :: (v.grp g).taken, early := (v.grp g).early ++ [f] }
      ∧ (∀ h, h ≠ g → u.grp h = v.grp h) ∧ u = { v with groups := u.groups })
  ∧ (∀ (s v : State) (p g i : Nat) (f : Bytes), s.takesColl v p 0x23 g i f → v.rd F.collG_state g ≠ 3 → (v.grp g).slots = [] →
    ∃ u : State, exec (.collCredit p) s = .next u.settle
      ∧ Tab.get 0 (u.grp g).credHave i = (if 0 < sext 32 (beAt f 0x30 4 + 2 ^ 32 - Tab.get 0 (v.grp g).credHave i) then beAt f 0x30 4 else Tab.get 0 (v.grp g).credHave i)
      ∧ Tab.get 0 (u.grp g).landHave i = (if 0 < sext 64 (beAt f 0x34 8 + 2 ^ 64 - Tab.get 0 (v.grp g).landHave i) then beAt f 0x34 8 else Tab.get 0 (v.grp g).landHave i)
      ∧ u.grp g = { v.grp g with credHave := (u.grp g).credHave, landHave := (u.grp g).landHave }
      ∧ (∀ h, h ≠ g → u.grp h = v.grp h) ∧ u = { v with groups := u.groups })
  ∧ (∀ (s : State) (g : Nat) (q : CollSend), s.live = true → g < 256 → s.rd F.collG_state g = 2 → (s.grp g).outq = [q] → q.stage = 3 →
    (s.grp g).inFlight + (if q.data.isEmpty then q.n else q.data.length) ≤ 16384 * (s.grpEnt g).quota → (s.grp g).cur = none →
    ∃ u : State, exec (.collChunkSend g) s = .next u.settle ∧ (u.grp g).outq = []
      ∧ Tab.get 0 (u.grp g).landUsed q.dst = Tab.get 0 (s.grp g).landUsed q.dst + (if q.data.isEmpty then q.n else q.data.length)
      ∧ u = { s with csr := u.csr, free := u.free, log := u.log, fab := u.fab, groups := u.groups, egr := u.egr })
  ∧ (∀ (s : State) (g : Nat) (q : CollSend), s.live = true → g < 256 → s.rd F.collG_state g = 2 → (s.grp g).outq = [q] → q.stage = 1 →
    Tab.get 0 (s.grp g).credHave q.dst ≤ Tab.get 0 (s.grp g).credUsed q.dst → (s.grp g).cur = none →
    ∃ u : State, exec (.collChunkSend g) s = .next u.settle ∧ u = s)

/-- TIME_INCR takes effect only while the source is software. A source that is available is selected: the unit goes to its state for it, logged; any other leaves everything as it is. TIME_SET steps the time, logged, while no radio mould is RUNNING, and is refused while one is. A read of the time gives the time that the ticks since have counted, each of the increment, and latches its fraction; a read of a capture FIFO takes its oldest stamp. A pin edge is stamped while the FIFO has room, a full FIFO overflows with event 0x1304. An arm that passes the checks arms its pin, any other is refused with event 0x1308; an armed pin pulses at its instant and at every period after. PPS_OUT pulses at a whole second, within two ticks of it, in LOCKED, HOLDOVER or with pps_free. -/
def Obligations.TimeControlCapturesAndTriggers : Prop :=
  (∀ (s : State) (v : Nat), s.live = true → s.rd F.timeCtrl_src = 0 →
    ∃ u : State, exec (.timeIncrWrite v) s = .next u.settle ∧ u.rd F.timeIncr_incr = v % 2 ^ 48
      ∧ u.rd F.timeStatus_freqOffset = ofInt 16 (satInt 16 ((((v % 2 ^ 48 : Nat) : Int) - (nominalIncr : Int)) * 64000000 / (nominalIncr : Int)))
      ∧ RegsBut s u [regAddr .timeIncr 0 0, regAddr .timeStatus 0 0] ∧ u = { s with csr := u.csr, tim := { s.tim with hist := u.tim.hist } })
  ∧ (∀ (s : State) (v : Nat), s.live = true → s.rd F.timeCtrl_src ≠ 0 → ∃ u : State, exec (.timeIncrWrite v) s = .next u.settle ∧ u = s)
  ∧ (∀ (s : State) (v : Nat), s.live = true → s.srcAvailable (bitsOf v 0 2) (bitsOf v 2 5) = true →
    (bitsOf v 0 2 ≠ s.rd F.timeCtrl_src ∨ (bitsOf v 0 2 = 1 ∧ bitsOf v 2 5 ≠ s.rd F.timeCtrl_ptpPort)) → s.logRoom 1 →
    ∃ u : State, exec (.timeCtrlWrite v) s = .next u.settle ∧ u.reg .timeCtrl 0 0 = v % 2 ^ 18
      ∧ u.rd F.timeStatus_state = (if bitsOf v 0 2 = 0 then 0 else 1) ∧ u.tim.measAt = s.clk.up ∧ u.tim.offs = []
      ∧ (s.rd F.timeStatus_state ≠ (if bitsOf v 0 2 = 0 then 0 else 1) → u.lastEvt = some (0x1301, 0x0080, 0xFF))
      ∧ RegsBut s u [regAddr .timeCtrl 0 0, regAddr .timeStatus 0 0] ∧ u = { s with csr := u.csr, log := u.log, tim := u.tim })
  ∧ (∀ (s : State) (v : Nat), s.live = true → s.srcAvailable (bitsOf v 0 2) (bitsOf v 2 5) = false →
    ∃ u : State, exec (.timeCtrlWrite v) s = .next u.settle ∧ u = s)
  ∧ (∀ (s : State) (r : MReq) (rest : List MReq), s.serves 0x0048 r rest → r.body.length = 12 → s.radioRuns = false → s.logRoom 1 →
    (List.range 4).all (fun c => !s.flag F.timeTrigCfg_armed c || decide (leAt r.body 0 8 < Tab.get 0 s.tim.trigAt c)) = true →
    ∃ u : State, exec .timeSet s = .next u.settle ∧ s.answeredAs u r rest 0 0 [] ∧ u.clk = { s.clk with ns := leAt r.body 0 8, frac := leAt r.body 8 4, hid := 0 }
      ∧ u.lastEvt = some (0x1302, 0x0080, 0xFF) ∧ u = { s with clk := u.clk, log := u.log, mgmt := u.mgmt, out := u.out })
  ∧ (∀ (s : State) (r : MReq) (rest : List MReq), s.serves 0x0048 r rest → r.body.length = 12 → s.radioRuns = true →
    ∃ u : State, exec .timeSet s = .next u.settle ∧ s.answeredAs u r rest E.timeRadio 0 [] ∧ u = { s with mgmt := u.mgmt, out := u.out })
  ∧ (∀ (s : State) (dt : Nat), s.live = true →
    ∃ u : State, exec (.timeNowNsRead dt) s = .next u.settle ∧ u.clk.up = s.clk.up + dt
      ∧ u.clk.ns = (2 ^ 48 * s.clk.ns + 2 ^ 16 * s.clk.frac + s.clk.hid + unitTicks s.clk.up dt * s.rd F.timeIncr_incr) / 2 ^ 48 % 2 ^ 64
      ∧ u.rd F.timeNowFrac_value = (2 ^ 48 * s.clk.ns + 2 ^ 16 * s.clk.frac + s.clk.hid + unitTicks s.clk.up dt * s.rd F.timeIncr_incr) / 2 ^ 16 % 2 ^ 32
      ∧ RegsBut s u [regAddr .timeNowFrac 0 0] ∧ u = { s.pass dt with csr := u.csr })
  ∧ (∀ (s : State) (c n f : Nat) (r : List (Nat × Nat)), s.live = true → c < 5 → Tab.get [] s.tim.fifo c = (n, f) :: r →
    ∃ u : State, exec (.timeCapNsRead c) s = .next u.settle ∧ Tab.get [] u.tim.fifo c = r ∧ u.rd F.timeCapFrac_frac c = f % 2 ^ 32
      ∧ RegsBut s u [regAddr .timeCapFrac c 0] ∧ u = { s with csr := u.csr, tim := { s.tim with fifo := u.tim.fifo } })
  ∧ (∀ (s : State) (c : Nat), s.live = true → Tab.get [] s.tim.fifo c = [] → ∃ u : State, exec (.timeCapNsRead c) s = .next u.settle ∧ u = s)
  ∧ (∀ (s : State) (dt c : Nat), s.live = true → c < 4 → s.tim.edges.any (fun e => decide (e.1 = c) && decide (s.clk.up + dt < e.2 + 1000)) = false →
    (Tab.get [] s.tim.fifo c).length < 16 →
    ∃ u : State, exec (.tsCapEdge dt c) s = .next u.settle ∧ Tab.get [] u.tim.fifo c = Tab.get [] s.tim.fifo c ++ [((s.pass dt).clk.ns, (s.pass dt).clk.frac)]
      ∧ u = { s.pass dt with tim := { s.tim with fifo := u.tim.fifo, edges := u.tim.edges } })
  ∧ (∀ (s : State) (dt c : Nat), s.live = true → c < 4 → s.tim.edges.any (fun e => decide (e.1 = c) && decide (s.clk.up + dt < e.2 + 1000)) = false →
    16 ≤ (Tab.get [] s.tim.fifo c).length → s.logRoom 1 →
    ∃ u : State, exec (.tsCapEdge dt c) s = .next u.settle ∧ u.rd F.timeCapFrac_overflow c = 1 ∧ u.lastEvt = some (0x1304, 0x0080, 0xFF)
      ∧ RegsBut s u [regAddr .timeCapFrac c 0] ∧ u = { s.pass dt with csr := u.csr, log := u.log, tim := { s.tim with edges := u.tim.edges } })
  ∧ (∀ (s : State) (dt : Nat), s.live = true → s.tim.edges.any (fun e => decide (e.1 = 4) && decide (s.clk.up + dt < e.2 + 1000)) = false →
    (Tab.get [] s.tim.fifo 4).length < 16 → s.rd F.timeCtrl_src ≠ 3 →
    ∃ u : State, exec (.ppsInEdge dt) s = .next u.settle ∧ Tab.get [] u.tim.fifo 4 = Tab.get [] s.tim.fifo 4 ++ [((s.pass dt).clk.ns, (s.pass dt).clk.frac)]
      ∧ u = { s.pass dt with tim := { s.tim with fifo := u.tim.fifo, edges := u.tim.edges } })
  ∧ (∀ (s : State) (dt : Nat), s.live = true → s.rd F.timeCtrl_src = 3 → (s.pass dt).clk.ns % 1000000000 < 500000000 →
    ∃ u : State, exec (.ppsInEdge dt) s = .next u.settle ∧ u.tim.measAt = s.clk.up + dt
      ∧ u.rd F.timeStatus_offsetNs = (s.pass dt).clk.ns % 1000000000
      ∧ u = { s.pass dt with csr := u.csr, log := u.log, tim := u.tim, clk := u.clk, free := u.free })
  ∧ (∀ (s : State) (dt : Nat), s.live = true → (s.pass dt).clk.ns % 1000000000 < 2 →
    (s.rd F.timeStatus_state = 2 ∨ s.rd F.timeStatus_state = 3 ∨ s.flag F.timeCtrl_ppsFree = true) →
    ∃ u : State, exec (.ppsOutPulse dt) s = .next u.settle
      ∧ u = { s.pass dt with out := s.out ++ [.pulse 4 ((s.pass dt).clk.ns / 1000000000 * 1000000000) (1000 * max 1 (s.rd F.ppsCfg_widthUs))] })
  ∧ (∀ (s : State) (c v : Nat), s.live = true → c < 4 → bit v 52 = true → 10 ≤ bitsOf v 32 20 → bitsOf v 32 20 ≤ 1000000 →
    (bitsOf v 0 32 = 0 ∨ bitsOf v 32 20 < bitsOf v 0 32) →
    0 < sext 32 (s.rd F.timeTrigStart_startNs c % 2 ^ 32 + 2 ^ 32 - s.clk.ns % 2 ^ 32) →
    ∃ u : State, exec (.trigArm c v) s = .next u.settle ∧ u.rd F.timeTrigCfg_armed c = 1 ∧ u.rd F.timeTrigCfg_refused c = 0
      ∧ u.rd F.timeTrigCfg_periodNs c = bitsOf v 0 32 ∧ u.rd F.timeTrigCfg_widthNs c = bitsOf v 32 20
      ∧ Tab.get 0 u.tim.trigAt c = s.rd F.timeTrigStart_startNs c ∧ RegsBut s u [regAddr .timeTrigCfg c 0]
      ∧ u = { s with csr := u.csr, tim := { s.tim with trigAt := u.tim.trigAt } })
  ∧ (∀ (s : State) (c v : Nat), s.live = true → c < 4 → bit v 52 = true → (bitsOf v 32 20 < 10 ∨ 1000000 < bitsOf v 32 20
      ∨ (bitsOf v 0 32 ≠ 0 ∧ bitsOf v 0 32 ≤ bitsOf v 32 20) ∨ sext 32 (s.rd F.timeTrigStart_startNs c % 2 ^ 32 + 2 ^ 32 - s.clk.ns % 2 ^ 32) ≤ 0) →
    s.logRoom 1 →
    ∃ u : State, exec (.trigArm c v) s = .next u.settle ∧ u.rd F.timeTrigCfg_armed c = 0 ∧ u.rd F.timeTrigCfg_refused c = 1
      ∧ u.lastEvt = some (0x1308, 0x0080, 0xFF) ∧ RegsBut s u [regAddr .timeTrigCfg c 0] ∧ u = { s with csr := u.csr, log := u.log })
  ∧ (∀ (s : State) (dt c : Nat), s.live = true → c < 4 → s.flag F.timeTrigCfg_armed c = true → Tab.get 0 s.tim.trigAt c ≤ (s.pass dt).clk.ns →
    ∃ u : State, exec (.trigEdge dt c) s = .next u.settle ∧ u.out = s.out ++ [.pulse c (Tab.get 0 s.tim.trigAt c) (s.rd F.timeTrigCfg_widthNs c)]
      ∧ u.rd F.timeTrigCfg_armed c = (if s.rd F.timeTrigCfg_periodNs c = 0 then 0 else 1)
      ∧ (s.rd F.timeTrigCfg_periodNs c ≠ 0 → Tab.get 0 u.tim.trigAt c = Tab.get 0 s.tim.trigAt c + s.rd F.timeTrigCfg_periodNs c)
      ∧ RegsBut s u [regAddr .timeTrigCfg c 0] ∧ u = { s.pass dt with csr := u.csr, tim := { s.tim with trigAt := u.tim.trigAt }, out := u.out })

/-- PTP_CONFIG holds the port data sets that PTP_STATUS answers. An event message is stamped on arrival and on sending, and goes to its sub-port's PTP queue; an ESMC message goes to the ESMC queue. ESMC on the SyncE lane renews its quality; none for 5 s puts the equipment clock into holdover with event 0x1303. Without a measurement for its limit a LOCKED unit enters HOLDOVER. A time word carries the next number, the last one heard and the time; a bad one is counted; a good one of the upstream port gives an offset to the mean. -/
def Obligations.TimeSources : Prop :=
  (∀ (s : State) (r : MReq) (rest : List MReq), s.serves 0x0049 r rest →
    ∃ u : State, exec .ptpConfig s = .next u.settle ∧ s.answeredAs u r rest 0 0 [] ∧ u = { s with tim := { s.tim with ptp := r.body }, mgmt := u.mgmt, out := u.out })
  ∧ (∀ (s : State) (r : MReq) (rest : List MReq), s.serves 0x004A r rest → r.body = [] →
    ∃ u : State, exec .ptpStatus s = .next u.settle ∧ s.answeredAs u r rest 0 0 s.tim.ptp ∧ u = { s with mgmt := u.mgmt, out := u.out })
  ∧ (∀ (s : State) (dt sub ty q : Nat), s.live = true → 16 ≤ sub → sub < 48 → s.subUp sub = true → ty < 4 →
    ∃ u : State, exec (.ptpMessageRx dt sub ty q true none) s = .next u.settle
      ∧ u = { s.pass dt with tim := { s.tim with rxStamps := s.tim.rxStamps ++ [(sub, q % 2 ^ 16, (s.pass dt).clk.ns, (s.pass dt).clk.frac)] } })
  ∧ (∀ (s : State) (dt sub ty q : Nat) (o : Int), s.live = true → 16 ≤ sub → sub < 48 → s.subUp sub = true → s.rd F.timeCtrl_src = 1 →
    s.rd F.timeCtrl_ptpPort + 16 = sub → s.rd F.timeStatus_state = 1 → s.coreUp 2 = false → o.natAbs < 100 → s.logRoom 1 →
    ∃ u : State, exec (.ptpMessageRx dt sub ty q true (some o)) s = .next u.settle ∧ u.tim.measAt = s.clk.up + dt ∧ u.tim.good = s.tim.good + 1
      ∧ u.rd F.timeStatus_offsetNs = ofInt 32 o ∧ u.rd F.timeStatus_state = (if 15 ≤ s.tim.good then 2 else 1)
      ∧ RegsBut s u [regAddr .timeStatus 0 0] ∧ u = { s.pass dt with csr := u.csr, log := u.log, tim := u.tim })
  ∧ (∀ (s : State) (dt sub ty q : Nat) (m : Option Int), s.live = true → 16 ≤ sub → sub < 48 → s.subUp sub = true → s.isRadioSub sub = true →
    ∃ u : State, exec (.ptpMessageRx dt sub ty q false m) s = .next u.settle
      ∧ u.rd F.quar_violations sub = satAdd F.quar_violations.width (s.rd F.quar_violations sub) 1 ∧ RegsBut s u [regAddr .quar sub 0]
      ∧ u = { s.pass dt with csr := u.csr })
  ∧ (∀ (s : State) (dt sub ty q n : Nat) (msg : Bytes), s.live = true → 16 ≤ sub → sub < 48 → s.subUp sub = true → msg.length ≤ 256 →
    s.coreUp 2 = true → ty < 4 → n = queueNo (0x10 + (sub - 16) / 4) (4 * ((sub - 16) % 4)) →
    ∃ u : State, exec (.ptpMessageTx dt sub ty q msg) s = .next u.settle ∧ (u.eq n).frames = (s.eq n).frames ++ [⟨msg, msg.length, 12, 255, false, 0, 0⟩]
      ∧ (∀ k, k ≠ n → u.eq k = s.eq k)
      ∧ u = { s.pass dt with egr := u.egr, tim := { s.tim with txStamps := s.tim.txStamps ++ [(sub, q % 2 ^ 16, (s.pass dt).clk.ns, (s.pass dt).clk.frac)] } })
  ∧ (∀ (s : State) (dt sub : Nat), s.live = true → s.flag F.timeCtrl_synceEn = true → s.rd F.timeCtrl_synceLane + 16 = sub → s.subUp sub = true →
    ∃ u : State, exec (.esmcRx dt sub) s = .next u.settle ∧ u = { s.pass dt with tim := { s.tim with esmcAt := s.clk.up + dt, eec := 1 } })
  ∧ (∀ (s : State) (sub n : Nat) (msg : Bytes), s.live = true → 16 ≤ sub → sub < 48 → s.subUp sub = true → msg.length ≤ 256 → s.coreUp 2 = true →
    n = queueNo (0x10 + (sub - 16) / 4) (4 * ((sub - 16) % 4) + 1) →
    ∃ u : State, exec (.esmcTx sub msg) s = .next u.settle ∧ (u.eq n).frames = (s.eq n).frames ++ [⟨msg, msg.length, 12, 255, false, 0, 0⟩]
      ∧ (∀ k, k ≠ n → u.eq k = s.eq k) ∧ u = { s with egr := u.egr })
  ∧ (∀ (s : State) (dt : Nat), s.live = true → s.flag F.timeCtrl_synceEn = true → s.tim.esmcAt + 5000000000 ≤ s.clk.up + dt → s.tim.eec = 1 → s.logRoom 1 →
    ∃ u : State, exec (.esmcTimeout dt) s = .next u.settle ∧ u.tim = { s.tim with eec := 2 } ∧ u.lastEvt = some (0x1303, 0x0080, 0xFF)
      ∧ u = { s.pass dt with tim := u.tim, log := u.log })
  ∧ (∀ (s : State) (dt : Nat), s.live = true → s.rd F.timeCtrl_src ≠ 0 → s.tim.measAt + sourceLimit (s.rd F.timeCtrl_src) ≤ s.clk.up + dt →
    s.rd F.timeStatus_state = 2 → s.logRoom 1 →
    ∃ u : State, exec (.timeSourceTimeout dt) s = .next u.settle ∧ u.rd F.timeStatus_state = 3 ∧ u.lastEvt = some (0x1301, 0x0080, 0xFF)
      ∧ u.rd F.timeIncr_incr = (s.pass dt).meanIncr % 2 ^ 48 ∧ u.tim.good = 0 ∧ u.tim.offs = []
      ∧ RegsBut s u [regAddr .timeStatus 0 0, regAddr .timeIncr 0 0] ∧ u = { s.pass dt with csr := u.csr, log := u.log, tim := u.tim })
  ∧ (∀ (s : State) (dt p : Nat), s.live = true → s.jUp p = true → (s.port p).owed = [0, 0, 0, 0] →
    ∃ u : State, exec (.timeWordTx dt p) s = .next u.settle ∧ (u.port p).twSeq = ((s.port p).twSeq + 1) % 2 ^ 16
      ∧ (u.port p).twSent = ((((s.port p).twSeq + 1) % 2 ^ 16, (s.pass dt).clk.ns * 2 ^ 32 + (s.pass dt).clk.frac) :: (s.port p).twSent).take 64
      ∧ u.out.length = s.out.length + 1 ∧ (∀ q, q ≠ p → u.port q = s.port q) ∧ u = { s.pass dt with fab := u.fab, out := u.out })
  ∧ (∀ (s : State) (dt p : Nat) (b : Bytes), s.live = true → s.jUp p = true → (b.length ≠ 40 ∨ beAt b 0x24 4 ≠ crc32c (b.take 0x24)) →
    ∃ u : State, exec (.timeWordRx dt p b) s = .next u.settle ∧ u.rd F.timeFab_badWords = satAdd 32 (s.rd F.timeFab_badWords) 1
      ∧ RegsBut s u [regAddr .timeFab 0 0] ∧ u = { s.pass dt with csr := u.csr })
  ∧ (∀ (s : State) (dt p : Nat) (b : Bytes), s.live = true → s.jUp p = true → b.length = 40 → beAt b 0x24 4 = crc32c (b.take 0x24) →
    s.rd F.timeCtrl_src ≠ 2 →
    ∃ u : State, exec (.timeWordRx dt p b) s = .next u.settle
      ∧ u.port p = { s.port p with twEcho := beAt b 0 2, twRx := (s.pass dt).clk.ns * 2 ^ 32 + (s.pass dt).clk.frac }
      ∧ (∀ q, q ≠ p → u.port q = s.port q) ∧ u = { s.pass dt with fab := u.fab })
  ∧ (∀ (s v : State) (dt p t : Nat) (b : Bytes), s.live = true → s.jUp p = true → b.length = 40 → beAt b 0x24 4 = crc32c (b.take 0x24) →
    s.rd F.timeCtrl_src = 2 → v = s.pass dt → v.upstreamPort = some p → bitsOf (beAt b 6 2) 0 10 = s.rd F.timeRoot_rootId → bit (beAt b 4 1) 0 = true →
    beAt b 5 1 < 63 → (s.port p).twSent.find? (fun e => e.1 = beAt b 2 2) = some (beAt b 2 2, t) → s.rd F.timeStatus_state = 1 → s.tim.offs.length < 15 →
    ∃ u : State, exec (.timeWordRx dt p b) s = .next u.settle ∧ u.rd F.timeStatus_hops = beAt b 5 1 + 1 ∧ u.tim.measAt = s.clk.up + dt
      ∧ u.tim.offs = s.tim.offs ++ [wordOffset t (beAt b 0x14 12) (beAt b 8 12) v.stamp (sext 32 (s.rd F.timePortAsym_asymPs p))]
      ∧ u.tim.upstream = p + 1 ∧ RegsBut s u [regAddr .timeStatus 0 0] ∧ u = { v with csr := u.csr, fab := u.fab, tim := u.tim })

/-- RADIO_BIND that passes the checks binds the carrier with its descriptor, its units and every stream at gain_fixed; RADIO_UNBIND of a carrier of a READY or CHILLED mould takes it away. A fronthaul frame of no carrier is counted; one before its window is counted early, one after it late, a malformed one malformed; one in its window lands its PRB at the stream's place under the gain code in force. A time-domain sample waits for its symbol. A frame of no kind is counted. When a slot's window opens its gain codes and idle table apply and its half begins anew; when a symbol's window closes, what did not land is zeroed, the missing streams counted and the symbol's record written. -/
def Obligations.RadioReceive : Prop :=
  (∀ (s : State) (r : MReq) (rest : List MReq) (c : Nat) (v : CarrierSt), s.serves 0x0038 r rest → s.bindCheck r.body = 0 →
    v = { CarrierSt.init with desc := r.body } → c = leAt r.body 0 1 →
    ∃ u : State, exec .radioBind s = .next u.settle ∧ s.answeredAs u r rest 0 0 [] ∧ u.flag F.radioCar_bound c = true
      ∧ u.rd F.radioCar_mould c = v.mould ∧ u.rd F.radioCar_port c = v.fld 3 1 ∧ u.rd F.radioCar_muted c = 0 ∧ (u.car c).desc = r.body
      ∧ (∀ j k, k < v.ul → (u.car c).code j k = v.fld 0x1D 1) ∧ u.reg .fhRx c 0 = 0 ∧ u.reg .fhRx2 c 0 = 0
      ∧ (∀ i ∈ namedUnits (v.ap / 2) (v.fld 0x39 1), u.rd F.radioUnit_mould i = v.mould ∧ u.rd F.radioUnit_state i ≠ 0)
      ∧ (∀ d, d ≠ c → u.car d = s.car d)
      ∧ RegsBut s u ([regAddr .radioCar c 0, regAddr .fhRx c 0, regAddr .fhRx2 c 0, regAddr .radioGain c 0, regAddr .radioCpring c 0, regAddr .radioNf c 0] ++ (List.range 16).map (fun i => regAddr .radioUnit i 0))
      ∧ u = { s with csr := u.csr, cars := u.cars, mgmt := u.mgmt, out := u.out })
  ∧ (∀ (s : State) (r : MReq) (rest : List MReq) (c : Nat), s.serves 0x0039 r rest → r.body.length = 1 → c = leAt r.body 0 1 → c < 128 →
    s.flag F.radioCar_bound c = true → (s.mstate (s.car c).mould = 2 ∨ s.mstate (s.car c).mould = 4) →
    ∃ u : State, exec .radioUnbind s = .next u.settle ∧ s.answeredAs u r rest 0 0 [] ∧ u.reg .radioCar c 0 = s.rd F.radioCar_mutes c * 2 ^ 32
      ∧ u.car c = CarrierSt.init ∧ (∀ d, d ≠ c → u.car d = s.car d)
      ∧ RegsBut s u ([regAddr .radioCar c 0] ++ (List.range 16).map (fun i => regAddr .radioUnit i 0))
      ∧ u = { s with csr := u.csr, cars := u.cars, egr := u.egr, mgmt := u.mgmt, out := u.out })
  ∧ (∀ (s : State) (dt sub mac : Nat) (vid : Option Nat) (f : Bytes), s.live = true → s.subOpen sub = true →
    s.matchCar sub mac vid (some (beAt f 4 2)) = none →
    ∃ u : State, exec (.fronthaulFrameRx dt sub mac vid f) s = .next u.settle
      ∧ u.rd F.apStatus_fhUnmatched ((sub - 16) / 4) = satAdd 32 (s.rd F.apStatus_fhUnmatched ((sub - 16) / 4)) 1
      ∧ RegsBut s u [regAddr .apStatus ((sub - 16) / 4) 0] ∧ u = { s.pass dt with csr := u.csr })
  ∧ (∀ (s : State) (dt sub mac c : Nat) (vid : Option Nat) (f : Bytes), s.live = true → s.subOpen sub = true →
    s.matchCar sub mac vid (some (beAt f 4 2)) = some c → (beAt f 0 1 ≠ 0x10 ∨ beAt f 2 2 + 4 ≠ f.length ∨ 14 ≤ beAt f 10 2 % 64) →
    ∃ u : State, exec (.fronthaulFrameRx dt sub mac vid f) s = .next u.settle ∧ u.rd F.fhRx_malformed c = satAdd 16 (s.rd F.fhRx_malformed c) 1
      ∧ RegsBut s u [regAddr .fhRx c 0] ∧ u = { s.pass dt with csr := u.csr })
  ∧ (∀ (s w : State) (dt sub mac c k : Nat) (vid : Option Nat) (f : Bytes) (v : CarrierSt), s.live = true → s.subOpen sub = true →
    s.matchCar sub mac vid (some (beAt f 4 2)) = some c → v = s.car c → fhWell v f → (fhSections v f.length (f.drop 12)).isSome = true →
    w = s.pass dt → k = w.fhSlot v f → w.now96 < v.t96 k (beAt f 10 2 % 64) + 96 * v.fld 0x24 4 →
    ∃ u : State, exec (.fronthaulFrameRx dt sub mac vid f) s = .next u.settle ∧ u.rd F.fhRx_early c = satAdd 16 (s.rd F.fhRx_early c) 1
      ∧ RegsBut s u [regAddr .fhRx c 0] ∧ u = { w with csr := u.csr })
  ∧ (∀ (s w : State) (dt sub mac c k : Nat) (vid : Option Nat) (f : Bytes) (v : CarrierSt), s.live = true → s.subOpen sub = true →
    s.matchCar sub mac vid (some (beAt f 4 2)) = some c → v = s.car c → fhWell v f → (fhSections v f.length (f.drop 12)).isSome = true →
    w = s.pass dt → k = w.fhSlot v f → v.fld 0x24 4 ≤ v.fld 0x28 4 → v.t96 k (beAt f 10 2 % 64) + 96 * v.fld 0x28 4 ≤ w.now96 →
    ∃ u : State, exec (.fronthaulFrameRx dt sub mac vid f) s = .next u.settle ∧ u.rd F.fhRx_late c = satAdd 16 (s.rd F.fhRx_late c) 1
      ∧ RegsBut s u [regAddr .fhRx c 0] ∧ u = { w with csr := u.csr })
  ∧ (∀ (s w q : State) (dt sub mac c k n st a : Nat) (vid : Option Nat) (f : Bytes) (v : CarrierSt) (vals : List Int), s.live = true →
    s.subOpen sub = true → s.matchCar sub mac vid (some (beAt f 4 2)) = some c → v = s.car c → fhWell v f →
    (fhSections v f.length (f.drop 12)).map (fun l => l.map (fun x => (x.start, x.prbs))) = some [(a, [vals])] →
    w = s.pass dt → k = w.fhSlot v f → n = beAt f 10 2 % 64 → st = beAt f 4 2 % 2 ^ v.fld 0x1C 1 → st < 16 →
    v.t96 k n + 96 * v.fld 0x24 4 ≤ w.now96 → w.now96 < v.t96 k n + 96 * v.fld 0x28 4 →
    (Tab.get [] v.landed (32 * symKey k n + st)).contains a = false →
    q = w.writeMem v.mould (v.ulAddr k n st (12 * a)) (vals.flatMap (fun x => toLe 3 (landValue (v.code k st) x).1)) →
    ∃ u : State, exec (.fronthaulFrameRx dt sub mac vid f) s = .next u.settle ∧ u.sram = q.sram ∧ u.gddr = q.gddr ∧ u.cxl = q.cxl
      ∧ Tab.get [] (u.car c).landed (32 * symKey k n + st) = a :: Tab.get [] v.landed (32 * symKey k n + st)
      ∧ Tab.get 0 (u.car c).seqUl st = beAt f 6 1 % 256 + 1
      ∧ u.rd F.radioGain_sat c = satAdd 16 (s.rd F.radioGain_sat c) ((vals.map (landValue (v.code k st))).filter (·.2)).length
      ∧ (∀ d, d ≠ c → u.car d = s.car d) ∧ RegsBut s u [regAddr .radioGain c 0, regAddr .fhRx2 c 0] ∧ u = { q with csr := u.csr, cars := u.cars })
  ∧ (∀ (s : State) (dt sub mac : Nat) (vid : Option Nat) (f : Bytes), s.live = true → s.subOpen sub = true → s.matchCar sub mac vid none = none →
    ∃ u : State, exec (.timeDomainFrameRx dt sub mac vid f) s = .next u.settle
      ∧ u.rd F.apStatus_fhUnmatched ((sub - 16) / 4) = satAdd 32 (s.rd F.apStatus_fhUnmatched ((sub - 16) / 4)) 1
      ∧ RegsBut s u [regAddr .apStatus ((sub - 16) / 4) 0] ∧ u = { s.pass dt with csr := u.csr })
  ∧ (∀ (s w : State) (dt sub mac c i k kf n st : Nat) (vid : Option Nat) (f : Bytes) (v : CarrierSt), s.live = true → s.subOpen sub = true →
    s.matchCar sub mac vid none = some c → v = s.car c → f.length = 20 → beAt f 0 1 = 1 → beAt f 1 1 = 1 → st = beAt f 2 1 → st < v.ul →
    beAt f 3 1 ≤ 1 → beAt f 6 2 = 1 → 1 ≤ v.fld 0x3C 2 / 4 → beAt f 8 2 < 1024 → beAt f 10 2 = 0 → i = beAt f 12 4 →
    i < 150 * v.fft * v.perSub → v.sampleSym i = some (kf, n) → w = s.pass dt →
    k = w.nearFrame v 1024 (beAt f 8 2) (96 * i * 10000000 / (150 * v.fft * v.perSub)) * v.perFrame + kf →
    v.t96 k n + 96 * v.fld 0x24 4 ≤ w.now96 → w.now96 < v.t96 k n + 96 * v.fld 0x28 4 →
    (Tab.get [] v.samples (32 * symKey kf n + st)).any (fun e => e.1 = i) = false →
    ∃ u : State, exec (.timeDomainFrameRx dt sub mac vid f) s = .next u.settle
      ∧ Tab.get [] (u.car c).samples (32 * symKey kf n + st) = (i, beAt f 16 2, beAt f 18 2) :: Tab.get [] v.samples (32 * symKey kf n + st)
      ∧ Tab.get 0 (u.car c).seqUl st = beAt f 4 2 % 65536 + 1 ∧ (∀ d, d ≠ c → u.car d = s.car d)
      ∧ RegsBut s u [regAddr .fhRx2 c 0] ∧ u = { w with csr := u.csr, cars := u.cars })
  ∧ (∀ (s : State) (dt sub : Nat), s.live = true → s.subOpen sub = true → s.isRadioSub sub = true →
    ∃ u : State, exec (.unclassifiedFrameRx dt sub) s = .next u.settle
      ∧ u.rd F.apStatus_otherDrop ((sub - 16) / 4) = satAdd 16 (s.rd F.apStatus_otherDrop ((sub - 16) / 4)) 1
      ∧ RegsBut s u [regAddr .apStatus ((sub - 16) / 4) 0] ∧ u = { s.pass dt with csr := u.csr })
  ∧ (∀ (s w : State) (dt c k : Nat) (v : CarrierSt), s.live = true → c < 128 → s.flag F.radioCar_bound c = true → v = s.car c → k = v.opened →
    w = s.pass dt → v.t96 k 0 + 96 * v.fld 0x24 4 ≤ w.now96 →
    ∃ u : State, exec (.rxWindowOpen dt c) s = .next u.settle ∧ (u.car c).opened = k + 1
      ∧ (u.car c).gain = (v.gainNext.filter (fun g => decide (g.1 ≤ k))).foldl (fun t g => Tab.set 0 t g.2.1 g.2.2) v.gain
      ∧ (u.car c).gainOld = v.gain
      ∧ (u.car c).gainNext = v.gainNext.filter (fun g => decide (k < g.1))
      ∧ Tab.get [] (u.car c).idle (k % 2) = w.readMem v.mould (v.fld 0x58 8 + 32 * (k % 2)) 32
      ∧ (u.car c).landed = v.landed.filter (fun e => decide (e.1 / 32 / 14 ≠ k % 2))
      ∧ u.rd F.radioGain_code c = gainWord (u.car c).gain % 2 ^ 48 ∧ (u.car c).desc = v.desc ∧ (∀ d, d ≠ c → u.car d = s.car d)
      ∧ RegsBut s u [regAddr .radioGain c 0] ∧ u = { w with csr := u.csr, cars := u.cars })
  ∧ (∀ (s w : State) (dt c k n miss pmiss : Nat) (v : CarrierSt) (b : Bytes), s.live = true → c < 128 → s.flag F.radioCar_bound c = true → v = s.car c →
    v.split ≠ 2 → k = v.closed / 14 → n = v.closed % 14 → n ≠ 13 → w = s.pass dt → v.t96 k n + 96 * v.fld 0x28 4 ≤ w.now96 →
    miss = sumNat ((List.range v.ul).map (fun st => if (Tab.get [] v.landed (32 * symKey k n + st)).length < v.nPrb then 2 ^ st else 0)) →
    pmiss = sumNat ((List.range v.prach).map (fun p => if (Tab.get [] v.landed (32 * symKey k n + 16 + p)).isEmpty then 2 ^ p else 0)) →
    b = (toLe 4 (k / v.perFrame % 1024 + k % v.perFrame * 2 ^ 16) ++ toLe 1 n
      ++ toLe 1 (ofBool (s.flag F.radioCar_muted c) + 2 * ofBool (s.rd F.timeStatus_state ≠ 2) + 4 * Tab.get 0 v.gainDiff (k % 2)) ++ toLe 2 0
      ++ toLe 2 miss ++ toLe 1 pmiss ++ toLe 5 0
      ++ slice ((List.range v.ul).flatMap (fun st => toLe 2 (Tab.get [] v.landed (32 * symKey k n + st)).length)) 0 32
      ++ toLe 8 (sumNat ((List.range v.ul).map (fun st => v.code k st * 16 ^ st))) ++ toLe 8 0) →
    ∃ u : State, exec (.rxWindowClose dt c) s = .next u.settle ∧ u.sram = ((w.zeroMissing c k n).writeMem v.mould (v.fld 0x50 8 + 64 * symKey k n) b).sram
      ∧ u.gddr = ((w.zeroMissing c k n).writeMem v.mould (v.fld 0x50 8 + 64 * symKey k n) b).gddr
      ∧ u.cxl = ((w.zeroMissing c k n).writeMem v.mould (v.fld 0x50 8 + 64 * symKey k n) b).cxl
      ∧ u.car c = { v with closed := v.closed + 1 } ∧ u.rd F.fhRx2_missing c = satAdd 16 (s.rd F.fhRx2_missing c) (popCount 16 miss)
      ∧ (∀ d, d ≠ c → u.car d = s.car d) 
      ∧ u = { w with csr := u.csr, cars := u.cars, clus := u.clus, log := u.log, sram := u.sram, gddr := u.gddr, cxl := u.cxl, xts := u.xts })

/-- The tail of a carrier's ring passes its entries: a good one waits for its release, one that is late is counted; a requester without the right changes nothing and is logged. At its release a message goes to the carrier's control queue with its stream's next number. A symbol is read with the streams its slot's control word names, and its U-plane frame enters the data queue; frames past their window are removed and counted. A carrier that must be muted is muted with its frames removed, counted and logged; it is unmuted at the next radio frame once the time is good. A unit takes the next job of its queue with the code of its checks and completes it: output and status are written, a failed job only its status, with event 0x1505, slag neither. -/
def Obligations.RadioTransmitAndJobs : Prop :=
  (∀ (s : State) (c x rel len : Nat) (msg : Bytes), s.live = true → c < 128 → s.flag F.radioCar_bound c = true →
    (bitsOf x 16 16 + 65536 - s.rd F.radioCpring_head c) % 65536 = 1 → s.cpEntry c (s.rd F.radioCpring_head c) = (rel, len, msg) →
    s.clk.ns ≤ rel → 8 ≤ len → len ≤ 2000 → beAt msg 1 1 = 2 → beAt msg 4 2 &&& (s.car c).fld 0x1A 2 = (s.car c).fld 0x18 2 →
    ∃ u : State, exec (.cpringTailWrite 0 c x) s = .next u.settle ∧ u.rd F.radioCpring_tail c = bitsOf x 16 16
      ∧ u.rd F.radioCpring_head c = (s.rd F.radioCpring_head c + 1) % 65536 ∧ u.car c = { s.car c with cp := (s.car c).cp ++ [(rel, msg)] }
      ∧ (∀ d, d ≠ c → u.car d = s.car d) ∧ RegsBut s u [regAddr .radioCpring c 0] ∧ u = { s with csr := u.csr, cars := u.cars })
  ∧ (∀ (s : State) (c x rel len : Nat) (msg : Bytes), s.live = true → c < 128 → s.flag F.radioCar_bound c = true →
    (bitsOf x 16 16 + 65536 - s.rd F.radioCpring_head c) % 65536 = 1 → s.cpEntry c (s.rd F.radioCpring_head c) = (rel, len, msg) →
    rel < s.clk.ns →
    ∃ u : State, exec (.cpringTailWrite 0 c x) s = .next u.settle ∧ u.rd F.fhRx2_txLate c = satAdd 16 (s.rd F.fhRx2_txLate c) 1
      ∧ u.rd F.radioCpring_head c = (s.rd F.radioCpring_head c + 1) % 65536
      ∧ RegsBut s u [regAddr .radioCpring c 0, regAddr .fhRx2 c 0] ∧ u = { s with csr := u.csr })
  ∧ (∀ (s : State) (q c x : Nat), s.live = true → c < 128 → (q = 1 ∨ (2 ≤ q ∧ (q - 2) % 64 ≠ (s.car c).mould)) → s.logRoom 1 →
    ∃ u : State, exec (.cpringTailWrite q c x) s = .next u.settle ∧ u.lastEvt = some (0x0001, 0x00A0, 0xFF) ∧ u = { s with log := u.log })
  ∧ (∀ (s : State) (dt c rel q : Nat) (msg b : Bytes) (r : List (Nat × Bytes)) (w : State), s.live = true → c < 128 → w = s.pass dt →
    (s.car c).cp = (rel, msg) :: r → rel ≤ (s.pass dt).clk.ns → s.flag F.radioCar_muted c = false → q = s.carQueue c 0x34 →
    b = msg.take 2 ++ toBe 2 (msg.length - 4) ++ slice msg 4 2 ++ toBe 1 (Tab.get 0 (s.car c).seqDl (2 * (beAt msg 4 2 % 2 ^ (s.car c).fld 0x1C 1) + 1) % 256) ++ toBe 1 0x80 ++ msg.drop 8 →
    s.hasRoom q (s.carFrame c 0xAEFE 0 b).len = true →
    ∃ u : State, exec (.cplaneRelease dt c) s = .next u.settle ∧ (u.car c).cp = r ∧ (u.eq q).frames = (s.eq q).frames ++ [s.carFrame c 0xAEFE 0 b]
      ∧ Tab.get 0 (u.car c).seqDl (2 * (beAt msg 4 2 % 2 ^ (s.car c).fld 0x1C 1) + 1)
        = (Tab.get 0 (s.car c).seqDl (2 * (beAt msg 4 2 % 2 ^ (s.car c).fld 0x1C 1) + 1) + 1) % 65536
      ∧ (∀ k, k ≠ q → u.eq k = s.eq k) ∧ (∀ d, d ≠ c → u.car d = s.car d) ∧ u = { w with cars := u.cars, egr := u.egr })
  ∧ (∀ (s w : State) (dt c k n x : Nat) (v : CarrierSt), s.live = true → c < 128 → n < 14 → s.flag F.radioCar_bound c = true → v = s.car c →
    w = s.pass dt → v.t96 k n ≤ w.now96 + 96 * (v.fld 0x30 4 + 10000) → w.now96 + 96 * v.fld 0x30 4 < v.t96 k n →
    x = (if n = 0 then leNat (s.readMem v.mould (v.fld 0x50 8 + 1792 + 8 * (k % 2)) 8) else v.dlWordOf k) →
    ∃ u : State, exec (.dlSymbolRead dt c k n) s = .next u.settle
      ∧ Tab.get [] (u.car c).dl (14 * k + n) = (if bit x n then (bitList v.dls (bitsOf x 16 16)).map (fun st =>
        (st, s.readMem v.mould (v.fld 0x48 8 + symKey k n * (v.dls * v.dlLen) + st * v.dlLen) v.dlLen)) else Tab.get [] v.dl (14 * k + n))
      ∧ (u.car c).dlWordOf k = x ∧ u.car c = { v with dl := (u.car c).dl, dlWord := (u.car c).dlWord }
      ∧ (∀ d, d ≠ c → u.car d = s.car d) ∧ u = { w with cars := u.cars })
  ∧ (∀ (s w : State) (dt c k n q st until_ : Nat) (v : CarrierSt) (d b : Bytes), s.live = true → c < 128 → n < 14 →
    s.flag F.radioCar_bound c = true → v = s.car c → w = s.pass dt → v.split ≠ 2 → v.t96 k n ≤ w.now96 + 96 * v.fld 0x30 4 →
    w.now96 + 96 * v.fld 0x2C 4 < v.t96 k n → until_ = (v.t96 k n - 96 * v.fld 0x2C 4) / 96 → Tab.get [] v.dl (14 * k + n) = [(st, d)] →
    0 < (chunks 24 (dlValues d)).length → (chunks 24 (dlValues d)).length ≤ v.prbMax → s.flag F.radioCar_muted c = false → q = s.carQueue c 0x36 →
    b = v.uplane (Tab.get 0 v.seqDl (2 * st)) k n st 0 ((chunks 24 (dlValues d)).map (prbBytes v.iqw)) →
    s.hasRoom q (s.carFrame c 0xAEFE until_ b).len = true →
    ∃ u : State, exec (.dlFrameQueue dt c k n) s = .next u.settle ∧ (u.eq q).frames = (s.eq q).frames ++ [s.carFrame c 0xAEFE until_ b]
      ∧ Tab.get 0 (u.car c).seqDl (2 * st) = (Tab.get 0 v.seqDl (2 * st) + 1) % 65536
      ∧ (u.car c).dl = v.dl.filter (fun e => decide (14 * k + n < e.1)) ∧ (∀ j, j ≠ q → u.eq j = s.eq j) ∧ (∀ d, d ≠ c → u.car d = s.car d)
      ∧ u = { w with cars := u.cars, egr := u.egr })
  ∧ (∀ (s : State) (dt c now : Nat), s.live = true → c < 128 → Tab.sortedFrom none s.egr.qs = true → now = (s.pass dt).clk.ns →
    ∃ u : State, exec (.dlFrameExpiry dt c) s = .next u.settle ∧ (∀ q, (u.eq q).frames = (s.eq q).frames.filter (fun f => !f.past c now))
      ∧ u.rd F.fhRx2_txLate c = satAdd 16 (s.rd F.fhRx2_txLate c) (sumNat (s.egr.qs.map (fun e => (e.2.frames.filter (EgFrame.past c now)).length)))
      ∧ RegsBut s u [regAddr .fhRx2 c 0] ∧ u = { s.pass dt with csr := u.csr, egr := u.egr })
  ∧ (∀ (s : State) (dt c : Nat), s.live = true → c < 128 → s.flag F.radioCar_bound c = true → s.flag F.radioCar_muted c = false →
    (s.pass dt).mustMute c = true → Tab.sortedFrom none s.egr.qs = true → s.logRoom 1 →
    ∃ u : State, exec (.carrierMute dt c) s = .next u.settle ∧ u.rd F.radioCar_muted c = 1 ∧ u.rd F.radioCar_mutes c = satAdd 32 (s.rd F.radioCar_mutes c) 1
      ∧ (∀ q, (u.eq q).frames = (s.eq q).frames.filter (fun f => decide (f.car ≠ c + 1)))
      ∧ u.lastEvt = some (0x1501, 0x0050 + (s.car c).ap, (s.car c).mould) ∧ RegsBut s u [regAddr .radioCar c 0, regAddr .fhRx2 c 0]
      ∧ u = { s.pass dt with csr := u.csr, egr := u.egr, log := u.log })
  ∧ (∀ (s : State) (dt c : Nat) (v : CarrierSt), s.live = true → c < 128 → s.flag F.radioCar_bound c = true → s.flag F.radioCar_muted c = true →
    v = s.car c → (s.rd F.timeStatus_state = 2 ∨ (s.rd F.timeStatus_state = 0 ∧ v.flag 3 = true)) →
    s.tim.lockNs + (10000000 - (s.tim.lockNs + 10000000 - v.off) % 10000000) ≤ (s.pass dt).clk.ns → s.logRoom 1 →
    ∃ u : State, exec (.carrierUnmute dt c) s = .next u.settle ∧ u.rd F.radioCar_muted c = 0 ∧ u.lastEvt = some (0x1502, 0x0050 + v.ap, v.mould)
      ∧ RegsBut s u [regAddr .radioCar c 0] ∧ u = { s.pass dt with csr := u.csr, log := u.log })
  ∧ (∀ (s : State) (i word : Nat) (j : JobRec) (r : List JobRec), s.live = true → i < 16 → s.unit i = ⟨j :: r, none⟩ → jobFormatOk j = true →
    s.jobRange j (j.p 8 4) (jobBytes j).1 = true → s.jobRange j (j.p 0x10 4) (jobBytes j).2.1 = true →
    (j.p 2 2 % 4 = 0 ∨ s.jobRange j (j.p 0x18 4) (jobBytes j).2.2 = true) →
    ∃ u : State, exec (.unitJobStart i 0 word) s = .next u.settle ∧ u.unit i = ⟨r, some (j, 0)⟩ ∧ u.rd F.radioUnit_state i = 2
      ∧ u.rd F.radioUnit_queued i = r.length % 2 ^ 8 ∧ (∀ k, k ≠ i → u.unit k = s.unit k) ∧ RegsBut s u [regAddr .radioUnit i 0]
      ∧ u = { s with csr := u.csr, units := u.units })
  ∧ (∀ (s : State) (i ecc word : Nat) (j : JobRec) (r : List JobRec), s.live = true → i < 16 → s.unit i = ⟨j :: r, none⟩ → jobFormatOk j = false →
    ∃ u : State, exec (.unitJobStart i ecc word) s = .next u.settle ∧ u.unit i = ⟨r, some (j, E.jobFormat)⟩ ∧ u.rd F.radioUnit_state i = 2
      ∧ (∀ k, k ≠ i → u.unit k = s.unit k) ∧ RegsBut s u [regAddr .radioUnit i 0] ∧ u = { s with csr := u.csr, units := u.units })
  ∧ (∀ (s : State) (i : Nat) (j : JobRec) (q : List JobRec), s.live = true → i < 16 → s.unit i = ⟨q, some (j, 0)⟩ →
    s.isSlag j.mould j.ctx j.heat j.quenches = false → bit (j.p 2 2) 1 = false → bit (j.p 2 2) 2 = false →
    ∃ u : State, exec (.jobComplete i) s = .next u.settle ∧ u.unit i = ⟨q, none⟩ ∧ u.rd F.radioUnit_state i = (if s.rd F.radioUnit_state i = 0 then 0 else 1)
      ∧ u.rd F.radioUnit_jobs i = (s.rd F.radioUnit_jobs i + 1) % 2 ^ 32
      ∧ u.sram = ((s.setSram j.cluster (j.p 0x10 4) (s.jobResult j).1).setSram j.cluster (j.sa + 0x30) (toLe 2 0 ++ toLe 1 (s.jobResult j).2.2.1 ++ toLe 1 (s.jobResult j).2.2.2 ++ toLe 4 (s.jobResult j).1.length ++ toLe 4 (jobBeats j (s.jobResult j).2.2.1))).sram
      ∧ ((s.stream j.cluster (s.seng j.cluster j.eng).stream).run = j.run →
        (u.seng j.cluster j.eng).flags = setBit (s.seng j.cluster j.eng).flags j.j false)
      ∧ RegsBut s u [regAddr .radioUnit i 0] ∧ u = { s with csr := u.csr, units := u.units, sram := u.sram, vers := u.vers, clus := u.clus })
  ∧ (∀ (s : State) (i code : Nat) (j : JobRec) (q : List JobRec), s.live = true → i < 16 → s.unit i = ⟨q, some (j, code)⟩ → code ≠ 0 →
    s.isSlag j.mould j.ctx j.heat j.quenches = false → bit (j.p 2 2) 2 = false → s.logRoom 1 →
    ∃ u : State, exec (.jobComplete i) s = .next u.settle ∧ u.unit i = ⟨q, none⟩
      ∧ u.rd F.radioUnit_lastFail i = code % 2 ^ 16 ∧ u.lastEvt = some (0x1505, 0x0060 + i, j.mould)
      ∧ u.sram = (s.setSram j.cluster (j.sa + 0x30) (toLe 2 code ++ toLe 1 0 ++ toLe 1 0xFF ++ toLe 4 0 ++ toLe 4 0)).sram
      ∧ RegsBut s u [regAddr .radioUnit i 0] ∧ u = { s with csr := u.csr, units := u.units, sram := u.sram, clus := u.clus, log := u.log })
  ∧ (∀ (s : State) (i code : Nat) (j : JobRec) (q : List JobRec), s.live = true → i < 16 → s.unit i = ⟨q, some (j, code)⟩ → j.mould < 64 →
    s.isSlag j.mould j.ctx j.heat j.quenches = true →
    ∃ u : State, exec (.jobComplete i) s = .next u.settle ∧ u.unit i = ⟨q, none⟩
      ∧ u.rd F.slagCount_count j.mould = satAdd F.slagCount_count.width (s.rd F.slagCount_count j.mould) 1
      ∧ RegsBut s u [regAddr .radioUnit i 0, regAddr .slagCount j.mould 0] ∧ u = { s with csr := u.csr, units := u.units })

/-- The head frame of the queue that the scheduler picks starts on its sub-port: it leaves its queue, its bytes are counted and the sub-port is busy for its time; on a Joravo port it takes a sequence and credits and stays for replay. With none eligible a Joravo port sends an idle word; a frame that the guard holds is counted once. At an interval's start the gates are those of the interval. A link that comes up is shown where the breakout has the lane; one that goes down loses its queued frames. -/
def Obligations.EgressAndAccessLinks : Prop :=
  (∀ (s w : State) (dt sub q : Nat) (b : SubSt) (f : EgFrame), s.live = true → 16 ≤ sub → sub < 48 → s.subUp sub = true → w = s.pass dt →
    (Tab.get SubSt.init s.egr.subs sub).freeAt ≤ 100 * (s.clk.up + dt) + 99 →
    (w.subQueues sub).all (fun k => !w.eligibleButGuard sub k || w.guardPass sub k) = true → w.pickQueue sub = some (q, b, []) → w.headOf q = some f →
    ∃ u : State, exec (.egressFrameStart dt sub) s = .next u.settle ∧ u.out = s.out ++ [.egress sub q f.bytes]
      ∧ (u.eq q).frames = (s.eq q).frames.erase f ∧ (∀ k, k ≠ q → u.eq k = s.eq k)
      ∧ (Tab.get SubSt.init u.egr.subs sub).freeAt = max b.freeAt (100 * (s.clk.up + dt)) + s.txTime sub (f.len + 20)
      ∧ u.rd F.egrQbytes_bytes q = (s.rd F.egrQbytes_bytes q + (f.len + 20)) % 2 ^ F.egrQbytes_bytes.width
      ∧ RegsBut s u [regAddr .egrQbytes q 0] ∧ u = { w with csr := u.csr, egr := u.egr, out := u.out })
  ∧ (∀ (s w : State) (dt p q : Nat) (b : SubSt) (f : EgFrame), s.live = true → p < 12 → s.jUp p = true → w = s.pass dt →
    (Tab.get SubSt.init s.egr.subs p).freeAt ≤ 100 * (s.clk.up + dt) + 99 →
    (w.subQueues p).all (fun k => !w.eligibleButGuard p k || w.guardPass p k) = true → w.pickQueue p = some (q, b, []) → w.headOf q = some f →
    ∃ u : State, exec (.egressFrameStart dt p) s = .next u.settle ∧ (u.eq q).frames = (s.eq q).frames.erase f ∧ (∀ k, k ≠ q → u.eq k = s.eq k)
      ∧ (u.port p).replay = (s.port p).replay ++ [((s.port p).txSeq, f.bytes)] ∧ (u.port p).txSeq = ((s.port p).txSeq + 1) % 2 ^ 16
      ∧ (u.port p).credit = (s.port p).credit.set (fClass f.bytes) ((s.port p).credit.getD (fClass f.bytes) 0 - fUnits f.bytes)
      ∧ u.out.length = s.out.length + 1 ∧ u = { w with csr := u.csr, egr := u.egr, fab := u.fab, out := u.out })
  ∧ (∀ (s : State) (dt p : Nat), s.live = true → p < 12 → s.jUp p = true → (Tab.get SubSt.init s.egr.subs p).freeAt ≤ 100 * (s.clk.up + dt) + 99 →
    (s.pass dt).subQueues p = [] →
    ∃ u : State, exec (.egressFrameStart dt p) s = .next u.settle ∧ u.out = s.out ++ [.link p 2 ((s.port p).word 2 (s.port p).txSeq).1]
      ∧ u.port p = ((s.port p).word 2 (s.port p).txSeq).2 ∧ (∀ q, q ≠ p → u.port q = s.port q) ∧ u = { s.pass dt with fab := u.fab, out := u.out })
  ∧ (∀ (s w : State) (dt sub q : Nat) (f : EgFrame), s.live = true → 16 ≤ sub → sub < 48 → s.subUp sub = true → w = s.pass dt →
    (Tab.get SubSt.init s.egr.subs sub).freeAt ≤ 100 * (s.clk.up + dt) + 99 → w.subQueues sub = [q] → w.headOf q = some f → f.held = false →
    w.eligibleButGuard sub q = true → w.guardPass sub q = false → (w.countHeld sub q).pickQueue sub = none →
    ∃ u : State, exec (.egressFrameStart dt sub) s = .next u.settle ∧ u.rd F.egrGate_guardHolds sub = satAdd F.egrGate_guardHolds.width (s.rd F.egrGate_guardHolds sub) 1
      ∧ u.out = s.out ∧ (u.eq q).frames = (s.eq q).frames.map (fun g => if g = f then { g with held := true } else g)
      ∧ (∀ k, k ≠ q → u.eq k = s.eq k) ∧ RegsBut s u [regAddr .egrGate sub 0] ∧ u = { w with csr := u.csr, egr := u.egr })
  ∧ (∀ (s : State) (dt sub i mask e : Nat), s.live = true → sub < 48 → (s.pass dt).intervalNow sub = some (i, mask, e) →
    ∃ u : State, exec (.gateIntervalStart dt sub) s = .next u.settle ∧ u.rd F.egrGate_openMask sub = mask % 2 ^ F.egrGate_openMask.width
      ∧ u.rd F.egrGate_interval sub = i % 2 ^ F.egrGate_interval.width ∧ u.rd F.egrGate_list sub = 1 ∧ RegsBut s u [regAddr .egrGate sub 0]
      ∧ u = { s.pass dt with csr := u.csr })
  ∧ (∀ (s : State) (dt sub : Nat), s.live = true → sub < 48 → (s.pass dt).intervalNow sub = none →
    ∃ u : State, exec (.gateIntervalStart dt sub) s = .next u.settle ∧ u.rd F.egrGate_openMask sub = 0xFF ∧ u.rd F.egrGate_interval sub = 0
      ∧ u.rd F.egrGate_list sub = 0 ∧ RegsBut s u [regAddr .egrGate sub 0] ∧ u = { s.pass dt with csr := u.csr })
  ∧ (∀ (s : State) (sub : Nat), s.live = true → 16 ≤ sub → sub < 48 → (sub - 16) % 4 < laneCount (qMode s.queueMap (0x10 + (sub - 16) / 4)) →
    ∃ u : State, exec (.accessLinkUp sub) s = .next u.settle ∧ u.subUp sub = true
      ∧ u.rd F.apStatus_linkUp ((sub - 16) / 4) = setBit (s.rd F.apStatus_linkUp ((sub - 16) / 4)) ((sub - 16) % 4) true
      ∧ RegsBut s u [regAddr .apStatus ((sub - 16) / 4) 0] ∧ u = { s with csr := u.csr })
  ∧ (∀ (s : State) (sub : Nat), s.live = true → 16 ≤ sub → sub < 48 →
    ∃ u : State, exec (.accessLinkDown sub) s = .next u.settle ∧ u.subUp sub = false
      ∧ u.rd F.apStatus_linkUp ((sub - 16) / 4) = setBit (s.rd F.apStatus_linkUp ((sub - 16) / 4)) ((sub - 16) % 4) false
      ∧ (∀ q, s.queueSub q = sub → (u.eq q).frames = []) ∧ (∀ q, s.queueSub q ≠ sub → u.eq q = s.eq q)
      ∧ u = { s with csr := u.csr, egr := u.egr, fab := u.fab })

/-- CERT_APPLY of a body that can be a certificate answers the handle of its verification. A fragment from a peer joins those of its port; the one that completes a certificate not known begins its verification; fragments that began 100 ms ago are discarded. A request for the certificate held is answered. 500 ms after a newer epoch was seen the device leaves the pool (cause 0x14); 1 s after an ADMIT without its ports it keeps its state (cause 0x03), with them it is CANDIDATE (0x02); 10 s of CANDIDATE end in the state it came from (0x05). RETAINED ends at its time. A long rate alarm is a hard limit and withdraws the device (0x10); the uncorrectable-error limit clears. A quarantine ends at its time, logged. -/
def Obligations.MembershipTimersAndCertificates : Prop :=
  (∀ (s : State) (r : MReq) (rest : List MReq) (i : Nat), s.serves 0x0060 r rest → 272 ≤ r.body.length → s.freeEntry = some i →
    ∃ u : State, exec .certApply s = .next u.settle ∧ s.opStarted u r rest i 6 (48 * leAt r.body 7 1 + 1) (.cert r.body) ∧ u = { s with mgmt := u.mgmt, out := u.out })
  ∧ (∀ (s v : State) (p len off : Nat) (f d : Bytes) (g : CertFrag), s.takesCert v p len off f d →
    g = ((s.health.frags.find? (fun g => decide (g.port = p) && decide (g.len = len))).getD ⟨p, len, [], s.clk.up⟩) →
    g.have_.any (fun e => e.1 = off) = false → assemble len (g.have_ ++ [(off, d)]) = none →
    ∃ u : State, exec (.memCert p) s = .next u.settle
      ∧ u = { v with health := { s.health with frags := s.health.frags.filter (fun h => decide (h.port ≠ p)) ++ [{ g with have_ := g.have_ ++ [(off, d)] }] } })
  ∧ (∀ (s v : State) (p len off : Nat) (f d b : Bytes) (g : CertFrag), s.takesCert v p len off f d →
    g = ((s.health.frags.find? (fun g => decide (g.port = p) && decide (g.len = len))).getD ⟨p, len, [], s.clk.up⟩) →
    g.have_.any (fun e => e.1 = off) = false → assemble len (g.have_ ++ [(off, d)]) = some b → s.certRuns (certDigest b) = false →
    s.health.applied.contains (certDigest b) = false →
    ∃ u : State, exec (.memCert p) s = .next u.settle ∧ u.health = { s.health with frags := s.health.frags.filter (fun h => decide (h.port ≠ p)) }
      ∧ u = ({ v with health := u.health } : State).inner 6 (48 * leAt b 7 1 + 1) (.cert b) ∧ u = { v with health := u.health, mgmt := { s.mgmt with ops := u.mgmt.ops } })
  ∧ (∀ (s v : State) (p : Nat) (f : Bytes), s.live = true → p < 12 →
    (classHeads (s.inbox p)).find? (fun g => fDst g = s.devId && fOp g = 0x51) = some f → v = s.unbox p f true → headerOk f 3 = true → fHeat f = 0 →
    fSeq f = 0 → (fPay f).length = 8 → beAt (fPay f) 4 4 = 0 → 272 < s.health.lastCert.length → certEpoch s.health.lastCert = beAt (fPay f) 0 4 →
    ∃ u : State, exec (.memCertReq p) s = .next u.settle ∧ u = v.sendCert p
      ∧ (u.eq (queueNo p 0)).frames.length = (s.eq (queueNo p 0)).frames.length + cdiv s.health.lastCert.length 4096
      ∧ (∀ q, q ≠ queueNo p 0 → u.eq q = s.eq q) ∧ u = { v with egr := u.egr })
  ∧ (∀ (s : State) (dt p : Nat), s.live = true →
    ∃ u : State, exec (.memCertReassemblyTimeout dt p) s = .next u.settle
      ∧ u = { s.pass dt with health := { s.health with frags := s.health.frags.filter (fun g => !(decide (g.port = p) && decide (g.firstAt + 100000000 ≤ s.clk.up + dt))) } })
  ∧ (∀ (s : State) (dt t : Nat), s.live = true →
    (s.rd F.healthStatus_state = 3 ∨ s.rd F.healthStatus_state = 4 ∨ s.rd F.healthStatus_state = 5) → s.health.seenAt = some t →
    t + 500000000 ≤ s.clk.up + dt →
    ∃ u : State, exec (.epochGraceExpiry dt) s = .next u.settle ∧ (s.pass dt).withdrawn u 0x14)
  ∧ (∀ (s : State) (dt t : Nat), s.live = true → (s.rd F.healthStatus_state = 2 ∨ s.rd F.healthStatus_state = 6) → s.health.admitAt = some t →
    t + 1000000000 ≤ s.clk.up + dt → (s.portsUp (fun _ => true) && s.mayJoin) = false → s.logRoom 1 →
    ∃ u : State, exec (.admitPortTimeout dt) s = .next u.settle ∧ u.rd F.healthStatus_state = s.rd F.healthStatus_state ∧ u.rd F.membStatus_lastCause = 0x03
      ∧ u.health = { s.health with admitAt := none } ∧ u.lastEvt = some (0x1901, 0x00A2, 0xFF)
      ∧ RegsBut s u [regAddr .membStatus 0 0] ∧ u = { s.pass dt with csr := u.csr, log := u.log, health := u.health })
  ∧ (∀ (s : State) (dt t : Nat), s.live = true → (s.rd F.healthStatus_state = 2 ∨ s.rd F.healthStatus_state = 6) → s.health.admitAt = some t →
    t + 1000000000 ≤ s.clk.up + dt → s.portsUp (fun _ => true) = true → s.mayJoin = true → s.logRoom 1 →
    ∃ u : State, exec (.admitPortTimeout dt) s = .next u.settle ∧ u.rd F.healthStatus_state = 3 ∧ u.rd F.membStatus_lastCause = 0x02
      ∧ u.health = { s.health with admitAt := none, candAt := s.clk.up + dt, cameFrom := s.rd F.healthStatus_state, low300 := 0, ok650 := none }
      ∧ u.lastEvt = some (0x1901, 0x00A2, 0xFF) ∧ RegsBut s u [regAddr .membStatus 0 0, regAddr .healthStatus 0 0]
      ∧ u = { s.pass dt with csr := u.csr, log := u.log, health := u.health })
  ∧ (∀ (s : State) (dt : Nat), s.live = true → s.rd F.healthStatus_state = 3 → s.health.candAt + 10000000000 ≤ s.clk.up + dt →
    s.flag F.hardLimit_rateAlarm = false → s.flag F.hardLimit_ueRate = false → s.health.seenAt = none → s.health.low300 < 10 →
    s.portsUp (fun q => s.rd F.portStatus_peerEpoch q = s.rd F.fabEpoch_value) = false → (s.health.cameFrom = 2 ∨ s.health.cameFrom = 6) →
    ∃ u : State, exec (.candidateTimeout dt) s = .next u.settle ∧ u.rd F.healthStatus_state = s.health.cameFrom ∧ u.rd F.membStatus_lastCause = 0x05
      ∧ s.groupIdx.all (fun g => u.rd F.collG_state g = 3) = true
      ∧ (s.fab.ops = [] → u = { s.pass dt with csr := u.csr, free := u.free, log := u.log, clus := u.clus, fab := u.fab, groups := u.groups, aborts := u.aborts, egr := u.egr, health := u.health }))
  ∧ (∀ (s : State) (dt t : Nat), s.live = true → s.health.retainEnd = some t → t ≤ s.clk.up + dt → s.flag F.healthStatus_retained = true → s.logRoom 1 →
    ∃ u : State, exec (.retainExpiry dt) s = .next u.settle ∧ u.rd F.healthStatus_retained = 0 ∧ u.health = { s.health with retainEnd := none }
      ∧ u.lastEvt = some (0x1908, 0x00A2, 0xFF) ∧ RegsBut s u [regAddr .healthStatus 0 0] ∧ u = { s.pass dt with csr := u.csr, log := u.log, health := u.health })
  ∧ (∀ (s w : State) (dt : Nat), s.live = true → w = s.pass dt → w.longAlarm = true → s.flag F.hardLimit_rateAlarm = false →
    (s.rd F.healthStatus_state = 3 ∨ s.rd F.healthStatus_state = 4 ∨ s.rd F.healthStatus_state = 5) →
    ∃ u : State, exec (.hardLimitRate dt) s = .next u.settle ∧ w.withdrawn u 0x10 ∧ u.rd F.hardLimit_rateAlarm = 1 ∧ u.rd F.healthStatus_hard = 1
      ∧ u.rd F.hardLimit_events = satAdd 16 (s.rd F.hardLimit_events) 1 ∧ bit (u.reg .alertCause) 2 = true)
  ∧ (∀ (s w : State) (dt : Nat), s.live = true → w = s.pass dt → s.flag F.hardLimit_ueRate = true → w.ueNow ≤ 1 →
    ∃ u : State, exec (.ueLimitClear dt) s = .next u.settle ∧ u.rd F.hardLimit_ueRate = 0 ∧ u.flag F.healthStatus_hard = s.flag F.hardLimit_rateAlarm
      ∧ RegsBut s u [regAddr .hardLimit 0 0, regAddr .healthStatus 0 0] ∧ u = { w with csr := u.csr })
  ∧ (∀ (s : State) (dt k : Nat), s.live = true → k < 52 → (s.quar k).active = true → (s.quar k).until_ ≤ s.clk.up + dt → s.logRoom 1 →
    ∃ u : State, exec (.quarantineEnd dt k) s = .next u.settle ∧ u.rd F.quar_active k = 0
      ∧ u.quar k = { s.quar k with active := false, lastEnd := some (s.clk.up + dt), viol := [], retr := [] }
      ∧ u.lastEvt = some (0x190A, 0x00A2, 0xFF) ∧ (k < 12 → s.rd F.portStatus_state k = 4 → u.rd F.portStatus_state k = 0)
      ∧ RegsBut s u [regAddr .quar k 0, regAddr .portStatus k 0] ∧ u = { s.pass dt with csr := u.csr, log := u.log, health := u.health, fab := u.fab })
  ∧ (∀ (s : State) (dt k : Nat) (v : QSrc), s.live = true → 64 ≤ k → s.health.srcs[k - 64]? = some v → v.q.active = true → v.q.until_ ≤ s.clk.up + dt →
    s.logRoom 1 →
    ∃ u : State, exec (.quarantineEnd dt k) s = .next u.settle ∧ (u.srcQuar v.addr).active = false ∧ u.rd F.mgmtQuar_active = u.srcsActive % 2 ^ 16
      ∧ u.lastEvt = some (0x190A, 0x00A2, 0xFF) ∧ RegsBut s u [regAddr .mgmtQuar 0 0] ∧ u = { s.pass dt with csr := u.csr, log := u.log, health := u.health })

/-- At a multiple of 1 ms a heartbeat ticks once; with core 2 up the score is 1,000 less the penalties and the watch flag is set below 800; with cores 0, 2 and 3 down and nothing pending only the heartbeat's own counts begin anew. A HEALTH record is appended every hour, a SUMMARY at the end of its interval, which begins the next; in throttle stage 2 both are counted and suppressed. HEALTH_READ answers the report of the last heartbeat and the last HEALTH record. -/
def Obligations.HeartbeatAndHealthRecords : Prop :=
  (∀ (s w : State) (dt : Nat), s.live = true → w = s.pass dt → w.clk.ns % 1000000 < 2 → s.clk.beats ≠ w.clk.ns / 1000000 + 1 → s.coreUp 2 = true →
    ∃ u : State, exec (.heartbeat dt) s = .next u.settle ∧ u.clk = { w.clk with beats := w.clk.ns / 1000000 + 1 }
      ∧ u.rd F.healthStatus_score = 1000 - sumNat w.penalties ∧ u.flag F.healthStatus_watch = decide (1000 - sumNat w.penalties < 800)
      ∧ u.mgmt.hbSteps = 0 ∧ u.mgmt.hbCmds = 0)
  ∧ (∀ (s w : State) (dt : Nat), s.live = true → w = s.pass dt → w.clk.ns % 1000000 < 2 → s.clk.beats ≠ w.clk.ns / 1000000 + 1 →
    s.coreUp 0 = false → s.coreUp 2 = false → s.coreUp 3 = false → s.tier.retries = [] → s.log.hbDropped = 0 → s.rst.powLow = [] →
    s.flag F.healthStatus_hard = false → s.rst.thermLow = [] → s.rst.vinOut = false → s.rst.pmbTries < 4 →
    ∃ u : State, exec (.heartbeat dt) s = .next u.settle ∧ u.clk = { w.clk with beats := w.clk.ns / 1000000 + 1 } ∧ u.log = { s.log with hbCount := 0 }
      ∧ u.tier = { s.tier with waits := [] } ∧ u.mgmt = { s.mgmt with ops := u.mgmt.ops, starved := u.mgmt.starved, hbSteps := 0, hbCmds := 0 }
      ∧ u = { w with csr := u.csr, clk := u.clk, log := u.log, tier := u.tier, mgmt := u.mgmt, xingLogged := [], egr := { s.egr with logged := [] } })
  ∧ (∀ (s w t : State) (dt : Nat), s.live = true → w = { s.pass dt with led := { s.led with healthAt := s.clk.up + dt } } → s.coreUp 3 = true →
    s.led.healthAt + (if s.throttle = 1 then 14400000000000 else 3600000000000) ≤ s.clk.up + dt → s.throttle ≠ 2 → 3 < s.freeSegs.length →
    w.append 0x20 w.healthBody = some t →
    ∃ u : State, exec (.healthRecordTimer dt) s = .next u.settle ∧ u = t ∧ u.led.healthAt = s.clk.up + dt ∧ u = { s.pass dt with csr := u.csr, led := u.led })
  ∧ (∀ (s : State) (dt : Nat), s.live = true → s.coreUp 3 = true → s.led.healthAt + 3600000000000 ≤ s.clk.up + dt → s.throttle = 2 →
    ∃ u : State, exec (.healthRecordTimer dt) s = .next u.settle
      ∧ u.rd F.ledgerCnt_throttled = satAdd F.ledgerCnt_throttled.width (s.rd F.ledgerCnt_throttled) 1 ∧ RegsBut s u [regAddr .ledgerCnt 0 0]
      ∧ u = { s.pass dt with csr := u.csr, led := { s.led with healthAt := s.clk.up + dt } })
  ∧ (∀ (s w t : State) (dt : Nat), s.live = true → w = s.pass dt → s.coreUp 3 = true → s.led.sumAt + s.summaryS * 1000000000 ≤ s.clk.up + dt →
    s.throttle ≠ 2 → 3 < s.freeSegs.length → w.append 0x21 w.summaryBody = some t →
    ∃ u : State, exec (.summaryIntervalEnd dt) s = .next u.settle
      ∧ u = { t with led := { t.led with sumAt := s.clk.up + dt, sumNs := w.clk.ns, sumSeq := s.log.seq }, log := { s.log with codes := [], dropped := 0 } }
      ∧ u = { w with csr := u.csr, led := u.led, log := u.log })
  ∧ (∀ (s : State) (dt : Nat), s.live = true → s.coreUp 3 = true → s.led.sumAt + s.summaryS * 1000000000 ≤ s.clk.up + dt → s.throttle = 2 →
    ∃ u : State, exec (.summaryIntervalEnd dt) s = .next u.settle
      ∧ u.rd F.ledgerCnt_throttled = satAdd F.ledgerCnt_throttled.width (s.rd F.ledgerCnt_throttled) 1 ∧ u.log = { s.log with codes := [], dropped := 0 }
      ∧ RegsBut s u [regAddr .ledgerCnt 0 0]
      ∧ u = { s.pass dt with csr := u.csr, log := u.log, led := { s.led with sumAt := s.clk.up + dt, sumNs := (s.pass dt).clk.ns, sumSeq := s.log.seq } })
  ∧ (∀ (s : State) (r : MReq) (rest : List MReq), s.serves 0x0061 r rest → r.body = [] →
    ∃ u : State, exec .healthRead s = .next u.settle
      ∧ s.answeredAs u r rest 0 0 (slice s.health.report 0 64 ++ slice (((s.latestOf 0x20).map (fun x => x.body)).getD []) 0 128)
      ∧ u = { s with mgmt := u.mgmt, out := u.out })

/-- A HELLO in form joins its fragments; complete, from an enrolled manager key and with fewer than 16 sessions, it opens an unconfirmed session bound to its source and begins the signature of ACCEPT; an unknown key is refused with 0x1605 and nothing sent; a 17th is answered with a CLOSE of E_MGMT_SESSIONS. A complete PROVE begins its verification. A record of no open session, or with a counter of 0, seen or below the window, is dropped in drop_auth; one whose tag is right is counted, moves the window and the session's time, and where it is a new command of one part of a code and role the session has, that command waits for core 0; a repeated request_id sends its response again. A CLOSE with a right tag closes the session. -/
def Obligations.ManagementSessions : Prop :=
  (∀ (s t : State) (dt p : Nat) (src d : Bytes), s.hears p src → hsHdrOk d 1 1608 = true → (s.pass dt).hsCollect src 1 1608 d = (none, t) →
    ∃ u : State, exec (.hello dt p src d) s = .next u.settle ∧ u = t ∧ u = { s.pass dt with mgmt := { s.mgmt with hs := u.mgmt.hs } }
      ∧ (u.mgmt.hs.getLast?.map (fun f => (f.source, f.ty, f.sess, f.have_.getLast?))) = some (src, 1, 0, some (beAt d 16 2, d.drop 24)))
  ∧ (∀ (s t : State) (dt p : Nat) (src d h : Bytes) (k : KeySlot), s.hears p src → hsHdrOk d 1 1608 = true →
    (s.pass dt).hsCollect src 1 1608 d = (some h, t) → s.keyOf 1 (slice h 32 8) = some k → s.mgmt.sessions.length < 16 → s.sec.destroyed = false →
    ∃ u : State, exec (.hello dt p src d) s = .next u.settle ∧ u.mgmt.nextSession = (s.mgmt.nextSession + 1) % 2 ^ 32
      ∧ u.mgmt.sessions.dropLast = s.mgmt.sessions
      ∧ (u.mgmt.sessions.getLast?.map (fun z => (z.id, z.keyId, z.roles, z.confirmed))) = some (s.mgmt.nextSession, slice h 32 8, k.roles, false)
      ∧ (u.mgmt.sessions.getLast?.map (fun z => (z.openedAt, z.source, z.port))) = some (s.clk.up + dt, src, p)
      ∧ (u.mgmt.sessions.getLast?.map (fun z => (z.transcript, z.shared)))
          = u.mgmt.sessions.getLast?.map (fun z => (shake256 32 (h ++ z.accept), slice (Config.kemSecret (slice h 40 1568) s.free) 0 32))
      ∧ (u.mgmt.sessions.getLast?.map (fun z => z.accept))
          = some (toBe 4 s.mgmt.nextSession ++ toLe 32 (Config.freeValue s.free 256 % 2 ^ 256) ++ slice (Config.kemCipher (slice h 40 1568) s.free) 0 1568 ++ s.idPub)
      ∧ u = ({ t with mgmt := { t.mgmt with sessions := u.mgmt.sessions, nextSession := u.mgmt.nextSession }, free := s.free + 1 } : State).inner 6 64 (.hsSign s.mgmt.nextSession)
      ∧ u = { s.pass dt with mgmt := { s.mgmt with sessions := u.mgmt.sessions, nextSession := u.mgmt.nextSession, hs := t.mgmt.hs, ops := u.mgmt.ops }, free := s.free + 1 })
  ∧ (∀ (s t : State) (dt p : Nat) (src d h : Bytes), s.hears p src → hsHdrOk d 1 1608 = true →
    (s.pass dt).hsCollect src 1 1608 d = (some h, t) → s.keyOf 1 (slice h 32 8) = none → s.logRoom 1 → s.health.srcs = [] →
    ∃ u : State, exec (.hello dt p src d) s = .next u.settle ∧ u.lastEvt = some (0x1605, 0x00A1, 0xFF) ∧ u.rd F.mgmtPort_dropAuth p = satAdd F.mgmtPort_dropAuth.width (s.rd F.mgmtPort_dropAuth p) 1
      ∧ RegsBut s u [regAddr .mgmtPort p 0]
      ∧ u = { s.pass dt with csr := u.csr, log := u.log, free := s.free + 1, health := { s.health with srcs := u.health.srcs }, mgmt := { s.mgmt with hs := t.mgmt.hs } })
  ∧ (∀ (s t : State) (dt p : Nat) (src d h : Bytes) (k : KeySlot), s.hears p src → hsHdrOk d 1 1608 = true →
    (s.pass dt).hsCollect src 1 1608 d = (some h, t) → s.keyOf 1 (slice h 32 8) = some k → 16 ≤ s.mgmt.sessions.length →
    ∃ u : State, exec (.hello dt p src d) s = .next u.settle ∧ u = { s.pass dt with mgmt := { s.mgmt with hs := t.mgmt.hs }, out := s.out ++ [.mgmt p 0x1F (toBe 2 E.mgmtSessions)] })
  ∧ (∀ (s : State) (dt p : Nat) (src d : Bytes) (z : SessSt), s.hears p src → hsHdrOk d 3 16224 = true → s.session (beAt d 4 4) = some z →
    z.source = src → z.confirmed = false → s.proving z.id = false → ((s.pass dt).hsCollect src 3 16224 d).1.isSome = true →
    ∃ u : State, exec (.prove dt p src d) s = .next u.settle
      ∧ u = ((s.pass dt).hsCollect src 3 16224 d).2.inner 6 48 (.hsVerify z.id (((s.pass dt).hsCollect src 3 16224 d).1.getD []))
      ∧ u = { s.pass dt with mgmt := { s.mgmt with hs := s.mgmt.hs.filter (fun f => !(f.source == src && f.ty == 3 && f.sess == beAt d 4 4)), ops := u.mgmt.ops } })
  ∧ (∀ (s t : State) (dt p : Nat) (src d : Bytes) (z : SessSt), s.hears p src → hsHdrOk d 3 16224 = true → s.session (beAt d 4 4) = some z →
    z.source = src → z.confirmed = false → s.proving z.id = false → (s.pass dt).hsCollect src 3 16224 d = (none, t) →
    ∃ u : State, exec (.prove dt p src d) s = .next u.settle ∧ u = t ∧ u = { s.pass dt with mgmt := { s.mgmt with hs := u.mgmt.hs } })
  ∧ (∀ (s : State) (dt p : Nat) (src d : Bytes), s.hears p src → recordForm d 0x10 → s.health.srcs = [] →
    (s.session (beAt d 4 4)).all (fun z => !z.confirmed || !z.winIn.fresh (beAt d 8 8)) = true →
    ∃ u : State, exec (.record dt p src d) s = .next u.settle ∧ u.rd F.mgmtPort_dropAuth p = satAdd F.mgmtPort_dropAuth.width (s.rd F.mgmtPort_dropAuth p) 1
      ∧ RegsBut s u [regAddr .mgmtPort p 0] ∧ u = { s.pass dt with csr := u.csr, health := { s.health with srcs := u.health.srcs } })
  ∧ (∀ (s : State) (dt p : Nat) (src d : Bytes) (z : SessSt), s.hears p src → recordForm d 0x10 → s.session (beAt d 4 4) = some z → z.confirmed = true →
    z.winIn.fresh (beAt d 8 8) = true →
    ∃ u : State, exec (.record dt p src d) s = .next u.settle
      ∧ (z.tagOk d = false → u = (s.pass dt).dropAuth p src)
      ∧ (z.tagOk d = true → u.rd F.mgmtPort_rxOk p = satAdd F.mgmtPort_rxOk.width (s.rd F.mgmtPort_rxOk p) 1
        ∧ (u.session z.id).map (fun y => (y.winIn, y.lastAt)) = some (z.winIn.add (beAt d 8 8), s.clk.up + dt))
      ∧ (z.tagOk d = true → cmdForm (z.plain d) → leAt (z.plain d) 18 2 = 1 → leAt (z.plain d) 4 4 + 24 = (z.plain d).length →
        z.reqs.all (fun q => q.reqId ≠ leAt (z.plain d) 8 8) = true → z.stale (leAt (z.plain d) 8 8) = false →
        z.collecting.all (fun c => c.reqId ≠ leAt (z.plain d) 8 8) = true →
        (cmdRole (leAt (z.plain d) 2 2)).any (fun k => hasRole z.roles k && (k ≠ 3 || bit z.roles 3)) = true →
        u.mgmt.waiting = s.mgmt.waiting ++ [⟨z.id, leAt (z.plain d) 8 8, leAt (z.plain d) 2 2, (z.plain d).drop 24, p, s.clk.up + dt⟩] ∧ u.out = s.out)
      ∧ (∀ (q : ReqRec) (x : Nat × Nat × Bytes), z.tagOk d = true → cmdForm (z.plain d) → leAt (z.plain d) 16 2 = 0 →
        z.reqs.find? (fun q => q.reqId = leAt (z.plain d) 8 8) = some q → q.resp = some x →
        u.mgmt.waiting = s.mgmt.waiting ∧ u.out = s.out ++ [.response z.id q.reqId x.1 x.2.1 true x.2.2 (s.sendPort p)])
      ∧ u = { s.pass dt with csr := u.csr, log := u.log, health := u.health, mgmt := { s.mgmt with sessions := u.mgmt.sessions, waiting := u.mgmt.waiting }, out := u.out })
  ∧ (∀ (s : State) (dt p : Nat) (src d : Bytes) (z : SessSt), s.hears p src → recordForm d 0x1F → s.session (beAt d 4 4) = some z → z.confirmed = true →
    z.winIn.fresh (beAt d 8 8) = true → s.logRoom 1 →
    ∃ u : State, exec (.close dt p src d) s = .next u.settle
      ∧ (z.tagOk d = false → u = (s.pass dt).dropAuth p src)
      ∧ (z.tagOk d = true → u.rd F.mgmtPort_rxOk p = satAdd F.mgmtPort_rxOk.width (s.rd F.mgmtPort_rxOk p) 1 ∧ u.lastEvt = some (0x1604, 0x00A1, 0xFF)
        ∧ u.mgmt = { s.mgmt with sessions := s.mgmt.sessions.filter (fun y => y.id ≠ z.id), waiting := s.mgmt.waiting.filter (fun r => r.sess ≠ z.id) })
      ∧ u = { s.pass dt with csr := u.csr, log := u.log, health := u.health, mgmt := { s.mgmt with sessions := u.mgmt.sessions, waiting := u.mgmt.waiting } })

/-- 60 s without a valid record or 24 h after its HELLO a session closes with its waiting commands; 500 ms after its HELLO one not proved is discarded; commands with parts missing 1 s after the first are discarded and answered E_MGMT_INCOMPLETE. An echo request and a neighbour solicitation for an own address are answered; other traffic is dropped and counted. The link state of a port and a restarted core are recorded. A datagram that does not reach the protocol changes nothing. -/
def Obligations.ManagementTimeLimitsAndPorts : Prop :=
  (∀ (s : State) (dt : Nat), s.live = true →
    ∃ u : State, exec (.sessionExpiry dt) s = .next u.settle
      ∧ (∀ y : SessSt, y ∈ u.mgmt.sessions → y ∈ s.mgmt.sessions)
      ∧ u.mgmt.sessions.all (fun z => !z.confirmed || (decide (s.clk.up + dt < z.lastAt + 60000000000) && decide (s.clk.up + dt < z.openedAt + 86400000000000))) = true
      ∧ (∀ y : SessSt, y ∈ s.mgmt.sessions → (∀ z ∈ s.mgmt.sessions, z.id = y.id → z.confirmed = false ∨
        (s.clk.up + dt < z.lastAt + 60000000000 ∧ s.clk.up + dt < z.openedAt + 86400000000000)) → y ∈ u.mgmt.sessions)
      ∧ (∀ r : MReq, r ∈ u.mgmt.waiting ↔ r ∈ s.mgmt.waiting ∧ ((s.session r.sess).isSome = true → (u.session r.sess).isSome = true))
      ∧ u = { s.pass dt with csr := u.csr, log := u.log, mgmt := { s.mgmt with sessions := u.mgmt.sessions, waiting := u.mgmt.waiting } })
  ∧ (∀ (s : State) (dt : Nat) (z : SessSt), s.live = true → s.mgmt.sessions = [z] → z.confirmed = true →
    (z.lastAt + 60000000000 ≤ s.clk.up + dt ∨ z.openedAt + 86400000000000 ≤ s.clk.up + dt) → s.logRoom 1 →
    ∃ u : State, exec (.sessionExpiry dt) s = .next u.settle ∧ u.lastEvt = some (0x1604, 0x00A1, 0xFF)
      ∧ u = { s.pass dt with log := u.log, mgmt := { s.mgmt with sessions := [], waiting := s.mgmt.waiting.filter (fun r => r.sess ≠ z.id) } })
  ∧ (∀ (s : State) (dt : Nat), s.live = true →
    ∃ u : State, exec (.sessionProveTimeout dt) s = .next u.settle
      ∧ u = { s.pass dt with mgmt := { s.mgmt with sessions := s.mgmt.sessions.filter (fun z => z.confirmed || decide (s.clk.up + dt < z.openedAt + 500000000)) } })
  ∧ (∀ (s : State) (dt : Nat), s.live = true → (s.mgmt.sessions.map (fun z => z.id)).Nodup →
    ∃ u : State, exec (.commandPartsTimeout dt) s = .next u.settle
      ∧ u = { s.pass dt with mgmt := { s.mgmt with sessions := s.mgmt.sessions.map (fun z => { z with collecting := z.collecting.filter (fun c => !c.late (s.clk.up + dt)), outCtr := z.outCtr + (z.collecting.filter (fun c => c.late (s.clk.up + dt))).length }) }, out := s.out ++ s.mgmt.sessions.flatMap (fun z => (z.collecting.filter (fun c => c.late (s.clk.up + dt))).map (fun c => Emit.response z.id c.reqId E.mgmtIncomplete 0 false [] (s.sendPort c.port))) })
  ∧ (∀ (s : State) (p : Nat) (src : Bytes), s.hears p src →
    ∃ u : State, exec (.mgmtNonProtocolRx p src) s = .next u.settle ∧ u.rd F.mgmtPort_dropOther p = satAdd F.mgmtPort_dropOther.width (s.rd F.mgmtPort_dropOther p) 1
      ∧ RegsBut s u [regAddr .mgmtPort p 0] ∧ u = { s with csr := u.csr })
  ∧ (∀ (s : State) (p ty : Nat) (src target body : Bytes), s.hears p src → (ty = 128 ∨ ty = 135) →
    ∃ u : State, exec (.mgmtIcmpv6Rx p ty src target body) s = .next u.settle
      ∧ u = { s with out := s.out ++ (if s.ownAddr target then (if ty = 128 then [.mgmt p 0x81 body] else [.mgmt p 0x88 target]) else []) })
  ∧ (∀ (s : State) (p ty : Nat) (src target body : Bytes), s.hears p src → ty ≠ 128 → ty ≠ 135 →
    ∃ u : State, exec (.mgmtIcmpv6Rx p ty src target body) s = .next u.settle
      ∧ u.rd F.mgmtPort_dropOther p = satAdd F.mgmtPort_dropOther.width (s.rd F.mgmtPort_dropOther p) 1
      ∧ RegsBut s u [regAddr .mgmtPort p 0] ∧ u = { s with csr := u.csr })
  ∧ (∀ (s : State) (p : Nat) (b : Bool), s.live = true → p < 2 →
    ∃ u : State, exec (.mgmtLinkChange p b) s = .next u.settle ∧ u.portUp p = b ∧ u.rd F.mgmtPort_dropOther p = s.rd F.mgmtPort_dropOther p
      ∧ RegsBut s u [regAddr .mgmtPort p 0] ∧ u = { s with csr := u.csr })
  ∧ (∀ (s : State) (dt k : Nat), s.live = true → k < 4 → s.coreUp k = false → s.rd F.healthStatus_state ≠ 1 →
    ∃ u : State, exec (.mgmtCoreRestarted dt k) s = .next u.settle ∧ u.rd F.mcStatus_coreUp = s.rd F.mcStatus_coreUp + 2 ^ k
      ∧ RegsBut s u [regAddr .mcStatus 0 0] ∧ u = { s.pass dt with csr := u.csr })
  ∧ (∀ (s : State) (dt p : Nat) (src d : Bytes), s.live = true → ¬ s.hears p src →
    exec (.hello dt p src d) s = .next s.settle ∧ exec (.prove dt p src d) s = .next s.settle ∧ exec (.record dt p src d) s = .next s.settle
      ∧ exec (.close dt p src d) s = .next s.settle ∧ exec (.mgmtNonProtocolRx p src) s = .next s.settle
      ∧ exec (.mgmtIcmpv6Rx p dt src src d) s = .next s.settle)

/-- Every access that reaches a register has an address that is a multiple of 8, the register's own. A read in the window of a disabled cluster, at an address of no register or at one that is not a multiple of 8 returns 0, a write there changes no register, and each writes one record: code 0x0002 for the disabled cluster and 0x0003 otherwise, source 0x1000 + 16 c + 15 in the window of cluster c and 0x00A0 elsewhere, mould 0xFF, and address, direction, requester and value in its detail; a write to an RL field after its pour writes 0x0001 so. In a heartbeat that has its 16,384 records they are counted as dropped. -/
def Obligations.AccessesThatReachNoRegister : Prop :=
  (∀ (s : State) (addr i j : Nat) (r : RegName), s.csrAt addr = .reg r i j → addr % 8 = 0 ∧ addr = regAddr r i j)
  ∧ (∀ (s : State) (addr : Nat), addr % 8 ≠ 0 → s.csrAt addr = .disabled ∨ s.csrAt addr = .none)
  ∧ (∀ (s : State) (addr c : Nat), csrCluster addr = some c → (s.csrAt addr = .disabled ↔ s.enabled c = false))
  ∧ (∀ (s : State) (req addr value code src : Nat), s.live = true → s.logRoom 1 → (s.csrAt addr = .disabled ∧ code = 2 ∨ s.csrAt addr = .none ∧ code = 3) →
    src = ((csrCluster addr).map (fun c => 0x1000 + 16 * c + 15)).getD 0x00A0 →
    (s.readCsr req addr).1 = 0 ∧ (s.readCsr req addr).2 = { s with log := (s.readCsr req addr).2.log }
      ∧ (s.readCsr req addr).2.logHead = some ⟨s.clk.ns, code, src, 0xFF, 0, (addr % 2 ^ 32 + min req 2 * 2 ^ 33) % 2 ^ 128⟩
      ∧ (∀ mask : Nat, (s.writeCsr req addr value mask).1 = 0 ∧ (s.writeCsr req addr value mask).2 = { s with log := (s.writeCsr req addr value mask).2.log }
        ∧ (s.writeCsr req addr value mask).2.logHead = some ⟨s.clk.ns, code, src, 0xFF, 0, (addr % 2 ^ 32 + 2 ^ 32 + min req 2 * 2 ^ 33 + value % 2 ^ 64 * 2 ^ 64) % 2 ^ 128⟩)
      ∧ (code = 2 → exec (.disabledClusterAccess req addr false value) s = .next (s.readCsr req addr).2.settle
        ∧ exec (.disabledClusterAccess req addr true value) s = .next (s.writeCsr req addr value (2 ^ 64 - 1)).2.settle)
      ∧ (code = 3 → exec (.csrInvalidAccess req addr false value) s = .next (s.readCsr req addr).2.settle
        ∧ exec (.csrInvalidAccess req addr true value) s = .next (s.writeCsr req addr value (2 ^ 64 - 1)).2.settle))
  ∧ (∀ (s : State) (req addr value i j : Nat), s.live = true → s.logRoom 1 → s.csrAt addr = .reg .arrCfg i j → (s.claimer i).isSome = true →
    ∃ u : State, exec (.registerWrite req addr value) s = .next u.settle
      ∧ u.logHead = some ⟨s.clk.ns, 0x0001, 0x1000 + 16 * i + 15, 0xFF, 0, (addr % 2 ^ 32 + 2 ^ 32 + min req 2 * 2 ^ 33 + value % 2 ^ 64 * 2 ^ 64) % 2 ^ 128⟩
      ∧ u = { s with log := u.log })
  ∧ (∀ (s : State) (req addr : Nat), s.log.hbCount = 16384 → (s.csrAt addr = .disabled ∨ s.csrAt addr = .none) →
    (s.readCsr req addr).1 = 0 ∧ (s.readCsr req addr).2.log = { s.log with hbDropped := s.log.hbDropped + 1, dropped := s.log.dropped + 1 }
      ∧ RegsBut s (s.readCsr req addr).2 [regAddr .logStatus 0 0])

/-- It completes: the fields that a write stores take the value's bits, W1C fields written with 1 clear, the others and the reserved bits stay as they were, and nothing else changes; where the register's writes have a rule of their own, another row of the table has them and this one changes nothing. -/
def Obligations.RegisterWritesFollowTheirAccessCodes : Prop :=
  (∀ (s : State) (req addr value i j : Nat) (r : RegName), s.live = true → s.csrAt addr = .reg r i j → hasRule r value = false →
    (r ≠ .arrCfg ∨ (s.claimer i).isNone = true) → s.reg r i j < 2 ^ 64 →
    ∃ u : State, exec (.registerWrite req addr value) s = .next u.settle ∧ u.reg r i j = plainValue r (s.reg r i j) (value % 2 ^ 64)
      ∧ RegsBut s u [addr] ∧ u = { s with csr := u.csr })
  ∧ (∀ (s : State) (req addr value i j : Nat) (r : RegName), s.live = true → s.csrAt addr = .reg r i j → hasRule r value = true →
    exec (.registerWrite req addr value) s = .next s.settle)
  ∧ (∀ (r : RegName) (old eff k : Nat), k < 64 → bit (r.shape.bitsWith (fun a => a = .rw || a = .rws || a = .rl || a = .w1c)) k = false →
    old < 2 ^ 64 → eff < 2 ^ 64 → bit (plainValue r old eff) k = bit old k)
  ∧ (∀ (r : RegName) (old eff k : Nat), k < 64 → r ≠ .arrStatus → bit (r.shape.bitsWith Acc.stored) k = true →
    old < 2 ^ 64 → eff < 2 ^ 64 → bit (plainValue r old eff) k = bit eff k)

/-- IDENT answers DEV_IDENT, device ID, state and epoch. CSR_READ and CSR_WRITE answer what the registers read and take. LOG_READ answers its head and the records from the first held. OP_STATUS answers the 40-byte body of a handle's entry, an unknown handle E_MGMT_NO_HANDLE. OP_CANCEL of a scan ends it with E_SCAN_CANCELLED; of an operation that may not be cancelled it answers E_MGMT_NOT_CANCELLABLE and changes no operation. SUBSCRIBE sets the session's mask. SCAN of a live mould's readable range begins a scan with the start register of R302. -/
def Obligations.CommandsOfTheManagementPlane : Prop :=
  (∀ (s : State) (r : MReq) (rest : List MReq), s.serves 0x0001 r rest → r.body = [] →
    ∃ u : State, exec .ident s = .next u.settle
      ∧ s.answeredAs u r rest 0 0 (toLe 8 (s.reg .devIdent) ++ toLe 2 s.devId ++ toLe 1 (s.rd F.healthStatus_state) ++ toLe 1 0 ++ toLe 4 (s.rd F.fabEpoch_value))
      ∧ u = { s with mgmt := u.mgmt, out := u.out })
  ∧ (∀ (s t : State) (r : MReq) (rest : List MReq) (n : Nat), s.serves 0x0002 r rest → r.body.length = 6 → n = leAt r.body 4 2 → 1 ≤ n → n ≤ 128 →
    t = ((s.taken rest).readCsrs (leAt r.body 0 4) n).2 →
    ∃ u : State, exec .csrRead s = .next u.settle ∧ u.lastAnswer r = some (0, 0, ((s.taken rest).readCsrs (leAt r.body 0 4) n).1)
      ∧ ((s.taken rest).readCsrs (leAt r.body 0 4) n).1.length = 8 * n
      ∧ u = { t with mgmt := { t.mgmt with sessions := u.mgmt.sessions }, out := u.out })
  ∧ (∀ (s : State) (r : MReq) (rest : List MReq) (addr i j : Nat) (x : RegName), s.serves 0x0002 r rest → r.body = toLe 4 addr ++ toLe 2 1 → addr < 2 ^ 32 →
    s.csrAt addr = .reg x i j → (x ≠ .timeNowNs ∧ x ≠ .timeCapNs ∧ x ≠ .arrBeats) →
    ∃ u : State, exec .csrRead s = .next u.settle ∧ s.answeredAs u r rest 0 0 (toLe 8 (s.csrValue x i j)) ∧ u = { s with mgmt := u.mgmt, out := u.out })
  ∧ (∀ (s t : State) (r : MReq) (rest : List MReq) (code : Nat), s.serves 0x0003 r rest → r.body.length = 20 →
    (code, t) = (s.taken rest).writeCsr 0 (leAt r.body 0 4) (leAt r.body 4 8) (leAt r.body 12 8) → (t.session r.sess).isSome = true →
    ∃ u : State, exec .csrWrite s = .next u.settle ∧ u.lastAnswer r = some (code, 0, [])
      ∧ u = { t with mgmt := { t.mgmt with sessions := u.mgmt.sessions }, out := u.out })
  ∧ (∀ (s : State) (r : MReq) (rest : List MReq) (q n : Nat), s.serves 0x0004 r rest → r.body = toLe 8 q ++ toLe 2 n → q < 2 ^ 64 → 1 ≤ n → n ≤ 40 →
    ∃ u : State, exec .logRead s = .next u.settle
      ∧ s.answeredAs u r rest 0 0 (toLe 1 (if q < s.log.seq - s.log.recs.length then 1 else 0) ++ toLe 7 0 ++ toLe 8 (max q (s.log.seq - s.log.recs.length))
        ++ (((s.log.recs.take (s.log.seq - max q (s.log.seq - s.log.recs.length))).reverse).take n).flatMap LogRec.bytes)
      ∧ u = { s with mgmt := u.mgmt, out := u.out })
  ∧ (∀ (s : State) (r : MReq) (rest : List MReq) (h : Nat), s.serves 0x0005 r rest → r.body = toLe 4 h → h < 2 ^ 32 → (s.op (h % 256)).state ≠ 0 → (s.op (h % 256)).handle = h →
    ∃ u : State, exec .opStatus s = .next u.settle ∧ s.answeredAs u r rest 0 0 (opBody (s.op (h % 256))) ∧ u = { s with mgmt := u.mgmt, out := u.out })
  ∧ (∀ (s : State) (r : MReq) (rest : List MReq) (h : Nat), s.serves 0x0005 r rest → r.body = toLe 4 h → h < 2 ^ 32 → s.opOf h = none →
    ∃ u : State, exec .opStatus s = .next u.settle ∧ s.answeredAs u r rest E.mgmtNoHandle 0 [] ∧ u = { s with mgmt := u.mgmt, out := u.out })
  ∧ (∀ (s : State) (r : MReq) (rest : List MReq) (h i m a n poly fold q g pos : Nat), s.serves 0x0006 r rest → r.body = toLe 4 h → h < 2 ^ 32 → s.opOf h = some i →
    (s.op i).state = 1 → (s.op i).body = .scan m a n poly fold q g pos →
    ∃ u : State, exec .opCancel s = .next u.settle ∧ u.lastAnswer r = some (0, 0, [])
      ∧ u.op i = { s.op i with state := 4, status := E.scanCancelled, ended := s.clk.ns, body := .none }
      ∧ u.mgmt = { (s.taken rest).mgmt with ops := Tab.set OpSt.init s.mgmt.ops i (u.op i), ended := s.mgmt.ended ++ [i], sessions := u.mgmt.sessions }
      ∧ u = { s with mgmt := u.mgmt, out := u.out, led := { s.led with waits := s.led.waits.filter (fun p => p.2 ≠ .op i) } })
  ∧ (∀ (s : State) (r : MReq) (rest : List MReq) (h i : Nat), s.serves 0x0006 r rest → r.body = toLe 4 h → h < 2 ^ 32 → s.opOf h = some i → s.cancelCode i = none →
    ∃ u : State, exec .opCancel s = .next u.settle ∧ s.answeredAs u r rest E.mgmtNotCancellable 0 [] ∧ u = { s with mgmt := u.mgmt, out := u.out })
  ∧ (∀ (s : State) (r : MReq) (rest : List MReq) (z : SessSt), s.serves 0x0007 r rest → r.body.length = 4 → s.session r.sess = some z →
    ∃ u : State, exec .subscribe s = .next u.settle ∧ s.answeredAs u r rest 0 0 []
      ∧ (u.session r.sess).map (fun y => (y.mask, y.sentTo)) = some (leAt r.body 0 4 % 8, if bit z.mask 1 then z.sentTo else s.log.seq)
      ∧ u = { s with mgmt := u.mgmt, out := u.out })
  ∧ (∀ (s : State) (r : MReq) (rest : List MReq) (m a n p g cont i : Nat), s.serves 0x0040 r rest → r.body.length = 32 → m = leAt r.body 0 1 → m < 64 → p = leAt r.body 1 1 → p < 3 →
    leAt r.body 2 1 < 3 → cont = leAt r.body 3 1 → cont < 2 → a = leAt r.body 8 8 → n = leAt r.body 16 8 → s.mouldLive m = true → a % 64 = 0 → n % 64 = 0 →
    0 < n → n ≤ 2 ^ 40 → a + n ≤ 2 ^ 48 → s.covered m a n 1 = true → s.scans < 4 → s.freeEntry = some i →
    g = (if cont = 1 then (leAt r.body 24 8 ^^^ scanOnes p) &&& scanOnes p else scanOnes p) →
    ∃ u : State, exec .scan s = .next u.settle ∧ s.opStarted u r rest i 4 (cdiv n 65536) (.scan m a n p (leAt r.body 2 1) (leAt r.body 4 4) g 0)
      ∧ u = { s with mgmt := u.mgmt, out := u.out })

/-- LEDGER_READ of a range in the ledger answers its bytes, with E_LEDGER_UE where a word of it is uncorrectable; past the ledger's end it is refused with E_LEDGER_RANGE. An append that has waited 10 ms, or that compaction cannot help, fails and logs 0x1701: the device's own record is gone, a staging fails with E_LEDGER_FULL, a command is answered with it; the appends that still wait go on waiting. -/
def Obligations.LedgerReadsAndFailedAppends : Prop :=
  (∀ (s : State) (r : MReq) (rest : List MReq) (ecc word o n : Nat), s.serves 0x0053 r rest → r.body.length = 6 → o = leAt r.body 0 4 → n = leAt r.body 4 2 → o % 8 = 0 → n % 8 = 0 →
    8 ≤ n → n ≤ 1024 → o + n ≤ 33554432 → (ecc = 0 ∨ word < o / 8 ∨ (o + n) / 8 ≤ word) →
    ∃ u : State, exec (.ledgerRead ecc word) s = .next u.settle
      ∧ s.answeredAs u r rest (if (List.range (n / 8)).any (fun i => s.led.bad.contains (o / 8 + i)) then E.ledgerUe else 0) 0 (s.ledBytes o n)
      ∧ u = { s with mgmt := u.mgmt, out := u.out })
  ∧ (∀ (s : State) (r : MReq) (rest : List MReq) (word o n : Nat), s.serves 0x0053 r rest → r.body.length = 6 → o = leAt r.body 0 4 → n = leAt r.body 4 2 → o % 8 = 0 → n % 8 = 0 →
    8 ≤ n → n ≤ 1024 → o + n ≤ 33554432 → o / 8 ≤ word → word < (o + n) / 8 → s.logRoom 1 →
    ∃ u : State, exec (.ledgerRead 2 word) s = .next u.settle ∧ u.lastAnswer r = some (E.ledgerUe, 0, s.ledBytes o n) ∧ u.led.bad.contains word = true
      ∧ u.rd F.ledgerEcc_ue = satAdd F.ledgerEcc_ue.width (s.rd F.ledgerEcc_ue) 1 ∧ u.lastEvt = some (0x1701, 0x00B0, 0xFF) ∧ RegsBut s u [regAddr .ledgerEcc 0 0]
      ∧ u = { s with csr := u.csr, log := u.log, free := s.free + 1, health := u.health, led := { s.led with bad := u.led.bad }, mgmt := { (s.taken rest).mgmt with sessions := u.mgmt.sessions }, out := u.out })
  ∧ (∀ (s : State) (r : MReq) (rest : List MReq) (ecc word o n : Nat), s.serves 0x0053 r rest → r.body.length = 6 → o = leAt r.body 0 4 → n = leAt r.body 4 2 → o % 8 = 0 → n % 8 = 0 →
    8 ≤ n → n ≤ 1024 → 33554432 < o + n →
    ∃ u : State, exec (.ledgerRead ecc word) s = .next u.settle ∧ s.answeredAs u r rest E.ledgerRange 0 [] ∧ u = { s with mgmt := u.mgmt, out := u.out })
  ∧ (∀ (s : State) (dt t ty : Nat) (body : Bytes) (rest : List (Nat × LedWait)), s.live = true → s.led.waits = (t, .own ty body) :: rest → t + 10000000 ≤ s.clk.up + dt →
    s.noCompaction = false → rest.all (fun p => s.clk.up + dt < p.1 + 10000000) = true → s.logRoom 1 →
    ∃ u : State, exec (.ledgerAppendTimeout dt) s = .next u.settle ∧ u.lastEvt = some (0x1701, 0x00B0, 0xFF)
      ∧ u = { s.pass dt with log := u.log, led := { s.led with waits := rest } })
  ∧ (∀ (s : State) (dt t i tgt : Nat) (rest : List (Nat × LedWait)), s.live = true → s.led.waits = (t, .op i) :: rest → t + 10000000 ≤ s.clk.up + dt → i < 256 →
    s.noCompaction = false → rest.all (fun p => decide (s.clk.up + dt < p.1 + 10000000) && decide (p.2 ≠ .op i)) = true → (s.op i).body = .stage tgt →
    ∃ u : State, exec (.ledgerAppendTimeout dt) s = .next u.settle
      ∧ u.op i = { s.op i with state := 3, status := E.ledgerFull, ended := (s.pass dt).clk.ns, body := .none } ∧ u.led = { s.led with waits := rest, stage := none }
      ∧ u.mgmt = { s.mgmt with ops := Tab.set OpSt.init s.mgmt.ops i (u.op i), ended := s.mgmt.ended ++ [i], sessions := u.mgmt.sessions }
      ∧ u = { s.pass dt with csr := u.csr, log := u.log, led := u.led, mgmt := u.mgmt, out := u.out })
  ∧ (∀ (s : State) (dt t : Nat) (r : MReq) (q : List MReq) (rest : List (Nat × LedWait)), s.live = true → s.led.waits = (t, .cmd) :: rest → t + 10000000 ≤ s.clk.up + dt →
    s.noCompaction = false → rest.all (fun p => s.clk.up + dt < p.1 + 10000000) = true → s.mgmt.waiting = r :: q → (s.session r.sess).isSome = true → s.logRoom 1 →
    ∃ u : State, exec (.ledgerAppendTimeout dt) s = .next u.settle ∧ u.lastAnswer r = some (E.ledgerFull, 0, []) ∧ u.lastEvt = some (0x1701, 0x00B0, 0xFF)
      ∧ u = { s.pass dt with log := u.log, led := { s.led with waits := rest }, mgmt := { s.mgmt with waiting := q, sessions := u.mgmt.sessions }, out := u.out })

/-- An open that R522 accepts appends STAGE_OPEN, ends the staging before it, and begins an operation under a handle with the stage id of its record. A chunk appends its CHUNK record and counts a step; the same chunk again is answered 0, other data E_LEDGER_CHUNK. A close with every chunk there closes the staging. A commit of a staged staging appends COMMIT with its version and length, ends it and logs 0x1708. -/
def Obligations.StagingAndCommit : Prop :=
  (∀ (s t w : State) (r : MReq) (rest : List MReq) (n i : Nat), s.opensStage t 0x0050 0 r rest n → w = t.dropStage.ledDone .cmd → w.freeEntry = some i →
    ∃ u : State, exec .imageStageOpen s = .next u.settle ∧ s.stageOpened t w u r 0 n i)
  ∧ (∀ (s t w : State) (r : MReq) (rest : List MReq) (n i : Nat), s.opensStage t 0x0052 1 r rest n → w = t.dropStage.ledDone .cmd → w.freeEntry = some i →
    ∃ u : State, exec .baseStageOpen s = .next u.settle ∧ s.stageOpened t w u r 1 n i)
  ∧ (∀ (s t w : State) (r : MReq) (rest : List MReq) (st : StageSt) (idx : Nat) (data : Bytes), s.sendsChunk 0x0050 0 r rest st idx data →
    s.chunkOf st.id st.total idx = none → (s.taken rest).append 2 (toLe 8 (st.id + idx * 2 ^ 32) ++ data) = some t →
    w = (t.setOp (st.op % 256) { t.op (st.op % 256) with done := (t.op (st.op % 256)).done + 1 }).ledDone .cmd →
    ∃ u : State, exec .imageStageChunk s = .next u.settle ∧ u.lastAnswer r = some (0, 0, []) ∧ (u.op (st.op % 256)).done = (s.op (st.op % 256)).done + 1
      ∧ u = { w with mgmt := { w.mgmt with sessions := u.mgmt.sessions }, out := u.out })
  ∧ (∀ (s t w : State) (r : MReq) (rest : List MReq) (st : StageSt) (idx : Nat) (data : Bytes), s.sendsChunk 0x0052 1 r rest st idx data →
    s.chunkOf st.id st.total idx = none → (s.taken rest).append 2 (toLe 8 (st.id + idx * 2 ^ 32) ++ data) = some t →
    w = (t.setOp (st.op % 256) { t.op (st.op % 256) with done := (t.op (st.op % 256)).done + 1 }).ledDone .cmd →
    ∃ u : State, exec .baseStageChunk s = .next u.settle ∧ u.lastAnswer r = some (0, 0, []) ∧ (u.op (st.op % 256)).done = (s.op (st.op % 256)).done + 1
      ∧ u = { w with mgmt := { w.mgmt with sessions := u.mgmt.sessions }, out := u.out })
  ∧ (∀ (s : State) (r : MReq) (rest : List MReq) (st : StageSt) (idx : Nat) (data d : Bytes), s.sendsChunk 0x0050 0 r rest st idx data →
    s.chunkOf st.id st.total idx = some d →
    ∃ u : State, exec .imageStageChunk s = .next u.settle ∧ s.answeredAs u r rest (if d = data then 0 else E.ledgerChunk) 0 [] ∧ u = { s with mgmt := u.mgmt, out := u.out })
  ∧ (∀ (s : State) (r : MReq) (rest : List MReq) (st : StageSt), s.closesStage 0x0050 0 r rest st →
    ∃ u : State, exec .imageStageClose s = .next u.settle ∧ s.answeredAs u r rest 0 0 []
      ∧ u = { s with mgmt := u.mgmt, out := u.out, led := { s.led with stage := some { st with closed := true } } })
  ∧ (∀ (s : State) (r : MReq) (rest : List MReq) (st : StageSt), s.closesStage 0x0052 1 r rest st →
    ∃ u : State, exec .baseStageClose s = .next u.settle ∧ s.answeredAs u r rest 0 0 []
      ∧ u = { s with mgmt := u.mgmt, out := u.out, led := { s.led with stage := some { st with closed := true } } })
  ∧ (∀ (s t w : State) (r : MReq) (rest : List MReq) (st : StageSt) (q : LRec) (tgt : Nat), s.serves 0x0051 r rest → r.body.length = 8 → tgt = leAt r.body 0 1 → tgt < 2 →
    allZero (slice r.body 1 3) = true → s.staging tgt (leAt r.body 4 4) = some st → st.staged = true → s.latestOf 3 = some q →
    (s.taken rest).append 4 (slice q.body 0 44 ++ toLe 4 (stageVersion tgt ((s.stageData st.id st.total).getD [])) ++ toLe 4 st.total) = some t →
    w = ({ t with led := { t.led with stage := none } } : State).ledDone .cmd → s.logRoom 1 →
    ∃ u : State, exec .imageCommit s = .next u.settle ∧ u.lastAnswer r = some (0, 0, []) ∧ u.led.stage = none ∧ u.lastEvt = some (0x1708, 0x00B0, 0xFF)
      ∧ u = { w with log := u.log, mgmt := { w.mgmt with sessions := u.mgmt.sessions }, out := u.out })

/-- A POUR with no other in progress begins the operation of its pattern. A step that is not operation i's, or longer than its bound, changes nothing. A core-0 step counts its time and a step of its operation: one of a token's check moves it on; the last of a mould pour puts its sections in effect and the mould into READY and ends it. A scan step that reads well absorbs its lines and moves on, or ends with the check value. The first step of a retraining quiesces its channel. -/
def Obligations.PoursAndSteps : Prop :=
  (∀ (s : State) (r : MReq) (rest : List MReq) (i : Nat) (b : Bool), s.serves 0x0010 r rest → s.pouring = none → s.rd F.dbgStatus_level < 2 → b = (patKindOf r.body == 1) →
    (b = true ∨ s.oper.isSome = true) → s.freeEntry = some i →
    ∃ u : State, exec .pour s = .next u.settle ∧ s.opStarted u r rest i 2 0 (.pour ⟨r.body, b, patMouldNo r.body, false⟩) ∧ u = { s with mgmt := u.mgmt, out := u.out })
  ∧ (∀ (s : State) (r : MReq) (rest : List MReq), s.serves 0x0010 r rest → s.pouring.isSome = true →
    ∃ u : State, exec .pour s = .next u.settle ∧ s.answeredAs u r rest E.patBusy 0 [] ∧ u = { s with mgmt := u.mgmt, out := u.out })
  ∧ (∀ (s : State) (dt i ecc word : Nat) (ok : Bool), s.live = true →
    (s.coreUp 0 = false ∨ s.stepReady i = false ∨ (s.stepClass i).2 < dt ∨ (s.stepClass i).1 = true ∧ (s.stepPick ≠ some i ∨ s.coreStepOk dt = false)) →
    exec (.operationStep dt i ok ecc word) s = .next s.settle)
  ∧ (∀ (s : State) (dt i ecc word : Nat) (ok b : Bool) (a : Bytes), s.coreStepMay dt i → (s.op i).body = .token a b →
    ∃ u : State, exec (.operationStep dt i ok ecc word) s = .next u.settle ∧ u.op i = { s.op i with hb := (s.op i).hb + 1, done := (s.op i).done + 1 }
      ∧ u.mgmt = { (s.stepping true dt i).mgmt with ops := u.mgmt.ops } ∧ u = { s.stepping true dt i with mgmt := u.mgmt })
  ∧ (∀ (s : State) (dt i ecc word m : Nat) (ok : Bool) (p : PourSt), s.coreStepMay dt i → (s.op i).body = .pour p → p.base = false → (s.op i).done + 1 = mouldSteps p.data →
    s.keyGone p.data = none → (claimsOf p.data).any s.fencedCluster = false → m = patMouldNo p.data → m < 64 → i < 256 → s.logRoom 2 →
    ∃ u : State, exec (.operationStep dt i ok ecc word) s = .next u.settle ∧ u.mstate m = 2 ∧ (u.mould m).secs = patSecs p.data ∧ (u.mould m).claimed = (s.mould m).claimed
      ∧ u.heat m = s.heat m ∧ u.lastEvt = some (0x0F01, 0x00A0, m)
      ∧ u.op i = { s.op i with hb := (s.op i).hb + 1, done := (s.op i).done + 1, state := 2, status := 0, ended := (s.pass dt).clk.ns, body := .none }
      ∧ u = { s.stepping true dt i with csr := u.csr, log := u.log, free := u.free, led := u.led, moulds := u.moulds, mgmt := u.mgmt, out := u.out })
  ∧ (∀ (s v : State) (dt i ecc word m a n poly fold q g pos : Nat) (ok : Bool), s.live = true → s.coreUp 0 = true → s.stepReady i = true → dt ≤ 100000 → i < 256 →
    (s.op i).body = .scan m a n poly fold q g pos → s.mouldLive m = true → n ≤ pos + min 65536 (n - pos) → (s.stepping false dt i).access m (a + pos) (min 65536 (n - pos)) ecc word = (0, v) →
    ∃ u : State, exec (.operationStep dt i ok ecc word) s = .next u.settle
      ∧ u.op i = { s.op i with hb := (s.op i).hb + 1, done := (s.op i).done + 1, state := 2, status := 0, ended := (s.pass dt).clk.ns, body := .none, res := v.scanLines m (a + pos) poly fold q (pos / 64) (min 65536 (n - pos) / 64) g ^^^ scanOnes poly }
      ∧ u = { v with mgmt := u.mgmt, out := u.out })
  ∧ (∀ (s v : State) (dt i ecc word m a n poly fold q g pos : Nat) (ok : Bool), s.live = true → s.coreUp 0 = true → s.stepReady i = true → dt ≤ 100000 →
    (s.op i).body = .scan m a n poly fold q g pos → s.mouldLive m = true → pos + 65536 < n → (s.stepping false dt i).access m (a + pos) 65536 ecc word = (0, v) →
    ∃ u : State, exec (.operationStep dt i ok ecc word) s = .next u.settle
      ∧ u.op i = { s.op i with hb := (s.op i).hb + 1, done := (s.op i).done + 1, body := .scan m a n poly fold q (v.scanLines m (a + pos) poly fold q (pos / 64) 1024 g) (pos + 65536) }
      ∧ u = { v with mgmt := u.mgmt })
  ∧ (∀ (s : State) (dt i ecc word ch : Nat) (ok : Bool), s.live = true → s.coreUp 0 = true → s.stepReady i = true → dt ≤ 100000 → (s.op i).body = .retrain ch → (s.op i).done = 0 →
    ∃ u : State, exec (.operationStep dt i ok ecc word) s = .next u.settle ∧ u.rd F.gddrCh_state ch = 3 ∧ RegsBut s u [regAddr .gddrCh ch 0]
      ∧ u.op i = { s.op i with hb := (s.op i).hb + 1, done := 1 } ∧ u = { s.stepping false dt i with csr := u.csr, mgmt := u.mgmt })

/-- 100 ms after its last request the loader sends the next on the other port: the magic, the serial, the digest of its identity key, the stage id, the next chunk wanted and the reason. A data datagram for another stage, chunk or total length changes nothing; a fragment of the chunk wanted is held; the last one stages the chunk, and an image that is complete and no image starts again from chunk 0 with E_LEDGER_IMAGE as the reason. -/
def Obligations.RecoveryLoader : Prop :=
  (∀ (s : State) (dt reason : Nat), s.live = true → s.sec.recovering = some reason → s.sec.recAt + 100000000 ≤ s.clk.up + dt →
    ∃ u : State, exec (.recoveryRequest dt) s = .next u.settle
      ∧ u = { s.pass dt with sec := { s.sec with recAt := s.clk.up + dt, recPort := 1 - s.sec.recPort % 2 }, out := s.out ++ [.mgmt s.sec.recPort 0x100 (toLe 4 0x51524B49 ++ slice s.serial 0 16 ++ digest256 s.idPub ++ toLe 4 s.recId ++ toLe 2 s.recNext ++ toLe 2 reason)] })
  ∧ (∀ (s : State) (dt : Nat), s.live = true → (s.sec.recovering = none ∨ s.clk.up + dt < s.sec.recAt + 100000000) →
    ∃ u : State, exec (.recoveryRequest dt) s = .next u.settle ∧ u = s.pass dt)
  ∧ (∀ (s : State) (d : Bytes), s.live = true → (s.sec.recovering = none ∨ leAt d 0 4 ≠ 0x44524B49 ∨ leAt d 4 4 ≠ s.recId ∨ leAt d 8 2 ≠ s.recNext) →
    exec (.recoveryDataRx d) s = .next s.settle)
  ∧ (∀ (s : State) (d : Bytes) (idx frag total len : Nat), s.live = true → s.sec.recovering.isSome = true → leAt d 0 4 = 0x44524B49 → leAt d 4 4 = s.recId → idx = leAt d 8 2 →
    idx = s.recNext → frag = leAt d 10 1 → frag < 64 → total = leAt d 11 4 → idx < stgChunks total → s.led.stage.all (fun st => st.total = total) = true →
    (s.sec.recHave = [] ∨ s.sec.recStage = total) → len = stgLen total idx → (d.drop 15).length = min 1024 (len - 1024 * frag) → 1024 * frag < len →
    s.sec.recHave.any (fun p => p.1 = frag) = false → s.sec.recHave.length + 1 < cdiv len 1024 →
    ∃ u : State, exec (.recoveryDataRx d) s = .next u.settle ∧ u = { s with sec := { s.sec with recHave := s.sec.recHave ++ [(frag, d.drop 15)], recStage := total } })
  ∧ (∀ (s t w : State) (d : Bytes) (total : Nat), s.live = true → s.sec.recovering.isSome = true → leAt d 0 4 = 0x44524B49 → leAt d 4 4 = 0 → leAt d 8 2 = 0 → leAt d 10 1 = 0 →
    total = leAt d 11 4 → s.led.stage = none → s.sec.recHave = [] → (d.drop 15).length = total → total ≤ 1024 → stageLenOk 0 total (slice d 15 64) = true →
    s.append 1 (toLe 8 0 ++ toLe 8 total ++ slice d 15 64) = some t → t.append 2 (toLe 8 (t.led.seq % 2 ^ 32) ++ d.drop 15) = some w →
    w.chunkOf (t.led.seq % 2 ^ 32) total 0 = some (d.drop 15) → imageOk (d.drop 15) = false → s.logRoom 1 →
    ∃ u : State, exec (.recoveryDataRx d) s = .next u.settle ∧ u.sec = { s.sec with recovering := some E.ledgerImage, recHave := [], recStage := 0 } ∧ u.led.stage = none
      ∧ u.lastEvt = some (0x1707, 0x00B0, 0xFF) ∧ u = { w with sec := u.sec, log := u.log, led := { w.led with stage := none } })

/-- An enrolment that R539 does not refuse fills the first blank key slot of its kind, or appends the policy record, extends MEAS_4 or MEAS_5, advances counter slot 4, logs 0x1802 and is answered 0; with a key already enrolled it is refused. A key of role M and a quorum policy need a certificate: one that fits the command begins its verification, none is refused with E_SEC_QUORUM. A revocation fills the slot's revoke word, and the sessions of the key close; an unknown key is refused. The first key is claimed over SMBus while no manager slot is filled. -/
def Obligations.KeyEnrolmentAndRevocation : Prop :=
  (∀ (s t : State) (r : MReq) (rest : List MReq) (roles : Nat), s.serves 0x0058 r rest → leAt r.body 0 1 = 1 → enrolFormat r.body = true → roles = leAt r.body 4 1 → bit roles 3 = false →
    s.enrolRefused r.body = 0 → (s.advanceCounter 4 (s.counter 4 + 1)).isSome = true → (s.taken rest).enrolSlot 1 roles (slice r.body 12 48 ++ List.replicate 56 0#8) = some t → s.logRoom 2 →
    ∃ u : State, exec .keyEnrollManager s = .next u.settle ∧ u.lastAnswer r = some (0, 0, []) ∧ u.lastEvt = some (0x1802, 0x0090, 0xFF)
      ∧ u.keySlots.any (fun k => k.valid && k.kind = 1 && k.roles = roles && slice k.body 0 48 == slice r.body 12 48) = true
      ∧ u = { t with log := u.log, free := t.free + 1, mgmt := { (s.taken rest).mgmt with sessions := u.mgmt.sessions }, out := u.out })
  ∧ (∀ (s t : State) (r : MReq) (rest : List MReq), s.serves 0x0058 r rest → leAt r.body 0 1 = 2 → enrolFormat r.body = true →
    s.enrolRefused r.body = 0 → (s.advanceCounter 4 (s.counter 4 + 1)).isSome = true → (s.taken rest).enrolSlot 2 0 (slice r.body 4 48 ++ List.replicate 56 0#8) = some t → s.logRoom 2 →
    ∃ u : State, exec .keyEnrollPattern s = .next u.settle ∧ u.lastAnswer r = some (0, 0, []) ∧ u.lastEvt = some (0x1802, 0x0090, 0xFF)
      ∧ u.keySlots.any (fun k => k.valid && k.kind = 2 && slice k.body 0 48 == slice r.body 4 48) = true
      ∧ u = { t with log := u.log, free := t.free + 1, mgmt := { (s.taken rest).mgmt with sessions := u.mgmt.sessions }, out := u.out })
  ∧ (∀ (s : State) (r : MReq) (rest : List MReq), s.serves 0x0058 r rest → leAt r.body 0 1 = 2 → enrolFormat r.body = true → s.enrolRefused r.body ≠ 0 →
    ∃ u : State, exec .keyEnrollPattern s = .next u.settle ∧ s.answeredAs u r rest E.secKeyExists 0 [] ∧ u = { s with mgmt := u.mgmt, out := u.out })
  ∧ (∀ (s t : State) (r : MReq) (rest : List MReq) (b q : Bytes), s.serves 0x0058 r rest → leAt r.body 0 1 = 4 → enrolFormat r.body = true → b = slice r.body 4 272 → s.enrolRefused r.body = 0 →
    (s.advanceCounter 4 (s.counter 4 + 1)).isSome = true → leAt b 2 2 = 0 → q = slice b 0 0x10 ++ List.replicate 16 0#8 ++ slice b 0x20 240 →
    (s.taken rest).append 0x30 q = some t → s.logRoom 3 → s.led.waits = [] →
    ∃ u : State, exec .keyEnrollPolicy s = .next u.settle ∧ u.lastAnswer r = some (0, 0, []) ∧ u.lastEvt = some (0x1802, 0x0090, 0xFF) ∧ (s.led.recs.all (fun x => x.seq ≤ s.led.seq) = true → u.policy = q)
      ∧ u.led = (t.keyChange 5 q).led ∧ u.measBytes 5 = (t.keyChange 5 q).measBytes 5
      ∧ u = { s with csr := u.csr, log := u.log, free := u.free, led := u.led, sec := { s.sec with fabricKey := u.sec.fabricKey }, mgmt := { (s.taken rest).mgmt with sessions := u.mgmt.sessions }, out := u.out })
  ∧ (∀ (s : State) (r : MReq) (rest : List MReq), s.serves 0x0058 r rest → leAt r.body 0 1 = 4 → enrolFormat r.body = true → s.enrolRefused r.body = 0 →
    (s.advanceCounter 4 (s.counter 4 + 1)).isSome = true →
    ∃ u : State, exec .keyEnrollPolicy s = .next u.settle
      ∧ u = (match (s.taken rest).enrolPolicy (slice r.body 4 272) with | none => (s.taken rest).ledRetry r | some t => ((t.ledDone .cmd).logFree 0x1802 0x0090 0xFF).answer r 0))
  ∧ (∀ (s : State) (r : MReq) (rest : List MReq) (c : Bytes), s.serves 0x0058 r rest → leAt r.body 0 1 = 3 → enrolFormat r.body = true → c = r.body.drop 108 → certFormat true c = true →
    leAt c 0x0C 4 = s.counter 4 → slice c 0x60 32 = digest256 (r.body.take 108) →
    ∃ u : State, exec .keyEnrollQuorum s = .next u.settle ∧ u = (s.taken rest).inner 6 (48 * certSigs c + 1) (.auth r) ∧ u = { s with mgmt := { (s.taken rest).mgmt with ops := u.mgmt.ops } })
  ∧ (∀ (s : State) (r : MReq) (rest : List MReq), s.serves 0x0058 r rest → leAt r.body 0 1 = 3 → enrolFormat r.body = true → r.body.length = 108 →
    ∃ u : State, exec .keyEnrollQuorum s = .next u.settle ∧ s.answeredAs u r rest E.secQuorum 0 [] ∧ u = { s with mgmt := u.mgmt, out := u.out })
  ∧ (∀ (s v : State) (r : MReq) (rest : List MReq) (k : KeySlot), s.serves 0x0059 r rest → r.body.length = 8 → s.slotOf r.body = some k → s.revokeRefused r.body = 0 → s.revokeNeedsAuth r.body = false →
    (s.advanceCounter 4 (s.counter 4 + 1)).isSome = true → v = ((s.taken rest).setLed (0x4000 + 16 * k.idx + 15) s.clk.ns) →
    ∃ u : State, exec .keyRevoke s = .next u.settle ∧ u.lastAnswer r = some (0, 0, []) ∧ u.led = (v.keyChange 4 (v.slotBytes k.idx)).led ∧ u.measBytes 4 = (v.keyChange 4 (v.slotBytes k.idx)).measBytes 4
      ∧ u.mgmt.sessions.map (fun z => z.id) = (if k.kind = 1 then s.mgmt.sessions.filter (fun z => !(s.mgmt.sessions.any (fun y => y.id = z.id && y.keyId == r.body))) else s.mgmt.sessions).map (fun z => z.id)
      ∧ u = { s with csr := u.csr, log := u.log, free := u.free, led := u.led, mgmt := { (s.taken rest).mgmt with sessions := u.mgmt.sessions, waiting := u.mgmt.waiting }, out := u.out })
  ∧ (∀ (s : State) (r : MReq) (rest : List MReq), s.serves 0x0059 r rest → 8 ≤ r.body.length → s.slotOf (slice r.body 0 8) = none →
    ∃ u : State, exec .keyRevoke s = .next u.settle ∧ s.answeredAs u r rest E.secKeyUnknown 0 [] ∧ u = { s with mgmt := u.mgmt, out := u.out })
  ∧ (∀ (s t : State) (p : Bytes), s.live = true → s.coreUp 0 = true → s.rd F.healthStatus_state ≠ 1 → p.length = 56 → leAt p 48 1 < 16 → allZero (slice p 49 7) = true →
    s.keySlots.any (fun k => k.kind = 1) = false → s.enrolSlot 1 (7 + (if bit (leAt p 48 1) 3 then 8 else 0)) (slice p 0 48 ++ List.replicate 56 0#8) = some t → s.logRoom 2 →
    ∃ u : State, exec (.smbusClaim p) s = .next u.settle ∧ u.lastEvt = some (0x180B, 0x0090, 0xFF) ∧ u = { t with log := u.log, free := t.free + 1, out := s.out ++ [.smbus 0 []] })
  ∧ (∀ (s : State) (p : Bytes), s.live = true → s.coreUp 0 = true → s.rd F.healthStatus_state ≠ 1 → s.keySlots.any (fun k => k.kind = 1) = true → s.logRoom 1 →
    ∃ u : State, exec (.smbusClaim p) s = .next u.settle ∧ u.rd F.sideStat_smbusNack = satAdd F.sideStat_smbusNack.width (s.rd F.sideStat_smbusNack) 1
      ∧ u.lastEvt = some (0x190B, 0x00A0, 0xFF) ∧ RegsBut s u [regAddr .sideStat 0 0] ∧ u = { s with csr := u.csr, log := u.log, free := s.free + 1, out := s.out ++ [.smbus 1 []] })

/-- ATTEST op 0 captures the report at acceptance and begins its signature; op 1 answers the bytes of a report kept, or E_SEC_NO_REPORT. DEBUG_AUTH raises the level within the policy for its duration, drops it to 0, and clears the latches whose condition has ended; a level ends at its time; each change is measured and logged. A tamper condition sets its latch, logs 0x1804 and resets the device where the policy says so. A verified token of the right device, challenge and state unlocks level 3, which closes every session and destroys the keys; any other leaves its result. STORE_NET appends the network record at most once a second. -/
def Obligations.AttestationDebugAndTamper : Prop :=
  (∀ (s : State) (r : MReq) (rest : List MReq) (m i : Nat), s.serves 0x005A r rest → r.body.length = 36 → leAt r.body 0 1 = 0 → m = leAt r.body 1 1 → allZero (slice r.body 2 2) = true →
    (m < 64 ∧ 2 ≤ s.mstate m ∨ m = 0xFF) → s.freeEntry = some i →
    ∃ u : State, exec .attestCapture s = .next u.settle ∧ s.opStarted u r rest i 6 64 (.attest (s.attestReport m (slice r.body 4 32))) ∧ u = { s with mgmt := u.mgmt, out := u.out })
  ∧ (∀ (s : State) (r : MReq) (rest : List MReq) (h o n : Nat) (p : Nat × Bytes), s.serves 0x005A r rest → r.body.length = 14 → leAt r.body 0 1 = 1 → h = leAt r.body 4 4 → o = leAt r.body 8 4 →
    n = leAt r.body 12 2 → allZero (slice r.body 2 2) = true → 1 ≤ n → n ≤ 1376 → o + n ≤ 36176 → (s.opOf h).isSome = true → s.sec.reports.find? (fun p => p.1 = h) = some p →
    ∃ u : State, exec .attestFetch s = .next u.settle ∧ s.answeredAs u r rest 0 0 (slice p.2 o n) ∧ u = { s with mgmt := u.mgmt, out := u.out })
  ∧ (∀ (s : State) (r : MReq) (rest : List MReq) (h o n : Nat), s.serves 0x005A r rest → r.body.length = 14 → leAt r.body 0 1 = 1 → h = leAt r.body 4 4 → o = leAt r.body 8 4 →
    n = leAt r.body 12 2 → allZero (slice r.body 2 2) = true → 1 ≤ n → n ≤ 1376 → o + n ≤ 36176 → (s.opOf h = none ∨ s.sec.reports.any (fun p => p.1 = h) = false) →
    ∃ u : State, exec .attestFetch s = .next u.settle ∧ s.answeredAs u r rest E.secNoReport 0 [] ∧ u = { s with mgmt := u.mgmt, out := u.out })
  ∧ (∀ (s : State) (r : MReq) (rest : List MReq) (level : Nat), s.serves 0x005B r rest → debugFormat r.body = true → leAt r.body 0 1 = 0 → level = leAt r.body 1 1 → level ≤ leAt s.policy 1 1 → level < 3 →
    s.rd F.dbgStatus_level ≠ 3 → (level = 2 → (s.rd F.healthStatus_state = 2 ∨ s.rd F.healthStatus_state = 6) ∧ s.allEmpty = true) → s.logRoom 1 →
    ∃ u : State, exec .debugAuthRaise s = .next u.settle ∧ u.lastAnswer r = some (0, 0, []) ∧ u.rd F.dbgStatus_level = level
      ∧ u.sec = { s.sec with debugEnd := if level = 0 then none else some (s.clk.up + leAt r.body 4 4 * 1000000000) }
      ∧ (level ≠ s.rd F.dbgStatus_level → u.measBytes 6 = digest256 (s.measBytes 6 ++ toLe 32 level) ∧ u.lastEvt = some (if s.rd F.dbgStatus_level < level then 0x1805 else 0x1806, 0x0090, 0xFF))
      ∧ RegsBut s u [regAddr .dbgStatus 0 0, regAddr .meas 6 0, regAddr .meas 6 1, regAddr .meas 6 2, regAddr .meas 6 3]
      ∧ u = { s with csr := u.csr, log := u.log, free := u.free, sec := u.sec, mgmt := { (s.taken rest).mgmt with sessions := u.mgmt.sessions }, out := u.out })
  ∧ (∀ (s : State) (r : MReq) (rest : List MReq), s.serves 0x005B r rest → debugFormat r.body = true → leAt r.body 0 1 = 1 → s.rd F.dbgStatus_level ≠ 3 →
    ∃ u : State, exec .debugAuthDrop s = .next u.settle ∧ u.lastAnswer r = some (0, 0, []) ∧ u.rd F.dbgStatus_level = 0 ∧ u.sec = { s.sec with debugEnd := none }
      ∧ u = { s with csr := u.csr, log := u.log, free := u.free, sec := u.sec, mgmt := { (s.taken rest).mgmt with sessions := u.mgmt.sessions }, out := u.out })
  ∧ (∀ (s : State) (r : MReq) (rest : List MReq), s.serves 0x005B r rest → debugFormat r.body = true → leAt r.body 0 1 = 2 →
    ∃ u : State, exec .debugAuthClearTamper s = .next u.settle ∧ s.answeredAs u r rest 0 0 []
      ∧ u = { s with bkp := { s.bkp with tamper := s.bkp.tamper &&& s.sec.tampCond }, mgmt := u.mgmt, out := u.out })
  ∧ (∀ (s : State) (dt t : Nat), s.live = true → s.sec.debugEnd = some t → t ≤ s.clk.up + dt → s.rd F.dbgStatus_level ≠ 3 →
    ∃ u : State, exec (.debugLevelExpiry dt) s = .next u.settle ∧ u.rd F.dbgStatus_level = 0 ∧ u.sec = { s.sec with debugEnd := none }
      ∧ u = { s.pass dt with csr := u.csr, log := u.log, free := u.free, sec := u.sec })
  ∧ (∀ (s : State) (k : Nat), s.live = true → k < 6 → bit s.bkp.tamper k = false → bit (leAt s.policy 0 1) k = false → s.logRoom 1 →
    ∃ u : State, exec (.tamperEvent k true) s = .next u.settle ∧ bit u.bkp.tamper k = true ∧ u.bkp = { s.bkp with tamper := setBit s.bkp.tamper k true } ∧ u.lastEvt = some (0x1804, 0x00C0, 0xFF)
      ∧ u = { s with log := u.log, bkp := u.bkp, sec := { s.sec with tampCond := setBit s.sec.tampCond k true } })
  ∧ (∀ (s : State) (k : Nat), s.live = true → k < 6 → bit s.bkp.tamper k = false → bit (leAt s.policy 0 1) k = true →
    ∃ u : State, exec (.tamperEvent k true) s = .next u.settle ∧ bit u.bkp.tamper k = true ∧ u.live = false ∧ u.rst.cause = 0x06)
  ∧ (∀ (s : State) (k : Nat), s.live = false → k < 6 → bit s.bkp.tamper k = false →
    ∃ u : State, exec (.tamperEvent k true) s = .next u.settle ∧ u.bkp = { s.bkp with tamper := setBit s.bkp.tamper k true }
      ∧ u = { s with bkp := u.bkp, sec := { s.sec with tampCond := setBit s.sec.tampCond k true }, rst := { s.rst with bootLog := s.rst.bootLog ++ [(0x1804, 0x00C0, 0xFF, k)] } })
  ∧ (∀ (s : State) (k : Nat), k < 6 →
    ∃ u : State, exec (.tamperEvent k false) s = .next u.settle ∧ u = { s with sec := { s.sec with tampCond := setBit s.sec.tampCond k false } })
  ∧ (∀ (s : State) (i : Nat) (d : Bytes) (f : Bool), s.live = true → s.tokenOp = some (i, d, f) → 96 ≤ (s.op i).done → 256 ≤ i →
    ∃ u : State, exec .debugTokenVerified s = .next u.settle ∧ u.tap.tokenRes = s.tokenResult d f ∧ u.op i = OpSt.init
      ∧ (s.tokenResult d f = 0 ↔ s.tokenSigned d = true ∧ f = true ∧ s.rd F.healthStatus_state = 2 ∧ s.allEmpty = true)
      ∧ (s.tokenResult d f = 0 → u.rd F.dbgStatus_level = 3 ∧ u.sec.destroyed = true ∧ u.sec.fabricKey = false ∧ u.mgmt.sessions = [])
      ∧ (s.tokenResult d f ≠ 0 → u = { s with mgmt := { s.mgmt with ops := Tab.set OpSt.init s.mgmt.ops i OpSt.init }, tap := { s.tap with tokenRes := s.tokenResult d f } }))
  ∧ (∀ (s : State) (v : Nat), s.live = true → bit v 0 = true → s.led.netAt.any (fun t => s.clk.up < t + 1000000000) = true → s.logRoom 1 →
    ∃ u : State, exec (.storeNet v) s = .next u.settle ∧ u.rd F.ledgerCtrl_summaryS = bitsOf v 16 16 ∧ u.lastEvt = some (0x1706, 0x00B0, 0xFF) ∧ RegsBut s u [regAddr .ledgerCtrl 0 0]
      ∧ u = { s with csr := u.csr, log := u.log, free := s.free + 1 })
  ∧ (∀ (s w t : State) (v : Nat), s.live = true → bit v 0 = true → s.led.netAt.all (fun t => t + 1000000000 ≤ s.clk.up) = true → s.led.waits = [] →
    w = { s.wr F.ledgerCtrl_summaryS (bitsOf v 16 16) with led := { s.led with netAt := some s.clk.up } } →
    w.append 0x11 (toLe 8 (s.reg .ledgerNet0) ++ toLe 8 (s.reg .ledgerNet1) ++ toLe 1 (s.rd F.ledgerNet2_prefixLen) ++ toLe 7 0) = some t →
    ∃ u : State, exec (.storeNet v) s = .next u.settle ∧ u = t ∧ u.led.netAt = some s.clk.up ∧ u = { s with csr := u.csr, led := u.led })

/-- A supply below 38 V (cause 0x03) or above 66 V (0x09), a rail outside its band for over 10 µs (0x0B), a mean input power over 2,400 W (0x08), a thermal trip (0x04), RESET_N (0x02), a lost reference (0x0A) and a second watchdog expiry within 60 s (0x05) each assert the device reset with their cause, which a reset already asserted does not change. VIN outside its band alarms. The pins and conditions of release follow. One watchdog expiry restarts its core alone. The thermal cap moves a field's limit by 1/16, and with the power cap sets issue_limit_power. -/
def Obligations.SupplyAndResetCauses : Prop :=
  (∀ (s : State), s.live = true → ∃ u : State, exec .powerFail s = .next u.settle ∧ s.downBy u 0x03)
  ∧ (∀ (s : State), s.live = false →
    ∃ u : State, exec .powerFail s = .next u.settle ∧ u = { s with tap := TapSt.init, rst := { s.rst with rails := false, qualified := false } })
  ∧ (∀ (s : State) (mV : Nat), s.live = true → 66000 < mV → mV ≤ 80000 → ∃ u : State, exec (.vinOvervoltage mV) s = .next u.settle ∧ s.downBy u 0x09)
  ∧ (∀ (s : State) (mV : Nat), s.live = true → s.rst.vinOut = false → (38000 ≤ mV ∧ mV < 40000 ∨ 60000 < mV ∧ mV ≤ 66000) → s.logRoom 1 →
    ∃ u : State, exec (.vinOutOfRange mV) s = .next u.settle ∧ u.rst.vinOut = true ∧ u.rd F.pwrAlarm_vinOut = satAdd F.pwrAlarm_vinOut.width (s.rd F.pwrAlarm_vinOut) 1
      ∧ bit (u.reg .alertCause) 4 = true ∧ u.lastEvt = some (0x2001, 0x00C1, 0xFF) ∧ RegsBut s u [regAddr .pwrAlarm 0 0, regAddr .alertCause 0 0]
      ∧ u = { s with csr := u.csr, log := u.log, free := s.free + 1, rst := { s.rst with vinOut := true, alertUntil := u.rst.alertUntil } })
  ∧ (∀ (s : State) (mV : Nat), 40000 ≤ mV → mV ≤ 60000 →
    ∃ u : State, exec (.vinOutOfRange mV) s = .next u.settle ∧ u = { s with rst := { s.rst with vinOut := false } })
  ∧ (∀ (s : State), ∃ u : State, exec .vinQualified s = .next u.settle ∧ u = { s with rst := { s.rst with qualified := true, vinOut := false, rails := s.rst.rails || !s.rst.waitPin } })
  ∧ (∀ (s : State) (ns : Nat), s.live = true → 10000 < ns → ∃ u : State, exec (.railFault ns) s = .next u.settle ∧ s.resetBy u 0x0B ∧ u.rst.rails = false ∧ u.bkp = s.bkp ∧ u.tap = s.tap)
  ∧ (∀ (s : State) (ns : Nat), s.live = true → ns ≤ 10000 →
    ∃ u : State, exec (.railFault ns) s = .next u.settle ∧ u.rd F.pwrAlarm_railFault = satAdd F.pwrAlarm_railFault.width (s.rd F.pwrAlarm_railFault) 1
      ∧ RegsBut s u [regAddr .pwrAlarm 0 0] ∧ u = { s with csr := u.csr })
  ∧ (∀ (s : State) (w : Nat), s.live = true → 2400 < w → ∃ u : State, exec (.overpower w) s = .next u.settle ∧ s.resetBy u 0x08 ∧ u.bkp = s.bkp ∧ u.rst.rails = s.rst.rails)
  ∧ (∀ (s : State) (w : Nat), (w ≤ 2400 ∨ s.live = false) → exec (.overpower w) s = .next s.settle)
  ∧ (∀ (s : State), s.live = true →
    ∃ u : State, exec .thermalTrip s = .next u.settle ∧ s.resetBy u 0x04 ∧ u.tap = TapSt.init ∧ u.bkp = { s.bkp with trip := true } ∧ u.rst.waitPin = true ∧ u.rst.rails = false)
  ∧ (∀ (s : State), s.live = true → ∃ u : State, exec .resetNAssert s = .next u.settle ∧ s.resetBy u 0x02 ∧ u.rst.pinLow = true ∧ u.bkp = { s.bkp with trip := false } ∧ u.tap = s.tap)
  ∧ (∀ (s : State), s.live = false →
    ∃ u : State, exec .resetNAssert s = .next u.settle ∧ u = { s with rst := { s.rst with pinLow := true }, bkp := { s.bkp with trip := false } })
  ∧ (∀ (s : State) (b : Bool), b = (s.rst.waitPin && !s.bkp.trip) →
    ∃ u : State, exec .resetNRelease s = .next u.settle ∧ u = { s with rst := { s.rst with pinLow := false, waitPin := s.rst.waitPin && !b, rails := s.rst.rails || (b && s.rst.qualified) } })
  ∧ (∀ (s : State), s.live = true →
    ∃ u : State, exec .refclkLost s = .next u.settle ∧ u.live = false ∧ u.rst.cause = 0x0A ∧ u.rst.refLost = true ∧ bit (u.reg .alertCause) 0 = true
      ∧ RegsBut State.reset u [regAddr .alertCause 0 0] ∧ u.mgmt = State.reset.mgmt ∧ u.led.words = s.led.words ∧ u.bkp = s.bkp)
  ∧ (∀ (s : State), ∃ u : State, exec .refclkRestored s = .next u.settle ∧ u = { s with rst := { s.rst with refLost := false } })
  ∧ (∀ (s : State) (dt k : Nat), s.live = true → k < 4 → s.coreUp k = true → s.rd F.healthStatus_state ≠ 1 → s.mgmt.wdogAt.any (fun t => s.clk.up + dt ≤ t + 60000000000) = true →
    ∃ u : State, exec (.watchdogExpiry dt k) s = .next u.settle ∧ s.resetBy u 0x05)
  ∧ (∀ (s : State) (dt k : Nat), s.live = true → 2 ≤ k → k < 4 → s.coreUp k = true → s.rd F.healthStatus_state ≠ 1 →
    s.mgmt.wdogAt.any (fun t => s.clk.up + dt ≤ t + 60000000000) = false → s.logRoom 1 →
    ∃ u : State, exec (.watchdogExpiry dt k) s = .next u.settle ∧ u.coreUp k = false ∧ bit (u.rd F.mcStatus_wdogExpired) k = true ∧ u.lastEvt = some (0x1602, 0x00A0 + k, 0xFF)
      ∧ RegsBut s u [regAddr .mcStatus 0 0]
      ∧ u = { s.pass dt with csr := u.csr, log := u.log, health := u.health, mgmt := { s.mgmt with wdogAt := some (s.clk.up + dt) } })
  ∧ (∀ (s : State) (dt : Nat), s.live = true → s.coreUp 1 = true → s.rd F.healthStatus_state ≠ 1 → s.mgmt.wdogAt.any (fun t => s.clk.up + dt ≤ t + 60000000000) = false →
    ∃ u : State, exec (.watchdogExpiry dt 1) s = .next u.settle ∧ u.coreUp 1 = false ∧ u.mgmt.sessions = [] ∧ u.mgmt.hs = [] ∧ u.mgmt.ops = s.mgmt.ops
      ∧ u = { s.pass dt with csr := u.csr, log := u.log, health := u.health, mgmt := { s.mgmt with wdogAt := some (s.clk.up + dt), sessions := [], hs := [], waiting := u.mgmt.waiting } })
  ∧ (∀ (s : State) (dt i m a n p f q g pos : Nat) (o : OpSt), s.live = true → s.coreUp 0 = true → s.rd F.healthStatus_state ≠ 1 →
    s.mgmt.wdogAt.any (fun t => s.clk.up + dt ≤ t + 60000000000) = false → s.mgmt.ops = [(i, o)] → i < 256 → o.state = 1 → o.body = .scan m a n p f q g pos →
    ∃ u : State, exec (.watchdogExpiry dt 0) s = .next u.settle ∧ u.coreUp 0 = false ∧ u.op i = { o with state := 3, status := E.mgmtRestart, ended := (s.pass dt).clk.ns, body := .none })
  ∧ (∀ (s : State) (dt f : Nat) (tj : Int), s.live = true → f < 4 → 100 ≤ tj → tj < 128 → Tab.get 0 s.rst.thermLow f = 0 → Tab.get 0 s.rst.powLow f ≤ 1 → s.logRoom 1 →
    ∃ u : State, exec (.thermalCapStep dt f tj) s = .next u.settle ∧ u.rd F.govStatus_issueLimitPower f = 15 ∧ Tab.get 0 u.rst.thermLow f = 1 ∧ bitsOf (u.rd F.thermStatus_tj) (8 * f) 8 = tj.toNat
      ∧ u.rd F.pwrAlarm_capEntries = satAdd F.pwrAlarm_capEntries.width (s.rd F.pwrAlarm_capEntries) 1 ∧ bit (u.reg .alertCause) 3 = true ∧ u.lastEvt = some (0x2002, 0x00C1, 0xFF)
      ∧ RegsBut s u [regAddr .govStatus f 0, regAddr .thermStatus 0 0, regAddr .pwrAlarm 0 0, regAddr .alertCause 0 0]
      ∧ u = { s.pass dt with csr := u.csr, log := u.log, rst := u.rst })
  ∧ (∀ (s : State) (dt f n : Nat) (tj : Int), s.live = true → f < 4 → 100 ≤ tj → n = Tab.get 0 s.rst.thermLow f → 0 < n → n < 16 → Tab.get 0 s.rst.capAt f + 1000000 ≤ s.clk.up + dt →
    ∃ u : State, exec (.thermalCapStep dt f tj) s = .next u.settle ∧ Tab.get 0 u.rst.thermLow f = n + 1
      ∧ u.rd F.govStatus_issueLimitPower f = (16 - max (n + 1) (Tab.get 0 s.rst.powLow f)) % 2 ^ F.govStatus_issueLimitPower.width
      ∧ RegsBut s u [regAddr .govStatus f 0, regAddr .thermStatus 0 0] ∧ u = { s.pass dt with csr := u.csr, rst := u.rst })
  ∧ (∀ (s : State) (dt f n : Nat) (tj : Int), s.live = true → f < 4 → tj < 97 → n = Tab.get 0 s.rst.thermLow f → 1 < n → Tab.get 0 s.rst.capAt f + 10000000 ≤ s.clk.up + dt →
    ∃ u : State, exec (.thermalCapStep dt f tj) s = .next u.settle ∧ Tab.get 0 u.rst.thermLow f = n - 1
      ∧ u.rd F.govStatus_issueLimitPower f = (16 - max (n - 1) (Tab.get 0 s.rst.powLow f)) % 2 ^ F.govStatus_issueLimitPower.width
      ∧ RegsBut s u [regAddr .govStatus f 0, regAddr .thermStatus 0 0] ∧ u = { s.pass dt with csr := u.csr, rst := u.rst })
  ∧ (∀ (s : State) (dt vin iin pin die : Nat), s.live = true →
    ∃ u : State, exec (.powerCapAdjust dt vin iin pin die) s = .next u.settle ∧ u.rd F.pwrStatus_vin = vin % 2 ^ F.pwrStatus_vin.width ∧ u.rd F.pwrStatus_iin = iin % 2 ^ F.pwrStatus_iin.width
      ∧ u.rd F.pwrStatus_pinW = pin % 2 ^ F.pwrStatus_pinW.width
      ∧ (List.range 4).all (fun f => decide (u.rd F.govStatus_issueLimitPower f = (16 - max (Tab.get 0 s.rst.thermLow f) (Tab.get 0 u.rst.powLow f)) % 2 ^ F.govStatus_issueLimitPower.width)) = true
      ∧ (List.range 4).all (fun f => if powerOver pin die then decide (1 ≤ Tab.get 0 u.rst.powLow f) && decide (Tab.get 0 u.rst.powLow f ≤ 16) else Tab.get 0 u.rst.powLow f == 0) = true
      ∧ RegsBut s u [regAddr .pwrStatus 0 0, regAddr .govStatus 0 0, regAddr .govStatus 1 0, regAddr .govStatus 2 0, regAddr .govStatus 3 0]
      ∧ u = { s.pass dt with csr := u.csr, free := s.free + 4, rst := { s.rst with powLow := u.rst.powLow } })
  ∧ (∀ (s : State) (dt : Nat), s.live = true → ∃ u : State, exec (.alertNHoldExpiry dt) s = .next u.settle ∧ u = s.pass dt)
  ∧ (∀ (s : State), s.live = true → s.logRoom 1 →
    ∃ u : State, exec .smbusCommandRx s = .next u.settle ∧ u.rd F.sideStat_smbusNack = satAdd F.sideStat_smbusNack.width (s.rd F.sideStat_smbusNack) 1
      ∧ u.lastEvt = some (0x190B, 0x00A0, 0xFF) ∧ RegsBut s u [regAddr .sideStat 0 0] ∧ u = { s with csr := u.csr, log := u.log, free := s.free + 1, out := s.out ++ [.smbus 1 []] })
  ∧ (∀ (s : State), s.live = true → ∃ u : State, exec (.pmbusTransferEnd true) s = .next u.settle ∧ u = { s with rst := { s.rst with pmbTries := 0 } })
  ∧ (∀ (s : State), s.live = true → s.rst.pmbTries < 3 → ∃ u : State, exec (.pmbusTransferEnd false) s = .next u.settle ∧ u = { s with rst := { s.rst with pmbTries := s.rst.pmbTries + 1 } })
  ∧ (∀ (s : State), s.live = true → 3 ≤ s.rst.pmbTries → s.logRoom 1 →
    ∃ u : State, exec (.pmbusTransferEnd false) s = .next u.settle ∧ u.rd F.sideStat_pmbusErr = satAdd F.sideStat_pmbusErr.width (s.rd F.sideStat_pmbusErr) 1 ∧ bit (u.reg .alertCause) 5 = true
      ∧ u.lastEvt = some (0x190B, 0x00A0, 0xFF) ∧ RegsBut s u [regAddr .sideStat 0 0, regAddr .alertCause 0 0]
      ∧ u = { s with csr := u.csr, log := u.log, free := s.free + 1, rst := { s.rst with pmbTries := 4, alertUntil := u.rst.alertUntil } })

/-- With every condition of R587 the reset is released: core 0 runs, the clocks start, the backup domain counts and records the cause, or begins anew where its content was lost. Without an accepted image the device does not boot. Firmware starts only an image BOOT accepts: the state becomes ISOLATED, the cores run, and each channel that trains is up. A block reset of a block in CHILL begins, one not in CHILL or of no block is refused; when it is complete the block is at its reset state and no longer busy. DEVICE_RESET is refused while a radio mould runs unless forced, and resets 10 ms later with cause 0x07. -/
def Obligations.ReleaseStartAndCommandedResets : Prop :=
  (∀ (s : State) (dt ecc word : Nat) (lost pufOk keyOk : Bool), (s.pass dt).releasable = true →
    ∃ u : State, exec (.resetRelease dt lost pufOk keyOk ecc word) s = .next u.settle ∧ u.live = true ∧ u.coreUp 0 = true ∧ u.coreUp 1 = false ∧ u.clk = ⟨0, 0, 0, 0, 0⟩
      ∧ u.rd F.clkStatus_present = 2 ^ 18 - 1 - 2 ^ 14 ∧ u.rd F.secStatus_puf = (if pufOk then 1 else 2) ∧ u.bkp.cause = (if lost then 0x01 else s.rst.cause) ∧ u.bkp.valid = !lost)
  ∧ (∀ (s : State) (dt ecc word : Nat) (lost keyOk : Bool), (s.pass dt).releasable = true →
    ∃ u : State, exec (.resetRelease dt lost false keyOk ecc word) s = .next u.settle ∧ u.live = true ∧ u.rst.booted = s.rst.booted
      ∧ u.bkp = (if lost then ⟨1, 0x01, 0, 0, 1, false, false⟩ else { (s.pass dt).bkp with counter := (s.bkp.counter + 1) % 2 ^ 32, cause := s.rst.cause, valid := true }))
  ∧ (∀ (s : State) (dt ecc word : Nat) (lost pufOk keyOk : Bool), (s.pass dt).releasable = false →
    ∃ u : State, exec (.resetRelease dt lost pufOk keyOk ecc word) s = .next u.settle ∧ u = s.pass dt)
  ∧ (∀ (s : State) (dt groups density gbps trained : Nat), s.live = true → s.rst.booted = true → s.rd F.healthStatus_state = 1 → 0 < groups → groups < 16 → 0 < density → density < 4 →
    28 ≤ gbps → gbps ≤ 40 →
    ∃ u : State, exec (.firmwareStart dt groups density gbps trained) s = .next u.settle
      ∧ (∀ b, (s.pass dt).bootImage = .ok b → u.rd F.healthStatus_state = 2 ∧ u.rd F.mcStatus_coreUp = 15 ∧ u.fwLib = leAt b 0x10 2 ∧ u.rst.bootLog = []
        ∧ (∀ ch, ch < 128 → bit groups (ch / 32) = true → u.rd F.gddrCh_state ch = if bit trained ch then 2 else 4)
        ∧ u.rd F.gddrCfg_channelMb = (if density = 1 then 512 else if density = 2 then 768 else 1024))
      ∧ (∀ e, (s.pass dt).bootImage = .error e → u = s.pass dt))
  ∧ (∀ (s : State) (dt groups density gbps trained : Nat), s.live = true → (s.rst.booted = false ∨ s.rd F.healthStatus_state ≠ 1) →
    ∃ u : State, exec (.firmwareStart dt groups density gbps trained) s = .next u.settle ∧ u = s.pass dt)
  ∧ (∀ (s : State) (r : MReq) (rest : List MReq) (i : Nat), s.serves 0x0068 r rest → r.body = [BitVec.ofNat 8 i, 0, 0, 0] → i < 256 → isBlock i = true → s.blockChill i = true →
    (i < 12 ∨ 16 ≤ i) → s.logRoom 1 →
    ∃ u : State, exec .blockReset s = .next u.settle ∧ u.lastAnswer r = some (0, 0, []) ∧ u.rd F.blkRst_busy = 1 ∧ u.rd F.blkRst_lastCode = 0 ∧ u.rd F.blkRst_lastIndex = i
      ∧ u.blockBusy i = true ∧ u.lastEvt = some (0x2004, 0x00C1, 0xFF) ∧ RegsBut s u [regAddr .blkRst 0 0]
      ∧ u = { s with csr := u.csr, log := u.log, rst := { s.rst with blocks := s.rst.blocks ++ [(i, s.clk.up)] }, mgmt := { (s.taken rest).mgmt with sessions := u.mgmt.sessions }, out := u.out })
  ∧ (∀ (s : State) (v i : Nat), s.live = true → bit v 8 = true → i = bitsOf v 0 8 → isBlock i = true → s.blockChill i = true → 12 ≤ i → i < 16 → s.logRoom 1 →
    ∃ u : State, exec (.blkRstGo v) s = .next u.settle ∧ u.rd F.blkRst_busy = 1 ∧ u.blockBusy i = true
      ∧ (List.range 32).all (fun k => decide (u.rd F.gddrCh_state (32 * (i - 12) + k) = if s.rd F.gddrCh_state (32 * (i - 12) + k) = 0 then 0 else 4)) = true
      ∧ u = { s with csr := u.csr, log := u.log, rst := { s.rst with blocks := s.rst.blocks ++ [(i, s.clk.up)] } })
  ∧ (∀ (s : State) (v i : Nat), s.live = true → bit v 8 = true → i = bitsOf v 0 8 → isBlock i = true → s.blockChill i = false → s.logRoom 1 →
    ∃ u : State, exec (.blkRstGo v) s = .next u.settle ∧ u.rd F.blkRst_lastCode = E.resetNotChill ∧ u.rd F.blkRst_lastIndex = i ∧ u.lastEvt = some (0x2003, 0x00C1, 0xFF)
      ∧ RegsBut s u [regAddr .blkRst 0 0] ∧ u = { s with csr := u.csr, log := u.log })
  ∧ (∀ (s : State) (v i : Nat), s.live = true → bit v 8 = true → i = bitsOf v 0 8 → isBlock i = false →
    ∃ u : State, exec (.blkRstGo v) s = .next u.settle ∧ u.rd F.blkRst_lastCode = E.resetBlock ∧ u.rd F.blkRst_lastIndex = i
      ∧ RegsBut s u [regAddr .blkRst 0 0] ∧ u = { s with csr := u.csr })
  ∧ (∀ (s : State) (dt i trained : Nat), s.live = true → s.blockBusy i = true → 64 ≤ i → i < 160 → s.csrSorted = true → Tab.sortedFrom none s.clus = true →
    ∃ u : State, exec (.blockResetDone dt i trained) s = .next u.settle ∧ u.blockBusy i = false ∧ u.clu (i - 64) = ClusterSt.init ∧ u.sram = s.sram.filter (fun e => e.1 / 2 ^ 24 ≠ i - 64)
      ∧ (∀ c, c ≠ i - 64 → u.clu c = s.clu c) ∧ u.flag F.blkRst_busy = !(s.rst.blocks.filter (fun e => e.1 ≠ i)).isEmpty
      ∧ u = { s.pass dt with csr := u.csr, clus := u.clus, sram := u.sram, rst := { s.rst with blocks := s.rst.blocks.filter (fun e => e.1 ≠ i) } })
  ∧ (∀ (s : State) (dt i trained : Nat), s.live = true → s.blockBusy i = true → i < 12 → s.csrSorted = true →
    ∃ u : State, exec (.blockResetDone dt i trained) s = .next u.settle ∧ u.blockBusy i = false ∧ u.port i = PortSt.init
      ∧ u.rd F.portStatus_state i = (if s.flag F.quar_active i then 4 else if s.rd F.portStatus_state i = 5 then 5 else 0)
      ∧ RegsBut s u [regAddr .portStatus i 0, regAddr .portCnt i 0, regAddr .portFec i 0, regAddr .blkRst 0 0]
      ∧ u = { s.pass dt with csr := u.csr, fab := { s.fab with ports := u.fab.ports }, rst := { s.rst with blocks := s.rst.blocks.filter (fun e => e.1 ≠ i) } })
  ∧ (∀ (s : State) (r : MReq) (rest : List MReq) (f : Nat), s.serves 0x0069 r rest → r.body = toLe 4 0x54455352 ++ toLe 4 f → f < 2 →
    (f = 1 ∨ (List.range 64).all (fun m => !(s.isRadio m && (s.mstate m == 3 || s.mstate m == 4))) = true) →
    ∃ u : State, exec .deviceReset s = .next u.settle ∧ s.answeredAs u r rest 0 0 []
      ∧ u = { s with mgmt := u.mgmt, out := u.out, rst := { s.rst with devAt := s.rst.devAt.or (some (s.clk.up + 10000000)) } })
  ∧ (∀ (s : State) (r : MReq) (rest : List MReq), s.serves 0x0069 r rest → r.body = toLe 4 0x54455352 ++ toLe 4 0 →
    (List.range 64).any (fun m => s.isRadio m && (s.mstate m == 3 || s.mstate m == 4)) = true →
    ∃ u : State, exec .deviceReset s = .next u.settle ∧ s.answeredAs u r rest E.resetState 0 [] ∧ u = { s with mgmt := u.mgmt, out := u.out })
  ∧ (∀ (s : State) (dt t : Nat), s.live = true → s.rst.devAt = some t → t ≤ s.clk.up + dt →
    ∃ u : State, exec (.deviceResetDelayExpiry dt) s = .next u.settle ∧ s.resetBy u 0x07)

/-- From every state of the machine, in reset or out of it and whichever clusters are disabled, IDCODE selects itself and Capture-DR loads 0x209608BB, whose version field is 2, part 0x0960, manufacturer 0x45D (continuation count 8, code 0x5D) and bit 0 is 1; beside the TAP nothing changes. -/
def Obligations.IdcodeReads : Prop :=
  (∀ (s : State), ∃ u : State, exec .idcode s = .next u.settle ∧ u.tap.dr = 0x209608BB ∧ bitsOf u.tap.dr 28 4 = 2 ∧ bitsOf u.tap.dr 12 16 = 0x0960 ∧ bitsOf u.tap.dr 1 11 = 0x45D
      ∧ bitsOf u.tap.dr 8 4 = 8 ∧ bitsOf u.tap.dr 1 7 = 0x5D ∧ bit u.tap.dr 0 = true ∧ u.tap = { s.tapLoaded 0x01 0x01 with dr := 0x209608BB } ∧ u = { s with tap := u.tap })

/-- Test-Logic-Reset selects IDCODE. SAMPLE captures the pins and PRELOAD loads the cells without driving a pin. EXTEST, EXTEST_PULSE, EXTEST_TRAIN, CLAMP and HIGHZ are in effect only while the device reset is asserted; otherwise they select bypass and set test_denied. BYPASS and every code that is not decoded capture 0. A vendor scan needs level 3. DBG_CHALLENGE draws a fresh challenge; DBG_TOKEN begins one verification at a time and uses the challenge up. A debug access captures the last one's result, and at the level it needs reads or writes as a CSR access of the TAP, or reads the memory named; below it, it leaves status 2 and does nothing. -/
def Obligations.TestAccessPort : Prop :=
  (∀ (s : State), ∃ u : State, exec .tapReset s = .next u.settle ∧ u = { s with tap := { s.tap with ir := 0x01, mode := 0x01 } })
  ∧ (∀ (s : State) (pins : Nat), ∃ u : State, exec (.sample pins) s = .next u.settle ∧ u = { s with tap := { s.tapLoaded 0x02 0x02 with dr := s.pinLevels pins } })
  ∧ (∀ (s : State) (value : Nat), ∃ u : State, exec (.preload value) s = .next u.settle ∧ u = { s with tap := { s.tapLoaded 0x03 0x03 with cells := value % 2 ^ 3583 } })
  ∧ (∀ (s : State) (scan : Bool) (pins value : Nat), ∃ u : State, exec (.extest scan pins value) s = .next u.settle ∧ u = { s with tap := s.tapTested 0x04 scan pins value })
  ∧ (∀ (s : State) (scan : Bool) (pins value : Nat), ∃ u : State, exec (.extestPulse scan pins value) s = .next u.settle ∧ u = { s with tap := s.tapTested 0x08 scan pins value })
  ∧ (∀ (s : State) (scan : Bool) (pins value : Nat), ∃ u : State, exec (.extestTrain scan pins value) s = .next u.settle ∧ u = { s with tap := s.tapTested 0x09 scan pins value })
  ∧ (∀ (s : State), ∃ u : State, exec .clamp s = .next u.settle ∧ u = { s with tap := { s.tapTested 0x05 false 0 0 with dr := 0 } })
  ∧ (∀ (s : State), ∃ u : State, exec .highz s = .next u.settle ∧ u = { s with tap := { s.tapTested 0x06 false 0 0 with dr := 0 } })
  ∧ (∀ (s : State) (code : Nat), tapDecodes (code % 256) = false → ∃ u : State, exec (.bypass code) s = .next u.settle ∧ u = { s with tap := { s.tapLoaded (code % 256) 0xFF with dr := 0 } })
  ∧ (∀ (s : State) (k : Nat), s.rd F.dbgStatus_level = 3 →
    ∃ u : State, exec (.internalScan k) s = .next u.settle ∧ u = { s with free := s.free + 1, tap := { s.tapLoaded (0x40 + k % 16) (0x40 + k % 16) with dr := Config.freeValue s.free 64 % 2 ^ 64 } })
  ∧ (∀ (s : State) (k : Nat), s.rd F.dbgStatus_level ≠ 3 → ∃ u : State, exec (.internalScan k) s = .next u.settle ∧ u = { s with tap := { s.tapLoaded (0x40 + k % 16) 0xFF with dr := 0 } })
  ∧ (∀ (s : State), s.live = true →
    ∃ u : State, exec .dbgChallenge s = .next u.settle ∧ u.sec.challenge = some (toLe 32 (Config.freeValue s.free 256 % 2 ^ 256), s.clk.up)
      ∧ u = { s with free := s.free + 1, tap := { s.tapLoaded 0x20 0x20 with dr := leNat (toLe 32 (Config.freeValue s.free 256 % 2 ^ 256)) }, sec := { s.sec with challenge := u.sec.challenge } })
  ∧ (∀ (s : State) (data : Bytes), s.live = true → s.tokenBusy = false →
    ∃ u : State, exec (.dbgToken data) s = .next u.settle
      ∧ u = ({ s with tap := { s.tapLoaded 0x21 0x21 with dr := s.tap.tokenRes }, sec := { s.sec with challenge := none } } : State).inner 6 96 (.token (slice data 0 29864) (s.sec.challenge.any (fun c => c.1 == slice data 8 32 && decide (s.clk.up ≤ c.2 + 600000000000))))
      ∧ u = { s with tap := u.tap, sec := u.sec, mgmt := { s.mgmt with ops := u.mgmt.ops } })
  ∧ (∀ (s : State) (data : Bytes), s.live = true → s.tokenBusy = true →
    ∃ u : State, exec (.dbgToken data) s = .next u.settle ∧ u = { s with tap := { s.tapLoaded 0x21 0x21 with dr := 1 } })
  ∧ (∀ (s t : State) (addr v : Nat), s.live = true → 1 ≤ s.rd F.dbgStatus_level → s.readCsr 1 (addr % 2 ^ 32) = (v, t) →
    ∃ u : State, exec (.dbgCsrRead addr) s = .next u.settle
      ∧ u = { t with tap := { s.tapLoaded 0x22 0x22 with dr := s.tap.accStatus + s.tap.accData * 2 ^ 64, accStatus := 0, accData := v } })
  ∧ (∀ (s : State) (addr : Nat), (s.live = false ∨ s.rd F.dbgStatus_level = 0) →
    ∃ u : State, exec (.dbgCsrRead addr) s = .next u.settle
      ∧ u = { s with tap := { s.tapLoaded 0x22 0x22 with dr := s.tap.accStatus + s.tap.accData * 2 ^ 64, accStatus := 2, accData := 0 } })
  ∧ (∀ (s t : State) (addr value code : Nat), s.live = true → 2 ≤ s.rd F.dbgStatus_level → s.writeCsr 1 (addr % 2 ^ 32) value (2 ^ 64 - 1) = (code, t) →
    ∃ u : State, exec (.dbgCsrWrite addr value) s = .next u.settle
      ∧ u = { t with tap := { s.tapLoaded 0x22 0x22 with dr := s.tap.accStatus + s.tap.accData * 2 ^ 64, accStatus := 0, accData := 0 } })
  ∧ (∀ (s : State) (addr value : Nat), (s.live = false ∨ s.rd F.dbgStatus_level < 2) →
    ∃ u : State, exec (.dbgCsrWrite addr value) s = .next u.settle
      ∧ u = { s with tap := { s.tapLoaded 0x22 0x22 with dr := s.tap.accStatus + s.tap.accData * 2 ^ 64, accStatus := 2, accData := 0 } })
  ∧ (∀ (s : State) (space cluster addr st : Nat), s.live = true → (if space % 4 = 3 then 1 else 2) ≤ s.rd F.dbgStatus_level → space % 4 ≠ 1 →
    st = (s.dbgMemory (space % 4) (cluster % 256) (addr % 2 ^ 32)).1 →
    ∃ u : State, exec (.dbgMemoryRead space cluster addr) s = .next u.settle
      ∧ (space % 4 = 0 → addr % 2 ^ 32 % 8 = 0 → addr % 2 ^ 32 < 2 ^ 24 → s.enabled (cluster % 256) = true → u.tap.accStatus = 0 ∧ u.tap.accData = leNat (s.sramBytes (cluster % 256) (addr % 2 ^ 32) 8))
      ∧ (space % 4 = 2 → addr % 2 ^ 32 % 8 = 0 → addr % 2 ^ 32 < 2 ^ 25 → u.tap.accStatus = 0 ∧ u.tap.accData = s.ledW (addr % 2 ^ 32 / 8))
      ∧ (space % 4 ≠ 3 → addr % 8 ≠ 0 → u.tap.accStatus = 3 ∧ u.tap.accData = 0)
      ∧ u = { s with tap := { s.tapLoaded 0x22 0x22 with dr := s.tap.accStatus + s.tap.accData * 2 ^ 64, accStatus := st, accData := (s.dbgMemory (space % 4) (cluster % 256) (addr % 2 ^ 32)).2.1 } })
  ∧ (∀ (s : State) (cluster addr : Nat), s.live = true → 2 ≤ s.rd F.dbgStatus_level → addr % 8 = 0 → addr < 2 ^ 23 →
    ∃ u : State, exec (.dbgMemoryRead 1 cluster addr) s = .next u.settle
      ∧ u = { s with free := s.free + 1, tap := { s.tapLoaded 0x22 0x22 with dr := s.tap.accStatus + s.tap.accData * 2 ^ 64, accStatus := 0, accData := Config.freeValue s.free 64 % 2 ^ 64 } })
  ∧ (∀ (s : State) (space cluster addr : Nat), (s.live = false ∨ s.rd F.dbgStatus_level < (if space % 4 = 3 then 1 else 2)) →
    ∃ u : State, exec (.dbgMemoryRead space cluster addr) s = .next u.settle
      ∧ u = { s with tap := { s.tapLoaded 0x22 0x22 with dr := s.tap.accStatus + s.tap.accData * 2 ^ 64, accStatus := 2, accData := 0 } })
end

