-- ==== Sys2Proof/Laws/Dispatch.lean ====
section
/-! SUPPORT. Sys2Proof/Laws/Dispatch.lean: which meaning exec gives each command, one equation per constructor. -/
namespace Sys2Proof.Machine

theorem exec_registerWrite (req : Nat) (addr : Nat) (value : Nat) (s : State) : exec (.registerWrite req addr value) s = execRegisterWrite req addr value s := rfl
theorem exec_csrInvalidAccess (req : Nat) (addr : Nat) (write : Bool) (value : Nat) (s : State) : exec (.csrInvalidAccess req addr write value) s = execCsrInvalidAccess req addr write value s := rfl
theorem exec_disabledClusterAccess (req : Nat) (addr : Nat) (write : Bool) (value : Nat) (s : State) : exec (.disabledClusterAccess req addr write value) s = execDisabledClusterAccess req addr write value s := rfl
theorem exec_govCtrlWrite (req : Nat) (f : Nat) (value : Nat) (s : State) : exec (.govCtrlWrite req f value) s = execGovCtrlWrite req f value s := rfl
theorem exec_governorSample (dt : Nat) (f : Nat) (rate : Nat) (slowest : Nat) (s : State) : exec (.governorSample dt f rate slowest) s = execGovernorSample dt f rate slowest s := rfl
theorem exec_shedStageLift (dt : Nat) (f : Nat) (s : State) : exec (.shedStageLift dt f) s = execShedStageLift dt f s := rfl
theorem exec_fieldRejoin (dt : Nat) (f : Nat) (s : State) : exec (.fieldRejoin dt f) s = execFieldRejoin dt f s := rfl
theorem exec_meshFrameEnd (f : Nat) (lost : Nat) (m : Nat) (x : Nat) (c : Nat) (s : State) : exec (.meshFrameEnd f lost m x c) s = execMeshFrameEnd f lost m x c s := rfl
theorem exec_holdingExpiry (dt : Nat) (c : Nat) (a : Nat) (s : State) : exec (.holdingExpiry dt c a) s = execHoldingExpiry dt c a s := rfl
theorem exec_preWarm (dt : Nat) (m : Nat) (c : Nat) (i : Nat) (s : State) : exec (.preWarm dt m c i) s = execPreWarm dt m c i s := rfl
theorem exec_rampUpGrant (f : Nat) (done : Bool) (s : State) : exec (.rampUpGrant f done) s = execRampUpGrant f done s := rfl
theorem exec_crossingItem (d : Nat) (toCore : Bool) (taken : Nat) (s : State) : exec (.crossingItem d toCore taken) s = execCrossingItem d toCore taken s := rfl
theorem exec_clockLost (d : Nat) (pll : Bool) (s : State) : exec (.clockLost d pll) s = execClockLost d pll s := rfl
theorem exec_refclkLost (s : State) : exec (.refclkLost ) s = execRefclkLost s := rfl
theorem exec_refclkRestored (s : State) : exec (.refclkRestored ) s = execRefclkRestored s := rfl
theorem exec_slotEntryStart (dt : Nat) (m : Nat) (c : Nat) (i : Nat) (s : State) : exec (.slotEntryStart dt m c i) s = execSlotEntryStart dt m c i s := rfl
theorem exec_slotTableActivate (dt : Nat) (m : Nat) (s : State) : exec (.slotTableActivate dt m) s = execSlotTableActivate dt m s := rfl
theorem exec_loanWindowOpen (dt : Nat) (m : Nat) (c : Nat) (i : Nat) (s : State) : exec (.loanWindowOpen dt m c i) s = execLoanWindowOpen dt m c i s := rfl
theorem exec_loanWindowClose (dt : Nat) (m : Nat) (c : Nat) (i : Nat) (s : State) : exec (.loanWindowClose dt m c i) s = execLoanWindowClose dt m c i s := rfl
theorem exec_issueLimitExpiry (dt : Nat) (c : Nat) (st : Nat) (s : State) : exec (.issueLimitExpiry dt c st) s = execIssueLimitExpiry dt c st s := rfl
theorem exec_segmentAdmit (dt : Nat) (c : Nat) (st : Nat) (s : State) : exec (.segmentAdmit dt c st) s = execSegmentAdmit dt c st s := rfl
theorem exec_nop (c : Nat) (st : Nat) (s : State) : exec (.nop c st) s = execNop c st s := rfl
theorem exec_lds (c : Nat) (st : Nat) (s : State) : exec (.lds c st) s = execLds c st s := rfl
theorem exec_str (c : Nat) (st : Nat) (bad : Bool) (row : Nat) (col : Nat) (len : Nat) (s : State) : exec (.str c st bad row col len) s = execStr c st bad row col len s := rfl
theorem exec_replayCommit (c : Nat) (a : Nat) (ok : Bool) (row : Nat) (col : Nat) (s : State) : exec (.replayCommit c a ok row col) s = execReplayCommit c a ok row col s := rfl
theorem exec_arrivalGranulePresent (c : Nat) (st : Nat) (wait : Nat) (s : State) : exec (.arrivalGranulePresent c st wait) s = execArrivalGranulePresent c st wait s := rfl
theorem exec_drn (c : Nat) (st : Nat) (s : State) : exec (.drn c st) s = execDrn c st s := rfl
theorem exec_chn (c : Nat) (st : Nat) (s : State) : exec (.chn c st) s = execChn c st s := rfl
theorem exec_mov (c : Nat) (st : Nat) (s : State) : exec (.mov c st) s = execMov c st s := rfl
theorem exec_ladleMovBegin (dt : Nat) (c : Nat) (m : Nat) (x : Nat) (s : State) : exec (.ladleMovBegin dt c m x) s = execLadleMovBegin dt c m x s := rfl
theorem exec_movComplete (c : Nat) (m : Nat) (x : Nat) (ecc : Nat) (word : Nat) (s : State) : exec (.movComplete c m x ecc word) s = execMovComplete c m x ecc word s := rfl
theorem exec_twt (c : Nat) (st : Nat) (s : State) : exec (.twt c st) s = execTwt c st s := rfl
theorem exec_twtSatisfied (c : Nat) (st : Nat) (wait : Nat) (s : State) : exec (.twtSatisfied c st wait) s = execTwtSatisfied c st wait s := rfl
theorem exec_tps (c : Nat) (st : Nat) (s : State) : exec (.tps c st) s = execTps c st s := rfl
theorem exec_sgd (c : Nat) (st : Nat) (s : State) : exec (.sgd c st) s = execSgd c st s := rfl
theorem exec_rpt (c : Nat) (st : Nat) (s : State) : exec (.rpt c st) s = execRpt c st s := rfl
theorem exec_endSeg (c : Nat) (st : Nat) (s : State) : exec (.endSeg c st) s = execEndSeg c st s := rfl
theorem exec_segmentEnd (c : Nat) (st : Nat) (s : State) : exec (.segmentEnd c st) s = execSegmentEnd c st s := rfl
theorem exec_waitTimeout (c : Nat) (st : Nat) (s : State) : exec (.waitTimeout c st) s = execWaitTimeout c st s := rfl
theorem exec_segOverrun (c : Nat) (st : Nat) (s : State) : exec (.segOverrun c st) s = execSegOverrun c st s := rfl
theorem exec_listLoadDone (c : Nat) (i : Nat) (ecc : Nat) (word : Nat) (s : State) : exec (.listLoadDone c i ecc word) s = execListLoadDone c i ecc word s := rfl
theorem exec_digestRecordWrite (c : Nat) (s : State) : exec (.digestRecordWrite c) s = execDigestRecordWrite c s := rfl
theorem exec_arrClearCounters (req : Nat) (c : Nat) (a : Nat) (s : State) : exec (.arrClearCounters req c a) s = execArrClearCounters req c a s := rfl
theorem exec_arrSelfTest (req : Nat) (c : Nat) (a : Nat) (s : State) : exec (.arrSelfTest req c a) s = execArrSelfTest req c a s := rfl
theorem exec_selfTestDone (c : Nat) (a : Nat) (pass : Bool) (s : State) : exec (.selfTestDone c a pass) s = execSelfTestDone c a pass s := rfl
theorem exec_mouldChilled (m : Nat) (s : State) : exec (.mouldChilled m) s = execMouldChilled m s := rfl
theorem exec_operationStep (dt : Nat) (i : Nat) (ok : Bool) (ecc : Nat) (word : Nat) (s : State) : exec (.operationStep dt i ok ecc word) s = execOperationStep dt i ok ecc word s := rfl
theorem exec_serviceDatagramRx (dt : Nat) (sub : Nat) (src : Bytes) (sport : Nat) (dst : Bytes) (dport : Nat) (d : Bytes) (s : State) : exec (.serviceDatagramRx dt sub src sport dst dport d) s = execServiceDatagramRx dt sub src sport dst dport d s := rfl
theorem exec_svcRingWrite (req : Nat) (e : Nat) (value : Nat) (s : State) : exec (.svcRingWrite req e value) s = execSvcRingWrite req e value s := rfl
theorem exec_serviceDatagramTx (e : Nat) (s : State) : exec (.serviceDatagramTx e) s = execServiceDatagramTx e s := rfl
theorem exec_gddrGranuleServe (dt : Nat) (ch : Nat) (m : Nat) (own : Bool) (retries : Nat) (ecc : Nat) (line : Nat) (s : State) : exec (.gddrGranuleServe dt ch m own retries ecc line) s = execGddrGranuleServe dt ch m own retries ecc line s := rfl
theorem exec_cxlRequestComplete (dt : Nat) (k : Nat) (m : Nat) (poison : Bool) (malformed : Bool) (line : Nat) (s : State) : exec (.cxlRequestComplete dt k m poison malformed line) s = execCxlRequestComplete dt k m poison malformed line s := rfl
theorem exec_cxlTimeout (dt : Nat) (k : Nat) (m : Nat) (s : State) : exec (.cxlTimeout dt k m) s = execCxlTimeout dt k m s := rfl
theorem exec_cxlLinkTrain (k : Nat) (width : Nat) (cap : Nat) (type3 : Bool) (ide : Bool) (s : State) : exec (.cxlLinkTrain k width cap type3 ide) s = execCxlLinkTrain k width cap type3 ide s := rfl
theorem exec_cxlLinkDown (k : Nat) (s : State) : exec (.cxlLinkDown k) s = execCxlLinkDown k s := rfl
theorem exec_portTrain (dt : Nat) (p : Nat) (s : State) : exec (.portTrain dt p) s = execPortTrain dt p s := rfl
theorem exec_portTrainRetry (dt : Nat) (p : Nat) (s : State) : exec (.portTrainRetry dt p) s = execPortTrainRetry dt p s := rfl
theorem exec_identityWordRx (p : Nat) (peer : Nat) (pport : Nat) (x : Nat) (y : Nat) (z : Nat) (epoch : Nat) (nonce : Bool) (s : State) : exec (.identityWordRx p peer pport x y z epoch nonce) s = execIdentityWordRx p peer pport x y z epoch nonce s := rfl
theorem exec_portDown (p : Nat) (corr : Nat) (unc : Nat) (s : State) : exec (.portDown p corr unc) s = execPortDown p corr unc s := rfl
theorem exec_linkWordRx (dt : Nat) (p : Nat) (w : Nat) (f : Bytes) (ok : Bool) (icv : Bool) (stomp : Bool) (s : State) : exec (.linkWordRx dt p w f ok icv stomp) s = execLinkWordRx dt p w f ok icv stomp s := rfl
theorem exec_linkReplayTimeout (dt : Nat) (p : Nat) (s : State) : exec (.linkReplayTimeout dt p) s = execLinkReplayTimeout dt p s := rfl
theorem exec_frameForward (p : Nat) (s : State) : exec (.frameForward p) s = execFrameForward p s := rfl
theorem exec_putData (p : Nat) (ecc : Nat) (word : Nat) (s : State) : exec (.putData p ecc word) s = execPutData p ecc word s := rfl
theorem exec_getReq (p : Nat) (ecc : Nat) (word : Nat) (s : State) : exec (.getReq p ecc word) s = execGetReq p ecc word s := rfl
theorem exec_storeFrame (p : Nat) (ecc : Nat) (word : Nat) (s : State) : exec (.storeFrame p ecc word) s = execStoreFrame p ecc word s := rfl
theorem exec_loadReq (p : Nat) (ecc : Nat) (word : Nat) (s : State) : exec (.loadReq p ecc word) s = execLoadReq p ecc word s := rfl
theorem exec_atomicReq (p : Nat) (ecc : Nat) (word : Nat) (s : State) : exec (.atomicReq p ecc word) s = execAtomicReq p ecc word s := rfl
theorem exec_vreadReq (p : Nat) (s : State) : exec (.vreadReq p) s = execVreadReq p s := rfl
theorem exec_ownReq (p : Nat) (s : State) : exec (.ownReq p) s = execOwnReq p s := rfl
theorem exec_getResp (p : Nat) (s : State) : exec (.getResp p) s = execGetResp p s := rfl
theorem exec_loadResp (p : Nat) (s : State) : exec (.loadResp p) s = execLoadResp p s := rfl
theorem exec_atomicResp (p : Nat) (s : State) : exec (.atomicResp p) s = execAtomicResp p s := rfl
theorem exec_vreadResp (p : Nat) (s : State) : exec (.vreadResp p) s = execVreadResp p s := rfl
theorem exec_ownResp (p : Nat) (s : State) : exec (.ownResp p) s = execOwnResp p s := rfl
theorem exec_ack (p : Nat) (s : State) : exec (.ack p) s = execAck p s := rfl
theorem exec_nak (p : Nat) (s : State) : exec (.nak p) s = execNak p s := rfl
theorem exec_ackDelayExpiry (dt : Nat) (dev : Nat) (m : Nat) (s : State) : exec (.ackDelayExpiry dt dev m) s = execAckDelayExpiry dt dev m s := rfl
theorem exec_frameResendTimeout (dt : Nat) (dev : Nat) (m : Nat) (seq : Nat) (s : State) : exec (.frameResendTimeout dt dev m seq) s = execFrameResendTimeout dt dev m seq s := rfl
theorem exec_atomicResend (dt : Nat) (id : Nat) (s : State) : exec (.atomicResend dt id) s = execAtomicResend dt id s := rfl
theorem exec_atomicGiveUp (dt : Nat) (id : Nat) (s : State) : exec (.atomicGiveUp dt id) s = execAtomicGiveUp dt id s := rfl
theorem exec_opTimeout (dt : Nat) (id : Nat) (s : State) : exec (.opTimeout dt id) s = execOpTimeout dt id s := rfl
theorem exec_collHello (p : Nat) (s : State) : exec (.collHello p) s = execCollHello p s := rfl
theorem exec_collPart (p : Nat) (retry : Bool) (fail : Bool) (s : State) : exec (.collPart p retry fail) s = execCollPart p retry fail s := rfl
theorem exec_collResult (p : Nat) (s : State) : exec (.collResult p) s = execCollResult p s := rfl
theorem exec_collCredit (p : Nat) (s : State) : exec (.collCredit p) s = execCollCredit p s := rfl
theorem exec_collData (p : Nat) (s : State) : exec (.collData p) s = execCollData p s := rfl
theorem exec_collAbort (p : Nat) (s : State) : exec (.collAbort p) s = execCollAbort p s := rfl
theorem exec_collChunkSend (g : Nat) (s : State) : exec (.collChunkSend g) s = execCollChunkSend g s := rfl
theorem exec_collHelloTimer (dt : Nat) (g : Nat) (s : State) : exec (.collHelloTimer dt g) s = execCollHelloTimer dt g s := rfl
theorem exec_collSetupTimeout (dt : Nat) (g : Nat) (s : State) : exec (.collSetupTimeout dt g) s = execCollSetupTimeout dt g s := rfl
theorem exec_collMovSetupTimeout (dt : Nat) (c : Nat) (m : Nat) (x : Nat) (s : State) : exec (.collMovSetupTimeout dt c m x) s = execCollMovSetupTimeout dt c m x s := rfl
theorem exec_collOpTimeout (dt : Nat) (g : Nat) (s : State) : exec (.collOpTimeout dt g) s = execCollOpTimeout dt g s := rfl
theorem exec_collAbortResend (dt : Nat) (s : State) : exec (.collAbortResend dt) s = execCollAbortResend dt s := rfl
theorem exec_egressFrameStart (dt : Nat) (sub : Nat) (s : State) : exec (.egressFrameStart dt sub) s = execEgressFrameStart dt sub s := rfl
theorem exec_gateIntervalStart (dt : Nat) (sub : Nat) (s : State) : exec (.gateIntervalStart dt sub) s = execGateIntervalStart dt sub s := rfl
theorem exec_accessLinkDown (sub : Nat) (s : State) : exec (.accessLinkDown sub) s = execAccessLinkDown sub s := rfl
theorem exec_heartbeat (dt : Nat) (s : State) : exec (.heartbeat dt) s = execHeartbeat dt s := rfl
theorem exec_timeNowNsRead (dt : Nat) (s : State) : exec (.timeNowNsRead dt) s = execTimeNowNsRead dt s := rfl
theorem exec_timeIncrWrite (value : Nat) (s : State) : exec (.timeIncrWrite value) s = execTimeIncrWrite value s := rfl
theorem exec_timeCtrlWrite (value : Nat) (s : State) : exec (.timeCtrlWrite value) s = execTimeCtrlWrite value s := rfl
theorem exec_ptpMessageRx (dt : Nat) (sub : Nat) (ty : Nat) (seqId : Nat) (ok : Bool) (meas : Option Int) (s : State) : exec (.ptpMessageRx dt sub ty seqId ok meas) s = execPtpMessageRx dt sub ty seqId ok meas s := rfl
theorem exec_esmcRx (dt : Nat) (sub : Nat) (s : State) : exec (.esmcRx dt sub) s = execEsmcRx dt sub s := rfl
theorem exec_esmcTimeout (dt : Nat) (s : State) : exec (.esmcTimeout dt) s = execEsmcTimeout dt s := rfl
theorem exec_timeSourceTimeout (dt : Nat) (s : State) : exec (.timeSourceTimeout dt) s = execTimeSourceTimeout dt s := rfl
theorem exec_timeWordTx (dt : Nat) (p : Nat) (s : State) : exec (.timeWordTx dt p) s = execTimeWordTx dt p s := rfl
theorem exec_timeWordRx (dt : Nat) (p : Nat) (b : Bytes) (s : State) : exec (.timeWordRx dt p b) s = execTimeWordRx dt p b s := rfl
theorem exec_ppsInEdge (dt : Nat) (s : State) : exec (.ppsInEdge dt) s = execPpsInEdge dt s := rfl
theorem exec_tsCapEdge (dt : Nat) (c : Nat) (s : State) : exec (.tsCapEdge dt c) s = execTsCapEdge dt c s := rfl
theorem exec_timeCapNsRead (c : Nat) (s : State) : exec (.timeCapNsRead c) s = execTimeCapNsRead c s := rfl
theorem exec_trigArm (c : Nat) (value : Nat) (s : State) : exec (.trigArm c value) s = execTrigArm c value s := rfl
theorem exec_trigEdge (dt : Nat) (c : Nat) (s : State) : exec (.trigEdge dt c) s = execTrigEdge dt c s := rfl
theorem exec_ppsOutPulse (dt : Nat) (s : State) : exec (.ppsOutPulse dt) s = execPpsOutPulse dt s := rfl
theorem exec_seNop (c : Nat) (e : Nat) (s : State) : exec (.seNop c e) s = execSeNop c e s := rfl
theorem exec_halt (c : Nat) (e : Nat) (s : State) : exec (.halt c e) s = execHalt c e s := rfl
theorem exec_blk (c : Nat) (e : Nat) (s : State) : exec (.blk c e) s = execBlk c e s := rfl
theorem exec_setp (c : Nat) (e : Nat) (s : State) : exec (.setp c e) s = execSetp c e s := rfl
theorem exec_addp (c : Nat) (e : Nat) (s : State) : exec (.addp c e) s = execAddp c e s := rfl
theorem exec_seta (c : Nat) (e : Nat) (s : State) : exec (.seta c e) s = execSeta c e s := rfl
theorem exec_ldi (c : Nat) (e : Nat) (s : State) : exec (.ldi c e) s = execLdi c e s := rfl
theorem exec_std (c : Nat) (e : Nat) (s : State) : exec (.std c e) s = execStd c e s := rfl
theorem exec_mvb (c : Nat) (e : Nat) (s : State) : exec (.mvb c e) s = execMvb c e s := rfl
theorem exec_lut (c : Nat) (e : Nat) (s : State) : exec (.lut c e) s = execLut c e s := rfl
theorem exec_seAdd (c : Nat) (e : Nat) (s : State) : exec (.seAdd c e) s = execSeAdd c e s := rfl
theorem exec_mul (c : Nat) (e : Nat) (s : State) : exec (.mul c e) s = execMul c e s := rfl
theorem exec_ash (c : Nat) (e : Nat) (s : State) : exec (.ash c e) s = execAsh c e s := rfl
theorem exec_seAbs (c : Nat) (e : Nat) (s : State) : exec (.seAbs c e) s = execSeAbs c e s := rfl
theorem exec_seMax (c : Nat) (e : Nat) (s : State) : exec (.seMax c e) s = execSeMax c e s := rfl
theorem exec_seMin (c : Nat) (e : Nat) (s : State) : exec (.seMin c e) s = execSeMin c e s := rfl
theorem exec_sel (c : Nat) (e : Nat) (s : State) : exec (.sel c e) s = execSel c e s := rfl
theorem exec_mac (c : Nat) (e : Nat) (s : State) : exec (.mac c e) s = execMac c e s := rfl
theorem exec_mag2 (c : Nat) (e : Nat) (s : State) : exec (.mag2 c e) s = execMag2 c e s := rfl
theorem exec_tapm (c : Nat) (e : Nat) (s : State) : exec (.tapm c e) s = execTapm c e s := rfl
theorem exec_clra (c : Nat) (e : Nat) (s : State) : exec (.clra c e) s = execClra c e s := rfl
theorem exec_rnd (c : Nat) (e : Nat) (s : State) : exec (.rnd c e) s = execRnd c e s := rfl
theorem exec_job (c : Nat) (e : Nat) (s : State) : exec (.job c e) s = execJob c e s := rfl
theorem exec_jobPosted (c : Nat) (e : Nat) (wait : Nat) (s : State) : exec (.jobPosted c e wait) s = execJobPosted c e wait s := rfl
theorem exec_waitj (c : Nat) (e : Nat) (s : State) : exec (.waitj c e) s = execWaitj c e s := rfl
theorem exec_unitJobStart (u : Nat) (ecc : Nat) (word : Nat) (s : State) : exec (.unitJobStart u ecc word) s = execUnitJobStart u ecc word s := rfl
theorem exec_jobComplete (u : Nat) (s : State) : exec (.jobComplete u) s = execJobComplete u s := rfl
theorem exec_seLoadDone (c : Nat) (e : Nat) (i : Nat) (ecc : Nat) (word : Nat) (s : State) : exec (.seLoadDone c e i ecc word) s = execSeLoadDone c e i ecc word s := rfl
theorem exec_fronthaulFrameRx (dt : Nat) (sub : Nat) (mac : Nat) (vid : Option Nat) (f : Bytes) (s : State) : exec (.fronthaulFrameRx dt sub mac vid f) s = execFronthaulFrameRx dt sub mac vid f s := rfl
theorem exec_timeDomainFrameRx (dt : Nat) (sub : Nat) (mac : Nat) (vid : Option Nat) (f : Bytes) (s : State) : exec (.timeDomainFrameRx dt sub mac vid f) s = execTimeDomainFrameRx dt sub mac vid f s := rfl
theorem exec_unclassifiedFrameRx (dt : Nat) (sub : Nat) (s : State) : exec (.unclassifiedFrameRx dt sub) s = execUnclassifiedFrameRx dt sub s := rfl
theorem exec_rxWindowOpen (dt : Nat) (c : Nat) (s : State) : exec (.rxWindowOpen dt c) s = execRxWindowOpen dt c s := rfl
theorem exec_rxWindowClose (dt : Nat) (c : Nat) (s : State) : exec (.rxWindowClose dt c) s = execRxWindowClose dt c s := rfl
theorem exec_cpringTailWrite (req : Nat) (c : Nat) (value : Nat) (s : State) : exec (.cpringTailWrite req c value) s = execCpringTailWrite req c value s := rfl
theorem exec_cplaneRelease (dt : Nat) (c : Nat) (s : State) : exec (.cplaneRelease dt c) s = execCplaneRelease dt c s := rfl
theorem exec_dlSymbolRead (dt : Nat) (c : Nat) (k : Nat) (n : Nat) (s : State) : exec (.dlSymbolRead dt c k n) s = execDlSymbolRead dt c k n s := rfl
theorem exec_dlFrameQueue (dt : Nat) (c : Nat) (k : Nat) (n : Nat) (s : State) : exec (.dlFrameQueue dt c k n) s = execDlFrameQueue dt c k n s := rfl
theorem exec_dlFrameExpiry (dt : Nat) (c : Nat) (s : State) : exec (.dlFrameExpiry dt c) s = execDlFrameExpiry dt c s := rfl
theorem exec_carrierMute (dt : Nat) (c : Nat) (s : State) : exec (.carrierMute dt c) s = execCarrierMute dt c s := rfl
theorem exec_carrierUnmute (dt : Nat) (c : Nat) (s : State) : exec (.carrierUnmute dt c) s = execCarrierUnmute dt c s := rfl
theorem exec_ldl (c : Nat) (t : Nat) (ecc : Nat) (word : Nat) (s : State) : exec (.ldl c t ecc word) s = execLdl c t ecc word s := rfl
theorem exec_stl (c : Nat) (t : Nat) (ecc : Nat) (word : Nat) (s : State) : exec (.stl c t ecc word) s = execStl c t ecc word s := rfl
theorem exec_atom4 (c : Nat) (t : Nat) (ecc : Nat) (word : Nat) (s : State) : exec (.atom4 c t ecc word) s = execAtom4 c t ecc word s := rfl
theorem exec_atom8 (c : Nat) (t : Nat) (ecc : Nat) (word : Nat) (s : State) : exec (.atom8 c t ecc word) s = execAtom8 c t ecc word s := rfl
theorem exec_own (c : Nat) (t : Nat) (s : State) : exec (.own c t) s = execOwn c t s := rfl
theorem exec_vread (c : Nat) (t : Nat) (s : State) : exec (.vread c t) s = execVread c t s := rfl
theorem exec_fence (c : Nat) (t : Nat) (s : State) : exec (.fence c t) s = execFence c t s := rfl
theorem exec_fenceComplete (c : Nat) (t : Nat) (s : State) : exec (.fenceComplete c t) s = execFenceComplete c t s := rfl
theorem exec_tpost (c : Nat) (t : Nat) (s : State) : exec (.tpost c t) s = execTpost c t s := rfl
theorem exec_twait (c : Nat) (t : Nat) (s : State) : exec (.twait c t) s = execTwait c t s := rfl
theorem exec_sreq (c : Nat) (t : Nat) (s : State) : exec (.sreq c t) s = execSreq c t s := rfl
theorem exec_lload (c : Nat) (t : Nat) (s : State) : exec (.lload c t) s = execLload c t s := rfl
theorem exec_lunload (c : Nat) (t : Nat) (s : State) : exec (.lunload c t) s = execLunload c t s := rfl
theorem exec_seload (c : Nat) (t : Nat) (s : State) : exec (.seload c t) s = execSeload c t s := rfl
theorem exec_cinv (c : Nat) (t : Nat) (s : State) : exec (.cinv c t) s = execCinv c t s := rfl
theorem exec_ccln (c : Nat) (t : Nat) (s : State) : exec (.ccln c t) s = execCcln c t s := rfl
theorem exec_tspawn (c : Nat) (t : Nat) (s : State) : exec (.tspawn c t) s = execTspawn c t s := rfl
theorem exec_park (dt : Nat) (c : Nat) (t : Nat) (s : State) : exec (.park dt c t) s = execPark dt c t s := rfl
theorem exec_texit (c : Nat) (t : Nat) (s : State) : exec (.texit c t) s = execTexit c t s := rfl
theorem exec_timeRead (dt : Nat) (c : Nat) (t : Nat) (s : State) : exec (.timeRead dt c t) s = execTimeRead dt c t s := rfl
theorem exec_getst (c : Nat) (t : Nat) (s : State) : exec (.getst c t) s = execGetst c t s := rfl
theorem exec_threadWake (dt : Nat) (c : Nat) (t : Nat) (s : State) : exec (.threadWake dt c t) s = execThreadWake dt c t s := rfl
theorem exec_threadSwitchQuantum (c : Nat) (s : State) : exec (.threadSwitchQuantum c) s = execThreadSwitchQuantum c s := rfl
theorem exec_watchdogExpiry (dt : Nat) (k : Nat) (s : State) : exec (.watchdogExpiry dt k) s = execWatchdogExpiry dt k s := rfl
theorem exec_hello (dt : Nat) (port : Nat) (src : Bytes) (d : Bytes) (s : State) : exec (.hello dt port src d) s = execHello dt port src d s := rfl
theorem exec_prove (dt : Nat) (port : Nat) (src : Bytes) (d : Bytes) (s : State) : exec (.prove dt port src d) s = execProve dt port src d s := rfl
theorem exec_record (dt : Nat) (port : Nat) (src : Bytes) (d : Bytes) (s : State) : exec (.record dt port src d) s = execRecord dt port src d s := rfl
theorem exec_close (dt : Nat) (port : Nat) (src : Bytes) (d : Bytes) (s : State) : exec (.close dt port src d) s = execClose dt port src d s := rfl
theorem exec_mgmtNonProtocolRx (port : Nat) (src : Bytes) (s : State) : exec (.mgmtNonProtocolRx port src) s = execMgmtNonProtocolRx port src s := rfl
theorem exec_sessionProveTimeout (dt : Nat) (s : State) : exec (.sessionProveTimeout dt) s = execSessionProveTimeout dt s := rfl
theorem exec_sessionExpiry (dt : Nat) (s : State) : exec (.sessionExpiry dt) s = execSessionExpiry dt s := rfl
theorem exec_commandPartsTimeout (dt : Nat) (s : State) : exec (.commandPartsTimeout dt) s = execCommandPartsTimeout dt s := rfl
theorem exec_ident (s : State) : exec (.ident ) s = execIdent s := rfl
theorem exec_csrRead (s : State) : exec (.csrRead ) s = execCsrRead s := rfl
theorem exec_csrWrite (s : State) : exec (.csrWrite ) s = execCsrWrite s := rfl
theorem exec_logRead (s : State) : exec (.logRead ) s = execLogRead s := rfl
theorem exec_opStatus (s : State) : exec (.opStatus ) s = execOpStatus s := rfl
theorem exec_opCancel (s : State) : exec (.opCancel ) s = execOpCancel s := rfl
theorem exec_subscribe (s : State) : exec (.subscribe ) s = execSubscribe s := rfl
theorem exec_pour (s : State) : exec (.pour ) s = execPour s := rfl
theorem exec_mouldStart (s : State) : exec (.mouldStart ) s = execMouldStart s := rfl
theorem exec_mouldChill (s : State) : exec (.mouldChill ) s = execMouldChill s := rfl
theorem exec_mouldQuench (s : State) : exec (.mouldQuench ) s = execMouldQuench s := rfl
theorem exec_ctxQuench (s : State) : exec (.ctxQuench ) s = execCtxQuench s := rfl
theorem exec_segStart (s : State) : exec (.segStart ) s = execSegStart s := rfl
theorem exec_listLoad (s : State) : exec (.listLoad ) s = execListLoad s := rfl
theorem exec_listUnload (s : State) : exec (.listUnload ) s = execListUnload s := rfl
theorem exec_seLoad (s : State) : exec (.seLoad ) s = execSeLoad s := rfl
theorem exec_seUnload (s : State) : exec (.seUnload ) s = execSeUnload s := rfl
theorem exec_thrStart (s : State) : exec (.thrStart ) s = execThrStart s := rfl
theorem exec_thrStop (s : State) : exec (.thrStop ) s = execThrStop s := rfl
theorem exec_auditRun (s : State) : exec (.auditRun ) s = execAuditRun s := rfl
theorem exec_arrSelftest (s : State) : exec (.arrSelftest ) s = execArrSelftest s := rfl
theorem exec_hotPool (s : State) : exec (.hotPool ) s = execHotPool s := rfl
theorem exec_hotLoad (s : State) : exec (.hotLoad ) s = execHotLoad s := rfl
theorem exec_hotPin (s : State) : exec (.hotPin ) s = execHotPin s := rfl
theorem exec_hotUnpin (s : State) : exec (.hotUnpin ) s = execHotUnpin s := rfl
theorem exec_hotEvict (s : State) : exec (.hotEvict ) s = execHotEvict s := rfl
theorem exec_hotLookup (s : State) : exec (.hotLookup ) s = execHotLookup s := rfl
theorem exec_svcBind (s : State) : exec (.svcBind ) s = execSvcBind s := rfl
theorem exec_svcUnbind (s : State) : exec (.svcUnbind ) s = execSvcUnbind s := rfl
theorem exec_groupSetup (s : State) : exec (.groupSetup ) s = execGroupSetup s := rfl
theorem exec_groupFree (s : State) : exec (.groupFree ) s = execGroupFree s := rfl
theorem exec_groupReset (s : State) : exec (.groupReset ) s = execGroupReset s := rfl
theorem exec_radioBind (s : State) : exec (.radioBind ) s = execRadioBind s := rfl
theorem exec_radioUnbind (s : State) : exec (.radioUnbind ) s = execRadioUnbind s := rfl
theorem exec_scan (s : State) : exec (.scan ) s = execScan s := rfl
theorem exec_gddrRetrain (s : State) : exec (.gddrRetrain ) s = execGddrRetrain s := rfl
theorem exec_timeSet (s : State) : exec (.timeSet ) s = execTimeSet s := rfl
theorem exec_ptpConfig (s : State) : exec (.ptpConfig ) s = execPtpConfig s := rfl
theorem exec_ptpStatus (s : State) : exec (.ptpStatus ) s = execPtpStatus s := rfl
theorem exec_imageStageOpen (s : State) : exec (.imageStageOpen ) s = execImageStageOpen s := rfl
theorem exec_imageStageChunk (s : State) : exec (.imageStageChunk ) s = execImageStageChunk s := rfl
theorem exec_imageStageClose (s : State) : exec (.imageStageClose ) s = execImageStageClose s := rfl
theorem exec_baseStageOpen (s : State) : exec (.baseStageOpen ) s = execBaseStageOpen s := rfl
theorem exec_baseStageChunk (s : State) : exec (.baseStageChunk ) s = execBaseStageChunk s := rfl
theorem exec_baseStageClose (s : State) : exec (.baseStageClose ) s = execBaseStageClose s := rfl
theorem exec_imageCommit (s : State) : exec (.imageCommit ) s = execImageCommit s := rfl
theorem exec_ledgerRead (ecc : Nat) (word : Nat) (s : State) : exec (.ledgerRead ecc word) s = execLedgerRead ecc word s := rfl
theorem exec_keyEnrollManager (s : State) : exec (.keyEnrollManager ) s = execKeyEnrollManager s := rfl
theorem exec_keyEnrollPattern (s : State) : exec (.keyEnrollPattern ) s = execKeyEnrollPattern s := rfl
theorem exec_keyEnrollQuorum (s : State) : exec (.keyEnrollQuorum ) s = execKeyEnrollQuorum s := rfl
theorem exec_keyEnrollPolicy (s : State) : exec (.keyEnrollPolicy ) s = execKeyEnrollPolicy s := rfl
theorem exec_keyRevoke (s : State) : exec (.keyRevoke ) s = execKeyRevoke s := rfl
theorem exec_attestCapture (s : State) : exec (.attestCapture ) s = execAttestCapture s := rfl
theorem exec_attestFetch (s : State) : exec (.attestFetch ) s = execAttestFetch s := rfl
theorem exec_debugAuthRaise (s : State) : exec (.debugAuthRaise ) s = execDebugAuthRaise s := rfl
theorem exec_debugAuthDrop (s : State) : exec (.debugAuthDrop ) s = execDebugAuthDrop s := rfl
theorem exec_debugAuthClearTamper (s : State) : exec (.debugAuthClearTamper ) s = execDebugAuthClearTamper s := rfl
theorem exec_certApply (s : State) : exec (.certApply ) s = execCertApply s := rfl
theorem exec_healthRead (s : State) : exec (.healthRead ) s = execHealthRead s := rfl
theorem exec_blockReset (s : State) : exec (.blockReset ) s = execBlockReset s := rfl
theorem exec_deviceReset (s : State) : exec (.deviceReset ) s = execDeviceReset s := rfl
theorem exec_deviceResetDelayExpiry (dt : Nat) (s : State) : exec (.deviceResetDelayExpiry dt) s = execDeviceResetDelayExpiry dt s := rfl
theorem exec_blkRstGo (value : Nat) (s : State) : exec (.blkRstGo value) s = execBlkRstGo value s := rfl
theorem exec_blockResetDone (dt : Nat) (i : Nat) (trained : Nat) (s : State) : exec (.blockResetDone dt i trained) s = execBlockResetDone dt i trained s := rfl
theorem exec_memCert (p : Nat) (s : State) : exec (.memCert p) s = execMemCert p s := rfl
theorem exec_memCertReq (p : Nat) (s : State) : exec (.memCertReq p) s = execMemCertReq p s := rfl
theorem exec_memCertReassemblyTimeout (dt : Nat) (p : Nat) (s : State) : exec (.memCertReassemblyTimeout dt p) s = execMemCertReassemblyTimeout dt p s := rfl
theorem exec_epochGraceExpiry (dt : Nat) (s : State) : exec (.epochGraceExpiry dt) s = execEpochGraceExpiry dt s := rfl
theorem exec_admitPortTimeout (dt : Nat) (s : State) : exec (.admitPortTimeout dt) s = execAdmitPortTimeout dt s := rfl
theorem exec_candidateTimeout (dt : Nat) (s : State) : exec (.candidateTimeout dt) s = execCandidateTimeout dt s := rfl
theorem exec_retainExpiry (dt : Nat) (s : State) : exec (.retainExpiry dt) s = execRetainExpiry dt s := rfl
theorem exec_hardLimitRate (dt : Nat) (s : State) : exec (.hardLimitRate dt) s = execHardLimitRate dt s := rfl
theorem exec_ueLimitClear (dt : Nat) (s : State) : exec (.ueLimitClear dt) s = execUeLimitClear dt s := rfl
theorem exec_quarantineEnd (dt : Nat) (k : Nat) (s : State) : exec (.quarantineEnd dt k) s = execQuarantineEnd dt k s := rfl
theorem exec_macsecVerifyTimeout (dt : Nat) (p : Nat) (s : State) : exec (.macsecVerifyTimeout dt p) s = execMacsecVerifyTimeout dt p s := rfl
theorem exec_healthRecordTimer (dt : Nat) (s : State) : exec (.healthRecordTimer dt) s = execHealthRecordTimer dt s := rfl
theorem exec_summaryIntervalEnd (dt : Nat) (s : State) : exec (.summaryIntervalEnd dt) s = execSummaryIntervalEnd dt s := rfl
theorem exec_storeNet (value : Nat) (s : State) : exec (.storeNet value) s = execStoreNet value s := rfl
theorem exec_ledgerAppendTimeout (dt : Nat) (s : State) : exec (.ledgerAppendTimeout dt) s = execLedgerAppendTimeout dt s := rfl
theorem exec_smbusClaim (payload : Bytes) (s : State) : exec (.smbusClaim payload) s = execSmbusClaim payload s := rfl
theorem exec_tamperEvent (k : Nat) (on : Bool) (s : State) : exec (.tamperEvent k on) s = execTamperEvent k on s := rfl
theorem exec_debugLevelExpiry (dt : Nat) (s : State) : exec (.debugLevelExpiry dt) s = execDebugLevelExpiry dt s := rfl
theorem exec_recoveryRequest (dt : Nat) (s : State) : exec (.recoveryRequest dt) s = execRecoveryRequest dt s := rfl
theorem exec_recoveryDataRx (d : Bytes) (s : State) : exec (.recoveryDataRx d) s = execRecoveryDataRx d s := rfl
theorem exec_powerFail (s : State) : exec (.powerFail ) s = execPowerFail s := rfl
theorem exec_vinOvervoltage (mV : Nat) (s : State) : exec (.vinOvervoltage mV) s = execVinOvervoltage mV s := rfl
theorem exec_vinOutOfRange (mV : Nat) (s : State) : exec (.vinOutOfRange mV) s = execVinOutOfRange mV s := rfl
theorem exec_vinQualified (s : State) : exec (.vinQualified ) s = execVinQualified s := rfl
theorem exec_railFault (ns : Nat) (s : State) : exec (.railFault ns) s = execRailFault ns s := rfl
theorem exec_overpower (w : Nat) (s : State) : exec (.overpower w) s = execOverpower w s := rfl
theorem exec_thermalCapStep (dt : Nat) (f : Nat) (tj : Int) (s : State) : exec (.thermalCapStep dt f tj) s = execThermalCapStep dt f tj s := rfl
theorem exec_thermalTrip (s : State) : exec (.thermalTrip ) s = execThermalTrip s := rfl
theorem exec_resetNAssert (s : State) : exec (.resetNAssert ) s = execResetNAssert s := rfl
theorem exec_resetNRelease (s : State) : exec (.resetNRelease ) s = execResetNRelease s := rfl
theorem exec_resetRelease (dt : Nat) (lost : Bool) (pufOk : Bool) (keyOk : Bool) (ecc : Nat) (word : Nat) (s : State) : exec (.resetRelease dt lost pufOk keyOk ecc word) s = execResetRelease dt lost pufOk keyOk ecc word s := rfl
theorem exec_firmwareStart (dt : Nat) (groups : Nat) (density : Nat) (gbps : Nat) (trained : Nat) (s : State) : exec (.firmwareStart dt groups density gbps trained) s = execFirmwareStart dt groups density gbps trained s := rfl
theorem exec_tapReset (s : State) : exec (.tapReset ) s = execTapReset s := rfl
theorem exec_idcode (s : State) : exec (.idcode ) s = execIdcode s := rfl
theorem exec_sample (pins : Nat) (s : State) : exec (.sample pins) s = execSample pins s := rfl
theorem exec_preload (value : Nat) (s : State) : exec (.preload value) s = execPreload value s := rfl
theorem exec_extest (scan : Bool) (pins : Nat) (value : Nat) (s : State) : exec (.extest scan pins value) s = execExtest scan pins value s := rfl
theorem exec_clamp (s : State) : exec (.clamp ) s = execClamp s := rfl
theorem exec_highz (s : State) : exec (.highz ) s = execHighz s := rfl
theorem exec_extestPulse (scan : Bool) (pins : Nat) (value : Nat) (s : State) : exec (.extestPulse scan pins value) s = execExtestPulse scan pins value s := rfl
theorem exec_extestTrain (scan : Bool) (pins : Nat) (value : Nat) (s : State) : exec (.extestTrain scan pins value) s = execExtestTrain scan pins value s := rfl
theorem exec_bypass (code : Nat) (s : State) : exec (.bypass code) s = execBypass code s := rfl
theorem exec_internalScan (k : Nat) (s : State) : exec (.internalScan k) s = execInternalScan k s := rfl
theorem exec_dbgChallenge (s : State) : exec (.dbgChallenge ) s = execDbgChallenge s := rfl
theorem exec_dbgToken (data : Bytes) (s : State) : exec (.dbgToken data) s = execDbgToken data s := rfl
theorem exec_debugTokenVerified (s : State) : exec (.debugTokenVerified ) s = execDebugTokenVerified s := rfl
theorem exec_dbgCsrRead (addr : Nat) (s : State) : exec (.dbgCsrRead addr) s = execDbgCsrRead addr s := rfl
theorem exec_dbgCsrWrite (addr : Nat) (value : Nat) (s : State) : exec (.dbgCsrWrite addr value) s = execDbgCsrWrite addr value s := rfl
theorem exec_dbgMemoryRead (space : Nat) (cluster : Nat) (addr : Nat) (s : State) : exec (.dbgMemoryRead space cluster addr) s = execDbgMemoryRead space cluster addr s := rfl
theorem exec_rampDownComplete (c : Nat) (a : Nat) (s : State) : exec (.rampDownComplete c a) s = execRampDownComplete c a s := rfl
theorem exec_clockRestored (d : Nat) (s : State) : exec (.clockRestored d) s = execClockRestored d s := rfl
theorem exec_accessLinkUp (sub : Nat) (s : State) : exec (.accessLinkUp sub) s = execAccessLinkUp sub s := rfl
theorem exec_mgmtLinkChange (port : Nat) (up : Bool) (s : State) : exec (.mgmtLinkChange port up) s = execMgmtLinkChange port up s := rfl
theorem exec_mgmtCoreRestarted (dt : Nat) (k : Nat) (s : State) : exec (.mgmtCoreRestarted dt k) s = execMgmtCoreRestarted dt k s := rfl
theorem exec_gddrMaintenanceUnit (dt : Nat) (ch : Nat) (ce : Nat) (s : State) : exec (.gddrMaintenanceUnit dt ch ce) s = execGddrMaintenanceUnit dt ch ce s := rfl
theorem exec_powerCapAdjust (dt : Nat) (vin : Nat) (iin : Nat) (pin : Nat) (die : Nat) (s : State) : exec (.powerCapAdjust dt vin iin pin die) s = execPowerCapAdjust dt vin iin pin die s := rfl
theorem exec_unknownOpcodeFrameRx (p : Nat) (s : State) : exec (.unknownOpcodeFrameRx p) s = execUnknownOpcodeFrameRx p s := rfl
theorem exec_mgmtIcmpv6Rx (port : Nat) (ty : Nat) (src : Bytes) (target : Bytes) (body : Bytes) (s : State) : exec (.mgmtIcmpv6Rx port ty src target body) s = execMgmtIcmpv6Rx port ty src target body s := rfl
theorem exec_smbusCommandRx (s : State) : exec (.smbusCommandRx ) s = execSmbusCommandRx s := rfl
theorem exec_pmbusTransferEnd (ok : Bool) (s : State) : exec (.pmbusTransferEnd ok) s = execPmbusTransferEnd ok s := rfl
theorem exec_ptpMessageTx (dt : Nat) (sub : Nat) (ty : Nat) (seqId : Nat) (msg : Bytes) (s : State) : exec (.ptpMessageTx dt sub ty seqId msg) s = execPtpMessageTx dt sub ty seqId msg s := rfl
theorem exec_esmcTx (sub : Nat) (msg : Bytes) (s : State) : exec (.esmcTx sub msg) s = execEsmcTx sub msg s := rfl
theorem exec_threadBaseInstruction (c : Nat) (t : Nat) (kind : Nat) (rd : Nat) (n : Nat) (sgn : Bool) (addr : Nat) (value : Nat) (next : Nat) (ecc : Nat) (word : Nat) (s : State) : exec (.threadBaseInstruction c t kind rd n sgn addr value next ecc word) s = execThreadBaseInstruction c t kind rd n sgn addr value next ecc word s := rfl
theorem exec_alertNHoldExpiry (dt : Nat) (s : State) : exec (.alertNHoldExpiry dt) s = execAlertNHoldExpiry dt s := rfl

end Sys2Proof.Machine
end

