-- ==== Sys2Proof/Laws/Tab.lean ====
section
/-! SUPPORT. Sys2Proof/Laws/Tab.lean: reading a sparse table after a write, and the canonical form that every write keeps. -/
namespace Sys2Proof.Machine

variable {α : Type}

theorem Tab.find_del_same (t : Tab α) (k : Nat) : Tab.find (Tab.del t k) k = none := by
  induction t with
  | nil => rfl
  | cons e r ih =>
    simp only [Tab.del]
    by_cases h : e.1 = k <;> simp [h, Tab.find, ih]

theorem Tab.find_del_ne (t : Tab α) {k n : Nat} (h : n ≠ k) : Tab.find (Tab.del t k) n = Tab.find t n := by
  induction t with
  | nil => rfl
  | cons e r ih =>
    by_cases hk : e.1 = k
    · have hn : ¬ e.1 = n := fun q => h (q.symm.trans hk)
      rw [Tab.del, if_pos hk, ih, Tab.find, if_neg hn]
    · by_cases hn : e.1 = n <;> simp [Tab.del, Tab.find, hk, hn, ih, h]

theorem Tab.find_put_same (t : Tab α) (k : Nat) (v : α) : Tab.find (Tab.put t k v) k = some v := by
  induction t with
  | nil => simp [Tab.put, Tab.find]
  | cons e r ih =>
    simp only [Tab.put]
    by_cases h : e.1 = k
    · simp [h, Tab.find]
    · by_cases hl : k < e.1 <;> simp [h, hl, Tab.find, ih]

theorem Tab.find_put_ne (t : Tab α) {k n : Nat} (v : α) (h : n ≠ k) : Tab.find (Tab.put t k v) n = Tab.find t n := by
  have h' : ¬ k = n := fun q => h q.symm
  induction t with
  | nil => simp [Tab.put, Tab.find, h']
  | cons e r ih =>
    by_cases hk : e.1 = k
    · have hn : ¬ e.1 = n := fun q => h (q.symm.trans hk)
      simp [Tab.put, Tab.find, hk, h']
    · by_cases hl : k < e.1
      · simp [Tab.put, Tab.find, hk, hl, h']
      · subst_vars
        by_cases hn : e.1 = n
        · subst hn; simp [Tab.put, Tab.find, h, hl]
        · simp [Tab.put, Tab.find, hk, hl, hn, ih]

/-- The entry at a key after a write there. -/
@[simp] theorem Tab.get_set_same [DecidableEq α] (d : α) (t : Tab α) (k : Nat) (v : α) : Tab.get d (Tab.set d t k v) k = v := by
  unfold Tab.get Tab.set
  split
  · simp [Tab.find_del_same, *]
  · simp [Tab.find_put_same]

theorem Tab.find_set_ne [DecidableEq α] (d : α) (t : Tab α) {k n : Nat} (v : α) (h : n ≠ k) :
    Tab.find (Tab.set d t k v) n = Tab.find t n := by
  unfold Tab.set
  split
  · exact Tab.find_del_ne t h
  · exact Tab.find_put_ne t v h

/-- A write leaves every other key as it was. -/
theorem Tab.get_set_ne [DecidableEq α] (d e : α) (t : Tab α) {k n : Nat} (v : α) (h : n ≠ k) :
    Tab.get e (Tab.set d t k v) n = Tab.get e t n := by
  simp [Tab.get, Tab.find_set_ne d t v h]

/-- Reading any key after a write. -/
theorem Tab.get_set [DecidableEq α] (d : α) (t : Tab α) (k n : Nat) (v : α) :
    Tab.get d (Tab.set d t k v) n = if n = k then v else Tab.get d t n := by
  by_cases h : n = k
  · simp [h]
  · simp [h, Tab.get_set_ne d d t v h]

theorem Tab.sorted_mono {b c : Nat} {t : Tab α} (h : b ≤ c) (ht : Tab.sortedFrom (some c) t = true) :
    Tab.sortedFrom (some b) t = true := by
  cases t with
  | nil => rfl
  | cons e r => simp [Tab.sortedFrom] at ht ⊢; exact ⟨by omega, ht.2⟩

theorem Tab.sorted_none {c : Nat} {t : Tab α} (ht : Tab.sortedFrom (some c) t = true) : Tab.sortedFrom none t = true := by
  cases t with
  | nil => rfl
  | cons e r => simp [Tab.sortedFrom] at ht ⊢; exact ht.2

theorem Tab.sorted_del {b : Nat} {t : Tab α} (k : Nat) (ht : Tab.sortedFrom (some b) t = true) :
    Tab.sortedFrom (some b) (Tab.del t k) = true := by
  induction t generalizing b with
  | nil => rfl
  | cons e r ih =>
    simp [Tab.sortedFrom] at ht
    simp only [Tab.del]
    split
    · exact ih (Tab.sorted_mono (Nat.le_of_lt ht.1) ht.2)
    · simp [Tab.sortedFrom, ht.1, ih ht.2]

theorem Tab.sorted_put {b : Nat} {t : Tab α} {k : Nat} (v : α) (hk : b < k) (ht : Tab.sortedFrom (some b) t = true) :
    Tab.sortedFrom (some b) (Tab.put t k v) = true := by
  induction t generalizing b with
  | nil => simp [Tab.put, Tab.sortedFrom, hk]
  | cons e r ih =>
    simp [Tab.sortedFrom] at ht
    simp only [Tab.put]
    split
    · rename_i h; rw [← h]; simp [Tab.sortedFrom, ht]
    · split
      · rename_i h1 h2; simp [Tab.sortedFrom, hk, h2, ht.2]
      · rename_i h1 h2; simp [Tab.sortedFrom, ht.1]; exact ih (by omega) ht.2

theorem Tab.sorted_set_from [DecidableEq α] {d : α} {b k : Nat} {t : Tab α} (v : α) (hk : b < k)
    (ht : Tab.sortedFrom (some b) t = true) : Tab.sortedFrom (some b) (Tab.set d t k v) = true := by
  unfold Tab.set
  split
  · exact Tab.sorted_del k ht
  · exact Tab.sorted_put v hk ht

theorem Tab.sorted_del_none {t : Tab α} (k : Nat) (ht : Tab.sortedFrom none t = true) : Tab.sortedFrom none (Tab.del t k) = true := by
  cases t with
  | nil => rfl
  | cons e r =>
    simp [Tab.sortedFrom] at ht
    simp only [Tab.del]
    split
    · exact Tab.sorted_none (Tab.sorted_del k ht)
    · simp [Tab.sortedFrom, Tab.sorted_del k ht]

theorem Tab.sorted_put_none {t : Tab α} (k : Nat) (v : α) (ht : Tab.sortedFrom none t = true) :
    Tab.sortedFrom none (Tab.put t k v) = true := by
  cases t with
  | nil => simp [Tab.put, Tab.sortedFrom]
  | cons e r =>
    simp [Tab.sortedFrom] at ht
    simp only [Tab.put]
    split
    · rename_i h; simp [Tab.sortedFrom, ← h, ht]
    · split
      · rename_i h1 h2; simp [Tab.sortedFrom, h2, ht]
      · rename_i h1 h2; simp [Tab.sortedFrom]; exact Tab.sorted_put v (by omega) ht

/-- A write keeps the keys rising. -/
theorem Tab.sorted_set [DecidableEq α] (d : α) {t : Tab α} (k : Nat) (v : α) (ht : Tab.sortedFrom none t = true) :
    Tab.sortedFrom none (Tab.set d t k v) = true := by
  unfold Tab.set
  split
  · exact Tab.sorted_del_none k ht
  · exact Tab.sorted_put_none k v ht

theorem Tab.mem_del {t : Tab α} {k : Nat} {e : Nat × α} (h : e ∈ Tab.del t k) : e ∈ t := by
  induction t with
  | nil => exact h
  | cons x r ih =>
    simp only [Tab.del] at h
    split at h
    · exact List.mem_cons_of_mem _ (ih h)
    · cases h with
      | head => exact List.mem_cons_self
      | tail _ h => exact List.mem_cons_of_mem _ (ih h)

theorem Tab.mem_put {t : Tab α} {k : Nat} {v : α} {e : Nat × α} (h : e ∈ Tab.put t k v) : e = (k, v) ∨ e ∈ t := by
  induction t with
  | nil => simp [Tab.put] at h; exact Or.inl h
  | cons x r ih =>
    simp only [Tab.put] at h
    split at h
    · cases h with
      | head => exact Or.inl rfl
      | tail _ h => exact Or.inr (List.mem_cons_of_mem _ h)
    · split at h
      · cases h with
        | head => exact Or.inl rfl
        | tail _ h => exact Or.inr h
      · cases h with
        | head => exact Or.inr List.mem_cons_self
        | tail _ h => exact (ih h).imp id (List.mem_cons_of_mem _)

/-- Every write keeps the canonical form. -/
theorem Tab.wf_set [DecidableEq α] (d : α) {t : Tab α} (k : Nat) (v : α) (ht : Tab.wf d t = true) : Tab.wf d (Tab.set d t k v) = true := by
  simp only [Tab.wf, Bool.and_eq_true, List.all_eq_true, decide_eq_true_eq] at ht ⊢
  refine ⟨Tab.sorted_set d k v ht.1, fun e he => ?_⟩
  unfold Tab.set at he
  split at he
  · exact ht.2 e (Tab.mem_del he)
  · rename_i hv
    rcases Tab.mem_put he with rfl | h
    · exact hv
    · exact ht.2 e h

theorem Tab.sorted_filter_from {b : Nat} {t : Tab α} (p : Nat × α → Bool) (ht : Tab.sortedFrom (some b) t = true) :
    Tab.sortedFrom (some b) (t.filter p) = true := by
  induction t generalizing b with
  | nil => rfl
  | cons e r ih =>
    simp [Tab.sortedFrom] at ht
    simp only [List.filter]
    split
    · simp [Tab.sortedFrom, ht.1, ih ht.2]
    · exact ih (Tab.sorted_mono (Nat.le_of_lt ht.1) ht.2)

/-- Dropping entries keeps the canonical form. -/
theorem Tab.wf_filter [DecidableEq α] (d : α) {t : Tab α} (p : Nat × α → Bool) (ht : Tab.wf d t = true) : Tab.wf d (t.filter p) = true := by
  simp only [Tab.wf, Bool.and_eq_true, List.all_eq_true] at ht ⊢
  refine ⟨?_, fun e he => ht.2 e (List.mem_filter.mp he).1⟩
  cases t with
  | nil => rfl
  | cons e r =>
    have h := ht.1
    simp [Tab.sortedFrom] at h
    simp only [List.filter]
    split
    · simp [Tab.sortedFrom, Tab.sorted_filter_from p h]
    · exact Tab.sorted_none (Tab.sorted_filter_from p h)

theorem Tab.wf_nil [DecidableEq α] (d : α) : Tab.wf d ([] : Tab α) = true := rfl

end Sys2Proof.Machine
end

