-- ==== Sys2Proof/Laws/Mem.lean ====
section
/-! SUPPORT. Sys2Proof/Laws/Mem.lean: the laws of memory: a byte written is the byte read, every other byte stays, and every
operation on memory keeps the canonical form of its tables. -/
namespace Sys2Proof.Machine

theorem memWf_iff (s : State) : s.memWf = true ↔ Tab.wf 0#8 s.sram = true ∧ Tab.wf 0#8 s.gddr = true ∧ Tab.wf 0#8 s.cxl = true := by
  simp [State.memWf, Bool.and_eq_true, and_assoc]

/-- Memory at reset is canonical. -/
theorem reset_memWf : State.reset.memWf = true := rfl

/-- The number of a memory: any above 1 names CXL. -/
def spaceOf (n : Nat) : Nat := min n 2

/-- What a stored byte reads as, and every other byte. -/
theorem rawByte_setRaw (s : State) (p q k l : Nat) (b : Byte) :
    (s.setRaw p k b).rawByte q l = if spaceOf q = spaceOf p ∧ l = k then b else s.rawByte q l := by
  rcases p with _ | _ | p <;> rcases q with _ | _ | q <;> simp [State.setRaw, State.rawByte, spaceOf, Tab.get_set]

@[simp] theorem setRaw_csr (s : State) (p k : Nat) (b : Byte) : (s.setRaw p k b).csr = s.csr := by
  unfold State.setRaw
  split
  · rfl
  · split <;> rfl

@[simp] theorem setRaw_xts (s : State) (p k : Nat) (b : Byte) : (s.setRaw p k b).xts = s.xts := by
  unfold State.setRaw
  split
  · rfl
  · split <;> rfl

theorem setRaw_memWf (s : State) (p k : Nat) (b : Byte) (h : s.memWf = true) : (s.setRaw p k b).memWf = true := by
  rw [memWf_iff] at h ⊢
  obtain ⟨h0, h1, h2⟩ := h
  unfold State.setRaw
  split
  · exact ⟨Tab.wf_set _ _ _ h0, h1, h2⟩
  · split
    · exact ⟨h0, Tab.wf_set _ _ _ h1, h2⟩
    · exact ⟨h0, h1, Tab.wf_set _ _ _ h2⟩

/-- A run of writes keeps the form that each of them keeps. -/
theorem foldl_memWf {α : Type} (f : State → α → State) (hf : ∀ u a, u.memWf = true → (f u a).memWf = true) (l : List α) (s : State)
    (h : s.memWf = true) : (l.foldl f s).memWf = true := by
  induction l generalizing s with
  | nil => exact h
  | cons a r ih => exact ih _ (hf s a h)

theorem memWf_xts (s : State) (x : Tab Nat) : State.memWf { s with xts := x } = s.memWf := rfl

theorem retag_memWf (s : State) (p : Place) (tag : Nat) (h : s.memWf = true) : (s.retag p tag).memWf = true := by
  unfold State.retag
  split
  · exact h
  · simp only [memWf_xts]
    generalize List.zipIdx _ = l
    exact foldl_memWf _ (fun u e hu => setRaw_memWf u _ _ _ hu) _ _ h

theorem setByteAt_memWf (s : State) (m a : Nat) (b : Byte) (h : s.memWf = true) : (s.setByteAt m a b).memWf = true := by
  unfold State.setByteAt
  split
  · refine setRaw_memWf _ _ _ _ ?_
    split
    · exact h
    · exact retag_memWf _ _ _ h
  · exact h

theorem writeMem_memWf (s : State) (m a : Nat) (bs : Bytes) (h : s.memWf = true) : (s.writeMem m a bs).memWf = true :=
  foldl_memWf _ (fun u _ hu => setByteAt_memWf u _ _ _ hu) _ _ h

theorem setSram_memWf (s : State) (c o : Nat) (bs : Bytes) (h : s.memWf = true) : (s.setSram c o bs).memWf = true :=
  foldl_memWf _ (fun u _ hu => setRaw_memWf u _ _ _ hu) _ _ h

theorem zeroBanks_memWf (s : State) (c first count : Nat) (h : s.memWf = true) : (s.zeroBanks c first count).memWf = true := by
  rw [memWf_iff] at h ⊢
  exact ⟨Tab.wf_filter _ _ h.1, h.2⟩

/-- A byte outside every region of the mould is not written. -/
theorem setByteAt_outside (s : State) (m a : Nat) (b : Byte) (h : s.place m a = none) : s.setByteAt m a b = s := by
  simp [State.setByteAt, h]

/-- Cluster SRAM: a byte written at a mapped address is the byte its key holds; every other byte stays. -/
theorem setByteAt_sram (s : State) (m a : Nat) (b : Byte) (p : Place) (h : s.place m a = some p) (h0 : p.space = 0) (q l : Nat) :
    (s.setByteAt m a b).rawByte q l = if spaceOf q = 0 ∧ l = p.key then b else s.rawByte q l := by
  simp [State.setByteAt, h, h0, rawByte_setRaw, spaceOf]

end Sys2Proof.Machine
end

