-- ==== Sys2Proof/Laws/State.lean ====
section
/-! SUPPORT. Sys2Proof/Laws/State.lean: what each named operation leaves unchanged, one simp lemma per operation that lists every
untouched part of the state, and what a register, a field, a mould, a cluster part or an operation entry holds after a write. -/
namespace Sys2Proof.Machine

/-- `State.setReg` changes only: csr. -/
@[simp] theorem State.setReg_keeps (s : State) (r : RegName) (i j v : Nat) :
    (s.setReg r i j v).free = s.free ∧ (s.setReg r i j v).clk = s.clk ∧ (s.setReg r i j v).log = s.log ∧ (s.setReg r i j v).bkp = s.bkp ∧
    (s.setReg r i j v).rst = s.rst ∧ (s.setReg r i j v).vendor = s.vendor ∧ (s.setReg r i j v).oper = s.oper ∧ (s.setReg r i j v).moulds = s.moulds ∧
    (s.setReg r i j v).clus = s.clus ∧ (s.setReg r i j v).fields = s.fields ∧ (s.setReg r i j v).hot = s.hot ∧ (s.setReg r i j v).svc = s.svc ∧
    (s.setReg r i j v).xing = s.xing ∧ (s.setReg r i j v).xingLogged = s.xingLogged ∧ (s.setReg r i j v).mgmt = s.mgmt ∧ (s.setReg r i j v).sram = s.sram ∧
    (s.setReg r i j v).gddr = s.gddr ∧ (s.setReg r i j v).cxl = s.cxl ∧ (s.setReg r i j v).xts = s.xts ∧ (s.setReg r i j v).disabled = s.disabled ∧
    (s.setReg r i j v).fwLib = s.fwLib ∧ (s.setReg r i j v).tier = s.tier ∧ (s.setReg r i j v).vers = s.vers ∧ (s.setReg r i j v).owners = s.owners ∧
    (s.setReg r i j v).fab = s.fab ∧ (s.setReg r i j v).groups = s.groups ∧ (s.setReg r i j v).aborts = s.aborts ∧ (s.setReg r i j v).egr = s.egr ∧
    (s.setReg r i j v).tim = s.tim ∧ (s.setReg r i j v).runNo = s.runNo ∧ (s.setReg r i j v).units = s.units ∧ (s.setReg r i j v).cars = s.cars ∧
    (s.setReg r i j v).led = s.led ∧ (s.setReg r i j v).health = s.health ∧ (s.setReg r i j v).sec = s.sec ∧ (s.setReg r i j v).tap = s.tap ∧
    (s.setReg r i j v).out = s.out ∧ (s.setReg r i j v).pending = s.pending :=
  ⟨rfl, rfl, rfl, rfl, rfl, rfl, rfl, rfl, rfl, rfl, rfl, rfl, rfl, rfl, rfl, rfl, rfl, rfl, rfl, rfl, rfl, rfl, rfl, rfl, rfl, rfl, rfl, rfl, rfl, rfl, rfl, rfl, rfl, rfl, rfl, rfl, rfl, rfl⟩

/-- `State.wr` changes only: csr. -/
@[simp] theorem State.wr_keeps (s : State) (f : Field) (v i j : Nat) :
    (s.wr f v i j).free = s.free ∧ (s.wr f v i j).clk = s.clk ∧ (s.wr f v i j).log = s.log ∧ (s.wr f v i j).bkp = s.bkp ∧
    (s.wr f v i j).rst = s.rst ∧ (s.wr f v i j).vendor = s.vendor ∧ (s.wr f v i j).oper = s.oper ∧ (s.wr f v i j).moulds = s.moulds ∧
    (s.wr f v i j).clus = s.clus ∧ (s.wr f v i j).fields = s.fields ∧ (s.wr f v i j).hot = s.hot ∧ (s.wr f v i j).svc = s.svc ∧
    (s.wr f v i j).xing = s.xing ∧ (s.wr f v i j).xingLogged = s.xingLogged ∧ (s.wr f v i j).mgmt = s.mgmt ∧ (s.wr f v i j).sram = s.sram ∧
    (s.wr f v i j).gddr = s.gddr ∧ (s.wr f v i j).cxl = s.cxl ∧ (s.wr f v i j).xts = s.xts ∧ (s.wr f v i j).disabled = s.disabled ∧
    (s.wr f v i j).fwLib = s.fwLib ∧ (s.wr f v i j).tier = s.tier ∧ (s.wr f v i j).vers = s.vers ∧ (s.wr f v i j).owners = s.owners ∧
    (s.wr f v i j).fab = s.fab ∧ (s.wr f v i j).groups = s.groups ∧ (s.wr f v i j).aborts = s.aborts ∧ (s.wr f v i j).egr = s.egr ∧
    (s.wr f v i j).tim = s.tim ∧ (s.wr f v i j).runNo = s.runNo ∧ (s.wr f v i j).units = s.units ∧ (s.wr f v i j).cars = s.cars ∧
    (s.wr f v i j).led = s.led ∧ (s.wr f v i j).health = s.health ∧ (s.wr f v i j).sec = s.sec ∧ (s.wr f v i j).tap = s.tap ∧
    (s.wr f v i j).out = s.out ∧ (s.wr f v i j).pending = s.pending :=
  ⟨rfl, rfl, rfl, rfl, rfl, rfl, rfl, rfl, rfl, rfl, rfl, rfl, rfl, rfl, rfl, rfl, rfl, rfl, rfl, rfl, rfl, rfl, rfl, rfl, rfl, rfl, rfl, rfl, rfl, rfl, rfl, rfl, rfl, rfl, rfl, rfl, rfl, rfl⟩

/-- `State.cnt` changes only: csr. -/
@[simp] theorem State.cnt_keeps (s : State) (f : Field) (i j n : Nat) :
    (s.cnt f i j n).free = s.free ∧ (s.cnt f i j n).clk = s.clk ∧ (s.cnt f i j n).log = s.log ∧ (s.cnt f i j n).bkp = s.bkp ∧
    (s.cnt f i j n).rst = s.rst ∧ (s.cnt f i j n).vendor = s.vendor ∧ (s.cnt f i j n).oper = s.oper ∧ (s.cnt f i j n).moulds = s.moulds ∧
    (s.cnt f i j n).clus = s.clus ∧ (s.cnt f i j n).fields = s.fields ∧ (s.cnt f i j n).hot = s.hot ∧ (s.cnt f i j n).svc = s.svc ∧
    (s.cnt f i j n).xing = s.xing ∧ (s.cnt f i j n).xingLogged = s.xingLogged ∧ (s.cnt f i j n).mgmt = s.mgmt ∧ (s.cnt f i j n).sram = s.sram ∧
    (s.cnt f i j n).gddr = s.gddr ∧ (s.cnt f i j n).cxl = s.cxl ∧ (s.cnt f i j n).xts = s.xts ∧ (s.cnt f i j n).disabled = s.disabled ∧
    (s.cnt f i j n).fwLib = s.fwLib ∧ (s.cnt f i j n).tier = s.tier ∧ (s.cnt f i j n).vers = s.vers ∧ (s.cnt f i j n).owners = s.owners ∧
    (s.cnt f i j n).fab = s.fab ∧ (s.cnt f i j n).groups = s.groups ∧ (s.cnt f i j n).aborts = s.aborts ∧ (s.cnt f i j n).egr = s.egr ∧
    (s.cnt f i j n).tim = s.tim ∧ (s.cnt f i j n).runNo = s.runNo ∧ (s.cnt f i j n).units = s.units ∧ (s.cnt f i j n).cars = s.cars ∧
    (s.cnt f i j n).led = s.led ∧ (s.cnt f i j n).health = s.health ∧ (s.cnt f i j n).sec = s.sec ∧ (s.cnt f i j n).tap = s.tap ∧
    (s.cnt f i j n).out = s.out ∧ (s.cnt f i j n).pending = s.pending :=
  ⟨rfl, rfl, rfl, rfl, rfl, rfl, rfl, rfl, rfl, rfl, rfl, rfl, rfl, rfl, rfl, rfl, rfl, rfl, rfl, rfl, rfl, rfl, rfl, rfl, rfl, rfl, rfl, rfl, rfl, rfl, rfl, rfl, rfl, rfl, rfl, rfl, rfl, rfl⟩

/-- `State.inc` changes only: csr. -/
@[simp] theorem State.inc_keeps (s : State) (f : Field) (i j n : Nat) :
    (s.inc f i j n).free = s.free ∧ (s.inc f i j n).clk = s.clk ∧ (s.inc f i j n).log = s.log ∧ (s.inc f i j n).bkp = s.bkp ∧
    (s.inc f i j n).rst = s.rst ∧ (s.inc f i j n).vendor = s.vendor ∧ (s.inc f i j n).oper = s.oper ∧ (s.inc f i j n).moulds = s.moulds ∧
    (s.inc f i j n).clus = s.clus ∧ (s.inc f i j n).fields = s.fields ∧ (s.inc f i j n).hot = s.hot ∧ (s.inc f i j n).svc = s.svc ∧
    (s.inc f i j n).xing = s.xing ∧ (s.inc f i j n).xingLogged = s.xingLogged ∧ (s.inc f i j n).mgmt = s.mgmt ∧ (s.inc f i j n).sram = s.sram ∧
    (s.inc f i j n).gddr = s.gddr ∧ (s.inc f i j n).cxl = s.cxl ∧ (s.inc f i j n).xts = s.xts ∧ (s.inc f i j n).disabled = s.disabled ∧
    (s.inc f i j n).fwLib = s.fwLib ∧ (s.inc f i j n).tier = s.tier ∧ (s.inc f i j n).vers = s.vers ∧ (s.inc f i j n).owners = s.owners ∧
    (s.inc f i j n).fab = s.fab ∧ (s.inc f i j n).groups = s.groups ∧ (s.inc f i j n).aborts = s.aborts ∧ (s.inc f i j n).egr = s.egr ∧
    (s.inc f i j n).tim = s.tim ∧ (s.inc f i j n).runNo = s.runNo ∧ (s.inc f i j n).units = s.units ∧ (s.inc f i j n).cars = s.cars ∧
    (s.inc f i j n).led = s.led ∧ (s.inc f i j n).health = s.health ∧ (s.inc f i j n).sec = s.sec ∧ (s.inc f i j n).tap = s.tap ∧
    (s.inc f i j n).out = s.out ∧ (s.inc f i j n).pending = s.pending :=
  ⟨rfl, rfl, rfl, rfl, rfl, rfl, rfl, rfl, rfl, rfl, rfl, rfl, rfl, rfl, rfl, rfl, rfl, rfl, rfl, rfl, rfl, rfl, rfl, rfl, rfl, rfl, rfl, rfl, rfl, rfl, rfl, rfl, rfl, rfl, rfl, rfl, rfl, rfl⟩

/-- `State.setFlag` changes only: csr. -/
@[simp] theorem State.setFlag_keeps (s : State) (f : Field) (b : Bool) (i j : Nat) :
    (s.setFlag f b i j).free = s.free ∧ (s.setFlag f b i j).clk = s.clk ∧ (s.setFlag f b i j).log = s.log ∧ (s.setFlag f b i j).bkp = s.bkp ∧
    (s.setFlag f b i j).rst = s.rst ∧ (s.setFlag f b i j).vendor = s.vendor ∧ (s.setFlag f b i j).oper = s.oper ∧ (s.setFlag f b i j).moulds = s.moulds ∧
    (s.setFlag f b i j).clus = s.clus ∧ (s.setFlag f b i j).fields = s.fields ∧ (s.setFlag f b i j).hot = s.hot ∧ (s.setFlag f b i j).svc = s.svc ∧
    (s.setFlag f b i j).xing = s.xing ∧ (s.setFlag f b i j).xingLogged = s.xingLogged ∧ (s.setFlag f b i j).mgmt = s.mgmt ∧ (s.setFlag f b i j).sram = s.sram ∧
    (s.setFlag f b i j).gddr = s.gddr ∧ (s.setFlag f b i j).cxl = s.cxl ∧ (s.setFlag f b i j).xts = s.xts ∧ (s.setFlag f b i j).disabled = s.disabled ∧
    (s.setFlag f b i j).fwLib = s.fwLib ∧ (s.setFlag f b i j).tier = s.tier ∧ (s.setFlag f b i j).vers = s.vers ∧ (s.setFlag f b i j).owners = s.owners ∧
    (s.setFlag f b i j).fab = s.fab ∧ (s.setFlag f b i j).groups = s.groups ∧ (s.setFlag f b i j).aborts = s.aborts ∧ (s.setFlag f b i j).egr = s.egr ∧
    (s.setFlag f b i j).tim = s.tim ∧ (s.setFlag f b i j).runNo = s.runNo ∧ (s.setFlag f b i j).units = s.units ∧ (s.setFlag f b i j).cars = s.cars ∧
    (s.setFlag f b i j).led = s.led ∧ (s.setFlag f b i j).health = s.health ∧ (s.setFlag f b i j).sec = s.sec ∧ (s.setFlag f b i j).tap = s.tap ∧
    (s.setFlag f b i j).out = s.out ∧ (s.setFlag f b i j).pending = s.pending :=
  ⟨rfl, rfl, rfl, rfl, rfl, rfl, rfl, rfl, rfl, rfl, rfl, rfl, rfl, rfl, rfl, rfl, rfl, rfl, rfl, rfl, rfl, rfl, rfl, rfl, rfl, rfl, rfl, rfl, rfl, rfl, rfl, rfl, rfl, rfl, rfl, rfl, rfl, rfl⟩

/-- `State.setMould` changes only: moulds. -/
@[simp] theorem State.setMould_keeps (s : State) (m : Nat) (v : MouldSt) :
    (s.setMould m v).csr = s.csr ∧ (s.setMould m v).free = s.free ∧ (s.setMould m v).clk = s.clk ∧ (s.setMould m v).log = s.log ∧
    (s.setMould m v).bkp = s.bkp ∧ (s.setMould m v).rst = s.rst ∧ (s.setMould m v).vendor = s.vendor ∧ (s.setMould m v).oper = s.oper ∧
    (s.setMould m v).clus = s.clus ∧ (s.setMould m v).fields = s.fields ∧ (s.setMould m v).hot = s.hot ∧ (s.setMould m v).svc = s.svc ∧
    (s.setMould m v).xing = s.xing ∧ (s.setMould m v).xingLogged = s.xingLogged ∧ (s.setMould m v).mgmt = s.mgmt ∧ (s.setMould m v).sram = s.sram ∧
    (s.setMould m v).gddr = s.gddr ∧ (s.setMould m v).cxl = s.cxl ∧ (s.setMould m v).xts = s.xts ∧ (s.setMould m v).disabled = s.disabled ∧
    (s.setMould m v).fwLib = s.fwLib ∧ (s.setMould m v).tier = s.tier ∧ (s.setMould m v).vers = s.vers ∧ (s.setMould m v).owners = s.owners ∧
    (s.setMould m v).fab = s.fab ∧ (s.setMould m v).groups = s.groups ∧ (s.setMould m v).aborts = s.aborts ∧ (s.setMould m v).egr = s.egr ∧
    (s.setMould m v).tim = s.tim ∧ (s.setMould m v).runNo = s.runNo ∧ (s.setMould m v).units = s.units ∧ (s.setMould m v).cars = s.cars ∧
    (s.setMould m v).led = s.led ∧ (s.setMould m v).health = s.health ∧ (s.setMould m v).sec = s.sec ∧ (s.setMould m v).tap = s.tap ∧
    (s.setMould m v).out = s.out ∧ (s.setMould m v).pending = s.pending :=
  ⟨rfl, rfl, rfl, rfl, rfl, rfl, rfl, rfl, rfl, rfl, rfl, rfl, rfl, rfl, rfl, rfl, rfl, rfl, rfl, rfl, rfl, rfl, rfl, rfl, rfl, rfl, rfl, rfl, rfl, rfl, rfl, rfl, rfl, rfl, rfl, rfl, rfl, rfl⟩

/-- `State.raiseHeat` changes only: csr. -/
@[simp] theorem State.raiseHeat_keeps (s : State) (m : Nat) :
    (s.raiseHeat m).free = s.free ∧ (s.raiseHeat m).clk = s.clk ∧ (s.raiseHeat m).log = s.log ∧ (s.raiseHeat m).bkp = s.bkp ∧
    (s.raiseHeat m).rst = s.rst ∧ (s.raiseHeat m).vendor = s.vendor ∧ (s.raiseHeat m).oper = s.oper ∧ (s.raiseHeat m).moulds = s.moulds ∧
    (s.raiseHeat m).clus = s.clus ∧ (s.raiseHeat m).fields = s.fields ∧ (s.raiseHeat m).hot = s.hot ∧ (s.raiseHeat m).svc = s.svc ∧
    (s.raiseHeat m).xing = s.xing ∧ (s.raiseHeat m).xingLogged = s.xingLogged ∧ (s.raiseHeat m).mgmt = s.mgmt ∧ (s.raiseHeat m).sram = s.sram ∧
    (s.raiseHeat m).gddr = s.gddr ∧ (s.raiseHeat m).cxl = s.cxl ∧ (s.raiseHeat m).xts = s.xts ∧ (s.raiseHeat m).disabled = s.disabled ∧
    (s.raiseHeat m).fwLib = s.fwLib ∧ (s.raiseHeat m).tier = s.tier ∧ (s.raiseHeat m).vers = s.vers ∧ (s.raiseHeat m).owners = s.owners ∧
    (s.raiseHeat m).fab = s.fab ∧ (s.raiseHeat m).groups = s.groups ∧ (s.raiseHeat m).aborts = s.aborts ∧ (s.raiseHeat m).egr = s.egr ∧
    (s.raiseHeat m).tim = s.tim ∧ (s.raiseHeat m).runNo = s.runNo ∧ (s.raiseHeat m).units = s.units ∧ (s.raiseHeat m).cars = s.cars ∧
    (s.raiseHeat m).led = s.led ∧ (s.raiseHeat m).health = s.health ∧ (s.raiseHeat m).sec = s.sec ∧ (s.raiseHeat m).tap = s.tap ∧
    (s.raiseHeat m).out = s.out ∧ (s.raiseHeat m).pending = s.pending :=
  ⟨rfl, rfl, rfl, rfl, rfl, rfl, rfl, rfl, rfl, rfl, rfl, rfl, rfl, rfl, rfl, rfl, rfl, rfl, rfl, rfl, rfl, rfl, rfl, rfl, rfl, rfl, rfl, rfl, rfl, rfl, rfl, rfl, rfl, rfl, rfl, rfl, rfl, rfl⟩

/-- `State.setClu` changes only: clus. -/
@[simp] theorem State.setClu_keeps (s : State) (c : Nat) (v : ClusterSt) :
    (s.setClu c v).csr = s.csr ∧ (s.setClu c v).free = s.free ∧ (s.setClu c v).clk = s.clk ∧ (s.setClu c v).log = s.log ∧
    (s.setClu c v).bkp = s.bkp ∧ (s.setClu c v).rst = s.rst ∧ (s.setClu c v).vendor = s.vendor ∧ (s.setClu c v).oper = s.oper ∧
    (s.setClu c v).moulds = s.moulds ∧ (s.setClu c v).fields = s.fields ∧ (s.setClu c v).hot = s.hot ∧ (s.setClu c v).svc = s.svc ∧
    (s.setClu c v).xing = s.xing ∧ (s.setClu c v).xingLogged = s.xingLogged ∧ (s.setClu c v).mgmt = s.mgmt ∧ (s.setClu c v).sram = s.sram ∧
    (s.setClu c v).gddr = s.gddr ∧ (s.setClu c v).cxl = s.cxl ∧ (s.setClu c v).xts = s.xts ∧ (s.setClu c v).disabled = s.disabled ∧
    (s.setClu c v).fwLib = s.fwLib ∧ (s.setClu c v).tier = s.tier ∧ (s.setClu c v).vers = s.vers ∧ (s.setClu c v).owners = s.owners ∧
    (s.setClu c v).fab = s.fab ∧ (s.setClu c v).groups = s.groups ∧ (s.setClu c v).aborts = s.aborts ∧ (s.setClu c v).egr = s.egr ∧
    (s.setClu c v).tim = s.tim ∧ (s.setClu c v).runNo = s.runNo ∧ (s.setClu c v).units = s.units ∧ (s.setClu c v).cars = s.cars ∧
    (s.setClu c v).led = s.led ∧ (s.setClu c v).health = s.health ∧ (s.setClu c v).sec = s.sec ∧ (s.setClu c v).tap = s.tap ∧
    (s.setClu c v).out = s.out ∧ (s.setClu c v).pending = s.pending :=
  ⟨rfl, rfl, rfl, rfl, rfl, rfl, rfl, rfl, rfl, rfl, rfl, rfl, rfl, rfl, rfl, rfl, rfl, rfl, rfl, rfl, rfl, rfl, rfl, rfl, rfl, rfl, rfl, rfl, rfl, rfl, rfl, rfl, rfl, rfl, rfl, rfl, rfl, rfl⟩

/-- `State.setField` changes only: fields. -/
@[simp] theorem State.setField_keeps (s : State) (f : Nat) (v : FieldSt) :
    (s.setField f v).csr = s.csr ∧ (s.setField f v).free = s.free ∧ (s.setField f v).clk = s.clk ∧ (s.setField f v).log = s.log ∧
    (s.setField f v).bkp = s.bkp ∧ (s.setField f v).rst = s.rst ∧ (s.setField f v).vendor = s.vendor ∧ (s.setField f v).oper = s.oper ∧
    (s.setField f v).moulds = s.moulds ∧ (s.setField f v).clus = s.clus ∧ (s.setField f v).hot = s.hot ∧ (s.setField f v).svc = s.svc ∧
    (s.setField f v).xing = s.xing ∧ (s.setField f v).xingLogged = s.xingLogged ∧ (s.setField f v).mgmt = s.mgmt ∧ (s.setField f v).sram = s.sram ∧
    (s.setField f v).gddr = s.gddr ∧ (s.setField f v).cxl = s.cxl ∧ (s.setField f v).xts = s.xts ∧ (s.setField f v).disabled = s.disabled ∧
    (s.setField f v).fwLib = s.fwLib ∧ (s.setField f v).tier = s.tier ∧ (s.setField f v).vers = s.vers ∧ (s.setField f v).owners = s.owners ∧
    (s.setField f v).fab = s.fab ∧ (s.setField f v).groups = s.groups ∧ (s.setField f v).aborts = s.aborts ∧ (s.setField f v).egr = s.egr ∧
    (s.setField f v).tim = s.tim ∧ (s.setField f v).runNo = s.runNo ∧ (s.setField f v).units = s.units ∧ (s.setField f v).cars = s.cars ∧
    (s.setField f v).led = s.led ∧ (s.setField f v).health = s.health ∧ (s.setField f v).sec = s.sec ∧ (s.setField f v).tap = s.tap ∧
    (s.setField f v).out = s.out ∧ (s.setField f v).pending = s.pending :=
  ⟨rfl, rfl, rfl, rfl, rfl, rfl, rfl, rfl, rfl, rfl, rfl, rfl, rfl, rfl, rfl, rfl, rfl, rfl, rfl, rfl, rfl, rfl, rfl, rfl, rfl, rfl, rfl, rfl, rfl, rfl, rfl, rfl, rfl, rfl, rfl, rfl, rfl, rfl⟩

/-- `State.setStream` changes only: clus. -/
@[simp] theorem State.setStream_keeps (s : State) (c st : Nat) (v : StreamSt) :
    (s.setStream c st v).csr = s.csr ∧ (s.setStream c st v).free = s.free ∧ (s.setStream c st v).clk = s.clk ∧ (s.setStream c st v).log = s.log ∧
    (s.setStream c st v).bkp = s.bkp ∧ (s.setStream c st v).rst = s.rst ∧ (s.setStream c st v).vendor = s.vendor ∧ (s.setStream c st v).oper = s.oper ∧
    (s.setStream c st v).moulds = s.moulds ∧ (s.setStream c st v).fields = s.fields ∧ (s.setStream c st v).hot = s.hot ∧ (s.setStream c st v).svc = s.svc ∧
    (s.setStream c st v).xing = s.xing ∧ (s.setStream c st v).xingLogged = s.xingLogged ∧ (s.setStream c st v).mgmt = s.mgmt ∧ (s.setStream c st v).sram = s.sram ∧
    (s.setStream c st v).gddr = s.gddr ∧ (s.setStream c st v).cxl = s.cxl ∧ (s.setStream c st v).xts = s.xts ∧ (s.setStream c st v).disabled = s.disabled ∧
    (s.setStream c st v).fwLib = s.fwLib ∧ (s.setStream c st v).tier = s.tier ∧ (s.setStream c st v).vers = s.vers ∧ (s.setStream c st v).owners = s.owners ∧
    (s.setStream c st v).fab = s.fab ∧ (s.setStream c st v).groups = s.groups ∧ (s.setStream c st v).aborts = s.aborts ∧ (s.setStream c st v).egr = s.egr ∧
    (s.setStream c st v).tim = s.tim ∧ (s.setStream c st v).runNo = s.runNo ∧ (s.setStream c st v).units = s.units ∧ (s.setStream c st v).cars = s.cars ∧
    (s.setStream c st v).led = s.led ∧ (s.setStream c st v).health = s.health ∧ (s.setStream c st v).sec = s.sec ∧ (s.setStream c st v).tap = s.tap ∧
    (s.setStream c st v).out = s.out ∧ (s.setStream c st v).pending = s.pending :=
  ⟨rfl, rfl, rfl, rfl, rfl, rfl, rfl, rfl, rfl, rfl, rfl, rfl, rfl, rfl, rfl, rfl, rfl, rfl, rfl, rfl, rfl, rfl, rfl, rfl, rfl, rfl, rfl, rfl, rfl, rfl, rfl, rfl, rfl, rfl, rfl, rfl, rfl, rfl⟩

/-- `State.setArray` changes only: clus. -/
@[simp] theorem State.setArray_keeps (s : State) (c a : Nat) (v : ArraySt) :
    (s.setArray c a v).csr = s.csr ∧ (s.setArray c a v).free = s.free ∧ (s.setArray c a v).clk = s.clk ∧ (s.setArray c a v).log = s.log ∧
    (s.setArray c a v).bkp = s.bkp ∧ (s.setArray c a v).rst = s.rst ∧ (s.setArray c a v).vendor = s.vendor ∧ (s.setArray c a v).oper = s.oper ∧
    (s.setArray c a v).moulds = s.moulds ∧ (s.setArray c a v).fields = s.fields ∧ (s.setArray c a v).hot = s.hot ∧ (s.setArray c a v).svc = s.svc ∧
    (s.setArray c a v).xing = s.xing ∧ (s.setArray c a v).xingLogged = s.xingLogged ∧ (s.setArray c a v).mgmt = s.mgmt ∧ (s.setArray c a v).sram = s.sram ∧
    (s.setArray c a v).gddr = s.gddr ∧ (s.setArray c a v).cxl = s.cxl ∧ (s.setArray c a v).xts = s.xts ∧ (s.setArray c a v).disabled = s.disabled ∧
    (s.setArray c a v).fwLib = s.fwLib ∧ (s.setArray c a v).tier = s.tier ∧ (s.setArray c a v).vers = s.vers ∧ (s.setArray c a v).owners = s.owners ∧
    (s.setArray c a v).fab = s.fab ∧ (s.setArray c a v).groups = s.groups ∧ (s.setArray c a v).aborts = s.aborts ∧ (s.setArray c a v).egr = s.egr ∧
    (s.setArray c a v).tim = s.tim ∧ (s.setArray c a v).runNo = s.runNo ∧ (s.setArray c a v).units = s.units ∧ (s.setArray c a v).cars = s.cars ∧
    (s.setArray c a v).led = s.led ∧ (s.setArray c a v).health = s.health ∧ (s.setArray c a v).sec = s.sec ∧ (s.setArray c a v).tap = s.tap ∧
    (s.setArray c a v).out = s.out ∧ (s.setArray c a v).pending = s.pending :=
  ⟨rfl, rfl, rfl, rfl, rfl, rfl, rfl, rfl, rfl, rfl, rfl, rfl, rfl, rfl, rfl, rfl, rfl, rfl, rfl, rfl, rfl, rfl, rfl, rfl, rfl, rfl, rfl, rfl, rfl, rfl, rfl, rfl, rfl, rfl, rfl, rfl, rfl, rfl⟩

/-- `State.setSeng` changes only: clus. -/
@[simp] theorem State.setSeng_keeps (s : State) (c e : Nat) (v : SeSt) :
    (s.setSeng c e v).csr = s.csr ∧ (s.setSeng c e v).free = s.free ∧ (s.setSeng c e v).clk = s.clk ∧ (s.setSeng c e v).log = s.log ∧
    (s.setSeng c e v).bkp = s.bkp ∧ (s.setSeng c e v).rst = s.rst ∧ (s.setSeng c e v).vendor = s.vendor ∧ (s.setSeng c e v).oper = s.oper ∧
    (s.setSeng c e v).moulds = s.moulds ∧ (s.setSeng c e v).fields = s.fields ∧ (s.setSeng c e v).hot = s.hot ∧ (s.setSeng c e v).svc = s.svc ∧
    (s.setSeng c e v).xing = s.xing ∧ (s.setSeng c e v).xingLogged = s.xingLogged ∧ (s.setSeng c e v).mgmt = s.mgmt ∧ (s.setSeng c e v).sram = s.sram ∧
    (s.setSeng c e v).gddr = s.gddr ∧ (s.setSeng c e v).cxl = s.cxl ∧ (s.setSeng c e v).xts = s.xts ∧ (s.setSeng c e v).disabled = s.disabled ∧
    (s.setSeng c e v).fwLib = s.fwLib ∧ (s.setSeng c e v).tier = s.tier ∧ (s.setSeng c e v).vers = s.vers ∧ (s.setSeng c e v).owners = s.owners ∧
    (s.setSeng c e v).fab = s.fab ∧ (s.setSeng c e v).groups = s.groups ∧ (s.setSeng c e v).aborts = s.aborts ∧ (s.setSeng c e v).egr = s.egr ∧
    (s.setSeng c e v).tim = s.tim ∧ (s.setSeng c e v).runNo = s.runNo ∧ (s.setSeng c e v).units = s.units ∧ (s.setSeng c e v).cars = s.cars ∧
    (s.setSeng c e v).led = s.led ∧ (s.setSeng c e v).health = s.health ∧ (s.setSeng c e v).sec = s.sec ∧ (s.setSeng c e v).tap = s.tap ∧
    (s.setSeng c e v).out = s.out ∧ (s.setSeng c e v).pending = s.pending :=
  ⟨rfl, rfl, rfl, rfl, rfl, rfl, rfl, rfl, rfl, rfl, rfl, rfl, rfl, rfl, rfl, rfl, rfl, rfl, rfl, rfl, rfl, rfl, rfl, rfl, rfl, rfl, rfl, rfl, rfl, rfl, rfl, rfl, rfl, rfl, rfl, rfl, rfl, rfl⟩

/-- `State.setThread` changes only: clus. -/
@[simp] theorem State.setThread_keeps (s : State) (c t : Nat) (v : ThreadSt) :
    (s.setThread c t v).csr = s.csr ∧ (s.setThread c t v).free = s.free ∧ (s.setThread c t v).clk = s.clk ∧ (s.setThread c t v).log = s.log ∧
    (s.setThread c t v).bkp = s.bkp ∧ (s.setThread c t v).rst = s.rst ∧ (s.setThread c t v).vendor = s.vendor ∧ (s.setThread c t v).oper = s.oper ∧
    (s.setThread c t v).moulds = s.moulds ∧ (s.setThread c t v).fields = s.fields ∧ (s.setThread c t v).hot = s.hot ∧ (s.setThread c t v).svc = s.svc ∧
    (s.setThread c t v).xing = s.xing ∧ (s.setThread c t v).xingLogged = s.xingLogged ∧ (s.setThread c t v).mgmt = s.mgmt ∧ (s.setThread c t v).sram = s.sram ∧
    (s.setThread c t v).gddr = s.gddr ∧ (s.setThread c t v).cxl = s.cxl ∧ (s.setThread c t v).xts = s.xts ∧ (s.setThread c t v).disabled = s.disabled ∧
    (s.setThread c t v).fwLib = s.fwLib ∧ (s.setThread c t v).tier = s.tier ∧ (s.setThread c t v).vers = s.vers ∧ (s.setThread c t v).owners = s.owners ∧
    (s.setThread c t v).fab = s.fab ∧ (s.setThread c t v).groups = s.groups ∧ (s.setThread c t v).aborts = s.aborts ∧ (s.setThread c t v).egr = s.egr ∧
    (s.setThread c t v).tim = s.tim ∧ (s.setThread c t v).runNo = s.runNo ∧ (s.setThread c t v).units = s.units ∧ (s.setThread c t v).cars = s.cars ∧
    (s.setThread c t v).led = s.led ∧ (s.setThread c t v).health = s.health ∧ (s.setThread c t v).sec = s.sec ∧ (s.setThread c t v).tap = s.tap ∧
    (s.setThread c t v).out = s.out ∧ (s.setThread c t v).pending = s.pending :=
  ⟨rfl, rfl, rfl, rfl, rfl, rfl, rfl, rfl, rfl, rfl, rfl, rfl, rfl, rfl, rfl, rfl, rfl, rfl, rfl, rfl, rfl, rfl, rfl, rfl, rfl, rfl, rfl, rfl, rfl, rfl, rfl, rfl, rfl, rfl, rfl, rfl, rfl, rfl⟩

/-- `State.setTok` changes only: clus. -/
@[simp] theorem State.setTok_keeps (s : State) (c m x t v : Nat) :
    (s.setTok c m x t v).csr = s.csr ∧ (s.setTok c m x t v).free = s.free ∧ (s.setTok c m x t v).clk = s.clk ∧ (s.setTok c m x t v).log = s.log ∧
    (s.setTok c m x t v).bkp = s.bkp ∧ (s.setTok c m x t v).rst = s.rst ∧ (s.setTok c m x t v).vendor = s.vendor ∧ (s.setTok c m x t v).oper = s.oper ∧
    (s.setTok c m x t v).moulds = s.moulds ∧ (s.setTok c m x t v).fields = s.fields ∧ (s.setTok c m x t v).hot = s.hot ∧ (s.setTok c m x t v).svc = s.svc ∧
    (s.setTok c m x t v).xing = s.xing ∧ (s.setTok c m x t v).xingLogged = s.xingLogged ∧ (s.setTok c m x t v).mgmt = s.mgmt ∧ (s.setTok c m x t v).sram = s.sram ∧
    (s.setTok c m x t v).gddr = s.gddr ∧ (s.setTok c m x t v).cxl = s.cxl ∧ (s.setTok c m x t v).xts = s.xts ∧ (s.setTok c m x t v).disabled = s.disabled ∧
    (s.setTok c m x t v).fwLib = s.fwLib ∧ (s.setTok c m x t v).tier = s.tier ∧ (s.setTok c m x t v).vers = s.vers ∧ (s.setTok c m x t v).owners = s.owners ∧
    (s.setTok c m x t v).fab = s.fab ∧ (s.setTok c m x t v).groups = s.groups ∧ (s.setTok c m x t v).aborts = s.aborts ∧ (s.setTok c m x t v).egr = s.egr ∧
    (s.setTok c m x t v).tim = s.tim ∧ (s.setTok c m x t v).runNo = s.runNo ∧ (s.setTok c m x t v).units = s.units ∧ (s.setTok c m x t v).cars = s.cars ∧
    (s.setTok c m x t v).led = s.led ∧ (s.setTok c m x t v).health = s.health ∧ (s.setTok c m x t v).sec = s.sec ∧ (s.setTok c m x t v).tap = s.tap ∧
    (s.setTok c m x t v).out = s.out ∧ (s.setTok c m x t v).pending = s.pending :=
  ⟨rfl, rfl, rfl, rfl, rfl, rfl, rfl, rfl, rfl, rfl, rfl, rfl, rfl, rfl, rfl, rfl, rfl, rfl, rfl, rfl, rfl, rfl, rfl, rfl, rfl, rfl, rfl, rfl, rfl, rfl, rfl, rfl, rfl, rfl, rfl, rfl, rfl, rfl⟩

/-- `State.pass` changes only: clk, bkp. -/
@[simp] theorem State.pass_keeps (s : State) (dt : Nat) :
    (s.pass dt).csr = s.csr ∧ (s.pass dt).free = s.free ∧ (s.pass dt).log = s.log ∧ (s.pass dt).rst = s.rst ∧
    (s.pass dt).vendor = s.vendor ∧ (s.pass dt).oper = s.oper ∧ (s.pass dt).moulds = s.moulds ∧ (s.pass dt).clus = s.clus ∧
    (s.pass dt).fields = s.fields ∧ (s.pass dt).hot = s.hot ∧ (s.pass dt).svc = s.svc ∧ (s.pass dt).xing = s.xing ∧
    (s.pass dt).xingLogged = s.xingLogged ∧ (s.pass dt).mgmt = s.mgmt ∧ (s.pass dt).sram = s.sram ∧ (s.pass dt).gddr = s.gddr ∧
    (s.pass dt).cxl = s.cxl ∧ (s.pass dt).xts = s.xts ∧ (s.pass dt).disabled = s.disabled ∧ (s.pass dt).fwLib = s.fwLib ∧
    (s.pass dt).tier = s.tier ∧ (s.pass dt).vers = s.vers ∧ (s.pass dt).owners = s.owners ∧ (s.pass dt).fab = s.fab ∧
    (s.pass dt).groups = s.groups ∧ (s.pass dt).aborts = s.aborts ∧ (s.pass dt).egr = s.egr ∧ (s.pass dt).tim = s.tim ∧
    (s.pass dt).runNo = s.runNo ∧ (s.pass dt).units = s.units ∧ (s.pass dt).cars = s.cars ∧ (s.pass dt).led = s.led ∧
    (s.pass dt).health = s.health ∧ (s.pass dt).sec = s.sec ∧ (s.pass dt).tap = s.tap ∧ (s.pass dt).out = s.out ∧
    (s.pass dt).pending = s.pending :=
  ⟨rfl, rfl, rfl, rfl, rfl, rfl, rfl, rfl, rfl, rfl, rfl, rfl, rfl, rfl, rfl, rfl, rfl, rfl, rfl, rfl, rfl, rfl, rfl, rfl, rfl, rfl, rfl, rfl, rfl, rfl, rfl, rfl, rfl, rfl, rfl, rfl, rfl⟩

/-- `State.settle` changes only: rst. -/
@[simp] theorem State.settle_keeps (s : State) :
    (s.settle).csr = s.csr ∧ (s.settle).free = s.free ∧ (s.settle).clk = s.clk ∧ (s.settle).log = s.log ∧
    (s.settle).bkp = s.bkp ∧ (s.settle).vendor = s.vendor ∧ (s.settle).oper = s.oper ∧ (s.settle).moulds = s.moulds ∧
    (s.settle).clus = s.clus ∧ (s.settle).fields = s.fields ∧ (s.settle).hot = s.hot ∧ (s.settle).svc = s.svc ∧
    (s.settle).xing = s.xing ∧ (s.settle).xingLogged = s.xingLogged ∧ (s.settle).mgmt = s.mgmt ∧ (s.settle).sram = s.sram ∧
    (s.settle).gddr = s.gddr ∧ (s.settle).cxl = s.cxl ∧ (s.settle).xts = s.xts ∧ (s.settle).disabled = s.disabled ∧
    (s.settle).fwLib = s.fwLib ∧ (s.settle).tier = s.tier ∧ (s.settle).vers = s.vers ∧ (s.settle).owners = s.owners ∧
    (s.settle).fab = s.fab ∧ (s.settle).groups = s.groups ∧ (s.settle).aborts = s.aborts ∧ (s.settle).egr = s.egr ∧
    (s.settle).tim = s.tim ∧ (s.settle).runNo = s.runNo ∧ (s.settle).units = s.units ∧ (s.settle).cars = s.cars ∧
    (s.settle).led = s.led ∧ (s.settle).health = s.health ∧ (s.settle).sec = s.sec ∧ (s.settle).tap = s.tap ∧
    (s.settle).out = s.out ∧ (s.settle).pending = s.pending :=
  ⟨rfl, rfl, rfl, rfl, rfl, rfl, rfl, rfl, rfl, rfl, rfl, rfl, rfl, rfl, rfl, rfl, rfl, rfl, rfl, rfl, rfl, rfl, rfl, rfl, rfl, rfl, rfl, rfl, rfl, rfl, rfl, rfl, rfl, rfl, rfl, rfl, rfl, rfl⟩

/-- `State.emit` changes only: out. -/
@[simp] theorem State.emit_keeps (s : State) (e : Emit) :
    (s.emit e).csr = s.csr ∧ (s.emit e).free = s.free ∧ (s.emit e).clk = s.clk ∧ (s.emit e).log = s.log ∧
    (s.emit e).bkp = s.bkp ∧ (s.emit e).rst = s.rst ∧ (s.emit e).vendor = s.vendor ∧ (s.emit e).oper = s.oper ∧
    (s.emit e).moulds = s.moulds ∧ (s.emit e).clus = s.clus ∧ (s.emit e).fields = s.fields ∧ (s.emit e).hot = s.hot ∧
    (s.emit e).svc = s.svc ∧ (s.emit e).xing = s.xing ∧ (s.emit e).xingLogged = s.xingLogged ∧ (s.emit e).mgmt = s.mgmt ∧
    (s.emit e).sram = s.sram ∧ (s.emit e).gddr = s.gddr ∧ (s.emit e).cxl = s.cxl ∧ (s.emit e).xts = s.xts ∧
    (s.emit e).disabled = s.disabled ∧ (s.emit e).fwLib = s.fwLib ∧ (s.emit e).tier = s.tier ∧ (s.emit e).vers = s.vers ∧
    (s.emit e).owners = s.owners ∧ (s.emit e).fab = s.fab ∧ (s.emit e).groups = s.groups ∧ (s.emit e).aborts = s.aborts ∧
    (s.emit e).egr = s.egr ∧ (s.emit e).tim = s.tim ∧ (s.emit e).runNo = s.runNo ∧ (s.emit e).units = s.units ∧
    (s.emit e).cars = s.cars ∧ (s.emit e).led = s.led ∧ (s.emit e).health = s.health ∧ (s.emit e).sec = s.sec ∧
    (s.emit e).tap = s.tap ∧ (s.emit e).pending = s.pending :=
  ⟨rfl, rfl, rfl, rfl, rfl, rfl, rfl, rfl, rfl, rfl, rfl, rfl, rfl, rfl, rfl, rfl, rfl, rfl, rfl, rfl, rfl, rfl, rfl, rfl, rfl, rfl, rfl, rfl, rfl, rfl, rfl, rfl, rfl, rfl, rfl, rfl, rfl, rfl⟩

/-- `State.setSession` changes only: mgmt. -/
@[simp] theorem State.setSession_keeps (s : State) (z : SessSt) :
    (s.setSession z).csr = s.csr ∧ (s.setSession z).free = s.free ∧ (s.setSession z).clk = s.clk ∧ (s.setSession z).log = s.log ∧
    (s.setSession z).bkp = s.bkp ∧ (s.setSession z).rst = s.rst ∧ (s.setSession z).vendor = s.vendor ∧ (s.setSession z).oper = s.oper ∧
    (s.setSession z).moulds = s.moulds ∧ (s.setSession z).clus = s.clus ∧ (s.setSession z).fields = s.fields ∧ (s.setSession z).hot = s.hot ∧
    (s.setSession z).svc = s.svc ∧ (s.setSession z).xing = s.xing ∧ (s.setSession z).xingLogged = s.xingLogged ∧ (s.setSession z).sram = s.sram ∧
    (s.setSession z).gddr = s.gddr ∧ (s.setSession z).cxl = s.cxl ∧ (s.setSession z).xts = s.xts ∧ (s.setSession z).disabled = s.disabled ∧
    (s.setSession z).fwLib = s.fwLib ∧ (s.setSession z).tier = s.tier ∧ (s.setSession z).vers = s.vers ∧ (s.setSession z).owners = s.owners ∧
    (s.setSession z).fab = s.fab ∧ (s.setSession z).groups = s.groups ∧ (s.setSession z).aborts = s.aborts ∧ (s.setSession z).egr = s.egr ∧
    (s.setSession z).tim = s.tim ∧ (s.setSession z).runNo = s.runNo ∧ (s.setSession z).units = s.units ∧ (s.setSession z).cars = s.cars ∧
    (s.setSession z).led = s.led ∧ (s.setSession z).health = s.health ∧ (s.setSession z).sec = s.sec ∧ (s.setSession z).tap = s.tap ∧
    (s.setSession z).out = s.out ∧ (s.setSession z).pending = s.pending :=
  ⟨rfl, rfl, rfl, rfl, rfl, rfl, rfl, rfl, rfl, rfl, rfl, rfl, rfl, rfl, rfl, rfl, rfl, rfl, rfl, rfl, rfl, rfl, rfl, rfl, rfl, rfl, rfl, rfl, rfl, rfl, rfl, rfl, rfl, rfl, rfl, rfl, rfl, rfl⟩

/-- `State.setOp` changes only: mgmt. -/
@[simp] theorem State.setOp_keeps (s : State) (i : Nat) (o : OpSt) :
    (s.setOp i o).csr = s.csr ∧ (s.setOp i o).free = s.free ∧ (s.setOp i o).clk = s.clk ∧ (s.setOp i o).log = s.log ∧
    (s.setOp i o).bkp = s.bkp ∧ (s.setOp i o).rst = s.rst ∧ (s.setOp i o).vendor = s.vendor ∧ (s.setOp i o).oper = s.oper ∧
    (s.setOp i o).moulds = s.moulds ∧ (s.setOp i o).clus = s.clus ∧ (s.setOp i o).fields = s.fields ∧ (s.setOp i o).hot = s.hot ∧
    (s.setOp i o).svc = s.svc ∧ (s.setOp i o).xing = s.xing ∧ (s.setOp i o).xingLogged = s.xingLogged ∧ (s.setOp i o).sram = s.sram ∧
    (s.setOp i o).gddr = s.gddr ∧ (s.setOp i o).cxl = s.cxl ∧ (s.setOp i o).xts = s.xts ∧ (s.setOp i o).disabled = s.disabled ∧
    (s.setOp i o).fwLib = s.fwLib ∧ (s.setOp i o).tier = s.tier ∧ (s.setOp i o).vers = s.vers ∧ (s.setOp i o).owners = s.owners ∧
    (s.setOp i o).fab = s.fab ∧ (s.setOp i o).groups = s.groups ∧ (s.setOp i o).aborts = s.aborts ∧ (s.setOp i o).egr = s.egr ∧
    (s.setOp i o).tim = s.tim ∧ (s.setOp i o).runNo = s.runNo ∧ (s.setOp i o).units = s.units ∧ (s.setOp i o).cars = s.cars ∧
    (s.setOp i o).led = s.led ∧ (s.setOp i o).health = s.health ∧ (s.setOp i o).sec = s.sec ∧ (s.setOp i o).tap = s.tap ∧
    (s.setOp i o).out = s.out ∧ (s.setOp i o).pending = s.pending :=
  ⟨rfl, rfl, rfl, rfl, rfl, rfl, rfl, rfl, rfl, rfl, rfl, rfl, rfl, rfl, rfl, rfl, rfl, rfl, rfl, rfl, rfl, rfl, rfl, rfl, rfl, rfl, rfl, rfl, rfl, rfl, rfl, rfl, rfl, rfl, rfl, rfl, rfl, rfl⟩

/-- `State.logRec` changes only: csr, log. -/
@[simp] theorem State.logRec_keeps (s : State) (r : LogRec) :
    (s.logRec r).free = s.free ∧ (s.logRec r).clk = s.clk ∧ (s.logRec r).bkp = s.bkp ∧ (s.logRec r).rst = s.rst ∧
    (s.logRec r).vendor = s.vendor ∧ (s.logRec r).oper = s.oper ∧ (s.logRec r).moulds = s.moulds ∧ (s.logRec r).clus = s.clus ∧
    (s.logRec r).fields = s.fields ∧ (s.logRec r).hot = s.hot ∧ (s.logRec r).svc = s.svc ∧ (s.logRec r).xing = s.xing ∧
    (s.logRec r).xingLogged = s.xingLogged ∧ (s.logRec r).mgmt = s.mgmt ∧ (s.logRec r).sram = s.sram ∧ (s.logRec r).gddr = s.gddr ∧
    (s.logRec r).cxl = s.cxl ∧ (s.logRec r).xts = s.xts ∧ (s.logRec r).disabled = s.disabled ∧ (s.logRec r).fwLib = s.fwLib ∧
    (s.logRec r).tier = s.tier ∧ (s.logRec r).vers = s.vers ∧ (s.logRec r).owners = s.owners ∧ (s.logRec r).fab = s.fab ∧
    (s.logRec r).groups = s.groups ∧ (s.logRec r).aborts = s.aborts ∧ (s.logRec r).egr = s.egr ∧ (s.logRec r).tim = s.tim ∧
    (s.logRec r).runNo = s.runNo ∧ (s.logRec r).units = s.units ∧ (s.logRec r).cars = s.cars ∧ (s.logRec r).led = s.led ∧
    (s.logRec r).health = s.health ∧ (s.logRec r).sec = s.sec ∧ (s.logRec r).tap = s.tap ∧ (s.logRec r).out = s.out ∧
    (s.logRec r).pending = s.pending :=
  by unfold State.logRec; split <;> simp

/-- `State.logEvt` changes only: csr, log. -/
@[simp] theorem State.logEvt_keeps (s : State) (code source m d : Nat) :
    (s.logEvt code source m d).free = s.free ∧ (s.logEvt code source m d).clk = s.clk ∧ (s.logEvt code source m d).bkp = s.bkp ∧ (s.logEvt code source m d).rst = s.rst ∧
    (s.logEvt code source m d).vendor = s.vendor ∧ (s.logEvt code source m d).oper = s.oper ∧ (s.logEvt code source m d).moulds = s.moulds ∧ (s.logEvt code source m d).clus = s.clus ∧
    (s.logEvt code source m d).fields = s.fields ∧ (s.logEvt code source m d).hot = s.hot ∧ (s.logEvt code source m d).svc = s.svc ∧ (s.logEvt code source m d).xing = s.xing ∧
    (s.logEvt code source m d).xingLogged = s.xingLogged ∧ (s.logEvt code source m d).mgmt = s.mgmt ∧ (s.logEvt code source m d).sram = s.sram ∧ (s.logEvt code source m d).gddr = s.gddr ∧
    (s.logEvt code source m d).cxl = s.cxl ∧ (s.logEvt code source m d).xts = s.xts ∧ (s.logEvt code source m d).disabled = s.disabled ∧ (s.logEvt code source m d).fwLib = s.fwLib ∧
    (s.logEvt code source m d).tier = s.tier ∧ (s.logEvt code source m d).vers = s.vers ∧ (s.logEvt code source m d).owners = s.owners ∧ (s.logEvt code source m d).fab = s.fab ∧
    (s.logEvt code source m d).groups = s.groups ∧ (s.logEvt code source m d).aborts = s.aborts ∧ (s.logEvt code source m d).egr = s.egr ∧ (s.logEvt code source m d).tim = s.tim ∧
    (s.logEvt code source m d).runNo = s.runNo ∧ (s.logEvt code source m d).units = s.units ∧ (s.logEvt code source m d).cars = s.cars ∧ (s.logEvt code source m d).led = s.led ∧
    (s.logEvt code source m d).health = s.health ∧ (s.logEvt code source m d).sec = s.sec ∧ (s.logEvt code source m d).tap = s.tap ∧ (s.logEvt code source m d).out = s.out ∧
    (s.logEvt code source m d).pending = s.pending :=
  by simp [State.logEvt]

/-- `State.logWith` changes only: csr, log. -/
@[simp] theorem State.logWith_keeps (s : State) (code source m v : Nat) :
    (s.logWith code source m v).free = s.free ∧ (s.logWith code source m v).clk = s.clk ∧ (s.logWith code source m v).bkp = s.bkp ∧ (s.logWith code source m v).rst = s.rst ∧
    (s.logWith code source m v).vendor = s.vendor ∧ (s.logWith code source m v).oper = s.oper ∧ (s.logWith code source m v).moulds = s.moulds ∧ (s.logWith code source m v).clus = s.clus ∧
    (s.logWith code source m v).fields = s.fields ∧ (s.logWith code source m v).hot = s.hot ∧ (s.logWith code source m v).svc = s.svc ∧ (s.logWith code source m v).xing = s.xing ∧
    (s.logWith code source m v).xingLogged = s.xingLogged ∧ (s.logWith code source m v).mgmt = s.mgmt ∧ (s.logWith code source m v).sram = s.sram ∧ (s.logWith code source m v).gddr = s.gddr ∧
    (s.logWith code source m v).cxl = s.cxl ∧ (s.logWith code source m v).xts = s.xts ∧ (s.logWith code source m v).disabled = s.disabled ∧ (s.logWith code source m v).fwLib = s.fwLib ∧
    (s.logWith code source m v).tier = s.tier ∧ (s.logWith code source m v).vers = s.vers ∧ (s.logWith code source m v).owners = s.owners ∧ (s.logWith code source m v).fab = s.fab ∧
    (s.logWith code source m v).groups = s.groups ∧ (s.logWith code source m v).aborts = s.aborts ∧ (s.logWith code source m v).egr = s.egr ∧ (s.logWith code source m v).tim = s.tim ∧
    (s.logWith code source m v).runNo = s.runNo ∧ (s.logWith code source m v).units = s.units ∧ (s.logWith code source m v).cars = s.cars ∧ (s.logWith code source m v).led = s.led ∧
    (s.logWith code source m v).health = s.health ∧ (s.logWith code source m v).sec = s.sec ∧ (s.logWith code source m v).tap = s.tap ∧ (s.logWith code source m v).out = s.out ∧
    (s.logWith code source m v).pending = s.pending :=
  by simp [State.logWith]

/-- `State.logFree` changes only: csr, log, free. -/
@[simp] theorem State.logFree_keeps (s : State) (code source m : Nat) :
    (s.logFree code source m).clk = s.clk ∧ (s.logFree code source m).bkp = s.bkp ∧ (s.logFree code source m).rst = s.rst ∧ (s.logFree code source m).vendor = s.vendor ∧
    (s.logFree code source m).oper = s.oper ∧ (s.logFree code source m).moulds = s.moulds ∧ (s.logFree code source m).clus = s.clus ∧ (s.logFree code source m).fields = s.fields ∧
    (s.logFree code source m).hot = s.hot ∧ (s.logFree code source m).svc = s.svc ∧ (s.logFree code source m).xing = s.xing ∧ (s.logFree code source m).xingLogged = s.xingLogged ∧
    (s.logFree code source m).mgmt = s.mgmt ∧ (s.logFree code source m).sram = s.sram ∧ (s.logFree code source m).gddr = s.gddr ∧ (s.logFree code source m).cxl = s.cxl ∧
    (s.logFree code source m).xts = s.xts ∧ (s.logFree code source m).disabled = s.disabled ∧ (s.logFree code source m).fwLib = s.fwLib ∧ (s.logFree code source m).tier = s.tier ∧
    (s.logFree code source m).vers = s.vers ∧ (s.logFree code source m).owners = s.owners ∧ (s.logFree code source m).fab = s.fab ∧ (s.logFree code source m).groups = s.groups ∧
    (s.logFree code source m).aborts = s.aborts ∧ (s.logFree code source m).egr = s.egr ∧ (s.logFree code source m).tim = s.tim ∧ (s.logFree code source m).runNo = s.runNo ∧
    (s.logFree code source m).units = s.units ∧ (s.logFree code source m).cars = s.cars ∧ (s.logFree code source m).led = s.led ∧ (s.logFree code source m).health = s.health ∧
    (s.logFree code source m).sec = s.sec ∧ (s.logFree code source m).tap = s.tap ∧ (s.logFree code source m).out = s.out ∧ (s.logFree code source m).pending = s.pending :=
  by simp [State.logFree]

/-- `State.csrLog` changes only: csr, log. -/
@[simp] theorem State.csrLog_keeps (s : State) (code addr : Nat) (w : Bool) (req v : Nat) :
    (s.csrLog code addr w req v).free = s.free ∧ (s.csrLog code addr w req v).clk = s.clk ∧ (s.csrLog code addr w req v).bkp = s.bkp ∧ (s.csrLog code addr w req v).rst = s.rst ∧
    (s.csrLog code addr w req v).vendor = s.vendor ∧ (s.csrLog code addr w req v).oper = s.oper ∧ (s.csrLog code addr w req v).moulds = s.moulds ∧ (s.csrLog code addr w req v).clus = s.clus ∧
    (s.csrLog code addr w req v).fields = s.fields ∧ (s.csrLog code addr w req v).hot = s.hot ∧ (s.csrLog code addr w req v).svc = s.svc ∧ (s.csrLog code addr w req v).xing = s.xing ∧
    (s.csrLog code addr w req v).xingLogged = s.xingLogged ∧ (s.csrLog code addr w req v).mgmt = s.mgmt ∧ (s.csrLog code addr w req v).sram = s.sram ∧ (s.csrLog code addr w req v).gddr = s.gddr ∧
    (s.csrLog code addr w req v).cxl = s.cxl ∧ (s.csrLog code addr w req v).xts = s.xts ∧ (s.csrLog code addr w req v).disabled = s.disabled ∧ (s.csrLog code addr w req v).fwLib = s.fwLib ∧
    (s.csrLog code addr w req v).tier = s.tier ∧ (s.csrLog code addr w req v).vers = s.vers ∧ (s.csrLog code addr w req v).owners = s.owners ∧ (s.csrLog code addr w req v).fab = s.fab ∧
    (s.csrLog code addr w req v).groups = s.groups ∧ (s.csrLog code addr w req v).aborts = s.aborts ∧ (s.csrLog code addr w req v).egr = s.egr ∧ (s.csrLog code addr w req v).tim = s.tim ∧
    (s.csrLog code addr w req v).runNo = s.runNo ∧ (s.csrLog code addr w req v).units = s.units ∧ (s.csrLog code addr w req v).cars = s.cars ∧ (s.csrLog code addr w req v).led = s.led ∧
    (s.csrLog code addr w req v).health = s.health ∧ (s.csrLog code addr w req v).sec = s.sec ∧ (s.csrLog code addr w req v).tap = s.tap ∧ (s.csrLog code addr w req v).out = s.out ∧
    (s.csrLog code addr w req v).pending = s.pending :=
  by simp [State.csrLog]

/-- `State.count` changes only: health. -/
@[simp] theorem State.count_keeps (s : State) (k c n : Nat) :
    (s.count k c n).csr = s.csr ∧ (s.count k c n).free = s.free ∧ (s.count k c n).clk = s.clk ∧ (s.count k c n).log = s.log ∧
    (s.count k c n).bkp = s.bkp ∧ (s.count k c n).rst = s.rst ∧ (s.count k c n).vendor = s.vendor ∧ (s.count k c n).oper = s.oper ∧
    (s.count k c n).moulds = s.moulds ∧ (s.count k c n).clus = s.clus ∧ (s.count k c n).fields = s.fields ∧ (s.count k c n).hot = s.hot ∧
    (s.count k c n).svc = s.svc ∧ (s.count k c n).xing = s.xing ∧ (s.count k c n).xingLogged = s.xingLogged ∧ (s.count k c n).mgmt = s.mgmt ∧
    (s.count k c n).sram = s.sram ∧ (s.count k c n).gddr = s.gddr ∧ (s.count k c n).cxl = s.cxl ∧ (s.count k c n).xts = s.xts ∧
    (s.count k c n).disabled = s.disabled ∧ (s.count k c n).fwLib = s.fwLib ∧ (s.count k c n).tier = s.tier ∧ (s.count k c n).vers = s.vers ∧
    (s.count k c n).owners = s.owners ∧ (s.count k c n).fab = s.fab ∧ (s.count k c n).groups = s.groups ∧ (s.count k c n).aborts = s.aborts ∧
    (s.count k c n).egr = s.egr ∧ (s.count k c n).tim = s.tim ∧ (s.count k c n).runNo = s.runNo ∧ (s.count k c n).units = s.units ∧
    (s.count k c n).cars = s.cars ∧ (s.count k c n).led = s.led ∧ (s.count k c n).sec = s.sec ∧ (s.count k c n).tap = s.tap ∧
    (s.count k c n).out = s.out ∧ (s.count k c n).pending = s.pending :=
  by unfold State.count; split <;> simp

/-- `State.alert` changes only: csr, rst. -/
@[simp] theorem State.alert_keeps (s : State) (k : Nat) :
    (s.alert k).free = s.free ∧ (s.alert k).clk = s.clk ∧ (s.alert k).log = s.log ∧ (s.alert k).bkp = s.bkp ∧
    (s.alert k).vendor = s.vendor ∧ (s.alert k).oper = s.oper ∧ (s.alert k).moulds = s.moulds ∧ (s.alert k).clus = s.clus ∧
    (s.alert k).fields = s.fields ∧ (s.alert k).hot = s.hot ∧ (s.alert k).svc = s.svc ∧ (s.alert k).xing = s.xing ∧
    (s.alert k).xingLogged = s.xingLogged ∧ (s.alert k).mgmt = s.mgmt ∧ (s.alert k).sram = s.sram ∧ (s.alert k).gddr = s.gddr ∧
    (s.alert k).cxl = s.cxl ∧ (s.alert k).xts = s.xts ∧ (s.alert k).disabled = s.disabled ∧ (s.alert k).fwLib = s.fwLib ∧
    (s.alert k).tier = s.tier ∧ (s.alert k).vers = s.vers ∧ (s.alert k).owners = s.owners ∧ (s.alert k).fab = s.fab ∧
    (s.alert k).groups = s.groups ∧ (s.alert k).aborts = s.aborts ∧ (s.alert k).egr = s.egr ∧ (s.alert k).tim = s.tim ∧
    (s.alert k).runNo = s.runNo ∧ (s.alert k).units = s.units ∧ (s.alert k).cars = s.cars ∧ (s.alert k).led = s.led ∧
    (s.alert k).health = s.health ∧ (s.alert k).sec = s.sec ∧ (s.alert k).tap = s.tap ∧ (s.alert k).out = s.out ∧
    (s.alert k).pending = s.pending :=
  by unfold State.alert; dsimp only; split <;> simp

/-- `State.moveMould` changes only: csr, log. -/
@[simp] theorem State.moveMould_keeps (s : State) (m n h : Nat) :
    (s.moveMould m n h).free = s.free ∧ (s.moveMould m n h).clk = s.clk ∧ (s.moveMould m n h).bkp = s.bkp ∧ (s.moveMould m n h).rst = s.rst ∧
    (s.moveMould m n h).vendor = s.vendor ∧ (s.moveMould m n h).oper = s.oper ∧ (s.moveMould m n h).moulds = s.moulds ∧ (s.moveMould m n h).clus = s.clus ∧
    (s.moveMould m n h).fields = s.fields ∧ (s.moveMould m n h).hot = s.hot ∧ (s.moveMould m n h).svc = s.svc ∧ (s.moveMould m n h).xing = s.xing ∧
    (s.moveMould m n h).xingLogged = s.xingLogged ∧ (s.moveMould m n h).mgmt = s.mgmt ∧ (s.moveMould m n h).sram = s.sram ∧ (s.moveMould m n h).gddr = s.gddr ∧
    (s.moveMould m n h).cxl = s.cxl ∧ (s.moveMould m n h).xts = s.xts ∧ (s.moveMould m n h).disabled = s.disabled ∧ (s.moveMould m n h).fwLib = s.fwLib ∧
    (s.moveMould m n h).tier = s.tier ∧ (s.moveMould m n h).vers = s.vers ∧ (s.moveMould m n h).owners = s.owners ∧ (s.moveMould m n h).fab = s.fab ∧
    (s.moveMould m n h).groups = s.groups ∧ (s.moveMould m n h).aborts = s.aborts ∧ (s.moveMould m n h).egr = s.egr ∧ (s.moveMould m n h).tim = s.tim ∧
    (s.moveMould m n h).runNo = s.runNo ∧ (s.moveMould m n h).units = s.units ∧ (s.moveMould m n h).cars = s.cars ∧ (s.moveMould m n h).led = s.led ∧
    (s.moveMould m n h).health = s.health ∧ (s.moveMould m n h).sec = s.sec ∧ (s.moveMould m n h).tap = s.tap ∧ (s.moveMould m n h).out = s.out ∧
    (s.moveMould m n h).pending = s.pending :=
  by simp [State.moveMould]

/-- `State.post` changes only: csr, log, clus. -/
@[simp] theorem State.post_keeps (s : State) (c m x t v : Nat) :
    (s.post c m x t v).free = s.free ∧ (s.post c m x t v).clk = s.clk ∧ (s.post c m x t v).bkp = s.bkp ∧ (s.post c m x t v).rst = s.rst ∧
    (s.post c m x t v).vendor = s.vendor ∧ (s.post c m x t v).oper = s.oper ∧ (s.post c m x t v).moulds = s.moulds ∧ (s.post c m x t v).fields = s.fields ∧
    (s.post c m x t v).hot = s.hot ∧ (s.post c m x t v).svc = s.svc ∧ (s.post c m x t v).xing = s.xing ∧ (s.post c m x t v).xingLogged = s.xingLogged ∧
    (s.post c m x t v).mgmt = s.mgmt ∧ (s.post c m x t v).sram = s.sram ∧ (s.post c m x t v).gddr = s.gddr ∧ (s.post c m x t v).cxl = s.cxl ∧
    (s.post c m x t v).xts = s.xts ∧ (s.post c m x t v).disabled = s.disabled ∧ (s.post c m x t v).fwLib = s.fwLib ∧ (s.post c m x t v).tier = s.tier ∧
    (s.post c m x t v).vers = s.vers ∧ (s.post c m x t v).owners = s.owners ∧ (s.post c m x t v).fab = s.fab ∧ (s.post c m x t v).groups = s.groups ∧
    (s.post c m x t v).aborts = s.aborts ∧ (s.post c m x t v).egr = s.egr ∧ (s.post c m x t v).tim = s.tim ∧ (s.post c m x t v).runNo = s.runNo ∧
    (s.post c m x t v).units = s.units ∧ (s.post c m x t v).cars = s.cars ∧ (s.post c m x t v).led = s.led ∧ (s.post c m x t v).health = s.health ∧
    (s.post c m x t v).sec = s.sec ∧ (s.post c m x t v).tap = s.tap ∧ (s.post c m x t v).out = s.out ∧ (s.post c m x t v).pending = s.pending :=
  by unfold State.post; dsimp only; split <;> simp

/-- `State.notify` changes only: mgmt, out. -/
@[simp] theorem State.notify_keeps (s : State) (z : SessSt) (ty : Nat) (b : Bytes) :
    (s.notify z ty b).csr = s.csr ∧ (s.notify z ty b).free = s.free ∧ (s.notify z ty b).clk = s.clk ∧ (s.notify z ty b).log = s.log ∧
    (s.notify z ty b).bkp = s.bkp ∧ (s.notify z ty b).rst = s.rst ∧ (s.notify z ty b).vendor = s.vendor ∧ (s.notify z ty b).oper = s.oper ∧
    (s.notify z ty b).moulds = s.moulds ∧ (s.notify z ty b).clus = s.clus ∧ (s.notify z ty b).fields = s.fields ∧ (s.notify z ty b).hot = s.hot ∧
    (s.notify z ty b).svc = s.svc ∧ (s.notify z ty b).xing = s.xing ∧ (s.notify z ty b).xingLogged = s.xingLogged ∧ (s.notify z ty b).sram = s.sram ∧
    (s.notify z ty b).gddr = s.gddr ∧ (s.notify z ty b).cxl = s.cxl ∧ (s.notify z ty b).xts = s.xts ∧ (s.notify z ty b).disabled = s.disabled ∧
    (s.notify z ty b).fwLib = s.fwLib ∧ (s.notify z ty b).tier = s.tier ∧ (s.notify z ty b).vers = s.vers ∧ (s.notify z ty b).owners = s.owners ∧
    (s.notify z ty b).fab = s.fab ∧ (s.notify z ty b).groups = s.groups ∧ (s.notify z ty b).aborts = s.aborts ∧ (s.notify z ty b).egr = s.egr ∧
    (s.notify z ty b).tim = s.tim ∧ (s.notify z ty b).runNo = s.runNo ∧ (s.notify z ty b).units = s.units ∧ (s.notify z ty b).cars = s.cars ∧
    (s.notify z ty b).led = s.led ∧ (s.notify z ty b).health = s.health ∧ (s.notify z ty b).sec = s.sec ∧ (s.notify z ty b).tap = s.tap ∧
    (s.notify z ty b).pending = s.pending :=
  by simp [State.notify]

theorem bitsOf_setBits_same (x lo w v : Nat) : bitsOf (setBits x lo w v) lo w = v % 2 ^ w := by
  unfold bitsOf setBits
  have h1 : (x % 2 ^ lo + 2 ^ lo * (v % 2 ^ w) + 2 ^ (lo + w) * (x / 2 ^ (lo + w))) / 2 ^ lo
      = v % 2 ^ w + 2 ^ w * (x / 2 ^ (lo + w)) := by
    rw [pow_add, mul_assoc, Nat.add_assoc, ← Nat.mul_add, Nat.add_mul_div_left _ _ (Nat.two_pow_pos lo),
      Nat.div_eq_of_lt (Nat.mod_lt _ (Nat.two_pow_pos lo)), Nat.zero_add]
  rw [h1, Nat.add_mul_mod_self_left, Nat.mod_mod]

theorem bitsOf_mod {x lo w n : Nat} (h : lo + w ≤ n) : bitsOf (x % 2 ^ n) lo w = bitsOf x lo w := by
  unfold bitsOf
  obtain ⟨k, rfl⟩ := Nat.exists_eq_add_of_le h
  rw [Nat.add_assoc, Nat.pow_add 2 lo, Nat.mod_mul_right_div_self, Nat.pow_add, Nat.mod_mod_of_dvd _ (Nat.dvd_mul_right _ _)]

/-- Every field lies inside its 64-bit register. -/
abbrev Field.fits (f : Field) : Prop := f.lo + f.width ≤ 64

/-- A register after it is stored. -/
@[simp] theorem State.reg_setReg_same (s : State) (r : RegName) (i j v : Nat) : (s.setReg r i j v).reg r i j = v % 2 ^ 64 := by
  simp [State.reg, State.setReg]

/-- A register at another address is unchanged by a store. -/
theorem State.reg_setReg_ne (s : State) {r q : RegName} {i j k l : Nat} (v : Nat) (h : regAddr q k l ≠ regAddr r i j) :
    (s.setReg r i j v).reg q k l = s.reg q k l := by
  simp [State.reg, State.setReg, Tab.get_set_ne _ _ _ _ h]

/-- A field after it is written. -/
theorem State.rd_wr_same (s : State) (f : Field) (v i j : Nat) (h : f.fits) : (s.wr f v i j).rd f i j = v % 2 ^ f.width := by
  unfold State.rd State.wr
  rw [State.reg_setReg_same, bitsOf_mod h, bitsOf_setBits_same]

/-- A field of a register at another address is unchanged by a write. -/
theorem State.rd_wr_ne (s : State) {f g : Field} {i j k l : Nat} (v : Nat) (h : regAddr g.reg k l ≠ regAddr f.reg i j) :
    (s.wr f v i j).rd g k l = s.rd g k l := by
  unfold State.rd State.wr
  rw [State.reg_setReg_ne s _ h]

theorem bitsOf_setBits_below {x lo w v lo' w' : Nat} (h : lo' + w' ≤ lo) : bitsOf (setBits x lo w v) lo' w' = bitsOf x lo' w' := by
  obtain ⟨k, rfl⟩ := Nat.exists_eq_add_of_le h
  have e : setBits x (lo' + w' + k) w v = x % 2 ^ (lo' + w' + k)
      + 2 ^ (lo' + w' + k) * (v % 2 ^ w + 2 ^ w * (x / 2 ^ (lo' + w' + k + w))) := by
    unfold setBits; ring
  rw [← bitsOf_mod (n := lo' + w' + k) (by omega), e, Nat.add_mul_mod_self_left, Nat.mod_mod, bitsOf_mod (by omega)]

theorem bitsOf_setBits_above {x lo w v lo' w' : Nat} (h : lo + w ≤ lo') : bitsOf (setBits x lo w v) lo' w' = bitsOf x lo' w' := by
  obtain ⟨k, rfl⟩ := Nat.exists_eq_add_of_le h
  have hl : x % 2 ^ lo + 2 ^ lo * (v % 2 ^ w) < 2 ^ (lo + w) := by
    have h1 : x % 2 ^ lo < 2 ^ lo := Nat.mod_lt _ (Nat.two_pow_pos lo)
    have h2 : v % 2 ^ w + 1 ≤ 2 ^ w := Nat.mod_lt _ (Nat.two_pow_pos w)
    calc x % 2 ^ lo + 2 ^ lo * (v % 2 ^ w) < 2 ^ lo + 2 ^ lo * (v % 2 ^ w) := by omega
      _ = 2 ^ lo * (v % 2 ^ w + 1) := by ring
      _ ≤ 2 ^ lo * 2 ^ w := Nat.mul_le_mul_left _ h2
      _ = 2 ^ (lo + w) := by rw [pow_add]
  unfold bitsOf setBits
  rw [pow_add 2 (lo + w) k, ← Nat.div_div_eq_div_mul, ← Nat.div_div_eq_div_mul, Nat.add_mul_div_left _ _ (Nat.two_pow_pos _),
    Nat.div_eq_of_lt hl, Nat.zero_add]

/-- A field beside the one written, in the same register, is unchanged. -/
theorem State.rd_wr_beside (s : State) {f g : Field} (v i j : Nat) (hr : g.reg = f.reg) (hg : g.fits)
    (h : g.lo + g.width ≤ f.lo ∨ f.lo + f.width ≤ g.lo) : (s.wr f v i j).rd g i j = s.rd g i j := by
  unfold State.rd State.wr
  rw [hr, State.reg_setReg_same, bitsOf_mod hg]
  rcases h with h | h
  · exact bitsOf_setBits_below h
  · exact bitsOf_setBits_above h

/-- A register at any address but the one stored is as it was. -/
theorem State.setReg_find (s : State) (r : RegName) (i j v : Nat) {a : Nat} (h : a ≠ regAddr r i j) :
    Tab.find (s.setReg r i j v).csr a = Tab.find s.csr a := by
  simp [State.setReg, Tab.find_set_ne _ _ _ h]

theorem State.wr_find (s : State) (f : Field) (v i j : Nat) {a : Nat} (h : a ≠ regAddr f.reg i j) :
    Tab.find (s.wr f v i j).csr a = Tab.find s.csr a := State.setReg_find s _ _ _ _ h

theorem State.cnt_find (s : State) (f : Field) (i j n : Nat) {a : Nat} (h : a ≠ regAddr f.reg i j) :
    Tab.find (s.cnt f i j n).csr a = Tab.find s.csr a := State.setReg_find s _ _ _ _ h

/-- A log record touches no register but LOG_STATUS. -/
theorem State.logRec_find (s : State) (r : LogRec) {a : Nat} (h : a ≠ regAddr .logStatus 0 0) :
    Tab.find (s.logRec r).csr a = Tab.find s.csr a := by
  unfold State.logRec
  split
  · exact State.cnt_find s F.logStatus_dropped 0 0 1 h
  · rfl

theorem State.logEvt_find (s : State) (code source m d : Nat) {a : Nat} (h : a ≠ regAddr .logStatus 0 0) :
    Tab.find (s.logEvt code source m d).csr a = Tab.find s.csr a := State.logRec_find s _ h

theorem State.logFree_find (s : State) (code source m : Nat) {a : Nat} (h : a ≠ regAddr .logStatus 0 0) :
    Tab.find (s.logFree code source m).csr a = Tab.find s.csr a := State.logRec_find _ _ h

/-- A mould after it is replaced, and another one. -/
@[simp] theorem State.mould_setMould (s : State) (m n : Nat) (v : MouldSt) :
    (s.setMould m v).mould n = if n = m then v else s.mould n := by
  simp [State.mould, State.setMould, Tab.get_set]

/-- A cluster after it is replaced, and another one. -/
@[simp] theorem State.clu_setClu (s : State) (c n : Nat) (v : ClusterSt) : (s.setClu c v).clu n = if n = c then v else s.clu n := by
  simp [State.clu, State.setClu, Tab.get_set]

/-- A field of the core after it is replaced. -/
@[simp] theorem State.fieldSt_setField (s : State) (f n : Nat) (v : FieldSt) :
    (s.setField f v).fieldSt n = if n = f then v else s.fieldSt n := by
  simp [State.fieldSt, State.setField, Tab.get_set]

/-- An operation entry after it is replaced. -/
@[simp] theorem State.op_setOp (s : State) (i n : Nat) (o : OpSt) : (s.setOp i o).op n = if n = i then o else s.op n := by
  simp [State.op, State.setOp, Tab.get_set]

/-- A stream after it is replaced. -/
@[simp] theorem State.stream_setStream_same (s : State) (c st : Nat) (v : StreamSt) : (s.setStream c st v).stream c st = v := by
  simp [State.stream, State.setStream]

/-- An array after it is replaced. -/
@[simp] theorem State.array_setArray_same (s : State) (c a : Nat) (v : ArraySt) : (s.setArray c a v).array c a = v := by
  simp [State.array, State.setArray]

/-- A thread after it is replaced. -/
@[simp] theorem State.thread_setThread_same (s : State) (c t : Nat) (v : ThreadSt) : (s.setThread c t v).thread c t = v := by
  simp [State.thread, State.setThread]

/-- A signal engine after it is replaced. -/
@[simp] theorem State.seng_setSeng_same (s : State) (c e : Nat) (v : SeSt) : (s.setSeng c e v).seng c e = v := by
  simp [State.seng, State.setSeng]

/-- A context token after it is set. -/
@[simp] theorem State.tok_setTok_same (s : State) (c m x t v : Nat) : (s.setTok c m x t v).tok c m x t = v := by
  simp [State.tok, State.setTok]

/-- Settling the pins twice settles them once. -/
@[simp] theorem State.settle_settle (s : State) : s.settle.settle = s.settle := rfl

/-- A record that finds room becomes the newest. -/
theorem State.logRec_newest (s : State) (r : LogRec) (h : s.log.hbCount < 16384) : (s.logRec r).log.recs.head? = some r := by
  have : ¬ s.log.hbCount ≥ 16384 := by omega
  simp [State.logRec, this]

end Sys2Proof.Machine
end

