-- ==== Sys2Proof/Laws/Outcome.lean ====
section
/-! SUPPORT. Sys2Proof/Laws/Outcome.lean: the forms in which a meaning ends: each answers a next state whose pins are settled, and
in its own case answers what its body gives. -/
namespace Sys2Proof.Machine

/-- An outcome is a next state with its pins settled. -/
def Settled (o : Out) : Prop := ∃ u : State, o = .next u.settle

theorem done_settled (s : State) : Settled (done s) := ⟨s, rfl⟩

theorem whenLive_settled (s : State) (k : State → State) : Settled (s.whenLive k) := ⟨_, rfl⟩

/-- Out of reset the body runs. -/
theorem whenLive_live (s : State) (k : State → State) (h : s.live = true) : s.whenLive k = .next (k s).settle := by
  simp [State.whenLive, done, h]

/-- In reset nothing changes but the pins that follow the state. -/
theorem whenLive_reset (s : State) (k : State → State) (h : s.live = false) : s.whenLive k = .next s.settle := by
  simp [State.whenLive, done, h]

theorem takeCmd_settled (s : State) (code : Nat) (pre : Bytes → Bool) (k : MReq → State → State) : Settled (s.takeCmd code pre k) :=
  whenLive_settled _ _

/-- A command of the row's code at the front is taken. -/
theorem takeCmd_takes (s : State) (code : Nat) (pre : Bytes → Bool) (k : MReq → State → State) (r : MReq) (rest : List MReq)
    (hl : s.live = true) (hc : s.coreUp 0 = true) (hw : s.mgmt.waiting = r :: rest) (hr : r.code = code) (hp : pre r.body = true) :
    s.takeCmd code pre k = .next (k r (s.taken rest)).settle := by
  unfold State.takeCmd
  rw [whenLive_live _ _ hl, hw]
  simp [hc, hr, hp, State.taken]

theorem mgmtRx_settled (s : State) (p : Nat) (src : Bytes) (k : State → State) : Settled (s.mgmtRx p src k) := whenLive_settled _ _

theorem seIns_settled (s : State) (c e op : Nat) (k : Nat → State → State) : Settled (s.seIns c e op k) := whenLive_settled _ _

/-- An instruction of a signal engine runs where the program counter stands. -/
theorem seIns_runs (s : State) (c e op : Nat) (k : Nat → State → State) (hl : s.live = true) (he : e = 4 ∨ e = 5)
    (hr : (s.seng c e).running = true) (hs : s.rd F.seStatus_state c (e - 4) = 1)
    (hw : s.seWord c e (s.rd F.seStatus_pc c (e - 4)) % 64 = op) :
    s.seIns c e op k = .next (k (s.seWord c e (s.rd F.seStatus_pc c (e - 4))) s).settle := by
  unfold State.seIns
  rw [whenLive_live _ _ hl]
  simp [he, hr, hs, hw]

theorem seA_settled (s : State) (c e op : Nat) (f : Nat → SeSt → SeOut) : Settled (s.seA c e op f) := seIns_settled _ _ _ _ _

theorem sysIns_settled (s : State) (c t op mask : Nat) (k : Nat → State → State) : Settled (s.sysIns c t op mask k) := whenLive_settled _ _

theorem dbgAccess_settled (s : State) (level : Nat) (k : State → Nat × Nat × State) : Settled (s.dbgAccess level k) := ⟨_, rfl⟩

/-- A settled outcome has its pins as the state gives them. -/
theorem Settled.pins {o : Out} {t : State} (h : Settled o) (ht : o = .next t) : t.pinsSettled := by
  obtain ⟨u, rfl⟩ := h
  cases ht
  exact ⟨rfl, rfl⟩

end Sys2Proof.Machine
end

