-- ==== Sys2Proof/WellFormed.lean ====
section
/-! DEFINITION. Sys2Proof/WellFormed.lean: the operand ranges of a command: clusters, streams, arrays, engines, threads, moulds,
contexts, ports, carriers, channels and the widths of values, as the chapters number them. The meanings do not rest on it:
each makes the checks its rule gives. -/
namespace Sys2Proof

/-- A command whose operands lie in their ranges. -/
def Instr.wellFormed : Instr → Bool
  | .registerWrite _ addr value => addr < 2 ^ 32 && value < 2 ^ 64
  | .csrInvalidAccess _ addr _ value => addr < 2 ^ 32 && value < 2 ^ 64
  | .disabledClusterAccess _ addr _ value => addr < 2 ^ 32 && value < 2 ^ 64
  | .govCtrlWrite _ f value => f < 4 && value < 2 ^ 64
  | .governorSample _ f _ _ => f < 4
  | .shedStageLift _ f => f < 4
  | .fieldRejoin _ f => f < 4
  | .meshFrameEnd f _ m x c => f < 4 && m < 64 && x < 16 && c < 96
  | .holdingExpiry _ c a => c < 96 && a < 4
  | .preWarm _ m c _ => m < 64 && c < 96
  | .rampUpGrant f _ => f < 4
  | .crossingItem d _ _ => (1 ≤ d && d < 19)
  | .clockLost d _ => (1 ≤ d && d < 19)
  | .refclkLost => true
  | .refclkRestored => true
  | .slotEntryStart _ m c _ => m < 64 && c < 96
  | .slotTableActivate _ m => m < 64
  | .loanWindowOpen _ m c _ => m < 64 && c < 96
  | .loanWindowClose _ m c _ => m < 64 && c < 96
  | .issueLimitExpiry _ c st => c < 96 && st < 4
  | .segmentAdmit _ c st => c < 96 && st < 4
  | .nop c st => c < 96 && st < 4
  | .lds c st => c < 96 && st < 4
  | .str c st _ _ _ _ => c < 96 && st < 4
  | .replayCommit c a _ _ _ => c < 96 && a < 4
  | .arrivalGranulePresent c st _ => c < 96 && st < 4
  | .drn c st => c < 96 && st < 4
  | .chn c st => c < 96 && st < 4
  | .mov c st => c < 96 && st < 4
  | .ladleMovBegin _ c m x => c < 96 && m < 64 && x < 16
  | .movComplete c m x _ _ => c < 96 && m < 64 && x < 16
  | .twt c st => c < 96 && st < 4
  | .twtSatisfied c st _ => c < 96 && st < 4
  | .tps c st => c < 96 && st < 4
  | .sgd c st => c < 96 && st < 4
  | .rpt c st => c < 96 && st < 4
  | .endSeg c st => c < 96 && st < 4
  | .segmentEnd c st => c < 96 && st < 4
  | .waitTimeout c st => c < 96 && st < 4
  | .segOverrun c st => c < 96 && st < 4
  | .listLoadDone c _ _ _ => c < 96
  | .digestRecordWrite c => c < 96
  | .arrClearCounters _ c a => c < 96 && a < 4
  | .arrSelfTest _ c a => c < 96 && a < 4
  | .selfTestDone c a _ => c < 96 && a < 4
  | .mouldChilled m => m < 64
  | .operationStep _ _ _ _ _ => true
  | .serviceDatagramRx _ sub _ _ _ _ _ => sub < 48
  | .svcRingWrite _ e value => e < 256 && value < 2 ^ 64
  | .serviceDatagramTx e => e < 256
  | .gddrGranuleServe _ ch m _ _ _ _ => ch < 128 && m < 64
  | .cxlRequestComplete _ k m _ _ _ => k < 4 && m < 64
  | .cxlTimeout _ k m => k < 4 && m < 64
  | .cxlLinkTrain k _ _ _ _ => k < 4
  | .cxlLinkDown k => k < 4
  | .portTrain _ p => p < 12
  | .portTrainRetry _ p => p < 12
  | .identityWordRx p _ _ _ _ _ _ _ => p < 12
  | .portDown p _ _ => p < 12
  | .linkWordRx _ p _ _ _ _ _ => p < 12
  | .linkReplayTimeout _ p => p < 12
  | .frameForward p => p < 13
  | .putData p _ _ => p < 13
  | .getReq p _ _ => p < 13
  | .storeFrame p _ _ => p < 13
  | .loadReq p _ _ => p < 13
  | .atomicReq p _ _ => p < 13
  | .vreadReq p => p < 13
  | .ownReq p => p < 13
  | .getResp p => p < 13
  | .loadResp p => p < 13
  | .atomicResp p => p < 13
  | .vreadResp p => p < 13
  | .ownResp p => p < 13
  | .ack p => p < 13
  | .nak p => p < 13
  | .ackDelayExpiry _ dev m => dev < 1024 && m < 64
  | .frameResendTimeout _ dev m _ => dev < 1024 && m < 64
  | .atomicResend _ _ => true
  | .atomicGiveUp _ _ => true
  | .opTimeout _ _ => true
  | .collHello p => p < 13
  | .collPart p _ _ => p < 13
  | .collResult p => p < 13
  | .collCredit p => p < 13
  | .collData p => p < 13
  | .collAbort p => p < 13
  | .collChunkSend g => g < 256
  | .collHelloTimer _ g => g < 256
  | .collSetupTimeout _ g => g < 256
  | .collMovSetupTimeout _ c m x => c < 96 && m < 64 && x < 16
  | .collOpTimeout _ g => g < 256
  | .collAbortResend _ => true
  | .egressFrameStart _ sub => sub < 48
  | .gateIntervalStart _ sub => sub < 48
  | .accessLinkDown sub => sub < 48
  | .heartbeat _ => true
  | .timeNowNsRead _ => true
  | .timeIncrWrite value => value < 2 ^ 64
  | .timeCtrlWrite value => value < 2 ^ 64
  | .ptpMessageRx _ sub _ _ _ _ => sub < 48
  | .esmcRx _ sub => sub < 48
  | .esmcTimeout _ => true
  | .timeSourceTimeout _ => true
  | .timeWordTx _ p => p < 12
  | .timeWordRx _ p _ => p < 12
  | .ppsInEdge _ => true
  | .tsCapEdge _ c => c < 4
  | .timeCapNsRead c => c < 5
  | .trigArm c value => c < 4 && value < 2 ^ 64
  | .trigEdge _ c => c < 4
  | .ppsOutPulse _ => true
  | .seNop c e => c < 96 && (e == 4 || e == 5)
  | .halt c e => c < 96 && (e == 4 || e == 5)
  | .blk c e => c < 96 && (e == 4 || e == 5)
  | .setp c e => c < 96 && (e == 4 || e == 5)
  | .addp c e => c < 96 && (e == 4 || e == 5)
  | .seta c e => c < 96 && (e == 4 || e == 5)
  | .ldi c e => c < 96 && (e == 4 || e == 5)
  | .std c e => c < 96 && (e == 4 || e == 5)
  | .mvb c e => c < 96 && (e == 4 || e == 5)
  | .lut c e => c < 96 && (e == 4 || e == 5)
  | .seAdd c e => c < 96 && (e == 4 || e == 5)
  | .mul c e => c < 96 && (e == 4 || e == 5)
  | .ash c e => c < 96 && (e == 4 || e == 5)
  | .seAbs c e => c < 96 && (e == 4 || e == 5)
  | .seMax c e => c < 96 && (e == 4 || e == 5)
  | .seMin c e => c < 96 && (e == 4 || e == 5)
  | .sel c e => c < 96 && (e == 4 || e == 5)
  | .mac c e => c < 96 && (e == 4 || e == 5)
  | .mag2 c e => c < 96 && (e == 4 || e == 5)
  | .tapm c e => c < 96 && (e == 4 || e == 5)
  | .clra c e => c < 96 && (e == 4 || e == 5)
  | .rnd c e => c < 96 && (e == 4 || e == 5)
  | .job c e => c < 96 && (e == 4 || e == 5)
  | .jobPosted c e _ => c < 96 && (e == 4 || e == 5)
  | .waitj c e => c < 96 && (e == 4 || e == 5)
  | .unitJobStart u _ _ => u < 16
  | .jobComplete u => u < 16
  | .seLoadDone c e _ _ _ => c < 96 && (e == 4 || e == 5)
  | .fronthaulFrameRx _ sub _ _ _ => sub < 48
  | .timeDomainFrameRx _ sub _ _ _ => sub < 48
  | .unclassifiedFrameRx _ sub => sub < 48
  | .rxWindowOpen _ c => c < 128
  | .rxWindowClose _ c => c < 128
  | .cpringTailWrite _ c value => c < 128 && value < 2 ^ 64
  | .cplaneRelease _ c => c < 128
  | .dlSymbolRead _ c _ _ => c < 128
  | .dlFrameQueue _ c _ _ => c < 128
  | .dlFrameExpiry _ c => c < 128
  | .carrierMute _ c => c < 128
  | .carrierUnmute _ c => c < 128
  | .ldl c t _ _ => c < 96 && t < 16
  | .stl c t _ _ => c < 96 && t < 16
  | .atom4 c t _ _ => c < 96 && t < 16
  | .atom8 c t _ _ => c < 96 && t < 16
  | .own c t => c < 96 && t < 16
  | .vread c t => c < 96 && t < 16
  | .fence c t => c < 96 && t < 16
  | .fenceComplete c t => c < 96 && t < 16
  | .tpost c t => c < 96 && t < 16
  | .twait c t => c < 96 && t < 16
  | .sreq c t => c < 96 && t < 16
  | .lload c t => c < 96 && t < 16
  | .lunload c t => c < 96 && t < 16
  | .seload c t => c < 96 && t < 16
  | .cinv c t => c < 96 && t < 16
  | .ccln c t => c < 96 && t < 16
  | .tspawn c t => c < 96 && t < 16
  | .park _ c t => c < 96 && t < 16
  | .texit c t => c < 96 && t < 16
  | .timeRead _ c t => c < 96 && t < 16
  | .getst c t => c < 96 && t < 16
  | .threadWake _ c t => c < 96 && t < 16
  | .threadSwitchQuantum c => c < 96
  | .watchdogExpiry _ k => k < 4
  | .hello _ port _ _ => port < 2
  | .prove _ port _ _ => port < 2
  | .record _ port _ _ => port < 2
  | .close _ port _ _ => port < 2
  | .mgmtNonProtocolRx port _ => port < 2
  | .sessionProveTimeout _ => true
  | .sessionExpiry _ => true
  | .commandPartsTimeout _ => true
  | .ident => true
  | .csrRead => true
  | .csrWrite => true
  | .logRead => true
  | .opStatus => true
  | .opCancel => true
  | .subscribe => true
  | .pour => true
  | .mouldStart => true
  | .mouldChill => true
  | .mouldQuench => true
  | .ctxQuench => true
  | .segStart => true
  | .listLoad => true
  | .listUnload => true
  | .seLoad => true
  | .seUnload => true
  | .thrStart => true
  | .thrStop => true
  | .auditRun => true
  | .arrSelftest => true
  | .hotPool => true
  | .hotLoad => true
  | .hotPin => true
  | .hotUnpin => true
  | .hotEvict => true
  | .hotLookup => true
  | .svcBind => true
  | .svcUnbind => true
  | .groupSetup => true
  | .groupFree => true
  | .groupReset => true
  | .radioBind => true
  | .radioUnbind => true
  | .scan => true
  | .gddrRetrain => true
  | .timeSet => true
  | .ptpConfig => true
  | .ptpStatus => true
  | .imageStageOpen => true
  | .imageStageChunk => true
  | .imageStageClose => true
  | .baseStageOpen => true
  | .baseStageChunk => true
  | .baseStageClose => true
  | .imageCommit => true
  | .ledgerRead _ _ => true
  | .keyEnrollManager => true
  | .keyEnrollPattern => true
  | .keyEnrollQuorum => true
  | .keyEnrollPolicy => true
  | .keyRevoke => true
  | .attestCapture => true
  | .attestFetch => true
  | .debugAuthRaise => true
  | .debugAuthDrop => true
  | .debugAuthClearTamper => true
  | .certApply => true
  | .healthRead => true
  | .blockReset => true
  | .deviceReset => true
  | .deviceResetDelayExpiry _ => true
  | .blkRstGo value => value < 2 ^ 64
  | .blockResetDone _ i _ => i < 160
  | .memCert p => p < 13
  | .memCertReq p => p < 13
  | .memCertReassemblyTimeout _ p => p < 12
  | .epochGraceExpiry _ => true
  | .admitPortTimeout _ => true
  | .candidateTimeout _ => true
  | .retainExpiry _ => true
  | .hardLimitRate _ => true
  | .ueLimitClear _ => true
  | .quarantineEnd _ k => k < 96
  | .macsecVerifyTimeout _ p => p < 12
  | .healthRecordTimer _ => true
  | .summaryIntervalEnd _ => true
  | .storeNet value => value < 2 ^ 64
  | .ledgerAppendTimeout _ => true
  | .smbusClaim _ => true
  | .tamperEvent k _ => k < 6
  | .debugLevelExpiry _ => true
  | .recoveryRequest _ => true
  | .recoveryDataRx _ => true
  | .powerFail => true
  | .vinOvervoltage _ => true
  | .vinOutOfRange _ => true
  | .vinQualified => true
  | .railFault _ => true
  | .overpower _ => true
  | .thermalCapStep _ f _ => f < 4
  | .thermalTrip => true
  | .resetNAssert => true
  | .resetNRelease => true
  | .resetRelease _ _ _ _ _ _ => true
  | .firmwareStart _ _ _ _ _ => true
  | .tapReset => true
  | .idcode => true
  | .sample _ => true
  | .preload value => value < 2 ^ 3583
  | .extest _ _ value => value < 2 ^ 3583
  | .clamp => true
  | .highz => true
  | .extestPulse _ _ value => value < 2 ^ 3583
  | .extestTrain _ _ value => value < 2 ^ 3583
  | .bypass code => code < 256
  | .internalScan k => k < 16
  | .dbgChallenge => true
  | .dbgToken _ => true
  | .debugTokenVerified => true
  | .dbgCsrRead addr => addr < 2 ^ 32
  | .dbgCsrWrite addr value => addr < 2 ^ 32 && value < 2 ^ 64
  | .dbgMemoryRead space cluster addr => space < 4 && cluster < 256 && addr < 2 ^ 32
  | .rampDownComplete c a => c < 96 && a < 4
  | .clockRestored d => (1 ≤ d && d < 19)
  | .accessLinkUp sub => sub < 48
  | .mgmtLinkChange port _ => port < 2
  | .mgmtCoreRestarted _ k => k < 4
  | .gddrMaintenanceUnit _ ch _ => ch < 128
  | .powerCapAdjust _ _ _ _ _ => true
  | .unknownOpcodeFrameRx p => p < 13
  | .mgmtIcmpv6Rx port _ _ _ _ => port < 2
  | .smbusCommandRx => true
  | .pmbusTransferEnd _ => true
  | .ptpMessageTx _ sub _ _ _ => sub < 48
  | .esmcTx sub _ => sub < 48
  | .threadBaseInstruction c t _ _ _ _ addr value _ _ _ => c < 96 && t < 16 && addr < 2 ^ 64 && value < 2 ^ 64
  | .alertNHoldExpiry _ => true

end Sys2Proof
end

