-- ==== Sys2Proof/Tests/Slice0.lean ====
section
/-! SUPPORT. Sys2Proof/Tests/Slice0.lean: states for tests, ill-formed commands, values that the spec or a published standard gives, and
for every statement with hypotheses a theorem that shows states and operands which meet them, for each of its clauses. -/
open Sys2Proof Sys2Proof.Machine

namespace Sys2Proof.Tests

set_option Elab.async false

/-- A device out of reset, its reference and rails good, core 0 to core 3 up. -/
def w0 : State :=
  (({ State.reset with rst := { State.reset.rst with asserted := false, booted := true } } : State).wr F.mcStatus_coreUp 15).wr
    F.clkStatus_present 0x3FFFF

/-- A slot-table entry: cluster, kind, offset, end, list, WCET. -/
def slotBytes (c k o e l w : Nat) : Bytes := toLe 1 c ++ toLe 1 k ++ toLe 2 0 ++ toLe 4 o ++ toLe 4 e ++ toLe 4 l ++ toLe 4 w ++ toLe 12 0

/-- A region entry: base, length, tier, attributes, target. -/
def regionBytes (b n t a g : Nat) : Bytes := toLe 8 b ++ toLe 8 n ++ toLe 1 t ++ toLe 1 a ++ toLe 6 0 ++ toLe 8 g

/-- Mould 1 RUNNING as a radio mould: cluster 2, a slot table of 125 µs with a radio entry and a loan entry, one offer, regions. -/
def wRadio : State :=
  ((({ w0 with moulds := [(1, { MouldSt.init with
      claimed := [2], tableFrom := some 0
      secs := [(0x33, regionBytes 0 0x100000 0 0x0F 2 ++ regionBytes 0x10000000 0x100000 1 0x07 0),
        (0x35, toLe 4 125000 ++ toLe 4 0 ++ toLe 2 2 ++ toLe 6 0 ++ slotBytes 2 1 5000 0 7 100 ++ slotBytes 2 2 20000 60000 1 0),
        (0x36, [1, 2, 32, 4, 3, 0, 0, 0, 0, 0, 0, 0, 0, 0, 0, 0])] })] } : State).wr F.mouldStatus_state 3 1).wr F.mouldStatus_kind 1 1).wr
    F.mouldStatus_contextCount 2 1

/-- A segment of mould 1, context 0, runs on stream 0 of cluster 2, and its next instruction is the 16-byte word given. -/
def wIns (w : Nat) : State :=
  (((wRadio.setStream 2 0 { StreamSt.init with busy := true, image := List.replicate 128 0#8 ++ toLe 16 w ++ toLe 16 0, segOff := 64 }).wr
    F.seqStream_state 1 2 0).wr F.seqStream_mould 1 2 0).wr F.seqStream_ctx 0 2 0

/-- The instruction that a stream issues next. -/
def insOf (s : State) (c st : Nat) : QIns := ((s.nextIns c st).map (·.1)).getD ⟨0, 0, 0, 0, 0, 0, 0, 0, 0⟩

/-- A list image of one segment of two words, list_id 7: its header claims array 0. -/
def oneSeg : Bytes :=
  toLe 4 0 ++ toLe 2 0 ++ toLe 2 1 ++ toLe 4 7 ++ toLe 4 160 ++ List.replicate 48 0#8
    ++ toLe 2 0 ++ toLe 2 1 ++ toLe 4 2 ++ toLe 4 10 ++ toLe 4 0 ++ toLe 4 0 ++ toLe 4 20 ++ toLe 1 1 ++ toLe 1 0 ++ toLe 2 0 ++ List.replicate 36 0#8
    ++ toLe 16 0 ++ toLe 16 15

/-- wRadio with the list resident on cluster 2, array 0 holding, and the time just past the radio entry's instant. -/
def wList : State :=
  { wRadio.setClu 2 { ClusterSt.init with lists := [⟨1, 0, 7, oneSeg⟩] } with clk := ⟨5000, 0, 0, 5000, 0⟩ }.wr F.arrStatus_power 3 2 0

/-- wList as an inference mould with two start requests of context 0 waiting, the first behind a gate that is met. -/
def wInfer : State :=
  (((wList.wr F.mouldStatus_kind 2 1).setClu 2 { wList.clu 2 with queues := [(16, [⟨7, 0, 4, true, 2⟩, ⟨7, 0, 0, false, 0⟩])] }).setTok 2 1 0 4 2).wr
    F.govStatus_issueLimitRate 16 0

/-- A TWT at the head of its queue: context token 3, count 5, outside, wait limit 100. -/
def hTwt : QIns := ⟨8, 6, 6 + 8 * 16 + 2 ^ 9 + 2 ^ 16 + 3 * 2 ^ 17 + 5 * 2 ^ 22 + 100 * 2 ^ 96, 0, 0, 0, 0, 0, 0⟩

/-- A stream whose only queued instruction is that TWT, its token at its count. -/
def wWait : State := ((wIns 0).setStream 2 0 { (wIns 0).stream 2 0 with queues := [(8, [hTwt])] }).setTok 2 1 0 3 5

/-- An arrival STR of one row at the head of array 0's queue. -/
def hStr : QIns := ⟨0, 2, 2 + 2 ^ 9, 0, 0, 0, 0, 0, 0⟩

/-- A stream whose only queued instruction is that STR, bound to an arrival chain on token 4 with a wait limit of 50. -/
def wArr : State :=
  (((wIns 0).setStream 2 0 { (wIns 0).stream 2 0 with queues := [(0, [hStr])] }).setArray 2 0
    { ArraySt.init with binding := some ⟨0, 4 * 2 ^ 8, 50, 0, 0, 0, true, false, 0⟩, shadow := [⟨0, [[0]], []⟩] }).setTok 2 1 0 4 1000

/-- The first 60 bytes of a valid list header: mould 1, context 0, kind 1, list_id 7, one segment, 192 bytes. -/
def okHead : Bytes :=
  toLe 4 0x4C494B49 ++ toLe 2 1 ++ toLe 2 1 ++ toLe 4 7 ++ toLe 4 192 ++ [1, 0, 1, 0] ++ toLe 4 0 ++ toLe 8 0 ++ List.replicate 28 0#8

/-- Its segment: eight active beats, three NOPs and END. -/
def okBody : Bytes :=
  toLe 2 0 ++ toLe 2 1 ++ toLe 4 4 ++ toLe 4 8 ++ toLe 4 0 ++ toLe 4 0 ++ toLe 4 8 ++ List.replicate 40 0#8
    ++ toLe 16 128 ++ toLe 16 128 ++ toLe 16 128 ++ toLe 16 143

/-- A list image that validation accepts. -/
def okSeg : Bytes := okHead ++ toLe 4 (crc32c (okHead ++ okBody)) ++ okBody

/-- Bytes as the cells of cluster c's SRAM from an offset on, zeros left out. -/
def cellsOf (c o : Nat) (bs : Bytes) : List Host.Cell := (bs.zipIdx.map (fun e => (sramKey c (o + e.2), e.1))).filter (fun e => e.2 ≠ 0#8)

/-- Mould 1 has that image at the start of its SRAM region on cluster 2, and a thread's load of it waits. -/
def wLoad : State := ({ wRadio with sram := cellsOf 2 0 okSeg } : State).setClu 2 { ClusterSt.init with loads := [⟨1, 0, 0, 0, 7, 1, .thread 3⟩] }

/-- A session with every role, one request accepted. -/
def zReq : SessSt := ⟨1, [], 0xFF, true, 0, 0, [], 0, ⟨0, []⟩, 0, [], [], [], [], [⟨5, none, []⟩], 0, 0, 0⟩

/-- The command of that request. -/
def reqOf (code : Nat) (body : Bytes) : MReq := ⟨1, 5, code, body, 0, 0⟩

/-- The same state with the session open and its command at the front of those that wait. -/
def withReq (s : State) (code : Nat) (body : Bytes) : State :=
  { s with mgmt := { s.mgmt with sessions := [zReq], nextSession := 2, waiting := [reqOf code body] } }

/-- oneSeg with a digest mode in its segment's flags. -/
def digSeg : Bytes := oneSeg.take 66 ++ [5#8] ++ oneSeg.drop 67

/-- wList READY with an audited list on cluster 2, all its streams busy, and an AUDIT_RUN waiting. -/
def wAudit : State :=
  withReq ((wList.wr F.mouldStatus_state 2 1).setClu 2 { wList.clu 2 with
      lists := [⟨1, 0, 7, digSeg⟩], streams := [0, 1, 2, 3].map (fun st => (st, { StreamSt.init with busy := true })) })
    0x1C [1, 0, 2, 0, 7, 0, 0, 0, 0, 0, 0, 0, 9, 0, 0, 0]

/-- A system instruction word. -/
def sysW (op rd rs1 rs2 md : Nat) : Nat := 0x5D + rd * 2 ^ 7 + rs1 * 2 ^ 12 + rs2 * 2 ^ 17 + md * 2 ^ 22 + op * 2 ^ 26

/-- Thread 3 of cluster 2, bound to mould 1 context 0, runs at mould-local address 0x100 of device 1, where the word stands. -/
def wThr (w : Nat) (regs : Tab Nat) : State :=
  (((((({ wRadio with sram := cellsOf 2 0x100 (toLe 4 w) } : State).wr F.thrStatus_state 2 2 3).wr F.thrStatus_mould 1 2 3).wr
    F.fabTopo_xM1 3).wr F.fabTopo_devId 1).setThread 2 3 { ThreadSt.init with regs := regs, pc := 2 ^ 54 + 2 ^ 48 + 0x100 })

/-- That thread where the device is a MEMBER with all devices, and its mould has 8 request slots. -/
def wRem (w : Nat) (regs : Tab Nat) : State :=
  ({ wThr w regs with
    oper := some ⟨[], [(0x20, [1, 1, 2, 0, 8, 0] ++ List.replicate 74 0#8)], 0, 0⟩
    health := { HealthSt.init with lastCert := List.replicate 0x110 255#8 } } : State).wr F.healthStatus_state 4

/-- Engine 4 of cluster 2 runs the program word of mould 1 on stream 0, with some registers and memory set. -/
def wSe (w : Nat) : State :=
  ((((wIns 0).setSeng 2 4 { SeSt.init with
      running := true, progs := [⟨1, 9, 0x1000, 0, [w, 1], [0]⟩]
      regs := [(1, (0x7FFFFF, 5)), (2, (0x400000, 0x800000))], accs := [(1, (2 ^ 54, -3))], ptrs := [(1, ⟨4, 4, 2, 1⟩), (2, ⟨7, 0, 0, 1⟩)]
      dmA := [(4, (9, 8))], dmB := [(7, (0x123456, 1))], sas := [(1, 64)] }).wr F.seStatus_state 1 2 0).wr F.seStatus_pc 0x1000 2 0).wr
    F.seStatus_mould 1 2 0

/-- That engine where the segment claims every bank and unit 0 serves mould 1 over routes both ways. -/
def wJob (w : Nat) : State :=
  ((((wSe w).setStream 2 0 { (wSe w).stream 2 0 with banks := 2 ^ 64 - 1 }).setMould 1 { wRadio.mould 1 with
      secs := (0x32, [0, 0, 2, 0, 0xC4, 0] ++ List.replicate 74 0#8 ++ [1, 0, 0xC4, 0, 2, 0] ++ List.replicate 74 0#8) :: (wRadio.mould 1).secs }).wr F.radioUnit_state 1 0).wr
    F.radioUnit_mould 1 0

/-- A program image of two words, NOP and HALT, for mould 1. -/
def okProg : Bytes :=
  let a := toLe 4 0x50534B49 ++ toLe 2 1 ++ toLe 2 2 ++ toLe 4 9 ++ toLe 2 0x1000 ++ toLe 2 0 ++ [1, 1, 0, 0] ++ List.replicate 40 0#8
  a ++ toLe 4 (crc32c (a ++ toLe 8 0 ++ toLe 8 1)) ++ toLe 8 0 ++ toLe 8 1

/-- Mould 1 has that image at the start of its SRAM region on cluster 2, and thread 3 waits for its load on engine 5. -/
def wProg : State :=
  (({ wRadio with sram := cellsOf 2 0 okProg } : State).setSeng 2 5 { SeSt.init with loads := [⟨1, 0, 0, 2, 0, 0, .thread 3⟩] }).wr F.thrStatus_state 3 2 3

/-- A HOT_LOAD body: 64 bytes from the far region to the pool. -/
def hotReq : Bytes := [1] ++ List.replicate 7 0#8 ++ List.replicate 32 7#8 ++ toLe 8 0x10000000 ++ toLe 8 0x40000 ++ toLe 8 64

/-- Mould 1 with a pool of 64 KB and room for two entries, and the entries given. -/
def wHot (es : List HotEntry) : State :=
  { wRadio.setMould 1 { wRadio.mould 1 with pooled := true, pools := [(0x40000, 0x10000)], maxHot := 2 } with hot := es }

/-- An entry RESIDENT under that digest, pinned p times. -/
def eHot (p : Nat) : HotEntry := ⟨List.replicate 32 7#8, 1, false, 0x40000, 64, p, 0, 0⟩

/-- A body that names it. -/
def hotName : Bytes := [1] ++ List.replicate 7 0#8 ++ List.replicate 32 7#8

/-- An SVC_BIND body of endpoint 3 for context 1 of mould 1 with rings of 16 slots. -/
def svcReq : Bytes :=
  toLe 2 3 ++ [1, 1, 0, 4] ++ toLe 2 16 ++ toLe 2 4000 ++ toLe 2 16 ++ toLe 2 16 ++ toLe 2 2 ++ List.replicate 16 9#8 ++ toLe 8 0 ++ toLe 8 0x8000
    ++ List.replicate 32 5#8

/-- Mould 1 with contexts 0 and 1 on cluster 2, and a queue of its own on access port 0. -/
def wSvc : State :=
  { wRadio.setMould 1 { wRadio.mould 1 with secs := (0x31, [2, 0, 0, 1, 0xFF, 0xFF] ++ List.replicate 10 0#8) :: (wRadio.mould 1).secs } with
    oper := some ⟨[], [(0x22, [0x10, 1, 16, 0, 1] ++ List.replicate 19 0#8)], 0, 0⟩ }

/-- The endpoint bound, its sub-port up. -/
def wEp : State := (wSvc.setSvc 3 (svcOf svcReq)).wr F.apStatus_linkUp 15 0

/-- A datagram of 2 bytes to endpoint 3 in session 5 with counter 1, its tag all zeros. -/
def dgram : Bytes := [1, 1] ++ toBe 2 3 ++ toBe 4 5 ++ List.replicate 8 0#8 ++ toBe 2 2 ++ [0, 0] ++ toBe 4 1 ++ [8, 9] ++ List.replicate 16 0#8

/-- wRem's envelope with channels 0 and 1 and a CXL window, channels on, CXL device 0 up, and the granules given at channel 0 and CXL 0. -/
def wFar (g : List Gran) (k : List Gran) : State :=
  ((((({ wRem 0 [] with
    oper := some ⟨[], [(0x20, [1, 1, 2, 0, 8, 0, 0, 0, 3] ++ List.replicate 71 0#8)], 0, 0⟩
    fab := { State.reset.fab with ops := [(7, { ROp.init with kind := 2, mould := 1, sent := 2 })] }
    tier := { State.reset.tier with gq := [(1, g)], cq := [(1, k)] } } : State).wr F.gddrCh_state 2 0).wr F.gddrCh_state 2 1).wr
    F.gddrCfg_channelMb 16).wr F.cxlDev_linkUp 1 0).wr F.scrubCtrl_gddrEn 1

/-- A granule of transfer 7, and one of a thread. -/
def gMov : Gran := ⟨.ladle 2 1 0 7, false, 1, 0x10000000, 0x200, 64, 0, 1⟩
def gThr : Gran := ⟨.thread 2 3, false, 1, 0x10000040, 0, 64, 0, 1⟩

/-- A transfer of context 0 of mould 1. -/
def mkMov (kind src dst : Nat) (begun : Bool) : MovSt := ⟨kind, false, 5, true, 64, src, dst, 0, false, 0, 0, begun, 7, 0, 0⟩

/-- It is the only one in its queue on cluster 2, with its operation as given. -/
def wMov (v : MovSt) (o : ROp) : State :=
  let s := wFar [] []
  ({ s with fab := { s.fab with ops := [(7, o)] } } : State).setClu 2 { s.clu 2 with ladle := [(16, [v])] }

/-- A group entry of handle 9: members 1 and 2, mould 1, context 0, timeout 1,000 µs. -/
def grpBytes (op : Nat) : Bytes :=
  toLe 2 9 ++ [1, 1, 0] ++ toLe 1 op ++ [1, 0] ++ toLe 2 2 ++ toLe 2 16 ++ toLe 4 0 ++ toLe 4 1000 ++ List.replicate 44 0#8 ++ toLe 2 1 ++ toLe 2 2

/-- wMov with that group at index 0, in SETUP. -/
def wGrp : State :=
  (({ wMov { mkMov 5 0x100 (0x400 * 65536 + 9) false with beganAt := 1 } ROp.init with groups := [(0, { GroupSt.init with entry := grpBytes 0 })] } : State).wr
    F.collG_state 1 0).wr F.collG_handle 9 0

/-- wRem's device 1 of four in X, port 0 up to device 2, with the port as given. -/
def wJor (v : PortSt) : State :=
  (({ wRem 0 [] with fab := { State.reset.fab with ports := [(0, v)] } } : State).wr F.portStatus_state 2 0).wr F.portStatus_peerId 2 0

/-- A frame from device 2 for device d, of an opcode with a payload, of class cls. -/
def fr (d op seq cls : Nat) (pay : Bytes) : Bytes := mkFrame d 2 1 0 0 op 12 seq cls 0 0 pay

/-- A request frame from device 2 to device 1 of mould 1: opcode, sequence, offset, token byte, length, sub and the data behind the header. -/
def rq (op seq off tok len sub : Nat) (d : Bytes) : Bytes := fr 1 op seq 0 (toBe 6 off ++ toBe 1 0 ++ toBe 1 tok ++ toBe 4 len ++ toBe 4 sub ++ d)

/-- That frame has arrived on port 0. -/
def wRq (f : Bytes) : State := wJor { PortSt.init with rx := [f] }

/-- Operation 5 of thread 3 of cluster 2, at device 2: its kind, length, sub and destination register, first sequence 4, once sent. -/
def mkOp (kind len sub : Nat) : ROp :=
  { ROp.init with kind := kind, cluster := 2, mould := 1, thread := 3, dev := 2, far := 0x240, near := 0x300, len := len, sub := sub, rd := 7, first := 4, sends := 1, sent := len, left := [4] }

/-- wRq with that operation in flight; the thread waits for it. -/
def wAns (o : ROp) (f : Bytes) : State :=
  let s := ((({ wRq f with fab := { (wRq f).fab with ops := [(5, o)] } } : State).wr F.thrStatus_state 3 2 3).wr F.thrStatus_remoteOut 1 2 3).wr F.fabSlots_used 1 1
  (s.setThread 2 3 { s.thread 2 3 with wait := .remote 5 }).setTx (streamKey 2 1) ⟨4, 2, [⟨3, 9, 0, fr 2 3 3 0 []⟩, ⟨4, 5, 0, mkFrame 2 1 1 0 0 5 12 4 0 0 0 (reqHdr 0x240 0 0 false 8 0 ++ toBe 8 3)⟩], []⟩

/-- A frame from device 2 with a status. -/
def frS (op seq cls status flags : Nat) (pay : Bytes) : Bytes := mkFrame 1 2 1 0 0 op flags seq cls 0 status pay

/-- A group entry of handle 9: operation, type, root and the members' device IDs, mould 1, context 0, timeout 1,000 µs, quota 16. -/
def grpE (op dt root : Nat) (ms : List Nat) : Bytes :=
  toLe 2 9 ++ [1, 1, 0] ++ toLe 1 op ++ toLe 1 dt ++ [0] ++ toLe 2 ms.length ++ toLe 2 16 ++ toLe 4 0 ++ toLe 4 1000 ++ toLe 2 root ++ List.replicate 42 0#8
    ++ ms.flatMap (toLe 2) ++ List.replicate (64 - 2 * ms.length) 0xFF#8

/-- Device 1 with group 0 of handle 9 in a state, its transfer's operation 8 in flight, and a frame on port 0. -/
def wColl (st : Nat) (v : GroupSt) (f : Bytes) : State :=
  let w := wRq f
  ((({ w with groups := [(0, v)], fab := { w.fab with ops := [(8, { ROp.init with kind := 5, mould := 1, thread := 16 })] } } : State).wr F.collG_state st 0).wr
    F.collG_handle 9 0).wr F.collG_mould 1 0

/-- The operation under way: number 5, 64 bytes from 0x100 to 0x400. -/
def cOp (fast : Bool) : CollOp := ⟨5, 8, 2, 0x100, 0x400, 64, fast, 0, false, 0, 0, [], [], 0, [], [], 0, 0⟩

/-- A collective frame of the group from device 2: opcode, op_seq, generation, op_len64, late_member, stage and data. -/
def cFr (op seq gen len64 late stage : Nat) (d : Bytes) : Bytes :=
  fr 1 op seq 2 (toBe 2 9 ++ toBe 2 gen ++ toBe 4 len64 ++ toBe 4 0 ++ toBe 2 late ++ toBe 1 stage ++ [0] ++ d)

/-- A carrier descriptor: carrier 3 of mould 1 context 0 on access port 0 lane 0, a split, 11 PRBs of numerology 0, one stream each way. -/
def carDesc (split fft : Nat) : Bytes :=
  [3, 1, 0, 0] ++ toLe 1 split ++ [0, 11, 0] ++ toLe 2 fft ++ [1, 1, 0, 16, 1, 0, 0, 0, 1, 2, 3, 4, 5, 6, 0, 0, 0xFE, 0xFF, 1, 4, 0, 255] ++ toLe 4 0 ++ toLe 4 20000
    ++ toLe 4 100000 ++ toLe 4 50000 ++ toLe 4 200000 ++ [16, 0, 16, 0, 7, 1] ++ toLe 2 16 ++ toLe 2 1500 ++ toLe 2 0 ++ toLe 8 0 ++ toLe 8 0x6000
    ++ toLe 8 0xC000 ++ toLe 8 0xD000 ++ toLe 8 0x10000 ++ List.replicate 24 0#8

/-- Mould 1 READY with routes between cluster 2 and the transform engine of its field, and a queue of its own on access port 0. -/
def wBind : State :=
  (wSvc.setMould 1 { wSvc.mould 1 with
    secs := (0x32, [0, 0, 2, 0, 0xC0, 0] ++ List.replicate 74 0#8 ++ [1, 0, 0xC0, 0, 2, 0] ++ List.replicate 74 0#8) :: (wSvc.mould 1).secs }).wr F.mouldStatus_state 2 1

/-- Carrier 3 bound to that mould, RUNNING, its lane up, at a time in ns. -/
def wCar (v : CarrierSt) (ns : Nat) : State :=
  ((({ wBind with cars := [(3, v)], clk := ⟨ns, 0, 0, ns, 0⟩ } : State).wr F.radioCar_bound 1 3).wr F.apStatus_linkUp 15 0).wr F.mouldStatus_state 3 1

/-- The carrier in split 7.2x, and in time-domain mode. -/
def carF : CarrierSt := { CarrierSt.init with desc := carDesc 0 0, gain := [(0, 4)], gainOld := [(0, 4)] }
def carT : CarrierSt := { CarrierSt.init with desc := carDesc 2 512, gain := [(0, 4)], gainOld := [(0, 4)] }

/-- A fronthaul message of one PRB at 2 for symbol 0 of subframe 1 of a frame. -/
def fhMsg : Bytes := [0x10, 0, 0, 60, 0, 0, 9, 0x80, 0x10, 0, 0x10, 0] ++ toBe 4 (2 * 256 + 1) ++ List.replicate 48 1#8

/-- A time-domain message of one sample, number 700, of frame 0. -/
def tdMsg : Bytes := [1, 1, 0, 0, 0, 5, 0, 1, 0, 0, 0, 0] ++ toBe 4 700 ++ [0, 3, 0, 4]

/-- A transform job of one vector of 12 values, from 0 to 0x1000, status at 0x2000. -/
def dJob (op : Nat) (quench : Nat) : JobRec :=
  ⟨2, 2, 4, 0x2000, 0, 1, 0, 0, 0, quench, toLe 1 op ++ List.replicate 7 0#8 ++ toLe 4 0 ++ toLe 4 72 ++ toLe 4 0x1000 ++ toLe 4 72 ++ toLe 8 0 ++ toLe 4 12
    ++ toLe 4 1 ++ toLe 8 0⟩

/-- wSvc, its access lane up, with a frame of 60 bytes in mould 1's queue, and a gate list of intervals of 1 ns and 99,999 ns with masks. -/
def wEgr (g : List Nat) : State :=
  (({ wSvc with oper := some ⟨[], [(0x22, [0x10, 1, 16, 0, 1] ++ List.replicate 19 0#8)] ++ (if g = [] then [] else
      [(0x23, [1, 0x10, 0, 0] ++ toLe 4 100000 ++ toLe 4 0 ++ [2, 0, 0, 0]
        ++ (List.zip [1, 99999] g).flatMap (fun e => [2, 0x10, 0, 0] ++ toLe 4 e.1 ++ toLe 4 e.2 ++ toLe 4 0))]), 0, 0⟩ } : State).enqueue
    (queueNo 0x10 16) ⟨List.replicate 56 1#8, 60, 12, 1, false, 0, 0⟩).wr F.apStatus_linkUp 15 0

/-- A datagram of the management protocol: type, session, counter, fragment, count of fragments and payload. -/
def mgm (ty sess ctr i n : Nat) (pay : Bytes) : Bytes :=
  [1] ++ toBe 1 ty ++ toBe 2 0 ++ toBe 4 sess ++ toBe 8 ctr ++ toBe 2 i ++ toBe 2 n ++ toBe 2 pay.length ++ toBe 2 0 ++ pay

/-- w0 with a manager key of the role C enrolled, the management ports up, and with the sessions and fragments given. -/
def wMgm (zs : List SessSt) (fs : List HsFrag) : State :=
  let k := ((w0.enrolKey 1 7 (List.replicate 104 5#8)).map (·.2)).getD w0
  (({ k with mgmt := { k.mgmt with sessions := zs, hs := fs } } : State).wr F.mgmtPort_linkUp 1 0).wr F.mgmtPort_linkUp 1 1

/-- The second fragment of a HELLO that names a key, the first held. -/
def hHello (id : Bytes) : Bytes := List.replicate 32 1#8 ++ id ++ List.replicate 1568 2#8
def wHello (id : Bytes) (n : Nat) : State := wMgm (List.replicate n zReq) [⟨[7, 8], 1, 0, [(0, (hHello id).take 1200)]⟩]
def dHello (id : Bytes) : Bytes := mgm 1 0 0 1 2 ((hHello id).drop 1200)

/-- A session that waits for its PROVE, from source 7, 8. -/
def zProve : SessSt := { zReq with confirmed := false, source := [7, 8], keyId := keyId (List.replicate 48 5#8) }

/-- w0 with an operation of a body in progress in entry 3, under a handle of sequence 1, and a command that waits. -/
def wOp (b : OpBody) (code : Nat) (body : Bytes) : State :=
  let s := withReq w0 code body
  { s with mgmt := { s.mgmt with handleSeq := 1, ops := [(3, ⟨259, 0x40, 1, 4, 0, 9, 0, 0, 0, b, 0, 0⟩)] } }

/-- An open of a staging of 30,080 bytes for a target, its header's length field at the place of an image or of a base. -/
def stgBody (tgt : Nat) : Bytes :=
  toLe 8 0 ++ toLe 4 30080 ++ toLe 4 0 ++ (if tgt = 0 then toLe 8 0 ++ toLe 4 30080 ++ List.replicate 52 0#8 else toLe 8 0 ++ toLe 4 0 ++ toLe 4 29888 ++ List.replicate 48 0#8)

/-- A staging of 128 bytes for a target under the handle of wOp's entry. -/
def wStg (tgt code : Nat) (body : Bytes) (closed staged : Bool) : State :=
  let s := wOp (.stage tgt) code body
  { s with led := { s.led with stage := some ⟨tgt, 7, 128, 259, closed, staged⟩ } }

/-- A chunk 0 of it. -/
def chkBody (op : Nat) : Bytes := toLe 4 op ++ toLe 4 259 ++ toLe 8 0 ++ (if op = 1 then List.replicate 128 5#8 else [])

/-- The state with that chunk's record appended. -/
def withChunk (s : State) : State := (s.append 2 (toLe 8 7 ++ List.replicate 128 5#8)).getD s

/-- The pattern of a mould pour whose directory holds a MOULD_MAP of mould 1 with one context and no cluster, signed by an enrolled key. -/
def pourPat : Bytes :=
  let k := keyId (List.replicate 48 5#8)
  List.replicate 6 0#8 ++ [3] ++ List.replicate 3 0#8 ++ toLe 2 1 ++ toLe 4 (16320 + 512) ++ List.replicate (0x100 - 16) 0#8
    ++ (toLe 2 0x30 ++ toLe 2 0 ++ toLe 4 0x140 ++ toLe 4 64 ++ toLe 4 1 ++ toLe 4 64 ++ List.replicate 12 0#8) ++ List.replicate 32 0#8
    ++ ([1, 2, 1] ++ List.replicate 61 0#8) ++ List.replicate (512 + 8 - 0x180) 0#8 ++ k

/-- The recovery loader asks; a datagram of its data. -/
def wRec : State := { w0 with sec := { w0.sec with recovering := some 0x1701 } }
def recData (total n : Nat) : Bytes := toLe 4 0x44524B49 ++ toLe 4 0 ++ toLe 2 0 ++ [0] ++ toLe 4 total ++ (toLe 8 0 ++ toLe 4 total ++ List.replicate (n - 12) 0#8)

/-- What an option holds. -/
theorem someGetD {α : Type} {o : Option α} {d : α} (h : o.isSome = true) : o = some (o.getD d) := by
  cases o with
  | none => cases h
  | some a => rfl

/-- Each of these terms breaks one check of well-formedness, and is refused (part 1). -/
theorem test_ill_formed_1 : ([
    .registerWrite 0 (2 ^ 32) 0, .registerWrite 0 0 (2 ^ 64), .csrInvalidAccess 0 (2 ^ 32) false 0, .csrInvalidAccess 0 0 false (2 ^ 64),
    .disabledClusterAccess 0 (2 ^ 32) false 0, .disabledClusterAccess 0 0 false (2 ^ 64), .govCtrlWrite 0 4 0, .govCtrlWrite 0 0 (2 ^ 64),
    .governorSample 0 4 0 0, .shedStageLift 0 4, .fieldRejoin 0 4, .meshFrameEnd 4 0 0 0 0, .meshFrameEnd 0 0 64 0 0, .meshFrameEnd 0 0 0 16 0,
    .meshFrameEnd 0 0 0 0 96, .holdingExpiry 0 96 0, .holdingExpiry 0 0 4, .preWarm 0 64 0 0, .preWarm 0 0 96 0, .rampUpGrant 4 false,
    .crossingItem 0 false 0, .crossingItem 19 false 0, .clockLost 0 false, .clockLost 19 false, .slotEntryStart 0 64 0 0, .slotEntryStart 0 0 96 0,
    .slotTableActivate 0 64, .loanWindowOpen 0 64 0 0, .loanWindowOpen 0 0 96 0, .loanWindowClose 0 64 0 0, .loanWindowClose 0 0 96 0,
    .issueLimitExpiry 0 96 0, .issueLimitExpiry 0 0 4, .segmentAdmit 0 96 0, .segmentAdmit 0 0 4, .nop 96 0, .nop 0 4, .lds 96 0, .lds 0 4,
    .str 96 0 false 0 0 0] : List Instr).all (fun i => !i.wellFormed) = true := by decide +kernel

/-- Each of these terms breaks one check of well-formedness, and is refused (part 2). -/
theorem test_ill_formed_2 : ([
    .str 0 4 false 0 0 0, .replayCommit 96 0 false 0 0, .replayCommit 0 4 false 0 0, .arrivalGranulePresent 96 0 0, .arrivalGranulePresent 0 4 0,
    .drn 96 0, .drn 0 4, .chn 96 0, .chn 0 4, .mov 96 0, .mov 0 4, .ladleMovBegin 0 96 0 0, .ladleMovBegin 0 0 64 0, .ladleMovBegin 0 0 0 16,
    .movComplete 96 0 0 0 0, .movComplete 0 64 0 0 0, .movComplete 0 0 16 0 0, .twt 96 0, .twt 0 4, .twtSatisfied 96 0 0, .twtSatisfied 0 4 0, .tps 96 0,
    .tps 0 4, .sgd 96 0, .sgd 0 4, .rpt 96 0, .rpt 0 4, .endSeg 96 0, .endSeg 0 4, .segmentEnd 96 0, .segmentEnd 0 4, .waitTimeout 96 0, .waitTimeout 0 4,
    .segOverrun 96 0, .segOverrun 0 4, .listLoadDone 96 0 0 0, .digestRecordWrite 96, .arrClearCounters 0 96 0, .arrClearCounters 0 0 4,
    .arrSelfTest 0 96 0] : List Instr).all (fun i => !i.wellFormed) = true := by decide +kernel

/-- Each of these terms breaks one check of well-formedness, and is refused (part 3). -/
theorem test_ill_formed_3 : ([
    .arrSelfTest 0 0 4, .selfTestDone 96 0 false, .selfTestDone 0 4 false, .mouldChilled 64, .serviceDatagramRx 0 48 [] 0 [] 0 [], .svcRingWrite 0 256 0,
    .svcRingWrite 0 0 (2 ^ 64), .serviceDatagramTx 256, .gddrGranuleServe 0 128 0 false 0 0 0, .gddrGranuleServe 0 0 64 false 0 0 0,
    .cxlRequestComplete 0 4 0 false false 0, .cxlRequestComplete 0 0 64 false false 0, .cxlTimeout 0 4 0, .cxlTimeout 0 0 64,
    .cxlLinkTrain 4 0 0 false false, .cxlLinkDown 4, .portTrain 0 12, .portTrainRetry 0 12, .identityWordRx 12 0 0 0 0 0 0 false, .portDown 12 0 0,
    .linkWordRx 0 12 0 [] false false false, .linkReplayTimeout 0 12, .frameForward 13, .putData 13 0 0, .getReq 13 0 0, .storeFrame 13 0 0,
    .loadReq 13 0 0, .atomicReq 13 0 0, .vreadReq 13, .ownReq 13, .getResp 13, .loadResp 13, .atomicResp 13, .vreadResp 13, .ownResp 13, .ack 13, .nak 13,
    .ackDelayExpiry 0 1024 0, .ackDelayExpiry 0 0 64, .frameResendTimeout 0 1024 0 0] : List Instr).all (fun i => !i.wellFormed) = true := by decide +kernel

/-- Each of these terms breaks one check of well-formedness, and is refused (part 4). -/
theorem test_ill_formed_4 : ([
    .frameResendTimeout 0 0 64 0, .collHello 13, .collPart 13 false false, .collResult 13, .collCredit 13, .collData 13, .collAbort 13, .collChunkSend 256,
    .collHelloTimer 0 256, .collSetupTimeout 0 256, .collMovSetupTimeout 0 96 0 0, .collMovSetupTimeout 0 0 64 0, .collMovSetupTimeout 0 0 0 16,
    .collOpTimeout 0 256, .egressFrameStart 0 48, .gateIntervalStart 0 48, .accessLinkDown 48, .timeIncrWrite (2 ^ 64), .timeCtrlWrite (2 ^ 64),
    .ptpMessageRx 0 48 0 0 false none, .esmcRx 0 48, .timeWordTx 0 12, .timeWordRx 0 12 [], .tsCapEdge 0 4, .timeCapNsRead 5, .trigArm 4 0,
    .trigArm 0 (2 ^ 64), .trigEdge 0 4, .seNop 96 0, .seNop 0 (5 + 1), .halt 96 0, .halt 0 (5 + 1), .blk 96 0, .blk 0 (5 + 1), .setp 96 0, .setp 0 (5 + 1),
    .addp 96 0, .addp 0 (5 + 1), .seta 96 0, .seta 0 (5 + 1)] : List Instr).all (fun i => !i.wellFormed) = true := by decide +kernel

/-- Each of these terms breaks one check of well-formedness, and is refused (part 5). -/
theorem test_ill_formed_5 : ([
    .ldi 96 0, .ldi 0 (5 + 1), .std 96 0, .std 0 (5 + 1), .mvb 96 0, .mvb 0 (5 + 1), .lut 96 0, .lut 0 (5 + 1), .seAdd 96 0, .seAdd 0 (5 + 1), .mul 96 0,
    .mul 0 (5 + 1), .ash 96 0, .ash 0 (5 + 1), .seAbs 96 0, .seAbs 0 (5 + 1), .seMax 96 0, .seMax 0 (5 + 1), .seMin 96 0, .seMin 0 (5 + 1), .sel 96 0,
    .sel 0 (5 + 1), .mac 96 0, .mac 0 (5 + 1), .mag2 96 0, .mag2 0 (5 + 1), .tapm 96 0, .tapm 0 (5 + 1), .clra 96 0, .clra 0 (5 + 1), .rnd 96 0,
    .rnd 0 (5 + 1), .job 96 0, .job 0 (5 + 1), .jobPosted 96 0 0, .jobPosted 0 (5 + 1) 0, .waitj 96 0, .waitj 0 (5 + 1), .unitJobStart 16 0 0,
    .jobComplete 16] : List Instr).all (fun i => !i.wellFormed) = true := by decide +kernel

/-- Each of these terms breaks one check of well-formedness, and is refused (part 6). -/
theorem test_ill_formed_6 : ([
    .seLoadDone 96 0 0 0 0, .seLoadDone 0 (5 + 1) 0 0 0, .fronthaulFrameRx 0 48 0 none [], .timeDomainFrameRx 0 48 0 none [], .unclassifiedFrameRx 0 48,
    .rxWindowOpen 0 128, .rxWindowClose 0 128, .cpringTailWrite 0 128 0, .cpringTailWrite 0 0 (2 ^ 64), .cplaneRelease 0 128, .dlSymbolRead 0 128 0 0,
    .dlFrameQueue 0 128 0 0, .dlFrameExpiry 0 128, .carrierMute 0 128, .carrierUnmute 0 128, .ldl 96 0 0 0, .ldl 0 16 0 0, .stl 96 0 0 0, .stl 0 16 0 0,
    .atom4 96 0 0 0, .atom4 0 16 0 0, .atom8 96 0 0 0, .atom8 0 16 0 0, .own 96 0, .own 0 16, .vread 96 0, .vread 0 16, .fence 96 0, .fence 0 16,
    .fenceComplete 96 0, .fenceComplete 0 16, .tpost 96 0, .tpost 0 16, .twait 96 0, .twait 0 16, .sreq 96 0, .sreq 0 16, .lload 96 0, .lload 0 16,
    .lunload 96 0] : List Instr).all (fun i => !i.wellFormed) = true := by decide +kernel

/-- Each of these terms breaks one check of well-formedness, and is refused (part 7). -/
theorem test_ill_formed_7 : ([
    .lunload 0 16, .seload 96 0, .seload 0 16, .cinv 96 0, .cinv 0 16, .ccln 96 0, .ccln 0 16, .tspawn 96 0, .tspawn 0 16, .park 0 96 0, .park 0 0 16,
    .texit 96 0, .texit 0 16, .timeRead 0 96 0, .timeRead 0 0 16, .getst 96 0, .getst 0 16, .threadWake 0 96 0, .threadWake 0 0 16,
    .threadSwitchQuantum 96, .watchdogExpiry 0 4, .hello 0 2 [] [], .prove 0 2 [] [], .record 0 2 [] [], .close 0 2 [] [], .mgmtNonProtocolRx 2 [],
    .blkRstGo (2 ^ 64), .blockResetDone 0 160 0, .memCert 13, .memCertReq 13, .memCertReassemblyTimeout 0 12, .quarantineEnd 0 96,
    .macsecVerifyTimeout 0 12, .storeNet (2 ^ 64), .tamperEvent 6 false, .thermalCapStep 0 4 0, .preload (2 ^ 3583), .extest false 0 (2 ^ 3583),
    .extestPulse false 0 (2 ^ 3583), .extestTrain false 0 (2 ^ 3583)] : List Instr).all (fun i => !i.wellFormed) = true := by decide +kernel

/-- Each of these terms breaks one check of well-formedness, and is refused (part 8). -/
theorem test_ill_formed_8 : ([
    .bypass 256, .internalScan 16, .dbgCsrRead (2 ^ 32), .dbgCsrWrite (2 ^ 32) 0, .dbgCsrWrite 0 (2 ^ 64), .dbgMemoryRead 4 0 0, .dbgMemoryRead 0 256 0,
    .dbgMemoryRead 0 0 (2 ^ 32), .rampDownComplete 96 0, .rampDownComplete 0 4, .clockRestored 0, .clockRestored 19, .accessLinkUp 48,
    .mgmtLinkChange 2 false, .mgmtCoreRestarted 0 4, .gddrMaintenanceUnit 0 128 0, .unknownOpcodeFrameRx 13, .mgmtIcmpv6Rx 2 0 [] [] [],
    .ptpMessageTx 0 48 0 0 [], .esmcTx 48 [], .threadBaseInstruction 96 0 0 0 0 false 0 0 0 0 0, .threadBaseInstruction 0 16 0 0 0 false 0 0 0 0 0,
    .threadBaseInstruction 0 0 0 0 0 false (2 ^ 64) 0 0 0 0, .threadBaseInstruction 0 0 0 0 0 false 0 (2 ^ 64) 0 0 0] : List Instr).all (fun i => !i.wellFormed) = true := by decide +kernel

/-- The digits "123456789". -/
def digits : Bytes := [0x31, 0x32, 0x33, 0x34, 0x35, 0x36, 0x37, 0x38, 0x39]

/-- Table 10.3, its check values over "123456789". -/
theorem test_scan_check_values :
    (List.range 3).map (fun k => crcRun (scanPoly k) (scanOnes k) digits ^^^ scanOnes k) = [0xE3069283, 0xCBF43926, 0x995DC9BBDF1939FA] := by
  decide +kernel

/-- FIPS 202: SHAKE256 of the empty string begins 46 B9 DD 2B 0B A8 8D 13. -/
theorem test_shake256_empty : (shake256 8 []).map BitVec.toNat = [0x46, 0xB9, 0xDD, 0x2B, 0x0B, 0xA8, 0x8D, 0x13] := by decide +kernel

/-- The worked example of R22. -/
theorem test_source_codes : srcEngine 17 5 = 0x1115 ∧ srcCluster 17 = 0x111F := by decide

/-- The examples of R19: the CSR windows of clusters 17 and 95. -/
theorem test_cluster_windows :
    csrCluster 0x02100000 = some 17 ∧ csrCluster 0x020FFFFF = some 16 ∧ csrCluster 0x06F00000 = some 95 ∧ csrCluster 0x07000000 = none := by
  decide

/-- The worked example of spec/04_arithmetic.md: E4M3 0x4D is 6.5, and E5M2 0xC9 is -10. -/
theorem test_decode_elements : toFp32 (elemVal 3 0x4D) = 0x40D00000 ∧ toFp32 (elemVal 4 0xC9) = 0xC1200000 := by decide +kernel

/-- Its conversion example: 470 is above 448. -/
theorem test_convert_overflow :
    convert 3 false .rne (.fin false 470 0) = ⟨0x7E, true, false, false⟩ ∧ (convert 3 true .rne (.fin false 470 0)).code = 0x7F := by
  decide +kernel

/-- Its MXFP4 example: the span of 9.0 and 4.5 drains at block exponent -1 to 6.75. -/
theorem test_mx_drain :
    drainVal ((product (elemVal 0xD 5) (elemVal 0xD 5)).add (product (elemVal 0xD 3) (elemVal 0xD 5))) (-1) = 0x40D80000 := by
  decide +kernel

/-- Its E5M2 example: the exact accumulator keeps the 1 between the two large products. -/
theorem test_exact_accumulator :
    drainVal (((product (elemVal 4 0x6C) (elemVal 4 0x6C)).add (product (elemVal 4 0x3C) (elemVal 4 0x3C))).add
      (product (elemVal 4 0xEC) (elemVal 4 0x6C))) 0 = 0x3F800000 := by
  decide +kernel

/-- The worked example of spec/12_collectives_and_crucible.md: in member order the sum is +0. -/
theorem test_reduce_in_member_order : fp32Add (fp32Add 0x4B800000 0x3F800000) 0xCB800000 = 0 := by decide +kernel

/-- Device 619 of an 8 × 8 × 16 torus (the test brings ports 0 and 1 up). -/
def wTorus : State :=
  ((((w0.wr F.fabTopo_xM1 7).wr F.fabTopo_yM1 7).wr F.fabTopo_zM1 15).wr F.fabTopo_devId 619)

/-- The routing example of R310: (3, 5, 9) is 619, and its frames to (6, 1, 9), 590, leave on port 1. -/
theorem test_route_example :
    (List.range 3).map (wTorus.coord 619) = [3, 5, 9] ∧ (List.range 3).map (wTorus.coord 590) = [6, 1, 9]
      ∧ (((wTorus.wr F.portStatus_state 2 1).wr F.portStatus_state 2 0).wr F.portStatus_peerId 620 1).route 619 590 12 false = .port 1 false false := by
  decide +kernel

/-- R604: the bits of IDCODE. -/
theorem test_idcode : bitsOf 0x209608BB 12 16 = 0x0960 ∧ bitsOf 0x209608BB 1 11 = 0x45D := by decide

/-- No word of the table spells a command: its rows have no bits. -/
theorem test_no_word_is_a_command : decodeTableWord 32 0 = none := by decide

/-- The queue runs first in, first out, and one at a time. -/
theorem test_step_takes_the_front : (match step { w0 with pending := [.idcode, .tapReset] } with
    | .next t => decide (t.pending = [.tapReset] ∧ t.tap.dr = 0x209608BB) | _ => false) = true := by
  decide +kernel

theorem witness_StepRunsFrontCommand : ∃ (s : State) (c : Instr) (rest : List Instr), s.pending = c :: rest :=
  ⟨{ w0 with pending := [.idcode, .tapReset] }, .idcode, [.tapReset], rfl⟩

theorem witness_EmptyQueueIdles : ∃ s : State, s.pending = [] := ⟨w0, by decide⟩

theorem witness_EveryCommandAnswers :
    (∃ (i : Instr) (_s : State), ∀ v, i = .vinOvervoltage v → v ≤ 80000) ∧ (∃ (v : Nat) (_s : State), 80000 < v) :=
  ⟨⟨.vinOvervoltage 70000, w0, fun v h => by cases h; decide⟩, ⟨80001, w0, by decide⟩⟩

theorem witness_EveryStepSettlesThePins : ∃ s t : State, s.pinsSettled ∧ step s = .next t :=
  ⟨w0.settle, w0.settle, ⟨rfl, rfl⟩, rfl⟩

/-- A MEMBER with a dimension of size above 1 has a pin high. -/
theorem witness_BypassPinsHighOnlyInPool : ∃ (i : Instr) (s t : State), exec i s = .next t ∧ t.rst.bypass ≠ 0 :=
  ⟨.idcode, wRem 0 [], _, rfl, by decide +kernel⟩

/-- ALERT_N is low where a cause stands. -/
theorem witness_AlertPinFollowsItsCauses : ∃ (i : Instr) (s t : State), exec i s = .next t ∧ t.reg .alertCause ≠ 0 ∧ t.rst.alertLow = true :=
  ⟨.idcode, w0.alert 3, _, rfl, by decide +kernel, by decide +kernel⟩


theorem witness_GovernorAndShedding :
    (∃ (s : State) (_req : Nat) (f : Nat) (v : Nat), (s.live = true) ∧ (f < 4) ∧ (1500 ≤ v) ∧ (v ≤ 2100))
    ∧ (∃ (s : State) (_req : Nat) (f : Nat) (v : Nat), (s.live = true) ∧ (f < 4) ∧ (v < 4096) ∧ ((v < 1500 ∨ 2100 < v)) ∧ (s.logRoom 1))
    ∧ (∃ (s : State) (_dt : Nat) (f : Nat) (rate : Nat) (cl : Nat), (s.live = true) ∧ (f < 4) ∧ (s.rd F.govStatus_alarm f = 0) ∧ (1500 ≤ rate) ∧ (rate < 4096) ∧ (cl < 96) ∧ ((s.rd F.govStatus_atVmax f = 0 ∨ 1560 ≤ rate)))
    ∧ (∃ (s : State) (dt : Nat) (f : Nat) (t : Nat), (s.live = true) ∧ (f < 4) ∧ ((s.fieldSt f).liftAt = some t) ∧ (t ≤ s.clk.up + dt) ∧ (s.rd F.govStatus_alarm f = 0) ∧ (0 < s.rd F.govStatus_shedStage f))
    ∧ (∃ (s : State) (dt : Nat) (f : Nat), (s.live = true) ∧ ((s.fieldSt f).below = true) ∧ (0 < (s.fieldSt f).okSince) ∧ ((s.fieldSt f).okSince - 1 + 1000000 ≤ s.clk.up + dt)) :=
  ⟨⟨w0, 0, 1, 1500, by decide +kernel⟩,
   ⟨w0, 0, 3, 1499, by decide +kernel⟩,
   ⟨w0, 1000, 2, 1500, 30, by decide +kernel⟩,
   ⟨(w0.wr F.govStatus_shedStage 3 1).setField 1 { FieldSt.init with liftAt := some 100 }, 100, 1, 100, by decide +kernel⟩,
   ⟨w0.setField 2 { FieldSt.init with below := true, okSince := 1 }, 1000000, 2, by decide +kernel⟩⟩

theorem witness_FrameFenceAndCrossings :
    (∃ (s : State) (f : Nat) (g : Nat) (_m : Nat) (_x : Nat) (_c : Nat), (s.live = true) ∧ (f < 4) ∧ ((s.fieldSt f).below = false) ∧ (g < 4) ∧ (g ≠ f) ∧ ((s.fieldSt g).below = false) ∧ ((s.fieldSt g).frameDone = false))
    ∧ (∃ (s : State) (f : Nat) (_m : Nat) (_x : Nat) (_c : Nat), (s.live = true) ∧ (f < 4) ∧ ((s.fieldSt f).below = true))
    ∧ (∃ (s : State) (d : Nat) (_n : Nat), (s.live = true) ∧ (0 < d) ∧ (d ≤ 18) ∧ (s.clockOn d = true))
    ∧ (∃ (s : State) (d : Nat) (_n : Nat), (s.live = true) ∧ (0 < d) ∧ (d ≤ 18) ∧ (s.clockOn d = true)) :=
  ⟨⟨w0, 0, 1, 0, 0, 0, by decide +kernel⟩,
   ⟨w0.setField 3 { FieldSt.init with below := true }, 3, 0, 0, 0, by decide +kernel⟩,
   ⟨{ w0 with xing := [(18, 5)] }, 18, 2, by decide +kernel⟩,
   ⟨w0, 1, 0, by decide +kernel⟩⟩

theorem witness_ArrayPowerAndClocks :
    (∃ (s : State) (dt : Nat) (c : Nat) (a : Nat), (s.live = true) ∧ (s.enabled c = true) ∧ (a < 4) ∧ (s.rd F.arrStatus_power c a = 3) ∧ ((s.array c a).holdEnd ≤ s.clk.up + dt))
    ∧ (∃ (s : State) (c : Nat) (a : Nat), (s.live = true) ∧ (s.enabled c = true) ∧ (a < 4) ∧ (s.rd F.arrStatus_power c a = 4))
    ∧ (∃ (s : State) (dt : Nat) (m : Nat) (c : Nat) (i : Nat) (e : SlotEntry), (s.live = true) ∧ ((s.pass dt).slotEntry m c i = some e) ∧ (e.kind = 1) ∧ ((s.pass dt).nextInstant m e.offset ≤ (s.pass dt).clk.ns + 10000) ∧ ((s.pass dt).tableRuns m ((s.pass dt).nextInstant m e.offset) e.offset = true) ∧ ((s.mould m).preWarmed.contains (slotKey c i, (s.pass dt).nextInstant m e.offset) = false))
    ∧ (∃ (s : State) (f : Nat) (r : RampReq), (s.live = true) ∧ (s.nextRamp f = some r))
    ∧ (∃ (s : State) (f : Nat) (r : RampReq), (s.live = true) ∧ ((s.fieldSt f).ramps.find? (·.granted) = some r))
    ∧ (∃ (s : State) (d : Nat) (pll : Bool), (s.live = true) ∧ (monitored d = true) ∧ ((pll = true → hasPll d = true)) ∧ (s.clockOn d = true) ∧ (d ≠ 14) ∧ (s.logRoom 1))
    ∧ (∃ (s : State) (d : Nat), (s.live = true) ∧ (monitored d = true)) :=
  ⟨⟨w0.wr F.arrStatus_power 3 95 3, 5, 95, 3, by decide +kernel⟩,
   ⟨(w0.wr F.arrStatus_power 4 0 0).wr F.arrCfg_gangMode 1 0 0, 0, 0, by decide +kernel⟩,
   ⟨wRadio, 0, 1, 2, 0, ⟨2, 1, 5000, 0, 7, 100⟩, by decide +kernel⟩,
   ⟨w0.setField 0 { FieldSt.init with ramps := [⟨2, 3, 15, 0, false⟩, ⟨0, 1, 1, 9, false⟩] }, 0, ⟨0, 1, 1, 9, false⟩, by decide +kernel⟩,
   ⟨w0.setField 0 { FieldSt.init with ramps := [⟨2, 3, 15, 0, false⟩, ⟨0, 1, 1, 9, true⟩] }, 0, ⟨0, 1, 1, 9, true⟩, by decide +kernel⟩,
   ⟨w0, 18, true, by decide +kernel⟩,
   ⟨w0, 2, by decide +kernel⟩⟩

theorem witness_SlotTablesAndLoans :
    (∃ (s : State) (dt : Nat) (m : Nat) (c : Nat) (i : Nat) (t : Nat) (e : SlotEntry) (l : ResList) (h : SegHdr), (s.live = true) ∧ ((s.pass dt).slotEntry m c i = some e) ∧ ((s.pass dt).lastInstant m e.offset = some t) ∧ (e.kind = 1) ∧ ((s.pass dt).tableRuns m t e.offset = true) ∧ (Tab.get 0 (s.mould m).slotDone (slotKey c i) ≠ t + 1) ∧ (s.resident c m e.list = some l) ∧ ((s.mould m).faulted.contains l.ctx = false) ∧ (segHdr l.image 0 = some h) ∧ (s.fencedCluster c = false) ∧ (s.testing c h.arrays = false) ∧ ((s.stream c 0).busy = false) ∧ (s.claimsFree c 0 h = true) ∧ (s.suspectIn c h.arrays = none) ∧ (s.coldOf c h.arrays = 0) ∧ (h.movs ≤ s.movRoom c m l.ctx))
    ∧ (∃ (s : State) (dt : Nat) (m : Nat) (c : Nat) (i : Nat) (t : Nat) (e : SlotEntry) (l : ResList) (h : SegHdr), (s.live = true) ∧ ((s.pass dt).slotEntry m c i = some e) ∧ ((s.pass dt).lastInstant m e.offset = some t) ∧ (e.kind = 1) ∧ ((s.pass dt).tableRuns m t e.offset = true) ∧ (Tab.get 0 (s.mould m).slotDone (slotKey c i) ≠ t + 1) ∧ (s.resident c m e.list = some l) ∧ ((s.mould m).faulted.contains l.ctx = false) ∧ (segHdr l.image 0 = some h) ∧ (s.fencedCluster c = false) ∧ (s.testing c h.arrays = false) ∧ ((s.stream c 0).busy = true) ∧ (t + 4 ≤ (s.pass dt).clk.ns) ∧ (s.logRoom 1))
    ∧ (∃ (s : State) (dt : Nat) (m : Nat) (t0 : Nat) (b : Nat), (s.live = true) ∧ ((s.mould m).tableAt = some t0) ∧ (s.mstate m = 3) ∧ (b = s.phaseNs m + cdiv (t0 + 100000 - s.phaseNs m) (s.cycleNs m) * s.cycleNs m) ∧ (b ≤ (s.pass dt).clk.ns + 10000))
    ∧ (∃ (s : State) (dt : Nat) (m : Nat) (c : Nat) (i : Nat) (t : Nat) (e : SlotEntry), (s.live = true) ∧ ((s.pass dt).slotEntry m c i = some e) ∧ ((s.pass dt).lastInstant m e.offset = some t) ∧ (e.kind = 2) ∧ ((s.pass dt).tableRuns m t e.offset = true) ∧ ((s.pass dt).clk.ns < t - e.offset + e.stop))
    ∧ (∃ (s : State) (dt : Nat) (m : Nat) (c : Nat) (i : Nat), (s.live = true) ∧ (Tab.get 0 (s.mould m).windows (slotKey c i) ≤ (s.pass dt).clk.ns))
    ∧ (∃ (s : State) (dt : Nat) (c : Nat) (st : Nat), (s.live = true) ∧ ((s.stream c st).busy = false) ∧ ((s.stream c st).notBefore ≤ (s.clk.up + dt - (s.stream c st).startNs) * s.rd F.govStatus_rateMrate (fieldOf c) / 1000)) :=
  ⟨⟨wList, 0, 1, 2, 0, 5000, ⟨2, 1, 5000, 0, 7, 100⟩, ⟨1, 0, 7, oneSeg⟩, segHdrAt oneSeg 64, by decide +kernel⟩,
   ⟨wList.setStream 2 0 { StreamSt.init with busy := true }, 4, 1, 2, 0, 5000, ⟨2, 1, 5000, 0, 7, 100⟩, ⟨1, 0, 7, oneSeg⟩, segHdrAt oneSeg 64, by decide +kernel⟩,
   ⟨wRadio.setMould 1 { wRadio.mould 1 with tableFrom := none, tableAt := some 25000 }, 115000, 1, 25000, 125000, by decide +kernel⟩,
   ⟨wRadio, 59999, 1, 2, 1, 20000, ⟨2, 2, 20000, 60000, 1, 0⟩, by decide +kernel⟩,
   ⟨wRadio.setMould 1 { wRadio.mould 1 with windows := [(129, 60000)] }, 60000, 1, 2, 1, by decide +kernel⟩,
   ⟨(w0.wr F.govStatus_rateMrate 1800 3).setStream 95 3 { StreamSt.init with notBefore := 1800 }, 1000, 95, 3, by decide +kernel⟩⟩

theorem witness_SegmentAdmission :
    ∃ (s : State) (dt : Nat) (c : Nat) (st : Nat) (m : Nat) (x : Nat) (r : StartReq) (l : ResList) (h : SegHdr) (rest : List (Nat × Nat)) (q : List StartReq), (s.live = true) ∧ (m < 64) ∧ (x < 16) ∧ ((s.clu c).auditOp = none) ∧ ((s.admitStreams c).contains st = true) ∧ ((s.stream c st).busy = false) ∧ ((s.pass dt).admitOrder c = (m, x) :: rest) ∧ (Tab.get [] (s.clu c).queues (ctxKey m x) = r :: q) ∧ ((s.pass dt).verdict c st m x r = .ok) ∧ (s.resident c m r.list = some l) ∧ (segHdr l.image r.seg = some h) :=
  ⟨wInfer, 0, 2, 3, 1, 0, ⟨7, 0, 4, true, 2⟩, ⟨1, 0, 7, oneSeg⟩, segHdrAt oneSeg 64, [], [⟨7, 0, 0, false, 0⟩], by decide +kernel⟩

theorem witness_InstructionsOfTheSequencer :
    (∃ (s : State) (c : Nat) (st : Nat) (n : Nat) (q : QIns), (s.live = true) ∧ (c < 96) ∧ (st < 4) ∧ (s.nextIns c st = some (q, n)) ∧ (q.cls = 0) ∧ (s.queue c st q.eng = []) ∧ (s.queue c st 8 = []))
    ∧ (∃ (s : State) (c : Nat) (st : Nat) (n : Nat) (q : QIns), (s.live = true) ∧ (c < 96) ∧ (st < 4) ∧ (s.nextIns c st = some (q, n)) ∧ (q.cls = 7) ∧ (s.queue c st q.eng = []) ∧ (s.queue c st 8 = []))
    ∧ (∃ (s : State) (c : Nat) (st : Nat) (n : Nat) (q : QIns), (s.live = true) ∧ (c < 96) ∧ (st < 4) ∧ (s.nextIns c st = some (q, n)) ∧ (q.cls = 6) ∧ (s.queue c st q.eng = []) ∧ (s.queue c st 8 = []) ∧ ((s.stream c st).audit = false) ∧ (q.count ≤ s.tokenSeen c st q))
    ∧ (∃ (s : State) (c : Nat) (st : Nat) (n : Nat) (q : QIns), (s.live = true) ∧ (c < 96) ∧ (st < 4) ∧ (s.nextIns c st = some (q, n)) ∧ (q.cls = 5) ∧ (s.queue c st q.eng = []) ∧ (s.queue c st 8 = []))
    ∧ (∃ (s : State) (c : Nat) (st : Nat) (n : Nat) (q : QIns), (s.live = true) ∧ (c < 96) ∧ (st < 4) ∧ (s.nextIns c st = some (q, n)) ∧ (q.cls = 4) ∧ (q.eng < 4) ∧ (s.queue c st q.eng = []) ∧ (s.queue c st 8 = []))
    ∧ (∃ (s : State) (c : Nat) (st : Nat) (n : Nat) (q : QIns), (s.live = true) ∧ (c < 96) ∧ (st < 4) ∧ (s.nextIns c st = some (q, n)) ∧ (q.cls = 9) ∧ (s.queue c st 8 = []))
    ∧ (∃ (s : State) (c : Nat) (st : Nat) (n : Nat) (q : QIns), (s.live = true) ∧ (c < 96) ∧ (st < 4) ∧ (s.nextIns c st = some (q, n)) ∧ (q.cls = 15) ∧ (s.queue c st 8 = [])) :=
  ⟨⟨wIns 0, 2, 0, 1, insOf (wIns 0) 2 0, by decide +kernel⟩,
   ⟨(wIns (7 + 2 ^ 16 + 3 * 2 ^ 17 + 65535 * 2 ^ 22)).setTok 2 1 0 3 1, 2, 0, 1, insOf (wIns (7 + 2 ^ 16 + 3 * 2 ^ 17 + 65535 * 2 ^ 22)) 2 0, by decide +kernel⟩,
   ⟨(wIns (6 + 2 ^ 16 + 3 * 2 ^ 17 + 5 * 2 ^ 22)).setTok 2 1 0 3 5, 2, 0, 1, insOf (wIns (6 + 2 ^ 16 + 3 * 2 ^ 17 + 5 * 2 ^ 22)) 2 0, by decide +kernel⟩,
   ⟨wIns (5 + 7 * 16 + 2 ^ 14), 2, 0, 2, insOf (wIns (5 + 7 * 16 + 2 ^ 14)) 2 0, by decide +kernel⟩,
   ⟨wIns (4 + 3 * 16 + 2 ^ 14 + 9 * 2 ^ 16), 2, 0, 2, insOf (wIns (4 + 3 * 16 + 2 ^ 14 + 9 * 2 ^ 16)) 2 0, by decide +kernel⟩,
   ⟨wIns (9 + 8 * 16 + 4 * 2 ^ 16 + 2 * 2 ^ 32), 2, 0, 1, insOf (wIns (9 + 8 * 16 + 4 * 2 ^ 16 + 2 * 2 ^ 32)) 2 0, by decide +kernel⟩,
   ⟨wIns (15 + 8 * 16), 2, 0, 1, insOf (wIns (15 + 8 * 16)) 2 0, by decide +kernel⟩⟩

theorem witness_ArraysTakeTheirInstructions :
    (∃ (s : State) (c : Nat) (st : Nat) (n : Nat) (q : QIns), (s.live = true) ∧ (c < 96) ∧ (st < 4) ∧ (s.nextIns c st = some (q, n)) ∧ (q.cls = 1) ∧ (q.eng < 4) ∧ (s.queue c st q.eng = []) ∧ (s.queue c st 8 = []))
    ∧ (∃ (s : State) (c : Nat) (st : Nat) (n : Nat) (_row : Nat) (_col : Nat) (_len : Nat) (q : QIns), (s.live = true) ∧ (c < 96) ∧ (st < 4) ∧ (s.nextIns c st = some (q, n)) ∧ (q.cls = 2) ∧ (q.eng < 4) ∧ (s.queue c st q.eng = []) ∧ (s.queue c st 8 = []) ∧ (s.arrivalNeed c st q = none))
    ∧ (∃ (s : State) (c : Nat) (st : Nat) (n : Nat) (q : QIns) (sp : Span), (s.live = true) ∧ (c < 96) ∧ (st < 4) ∧ (s.nextIns c st = some (q, n)) ∧ (q.cls = 3) ∧ (q.eng < 4) ∧ (s.queue c st q.eng = []) ∧ (s.queue c st 8 = []) ∧ ((s.gangOfArray c q.eng).all (fun a => (s.array c a).replay.isNone) = true) ∧ ((s.array c q.eng).spans.find? (fun p => p.ended && p.source = bitsOf q.w0 16 2) = some sp))
    ∧ (∃ (s : State) (c : Nat) (st : Nat) (n : Nat) (q : QIns), (s.live = true) ∧ (c < 96) ∧ (st < 4) ∧ (s.nextIns c st = some (q, n)) ∧ (q.cls = 8) ∧ (4 ≤ q.eng) ∧ (q.eng ≤ 5) ∧ (s.queue c st q.eng = []) ∧ (s.queue c st 8 = []) ∧ ((s.seng c q.eng).running = false) ∧ ((s.progEntry c q.eng (s.sMould c st) (bitsOf q.w0 16 16)).isSome = true)) :=
  ⟨⟨wIns 1, 2, 0, 1, insOf (wIns 1) 2 0, by decide +kernel⟩,
   ⟨wIns 2, 2, 0, 1, 0, 0, 0, insOf (wIns 2) 2 0, by decide +kernel⟩,
   ⟨(wIns (3 + 2 ^ 14)).setArray 2 0 { ArraySt.init with spans := [⟨0, 0, 0, [], 0, true, false⟩] }, 2, 0, 2, insOf (wIns (3 + 2 ^ 14)) 2 0, ⟨0, 0, 0, [], 0, true, false⟩, by decide +kernel⟩,
   ⟨(wIns (8 + 4 * 16 + 2 ^ 14 + 0x1001 * 2 ^ 16)).setSeng 2 4 { SeSt.init with progs := [⟨1, 5, 0x1000, 0, [], [1]⟩] }, 2, 0, 2, insOf (wIns (8 + 4 * 16 + 2 ^ 14 + 0x1001 * 2 ^ 16)) 2 0, by decide +kernel⟩⟩

theorem witness_WaitsAndReplaysEnd :
    (∃ (s : State) (c : Nat) (a : Nat) (st : Nat) (_row : Nat) (_col : Nat) (len : Nat), (s.live = true) ∧ (c < 96) ∧ (a < 4) ∧ ((s.array c a).replay = some len) ∧ (s.streamOfArray c a = some st) ∧ ((List.range 9).all (fun e => (s.queue c st e).isEmpty) = true) ∧ (s.logRoom 1))
    ∧ (∃ (s : State) (c : Nat) (st : Nat) (w : Nat) (h : QIns), (s.live = true) ∧ (c < 96) ∧ (st < 4) ∧ ((s.stream c st).busy = true) ∧ ((s.stream c st).queues = [(h.eng, [h])]) ∧ (h.cls = 6) ∧ (s.headReady c st h = true) ∧ ((s.stream c st).audit = false) ∧ (bit h.w0 9 = true) ∧ (w ≤ s.waitLimit c h))
    ∧ (∃ (s : State) (c : Nat) (st : Nat) (w : Nat) (t : Nat) (g : Nat) (h : QIns), (s.live = true) ∧ (c < 96) ∧ (st < 4) ∧ ((s.stream c st).busy = true) ∧ ((s.stream c st).queues = [(h.eng, [h])]) ∧ (h.cls = 2) ∧ (h.eng < 4) ∧ (s.arrivalNeed c st h = some (t, g)) ∧ (g ≤ s.tok c (s.sMould c st) (s.sCtx c st) t) ∧ ((s.stream c st).audit = false) ∧ (w ≤ s.waitLimit c h)) :=
  ⟨⟨((wIns 0).setStream 2 0 { (wIns 0).stream 2 0 with arrays := 1 }).setArray 2 0 { ArraySt.init with replay := some 9 }, 2, 0, 0, 0, 0, 9, by decide +kernel⟩,
   ⟨wWait, 2, 0, 100, hTwt, by decide +kernel⟩,
   ⟨wArr, 2, 0, 50, 4, 1, hStr, by decide +kernel⟩⟩

theorem witness_SegmentsEnd :
    (∃ (s : State) (c : Nat) (st : Nat), (s.live = true) ∧ (c < 96) ∧ (st < 4) ∧ (s.drained c st = true) ∧ ((s.stream c st).audit = false) ∧ ((s.stream c st).slot = none))
    ∧ (∃ (s : State) (c : Nat) (st : Nat) (h : QIns) (hs : List QIns), (s.live = true) ∧ (c < 96) ∧ (st < 4) ∧ (s.outsideHeads c st = h :: hs) ∧ (s.mstate (s.sMould c st) ≠ 5) ∧ ((s.mould (s.sMould c st)).faulted.contains (s.sCtx c st) = false))
    ∧ (∃ (s : State) (c : Nat) (st : Nat), (s.live = true) ∧ (c < 96) ∧ (st < 4) ∧ ((s.stream c st).busy = true) ∧ ((s.stream c st).audit = false) ∧ (s.mstate (s.sMould c st) ≠ 5) ∧ ((s.mould (s.sMould c st)).faulted.contains (s.sCtx c st) = false)) :=
  ⟨⟨(wIns 0).setStream 2 0 { (wIns 0).stream 2 0 with ending := true }, 2, 0, by decide +kernel⟩,
   ⟨wWait.setTok 2 1 0 3 4, 2, 0, hTwt, [], by decide +kernel⟩,
   ⟨wIns 0, 2, 0, by decide +kernel⟩⟩

theorem witness_ListLoadsDigestsAndSelfTests :
    (∃ (s : State) (c : Nat) (m : Nat) (x : Nat) (addr : Nat) (e : Nat) (id : Nat) (pg : Nat) (t : Nat) (im : Bytes), (s.live = true) ∧ (c < 96) ∧ ((s.clu c).loads = [⟨m, x, addr, e, id, pg, .thread t⟩]) ∧ (((s.setClu c { s.clu c with loads := [] }).listCheck c ⟨m, x, addr, e, id, pg, .thread t⟩ false).toOption = some im))
    ∧ (∃ (s : State) (c : Nat) (r : DigestRec), (s.live = true) ∧ (c < 96) ∧ ((s.clu c).records = [r]) ∧ ((s.clu c).auditOp = none))
    ∧ (∃ (s : State) (_req : Nat) (c : Nat) (a : Nat), (s.live = true) ∧ (s.enabled c = true) ∧ (a < 4))
    ∧ (∃ (s : State) (_req : Nat) (c : Nat) (a : Nat), (s.live = true) ∧ (s.enabled c = true) ∧ (a < 4) ∧ (s.selfTestOk c a = true))
    ∧ (∃ (s : State) (c : Nat) (a : Nat) (_pass : Bool), (s.live = true) ∧ (c < 96) ∧ (a < 4) ∧ (s.flag F.arrStatus_selfTestBusy c a = true) ∧ (s.flag F.arrStatus_suspect c a = false) ∧ (s.selfTestOp c a = none) ∧ (s.logRoom 1)) :=
  ⟨⟨wLoad, 2, 1, 0, 0, 0, 7, 1, 3, okSeg, by decide +kernel⟩,
   ⟨wRadio.setClu 2 { ClusterSt.init with records := [⟨1, 0, 0, 64, [1, 2, 3], true, false, 0⟩] }, 2, ⟨1, 0, 0, 64, [1, 2, 3], true, false, 0⟩, by decide +kernel⟩,
   ⟨(w0.wr F.arrChk_mismatch 3 95 3).wr F.arrChk_suspectCount 2 95 3, 0, 95, 3, by decide +kernel⟩,
   ⟨w0.wr F.arrCfg_ctx 255 0 0, 1, 0, 0, by decide +kernel⟩,
   ⟨w0.wr F.arrStatus_selfTestBusy 1 5 2, 5, 2, true, by decide +kernel⟩⟩

theorem witness_MouldLife :
    (∃ (s : State) (r : MReq) (rest : List MReq) (m : Nat), (s.serves 0x0011 r rest) ∧ (mouldBody r.body = true) ∧ (m = leAt r.body 0 1) ∧ ((s.mstate m = 2 ∨ s.mstate m = 4)) ∧ (s.logRoom 1))
    ∧ (∃ (s : State) (r : MReq) (rest : List MReq) (m : Nat), (s.serves 0x0012 r rest) ∧ (mouldBody r.body = true) ∧ (m = leAt r.body 0 1) ∧ (s.mstate m = 3) ∧ ((s.mould m).auditing = false))
    ∧ (∃ (s : State) (m : Nat), (s.live = true) ∧ (m < 64) ∧ (s.mstate m = 3) ∧ ((s.mould m).chilling = true) ∧ (s.chillDrained m = true) ∧ (s.logRoom 1))
    ∧ (∃ (s : State) (r : MReq) (rest : List MReq) (m : Nat) (i : Nat), (s.serves 0x0013 r rest) ∧ (mouldBody r.body = true) ∧ (m = leAt r.body 0 1) ∧ (s.quenchOp m = none) ∧ (s.pourOp m = none) ∧ (s.mouldLive m = true) ∧ (s.borrowersOf m = []) ∧ (s.freeEntry = some i) ∧ (s.logRoom 1)) :=
  ⟨⟨withReq (wRadio.wr F.mouldStatus_state 2 1) 0x11 [1], reqOf 0x11 [1], [], 1, by decide +kernel⟩,
   ⟨withReq wRadio 0x12 [1], reqOf 0x12 [1], [], 1, by decide +kernel⟩,
   ⟨wRadio.setMould 1 { wRadio.mould 1 with chilling := true }, 1, by decide +kernel⟩,
   ⟨withReq wRadio 0x13 [1], reqOf 0x13 [1], [], 1, 0, by decide +kernel⟩⟩

theorem witness_ContextQuenchesStartsAndAudits :
    (∃ (s : State) (r : MReq) (rest : List MReq) (m : Nat) (x : Nat) (i : Nat), (s.serves 0x0014 r rest) ∧ (r.body.length = 2) ∧ (m = leAt r.body 0 1) ∧ (m < 64) ∧ (x = leAt r.body 1 1) ∧ (s.mouldLive m = true) ∧ (x < s.ctxCount m) ∧ (s.freeEntry = some i))
    ∧ (∃ (s : State) (r : MReq) (rest : List MReq) (c : Nat) (m : Nat) (x : Nat) (q : StartReq), (s.serves 0x0015 r rest) ∧ (r.body.length = 16) ∧ (leAt r.body 3 1 = 0) ∧ (leAt r.body 10 1 < 32) ∧ (leAt r.body 11 1 < 2) ∧ (leAt r.body 14 2 = 0) ∧ (s.enabled c = true) ∧ (m < 64) ∧ (m = leAt r.body 0 1) ∧ (x = leAt r.body 1 1) ∧ (c = leAt r.body 2 1) ∧ (q = ⟨leAt r.body 4 4, leAt r.body 8 2, leAt r.body 10 1, leAt r.body 11 1 == 1, leAt r.body 12 2⟩) ∧ ((s.enqueueStart c m x q).1 = 0))
    ∧ (∃ (s : State) (r : MReq) (rest : List MReq) (c : Nat) (m : Nat) (x : Nat) (i : Nat) (l : ResList) (h : SegHdr), (s.serves 0x001C r rest) ∧ (r.body.length = 16) ∧ (leAt r.body 3 1 = 0) ∧ (leAt r.body 10 2 = 0) ∧ (m < 64) ∧ (s.enabled c = true) ∧ (m = leAt r.body 0 1) ∧ (x = leAt r.body 1 1) ∧ (c = leAt r.body 2 1) ∧ (s.mstate m = 2) ∧ (x < s.ctxCount m) ∧ (s.resident c m (leAt r.body 4 4) = some l) ∧ (l.ctx = x) ∧ (segHdr l.image (leAt r.body 8 2) = some h) ∧ (bitsOf h.flags 2 4 ≠ 0) ∧ ((s.clu c).auditOp = none) ∧ (s.freeEntry = some i) ∧ ((List.range 4).all (fun st => (s.stream c st).busy) = true) ∧ (s.logRoom 1))
    ∧ (∃ (s : State) (r : MReq) (rest : List MReq) (c : Nat) (a : Nat) (i : Nat), (s.serves 0x001D r rest) ∧ (r.body.length = 2) ∧ (c = leAt r.body 0 1) ∧ (a = leAt r.body 1 1) ∧ (s.enabled c = true) ∧ (a < 4) ∧ (s.selfTestOk c a = true) ∧ (s.freeEntry = some i)) :=
  ⟨⟨withReq (wRadio.setMould 1 { wRadio.mould 1 with faulted := [1], runSeq := [(1, 5)] }) 0x14 [1, 1], reqOf 0x14 [1, 1], [], 1, 1, 0, by decide +kernel⟩,
   ⟨withReq wInfer 0x15 [1, 0, 2, 0, 7, 0, 0, 0, 0, 0, 31, 1, 3, 0, 0, 0], reqOf 0x15 [1, 0, 2, 0, 7, 0, 0, 0, 0, 0, 31, 1, 3, 0, 0, 0], [], 2, 1, 0, ⟨7, 0, 31, true, 3⟩, by decide +kernel⟩,
   ⟨wAudit, reqOf 0x1C [1, 0, 2, 0, 7, 0, 0, 0, 0, 0, 0, 0, 9, 0, 0, 0], [], 2, 1, 0, 0, ⟨1, 0, 7, digSeg⟩, segHdrAt digSeg 64, by decide +kernel⟩,
   ⟨withReq (w0.wr F.arrCfg_ctx 255 95 3) 0x1D [95, 3], reqOf 0x1D [95, 3], [], 95, 3, 0, by decide +kernel⟩⟩

theorem witness_LoadsAndThreadsByCommand :
    (∃ (s : State) (r : MReq) (rest : List MReq) (c : Nat) (m : Nat) (x : Nat) (a : Nat), (s.serves 0x0016 r rest) ∧ (r.body.length = 16) ∧ (m = leAt r.body 0 1) ∧ (x = leAt r.body 1 1) ∧ (c = leAt r.body 2 1) ∧ (allZero (slice r.body 3 5) = true) ∧ (a = leAt r.body 8 8 % 2 ^ 48) ∧ (m < 64) ∧ (s.enabled c = true) ∧ ((s.ctxCount m = 0 ∨ x < s.ctxCount m)) ∧ (s.onCluster m c a 64 1 = true))
    ∧ (∃ (s : State) (r : MReq) (rest : List MReq) (c : Nat) (m : Nat) (id : Nat), (s.serves 0x0017 r rest) ∧ (r.body.length = 8) ∧ (m = leAt r.body 0 1) ∧ (c = leAt r.body 1 1) ∧ (leAt r.body 2 2 = 0) ∧ (id = leAt r.body 4 4) ∧ (m < 64) ∧ (s.enabled c = true) ∧ ((s.listUnload c m id).1 = 0))
    ∧ (∃ (s : State) (r : MReq) (rest : List MReq) (c : Nat) (m : Nat) (k : Nat) (e : Nat) (es : List Nat), (s.serves 0x0018 r rest) ∧ (r.body.length = 16) ∧ (m = leAt r.body 0 1) ∧ (c = leAt r.body 1 1) ∧ (k = leAt r.body 2 1) ∧ (allZero (slice r.body 3 5) = true) ∧ (m < 64) ∧ (s.enabled c = true) ∧ (0 < k) ∧ (k < 4) ∧ (maskEngines k = e :: es))
    ∧ (∃ (s : State) (r : MReq) (rest : List MReq) (c : Nat) (m : Nat) (e : Nat) (id : Nat), (s.serves 0x0019 r rest) ∧ (r.body.length = 8) ∧ (m = leAt r.body 0 1) ∧ (c = leAt r.body 1 1) ∧ (e = leAt r.body 2 1) ∧ (leAt r.body 3 1 = 0) ∧ (id = leAt r.body 4 4) ∧ (m < 64) ∧ (s.enabled c = true) ∧ ((e = 4 ∨ e = 5)) ∧ ((s.seng c e).progs.any (fun p => p.mould = m && p.id = id) = true) ∧ ((List.range 4).any (fun st => (s.stream c st).busy && s.sMould c st = m && bit (s.stream c st).engines (e - 4)) = false))
    ∧ (∃ (s : State) (r : MReq) (rest : List MReq) (c : Nat) (m : Nat) (x : Nat) (t : Nat), (s.serves 0x001A r rest) ∧ (r.body.length = 24) ∧ (m = leAt r.body 0 1) ∧ (x = leAt r.body 1 1) ∧ (c = leAt r.body 2 1) ∧ (t = leAt r.body 3 1) ∧ (leAt r.body 4 1 < 2) ∧ (allZero (slice r.body 5 3) = true) ∧ (m < 64) ∧ (s.enabled c = true) ∧ (x < s.ctxCount m) ∧ (s.threadFor c m t = true) ∧ (s.thrState c t = 0) ∧ ((s.mould m).faulted.contains x = false) ∧ (s.mouldLive m = true))
    ∧ (∃ (s : State) (r : MReq) (rest : List MReq) (c : Nat) (t : Nat), (s.serves 0x001B r rest) ∧ (r.body.length = 2) ∧ (c = leAt r.body 0 1) ∧ (t = leAt r.body 1 1) ∧ (s.enabled c = true) ∧ (t < 16) ∧ (s.thrState c t ≠ 0)) :=
  ⟨⟨withReq { wRadio with sram := cellsOf 2 0 okSeg } 0x16 [1, 0, 2, 0, 0, 0, 0, 0, 0, 0, 0, 0, 0, 0, 0, 0], reqOf 0x16 [1, 0, 2, 0, 0, 0, 0, 0, 0, 0, 0, 0, 0, 0, 0, 0], [], 2, 1, 0, 0, by decide +kernel⟩,
   ⟨withReq (wList.wr F.mouldStatus_state 2 1) 0x17 [1, 2, 0, 0, 7, 0, 0, 0], reqOf 0x17 [1, 2, 0, 0, 7, 0, 0, 0], [], 2, 1, 7, by decide +kernel⟩,
   ⟨withReq wRadio 0x18 [1, 2, 3, 0, 0, 0, 0, 0, 16, 0, 0, 0, 0, 0, 0, 0], reqOf 0x18 [1, 2, 3, 0, 0, 0, 0, 0, 16, 0, 0, 0, 0, 0, 0, 0], [], 2, 1, 3, 4, [5], by decide +kernel⟩,
   ⟨withReq (wRadio.setSeng 2 5 { SeSt.init with progs := [⟨1, 9, 0, 0, [], []⟩] }) 0x19 [1, 2, 5, 0, 9, 0, 0, 0], reqOf 0x19 [1, 2, 5, 0, 9, 0, 0, 0], [], 2, 1, 5, 9, by decide +kernel⟩,
   ⟨withReq wRadio 0x1A [1, 1, 2, 15, 1, 0, 0, 0, 0, 1, 0, 0, 0, 0, 1, 0, 42, 0, 0, 0, 0, 0, 0, 0], reqOf 0x1A [1, 1, 2, 15, 1, 0, 0, 0, 0, 1, 0, 0, 0, 0, 1, 0, 42, 0, 0, 0, 0, 0, 0, 0], [], 2, 1, 1, 15, by decide +kernel⟩,
   ⟨withReq (wRadio.wr F.thrStatus_state 2 2 0) 0x1B [2, 0], reqOf 0x1B [2, 0], [], 2, 0, by decide +kernel⟩⟩

theorem witness_ThreadMemoryAccess :
    (∃ (s : State) (v : State) (q : State) (c : Nat) (t : Nat) (ecc : Nat) (word : Nat) (w : Nat) (a : Nat), (s.sysRuns v c t 0x01 3 w) ∧ (sRd w ≤ 24) ∧ (a = v.xreg c t (sRs1 w)) ∧ (v.threadMay c t a 64 1) ∧ (v.atHand c (v.tMould c t) (a % 2 ^ 48) 64 ecc word = some q))
    ∧ (∃ (s : State) (v : State) (q : State) (c : Nat) (t : Nat) (ecc : Nat) (word : Nat) (w : Nat) (a : Nat), (s.sysRuns v c t 0x02 3 w) ∧ (sRd w ≤ 24) ∧ (a = v.xreg c t (sRs1 w)) ∧ (v.threadMay c t a 64 2) ∧ (v.atHand c (v.tMould c t) (a % 2 ^ 48) 64 ecc word = some q))
    ∧ (∃ (s : State) (v : State) (c : Nat) (t : Nat) (ecc : Nat) (word : Nat) (w : Nat) (a : Nat) (old : Nat) (new : Nat), (s.sysRuns v c t 0x03 15 w) ∧ (sMod w ≤ 9) ∧ (a = v.xreg c t (sRs1 w)) ∧ (v.threadMay c t a 4 3) ∧ ((v.access (v.tMould c t) (a % 2 ^ 48) 4 ecc word).1 = 0) ∧ (old = leNat ((v.access (v.tMould c t) (a % 2 ^ 48) 4 ecc word).2.readMem (v.tMould c t) (a % 2 ^ 48) 4)) ∧ (new = atomicNew (sMod w) 4 old (v.xreg c t (sRs2 w)) (v.xreg c t (sRd w))))
    ∧ (∃ (s : State) (v : State) (c : Nat) (t : Nat) (ecc : Nat) (word : Nat) (w : Nat) (a : Nat) (old : Nat) (new : Nat), (s.sysRuns v c t 0x04 15 w) ∧ (sMod w ≤ 9) ∧ (a = v.xreg c t (sRs1 w)) ∧ (v.threadMay c t a 8 3) ∧ ((v.access (v.tMould c t) (a % 2 ^ 48) 8 ecc word).1 = 0) ∧ (old = leNat ((v.access (v.tMould c t) (a % 2 ^ 48) 8 ecc word).2.readMem (v.tMould c t) (a % 2 ^ 48) 8)) ∧ (new = atomicNew (sMod w) 8 old (v.xreg c t (sRs2 w)) (v.xreg c t (sRd w))))
    ∧ (∃ (s : State) (v : State) (c : Nat) (t : Nat) (w : Nat) (a : Nat) (i : Nat) (b : Nat), (s.sysRuns v c t 0x05 15 w) ∧ (sMod w ≤ 3) ∧ (a = v.xreg c t (sRs1 w)) ∧ (b = v.xreg c t (sRs2 w)) ∧ (v.threadMay c t a 1 4) ∧ (v.regionIdx (v.tMould c t) (a % 2 ^ 48) = some i))
    ∧ (∃ (s : State) (v : State) (c : Nat) (t : Nat) (w : Nat) (a : Nat), (s.sysRuns v c t 0x06 3 w) ∧ (a = v.xreg c t (sRs1 w)) ∧ (v.threadMay c t a 1 1))
    ∧ (∃ (s : State) (v : State) (c : Nat) (t : Nat) (_ecc : Nat) (_word : Nat) (w : Nat) (a : Nat), (s.sysRuns v c t 0x01 3 w) ∧ (sRd w ≤ 24) ∧ (a = v.xreg c t (sRs1 w)) ∧ (v.remoteMay c t 5 a 64))
    ∧ (∃ (s : State) (v : State) (c : Nat) (t : Nat) (_ecc : Nat) (_word : Nat) (w : Nat) (a : Nat), (s.sysRuns v c t 0x02 3 w) ∧ (sRd w ≤ 24) ∧ (a = v.xreg c t (sRs1 w)) ∧ (v.remoteMay c t 6 a 64))
    ∧ (∃ (s : State) (v : State) (c : Nat) (t : Nat) (_ecc : Nat) (_word : Nat) (w : Nat) (a : Nat), (s.sysRuns v c t 0x03 15 w) ∧ (sMod w ≤ 9) ∧ (a = v.xreg c t (sRs1 w)) ∧ (v.remoteMay c t 7 a 4))
    ∧ (∃ (s : State) (v : State) (c : Nat) (t : Nat) (_ecc : Nat) (_word : Nat) (w : Nat) (a : Nat), (s.sysRuns v c t 0x04 15 w) ∧ (sMod w ≤ 9) ∧ (a = v.xreg c t (sRs1 w)) ∧ (v.remoteMay c t 7 a 8))
    ∧ (∃ (s : State) (v : State) (c : Nat) (t : Nat) (w : Nat) (a : Nat), (s.sysRuns v c t 0x05 15 w) ∧ (sMod w ≤ 3) ∧ (a = v.xreg c t (sRs1 w)) ∧ (v.remoteMay c t 9 a 1))
    ∧ (∃ (s : State) (v : State) (c : Nat) (t : Nat) (w : Nat) (a : Nat), (s.sysRuns v c t 0x06 3 w) ∧ (a = v.xreg c t (sRs1 w)) ∧ (v.remoteMay c t 8 a 1)) :=
  ⟨⟨wThr (sysW 1 8 1 0 0) [(1, 2 ^ 54 + 2 ^ 48 + 0x100)], (wThr (sysW 1 8 1 0 0) [(1, 2 ^ 54 + 2 ^ 48 + 0x100)]).issued 2 3, (wThr (sysW 1 8 1 0 0) [(1, 2 ^ 54 + 2 ^ 48 + 0x100)]).issued 2 3, 2, 3, 0, 0, sysW 1 8 1 0 0, 2 ^ 54 + 2 ^ 48 + 0x100, by decide +kernel⟩,
   ⟨wThr (sysW 2 8 1 0 0) [(1, 2 ^ 54 + 2 ^ 48 + 0x200), (8, 77), (15, 2 ^ 64 - 1)], (wThr (sysW 2 8 1 0 0) [(1, 2 ^ 54 + 2 ^ 48 + 0x200), (8, 77), (15, 2 ^ 64 - 1)]).issued 2 3, (wThr (sysW 2 8 1 0 0) [(1, 2 ^ 54 + 2 ^ 48 + 0x200), (8, 77), (15, 2 ^ 64 - 1)]).issued 2 3, 2, 3, 0, 0, sysW 2 8 1 0 0, 2 ^ 54 + 2 ^ 48 + 0x200, by decide +kernel⟩,
   ⟨wThr (sysW 3 8 1 2 0) [(1, 2 ^ 54 + 2 ^ 48 + 0x204), (2, 2 ^ 32 - 1)], (wThr (sysW 3 8 1 2 0) [(1, 2 ^ 54 + 2 ^ 48 + 0x204), (2, 2 ^ 32 - 1)]).issued 2 3, 2, 3, 0, 0, sysW 3 8 1 2 0, 2 ^ 54 + 2 ^ 48 + 0x204, 0, 2 ^ 32 - 1, by decide +kernel⟩,
   ⟨wThr (sysW 4 8 1 2 9) [(1, 2 ^ 54 + 2 ^ 48 + 0x208), (2, 5)], (wThr (sysW 4 8 1 2 9) [(1, 2 ^ 54 + 2 ^ 48 + 0x208), (2, 5)]).issued 2 3, 2, 3, 0, 0, sysW 4 8 1 2 9, 2 ^ 54 + 2 ^ 48 + 0x208, 0, 5, by decide +kernel⟩,
   ⟨wThr (sysW 5 8 1 2 1) [(1, 2 ^ 54 + 2 ^ 48 + 0x208)], (wThr (sysW 5 8 1 2 1) [(1, 2 ^ 54 + 2 ^ 48 + 0x208)]).issued 2 3, 2, 3, sysW 5 8 1 2 1, 2 ^ 54 + 2 ^ 48 + 0x208, 0, 0, by decide +kernel⟩,
   ⟨{ wThr (sysW 6 8 1 0 0) [(1, 2 ^ 54 + 2 ^ 48)] with vers := [(256, 7)] }, ({ wThr (sysW 6 8 1 0 0) [(1, 2 ^ 54 + 2 ^ 48)] with vers := [(256, 7)] } : State).issued 2 3, 2, 3, sysW 6 8 1 0 0, 2 ^ 54 + 2 ^ 48, by decide +kernel⟩,
   ⟨wRem (sysW 1 8 1 0 0) [(1, 2 * 2 ^ 54 + 2 ^ 48 + 0x40)], (wRem (sysW 1 8 1 0 0) [(1, 2 * 2 ^ 54 + 2 ^ 48 + 0x40)]).issued 2 3, 2, 3, 0, 0, sysW 1 8 1 0 0, 2 * 2 ^ 54 + 2 ^ 48 + 0x40, by decide +kernel⟩,
   ⟨wRem (sysW 2 8 1 0 0) [(1, 2 * 2 ^ 54 + 2 ^ 48 + 0x40)], (wRem (sysW 2 8 1 0 0) [(1, 2 * 2 ^ 54 + 2 ^ 48 + 0x40)]).issued 2 3, 2, 3, 0, 0, sysW 2 8 1 0 0, 2 * 2 ^ 54 + 2 ^ 48 + 0x40, by decide +kernel⟩,
   ⟨wRem (sysW 3 8 1 2 9) [(1, 2 * 2 ^ 54 + 2 ^ 48 + 0x44)], (wRem (sysW 3 8 1 2 9) [(1, 2 * 2 ^ 54 + 2 ^ 48 + 0x44)]).issued 2 3, 2, 3, 0, 0, sysW 3 8 1 2 9, 2 * 2 ^ 54 + 2 ^ 48 + 0x44, by decide +kernel⟩,
   ⟨wRem (sysW 4 8 1 2 9) [(1, 2 * 2 ^ 54 + 2 ^ 48 + 0x48)], (wRem (sysW 4 8 1 2 9) [(1, 2 * 2 ^ 54 + 2 ^ 48 + 0x48)]).issued 2 3, 2, 3, 0, 0, sysW 4 8 1 2 9, 2 * 2 ^ 54 + 2 ^ 48 + 0x48, by decide +kernel⟩,
   ⟨wRem (sysW 5 8 1 2 3) [(1, 2 * 2 ^ 54 + 2 ^ 48 + 0x41)], (wRem (sysW 5 8 1 2 3) [(1, 2 * 2 ^ 54 + 2 ^ 48 + 0x41)]).issued 2 3, 2, 3, sysW 5 8 1 2 3, 2 * 2 ^ 54 + 2 ^ 48 + 0x41, by decide +kernel⟩,
   ⟨wRem (sysW 6 8 1 0 0) [(1, 2 * 2 ^ 54 + 2 ^ 48 + 0x41)], (wRem (sysW 6 8 1 0 0) [(1, 2 * 2 ^ 54 + 2 ^ 48 + 0x41)]).issued 2 3, 2, 3, sysW 6 8 1 0 0, 2 * 2 ^ 54 + 2 ^ 48 + 0x41, by decide +kernel⟩⟩

theorem witness_ThreadSynchronisation :
    (∃ (s : State) (v : State) (c : Nat) (t : Nat) (w : Nat), (s.sysRuns v c t 0x07 0 w) ∧ (v.fenceDone (v.tMould c t) (v.tCtx c t) (v.fenceSet (v.tMould c t) (v.tCtx c t)) = true))
    ∧ (∃ (s : State) (v : State) (c : Nat) (t : Nat) (w : Nat) (l : List (Nat × Nat)), (s.sysRuns v c t 0x07 0 w) ∧ (l = v.fenceSet (v.tMould c t) (v.tCtx c t)) ∧ (v.fenceDone (v.tMould c t) (v.tCtx c t) l = false))
    ∧ (∃ (s : State) (c : Nat) (t : Nat), (s.live = true) ∧ (s.thrState c t = 3) ∧ ((s.thread c t).wait = .fence) ∧ (s.fenceDone (s.tMould c t) (s.tCtx c t) (s.thread c t).fence = true))
    ∧ (∃ (s : State) (v : State) (c : Nat) (t : Nat) (w : Nat) (k : Nat) (n : Nat), (s.sysRuns v c t 0x08 6 w) ∧ (k = v.xreg c t (sRs1 w) % 32) ∧ (n = v.xreg c t (sRs2 w)))
    ∧ (∃ (s : State) (v : State) (c : Nat) (t : Nat) (w : Nat) (k : Nat) (n : Nat), (s.sysRuns v c t 0x09 6 w) ∧ (k = v.xreg c t (sRs1 w) % 32) ∧ (n = v.xreg c t (sRs2 w)) ∧ (n ≤ v.tok c (v.tMould c t) (v.tCtx c t) k))
    ∧ (∃ (s : State) (v : State) (c : Nat) (t : Nat) (w : Nat) (k : Nat) (n : Nat), (s.sysRuns v c t 0x09 6 w) ∧ (k = v.xreg c t (sRs1 w) % 32) ∧ (n = v.xreg c t (sRs2 w)) ∧ (v.tok c (v.tMould c t) (v.tCtx c t) k < n))
    ∧ (∃ (s : State) (v : State) (c : Nat) (t : Nat) (w : Nat) (a : Nat) (b : Nat) (q : StartReq), (s.sysRuns v c t 0x0A 6 w) ∧ (a = v.xreg c t (sRs1 w)) ∧ (b = v.xreg c t (sRs2 w)) ∧ (q = ⟨bitsOf a 0 32, bitsOf a 32 16, bitsOf b 16 5, bit b 21, bitsOf b 0 16⟩))
    ∧ (∃ (s : State) (v : State) (c : Nat) (t : Nat) (w : Nat) (a : Nat), (s.sysRuns v c t 0x0B 2 w) ∧ (a = v.xreg c t (sRs1 w)) ∧ (v.isLocal c t a = true))
    ∧ (∃ (s : State) (v : State) (c : Nat) (t : Nat) (w : Nat) (id : Nat), (s.sysRuns v c t 0x0C 2 w) ∧ (id = v.xreg c t (sRs1 w) % 2 ^ 32))
    ∧ (∃ (s : State) (v : State) (c : Nat) (t : Nat) (w : Nat) (a : Nat) (e : Nat) (es : List Nat), (s.sysRuns v c t 0x0D 10 w) ∧ (sMod w ≠ 0) ∧ (sMod w ≤ 3) ∧ (a = v.xreg c t (sRs1 w)) ∧ (v.isLocal c t a = true) ∧ (maskEngines (sMod w) = e :: es)) :=
  ⟨⟨wThr (sysW 7 0 0 0 0) [], (wThr (sysW 7 0 0 0 0) []).issued 2 3, 2, 3, sysW 7 0 0 0 0, by decide +kernel⟩,
   ⟨{ wThr (sysW 7 0 0 0 0) [] with fab := { State.reset.fab with ops := [(4, { ROp.init with kind := 6, mould := 1 })] } }, ({ wThr (sysW 7 0 0 0 0) [] with fab := { State.reset.fab with ops := [(4, { ROp.init with kind := 6, mould := 1 })] } } : State).issued 2 3, 2, 3, sysW 7 0 0 0 0, [(1, 4)], by decide +kernel⟩,
   ⟨(wRadio.setThread 2 3 { ThreadSt.init with wait := .fence, fenceErr := 9 }).wr F.thrStatus_state 3 2 3, 2, 3, by decide +kernel⟩,
   ⟨wThr (sysW 8 0 1 2 0) [(1, 33), (2, 65535)], (wThr (sysW 8 0 1 2 0) [(1, 33), (2, 65535)]).issued 2 3, 2, 3, sysW 8 0 1 2 0, 1, 65535, by decide +kernel⟩,
   ⟨(wThr (sysW 9 0 1 2 0) [(1, 4), (2, 10)]).setTok 2 1 0 4 10, ((wThr (sysW 9 0 1 2 0) [(1, 4), (2, 10)]).setTok 2 1 0 4 10).issued 2 3, 2, 3, sysW 9 0 1 2 0, 4, 10, by decide +kernel⟩,
   ⟨(wThr (sysW 9 0 1 2 0) [(1, 4), (2, 11)]).setTok 2 1 0 4 10, ((wThr (sysW 9 0 1 2 0) [(1, 4), (2, 11)]).setTok 2 1 0 4 10).issued 2 3, 2, 3, sysW 9 0 1 2 0, 4, 11, by decide +kernel⟩,
   ⟨wThr (sysW 10 0 1 2 0) [(1, 7), (2, 2 ^ 21 + 2 ^ 16 + 3)], (wThr (sysW 10 0 1 2 0) [(1, 7), (2, 2 ^ 21 + 2 ^ 16 + 3)]).issued 2 3, 2, 3, sysW 10 0 1 2 0, 7, 2 ^ 21 + 2 ^ 16 + 3, ⟨7, 0, 1, true, 3⟩, by decide +kernel⟩,
   ⟨wThr (sysW 11 0 1 0 0) [(1, 2 ^ 54 + 2 ^ 48 + 0x2000)], (wThr (sysW 11 0 1 0 0) [(1, 2 ^ 54 + 2 ^ 48 + 0x2000)]).issued 2 3, 2, 3, sysW 11 0 1 0 0, 2 ^ 54 + 2 ^ 48 + 0x2000, by decide +kernel⟩,
   ⟨wThr (sysW 12 0 1 0 0) [(1, 7)], (wThr (sysW 12 0 1 0 0) [(1, 7)]).issued 2 3, 2, 3, sysW 12 0 1 0 0, 7, by decide +kernel⟩,
   ⟨wThr (sysW 13 0 1 0 3) [(1, 2 ^ 54 + 2 ^ 48 + 0x2000)], (wThr (sysW 13 0 1 0 3) [(1, 2 ^ 54 + 2 ^ 48 + 0x2000)]).issued 2 3, 2, 3, sysW 13 0 1 0 3, 2 ^ 54 + 2 ^ 48 + 0x2000, 4, [5], by decide +kernel⟩⟩

theorem witness_ThreadControl :
    (∃ (s : State) (v : State) (c : Nat) (t : Nat) (w : Nat) (a : Nat) (n : Nat), (s.sysRuns v c t 0x0E 6 w) ∧ (a = v.xreg c t (sRs1 w)) ∧ (n = v.xreg c t (sRs2 w)) ∧ ((a / 2 ^ 54 = v.devId → v.isLocal c t a = true ∧ (v.cover (v.tMould c t) (a % 2 ^ 48) n).isSome = true)))
    ∧ (∃ (s : State) (v : State) (c : Nat) (t : Nat) (w : Nat) (a : Nat) (n : Nat), (s.sysRuns v c t 0x0F 6 w) ∧ (a = v.xreg c t (sRs1 w)) ∧ (n = v.xreg c t (sRs2 w)) ∧ ((a / 2 ^ 54 = v.devId → v.isLocal c t a = true ∧ (v.cover (v.tMould c t) (a % 2 ^ 48) n).isSome = true)))
    ∧ (∃ (s : State) (v : State) (c : Nat) (t : Nat) (w : Nat) (i : Nat), (s.sysRuns v c t 0x10 7 w) ∧ ((List.range 16).find? (fun k => v.threadFor c (v.tMould c t) k && v.thrState c k == 0) = some i) ∧ ((v.mould (v.tMould c t)).faulted.contains (v.tCtx c t) = false) ∧ (v.mouldLive (v.tMould c t) = true) ∧ (v.thrState c t ≠ 0))
    ∧ (∃ (s : State) (v : State) (dt : Nat) (c : Nat) (t : Nat) (w : Nat), (s.pass dt).sysRuns v c t 0x11 2 w)
    ∧ (∃ (s : State) (v : State) (c : Nat) (t : Nat) (w : Nat), s.sysRuns v c t 0x12 0 w)
    ∧ (∃ (s : State) (v : State) (dt : Nat) (c : Nat) (t : Nat) (w : Nat), (s.pass dt).sysRuns v c t 0x13 1 w)
    ∧ (∃ (s : State) (v : State) (c : Nat) (t : Nat) (w : Nat), s.sysRuns v c t 0x14 1 w)
    ∧ (∃ (s : State) (dt : Nat) (c : Nat) (t : Nat) (n : Nat), (s.live = true) ∧ (c < 96) ∧ (t < 16) ∧ (s.thrState c t = 3) ∧ ((s.thread c t).wait = .park n) ∧ (n ≤ (s.pass dt).clk.ns))
    ∧ (∃ (s : State) (c : Nat) (t : Nat) (n : Nat), (s.live = true) ∧ (c < 96) ∧ (s.runningThread c = some t) ∧ (s.nextReady c t = some n) ∧ (n ≠ t) ∧ (256 ≤ (s.thread c t).quantum) ∧ ((s.clu c).curThread = t))
    ∧ (∃ (s : State) (v : State) (c : Nat) (t : Nat) (rd : Nat) (_n : Nat) (_value : Nat) (_addr : Nat) (_next : Nat) (_ecc : Nat) (_word : Nat) (w : Nat) (_sgn : Bool), (s.live = true) ∧ (s.mayIssue c t = true) ∧ ((s.switchTo c t).mustPark c t = false) ∧ ((s.switchTo c t).peekWord c t = some w) ∧ (v = s.issued c t) ∧ (w % 128 ≠ 0x5D) ∧ (rd < 32))
    ∧ (∃ (s : State) (v : State) (q : State) (c : Nat) (t : Nat) (rd : Nat) (n : Nat) (_value : Nat) (addr : Nat) (_next : Nat) (ecc : Nat) (word : Nat) (w : Nat) (_sgn : Bool), (s.live = true) ∧ (s.mayIssue c t = true) ∧ ((s.switchTo c t).mustPark c t = false) ∧ ((s.switchTo c t).peekWord c t = some w) ∧ (v = s.issued c t) ∧ (w % 128 ≠ 0x5D) ∧ (rd < 32) ∧ ((n = 1 ∨ n = 2 ∨ n = 4 ∨ n = 8)) ∧ (addr < 2 ^ 64) ∧ (v.threadMay c t addr n 1) ∧ (v.atHand c (v.tMould c t) (addr % 2 ^ 48) n ecc word = some q))
    ∧ (∃ (s : State) (v : State) (q : State) (c : Nat) (t : Nat) (_rd : Nat) (n : Nat) (_value : Nat) (addr : Nat) (_next : Nat) (ecc : Nat) (word : Nat) (w : Nat) (_sgn : Bool), (s.live = true) ∧ (s.mayIssue c t = true) ∧ ((s.switchTo c t).mustPark c t = false) ∧ ((s.switchTo c t).peekWord c t = some w) ∧ (v = s.issued c t) ∧ (w % 128 ≠ 0x5D) ∧ ((n = 1 ∨ n = 2 ∨ n = 4 ∨ n = 8)) ∧ (addr < 2 ^ 64) ∧ (v.threadMay c t addr n 2) ∧ (v.atHand c (v.tMould c t) (addr % 2 ^ 48) n ecc word = some q)) :=
  ⟨⟨wThr (sysW 14 0 1 2 0) [(1, 2 ^ 54 + 2 ^ 48 + 0x200), (2, 64)], (wThr (sysW 14 0 1 2 0) [(1, 2 ^ 54 + 2 ^ 48 + 0x200), (2, 64)]).issued 2 3, 2, 3, sysW 14 0 1 2 0, 2 ^ 54 + 2 ^ 48 + 0x200, 64, by decide +kernel⟩,
   ⟨(wThr (sysW 15 0 1 2 0) [(1, 2 ^ 54 + 2 ^ 48 + 0x10000000), (2, 64)]).setClu 2 { (wThr (sysW 15 0 1 2 0) [(1, 2 ^ 54 + 2 ^ 48 + 0x10000000), (2, 64)]).clu 2 with dcache := [(99, ⟨1, 0x10000000, [1, 2, 3], true⟩)] }, ((wThr (sysW 15 0 1 2 0) [(1, 2 ^ 54 + 2 ^ 48 + 0x10000000), (2, 64)]).setClu 2 { (wThr (sysW 15 0 1 2 0) [(1, 2 ^ 54 + 2 ^ 48 + 0x10000000), (2, 64)]).clu 2 with dcache := [(99, ⟨1, 0x10000000, [1, 2, 3], true⟩)] }).issued 2 3, 2, 3, sysW 15 0 1 2 0, 2 ^ 54 + 2 ^ 48 + 0x10000000, 64, by decide +kernel⟩,
   ⟨wThr (sysW 16 8 1 2 0) [(1, 2 ^ 54 + 2 ^ 48 + 0x200), (2, 42)], (wThr (sysW 16 8 1 2 0) [(1, 2 ^ 54 + 2 ^ 48 + 0x200), (2, 42)]).issued 2 3, 2, 3, sysW 16 8 1 2 0, 0, by decide +kernel⟩,
   ⟨wThr (sysW 17 0 1 0 0) [(1, 500)], ((wThr (sysW 17 0 1 0 0) [(1, 500)]).pass 10).issued 2 3, 10, 2, 3, sysW 17 0 1 0 0, by decide +kernel⟩,
   ⟨wThr (sysW 18 0 0 0 0) [], (wThr (sysW 18 0 0 0 0) []).issued 2 3, 2, 3, sysW 18 0 0 0 0, by decide +kernel⟩,
   ⟨wThr (sysW 19 31 0 0 0) [], ((wThr (sysW 19 31 0 0 0) []).pass 11).issued 2 3, 11, 2, 3, sysW 19 31 0 0 0, by decide +kernel⟩,
   ⟨wThr (sysW 20 31 0 0 0) [], (wThr (sysW 20 31 0 0 0) []).issued 2 3, 2, 3, sysW 20 31 0 0 0, by decide +kernel⟩,
   ⟨(wRadio.setThread 95 15 { ThreadSt.init with wait := .park 500 }).wr F.thrStatus_state 3 95 15, 500, 95, 15, 500, by decide +kernel⟩,
   ⟨((wRadio.setClu 95 { ClusterSt.init with curThread := 15, threads := [(15, { ThreadSt.init with quantum := 256 })] }).wr F.thrStatus_state 2 95 15).wr F.thrStatus_state 1 95 0, 95, 15, 0, by decide +kernel⟩,
   ⟨wThr 0x13 [], (wThr 0x13 []).issued 2 3, 2, 3, 31, 0, 42, 0, 0x1000, 0, 0, 0x13, false, by decide +kernel⟩,
   ⟨wThr 0x13 [], (wThr 0x13 []).issued 2 3, (wThr 0x13 []).issued 2 3, 2, 3, 31, 2, 0, 2 ^ 54 + 2 ^ 48 + 0x2FE, 0, 0, 0, 0x13, true, by decide +kernel⟩,
   ⟨wThr 0x13 [], (wThr 0x13 []).issued 2 3, (wThr 0x13 []).issued 2 3, 2, 3, 0, 1, 200, 2 ^ 54 + 2 ^ 48 + 0x2FF, 0, 0, 0, 0x13, true, by decide +kernel⟩⟩

theorem witness_SignalEngineArithmetic :
    (∃ (s : State) (c : Nat) (e : Nat) (w : Nat) (g : SeSt), (s.seRuns c e 0x00 w) ∧ (g = s.seng c e))
    ∧ (∃ (s : State) (c : Nat) (e : Nat) (w : Nat) (g : SeSt) (a : Int) (b : Int), (s.seRuns c e 0x10 w) ∧ (g = s.seng c e) ∧ (a = s24 (g.d (aS1 w)).1 + (if bit w 39 then -1 else 1 : Int) * s24 (g.d (aS2 w)).1) ∧ (b = s24 (g.d (aS1 w)).2 + (if bit w 39 then -1 else 1 : Int) * s24 (g.d (aS2 w)).2))
    ∧ (∃ (s : State) (c : Nat) (e : Nat) (w : Nat) (g : SeSt) (a : Int) (b : Int), (s.seRuns c e 0x11 w) ∧ (g = s.seng c e) ∧ ((a, b) = seProd (bit w 6) (bit w 38) (g.d (aS1 w)) (g.d (aS2 w))))
    ∧ (∃ (s : State) (c : Nat) (e : Nat) (w : Nat) (g : SeSt) (a : Int) (b : Int), (s.seRuns c e 0x12 w) ∧ (g = s.seng c e) ∧ (a = s24 (g.d (aS1 w)).1 * 2 ^ 23) ∧ (b = s24 (g.d (aS1 w)).2 * 2 ^ 23))
    ∧ (∃ (s : State) (c : Nat) (e : Nat) (w : Nat) (g : SeSt) (a : Int) (b : Int), (s.seRuns c e 0x13 w) ∧ (g = s.seng c e) ∧ (a = (s24 (g.d (aS1 w)).1).natAbs) ∧ (b = (s24 (g.d (aS1 w)).2).natAbs))
    ∧ (∃ (s : State) (c : Nat) (e : Nat) (w : Nat) (g : SeSt), (s.seRuns c e 0x14 w) ∧ (g = s.seng c e))
    ∧ (∃ (s : State) (c : Nat) (e : Nat) (w : Nat) (g : SeSt), (s.seRuns c e 0x15 w) ∧ (g = s.seng c e))
    ∧ (∃ (s : State) (c : Nat) (e : Nat) (w : Nat) (g : SeSt), (s.seRuns c e 0x16 w) ∧ (g = s.seng c e)) :=
  ⟨⟨wSe 852688896, 2, 4, 852688896, (wSe 852688896).seng 2 4, by decide +kernel⟩,
   ⟨wSe 5457296, 2, 4, 5457296, (wSe 5457296).seng 2 4, 12582911, -8388603, by decide +kernel⟩,
   ⟨wSe 274877924817, 2, 4, 274877924817, (wSe 274877924817).seng 2 4, 35184325951488, 70368756760576, by decide +kernel⟩,
   ⟨wSe 1073760658, 2, 4, 1073760658, (wSe 1073760658).seng 2 4, 35184372088832, -70368744177664, by decide +kernel⟩,
   ⟨wSe 18835, 2, 4, 18835, (wSe 18835).seng 2 4, 4194304, 8388608, by decide +kernel⟩,
   ⟨wSe 17812, 2, 4, 17812, (wSe 17812).seng 2 4, by decide +kernel⟩,
   ⟨wSe 17813, 2, 4, 17813, (wSe 17813).seng 2 4, by decide +kernel⟩,
   ⟨wSe 17814, 2, 4, 17814, (wSe 17814).seng 2 4, by decide +kernel⟩⟩

theorem witness_SignalEngineAccumulatorsAndAddresses :
    (∃ (s : State) (c : Nat) (e : Nat) (w : Nat) (g : SeSt) (a : Int) (b : Int) (x : Int × Int), (s.seRuns c e 0x20 w) ∧ (g = s.seng c e) ∧ ((a, b) = seProd (bit w 6) (bit w 38) (g.d (aS1 w)) (g.d (aS2 w))) ∧ (x = (if bit w 40 then (0, 0) else g.ac (aAcc w))))
    ∧ (∃ (s : State) (c : Nat) (e : Nat) (w : Nat) (g : SeSt) (a : Int) (b : Int) (x : Int × Int), (s.seRuns c e 0x21 w) ∧ (g = s.seng c e) ∧ (a = s24 (g.d (aS1 w)).1 * s24 (g.d (aS1 w)).1) ∧ (b = s24 (g.d (aS1 w)).2 * s24 (g.d (aS1 w)).2) ∧ (x = (if bit w 40 then (0, 0) else g.ac (aAcc w))))
    ∧ (∃ (s : State) (c : Nat) (e : Nat) (w : Nat) (g : SeSt), (s.seRuns c e 0x23 w) ∧ (g = s.seng c e))
    ∧ (∃ (s : State) (c : Nat) (e : Nat) (w : Nat) (g : SeSt), (s.seRuns c e 0x24 w) ∧ (g = s.seng c e))
    ∧ (∃ (s : State) (c : Nat) (e : Nat) (w : Nat) (g : SeSt) (px : PtrSt) (py : PtrSt) (a : Int) (b : Int) (x : Int × Int) (v : Int × Int) (h : SeSt), (s.seRuns c e 0x22 w) ∧ (g = s.seng c e) ∧ (px = g.ptr (bitsOf w 17 3)) ∧ (py = g.ptr (bitsOf w 24 3)) ∧ ((a, b) = seProd (bit w 6) (bit w 38) (g.mem 0 px.addr) (g.mem 1 py.addr)) ∧ (x = (if bit w 40 then (0, 0) else g.ac (aAcc w))) ∧ (v = (x.1 + (if bit w 39 then -1 else 1 : Int) * a, x.2 + (if bit w 39 then -1 else 1 : Int) * b)) ∧ (h = (if bit w 41 ∧ px.addr ≠ (if px.len = 0 then 8191 else px.base + px.len - 1) then (g.putAc (aAcc w) (sat56 v.1) (sat56 v.2)).g.setMem 0 (px.move 1).addr (g.mem 0 px.addr) else (g.putAc (aAcc w) (sat56 v.1) (sat56 v.2)).g)))
    ∧ (∃ (s : State) (c : Nat) (e : Nat) (w : Nat) (g : SeSt) (p : PtrSt) (i : Nat), (s.seRuns c e 0x09 w) ∧ (g = s.seng c e) ∧ (p = g.ptr (bitsOf w 17 3)) ∧ (i = (g.d (aS1 w)).1 / 2 ^ (24 - bitsOf w 42 4)))
    ∧ (∃ (s : State) (c : Nat) (e : Nat) (w : Nat) (g : SeSt), (s.seRuns c e 0x03 w) ∧ (g = s.seng c e))
    ∧ (∃ (s : State) (c : Nat) (e : Nat) (w : Nat) (g : SeSt), (s.seRuns c e 0x04 w) ∧ (g = s.seng c e))
    ∧ (∃ (s : State) (c : Nat) (e : Nat) (w : Nat) (g : SeSt), (s.seRuns c e 0x05 w) ∧ (g = s.seng c e))
    ∧ (∃ (s : State) (c : Nat) (e : Nat) (w : Nat) (g : SeSt), (s.seRuns c e 0x06 w) ∧ (g = s.seng c e))
    ∧ (∃ (s : State) (c : Nat) (e : Nat) (w : Nat) (g : SeSt) (k : Nat), (s.seRuns c e 0x07 w) ∧ (g = s.seng c e) ∧ (k = bitsOf w 7 3)) :=
  ⟨⟨wSe 549755831456, 2, 4, 549755831456, (wSe 549755831456).seng 2 4, 35184367894528, -41943040, (2 ^ 54, -3), by decide +kernel⟩,
   ⟨wSe 1099511645409, 2, 4, 1099511645409, (wSe 1099511645409).seng 2 4, 70368727400449, 25, (0, 0), by decide +kernel⟩,
   ⟨wSe 17571, 2, 4, 17571, (wSe 17571).seng 2 4, by decide +kernel⟩,
   ⟨wSe 17956, 2, 4, 17956, (wSe 17956).seng 2 4, by decide +kernel⟩,
   ⟨wSe 2199056941218, 2, 4, 2199056941218, (wSe 2199056941218).seng 2 4, ⟨4, 4, 2, 1⟩, ⟨7, 0, 0, 1⟩, 10737414, 8, (2 ^ 54, -3), (2 ^ 54 + 10737414, -3 + 8), (((wSe 2199056941218).seng 2 4).putAc 1 (sat56 (2 ^ 54 + 10737414)) (sat56 (-3 + 8))).g.setMem 0 5 (9, 8), by decide +kernel⟩,
   ⟨wSe 127543348954505, 2, 4, 127543348954505, (wSe 127543348954505).seng 2 4, ⟨4, 4, 2, 1⟩, 4095, by decide +kernel⟩,
   ⟨wSe 9222809327440497283, 2, 4, 9222809327440497283, (wSe 9222809327440497283).seng 2 4, by decide +kernel⟩,
   ⟨wSe 8388164, 2, 4, 8388164, (wSe 8388164).seng 2 4, by decide +kernel⟩,
   ⟨wSe 34359737797, 2, 4, 34359737797, (wSe 34359737797).seng 2 4, by decide +kernel⟩,
   ⟨wSe 30064771526, 2, 4, 30064771526, (wSe 30064771526).seng 2 4, by decide +kernel⟩,
   ⟨wSe 2247, 2, 4, 2247, (wSe 2247).seng 2 4, 1, by decide +kernel⟩⟩

theorem witness_SignalEngineControlAndJobs :
    (∃ (s : State) (c : Nat) (e : Nat) (w : Nat) (g : SeSt) (n : Nat) (body : Nat), (s.seRuns c e 0x02 w) ∧ (g = s.seng c e) ∧ (body = bitsOf w 25 14) ∧ (n = (if bit w 6 then g.par (bitsOf w 7 2) else bitsOf w 9 16 + 1)) ∧ (0 < n) ∧ (n ≤ 65536))
    ∧ (∃ (s : State) (c : Nat) (e : Nat) (w : Nat) (g : SeSt), (s.seRuns c e 0x02 w) ∧ (g = s.seng c e) ∧ (bit w 6 = true) ∧ (g.par (bitsOf w 7 2) = 0))
    ∧ (∃ (s : State) (c : Nat) (e : Nat) (w : Nat) (g : SeSt) (q : QIns), (s.seRuns c e 0x01 w) ∧ (g = s.seng c e) ∧ (g.stream < 4) ∧ ((s.stream c g.stream).busy = true) ∧ (s.queue c g.stream e = [q]))
    ∧ (∃ (s : State) (c : Nat) (e : Nat) (w : Nat) (g : SeSt), (s.seRuns c e 0x31 w) ∧ (g = s.seng c e) ∧ (bit g.flags (bitsOf w 10 4) = false))
    ∧ (∃ (s : State) (c : Nat) (e : Nat) (w : Nat) (g : SeSt), (s.seRuns c e 0x31 w) ∧ (g = s.seng c e) ∧ (bit g.flags (bitsOf w 10 4) = true) ∧ (g.stream < 4))
    ∧ (∃ (s : State) (c : Nat) (e : Nat) (w : Nat) (g : SeSt) (o : Nat) (n : Nat) (a : Nat) (h : Nat) (len : Nat) (mm : Nat) (xs : List (Nat × Nat × Nat)), (s.seRuns c e 0x08 w) ∧ (g = s.seng c e) ∧ (o = g.sa (bitsOf w 8 2)) ∧ (n = bitsOf w 25 13 + 1) ∧ (a = bitsOf w 12 13) ∧ (h = seFmtBytes (bitsOf w 10 2) / 2) ∧ (len = n * (2 * h)) ∧ (mm = bitsOf w 7 1) ∧ (bit w 6 = false) ∧ (o % 2 = 0) ∧ (s.seRange c e o len 1 = true) ∧ (xs = (List.range (2 * n)).map (fun i => seLoadHalf (bitsOf w 10 2) (leAt (s.sramBytes c o len) (h * i) h))))
    ∧ (∃ (s : State) (c : Nat) (e : Nat) (w : Nat) (g : SeSt) (o : Nat) (n : Nat) (a : Nat) (h : Nat) (len : Nat) (mm : Nat) (xs : List (Nat × Nat)), (s.seRuns c e 0x08 w) ∧ (g = s.seng c e) ∧ (o = g.sa (bitsOf w 8 2)) ∧ (n = bitsOf w 25 13 + 1) ∧ (a = bitsOf w 12 13) ∧ (h = seFmtBytes (bitsOf w 10 2) / 2) ∧ (len = n * (2 * h)) ∧ (mm = bitsOf w 7 1) ∧ (bit w 6 = true) ∧ (o % 2 = 0) ∧ (s.seRange c e o len 2 = true) ∧ (xs = ((List.range n).flatMap (fun i => [(g.mem mm (a + i)).1, (g.mem mm (a + i)).2])).map (seStoreHalf (bitsOf w 10 2) (bitsOf w 38 2))))
    ∧ (∃ (s : State) (c : Nat) (e : Nat) (w : Nat) (g : SeSt) (o : Nat) (m : Nat) (k : Nat), (s.seRuns c e 0x30 w) ∧ (g = s.seng c e) ∧ (o = g.sa (bitsOf w 8 2)) ∧ (m = s.rd F.seStatus_mould c (e - 4)) ∧ (k = jobUnit (bitsOf w 6 2) c (leAt (s.sramBytes c o 64) 1 1)) ∧ (o % 64 = 0) ∧ (s.seRange c e o 64 1 = true) ∧ (s.rd F.radioUnit_state k ≠ 0) ∧ (s.rd F.radioUnit_mould k = m) ∧ (s.routed m c (unitNode k) = true) ∧ (bit g.flags (bitsOf w 10 4) = false) ∧ ((s.unit k).queue.length < unitDepth k))
    ∧ (∃ (s : State) (c : Nat) (e : Nat) (w : Nat) (g : SeSt) (o : Nat) (m : Nat) (k : Nat), (s.seRuns c e 0x30 w) ∧ (g = s.seng c e) ∧ (o = g.sa (bitsOf w 8 2)) ∧ (m = s.rd F.seStatus_mould c (e - 4)) ∧ (k = jobUnit (bitsOf w 6 2) c (leAt (s.sramBytes c o 64) 1 1)) ∧ (o % 64 = 0) ∧ (s.seRange c e o 64 1 = true) ∧ (s.rd F.radioUnit_state k ≠ 0) ∧ (s.rd F.radioUnit_mould k = m) ∧ (s.routed m c (unitNode k) = true) ∧ ((bit g.flags (bitsOf w 10 4) = true ∨ unitDepth k ≤ (s.unit k).queue.length)) ∧ (g.stream < 4))
    ∧ (∃ (s : State) (c : Nat) (e : Nat) (w : Nat) (o : Nat) (m : Nat) (k : Nat) (_d : Nat) (g : SeSt), (s.live = true) ∧ (c < 96) ∧ ((e = 4 ∨ e = 5)) ∧ ((s.seng c e).running = true) ∧ (s.rd F.seStatus_state c (e - 4) = 2) ∧ (w = s.seWord c e (s.rd F.seStatus_pc c (e - 4))) ∧ (w % 64 = 0x30) ∧ (g = s.seng c e) ∧ (g.stream < 4) ∧ (o = g.sa (bitsOf w 8 2)) ∧ (m = s.rd F.seStatus_mould c (e - 4)) ∧ (k = jobUnit (bitsOf w 6 2) c (leAt (s.sramBytes c o 64) 1 1)) ∧ (bit g.flags (bitsOf w 10 4) = false) ∧ ((s.unit k).queue.length < unitDepth k))
    ∧ (∃ (s : State) (c : Nat) (e : Nat) (i : Nat) (t : Nat) (_word : Nat) (l : LoadReq) (im : Bytes), (s.live = true) ∧ (c < 96) ∧ ((s.seng c e).loads[i]? = some l) ∧ (l.asker = .thread t) ∧ (l.engines = 2 ^ (e - 4)) ∧ ((e = 4 ∨ e = 5)) ∧ (s.onCluster l.mould c l.addr 64 1 = true) ∧ ((s.regionAt l.mould l.addr).any (fun r => r.tier = 0) = true) ∧ (s.onCluster l.mould c l.addr (64 + 8 * leAt (s.readMem l.mould l.addr 64) 6 2) 1 = true) ∧ (im = s.readMem l.mould l.addr (64 + 8 * leAt (s.readMem l.mould l.addr 64) 6 2)) ∧ ((s.setSeng c e { s.seng c e with loads := (s.seng c e).loads.eraseIdx i }).seCheck c e l.mould im = none) ∧ (t < 16) ∧ (s.thrState c t = 3)) :=
  ⟨⟨wSe 67108354, 2, 4, 67108354, (wSe 67108354).seng 2 4, 65536, 1, by decide +kernel⟩,
   ⟨wSe 134217794, 2, 4, 134217794, (wSe 134217794).seng 2 4, by decide +kernel⟩,
   ⟨(wSe 1).setQueue 2 0 4 [⟨4, 8, 0, 0, 0, 0, 0, 0, 0⟩], 2, 4, 1, ((wSe 1).setQueue 2 0 4 [⟨4, 8, 0, 0, 0, 0, 0, 0, 0⟩]).seng 2 4, ⟨4, 8, 0, 0, 0, 0, 0, 0, 0⟩, by decide +kernel⟩,
   ⟨wSe 15409, 2, 4, 15409, (wSe 15409).seng 2 4, by decide +kernel⟩,
   ⟨(wSe 15409).setSeng 2 4 { (wSe 15409).seng 2 4 with flags := 2 ^ 15 }, 2, 4, 15409, { (wSe 15409).seng 2 4 with flags := 2 ^ 15 }, by decide +kernel⟩,
   ⟨wJob 33964296, 2, 4, 33964296, (wJob 33964296).seng 2 4, 64, 2, 100, 2, 8, 0, (List.range 4).map (fun _ => (0, 0, 0)), by decide +kernel⟩,
   ⟨wJob 33581512, 2, 4, 33581512, (wJob 33581512).seng 2 4, 64, 2, 6, 4, 16, 1, [(0, 0), (0, 0), (0x123456, 0), (1, 0)], by decide +kernel⟩,
   ⟨wJob 15664, 2, 4, 15664, (wJob 15664).seng 2 4, 64, 1, 0, by decide +kernel⟩,
   ⟨(wJob 15664).setSeng 2 4 { (wJob 15664).seng 2 4 with flags := 2 ^ 15 }, 2, 4, 15664, { (wJob 15664).seng 2 4 with flags := 2 ^ 15 }, 64, 1, 0, by decide +kernel⟩,
   ⟨(wJob 15664).wr F.seStatus_state 2 2 0, 2, 4, 15664, 64, 1, 0, 9, (wJob 15664).seng 2 4, by decide +kernel⟩,
   ⟨wProg, 2, 5, 0, 3, 0, ⟨1, 0, 0, 2, 0, 0, .thread 3⟩, okProg, by decide +kernel⟩⟩

theorem witness_HotSet :
    (∃ (s : State) (r : MReq) (rest : List MReq) (m : Nat) (n : Nat) (l : List (Nat × Nat)), (s.serves 0x0020 r rest) ∧ (8 ≤ r.body.length) ∧ (m = leAt r.body 0 1) ∧ (n = leAt r.body 1 1) ∧ (m < 64) ∧ (n ≤ 16) ∧ (r.body.length = 8 + 16 * n) ∧ (leAt r.body 4 4 = 0) ∧ (l = (List.range n).map (fun i => (leAt r.body (8 + 16 * i) 8, leAt r.body (16 + 16 * i) 8))) ∧ (s.mouldLive m = true) ∧ (sumNat (s.moulds.map (fun e => e.2.maxHot)) + leAt r.body 2 2 ≤ 1024) ∧ ((s.mould m).pooled = false) ∧ (l.all (fun p => s.poolOk m p.1 p.2) = true))
    ∧ (∃ (s : State) (r : MReq) (rest : List MReq) (m : Nat) (dst : Nat) (n : Nat) (d : Bytes) (e : HotEntry), (s.serves 0x0021 r rest) ∧ (r.body.length = 64) ∧ (m = leAt r.body 0 1) ∧ (m < 64) ∧ (allZero (slice r.body 1 7) = true) ∧ (d = slice r.body 8 32) ∧ (dst = leAt r.body 48 8 % 2 ^ 48) ∧ (n = leAt r.body 56 8) ∧ (n ≠ 0) ∧ (n % 64 = 0) ∧ (n < 2 ^ 40) ∧ (s.mouldLive m = true) ∧ ((s.mould m).pools.any (fun p => p.1 ≤ dst && dst + n ≤ p.1 + p.2) = true) ∧ (s.covered m (leAt r.body 40 8 % 2 ^ 48) n 1 = true) ∧ (((s.cover m (leAt r.body 40 8 % 2 ^ 48) n).getD []).all (fun g => g.tier = 1 || g.tier = 2) = true) ∧ (s.hotOf m d = some e) ∧ (e.loading = false) ∧ (e.dst = dst))
    ∧ (∃ (s : State) (r : MReq) (rest : List MReq) (m : Nat) (src : Nat) (dst : Nat) (n : Nat) (i : Nat) (d : Bytes), (s.serves 0x0021 r rest) ∧ (r.body.length = 64) ∧ (m = leAt r.body 0 1) ∧ (m < 64) ∧ (allZero (slice r.body 1 7) = true) ∧ (d = slice r.body 8 32) ∧ (src = leAt r.body 40 8 % 2 ^ 48) ∧ (dst = leAt r.body 48 8 % 2 ^ 48) ∧ (n = leAt r.body 56 8) ∧ (n ≠ 0) ∧ (n % 64 = 0) ∧ (n < 2 ^ 40) ∧ (s.mouldLive m = true) ∧ ((s.mould m).pools.any (fun p => p.1 ≤ dst && dst + n ≤ p.1 + p.2) = true) ∧ (s.covered m src n 1 = true) ∧ (((s.cover m src n).getD []).all (fun g => g.tier = 1 || g.tier = 2) = true) ∧ (s.hotOf m d = none) ∧ (s.hot.any (fun e => e.mould = m && e.dst < dst + n && dst < e.dst + e.len) = false) ∧ ((s.hot.filter (fun e => e.mould = m)).length < (s.mould m).maxHot) ∧ (s.freeEntry = some i))
    ∧ (∃ (s : State) (r : MReq) (rest : List MReq) (m : Nat) (d : Bytes) (e : HotEntry), (s.serves 0x0022 r rest) ∧ (hotBody r.body = true) ∧ (m = leAt r.body 0 1) ∧ (d = slice r.body 8 32) ∧ (s.hotOf m d = some e) ∧ (e.pins < 65535))
    ∧ (∃ (s : State) (r : MReq) (rest : List MReq) (m : Nat) (d : Bytes) (e : HotEntry), (s.serves 0x0023 r rest) ∧ (hotBody r.body = true) ∧ (m = leAt r.body 0 1) ∧ (d = slice r.body 8 32) ∧ (s.hotOf m d = some e) ∧ (0 < e.pins))
    ∧ (∃ (s : State) (r : MReq) (rest : List MReq) (m : Nat) (d : Bytes) (e : HotEntry), (s.serves 0x0024 r rest) ∧ (hotBody r.body = true) ∧ (m = leAt r.body 0 1) ∧ (d = slice r.body 8 32) ∧ (s.hotOf m d = some e) ∧ (e.pins = 0))
    ∧ (∃ (s : State) (r : MReq) (rest : List MReq) (m : Nat) (d : Bytes) (e : HotEntry), (s.serves 0x0025 r rest) ∧ (hotBody r.body = true) ∧ (m = leAt r.body 0 1) ∧ (d = slice r.body 8 32) ∧ (s.hotOf m d = some e)) :=
  ⟨⟨withReq (wRadio) 0x20 ([1, 1, 2, 0, 0, 0, 0, 0] ++ toLe 8 0x40000 ++ toLe 8 0x10000), reqOf 0x20 ([1, 1, 2, 0, 0, 0, 0, 0] ++ toLe 8 0x40000 ++ toLe 8 0x10000), [], 1, 1, [(0x40000, 0x10000)], by decide +kernel⟩,
   ⟨withReq (wHot [eHot 0]) 0x21 (hotReq), reqOf 0x21 (hotReq), [], 1, 0x40000, 64, List.replicate 32 7#8, eHot 0, by decide +kernel⟩,
   ⟨withReq (wHot []) 0x21 (hotReq), reqOf 0x21 (hotReq), [], 1, 0x10000000, 0x40000, 64, 0, List.replicate 32 7#8, by decide +kernel⟩,
   ⟨withReq (wHot [eHot 65534]) 0x22 (hotName), reqOf 0x22 (hotName), [], 1, List.replicate 32 7#8, eHot 65534, by decide +kernel⟩,
   ⟨withReq (wHot [eHot 1]) 0x23 (hotName), reqOf 0x23 (hotName), [], 1, List.replicate 32 7#8, eHot 1, by decide +kernel⟩,
   ⟨withReq (wHot [eHot 0]) 0x24 (hotName), reqOf 0x24 (hotName), [], 1, List.replicate 32 7#8, eHot 0, by decide +kernel⟩,
   ⟨withReq (wHot [eHot 3]) 0x25 (hotName), reqOf 0x25 (hotName), [], 1, List.replicate 32 7#8, eHot 3, by decide +kernel⟩⟩

theorem witness_ServiceEndpoints :
    (∃ (s : State) (r : MReq) (rest : List MReq) (e : Nat) (v : SvcSt), (s.serves 0x0028 r rest) ∧ (r.body.length = 80) ∧ (e = leAt r.body 0 2) ∧ (v = svcOf r.body) ∧ (v.mould < 64) ∧ (s.mouldLive v.mould = true) ∧ (v.ctx < s.ctxCount v.mould) ∧ (e < 256) ∧ (s.svcBound e = false) ∧ ((s.svc.filter (fun p => p.2.mould = v.mould)).length < 16) ∧ ((s.svcRing v.mould v.ctx v.rxBase v.rxSlots).isSome = true) ∧ ((s.svcRing v.mould v.ctx v.txBase v.txSlots).isSome = true) ∧ (v.port < 8) ∧ (v.queue < 1024) ∧ ((s.qInfo (queueNo (0x10 + v.port) v.queue)).bind (·.owner) = some v.mould) ∧ (v.token < 32) ∧ (s.blockBusy (18 + v.port) = false))
    ∧ (∃ (s : State) (r : MReq) (rest : List MReq) (e : Nat), (s.serves 0x0029 r rest) ∧ (r.body.length = 2) ∧ (e = leAt r.body 0 2) ∧ (e < 256) ∧ (s.svcBound e = true))
    ∧ (∃ (s : State) (q : Nat) (e : Nat) (_v : Nat), (s.live = true) ∧ (e < 256) ∧ ((q = 0 ∨ 2 ≤ q ∧ s.svcBound e = true ∧ q - 2 = (s.svcEp e).mould + 64 * (s.svcEp e).ctx)))
    ∧ (∃ (s : State) (dt : Nat) (sub : Nat) (e : Nat) (_sport : Nat) (dport : Nat) (n : Nat) (c : Nat) (tail : Nat) (a : Nat) (_src : Bytes) (dst : Bytes) (d : Bytes) (h : Bytes) (v : SvcSt) (w : SvcSt), (s.live = true) ∧ (s.subOpen sub = true) ∧ (24 ≤ d.length) ∧ (h = d.take 24) ∧ (e = beAt h 2 2) ∧ (e < 256) ∧ (v = s.svcEp e) ∧ (v.mould < 64) ∧ (v.port = (sub - 16) / 4) ∧ (v.ipv6 = dst) ∧ (v.udp = dport) ∧ (svcHdrOk h (d.length - 24) = true) ∧ (n = beAt h 16 2) ∧ (v.track (beAt h 4 4) (beAt h 20 4) (s.clk.up + dt) = some w) ∧ ((w.msStart = (s.pass dt).clk.ns / 1000000 → w.msCount < v.rxRate)) ∧ (0 < v.rxRate) ∧ (tail = s.rd F.svcRing_rxTail e) ∧ ((tail + 65536 - s.rd F.svcRing_rxHead e) % 65536 < v.rxSlots) ∧ (a = v.rxBase + tail % v.rxSlots * 2048) ∧ (s.svcRing v.mould v.ctx v.rxBase v.rxSlots = some c) ∧ (s.tok c v.mould v.ctx v.token < 65535))
    ∧ (∃ (s : State) (e : Nat) (a : Nat) (n : Nat) (q : Nat) (v : SvcSt) (h : Bytes), (s.live = true) ∧ (e < 256) ∧ (v = s.svcEp e) ∧ (v.mould < 64) ∧ (s.rd F.svcRing_txHead e ≠ s.rd F.svcRing_txTail e) ∧ (v.txCount < 2 ^ 32 - 1) ∧ (a = v.txBase + s.rd F.svcRing_txHead e % v.txSlots * 2048) ∧ (h = (s.readMem v.mould (a + 32) 24).take 20 ++ toBe 4 (v.txCount + 1)) ∧ (n = beAt (s.readMem v.mould (a + 32) 24) 16 2) ∧ (n ≤ 1400) ∧ (q = queueNo (0x10 + v.port) v.queue) ∧ (s.hasRoom q (14 + 40 + 8 + 24 + n + 16) = true)) :=
  ⟨⟨withReq (wSvc) 0x28 (svcReq), reqOf 0x28 (svcReq), [], 3, svcOf svcReq, by decide +kernel⟩,
   ⟨withReq (wEp) 0x29 ([3, 0]), reqOf 0x29 ([3, 0]), [], 3, by decide +kernel⟩,
   ⟨wEp, 67, 3, 0xFFFF0005, by decide +kernel⟩,
   ⟨wEp, 10, 16, 3, 7, 4000, 2, 2, 0, 0, List.replicate 16 1#8, List.replicate 16 9#8, dgram, dgram.take 24, svcOf svcReq, ((svcOf svcReq).track 5 1 10).getD SvcSt.init, by decide +kernel⟩,
   ⟨wEp.wr F.svcRing_txTail 1 3, 3, 0x8000, 0, 24576 + 16, svcOf svcReq, List.replicate 20 0#8 ++ toBe 4 1, by decide +kernel⟩⟩

theorem witness_FarTiers :
    (∃ (s : State) (_dt : Nat) (ch : Nat) (m : Nat) (retries : Nat) (_line : Nat) (c : Nat) (x : Nat) (id : Nat) (own : Bool) (g : Gran) (r : List Gran), (s.live = true) ∧ (m < 64) ∧ (ch < 128) ∧ (s.rd F.gddrCh_state ch = 2) ∧ ((own = true ∨ nextTurn (s.waiters false ch) (Tab.get 0 s.tier.gLast ch) = some m)) ∧ (bit (s.envelope m).chans ch = true) ∧ (s.granules' false (tierKey ch m) = g :: r) ∧ (retries ≤ 4) ∧ (g.who = .ladle c m x id) ∧ (s.isSlag m x (s.rop id).heat (s.rop id).quenches = false))
    ∧ (∃ (s : State) (_dt : Nat) (ch : Nat) (m : Nat) (retries : Nat) (_line : Nat) (c : Nat) (t : Nat) (own : Bool) (g : Gran) (r : List Gran), (s.live = true) ∧ (m < 64) ∧ (ch < 128) ∧ (s.rd F.gddrCh_state ch = 2) ∧ ((own = true ∨ nextTurn (s.waiters false ch) (Tab.get 0 s.tier.gLast ch) = some m)) ∧ (bit (s.envelope m).chans ch = true) ∧ (s.granules' false (tierKey ch m) = g :: r) ∧ (retries ≤ 4) ∧ (g.who = .thread c t) ∧ (c < 96) ∧ (t < 16) ∧ (g.far % 64 = 0) ∧ (s.thrState c t = 3))
    ∧ (∃ (s : State) (_dt : Nat) (ch : Nat) (m : Nat) (retries : Nat) (ecc : Nat) (_line : Nat) (c : Nat) (x : Nat) (id : Nat) (own : Bool) (g : Gran) (r : List Gran), (s.live = true) ∧ (m < 64) ∧ (ch < 128) ∧ (s.rd F.gddrCh_state ch = 2) ∧ ((own = true ∨ nextTurn (s.waiters false ch) (Tab.get 0 s.tier.gLast ch) = some m)) ∧ (bit (s.envelope m).chans ch = true) ∧ (s.granules' false (tierKey ch m) = g :: r) ∧ ((4 < retries ∨ ecc = 2)) ∧ (g.who = .ladle c m x id) ∧ ((s.rop id).fail = 0) ∧ (s.logRoom 1))
    ∧ (∃ (s : State) (_dt : Nat) (ch : Nat) (_ce : Nat) (n : Nat), (s.live = true) ∧ (ch < 128) ∧ (s.rd F.gddrCh_state ch = 2) ∧ (s.flag F.scrubCtrl_gddrEn = true) ∧ (n = ((List.range 128).filter (fun k => s.rd F.gddrCh_state k = 2)).length * s.rd F.gddrCfg_channelMb * 4096))
    ∧ (∃ (s : State) (r : MReq) (rest : List MReq) (ch : Nat) (i : Nat), (s.serves 0x0041 r rest) ∧ (r.body.length = 1) ∧ (ch = leAt r.body 0 1) ∧ (ch < 128) ∧ (s.rd F.gddrCh_state ch ≠ 0) ∧ ((s.flag F.gddrCh_radio ch = true → s.mstate (s.rd F.gddrCh_radioMould ch) = 4 ∨ s.mstate (s.rd F.gddrCh_radioMould ch) = 0)) ∧ (s.retraining ch = false) ∧ (s.blockBusy (12 + ch / 32) = false) ∧ (s.freeEntry = some i))
    ∧ (∃ (s : State) (_dt : Nat) (k : Nat) (m : Nat) (_line : Nat) (c : Nat) (x : Nat) (id : Nat) (g : Gran) (r : List Gran), (s.live = true) ∧ (k < 4) ∧ (m < 64) ∧ (s.flag F.cxlDev_linkUp k = true) ∧ (s.granules' true (tierKey k m) = g :: r) ∧ (nextTurn (s.waiters true k) (Tab.get 0 s.tier.cLast k) = some m) ∧ (g.who = .ladle c m x id) ∧ (s.isSlag m x (s.rop id).heat (s.rop id).quenches = false))
    ∧ (∃ (s : State) (dt : Nat) (k : Nat) (m : Nat) (c : Nat) (x : Nat) (id : Nat) (g : Gran) (r : List Gran), (s.live = true) ∧ (k < 4) ∧ (m < 64) ∧ (s.granules' true (tierKey k m) = g :: r) ∧ (nextTurn (s.waiters true k) (Tab.get 0 s.tier.cLast k) = some m) ∧ (g.who = .ladle c m x id) ∧ ((s.rop id).fail = 0) ∧ (g.at_ + 10000000 ≤ s.clk.up + dt))
    ∧ (∃ (s : State) (k : Nat) (width : Nat) (_cap : Nat) (ide : Bool), (s.live = true) ∧ (k < 4) ∧ (s.blockBusy (16 + k / 2) = false) ∧ (s.flag F.cxlDev_linkUp k = false) ∧ (s.flag F.quar_active (48 + k) = false) ∧ ((width = 8 ∨ width = 16)) ∧ ((s.needsIde k = true → ide = true)))
    ∧ (∃ (s : State) (k : Nat), (s.live = true) ∧ (k < 4) ∧ (s.flag F.cxlDev_linkUp k = true)) :=
  ⟨⟨wFar [gMov, gMov] [], 5, 0, 1, 4, 0, 2, 0, 7, true, gMov, [gMov], by decide +kernel⟩,
   ⟨(wFar [gThr] []).wr F.thrStatus_state 3 2 3, 5, 0, 1, 4, 0, 2, 3, false, gThr, [], by decide +kernel⟩,
   ⟨wFar [gMov] [], 5, 0, 1, 5, 0, 0, 2, 0, 7, true, gMov, [], by decide +kernel⟩,
   ⟨wFar [] [], 5, 0, 9, 2 * 16 * 4096, by decide +kernel⟩,
   ⟨withReq (wFar [] []) 0x41 [1], reqOf 0x41 [1], [], 1, 0, by decide +kernel⟩,
   ⟨wFar [] [gMov], 5, 0, 1, 0, 2, 0, 7, gMov, [], by decide +kernel⟩,
   ⟨wFar [] [gMov], 10000000, 0, 1, 2, 0, 7, gMov, [], by decide +kernel⟩,
   ⟨w0, 3, 16, 600, false, by decide +kernel⟩,
   ⟨wFar [] [gMov, gThr], 0, by decide +kernel⟩⟩

theorem witness_LadleTransfers :
    (∃ (s : State) (_dt : Nat) (c : Nat) (m : Nat) (x : Nat) (v : MovSt), (s.live = true) ∧ ((s.movs c m x).find? (fun y => !y.begun) = some v) ∧ ((s.stageOf c < 2 ∨ s.isRadio m = true ∨ (s.clu c).streams.any (fun e => e.2.busy && e.2.run = v.run) = true)) ∧ (v.kind = 0))
    ∧ (∃ (s : State) (_dt : Nat) (c : Nat) (m : Nat) (x : Nat) (far : Nat) (near : Nat) (v : MovSt), (s.live = true) ∧ ((s.movs c m x).find? (fun y => !y.begun) = some v) ∧ ((s.stageOf c < 2 ∨ s.isRadio m = true ∨ (s.clu c).streams.any (fun e => e.2.busy && e.2.run = v.run) = true)) ∧ ((v.kind = 1 ∨ v.kind = 2)) ∧ (far = (if v.kind = 2 then v.src else v.dst) % 2 ^ 48) ∧ (near = (if v.kind = 2 then v.dst else v.src) % 2 ^ 48) ∧ ((s.access m far v.len 0 0).1 = 0))
    ∧ (∃ (s : State) (_dt : Nat) (c : Nat) (m : Nat) (x : Nat) (a : Nat) (v : MovSt), (s.live = true) ∧ ((s.movs c m x).find? (fun y => !y.begun) = some v) ∧ ((s.stageOf c < 2 ∨ s.isRadio m = true ∨ (s.clu c).streams.any (fun e => e.2.busy && e.2.run = v.run) = true)) ∧ ((v.kind = 3 ∨ v.kind = 4)) ∧ (a = (if v.kind = 3 then v.dst else v.src)) ∧ (m < 64) ∧ (s.remoteCheck m a 64 = 0) ∧ (s.slotFree m = true) ∧ (s.windowOpen (a / 2 ^ 54) m = true))
    ∧ (∃ (s : State) (q : State) (c : Nat) (m : Nat) (x : Nat) (ecc : Nat) (word : Nat) (v : MovSt) (o : ROp), (s.live = true) ∧ ((s.movs c m x).find? (fun y => y.begun && (s.rop y.opId).got) = some v) ∧ (o = s.rop v.opId) ∧ (o.kind = 0) ∧ (o.busy ≠ 2) ∧ (s.isSlag m x o.heat o.quenches = false) ∧ (s.access m o.near o.len ecc word = (0, q)) ∧ ((o.doneEn = true → s.tok c m x o.doneTok < 65535)))
    ∧ (∃ (s : State) (c : Nat) (m : Nat) (x : Nat) (_ecc : Nat) (_word : Nat) (v : MovSt) (o : ROp), (s.live = true) ∧ ((s.movs c m x).find? (fun y => y.begun && (s.rop y.opId).got) = some v) ∧ (o = s.rop v.opId) ∧ ((o.kind = 3 ∨ o.kind = 4)) ∧ (o.busy ≠ 2) ∧ (o.mould = m) ∧ (o.ctx = x) ∧ (m < 64) ∧ (x < 16) ∧ (s.isSlag m x o.heat o.quenches = false) ∧ ((o.doneEn = true → s.tok c m x o.doneTok < 65535)))
    ∧ (∃ (s : State) (c : Nat) (m : Nat) (x : Nat) (_ecc : Nat) (_word : Nat) (v : MovSt) (o : ROp), (s.live = true) ∧ ((s.movs c m x).find? (fun y => y.begun && (s.rop y.opId).got) = some v) ∧ (o = s.rop v.opId) ∧ (m < 64) ∧ (o.busy ≠ 2) ∧ (s.isSlag m x o.heat o.quenches = true))
    ∧ (∃ (s : State) (dt : Nat) (c : Nat) (m : Nat) (x : Nat) (g : Nat) (v : MovSt), (s.live = true) ∧ ((s.movs c m x).find? (fun y => !y.begun) = some v) ∧ (s.grpOf (v.dst % 65536) = some g) ∧ (v.kind = 5) ∧ (s.rd F.collG_state g = 1) ∧ (v.beganAt ≠ 0) ∧ (v.beganAt + 1000 * (s.grpEnt g).timeoutUs ≤ s.clk.up + dt + 1)) :=
  ⟨⟨wMov (mkMov 0 0x100 0x400 false) ROp.init, 5, 2, 1, 0, mkMov 0 0x100 0x400 false, by decide +kernel⟩,
   ⟨wMov (mkMov 2 0x10000000 0x400 false) ROp.init, 5, 2, 1, 0, 0x10000000, 0x400, mkMov 2 0x10000000 0x400 false, by decide +kernel⟩,
   ⟨wMov (mkMov 3 0x100 (2 * 2 ^ 54 + 2 ^ 48 + 0x400) false) ROp.init, 5, 2, 1, 0, 2 * 2 ^ 54 + 2 ^ 48 + 0x400, mkMov 3 0x100 (2 * 2 ^ 54 + 2 ^ 48 + 0x400) false, by decide +kernel⟩,
   ⟨wMov (mkMov 0 0x100 0x400 true) { ROp.init with kind := 0, mould := 1, len := 64, near := 0x100, far := 0x400, doneTok := 5, doneEn := true, got := true }, wMov (mkMov 0 0x100 0x400 true) { ROp.init with kind := 0, mould := 1, len := 64, near := 0x100, far := 0x400, doneTok := 5, doneEn := true, got := true }, 2, 1, 0, 0, 0, mkMov 0 0x100 0x400 true, { ROp.init with kind := 0, mould := 1, len := 64, near := 0x100, far := 0x400, doneTok := 5, doneEn := true, got := true }, by decide +kernel⟩,
   ⟨wMov (mkMov 4 0x100 0x400 true) { ROp.init with kind := 4, mould := 1, len := 64, near := 0x100, far := 0x400, doneTok := 5, doneEn := true, got := true, fail := 9 }, 2, 1, 0, 0, 0, mkMov 4 0x100 0x400 true, { ROp.init with kind := 4, mould := 1, len := 64, near := 0x100, far := 0x400, doneTok := 5, doneEn := true, got := true, fail := 9 }, by decide +kernel⟩,
   ⟨wMov (mkMov 2 0x100 0x400 true) { ROp.init with kind := 2, mould := 1, len := 64, near := 0x100, far := 0x400, doneTok := 5, doneEn := true, got := true, quenches := 1 }, 2, 1, 0, 0, 0, mkMov 2 0x100 0x400 true, { ROp.init with kind := 2, mould := 1, len := 64, near := 0x100, far := 0x400, doneTok := 5, doneEn := true, got := true, quenches := 1 }, by decide +kernel⟩,
   ⟨wGrp, 2000000, 2, 1, 0, 0, { mkMov 5 0x100 (0x400 * 65536 + 9) false with beganAt := 1 }, by decide +kernel⟩⟩

theorem witness_JoravoLinks :
    (∃ (s : State) (_dt : Nat) (p : Nat), (s.live = true) ∧ (p < 12) ∧ (s.blockBusy p = false) ∧ (1 < s.dimSize (portDim p)) ∧ (s.rd F.portStatus_state p ≤ 1))
    ∧ (∃ (s : State) (dt : Nat) (p : Nat), (s.live = true) ∧ (p < 12) ∧ (s.blockBusy p = false) ∧ (1 < s.dimSize (portDim p)) ∧ (s.rd F.portStatus_state p ≤ 1) ∧ ((s.port p).at_ + 100000000 ≤ s.clk.up + dt))
    ∧ (∃ (s : State) (p : Nat) (_corr : Nat) (unc : Nat), (s.live = true) ∧ (p < 12) ∧ (s.rd F.portStatus_state p ≠ 5) ∧ ((unc = 0 ∨ 64 < unc)))
    ∧ (∃ (s : State) (p : Nat) (peer : Nat) (pport : Nat) (x : Nat) (y : Nat) (z : Nat) (_epoch : Nat) (nonce : Bool), (s.live = true) ∧ (p < 12) ∧ ((s.rd F.portStatus_state p = 1 ∨ s.rd F.portStatus_state p = 3)) ∧ (s.peerFits p peer pport x y z = true) ∧ ((s.needsMacsec p = true → nonce = true ∧ s.sec.fabricKey = true)))
    ∧ (∃ (s : State) (p : Nat) (peer : Nat) (pport : Nat) (x : Nat) (y : Nat) (z : Nat) (_epoch : Nat) (_nonce : Bool), (s.live = true) ∧ (p < 12) ∧ ((s.rd F.portStatus_state p = 1 ∨ s.rd F.portStatus_state p = 3)) ∧ (s.peerFits p peer pport x y z = false) ∧ (s.logRoom 1))
    ∧ (∃ (s : State) (dt : Nat) (p : Nat) (t : Nat), (s.live = true) ∧ (s.jUp p = true) ∧ (s.flag F.macsec_active p = true) ∧ ((s.port p).badAt = some t) ∧ (t + 1000000 ≤ s.clk.up + dt))
    ∧ (∃ (s : State) (dt : Nat) (p : Nat), (s.live = true) ∧ (s.jUp p = true) ∧ ((s.port p).lackAt + 4000 ≤ s.clk.up + dt) ∧ ((s.port p).replay ≠ []) ∧ ((s.port p).tries < 8))
    ∧ (∃ (s : State) (dt : Nat) (p : Nat), (s.live = true) ∧ (s.jUp p = true) ∧ ((s.port p).lackAt + 4000 ≤ s.clk.up + dt) ∧ ((s.port p).replay ≠ []) ∧ (8 ≤ (s.port p).tries))
    ∧ (∃ (s : State) (_dt : Nat) (p : Nat) (w : Nat) (n : Nat) (c : Nat) (f : Bytes), (s.live = true) ∧ (s.jUp p = true) ∧ (bitsOf w 8 8 = 0) ∧ (bitsOf w 48 16 = ((s.port p).rxSeq + 1) % 2 ^ 16) ∧ (32 ≤ f.length) ∧ (beAt f 0x1C 4 = crc32c (f.take 0x1C)) ∧ (n = fUnits f) ∧ (c = fClass f) ∧ (n ≤ (s.port p).room.getD c 0) ∧ (s.inPool = true))
    ∧ (∃ (s : State) (_dt : Nat) (p : Nat) (w : Nat) (_f : Bytes) (ok : Bool), (s.live = true) ∧ (s.jUp p = true) ∧ (bitsOf w 8 8 = 0) ∧ ((bitsOf w 48 16 ≠ ((s.port p).rxSeq + 1) % 2 ^ 16 ∨ ok = false)))
    ∧ (∃ (s : State) (p : Nat) (q : Nat) (f : Bytes) (g : Bytes) (h : Bytes) (re : Bool) (de : Bool), (s.live = true) ∧ (p < 12) ∧ ((classHeads (s.inbox p)).find? (fun f => fDst f ≠ s.devId) = some f) ∧ (beAt f 0x12 1 ≠ 0) ∧ (h = setHdr f 0x12 (beAt f 0x12 1 - 1)) ∧ (s.route (fSrc h) (fDst h) p (fRerouted h) = .port q re de) ∧ (g = (if fRerouted h = re then h else setFlagBit h 1 re)))
    ∧ (∃ (s : State) (p : Nat) (f : Bytes), (s.live = true) ∧ (p < 12) ∧ ((classHeads (s.inbox p)).find? (fun f => fDst f ≠ s.devId) = some f) ∧ (beAt f 0x12 1 = 0)) :=
  ⟨⟨(wJor PortSt.init).wr F.portStatus_state 0 1, 5, 1, by decide +kernel⟩,
   ⟨(wJor PortSt.init).wr F.portStatus_state 0 1, 100000000, 1, by decide +kernel⟩,
   ⟨wJor PortSt.init, 0, 7, 0, by decide +kernel⟩,
   ⟨(wJor PortSt.init).wr F.portStatus_state 1 1, 1, 2, 3, 4, 1, 1, 0, false, by decide +kernel⟩,
   ⟨(wJor PortSt.init).wr F.portStatus_state 3 1, 1, 2, 2, 5, 1, 1, 0, false, by decide +kernel⟩,
   ⟨(wJor { PortSt.init with badAt := some 0 }).wr F.macsec_active 1 0, 1000000, 0, 0, by decide +kernel⟩,
   ⟨wJor { PortSt.init with replay := [(5, [1, 2])] }, 4000, 0, by decide +kernel⟩,
   ⟨wJor { PortSt.init with replay := [(5, [1, 2])], tries := 8 }, 4000, 0, by decide +kernel⟩,
   ⟨wJor PortSt.init, 1, 0, 1 * 2 ^ 48 + 2 ^ 30 + 5 * 2 ^ 16, 1, 0, fr 1 1 1 0 [1, 2, 3], by decide +kernel⟩,
   ⟨wJor PortSt.init, 1, 0, 2 * 2 ^ 48, fr 1 1 1 0 [1, 2, 3], true, by decide +kernel⟩,
   ⟨wJor { PortSt.init with rx := [fr 3 1 1 0 [1, 2, 3]] }, 0, 0, fr 3 1 1 0 [1, 2, 3], setHdr (fr 3 1 1 0 [1, 2, 3]) 0x12 62, setHdr (fr 3 1 1 0 [1, 2, 3]) 0x12 62, false, false, by decide +kernel⟩,
   ⟨wJor { PortSt.init with rx := [setHdr (fr 3 1 1 0 [1]) 0x12 0] }, 0, setHdr (fr 3 1 1 0 [1]) 0x12 0, by decide +kernel⟩⟩

theorem witness_RemoteReadsAndWrites :
    (∃ (s : State) (v : State) (q : State) (p : Nat) (k : Nat) (ecc : Nat) (word : Nat) (f : Bytes), (s.takesRequest v p 1 f) ∧ (k = streamKey (fSrc f) (fMould f)) ∧ ((v.rxS k).dup (fSeq f) = false) ∧ (v.targetCheck f (qData f).length = 0) ∧ (v.access (fMould f) (qOff f) (qData f).length ecc word = (0, q)))
    ∧ (∃ (s : State) (v : State) (q : State) (p : Nat) (k : Nat) (ecc : Nat) (word : Nat) (f : Bytes), (s.takesRequest v p 3 f) ∧ (k = streamKey (fSrc f) (fMould f)) ∧ ((v.rxS k).dup (fSeq f) = false) ∧ (v.targetCheck f (qData f).length = 0) ∧ (v.access (fMould f) (qOff f) (qData f).length ecc word = (0, q)))
    ∧ (∃ (s : State) (v : State) (q : State) (p : Nat) (k : Nat) (c : Nat) (n : Nat) (ecc : Nat) (word : Nat) (f : Bytes), (s.takesRequest v p 1 f) ∧ (k = streamKey (fSrc f) (fMould f)) ∧ (v.targetCheck f (qData f).length = 0) ∧ (v.access (fMould f) (qOff f) (qData f).length ecc word = (0, q)) ∧ ((v.rxS k).above = []) ∧ (fSeq f = ((v.rxS k).cum + 1) % 2 ^ 32) ∧ ((v.rxS k).cum < 2 ^ 32) ∧ ((v.rxS k).refused = []) ∧ ((v.rxS k).adv < 7) ∧ (bit (qTok f) 5 = true) ∧ (v.mouldLive (fMould f) = true) ∧ (qCtx f < v.ctxCount (fMould f)) ∧ (v.tokenCluster (fMould f) (qOff f) = some c) ∧ (n = (beAt f 0x10 2 - 16) / 64) ∧ (v.tok c (fMould f) (qCtx f) (qTok f % 32) + n ≤ 65535))
    ∧ (∃ (s : State) (v : State) (p : Nat) (k : Nat) (_ecc : Nat) (_word : Nat) (f : Bytes), (s.takesRequest v p 1 f) ∧ (k = streamKey (fSrc f) (fMould f)) ∧ ((v.rxS k).dup (fSeq f) = true))
    ∧ (∃ (s : State) (v : State) (p : Nat) (k : Nat) (_ecc : Nat) (_word : Nat) (f : Bytes), (s.takesRequest v p 1 f) ∧ (k = streamKey (fSrc f) (fMould f)) ∧ ((v.rxS k).dup (fSeq f) = false) ∧ (v.targetCheck f (qData f).length ≠ 0))
    ∧ (∃ (s : State) (v : State) (p : Nat) (k : Nat) (_ecc : Nat) (_word : Nat) (f : Bytes), (s.takesRequest v p 3 f) ∧ (k = streamKey (fSrc f) (fMould f)) ∧ ((v.rxS k).dup (fSeq f) = true))
    ∧ (∃ (s : State) (v : State) (p : Nat) (k : Nat) (_ecc : Nat) (_word : Nat) (f : Bytes), (s.takesRequest v p 3 f) ∧ (k = streamKey (fSrc f) (fMould f)) ∧ ((v.rxS k).dup (fSeq f) = false) ∧ (v.targetCheck f (qData f).length ≠ 0))
    ∧ (∃ (s : State) (v : State) (q : State) (p : Nat) (ecc : Nat) (word : Nat) (f : Bytes), (s.takesRequest v p 2 f) ∧ (v.targetCheck f (qLen f) = 0) ∧ (v.access (fMould f) (qOff f) (qLen f) ecc word = (0, q)))
    ∧ (∃ (s : State) (v : State) (q : State) (p : Nat) (ecc : Nat) (word : Nat) (f : Bytes), (s.takesRequest v p 4 f) ∧ (v.targetCheck f (qLen f) = 0) ∧ (v.access (fMould f) (qOff f) (qLen f) ecc word = (0, q)))
    ∧ (∃ (s : State) (v : State) (p : Nat) (f : Bytes), (s.takesRequest v p 6 f) ∧ (v.targetCheck f (1) = 0)) :=
  ⟨⟨wRq (rq 1 1 0x200 0x24 64 0 (List.replicate 64 7#8)), ((wRq (rq 1 1 0x200 0x24 64 0 (List.replicate 64 7#8))).unbox 0 (rq 1 1 0x200 0x24 64 0 (List.replicate 64 7#8)) true), (((wRq (rq 1 1 0x200 0x24 64 0 (List.replicate 64 7#8))).unbox 0 (rq 1 1 0x200 0x24 64 0 (List.replicate 64 7#8)) true).access 1 (qOff (rq 1 1 0x200 0x24 64 0 (List.replicate 64 7#8))) 64 0 0).2, 0, streamKey 2 1, 0, 0, rq 1 1 0x200 0x24 64 0 (List.replicate 64 7#8), by decide +kernel⟩,
   ⟨wRq (rq 3 1 0x208 0 8 0 (List.replicate 8 7#8)), ((wRq (rq 3 1 0x208 0 8 0 (List.replicate 8 7#8))).unbox 0 (rq 3 1 0x208 0 8 0 (List.replicate 8 7#8)) true), (((wRq (rq 3 1 0x208 0 8 0 (List.replicate 8 7#8))).unbox 0 (rq 3 1 0x208 0 8 0 (List.replicate 8 7#8)) true).access 1 (qOff (rq 3 1 0x208 0 8 0 (List.replicate 8 7#8))) 8 0 0).2, 0, streamKey 2 1, 0, 0, rq 3 1 0x208 0 8 0 (List.replicate 8 7#8), by decide +kernel⟩,
   ⟨wRq (rq 1 1 0x200 0x24 64 0 (List.replicate 64 7#8)), ((wRq (rq 1 1 0x200 0x24 64 0 (List.replicate 64 7#8))).unbox 0 (rq 1 1 0x200 0x24 64 0 (List.replicate 64 7#8)) true), (((wRq (rq 1 1 0x200 0x24 64 0 (List.replicate 64 7#8))).unbox 0 (rq 1 1 0x200 0x24 64 0 (List.replicate 64 7#8)) true).access 1 (qOff (rq 1 1 0x200 0x24 64 0 (List.replicate 64 7#8))) 64 0 0).2, 0, streamKey 2 1, 2, 1, 0, 0, rq 1 1 0x200 0x24 64 0 (List.replicate 64 7#8), by decide +kernel⟩,
   ⟨(wRq (rq 1 1 0x200 0x24 64 0 (List.replicate 64 7#8))).setRx (streamKey 2 1) { RxStream.init with cum := 5 }, (((wRq (rq 1 1 0x200 0x24 64 0 (List.replicate 64 7#8))).setRx (streamKey 2 1) { RxStream.init with cum := 5 }).unbox 0 (rq 1 1 0x200 0x24 64 0 (List.replicate 64 7#8)) true), 0, streamKey 2 1, 0, 0, rq 1 1 0x200 0x24 64 0 (List.replicate 64 7#8), by decide +kernel⟩,
   ⟨wRq (rq 1 1 0x20000000 0x24 64 0 (List.replicate 64 7#8)), ((wRq (rq 1 1 0x20000000 0x24 64 0 (List.replicate 64 7#8))).unbox 0 (rq 1 1 0x20000000 0x24 64 0 (List.replicate 64 7#8)) true), 0, streamKey 2 1, 0, 0, rq 1 1 0x20000000 0x24 64 0 (List.replicate 64 7#8), by decide +kernel⟩,
   ⟨(wRq (rq 3 1 0x208 0 8 0 (List.replicate 8 7#8))).setRx (streamKey 2 1) { RxStream.init with cum := 5 }, (((wRq (rq 3 1 0x208 0 8 0 (List.replicate 8 7#8))).setRx (streamKey 2 1) { RxStream.init with cum := 5 }).unbox 0 (rq 3 1 0x208 0 8 0 (List.replicate 8 7#8)) true), 0, streamKey 2 1, 0, 0, rq 3 1 0x208 0 8 0 (List.replicate 8 7#8), by decide +kernel⟩,
   ⟨wRq (rq 3 1 0x20000008 0 8 0 (List.replicate 8 7#8)), ((wRq (rq 3 1 0x20000008 0 8 0 (List.replicate 8 7#8))).unbox 0 (rq 3 1 0x20000008 0 8 0 (List.replicate 8 7#8)) true), 0, streamKey 2 1, 0, 0, rq 3 1 0x20000008 0 8 0 (List.replicate 8 7#8), by decide +kernel⟩,
   ⟨wRq (rq 2 1 0x200 0 128 0 []), ((wRq (rq 2 1 0x200 0 128 0 [])).unbox 0 (rq 2 1 0x200 0 128 0 []) true), (((wRq (rq 2 1 0x200 0 128 0 [])).unbox 0 (rq 2 1 0x200 0 128 0 []) true).access 1 (qOff (rq 2 1 0x200 0 128 0 [])) 128 0 0).2, 0, 0, 0, rq 2 1 0x200 0 128 0 [], by decide +kernel⟩,
   ⟨wRq (rq 4 1 0x200 0 64 0 []), ((wRq (rq 4 1 0x200 0 64 0 [])).unbox 0 (rq 4 1 0x200 0 64 0 []) true), (((wRq (rq 4 1 0x200 0 64 0 [])).unbox 0 (rq 4 1 0x200 0 64 0 []) true).access 1 (qOff (rq 4 1 0x200 0 64 0 [])) 64 0 0).2, 0, 0, 0, rq 4 1 0x200 0 64 0 [], by decide +kernel⟩,
   ⟨wRq (rq 6 1 0x200 0 0 0 []), ((wRq (rq 6 1 0x200 0 0 0 [])).unbox 0 (rq 6 1 0x200 0 0 0 []) true), 0, rq 6 1 0x200 0 0 0 [], by decide +kernel⟩⟩

theorem witness_RemoteAtomicsOwnershipAndAcks :
    (∃ (s : State) (v : State) (q : State) (w : State) (p : Nat) (ecc : Nat) (word : Nat) (old : Nat) (f : Bytes) (g : Bytes), (s.takesRequest v p 5 f) ∧ (v.fab.cache.find? (fun e => e.key = replyKey f) = none) ∧ (v.targetCheck f (qLen f) = 0) ∧ (v.access (fMould f) (qOff f) (qLen f) ecc word = (0, q)) ∧ (q.replyRoom = true) ∧ (old = leNat (q.readMem (fMould f) (qOff f) (qLen f))) ∧ (w = (if atomicNew (qSub f) (qLen f) old (beAt f 0x30 8) (beAt f 0x38 8) = old then q else (q.writeMem (fMould f) (qOff f) (toLe (qLen f) (atomicNew (qSub f) (qLen f) old (beAt f 0x30 8) (beAt f 0x38 8)))).bumpAt (fMould f) (qOff f))) ∧ (g = q.newFrame (fSrc f) (fMould f) (fHeat f) 0x13 0 (fSeq f) 1 0 (toBe 8 old)))
    ∧ (∃ (s : State) (v : State) (p : Nat) (i : Nat) (f : Bytes) (g : Bytes), (s.takesRequest v p 7 f) ∧ (v.fab.cache.find? (fun e => e.key = replyKey f) = none) ∧ (v.targetCheck f 1 = 0) ∧ (v.replyRoom = true) ∧ (v.regionIdx (fMould f) (qOff f) = some i) ∧ (g = v.newFrame (fSrc f) (fMould f) (fHeat f) 0x15 0 (fSeq f) 1 0 (toBe 8 (Tab.get 0 v.owners (regionKey (fMould f) i)))))
    ∧ (∃ (s : State) (v : State) (p : Nat) (_ecc : Nat) (_word : Nat) (f : Bytes) (e : Reply), (s.takesRequest v p 5 f) ∧ (v.fab.cache.find? (fun e => e.key = replyKey f) = some e))
    ∧ (∃ (s : State) (v : State) (p : Nat) (f : Bytes) (e : Reply), (s.takesRequest v p 7 f) ∧ (v.fab.cache.find? (fun e => e.key = replyKey f) = some e))
    ∧ (∃ (s : State) (v : State) (p : Nat) (op : Nat) (f : Bytes), (s.live = true) ∧ (p ≤ 12) ∧ ((classHeads (s.inbox p)).find? (fun g => fDst g = s.devId && (!memoryOps.contains (fOp g) && !(0x20 ≤ fOp g && fOp g < 0x26) && fOp g ≠ 0x50 && fOp g ≠ 0x51)) = some f) ∧ (v = s.unbox p f true) ∧ (v.inPool = true) ∧ (fEpoch f = v.rd F.fabEpoch_value) ∧ (op = fOp f))
    ∧ (∃ (s : State) (dt : Nat) (dev : Nat) (m : Nat), (s.live = true) ∧ (m < 64) ∧ ((s.rxS (streamKey dev m)).adv ≠ 0) ∧ ((s.rxS (streamKey dev m)).advAt + 2000 ≤ s.clk.up + dt)) :=
  ⟨⟨wRq (rq 5 1 0x200 0 8 0 (toBe 8 3 ++ toBe 8 0)), ((wRq (rq 5 1 0x200 0 8 0 (toBe 8 3 ++ toBe 8 0))).unbox 0 (rq 5 1 0x200 0 8 0 (toBe 8 3 ++ toBe 8 0)) true), (((wRq (rq 5 1 0x200 0 8 0 (toBe 8 3 ++ toBe 8 0))).unbox 0 (rq 5 1 0x200 0 8 0 (toBe 8 3 ++ toBe 8 0)) true).access 1 (qOff (rq 5 1 0x200 0 8 0 (toBe 8 3 ++ toBe 8 0))) 8 0 0).2, (((((wRq (rq 5 1 0x200 0 8 0 (toBe 8 3 ++ toBe 8 0))).unbox 0 (rq 5 1 0x200 0 8 0 (toBe 8 3 ++ toBe 8 0)) true).access 1 (qOff (rq 5 1 0x200 0 8 0 (toBe 8 3 ++ toBe 8 0))) 8 0 0).2).writeMem 1 0x200 (toLe 8 3)).bumpAt 1 0x200, 0, 0, 0, 0, rq 5 1 0x200 0 8 0 (toBe 8 3 ++ toBe 8 0), ((((wRq (rq 5 1 0x200 0 8 0 (toBe 8 3 ++ toBe 8 0))).unbox 0 (rq 5 1 0x200 0 8 0 (toBe 8 3 ++ toBe 8 0)) true).access 1 (qOff (rq 5 1 0x200 0 8 0 (toBe 8 3 ++ toBe 8 0))) 8 0 0).2).newFrame 2 1 0 0x13 0 1 1 0 (toBe 8 0), by decide +kernel⟩,
   ⟨wRq (rq 7 1 0x200 0 0 0 (toBe 8 0)), ((wRq (rq 7 1 0x200 0 0 0 (toBe 8 0))).unbox 0 (rq 7 1 0x200 0 0 0 (toBe 8 0)) true), 0, 0, rq 7 1 0x200 0 0 0 (toBe 8 0), ((wRq (rq 7 1 0x200 0 0 0 (toBe 8 0))).unbox 0 (rq 7 1 0x200 0 0 0 (toBe 8 0)) true).newFrame 2 1 0 0x15 0 1 1 0 (toBe 8 0), by decide +kernel⟩,
   ⟨(wRq (rq 5 1 0x200 0 8 0 (toBe 8 3 ++ toBe 8 0))).storeReply (replyKey (rq 5 1 0x200 0 8 0 (toBe 8 3 ++ toBe 8 0))) (fr 2 0x13 1 1 (toBe 8 9)), (((wRq (rq 5 1 0x200 0 8 0 (toBe 8 3 ++ toBe 8 0))).storeReply (replyKey (rq 5 1 0x200 0 8 0 (toBe 8 3 ++ toBe 8 0))) (fr 2 0x13 1 1 (toBe 8 9))).unbox 0 (rq 5 1 0x200 0 8 0 (toBe 8 3 ++ toBe 8 0)) true), 0, 0, 0, rq 5 1 0x200 0 8 0 (toBe 8 3 ++ toBe 8 0), ⟨replyKey (rq 5 1 0x200 0 8 0 (toBe 8 3 ++ toBe 8 0)), fr 2 0x13 1 1 (toBe 8 9), 0⟩, by decide +kernel⟩,
   ⟨(wRq (rq 7 1 0x200 0 0 0 (toBe 8 0))).storeReply (replyKey (rq 7 1 0x200 0 0 0 (toBe 8 0))) (fr 2 0x13 1 1 (toBe 8 9)), (((wRq (rq 7 1 0x200 0 0 0 (toBe 8 0))).storeReply (replyKey (rq 7 1 0x200 0 0 0 (toBe 8 0))) (fr 2 0x13 1 1 (toBe 8 9))).unbox 0 (rq 7 1 0x200 0 0 0 (toBe 8 0)) true), 0, rq 7 1 0x200 0 0 0 (toBe 8 0), ⟨replyKey (rq 7 1 0x200 0 0 0 (toBe 8 0)), fr 2 0x13 1 1 (toBe 8 9), 0⟩, by decide +kernel⟩,
   ⟨wRq (fr 1 0x66 1 0 []), ((wRq (fr 1 0x66 1 0 [])).unbox 0 (fr 1 0x66 1 0 []) true), 0, 0x66, fr 1 0x66 1 0 [], by decide +kernel⟩,
   ⟨(wRq []).setRx (streamKey 2 1) { RxStream.init with cum := 5, adv := 2, advAt := 10 }, 3000, 2, 1, by decide +kernel⟩⟩

theorem witness_AnswersAtTheRequester :
    (∃ (s : State) (v : State) (p : Nat) (id : Nat) (f : Bytes) (o : ROp), (s.takesAnswer v p 0x12 5 id f o) ∧ (fStatus f = 0) ∧ ((fPay f).length ∈ [1, 2, 4, 8, 72]) ∧ (o.sub = 0))
    ∧ (∃ (s : State) (v : State) (p : Nat) (id : Nat) (f : Bytes) (o : ROp) (w : ThreadSt), (s.takesAnswer v p 0x12 5 id f o) ∧ (fStatus f = 0) ∧ ((fPay f).length = 72) ∧ (o.sub ≠ 0) ∧ (o.len = 64) ∧ (w = ((({ v.thread o.cluster o.thread with wait := .none } : ThreadSt).load64 o.rd ((fPay f).take 64)).code 0)))
    ∧ (∃ (s : State) (v : State) (p : Nat) (id : Nat) (f : Bytes) (o : ROp), (s.takesAnswer v p 0x13 7 id f o) ∧ (fStatus f = 0) ∧ ((fPay f).length = 8))
    ∧ (∃ (s : State) (v : State) (p : Nat) (id : Nat) (f : Bytes) (o : ROp), (s.takesAnswer v p 0x14 8 id f o) ∧ (fStatus f = 0) ∧ ((fPay f).length = 8) ∧ (beAt f 0x24 4 = 0))
    ∧ (∃ (s : State) (v : State) (p : Nat) (id : Nat) (f : Bytes) (o : ROp), (s.takesAnswer v p 0x15 9 id f o) ∧ (fStatus f = 0) ∧ ((fPay f).length = 8))
    ∧ (∃ (s : State) (v : State) (p : Nat) (kind : Nat) (id : Nat) (f : Bytes) (o : ROp), (s.takesAnswer v p 0x19 kind id f o) ∧ ((kind = 7 ∨ kind = 8 ∨ kind = 9)) ∧ (fPay f = []) ∧ (v.outstanding (fSrc f) (fMould f) (fSeq f) (fun k => decide (3 ≤ k) && decide (k ≤ 9)) = some id) ∧ ((v.thread o.cluster o.thread).fence = []) ∧ (fStatus f ≠ E.fabBusy) ∧ (fStatus f ≠ 0))
    ∧ (∃ (s : State) (v : State) (p : Nat) (kind : Nat) (id : Nat) (f : Bytes) (o : ROp), (s.takesAnswer v p 0x19 kind id f o) ∧ ((kind = 7 ∨ kind = 9)) ∧ (fPay f = []) ∧ (v.outstanding (fSrc f) (fMould f) (fSeq f) (fun k => decide (3 ≤ k) && decide (k ≤ 9)) = some id) ∧ (fStatus f = E.fabBusy))
    ∧ (∃ (s : State) (v : State) (p : Nat) (id : Nat) (f : Bytes) (o : ROp), (s.takesFrame v p 0x19 f) ∧ (headerOk f 1 = true) ∧ (fPay f = []) ∧ (fStatus f ≠ 0) ∧ (v.outstanding (fSrc f) (fMould f) (fSeq f) (fun k => decide (3 ≤ k) && decide (k ≤ 9)) = some id) ∧ (o = s.rop id) ∧ (o.kind = 6) ∧ (o.got = false) ∧ (o.fail = 0) ∧ (o.left = [fSeq f]) ∧ (o.len ≤ o.sent) ∧ (o.mould < 64) ∧ (o.cluster < 96) ∧ (o.thread < 16) ∧ (v.isSlag o.mould o.ctx o.heat o.quenches = false) ∧ (v.thrState o.cluster o.thread ≠ 0))
    ∧ (∃ (s : State) (v : State) (p : Nat) (k : Nat) (f : Bytes), (s.takesFrame v p 0x18 f) ∧ (headerOk f 1 = true) ∧ (fPay f = []) ∧ (k = streamKey (fSrc f) (fMould f)) ∧ (0 < sext 32 (fSeq f + 2 ^ 32 - (v.txS k).acked)) ∧ (0 ≤ sext 32 ((v.txS k).seq + 2 ^ 32 - fSeq f)) ∧ (v.fab.ops.all (fun e => e.2.dev ≠ fSrc f || e.2.mould ≠ fMould f || (e.2.kind ≠ 3 && e.2.kind ≠ 6)) = true) ∧ (v.fab.ops.all (fun e => v.rop e.1 = e.2) = true))
    ∧ (∃ (s : State) (v : State) (p : Nat) (k : Nat) (id : Nat) (f : Bytes) (o : ROp), (s.takesFrame v p 0x18 f) ∧ (headerOk f 1 = true) ∧ (fPay f = []) ∧ (k = streamKey (fSrc f) (fMould f)) ∧ (0 < sext 32 (fSeq f + 2 ^ 32 - (v.txS k).acked)) ∧ (0 ≤ sext 32 ((v.txS k).seq + 2 ^ 32 - fSeq f)) ∧ (v.fab.ops = [(id, o)]) ∧ (o.kind = 6) ∧ (o.dev = fSrc f) ∧ (o.mould = fMould f) ∧ (o.got = false) ∧ (o.fail = 0) ∧ (0 < o.sends) ∧ (o.left = [fSeq f]) ∧ (o.len ≤ o.sent) ∧ (o.cluster < 96) ∧ (o.thread < 16) ∧ (v.isSlag o.mould o.ctx o.heat o.quenches = false))
    ∧ (∃ (s : State) (v : State) (p : Nat) (f : Bytes), (s.takesFrame v p 0x18 f) ∧ (headerOk f 1 = true) ∧ (fPay f = []) ∧ (sext 32 (fSeq f + 2 ^ 32 - (v.txS (streamKey (fSrc f) (fMould f))).acked) ≤ 0))
    ∧ (∃ (s : State) (v : State) (q : State) (p : Nat) (id : Nat) (sub : Nat) (f : Bytes) (d : Bytes) (o : ROp), (s.takesFrame v p 0x11 f) ∧ (headerOk f 1 = true) ∧ (fStatus f = 0) ∧ (v.outstanding (fSrc f) (fMould f) (fSeq f) (fun k => k = 4) = some id) ∧ (o = s.rop id) ∧ (o.kind = 4) ∧ (o.got = false) ∧ (v.isSlag o.mould o.ctx (fHeat f) o.quenches = false) ∧ (fFlags f / 16 = o.attempt) ∧ (d = (fPay f).drop 16) ∧ (sub = beAt f 0x20 4) ∧ (16 < (fPay f).length) ∧ ((fPay f).length ≤ 4112) ∧ (d.length % 64 = 0) ∧ (sub % 64 = 0) ∧ (beAt f 0x2E 2 = 0) ∧ (sub + d.length ≤ o.len) ∧ (o.landed = []) ∧ (d.length < o.len) ∧ (q = v.writeMem o.mould (o.near + sub) d))
    ∧ (∃ (s : State) (v : State) (q : State) (w : State) (p : Nat) (id : Nat) (code : Nat) (f : Bytes) (d : Bytes) (o : ROp) (g : ROp), (s.takesFrame v p 0x11 f) ∧ (headerOk f 1 = true) ∧ (fStatus f = 0) ∧ (v.outstanding (fSrc f) (fMould f) (fSeq f) (fun k => k = 4) = some id) ∧ (o = s.rop id) ∧ (o.kind = 4) ∧ (o.got = false) ∧ (o.fail = 0) ∧ (o.thread = 16) ∧ (o.mould < 64) ∧ (v.isSlag o.mould o.ctx (fHeat f) o.quenches = false) ∧ (fFlags f / 16 = o.attempt) ∧ (d = (fPay f).drop 16) ∧ (beAt f 0x20 4 = 0) ∧ (16 < (fPay f).length) ∧ ((fPay f).length ≤ 4112) ∧ (d.length % 64 = 0) ∧ (beAt f 0x2E 2 = 0) ∧ (d.length = o.len) ∧ (o.landed = []) ∧ (bit (fFlags f) 3 = true) ∧ (q = v.writeMem o.mould o.near d) ∧ (code = (if bit (beAt f 0x2C 2) 1 then E.fabTorn else 0)) ∧ (g = { o with landed := List.range (d.length / 64), v0 := beAt f 0x24 4, v1 := beAt f 0x28 4, gflags := beAt f 0x2C 2 % 4 }) ∧ (w = q.writeMem o.mould (o.near + o.len) (getTrailer g code)))
    ∧ (∃ (s : State) (v : State) (p : Nat) (id : Nat) (f : Bytes) (o : ROp), (s.takesFrame v p 0x11 f) ∧ (headerOk f 1 = true) ∧ (80 ≤ (fPay f).length) ∧ ((fPay f).length ≤ 4112) ∧ ((fPay f).length % 64 = 16) ∧ (beAt f 0x20 4 % 64 = 0) ∧ (beAt f 0x2E 2 = 0) ∧ (v.outstanding (fSrc f) (fMould f) (fSeq f) (fun k => k = 4) = some id) ∧ (o = s.rop id) ∧ (v.isSlag o.mould o.ctx (fHeat f) o.quenches = false) ∧ (fFlags f / 16 ≠ o.attempt)) :=
  ⟨⟨wAns ({ mkOp 5 4 0 with tok := 1 }) (frS 0x12 4 1 0 0 [0xF0, 0xFF, 0xFF, 0xFF]), (wAns ({ mkOp 5 4 0 with tok := 1 }) (frS 0x12 4 1 0 0 [0xF0, 0xFF, 0xFF, 0xFF])).unbox 0 (frS 0x12 4 1 0 0 [0xF0, 0xFF, 0xFF, 0xFF]) true, 0, 5, frS 0x12 4 1 0 0 [0xF0, 0xFF, 0xFF, 0xFF], { mkOp 5 4 0 with tok := 1 }, by decide +kernel⟩,
   ⟨wAns (mkOp 5 64 1) (frS 0x12 4 1 0 0 (List.replicate 64 7#8 ++ toBe 8 77)), (wAns (mkOp 5 64 1) (frS 0x12 4 1 0 0 (List.replicate 64 7#8 ++ toBe 8 77))).unbox 0 (frS 0x12 4 1 0 0 (List.replicate 64 7#8 ++ toBe 8 77)) true, 0, 5, frS 0x12 4 1 0 0 (List.replicate 64 7#8 ++ toBe 8 77), mkOp 5 64 1, ((({ ((wAns (mkOp 5 64 1) (frS 0x12 4 1 0 0 (List.replicate 64 7#8 ++ toBe 8 77))).unbox 0 (frS 0x12 4 1 0 0 (List.replicate 64 7#8 ++ toBe 8 77)) true).thread 2 3 with wait := .none } : ThreadSt).load64 7 (List.replicate 64 7#8)).code 0), by decide +kernel⟩,
   ⟨wAns (mkOp 7 8 0) (frS 0x13 4 1 0 0 (toBe 8 258)), (wAns (mkOp 7 8 0) (frS 0x13 4 1 0 0 (toBe 8 258))).unbox 0 (frS 0x13 4 1 0 0 (toBe 8 258)) true, 0, 5, frS 0x13 4 1 0 0 (toBe 8 258), mkOp 7 8 0, by decide +kernel⟩,
   ⟨wAns (mkOp 8 8 0) (frS 0x14 4 1 0 0 (toBe 4 258 ++ toBe 4 0)), (wAns (mkOp 8 8 0) (frS 0x14 4 1 0 0 (toBe 4 258 ++ toBe 4 0))).unbox 0 (frS 0x14 4 1 0 0 (toBe 4 258 ++ toBe 4 0)) true, 0, 5, frS 0x14 4 1 0 0 (toBe 4 258 ++ toBe 4 0), mkOp 8 8 0, by decide +kernel⟩,
   ⟨wAns (mkOp 9 8 0) (frS 0x15 4 1 0 0 (toBe 8 258)), (wAns (mkOp 9 8 0) (frS 0x15 4 1 0 0 (toBe 8 258))).unbox 0 (frS 0x15 4 1 0 0 (toBe 8 258)) true, 0, 5, frS 0x15 4 1 0 0 (toBe 8 258), mkOp 9 8 0, by decide +kernel⟩,
   ⟨wAns (mkOp 8 8 0) (frS 0x19 4 1 0x1102 0 []), (wAns (mkOp 8 8 0) (frS 0x19 4 1 0x1102 0 [])).unbox 0 (frS 0x19 4 1 0x1102 0 []) true, 0, 8, 5, frS 0x19 4 1 0x1102 0 [], mkOp 8 8 0, by decide +kernel⟩,
   ⟨wAns (mkOp 9 8 0) (frS 0x19 4 1 E.fabBusy 0 []), (wAns (mkOp 9 8 0) (frS 0x19 4 1 E.fabBusy 0 [])).unbox 0 (frS 0x19 4 1 E.fabBusy 0 []) true, 0, 9, 5, frS 0x19 4 1 E.fabBusy 0 [], mkOp 9 8 0, by decide +kernel⟩,
   ⟨wAns (mkOp 6 8 0) (frS 0x19 4 1 0x1102 0 []), (wAns (mkOp 6 8 0) (frS 0x19 4 1 0x1102 0 [])).unbox 0 (frS 0x19 4 1 0x1102 0 []) true, 0, 5, frS 0x19 4 1 0x1102 0 [], mkOp 6 8 0, by decide +kernel⟩,
   ⟨wAns (mkOp 7 8 0) (frS 0x18 3 1 0 0 []), (wAns (mkOp 7 8 0) (frS 0x18 3 1 0 0 [])).unbox 0 (frS 0x18 3 1 0 0 []) true, 0, streamKey 2 1, frS 0x18 3 1 0 0 [], by decide +kernel⟩,
   ⟨wAns (mkOp 6 8 0) (frS 0x18 4 1 0 0 []), (wAns (mkOp 6 8 0) (frS 0x18 4 1 0 0 [])).unbox 0 (frS 0x18 4 1 0 0 []) true, 0, streamKey 2 1, 5, frS 0x18 4 1 0 0 [], mkOp 6 8 0, by decide +kernel⟩,
   ⟨wAns (mkOp 6 8 0) (frS 0x18 2 1 0 0 []), (wAns (mkOp 6 8 0) (frS 0x18 2 1 0 0 [])).unbox 0 (frS 0x18 2 1 0 0 []) true, 0, frS 0x18 2 1 0 0 [], by decide +kernel⟩,
   ⟨wAns ({ mkOp 4 128 0 with thread := 16 }) (frS 0x11 4 1 0 4 (toBe 4 0 ++ toBe 4 9 ++ toBe 4 0 ++ toBe 4 0 ++ List.replicate 64 7#8)), (wAns ({ mkOp 4 128 0 with thread := 16 }) (frS 0x11 4 1 0 4 (toBe 4 0 ++ toBe 4 9 ++ toBe 4 0 ++ toBe 4 0 ++ List.replicate 64 7#8))).unbox 0 (frS 0x11 4 1 0 4 (toBe 4 0 ++ toBe 4 9 ++ toBe 4 0 ++ toBe 4 0 ++ List.replicate 64 7#8)) true, (((wAns ({ mkOp 4 128 0 with thread := 16 }) (frS 0x11 4 1 0 4 (toBe 4 0 ++ toBe 4 9 ++ toBe 4 0 ++ toBe 4 0 ++ List.replicate 64 7#8))).unbox 0 (frS 0x11 4 1 0 4 (toBe 4 0 ++ toBe 4 9 ++ toBe 4 0 ++ toBe 4 0 ++ List.replicate 64 7#8)) true).writeMem ({ mkOp 4 128 0 with thread := 16 } : ROp).mould (({ mkOp 4 128 0 with thread := 16 } : ROp).near + (0 : Nat)) (List.replicate 64 7#8 : Bytes)), 0, 5, 0, frS 0x11 4 1 0 4 (toBe 4 0 ++ toBe 4 9 ++ toBe 4 0 ++ toBe 4 0 ++ List.replicate 64 7#8), List.replicate 64 7#8, { mkOp 4 128 0 with thread := 16 }, by decide +kernel, by decide +kernel, by decide +kernel, by decide +kernel, by decide +kernel, by decide +kernel, by decide +kernel, by decide +kernel, by decide +kernel, by decide +kernel, by decide +kernel, by decide +kernel, by decide +kernel, by decide +kernel, by decide +kernel, by decide +kernel, by decide +kernel, by decide +kernel, by decide +kernel, rfl⟩,
   ⟨wAns ({ mkOp 4 64 0 with thread := 16 }) (frS 0x11 4 1 0 12 (toBe 4 0 ++ toBe 4 9 ++ toBe 4 9 ++ toBe 2 3 ++ toBe 2 0 ++ List.replicate 64 7#8)), (wAns ({ mkOp 4 64 0 with thread := 16 }) (frS 0x11 4 1 0 12 (toBe 4 0 ++ toBe 4 9 ++ toBe 4 9 ++ toBe 2 3 ++ toBe 2 0 ++ List.replicate 64 7#8))).unbox 0 (frS 0x11 4 1 0 12 (toBe 4 0 ++ toBe 4 9 ++ toBe 4 9 ++ toBe 2 3 ++ toBe 2 0 ++ List.replicate 64 7#8)) true, (((wAns ({ mkOp 4 64 0 with thread := 16 }) (frS 0x11 4 1 0 12 (toBe 4 0 ++ toBe 4 9 ++ toBe 4 9 ++ toBe 2 3 ++ toBe 2 0 ++ List.replicate 64 7#8))).unbox 0 (frS 0x11 4 1 0 12 (toBe 4 0 ++ toBe 4 9 ++ toBe 4 9 ++ toBe 2 3 ++ toBe 2 0 ++ List.replicate 64 7#8)) true).writeMem ({ mkOp 4 64 0 with thread := 16 } : ROp).mould ({ mkOp 4 64 0 with thread := 16 } : ROp).near (List.replicate 64 7#8 : Bytes)), (((((wAns ({ mkOp 4 64 0 with thread := 16 }) (frS 0x11 4 1 0 12 (toBe 4 0 ++ toBe 4 9 ++ toBe 4 9 ++ toBe 2 3 ++ toBe 2 0 ++ List.replicate 64 7#8))).unbox 0 (frS 0x11 4 1 0 12 (toBe 4 0 ++ toBe 4 9 ++ toBe 4 9 ++ toBe 2 3 ++ toBe 2 0 ++ List.replicate 64 7#8)) true).writeMem ({ mkOp 4 64 0 with thread := 16 } : ROp).mould ({ mkOp 4 64 0 with thread := 16 } : ROp).near (List.replicate 64 7#8 : Bytes))).writeMem ({ mkOp 4 64 0 with thread := 16 } : ROp).mould (({ mkOp 4 64 0 with thread := 16 } : ROp).near + ({ mkOp 4 64 0 with thread := 16 } : ROp).len) (getTrailer ({ mkOp 4 64 0 with thread := 16, landed := [0], v0 := 9, v1 := 9, gflags := 3 } : ROp) (E.fabTorn : Nat))), 0, 5, E.fabTorn, frS 0x11 4 1 0 12 (toBe 4 0 ++ toBe 4 9 ++ toBe 4 9 ++ toBe 2 3 ++ toBe 2 0 ++ List.replicate 64 7#8), List.replicate 64 7#8, { mkOp 4 64 0 with thread := 16 }, { mkOp 4 64 0 with thread := 16, landed := [0], v0 := 9, v1 := 9, gflags := 3 }, by decide +kernel, by decide +kernel, by decide +kernel, by decide +kernel, by decide +kernel, by decide +kernel, by decide +kernel, by decide +kernel, by decide +kernel, by decide +kernel, by decide +kernel, by decide +kernel, by decide +kernel, by decide +kernel, by decide +kernel, by decide +kernel, by decide +kernel, by decide +kernel, by decide +kernel, by decide +kernel, by decide +kernel, rfl, by decide +kernel, by decide +kernel, rfl⟩,
   ⟨wAns ({ mkOp 4 64 0 with thread := 16 }) (frS 0x11 4 1 0 (16 + 12) (toBe 4 0 ++ toBe 4 9 ++ toBe 4 9 ++ toBe 2 3 ++ toBe 2 0 ++ List.replicate 64 7#8)), (wAns ({ mkOp 4 64 0 with thread := 16 }) (frS 0x11 4 1 0 (16 + 12) (toBe 4 0 ++ toBe 4 9 ++ toBe 4 9 ++ toBe 2 3 ++ toBe 2 0 ++ List.replicate 64 7#8))).unbox 0 (frS 0x11 4 1 0 (16 + 12) (toBe 4 0 ++ toBe 4 9 ++ toBe 4 9 ++ toBe 2 3 ++ toBe 2 0 ++ List.replicate 64 7#8)) true, 0, 5, frS 0x11 4 1 0 (16 + 12) (toBe 4 0 ++ toBe 4 9 ++ toBe 4 9 ++ toBe 2 3 ++ toBe 2 0 ++ List.replicate 64 7#8), { mkOp 4 64 0 with thread := 16 }, by decide +kernel⟩⟩

theorem witness_RemoteRetriesAndTimeouts :
    (∃ (s : State) (w : State) (dt : Nat) (dev : Nat) (m : Nat) (seq : Nat) (k : Nat) (att : Nat) (e : TxFrame) (o : ROp) (f : Bytes) (pay : Bytes), (s.live = true) ∧ (w = s.pass dt) ∧ (k = streamKey dev m) ∧ ((s.txS k).out.find? (fun e => e.seq = seq) = some e) ∧ (o = s.rop e.op) ∧ (e.at_ + 100000 ≤ s.clk.up + dt) ∧ (o.got = false) ∧ (o.kind ≠ 7) ∧ (o.kind ≠ 9) ∧ (att = (if o.kind = 4 then (o.attempt + 1) % 16 else o.attempt)) ∧ (pay = (if o.kind = 3 then w.putPay o (beAt e.frame 0x2C 4) ((fPay e.frame).length - 16) else fPay e.frame)) ∧ (f = w.newFrame dev m (fHeat e.frame) (fOp e.frame) ((fFlags e.frame % 16 ||| 1) + 16 * att) seq 0 0 pay))
    ∧ (∃ (s : State) (w : State) (dt : Nat) (id : Nat) (o : ROp) (f : Bytes), (s.live = true) ∧ (w = s.pass dt) ∧ (o = s.rop id) ∧ ((o.kind = 7 ∨ o.kind = 9)) ∧ (o.got = false) ∧ (o.sends < 4) ∧ (o.firstAt + 100000 * o.sends ≤ s.clk.up + dt) ∧ (f = w.newFrame o.dev o.mould o.heat (if o.kind = 7 then 5 else 7) 13 o.first 0 0 o.args))
    ∧ (∃ (s : State) (dt : Nat) (id : Nat) (o : ROp), (s.live = true) ∧ (o = s.rop id) ∧ ((o.kind = 7 ∨ o.kind = 9)) ∧ (o.got = false) ∧ (o.firstAt + 400000 ≤ s.clk.up + dt) ∧ (o.sends ≤ o.busy) ∧ (o.fail = 0) ∧ (o.mould < 64) ∧ (o.cluster < 96) ∧ (o.thread < 16) ∧ ((s.thread o.cluster o.thread).wait = .remote id) ∧ ((s.thread o.cluster o.thread).fence = []))
    ∧ (∃ (s : State) (dt : Nat) (id : Nat) (o : ROp), (s.live = true) ∧ (o = s.rop id) ∧ ((o.kind = 7 ∨ o.kind = 9)) ∧ (o.got = false) ∧ (o.firstAt + 400000 ≤ s.clk.up + dt) ∧ (o.busy < o.sends) ∧ (o.fail = 0) ∧ (o.mould < 64) ∧ (o.cluster < 96) ∧ (o.thread < 16) ∧ ((s.thread o.cluster o.thread).wait = .remote id) ∧ ((s.thread o.cluster o.thread).fence = []) ∧ (s.logRoom 1))
    ∧ (∃ (s : State) (dt : Nat) (id : Nat) (o : ROp), (s.live = true) ∧ (o = s.rop id) ∧ ((o.kind = 7 ∨ o.kind = 8 ∨ o.kind = 9)) ∧ (o.got = false) ∧ (0 < o.sends) ∧ (o.firstAt + 1000 * max 500 (s.rd F.fabCtrl_opTimeoutUs) ≤ s.clk.up + dt) ∧ (o.mould < 64) ∧ (o.cluster < 96) ∧ (o.thread < 16) ∧ (s.isSlag o.mould o.ctx o.heat o.quenches = false) ∧ ((s.thread o.cluster o.thread).wait = .remote id) ∧ ((s.thread o.cluster o.thread).fence = []) ∧ (s.logRoom 1))
    ∧ (∃ (s : State) (dt : Nat) (id : Nat) (o : ROp), (s.live = true) ∧ (o = s.rop id) ∧ (o.kind = 5) ∧ (o.sub = 0) ∧ (o.got = false) ∧ (0 < o.sends) ∧ (o.firstAt + 1000 * max 500 (s.rd F.fabCtrl_opTimeoutUs) ≤ s.clk.up + dt) ∧ (o.mould < 64) ∧ (o.cluster < 96) ∧ (o.thread < 16) ∧ (s.isSlag o.mould o.ctx o.heat o.quenches = false) ∧ ((s.thread o.cluster o.thread).wait = .remote id) ∧ (s.mstate (s.rd F.thrStatus_mould o.cluster o.thread) ≠ 5) ∧ (s.flag F.thrStatus_ctxFault o.cluster o.thread = false))
    ∧ (∃ (s : State) (dt : Nat) (id : Nat) (o : ROp), (s.live = true) ∧ (o = s.rop id) ∧ (o.kind = 3) ∧ (o.thread = 16) ∧ (o.got = false) ∧ (0 < o.sends) ∧ (o.firstAt + 1000 * max 500 (s.rd F.fabCtrl_opTimeoutUs) ≤ s.clk.up + dt) ∧ (o.mould < 64) ∧ (o.cluster < 96) ∧ (s.isSlag o.mould o.ctx o.heat o.quenches = false) ∧ (s.logRoom 1)) :=
  ⟨⟨(wAns (mkOp 4 64 0) []).setTx (streamKey 2 1) ⟨4, 2, [⟨3, 9, 0, fr 2 3 3 0 []⟩, ⟨4, 5, 0, rq 2 4 0x240 0 64 0 []⟩], []⟩, ((wAns (mkOp 4 64 0) []).setTx (streamKey 2 1) ⟨4, 2, [⟨3, 9, 0, fr 2 3 3 0 []⟩, ⟨4, 5, 0, rq 2 4 0x240 0 64 0 []⟩], []⟩).pass 200000, 200000, 2, 1, 4, streamKey 2 1, 1, ⟨4, 5, 0, rq 2 4 0x240 0 64 0 []⟩, mkOp 4 64 0, (((wAns (mkOp 4 64 0) []).setTx (streamKey 2 1) ⟨4, 2, [⟨3, 9, 0, fr 2 3 3 0 []⟩, ⟨4, 5, 0, rq 2 4 0x240 0 64 0 []⟩], []⟩).pass 200000).newFrame 2 1 0 2 (13 + 16) 4 0 0 (fPay (rq 2 4 0x240 0 64 0 [])), fPay (rq 2 4 0x240 0 64 0 []), by decide +kernel⟩,
   ⟨wAns ({ mkOp 7 8 0 with args := reqHdr 0x240 0 0 false 8 0 ++ toBe 8 3 }) [], (wAns ({ mkOp 7 8 0 with args := reqHdr 0x240 0 0 false 8 0 ++ toBe 8 3 }) []).pass 100000, 100000, 5, { mkOp 7 8 0 with args := reqHdr 0x240 0 0 false 8 0 ++ toBe 8 3 }, ((wAns ({ mkOp 7 8 0 with args := reqHdr 0x240 0 0 false 8 0 ++ toBe 8 3 }) []).pass 100000).newFrame 2 1 0 5 13 4 0 0 (reqHdr 0x240 0 0 false 8 0 ++ toBe 8 3), by decide +kernel⟩,
   ⟨wAns ({ mkOp 7 8 0 with sends := 4, busy := 4 }) [], 400000, 5, { mkOp 7 8 0 with sends := 4, busy := 4 }, by decide +kernel⟩,
   ⟨wAns ({ mkOp 9 8 0 with sends := 4, busy := 3 }) [], 400000, 5, { mkOp 9 8 0 with sends := 4, busy := 3 }, by decide +kernel⟩,
   ⟨wAns (mkOp 8 8 0) [], 2000000, 5, mkOp 8 8 0, by decide +kernel⟩,
   ⟨wAns (mkOp 5 8 0) [], 2000000, 5, mkOp 5 8 0, by decide +kernel⟩,
   ⟨wAns ({ mkOp 3 64 0 with thread := 16 }) [], 2000000, 5, { mkOp 3 64 0 with thread := 16 }, by decide +kernel⟩⟩

theorem witness_CollectiveGroups :
    (∃ (s : State) (r : MReq) (rest : List MReq) (g : Nat) (i : Nat), (s.serves 0x0030 r rest) ∧ (s.groupAdmit r.body = 0) ∧ ((List.range 256).find? (fun g => s.rd F.collG_state g = 0) = some g) ∧ (s.freeEntry = some i) ∧ (1 < (groupEntOf r.body).members.length))
    ∧ (∃ (s : State) (r : MReq) (rest : List MReq) (g : Nat), (s.serves 0x0031 r rest) ∧ (r.body.length = 2) ∧ (s.grpOf (leAt r.body 0 2) = some g) ∧ ((s.grp g).cur = none) ∧ ((s.grp g).setup = none))
    ∧ (∃ (s : State) (r : MReq) (rest : List MReq) (g : Nat), (s.serves 0x0032 r rest) ∧ (r.body.length = 2) ∧ (s.grpOf (leAt r.body 0 2) = some g) ∧ (s.rd F.collG_state g = 3) ∧ (1 < (s.grpEnt g).members.length))
    ∧ (∃ (s : State) (v : State) (p : Nat) (g : Nat) (i : Nat) (o : Nat) (f : Bytes), (s.takesColl v p 0x20 g i f) ∧ (cData f = helloDigest (v.grp g).entry) ∧ (v.rd F.collG_state g = 1) ∧ ((v.others g).all (fun j => decide (j = i) || (v.grp g).hellos.contains j) = true) ∧ ((v.grp g).setup = some o) ∧ (o < 256))
    ∧ (∃ (s : State) (v : State) (p : Nat) (g : Nat) (i : Nat) (j : Nat) (f : Bytes), (s.takesColl v p 0x20 g i f) ∧ (cData f = helloDigest (v.grp g).entry) ∧ (v.rd F.collG_state g = 1) ∧ ((v.others g).contains j = true) ∧ (j ≠ i) ∧ ((v.grp g).hellos.contains j = false))
    ∧ (∃ (s : State) (v : State) (p : Nat) (g : Nat) (i : Nat) (f : Bytes), (s.takesColl v p 0x20 g i f) ∧ (cData f ≠ helloDigest (v.grp g).entry) ∧ (v.logRoom 1))
    ∧ (∃ (s : State) (v : State) (p : Nat) (g : Nat) (i : Nat) (f : Bytes), (s.takesColl v p 0x20 g i f) ∧ (cData f = helloDigest (v.grp g).entry) ∧ (v.rd F.collG_state g = 2))
    ∧ (∃ (s : State) (v : State) (p : Nat) (g : Nat) (i : Nat) (f : Bytes), (s.takesFrame v p 0x20 f) ∧ (collOk f 0x20 = true) ∧ (v.groupIdx.find? (fun g => v.rd F.collG_handle g = cHandle f && v.rd F.collG_mould g = fMould f) = some g) ∧ ((v.grpEnt g).members.findIdx? (· = fSrc f) = some i) ∧ (sext 16 (cGen f + 2 ^ 16 - v.rd F.collG_generation g) < 0))
    ∧ (∃ (s : State) (dt : Nat) (g : Nat), (s.live = true) ∧ (g < 256) ∧ (s.rd F.collG_state g = 1) ∧ ((s.grp g).helloAt + 1000000 ≤ s.clk.up + dt))
    ∧ (∃ (s : State) (dt : Nat) (g : Nat) (o : Nat), (s.live = true) ∧ (g < 256) ∧ (s.rd F.collG_state g = 1) ∧ ((s.grp g).setup = some o) ∧ (o < 256) ∧ ((s.grp g).setAt + 100000000 ≤ s.clk.up + dt))
    ∧ (∃ (s : State) (dt : Nat) (g : Nat) (c : CollOp), (s.live = true) ∧ (g < 256) ∧ ((s.rd F.collG_state g = 1 ∨ s.rd F.collG_state g = 2)) ∧ ((s.grp g).cur = some c) ∧ (c.beganAt + 1000 * (s.grpEnt g).timeoutUs ≤ s.clk.up + dt))
    ∧ (∃ (s : State) (v : State) (p : Nat) (g : Nat) (i : Nat) (f : Bytes) (c : CollOp), (s.takesColl v p 0x25 g i f) ∧ ((v.rd F.collG_state g = 1 ∨ v.rd F.collG_state g = 2)) ∧ ((v.grp g).cur = some c))
    ∧ (∃ (s : State) (_dt : Nat), s.live = true) :=
  ⟨⟨withReq ({ wJor PortSt.init with oper := some ⟨[], [(0x20, [1, 1, 2, 0, 8, 0, 32, 0] ++ List.replicate 72 0#8)], 0, 0⟩ }) 0x30 (grpE 0 3 0 [1, 2]), reqOf 0x30 (grpE 0 3 0 [1, 2]), [], 0, 0, by decide +kernel⟩,
   ⟨withReq (wColl 1 ({ GroupSt.init with entry := grpE 0 3 0 [1, 2] }) ([])) 0x31 [9, 0], reqOf 0x31 ([9, 0]), [], 0, by decide +kernel⟩,
   ⟨withReq (wColl 3 ({ GroupSt.init with entry := grpE 0 3 0 [1, 2], opSeq := 4 }) ([])) 0x32 [9, 0], reqOf 0x32 ([9, 0]), [], 0, by decide +kernel⟩,
   ⟨(let s := wColl 1 ({ GroupSt.init with entry := grpE 0 3 0 [1, 2], setup := some 3 }) (cFr 0x20 0 0 0 0 0 (helloDigest (grpE 0 3 0 [1, 2]))); s.setOp 3 ⟨3, 0x30, 1, 8, 0, 1, 0, 0, 0, .group 9, 0, 0⟩), ((let s := wColl 1 ({ GroupSt.init with entry := grpE 0 3 0 [1, 2], setup := some 3 }) (cFr 0x20 0 0 0 0 0 (helloDigest (grpE 0 3 0 [1, 2]))); s.setOp 3 ⟨3, 0x30, 1, 8, 0, 1, 0, 0, 0, .group 9, 0, 0⟩)).unbox 0 (cFr 0x20 0 0 0 0 0 (helloDigest (grpE 0 3 0 [1, 2]))) true, 0, 0, 1, 3, cFr 0x20 0 0 0 0 0 (helloDigest (grpE 0 3 0 [1, 2])), by decide +kernel⟩,
   ⟨wColl 1 ({ GroupSt.init with entry := grpE 0 3 0 [1, 2, 3] }) (cFr 0x20 0 0 0 0 0 (helloDigest (grpE 0 3 0 [1, 2, 3]))), (wColl 1 ({ GroupSt.init with entry := grpE 0 3 0 [1, 2, 3] }) (cFr 0x20 0 0 0 0 0 (helloDigest (grpE 0 3 0 [1, 2, 3])))).unbox 0 (cFr 0x20 0 0 0 0 0 (helloDigest (grpE 0 3 0 [1, 2, 3]))) true, 0, 0, 1, 2, cFr 0x20 0 0 0 0 0 (helloDigest (grpE 0 3 0 [1, 2, 3])), by decide +kernel⟩,
   ⟨wColl 1 ({ GroupSt.init with entry := grpE 0 3 0 [1, 2] }) (cFr 0x20 0 0 0 0 0 (List.replicate 8 1#8)), (wColl 1 ({ GroupSt.init with entry := grpE 0 3 0 [1, 2] }) (cFr 0x20 0 0 0 0 0 (List.replicate 8 1#8))).unbox 0 (cFr 0x20 0 0 0 0 0 (List.replicate 8 1#8)) true, 0, 0, 1, cFr 0x20 0 0 0 0 0 (List.replicate 8 1#8), by decide +kernel⟩,
   ⟨wColl 2 ({ GroupSt.init with entry := grpE 0 3 0 [1, 2] }) (cFr 0x20 0 0 0 0 0 (helloDigest (grpE 0 3 0 [1, 2]))), (wColl 2 ({ GroupSt.init with entry := grpE 0 3 0 [1, 2] }) (cFr 0x20 0 0 0 0 0 (helloDigest (grpE 0 3 0 [1, 2])))).unbox 0 (cFr 0x20 0 0 0 0 0 (helloDigest (grpE 0 3 0 [1, 2]))) true, 0, 0, 1, cFr 0x20 0 0 0 0 0 (helloDigest (grpE 0 3 0 [1, 2])), by decide +kernel⟩,
   ⟨(wColl 1 ({ GroupSt.init with entry := grpE 0 3 0 [1, 2] }) (cFr 0x20 0 0 0 0 0 (helloDigest (grpE 0 3 0 [1, 2])))).wr F.collG_generation 3 0, ((wColl 1 ({ GroupSt.init with entry := grpE 0 3 0 [1, 2] }) (cFr 0x20 0 0 0 0 0 (helloDigest (grpE 0 3 0 [1, 2])))).wr F.collG_generation 3 0).unbox 0 (cFr 0x20 0 0 0 0 0 (helloDigest (grpE 0 3 0 [1, 2]))) true, 0, 0, 1, cFr 0x20 0 0 0 0 0 (helloDigest (grpE 0 3 0 [1, 2])), by decide +kernel⟩,
   ⟨wColl 1 ({ GroupSt.init with entry := grpE 0 3 0 [1, 2] }) ([]), 1000000, 0, by decide +kernel⟩,
   ⟨(wColl 1 ({ GroupSt.init with entry := grpE 0 3 0 [1, 2], setup := some 3 }) ([])).setOp 3 ⟨3, 0x30, 1, 8, 0, 1, 0, 0, 0, .group 9, 0, 0⟩, 100000000, 0, 3, by decide +kernel⟩,
   ⟨wColl 2 ({ GroupSt.init with entry := grpE 0 3 0 [1, 2], cur := some (cOp false) }) ([]), 1000000, 0, cOp false, by decide +kernel⟩,
   ⟨wColl 2 ({ GroupSt.init with entry := grpE 0 3 0 [1, 2], cur := some (cOp false) }) (cFr 0x25 5 0 0 0 5 (List.replicate 8 0#8)), (wColl 2 ({ GroupSt.init with entry := grpE 0 3 0 [1, 2], cur := some (cOp false) }) (cFr 0x25 5 0 0 0 5 (List.replicate 8 0#8))).unbox 0 (cFr 0x25 5 0 0 0 5 (List.replicate 8 0#8)) true, 0, 0, 1, cFr 0x25 5 0 0 0 5 (List.replicate 8 0#8), cOp false, by decide +kernel⟩,
   ⟨{ wJor PortSt.init with aborts := [⟨9, 0, 1, [2], 0, 5, 7, 3, 0⟩] }, 50000, by decide +kernel⟩⟩

theorem witness_CollectiveData :
    (∃ (s : State) (v : State) (p : Nat) (g : Nat) (i : Nat) (f : Bytes), (s.takesColl v p 0x21 g i f) ∧ (opReduces (v.grpEnt g).op = true) ∧ ((collFrom (v.grpEnt g).members.length (v.grpIdx g) (bit (cStage f) 4)).contains i = true) ∧ (v.rd F.collG_state g ≠ 3) ∧ ((v.grp g).taken.contains (takenKey i f) = false) ∧ ((v.grp g).cur = none) ∧ (0 ≤ sext 32 (fSeq f + 2 ^ 32 - (v.grp g).opSeq)) ∧ ((v.grp g).slots = []))
    ∧ (∃ (s : State) (v : State) (w : State) (p : Nat) (g : Nat) (i : Nat) (f : Bytes) (res : Bytes) (e : GroupEnt) (c : CollOp), (s.takesColl v p 0x21 g i f) ∧ (e = v.grpEnt g) ∧ (e.op = 4) ∧ (e.root = v.grpIdx g) ∧ ((v.grp g).cur = some c) ∧ (c.fast = false) ∧ (bit (cStage f) 4 = false) ∧ (fSeq f = c.seq) ∧ (cLen f = c.len / 64) ∧ (collFrom e.members.length (v.grpIdx g) false = [i]) ∧ (collNext e.members.length (v.grpIdx g) false = none) ∧ (v.rd F.collG_state g ≠ 3) ∧ ((v.grp g).taken.contains (takenKey i f) = false) ∧ ((v.grp g).slots = []) ∧ ((v.grp g).outq = []) ∧ (cChunk f = 0) ∧ (c.summed = []) ∧ (c.landed = []) ∧ (c.prefix_ = 0) ∧ (c.tokEn = false) ∧ (0 < c.len) ∧ (c.len ≤ chunkIn e.dtype) ∧ (partialBytes e.dtype (64 * cLen f) 0 ≤ (cData f).length) ∧ (res = narrowBytes e.dtype (stepBytes e.dtype e.rop (cData f) (widenBytes e.dtype (v.readMem e.mould c.src c.len)))) ∧ (res.length = c.len) ∧ (w = v.writeMem e.mould c.dst res))
    ∧ (∃ (s : State) (v : State) (p : Nat) (g : Nat) (i : Nat) (f : Bytes) (_retry : Bool) (_fail : Bool), (s.takesColl v p 0x21 g i f) ∧ (opReduces (v.grpEnt g).op = true) ∧ ((collFrom (v.grpEnt g).members.length (v.grpIdx g) (bit (cStage f) 4)).contains i = true) ∧ (v.rd F.collG_state g ≠ 3) ∧ ((v.grp g).taken.contains (takenKey i f) = true))
    ∧ (∃ (s : State) (v : State) (p : Nat) (g : Nat) (i : Nat) (f : Bytes) (_retry : Bool) (_fail : Bool) (c : CollOp), (s.takesColl v p 0x21 g i f) ∧ (opReduces (v.grpEnt g).op = true) ∧ ((collFrom (v.grpEnt g).members.length (v.grpIdx g) (bit (cStage f) 4)).contains i = true) ∧ ((v.rd F.collG_state g = 1 ∨ v.rd F.collG_state g = 2)) ∧ ((v.grp g).taken.contains (takenKey i f) = false) ∧ ((v.grp g).cur = some c) ∧ (fSeq f = c.seq) ∧ ((c.len / 64 ≠ cLen f ∨ c.fast ≠ bit (cStage f) 4)))
    ∧ (∃ (s : State) (v : State) (p : Nat) (g : Nat) (i : Nat) (f : Bytes) (_retry : Bool) (c : CollOp), (s.takesColl v p 0x21 g i f) ∧ (opReduces (v.grpEnt g).op = true) ∧ ((collFrom (v.grpEnt g).members.length (v.grpIdx g) (bit (cStage f) 4)).contains i = true) ∧ ((v.rd F.collG_state g = 1 ∨ v.rd F.collG_state g = 2)) ∧ ((v.grp g).taken.contains (takenKey i f) = false) ∧ ((v.grp g).cur = some c) ∧ (fSeq f = c.seq) ∧ (cLen f = c.len / 64) ∧ (bit (cStage f) 4 = c.fast) ∧ ((v.grp g).slots = []) ∧ (partialBytes (v.grpEnt g).dtype (64 * cLen f) (cChunk f) ≤ (cData f).length))
    ∧ (∃ (s : State) (v : State) (w : State) (p : Nat) (g : Nat) (i : Nat) (f : Bytes) (e : GroupEnt) (c : CollOp), (s.takesColl v p 0x22 g i f) ∧ (e = v.grpEnt g) ∧ (e.op = 0) ∧ (v.grpIdx g = 0) ∧ ((v.grp g).cur = some c) ∧ (c.fast = false) ∧ (bit (cStage f) 4 = false) ∧ (fSeq f = c.seq) ∧ (cLen f = c.len / 64) ∧ (v.rd F.collG_state g ≠ 3) ∧ ((v.grp g).taken.contains (takenKey i f) = false) ∧ (c.tokEn = false) ∧ (cChunk f * chunkIn e.dtype + 4096 * cPart f + (cData f).length ≤ c.len) ∧ (c.summed = []) ∧ (0 < c.len) ∧ (w = v.writeMem e.mould (c.dst + (cChunk f * chunkIn e.dtype + 4096 * cPart f)) (cData f)))
    ∧ (∃ (s : State) (v : State) (w : State) (p : Nat) (g : Nat) (i : Nat) (f : Bytes) (e : GroupEnt) (c : CollOp), (s.takesColl v p 0x24 g i f) ∧ (e = v.grpEnt g) ∧ (e.op = 3) ∧ (i = e.root) ∧ (cLate f = i) ∧ ((v.grp g).cur = some c) ∧ (bit (cStage f) 4 = c.fast) ∧ (fSeq f = c.seq) ∧ (cLen f = c.len / 64) ∧ (v.rd F.collG_state g ≠ 3) ∧ ((v.grp g).taken.contains (takenKey i f) = false) ∧ (c.tokEn = false) ∧ (cChunk f * 16384 + 4096 * cPart f + (cData f).length ≤ c.len) ∧ (w = v.writeMem e.mould (c.dst + (cChunk f * 16384 + 4096 * cPart f)) (cData f)))
    ∧ (∃ (s : State) (v : State) (p : Nat) (g : Nat) (i : Nat) (f : Bytes), (s.takesColl v p 0x24 g i f) ∧ (opReduces (v.grpEnt g).op = false) ∧ (((v.grpEnt g).op = 3 → i = (v.grpEnt g).root)) ∧ (cLate f = i) ∧ ((v.grp g).cur = none) ∧ (0 ≤ sext 32 (fSeq f + 2 ^ 32 - (v.grp g).opSeq)) ∧ (v.rd F.collG_state g ≠ 3) ∧ ((v.grp g).taken.contains (takenKey i f) = false))
    ∧ (∃ (s : State) (v : State) (p : Nat) (g : Nat) (i : Nat) (f : Bytes), (s.takesColl v p 0x23 g i f) ∧ (v.rd F.collG_state g ≠ 3) ∧ ((v.grp g).slots = []))
    ∧ (∃ (s : State) (g : Nat) (q : CollSend), (s.live = true) ∧ (g < 256) ∧ (s.rd F.collG_state g = 2) ∧ ((s.grp g).outq = [q]) ∧ (q.stage = 3) ∧ ((s.grp g).inFlight + (if q.data.isEmpty then q.n else q.data.length) ≤ 16384 * (s.grpEnt g).quota) ∧ ((s.grp g).cur = none))
    ∧ (∃ (s : State) (g : Nat) (q : CollSend), (s.live = true) ∧ (g < 256) ∧ (s.rd F.collG_state g = 2) ∧ ((s.grp g).outq = [q]) ∧ (q.stage = 1) ∧ (Tab.get 0 (s.grp g).credHave q.dst ≤ Tab.get 0 (s.grp g).credUsed q.dst) ∧ ((s.grp g).cur = none)) :=
  ⟨⟨wColl 2 ({ GroupSt.init with entry := grpE 4 3 1 [2, 1] }) (cFr 0x21 5 0 1 0 1 (List.replicate 64 3#8)), (wColl 2 ({ GroupSt.init with entry := grpE 4 3 1 [2, 1] }) (cFr 0x21 5 0 1 0 1 (List.replicate 64 3#8))).unbox 0 (cFr 0x21 5 0 1 0 1 (List.replicate 64 3#8)) true, 0, 0, 0, cFr 0x21 5 0 1 0 1 (List.replicate 64 3#8), by decide +kernel⟩,
   ⟨wColl 2 ({ GroupSt.init with entry := grpE 4 3 1 [2, 1], cur := some (cOp false) }) (cFr 0x21 5 0 1 0 1 (List.replicate 64 3#8)), (wColl 2 ({ GroupSt.init with entry := grpE 4 3 1 [2, 1], cur := some (cOp false) }) (cFr 0x21 5 0 1 0 1 (List.replicate 64 3#8))).unbox 0 (cFr 0x21 5 0 1 0 1 (List.replicate 64 3#8)) true, (((wColl 2 ({ GroupSt.init with entry := grpE 4 3 1 [2, 1], cur := some (cOp false) }) (cFr 0x21 5 0 1 0 1 (List.replicate 64 3#8))).unbox 0 (cFr 0x21 5 0 1 0 1 (List.replicate 64 3#8)) true).writeMem (groupEntOf (grpE 4 3 1 [2, 1]) : GroupEnt).mould (cOp false : CollOp).dst (narrowBytes 3 (stepBytes 3 0 (List.replicate 64 3#8) (widenBytes 3 (List.replicate 64 0#8))) : Bytes)), 0, 0, 0, cFr 0x21 5 0 1 0 1 (List.replicate 64 3#8), narrowBytes 3 (stepBytes 3 0 (List.replicate 64 3#8) (widenBytes 3 (List.replicate 64 0#8))), groupEntOf (grpE 4 3 1 [2, 1]), cOp false, by decide +kernel, by decide +kernel, by decide +kernel, by decide +kernel, by decide +kernel, by decide +kernel, by decide +kernel, by decide +kernel, by decide +kernel, by decide +kernel, by decide +kernel, by decide +kernel, by decide +kernel, by decide +kernel, by decide +kernel, by decide +kernel, by decide +kernel, by decide +kernel, by decide +kernel, by decide +kernel, by decide +kernel, by decide +kernel, by decide +kernel, by decide +kernel, by decide +kernel, rfl⟩,
   ⟨wColl 2 ({ GroupSt.init with entry := grpE 4 3 1 [2, 1], taken := [takenKey 0 (cFr 0x21 5 0 1 0 1 (List.replicate 64 3#8))] }) (cFr 0x21 5 0 1 0 1 (List.replicate 64 3#8)), (wColl 2 ({ GroupSt.init with entry := grpE 4 3 1 [2, 1], taken := [takenKey 0 (cFr 0x21 5 0 1 0 1 (List.replicate 64 3#8))] }) (cFr 0x21 5 0 1 0 1 (List.replicate 64 3#8))).unbox 0 (cFr 0x21 5 0 1 0 1 (List.replicate 64 3#8)) true, 0, 0, 0, cFr 0x21 5 0 1 0 1 (List.replicate 64 3#8), false, false, by decide +kernel⟩,
   ⟨wColl 2 ({ GroupSt.init with entry := grpE 4 3 1 [2, 1], cur := some (cOp true) }) (cFr 0x21 5 0 1 0 1 (List.replicate 64 3#8)), (wColl 2 ({ GroupSt.init with entry := grpE 4 3 1 [2, 1], cur := some (cOp true) }) (cFr 0x21 5 0 1 0 1 (List.replicate 64 3#8))).unbox 0 (cFr 0x21 5 0 1 0 1 (List.replicate 64 3#8)) true, 0, 0, 0, cFr 0x21 5 0 1 0 1 (List.replicate 64 3#8), false, false, cOp true, by decide +kernel⟩,
   ⟨wColl 2 ({ GroupSt.init with entry := grpE 4 3 1 [2, 1], cur := some (cOp false) }) (cFr 0x21 5 0 1 0 1 (List.replicate 64 3#8)), (wColl 2 ({ GroupSt.init with entry := grpE 4 3 1 [2, 1], cur := some (cOp false) }) (cFr 0x21 5 0 1 0 1 (List.replicate 64 3#8))).unbox 0 (cFr 0x21 5 0 1 0 1 (List.replicate 64 3#8)) true, 0, 0, 0, cFr 0x21 5 0 1 0 1 (List.replicate 64 3#8), true, cOp false, by decide +kernel⟩,
   ⟨wColl 2 ({ GroupSt.init with entry := grpE 0 3 0 [1, 2], cur := some (cOp false) }) (cFr 0x22 5 0 1 0 2 (List.replicate 64 3#8)), (wColl 2 ({ GroupSt.init with entry := grpE 0 3 0 [1, 2], cur := some (cOp false) }) (cFr 0x22 5 0 1 0 2 (List.replicate 64 3#8))).unbox 0 (cFr 0x22 5 0 1 0 2 (List.replicate 64 3#8)) true, (((wColl 2 ({ GroupSt.init with entry := grpE 0 3 0 [1, 2], cur := some (cOp false) }) (cFr 0x22 5 0 1 0 2 (List.replicate 64 3#8))).unbox 0 (cFr 0x22 5 0 1 0 2 (List.replicate 64 3#8)) true).writeMem (groupEntOf (grpE 0 3 0 [1, 2]) : GroupEnt).mould ((cOp false : CollOp).dst + (cChunk (cFr 0x22 5 0 1 0 2 (List.replicate 64 3#8) : Bytes) * chunkIn (groupEntOf (grpE 0 3 0 [1, 2]) : GroupEnt).dtype + 4096 * cPart (cFr 0x22 5 0 1 0 2 (List.replicate 64 3#8) : Bytes))) (cData (cFr 0x22 5 0 1 0 2 (List.replicate 64 3#8) : Bytes))), 0, 0, 1, cFr 0x22 5 0 1 0 2 (List.replicate 64 3#8), groupEntOf (grpE 0 3 0 [1, 2]), cOp false, by decide +kernel, by decide +kernel, by decide +kernel, by decide +kernel, by decide +kernel, by decide +kernel, by decide +kernel, by decide +kernel, by decide +kernel, by decide +kernel, by decide +kernel, by decide +kernel, by decide +kernel, by decide +kernel, by decide +kernel, rfl⟩,
   ⟨wColl 2 ({ GroupSt.init with entry := grpE 3 3 1 [1, 2], cur := some (cOp false) }) (cFr 0x24 5 0 1 1 3 (List.replicate 64 3#8)), (wColl 2 ({ GroupSt.init with entry := grpE 3 3 1 [1, 2], cur := some (cOp false) }) (cFr 0x24 5 0 1 1 3 (List.replicate 64 3#8))).unbox 0 (cFr 0x24 5 0 1 1 3 (List.replicate 64 3#8)) true, (((wColl 2 ({ GroupSt.init with entry := grpE 3 3 1 [1, 2], cur := some (cOp false) }) (cFr 0x24 5 0 1 1 3 (List.replicate 64 3#8))).unbox 0 (cFr 0x24 5 0 1 1 3 (List.replicate 64 3#8)) true).writeMem (groupEntOf (grpE 3 3 1 [1, 2]) : GroupEnt).mould ((cOp false : CollOp).dst + (cChunk (cFr 0x24 5 0 1 1 3 (List.replicate 64 3#8) : Bytes) * 16384 + 4096 * cPart (cFr 0x24 5 0 1 1 3 (List.replicate 64 3#8) : Bytes))) (cData (cFr 0x24 5 0 1 1 3 (List.replicate 64 3#8) : Bytes))), 0, 0, 1, cFr 0x24 5 0 1 1 3 (List.replicate 64 3#8), groupEntOf (grpE 3 3 1 [1, 2]), cOp false, by decide +kernel, by decide +kernel, by decide +kernel, by decide +kernel, by decide +kernel, by decide +kernel, by decide +kernel, by decide +kernel, by decide +kernel, by decide +kernel, by decide +kernel, by decide +kernel, by decide +kernel, rfl⟩,
   ⟨wColl 2 ({ GroupSt.init with entry := grpE 3 3 1 [1, 2] }) (cFr 0x24 5 0 1 1 3 (List.replicate 64 3#8)), (wColl 2 ({ GroupSt.init with entry := grpE 3 3 1 [1, 2] }) (cFr 0x24 5 0 1 1 3 (List.replicate 64 3#8))).unbox 0 (cFr 0x24 5 0 1 1 3 (List.replicate 64 3#8)) true, 0, 0, 1, cFr 0x24 5 0 1 1 3 (List.replicate 64 3#8), by decide +kernel⟩,
   ⟨wColl 2 ({ GroupSt.init with entry := grpE 0 3 0 [1, 2] }) (cFr 0x23 5 0 0 0 4 (toBe 4 17 ++ toBe 8 640)), (wColl 2 ({ GroupSt.init with entry := grpE 0 3 0 [1, 2] }) (cFr 0x23 5 0 0 0 4 (toBe 4 17 ++ toBe 8 640))).unbox 0 (cFr 0x23 5 0 0 0 4 (toBe 4 17 ++ toBe 8 640)) true, 0, 0, 1, cFr 0x23 5 0 0 0 4 (toBe 4 17 ++ toBe 8 640), by decide +kernel⟩,
   ⟨wColl 2 ({ GroupSt.init with entry := grpE 3 3 1 [1, 2], outq := [⟨1, 3, 5, 1, false, 0, 0, [], 0x100, 64, 0, 0⟩] }) ([]), 0, ⟨1, 3, 5, 1, false, 0, 0, [], 0x100, 64, 0, 0⟩, by decide +kernel⟩,
   ⟨wColl 2 ({ GroupSt.init with entry := grpE 0 3 0 [1, 2], outq := [⟨1, 1, 5, 1, false, 0, 0, [], 0x100, 64, 0, 0⟩] }) ([]), 0, ⟨1, 1, 5, 1, false, 0, 0, [], 0x100, 64, 0, 0⟩, by decide +kernel⟩⟩

theorem witness_TimeControlCapturesAndTriggers :
    (∃ (s : State) (_v : Nat), (s.live = true) ∧ (s.rd F.timeCtrl_src = 0))
    ∧ (∃ (s : State) (_v : Nat), (s.live = true) ∧ (s.rd F.timeCtrl_src ≠ 0))
    ∧ (∃ (s : State) (v : Nat), (s.live = true) ∧ (s.srcAvailable (bitsOf v 0 2) (bitsOf v 2 5) = true) ∧ ((bitsOf v 0 2 ≠ s.rd F.timeCtrl_src ∨ (bitsOf v 0 2 = 1 ∧ bitsOf v 2 5 ≠ s.rd F.timeCtrl_ptpPort))) ∧ (s.logRoom 1))
    ∧ (∃ (s : State) (v : Nat), (s.live = true) ∧ (s.srcAvailable (bitsOf v 0 2) (bitsOf v 2 5) = false))
    ∧ (∃ (s : State) (r : MReq) (rest : List MReq), (s.serves 0x0048 r rest) ∧ (r.body.length = 12) ∧ (s.radioRuns = false) ∧ (s.logRoom 1) ∧ ((List.range 4).all (fun c => !s.flag F.timeTrigCfg_armed c || decide (leAt r.body 0 8 < Tab.get 0 s.tim.trigAt c)) = true))
    ∧ (∃ (s : State) (r : MReq) (rest : List MReq), (s.serves 0x0048 r rest) ∧ (r.body.length = 12) ∧ (s.radioRuns = true))
    ∧ (∃ (s : State) (_dt : Nat), s.live = true)
    ∧ (∃ (s : State) (c : Nat) (n : Nat) (f : Nat) (r : List (Nat × Nat)), (s.live = true) ∧ (c < 5) ∧ (Tab.get [] s.tim.fifo c = (n, f) :: r))
    ∧ (∃ (s : State) (c : Nat), (s.live = true) ∧ (Tab.get [] s.tim.fifo c = []))
    ∧ (∃ (s : State) (dt : Nat) (c : Nat), (s.live = true) ∧ (c < 4) ∧ (s.tim.edges.any (fun e => decide (e.1 = c) && decide (s.clk.up + dt < e.2 + 1000)) = false) ∧ ((Tab.get [] s.tim.fifo c).length < 16))
    ∧ (∃ (s : State) (dt : Nat) (c : Nat), (s.live = true) ∧ (c < 4) ∧ (s.tim.edges.any (fun e => decide (e.1 = c) && decide (s.clk.up + dt < e.2 + 1000)) = false) ∧ (16 ≤ (Tab.get [] s.tim.fifo c).length) ∧ (s.logRoom 1))
    ∧ (∃ (s : State) (dt : Nat), (s.live = true) ∧ (s.tim.edges.any (fun e => decide (e.1 = 4) && decide (s.clk.up + dt < e.2 + 1000)) = false) ∧ ((Tab.get [] s.tim.fifo 4).length < 16) ∧ (s.rd F.timeCtrl_src ≠ 3))
    ∧ (∃ (s : State) (dt : Nat), (s.live = true) ∧ (s.rd F.timeCtrl_src = 3) ∧ ((s.pass dt).clk.ns % 1000000000 < 500000000))
    ∧ (∃ (s : State) (dt : Nat), (s.live = true) ∧ ((s.pass dt).clk.ns % 1000000000 < 2) ∧ ((s.rd F.timeStatus_state = 2 ∨ s.rd F.timeStatus_state = 3 ∨ s.flag F.timeCtrl_ppsFree = true)))
    ∧ (∃ (s : State) (c : Nat) (v : Nat), (s.live = true) ∧ (c < 4) ∧ (bit v 52 = true) ∧ (10 ≤ bitsOf v 32 20) ∧ (bitsOf v 32 20 ≤ 1000000) ∧ ((bitsOf v 0 32 = 0 ∨ bitsOf v 32 20 < bitsOf v 0 32)) ∧ (0 < sext 32 (s.rd F.timeTrigStart_startNs c % 2 ^ 32 + 2 ^ 32 - s.clk.ns % 2 ^ 32)))
    ∧ (∃ (s : State) (c : Nat) (v : Nat), (s.live = true) ∧ (c < 4) ∧ (bit v 52 = true) ∧ ((bitsOf v 32 20 < 10 ∨ 1000000 < bitsOf v 32 20 ∨ (bitsOf v 0 32 ≠ 0 ∧ bitsOf v 0 32 ≤ bitsOf v 32 20) ∨ sext 32 (s.rd F.timeTrigStart_startNs c % 2 ^ 32 + 2 ^ 32 - s.clk.ns % 2 ^ 32) ≤ 0)) ∧ (s.logRoom 1))
    ∧ (∃ (s : State) (dt : Nat) (c : Nat), (s.live = true) ∧ (c < 4) ∧ (s.flag F.timeTrigCfg_armed c = true) ∧ (Tab.get 0 s.tim.trigAt c ≤ (s.pass dt).clk.ns)) :=
  ⟨⟨w0, 0xCCCCCCCCDDDD, by decide +kernel⟩,
   ⟨w0.wr F.timeCtrl_src 3, 5, by decide +kernel⟩,
   ⟨w0, 3, by decide +kernel⟩,
   ⟨w0, 1, by decide +kernel⟩,
   ⟨withReq w0 0x48 (toLe 8 5000 ++ toLe 4 7), reqOf 0x48 (toLe 8 5000 ++ toLe 4 7), [], by decide +kernel⟩,
   ⟨withReq wRadio 0x48 (toLe 8 5000 ++ toLe 4 7), reqOf 0x48 (toLe 8 5000 ++ toLe 4 7), [], by decide +kernel⟩,
   ⟨{ w0 with clk := ⟨500, 7, 0, 500, 0⟩ }, 100, by decide +kernel⟩,
   ⟨{ w0 with tim := { w0.tim with fifo := [(2, [(9, 4), (10, 5)])] } }, 2, 9, 4, [(10, 5)], by decide +kernel⟩,
   ⟨w0, 2, by decide +kernel⟩,
   ⟨{ w0 with tim := { w0.tim with edges := [(2, 5)] } }, 2000, 2, by decide +kernel⟩,
   ⟨{ w0 with tim := { w0.tim with fifo := [(2, List.replicate 16 (1, 1))] } }, 2000, 2, by decide +kernel⟩,
   ⟨w0, 2000, by decide +kernel⟩,
   ⟨(w0.wr F.timeCtrl_src 3).wr F.timeStatus_state 1, 2000, by decide +kernel⟩,
   ⟨w0.wr F.timeCtrl_ppsFree 1, 1000000000, by decide +kernel⟩,
   ⟨w0.wr F.timeTrigStart_startNs 5000 1, 1, 2 ^ 52 + 100 * 2 ^ 32 + 1000, by decide +kernel⟩,
   ⟨w0, 1, 2 ^ 52 + 100 * 2 ^ 32 + 1000, by decide +kernel⟩,
   ⟨({ w0 with tim := { w0.tim with trigAt := [(1, 700)] } }.wr F.timeTrigCfg_armed 1 1).wr F.timeTrigCfg_periodNs 5000 1, 1000, 1, by decide +kernel⟩⟩

theorem witness_TimeSources :
    (∃ (s : State) (r : MReq) (rest : List MReq), s.serves 0x0049 r rest)
    ∧ (∃ (s : State) (r : MReq) (rest : List MReq), (s.serves 0x004A r rest) ∧ (r.body = []))
    ∧ (∃ (s : State) (_dt : Nat) (sub : Nat) (ty : Nat) (_q : Nat), (s.live = true) ∧ (16 ≤ sub) ∧ (sub < 48) ∧ (s.subUp sub = true) ∧ (ty < 4))
    ∧ (∃ (s : State) (_dt : Nat) (sub : Nat) (_ty : Nat) (_q : Nat) (o : Int), (s.live = true) ∧ (16 ≤ sub) ∧ (sub < 48) ∧ (s.subUp sub = true) ∧ (s.rd F.timeCtrl_src = 1) ∧ (s.rd F.timeCtrl_ptpPort + 16 = sub) ∧ (s.rd F.timeStatus_state = 1) ∧ (s.coreUp 2 = false) ∧ (o.natAbs < 100) ∧ (s.logRoom 1))
    ∧ (∃ (s : State) (_dt : Nat) (sub : Nat) (_ty : Nat) (_q : Nat) (_m : Option Int), (s.live = true) ∧ (16 ≤ sub) ∧ (sub < 48) ∧ (s.subUp sub = true) ∧ (s.isRadioSub sub = true))
    ∧ (∃ (s : State) (_dt : Nat) (sub : Nat) (ty : Nat) (_q : Nat) (n : Nat) (msg : Bytes), (s.live = true) ∧ (16 ≤ sub) ∧ (sub < 48) ∧ (s.subUp sub = true) ∧ (msg.length ≤ 256) ∧ (s.coreUp 2 = true) ∧ (ty < 4) ∧ (n = queueNo (0x10 + (sub - 16) / 4) (4 * ((sub - 16) % 4))))
    ∧ (∃ (s : State) (_dt : Nat) (sub : Nat), (s.live = true) ∧ (s.flag F.timeCtrl_synceEn = true) ∧ (s.rd F.timeCtrl_synceLane + 16 = sub) ∧ (s.subUp sub = true))
    ∧ (∃ (s : State) (sub : Nat) (n : Nat) (msg : Bytes), (s.live = true) ∧ (16 ≤ sub) ∧ (sub < 48) ∧ (s.subUp sub = true) ∧ (msg.length ≤ 256) ∧ (s.coreUp 2 = true) ∧ (n = queueNo (0x10 + (sub - 16) / 4) (4 * ((sub - 16) % 4) + 1)))
    ∧ (∃ (s : State) (dt : Nat), (s.live = true) ∧ (s.flag F.timeCtrl_synceEn = true) ∧ (s.tim.esmcAt + 5000000000 ≤ s.clk.up + dt) ∧ (s.tim.eec = 1) ∧ (s.logRoom 1))
    ∧ (∃ (s : State) (dt : Nat), (s.live = true) ∧ (s.rd F.timeCtrl_src ≠ 0) ∧ (s.tim.measAt + sourceLimit (s.rd F.timeCtrl_src) ≤ s.clk.up + dt) ∧ (s.rd F.timeStatus_state = 2) ∧ (s.logRoom 1))
    ∧ (∃ (s : State) (_dt : Nat) (p : Nat), (s.live = true) ∧ (s.jUp p = true) ∧ ((s.port p).owed = [0, 0, 0, 0]))
    ∧ (∃ (s : State) (_dt : Nat) (p : Nat) (b : Bytes), (s.live = true) ∧ (s.jUp p = true) ∧ ((b.length ≠ 40 ∨ beAt b 0x24 4 ≠ crc32c (b.take 0x24))))
    ∧ (∃ (s : State) (_dt : Nat) (p : Nat) (b : Bytes), (s.live = true) ∧ (s.jUp p = true) ∧ (b.length = 40) ∧ (beAt b 0x24 4 = crc32c (b.take 0x24)) ∧ (s.rd F.timeCtrl_src ≠ 2))
    ∧ (∃ (s : State) (v : State) (dt : Nat) (p : Nat) (t : Nat) (b : Bytes), (s.live = true) ∧ (s.jUp p = true) ∧ (b.length = 40) ∧ (beAt b 0x24 4 = crc32c (b.take 0x24)) ∧ (s.rd F.timeCtrl_src = 2) ∧ (v = s.pass dt) ∧ (v.upstreamPort = some p) ∧ (bitsOf (beAt b 6 2) 0 10 = s.rd F.timeRoot_rootId) ∧ (bit (beAt b 4 1) 0 = true) ∧ (beAt b 5 1 < 63) ∧ ((s.port p).twSent.find? (fun e => e.1 = beAt b 2 2) = some (beAt b 2 2, t)) ∧ (s.rd F.timeStatus_state = 1) ∧ (s.tim.offs.length < 15)) :=
  ⟨⟨withReq w0 0x49 [1, 2, 3], reqOf 0x49 [1, 2, 3], [], by decide +kernel⟩,
   ⟨withReq { w0 with tim := { w0.tim with ptp := [4, 5] } } 0x4A [], reqOf 0x4A [], [], by decide +kernel⟩,
   ⟨(w0.wr F.apStatus_linkUp 15 0), 100, 17, 1, 9, by decide +kernel⟩,
   ⟨((((w0.wr F.apStatus_linkUp 15 0).wr F.timeCtrl_src 1).wr F.timeCtrl_ptpPort 1).wr F.timeStatus_state 1).wr F.mcStatus_coreUp 11, 100, 17, 8, 9, -20, by decide +kernel⟩,
   ⟨((w0.wr F.apStatus_linkUp 15 0).wr F.radioCar_bound 1 3).wr F.radioCar_port 1 3, 100, 17, 8, 9, none, by decide +kernel⟩,
   ⟨(w0.wr F.apStatus_linkUp 15 0), 100, 17, 1, 9, queueNo 0x10 4, [1, 2], by decide +kernel⟩,
   ⟨((w0.wr F.apStatus_linkUp 15 0).wr F.timeCtrl_synceEn 1).wr F.timeCtrl_synceLane 1, 100, 17, by decide +kernel⟩,
   ⟨(w0.wr F.apStatus_linkUp 15 0), 17, queueNo 0x10 5, [1, 2], by decide +kernel⟩,
   ⟨{ w0 with tim := { w0.tim with eec := 1 } }.wr F.timeCtrl_synceEn 1, 5000000000, by decide +kernel⟩,
   ⟨(w0.wr F.timeCtrl_src 1).wr F.timeStatus_state 2, 3000000000, by decide +kernel⟩,
   ⟨wJor PortSt.init, 100, 0, by decide +kernel⟩,
   ⟨wJor PortSt.init, 100, 0, [1, 2], by decide +kernel⟩,
   ⟨wJor PortSt.init, 100, 0, (toBe 2 9 ++ toBe 2 4 ++ toBe 1 1 ++ toBe 1 2 ++ toBe 2 2 ++ toBe 8 1000 ++ toBe 4 0 ++ toBe 8 900 ++ toBe 4 0 ++ toBe 4 0) ++ toBe 4 (crc32c (toBe 2 9 ++ toBe 2 4 ++ toBe 1 1 ++ toBe 1 2 ++ toBe 2 2 ++ toBe 8 1000 ++ toBe 4 0 ++ toBe 8 900 ++ toBe 4 0 ++ toBe 4 0)), by decide +kernel⟩,
   ⟨(((wJor { PortSt.init with twSent := [(4, 800 * 2 ^ 32)] }).wr F.timeCtrl_src 2).wr F.timeStatus_state 1).wr F.timeRoot_rootId 2, ((((wJor { PortSt.init with twSent := [(4, 800 * 2 ^ 32)] }).wr F.timeCtrl_src 2).wr F.timeStatus_state 1).wr F.timeRoot_rootId 2).pass 1200, 1200, 0, 800 * 2 ^ 32, (toBe 2 9 ++ toBe 2 4 ++ toBe 1 1 ++ toBe 1 2 ++ toBe 2 2 ++ toBe 8 1000 ++ toBe 4 0 ++ toBe 8 900 ++ toBe 4 0 ++ toBe 4 0) ++ toBe 4 (crc32c (toBe 2 9 ++ toBe 2 4 ++ toBe 1 1 ++ toBe 1 2 ++ toBe 2 2 ++ toBe 8 1000 ++ toBe 4 0 ++ toBe 8 900 ++ toBe 4 0 ++ toBe 4 0)), by decide +kernel⟩⟩

theorem witness_RadioReceive :
    (∃ (s : State) (r : MReq) (rest : List MReq) (c : Nat) (v : CarrierSt), (s.serves 0x0038 r rest) ∧ (s.bindCheck r.body = 0) ∧ (v = { CarrierSt.init with desc := r.body }) ∧ (c = leAt r.body 0 1))
    ∧ (∃ (s : State) (r : MReq) (rest : List MReq) (c : Nat), (s.serves 0x0039 r rest) ∧ (r.body.length = 1) ∧ (c = leAt r.body 0 1) ∧ (c < 128) ∧ (s.flag F.radioCar_bound c = true) ∧ ((s.mstate (s.car c).mould = 2 ∨ s.mstate (s.car c).mould = 4)))
    ∧ (∃ (s : State) (_dt : Nat) (sub : Nat) (mac : Nat) (vid : Option Nat) (f : Bytes), (s.live = true) ∧ (s.subOpen sub = true) ∧ (s.matchCar sub mac vid (some (beAt f 4 2)) = none))
    ∧ (∃ (s : State) (_dt : Nat) (sub : Nat) (mac : Nat) (c : Nat) (vid : Option Nat) (f : Bytes), (s.live = true) ∧ (s.subOpen sub = true) ∧ (s.matchCar sub mac vid (some (beAt f 4 2)) = some c) ∧ ((beAt f 0 1 ≠ 0x10 ∨ beAt f 2 2 + 4 ≠ f.length ∨ 14 ≤ beAt f 10 2 % 64)))
    ∧ (∃ (s : State) (w : State) (dt : Nat) (sub : Nat) (mac : Nat) (c : Nat) (k : Nat) (vid : Option Nat) (f : Bytes) (v : CarrierSt), (s.live = true) ∧ (s.subOpen sub = true) ∧ (s.matchCar sub mac vid (some (beAt f 4 2)) = some c) ∧ (v = s.car c) ∧ (fhWell v f) ∧ ((fhSections v f.length (f.drop 12)).isSome = true) ∧ (w = s.pass dt) ∧ (k = w.fhSlot v f) ∧ (w.now96 < v.t96 k (beAt f 10 2 % 64) + 96 * v.fld 0x24 4))
    ∧ (∃ (s : State) (w : State) (dt : Nat) (sub : Nat) (mac : Nat) (c : Nat) (k : Nat) (vid : Option Nat) (f : Bytes) (v : CarrierSt), (s.live = true) ∧ (s.subOpen sub = true) ∧ (s.matchCar sub mac vid (some (beAt f 4 2)) = some c) ∧ (v = s.car c) ∧ (fhWell v f) ∧ ((fhSections v f.length (f.drop 12)).isSome = true) ∧ (w = s.pass dt) ∧ (k = w.fhSlot v f) ∧ (v.fld 0x24 4 ≤ v.fld 0x28 4) ∧ (v.t96 k (beAt f 10 2 % 64) + 96 * v.fld 0x28 4 ≤ w.now96))
    ∧ (∃ (s : State) (w : State) (q : State) (dt : Nat) (sub : Nat) (mac : Nat) (c : Nat) (k : Nat) (n : Nat) (st : Nat) (a : Nat) (vid : Option Nat) (f : Bytes) (v : CarrierSt) (vals : List Int), (s.live = true) ∧ (s.subOpen sub = true) ∧ (s.matchCar sub mac vid (some (beAt f 4 2)) = some c) ∧ (v = s.car c) ∧ (fhWell v f) ∧ ((fhSections v f.length (f.drop 12)).map (fun l => l.map (fun x => (x.start, x.prbs))) = some [(a, [vals])]) ∧ (w = s.pass dt) ∧ (k = w.fhSlot v f) ∧ (n = beAt f 10 2 % 64) ∧ (st = beAt f 4 2 % 2 ^ v.fld 0x1C 1) ∧ (st < 16) ∧ (v.t96 k n + 96 * v.fld 0x24 4 ≤ w.now96) ∧ (w.now96 < v.t96 k n + 96 * v.fld 0x28 4) ∧ ((Tab.get [] v.landed (32 * symKey k n + st)).contains a = false) ∧ (q = w.writeMem v.mould (v.ulAddr k n st (12 * a)) (vals.flatMap (fun x => toLe 3 (landValue (v.code k st) x).1))))
    ∧ (∃ (s : State) (_dt : Nat) (sub : Nat) (mac : Nat) (vid : Option Nat) (_f : Bytes), (s.live = true) ∧ (s.subOpen sub = true) ∧ (s.matchCar sub mac vid none = none))
    ∧ (∃ (s : State) (w : State) (dt : Nat) (sub : Nat) (mac : Nat) (c : Nat) (i : Nat) (k : Nat) (kf : Nat) (n : Nat) (st : Nat) (vid : Option Nat) (f : Bytes) (v : CarrierSt), (s.live = true) ∧ (s.subOpen sub = true) ∧ (s.matchCar sub mac vid none = some c) ∧ (v = s.car c) ∧ (f.length = 20) ∧ (beAt f 0 1 = 1) ∧ (beAt f 1 1 = 1) ∧ (st = beAt f 2 1) ∧ (st < v.ul) ∧ (beAt f 3 1 ≤ 1) ∧ (beAt f 6 2 = 1) ∧ (1 ≤ v.fld 0x3C 2 / 4) ∧ (beAt f 8 2 < 1024) ∧ (beAt f 10 2 = 0) ∧ (i = beAt f 12 4) ∧ (i < 150 * v.fft * v.perSub) ∧ (v.sampleSym i = some (kf, n)) ∧ (w = s.pass dt) ∧ (k = w.nearFrame v 1024 (beAt f 8 2) (96 * i * 10000000 / (150 * v.fft * v.perSub)) * v.perFrame + kf) ∧ (v.t96 k n + 96 * v.fld 0x24 4 ≤ w.now96) ∧ (w.now96 < v.t96 k n + 96 * v.fld 0x28 4) ∧ ((Tab.get [] v.samples (32 * symKey kf n + st)).any (fun e => e.1 = i) = false))
    ∧ (∃ (s : State) (_dt : Nat) (sub : Nat), (s.live = true) ∧ (s.subOpen sub = true) ∧ (s.isRadioSub sub = true))
    ∧ (∃ (s : State) (w : State) (dt : Nat) (c : Nat) (k : Nat) (v : CarrierSt), (s.live = true) ∧ (c < 128) ∧ (s.flag F.radioCar_bound c = true) ∧ (v = s.car c) ∧ (k = v.opened) ∧ (w = s.pass dt) ∧ (v.t96 k 0 + 96 * v.fld 0x24 4 ≤ w.now96))
    ∧ (∃ (s : State) (w : State) (dt : Nat) (c : Nat) (k : Nat) (n : Nat) (miss : Nat) (pmiss : Nat) (v : CarrierSt) (b : Bytes), (s.live = true) ∧ (c < 128) ∧ (s.flag F.radioCar_bound c = true) ∧ (v = s.car c) ∧ (v.split ≠ 2) ∧ (k = v.closed / 14) ∧ (n = v.closed % 14) ∧ (n ≠ 13) ∧ (w = s.pass dt) ∧ (v.t96 k n + 96 * v.fld 0x28 4 ≤ w.now96) ∧ (miss = sumNat ((List.range v.ul).map (fun st => if (Tab.get [] v.landed (32 * symKey k n + st)).length < v.nPrb then 2 ^ st else 0))) ∧ (pmiss = sumNat ((List.range v.prach).map (fun p => if (Tab.get [] v.landed (32 * symKey k n + 16 + p)).isEmpty then 2 ^ p else 0))) ∧ (b = (toLe 4 (k / v.perFrame % 1024 + k % v.perFrame * 2 ^ 16) ++ toLe 1 n ++ toLe 1 (ofBool (s.flag F.radioCar_muted c) + 2 * ofBool (s.rd F.timeStatus_state ≠ 2) + 4 * Tab.get 0 v.gainDiff (k % 2)) ++ toLe 2 0 ++ toLe 2 miss ++ toLe 1 pmiss ++ toLe 5 0 ++ slice ((List.range v.ul).flatMap (fun st => toLe 2 (Tab.get [] v.landed (32 * symKey k n + st)).length)) 0 32 ++ toLe 8 (sumNat ((List.range v.ul).map (fun st => v.code k st * 16 ^ st))) ++ toLe 8 0))) :=
  ⟨⟨withReq wBind 0x38 (carDesc 0 0), reqOf 0x38 (carDesc 0 0), [], 3, { CarrierSt.init with desc := carDesc 0 0 }, by decide +kernel⟩,
   ⟨withReq ((wCar carF 0).wr F.mouldStatus_state 2 1) 0x39 [3], reqOf 0x39 [3], [], 3, by decide +kernel⟩,
   ⟨wCar carF 0, 100, 16, 5, none, fhMsg, by decide +kernel⟩,
   ⟨wCar carF 0, 100, 16, 0x010203040506, 3, none, fhMsg ++ [0], by decide +kernel⟩,
   ⟨wCar carF 1000000, (wCar carF 1000000).pass 100, 100, 16, 0x010203040506, 3, 1, none, fhMsg, carF, by decide +kernel⟩,
   ⟨wCar carF 1200000, (wCar carF 1200000).pass 100, 100, 16, 0x010203040506, 3, 1, none, fhMsg, carF, by decide +kernel⟩,
   ⟨wCar carF 1050000, ((wCar carF 1050000 : State).pass (100 : Nat)), ((((wCar carF 1050000 : State).pass (100 : Nat))).writeMem (carF : CarrierSt).mould ((carF : CarrierSt).ulAddr (1 : Nat) (0 : Nat) (0 : Nat) (12 * (2 : Nat))) ((List.replicate 24 (0x101 : Int) : List Int).flatMap (fun x => toLe 3 (landValue ((carF : CarrierSt).code (1 : Nat) (0 : Nat)) x).1))), 100, 16, 0x010203040506, 3, 1, 0, 0, 2, none, fhMsg, carF, List.replicate 24 (0x101 : Int), by decide +kernel, by decide +kernel, by decide +kernel, by decide +kernel, by decide +kernel, by decide +kernel, rfl, by decide +kernel, by decide +kernel, by decide +kernel, by decide +kernel, by decide +kernel, by decide +kernel, by decide +kernel, rfl⟩,
   ⟨wCar carT 0, 100, 16, 5, none, tdMsg, by decide +kernel⟩,
   ⟨wCar carT 121000, (wCar carT 121000).pass 100, 100, 16, 0x010203040506, 3, 700, 0, 0, 1, 0, none, tdMsg, carT, by decide +kernel⟩,
   ⟨(wCar carF 0), 100, 16, by decide +kernel⟩,
   ⟨wCar { carF with opened := 2, gainNext := [(2, 0, 6), (3, 0, 7)], landed := [(5, [1]), (32 * 14, [2])] } 2000000, (wCar { carF with opened := 2, gainNext := [(2, 0, 6), (3, 0, 7)], landed := [(5, [1]), (32 * 14, [2])] } 2000000).pass 30000, 30000, 3, 2, { carF with opened := 2, gainNext := [(2, 0, 6), (3, 0, 7)], landed := [(5, [1]), (32 * 14, [2])] }, by decide +kernel⟩,
   ⟨wCar ({ carF with closed := 14, landed := [(32 * 14, [2])] }) 1000000, (wCar ({ carF with closed := 14, landed := [(32 * 14, [2])] }) 1000000).pass 200000, 200000, 3, 1, 0, 1, 0, { carF with closed := 14, landed := [(32 * 14, [2])] }, (toLe 4 (0 + 1 * 2 ^ 16) ++ toLe 1 0 ++ toLe 1 (0 + 2 + 0) ++ toLe 2 0 ++ toLe 2 1 ++ toLe 1 0 ++ toLe 5 0 ++ slice (toLe 2 1) 0 32 ++ toLe 8 4 ++ toLe 8 0), by decide +kernel⟩⟩

theorem witness_RadioTransmitAndJobs :
    (∃ (s : State) (c : Nat) (x : Nat) (rel : Nat) (len : Nat) (msg : Bytes), (s.live = true) ∧ (c < 128) ∧ (s.flag F.radioCar_bound c = true) ∧ ((bitsOf x 16 16 + 65536 - s.rd F.radioCpring_head c) % 65536 = 1) ∧ (s.cpEntry c (s.rd F.radioCpring_head c) = (rel, len, msg)) ∧ (s.clk.ns ≤ rel) ∧ (8 ≤ len) ∧ (len ≤ 2000) ∧ (beAt msg 1 1 = 2) ∧ (beAt msg 4 2 &&& (s.car c).fld 0x1A 2 = (s.car c).fld 0x18 2))
    ∧ (∃ (s : State) (c : Nat) (x : Nat) (rel : Nat) (len : Nat) (msg : Bytes), (s.live = true) ∧ (c < 128) ∧ (s.flag F.radioCar_bound c = true) ∧ ((bitsOf x 16 16 + 65536 - s.rd F.radioCpring_head c) % 65536 = 1) ∧ (s.cpEntry c (s.rd F.radioCpring_head c) = (rel, len, msg)) ∧ (rel < s.clk.ns))
    ∧ (∃ (s : State) (q : Nat) (c : Nat) (_x : Nat), (s.live = true) ∧ (c < 128) ∧ ((q = 1 ∨ (2 ≤ q ∧ (q - 2) % 64 ≠ (s.car c).mould))) ∧ (s.logRoom 1))
    ∧ (∃ (s : State) (dt : Nat) (c : Nat) (rel : Nat) (q : Nat) (msg : Bytes) (b : Bytes) (r : List (Nat × Bytes)) (w : State), (s.live = true) ∧ (c < 128) ∧ (w = s.pass dt) ∧ ((s.car c).cp = (rel, msg) :: r) ∧ (rel ≤ (s.pass dt).clk.ns) ∧ (s.flag F.radioCar_muted c = false) ∧ (q = s.carQueue c 0x34) ∧ (b = msg.take 2 ++ toBe 2 (msg.length - 4) ++ slice msg 4 2 ++ toBe 1 (Tab.get 0 (s.car c).seqDl (2 * (beAt msg 4 2 % 2 ^ (s.car c).fld 0x1C 1) + 1) % 256) ++ toBe 1 0x80 ++ msg.drop 8) ∧ (s.hasRoom q (s.carFrame c 0xAEFE 0 b).len = true))
    ∧ (∃ (s : State) (w : State) (dt : Nat) (c : Nat) (k : Nat) (n : Nat) (x : Nat) (v : CarrierSt), (s.live = true) ∧ (c < 128) ∧ (n < 14) ∧ (s.flag F.radioCar_bound c = true) ∧ (v = s.car c) ∧ (w = s.pass dt) ∧ (v.t96 k n ≤ w.now96 + 96 * (v.fld 0x30 4 + 10000)) ∧ (w.now96 + 96 * v.fld 0x30 4 < v.t96 k n) ∧ (x = (if n = 0 then leNat (s.readMem v.mould (v.fld 0x50 8 + 1792 + 8 * (k % 2)) 8) else v.dlWordOf k)))
    ∧ (∃ (s : State) (w : State) (dt : Nat) (c : Nat) (k : Nat) (n : Nat) (q : Nat) (st : Nat) (until_ : Nat) (v : CarrierSt) (d : Bytes) (b : Bytes), (s.live = true) ∧ (c < 128) ∧ (n < 14) ∧ (s.flag F.radioCar_bound c = true) ∧ (v = s.car c) ∧ (w = s.pass dt) ∧ (v.split ≠ 2) ∧ (v.t96 k n ≤ w.now96 + 96 * v.fld 0x30 4) ∧ (w.now96 + 96 * v.fld 0x2C 4 < v.t96 k n) ∧ (until_ = (v.t96 k n - 96 * v.fld 0x2C 4) / 96) ∧ (Tab.get [] v.dl (14 * k + n) = [(st, d)]) ∧ (0 < (chunks 24 (dlValues d)).length) ∧ ((chunks 24 (dlValues d)).length ≤ v.prbMax) ∧ (s.flag F.radioCar_muted c = false) ∧ (q = s.carQueue c 0x36) ∧ (b = v.uplane (Tab.get 0 v.seqDl (2 * st)) k n st 0 ((chunks 24 (dlValues d)).map (prbBytes v.iqw))) ∧ (s.hasRoom q (s.carFrame c 0xAEFE until_ b).len = true))
    ∧ (∃ (s : State) (dt : Nat) (c : Nat) (now : Nat), (s.live = true) ∧ (c < 128) ∧ (Tab.sortedFrom none s.egr.qs = true) ∧ (now = (s.pass dt).clk.ns))
    ∧ (∃ (s : State) (dt : Nat) (c : Nat), (s.live = true) ∧ (c < 128) ∧ (s.flag F.radioCar_bound c = true) ∧ (s.flag F.radioCar_muted c = false) ∧ ((s.pass dt).mustMute c = true) ∧ (Tab.sortedFrom none s.egr.qs = true) ∧ (s.logRoom 1))
    ∧ (∃ (s : State) (dt : Nat) (c : Nat) (v : CarrierSt), (s.live = true) ∧ (c < 128) ∧ (s.flag F.radioCar_bound c = true) ∧ (s.flag F.radioCar_muted c = true) ∧ (v = s.car c) ∧ ((s.rd F.timeStatus_state = 2 ∨ (s.rd F.timeStatus_state = 0 ∧ v.flag 3 = true))) ∧ (s.tim.lockNs + (10000000 - (s.tim.lockNs + 10000000 - v.off) % 10000000) ≤ (s.pass dt).clk.ns) ∧ (s.logRoom 1))
    ∧ (∃ (s : State) (i : Nat) (_word : Nat) (j : JobRec) (r : List JobRec), (s.live = true) ∧ (i < 16) ∧ (s.unit i = ⟨j :: r, none⟩) ∧ (jobFormatOk j = true) ∧ (s.jobRange j (j.p 8 4) (jobBytes j).1 = true) ∧ (s.jobRange j (j.p 0x10 4) (jobBytes j).2.1 = true) ∧ ((j.p 2 2 % 4 = 0 ∨ s.jobRange j (j.p 0x18 4) (jobBytes j).2.2 = true)))
    ∧ (∃ (s : State) (i : Nat) (_ecc : Nat) (_word : Nat) (j : JobRec) (r : List JobRec), (s.live = true) ∧ (i < 16) ∧ (s.unit i = ⟨j :: r, none⟩) ∧ (jobFormatOk j = false))
    ∧ (∃ (s : State) (i : Nat) (j : JobRec) (q : List JobRec), (s.live = true) ∧ (i < 16) ∧ (s.unit i = ⟨q, some (j, 0)⟩) ∧ (s.isSlag j.mould j.ctx j.heat j.quenches = false) ∧ (bit (j.p 2 2) 1 = false) ∧ (bit (j.p 2 2) 2 = false))
    ∧ (∃ (s : State) (i : Nat) (code : Nat) (j : JobRec) (q : List JobRec), (s.live = true) ∧ (i < 16) ∧ (s.unit i = ⟨q, some (j, code)⟩) ∧ (code ≠ 0) ∧ (s.isSlag j.mould j.ctx j.heat j.quenches = false) ∧ (bit (j.p 2 2) 2 = false) ∧ (s.logRoom 1))
    ∧ (∃ (s : State) (i : Nat) (code : Nat) (j : JobRec) (q : List JobRec), (s.live = true) ∧ (i < 16) ∧ (s.unit i = ⟨q, some (j, code)⟩) ∧ (j.mould < 64) ∧ (s.isSlag j.mould j.ctx j.heat j.quenches = true)) :=
  ⟨⟨{ wCar carF 0 with sram := cellsOf 2 0x10000 (toLe 8 5000 ++ toLe 2 8 ++ List.replicate 6 0#8 ++ [0x10, 2, 0, 4, 0, 0, 0, 0x80]) }, 3, 2 ^ 16, 5000, 8, [0x10#8, 2, 0, 4, 0, 0, 0, 0x80], by decide +kernel⟩,
   ⟨{ wCar carF 6000 with sram := cellsOf 2 0x10000 (toLe 8 5000 ++ toLe 2 8 ++ List.replicate 6 0#8 ++ [0x10, 2, 0, 4, 0, 0, 0, 0x80]) }, 3, 2 ^ 16, 5000, 8, [0x10#8, 2, 0, 4, 0, 0, 0, 0x80], by decide +kernel⟩,
   ⟨wCar carF 0, 5, 3, 2 ^ 16, by decide +kernel⟩,
   ⟨wCar ({ carF with cp := [(5000, [0x10#8, 2, 0, 4, 0, 0, 0, 0x80])] }) 4900, 100, 3, 5000, queueNo 0x10 16, [0x10#8, 2, 0, 4, 0, 0, 0, 0x80], [0x10, 2, 0, 4, 0, 0, 0, 0x80], [], (wCar ({ carF with cp := [(5000, [0x10#8, 2, 0, 4, 0, 0, 0, 0x80])] }) 4900).pass 100, by decide +kernel⟩,
   ⟨{ wCar carF 775000 with sram := cellsOf 2 (0xC000 + 1792 + 8) (toLe 8 (2 ^ 16 + 1)) }, ({ wCar carF 775000 with sram := cellsOf 2 (0xC000 + 1792 + 8) (toLe 8 (2 ^ 16 + 1)) }).pass 20000, 20000, 3, 1, 0, 2 ^ 16 + 1, carF, by decide +kernel⟩,
   ⟨wCar ({ carF with dl := [(14, [(0, List.replicate 792 1#8)]), (15, [])] }) 800000, (wCar ({ carF with dl := [(14, [(0, List.replicate 792 1#8)]), (15, [])] }) 800000).pass 20000, 20000, 3, 1, 0, queueNo 0x10 16, 0, 950000, { carF with dl := [(14, [(0, List.replicate 792 1#8)]), (15, [])] }, List.replicate 792 1#8, carF.uplane 0 1 0 0 0 ((chunks 24 (dlValues (List.replicate 792 1#8))).map (prbBytes 16)), by decide +kernel⟩,
   ⟨(wCar carF 800000).enqueue (queueNo 0x10 16) ⟨[1], 5, 12, 1, false, 4, 810000⟩, 20000, 3, 820000, by decide +kernel⟩,
   ⟨((wCar carF 800000).enqueue (queueNo 0x10 16) ⟨[1], 5, 12, 1, false, 4, 810000⟩).setReg .timeStatus 0 0 0, 20000, 3, by decide +kernel⟩,
   ⟨((wCar carF 800000).wr F.timeStatus_state 2).wr F.radioCar_muted 1 3, 20000000, 3, carF, by decide +kernel⟩,
   ⟨{ wRadio with units := [(12, ⟨[dJob 0x21 0], none⟩)] }, 12, 0, dJob 0x21 0, [], by decide +kernel⟩,
   ⟨{ wRadio with units := [(12, ⟨[dJob 0x22 0], none⟩)] }, 12, 0, 0, dJob 0x22 0, [], by decide +kernel⟩,
   ⟨{ wRadio with units := [(12, ⟨[], some (dJob 1 0, 0)⟩)] }, 12, dJob 1 0, [], by decide +kernel⟩,
   ⟨{ wRadio with units := [(12, ⟨[], some (dJob 0x21 0, E.jobFormat)⟩)] }, 12, E.jobFormat, dJob 0x21 0, [], by decide +kernel⟩,
   ⟨{ wRadio with units := [(12, ⟨[], some (dJob 0x21 1, 0)⟩)] }, 12, 0, dJob 0x21 1, [], by decide +kernel⟩⟩

theorem witness_EgressAndAccessLinks :
    (∃ (s : State) (w : State) (dt : Nat) (sub : Nat) (q : Nat) (b : SubSt) (f : EgFrame), (s.live = true) ∧ (16 ≤ sub) ∧ (sub < 48) ∧ (s.subUp sub = true) ∧ (w = s.pass dt) ∧ ((Tab.get SubSt.init s.egr.subs sub).freeAt ≤ 100 * (s.clk.up + dt) + 99) ∧ ((w.subQueues sub).all (fun k => !w.eligibleButGuard sub k || w.guardPass sub k) = true) ∧ (w.pickQueue sub = some (q, b, [])) ∧ (w.headOf q = some f))
    ∧ (∃ (s : State) (w : State) (dt : Nat) (p : Nat) (q : Nat) (b : SubSt) (f : EgFrame), (s.live = true) ∧ (p < 12) ∧ (s.jUp p = true) ∧ (w = s.pass dt) ∧ ((Tab.get SubSt.init s.egr.subs p).freeAt ≤ 100 * (s.clk.up + dt) + 99) ∧ ((w.subQueues p).all (fun k => !w.eligibleButGuard p k || w.guardPass p k) = true) ∧ (w.pickQueue p = some (q, b, [])) ∧ (w.headOf q = some f))
    ∧ (∃ (s : State) (dt : Nat) (p : Nat), (s.live = true) ∧ (p < 12) ∧ (s.jUp p = true) ∧ ((Tab.get SubSt.init s.egr.subs p).freeAt ≤ 100 * (s.clk.up + dt) + 99) ∧ ((s.pass dt).subQueues p = []))
    ∧ (∃ (s : State) (w : State) (dt : Nat) (sub : Nat) (q : Nat) (f : EgFrame), (s.live = true) ∧ (16 ≤ sub) ∧ (sub < 48) ∧ (s.subUp sub = true) ∧ (w = s.pass dt) ∧ ((Tab.get SubSt.init s.egr.subs sub).freeAt ≤ 100 * (s.clk.up + dt) + 99) ∧ (w.subQueues sub = [q]) ∧ (w.headOf q = some f) ∧ (f.held = false) ∧ (w.eligibleButGuard sub q = true) ∧ (w.guardPass sub q = false) ∧ ((w.countHeld sub q).pickQueue sub = none))
    ∧ (∃ (s : State) (dt : Nat) (sub : Nat) (i : Nat) (mask : Nat) (e : Nat), (s.live = true) ∧ (sub < 48) ∧ ((s.pass dt).intervalNow sub = some (i, mask, e)))
    ∧ (∃ (s : State) (dt : Nat) (sub : Nat), (s.live = true) ∧ (sub < 48) ∧ ((s.pass dt).intervalNow sub = none))
    ∧ (∃ (s : State) (sub : Nat), (s.live = true) ∧ (16 ≤ sub) ∧ (sub < 48) ∧ ((sub - 16) % 4 < laneCount (qMode s.queueMap (0x10 + (sub - 16) / 4))))
    ∧ (∃ (s : State) (sub : Nat), (s.live = true) ∧ (16 ≤ sub) ∧ (sub < 48)) :=
  ⟨⟨wEgr [], (wEgr []).pass 100, 100, 16, queueNo 0x10 16, ⟨[(0, queueNo 0x10 16 + 1)], 0, 0⟩, ⟨List.replicate 56 1#8, 60, 12, 1, false, 0, 0⟩, by decide +kernel⟩,
   ⟨(wJor { PortSt.init with credit := [1000, 1000, 1000, 1000] }).enqueue 2 ⟨fr 2 1 1 2 [], 36, 12, 1, false, 0, 0⟩, ((wJor { PortSt.init with credit := [1000, 1000, 1000, 1000] }).enqueue 2 ⟨fr 2 1 1 2 [], 36, 12, 1, false, 0, 0⟩).pass 100, 100, 0, 2, ⟨[(1, 3)], 0, 0⟩, ⟨fr 2 1 1 2 [], 36, 12, 1, false, 0, 0⟩, by decide +kernel⟩,
   ⟨wJor PortSt.init, 100, 0, by decide +kernel⟩,
   ⟨wEgr [1, 0], (wEgr [1, 0]).pass 0, 0, 16, queueNo 0x10 16, ⟨List.replicate 56 1#8, 60, 12, 1, false, 0, 0⟩, by decide +kernel⟩,
   ⟨wEgr [1, 6], 100, 16, 1, 6, 100000, by decide +kernel⟩,
   ⟨wEgr [], 100, 16, by decide +kernel⟩,
   ⟨wSvc, 16, by decide +kernel⟩,
   ⟨wEgr [], 16, by decide +kernel⟩⟩

theorem witness_MembershipTimersAndCertificates :
    (∃ (s : State) (r : MReq) (rest : List MReq) (i : Nat), (s.serves 0x0060 r rest) ∧ (272 ≤ r.body.length) ∧ (s.freeEntry = some i))
    ∧ (∃ (s : State) (v : State) (p : Nat) (len : Nat) (off : Nat) (f : Bytes) (d : Bytes) (g : CertFrag), (s.takesCert v p len off f d) ∧ (g = ((s.health.frags.find? (fun g => decide (g.port = p) && decide (g.len = len))).getD ⟨p, len, [], s.clk.up⟩)) ∧ (g.have_.any (fun e => e.1 = off) = false) ∧ (assemble len (g.have_ ++ [(off, d)]) = none))
    ∧ (∃ (s : State) (v : State) (p : Nat) (len : Nat) (off : Nat) (f : Bytes) (d : Bytes) (b : Bytes) (g : CertFrag), (s.takesCert v p len off f d) ∧ (g = ((s.health.frags.find? (fun g => decide (g.port = p) && decide (g.len = len))).getD ⟨p, len, [], s.clk.up⟩)) ∧ (g.have_.any (fun e => e.1 = off) = false) ∧ (assemble len (g.have_ ++ [(off, d)]) = some b) ∧ (s.certRuns (certDigest b) = false) ∧ (s.health.applied.contains (certDigest b) = false))
    ∧ (∃ (s : State) (v : State) (p : Nat) (f : Bytes), (s.live = true) ∧ (p < 12) ∧ ((classHeads (s.inbox p)).find? (fun g => fDst g = s.devId && fOp g = 0x51) = some f) ∧ (v = s.unbox p f true) ∧ (headerOk f 3 = true) ∧ (fHeat f = 0) ∧ (fSeq f = 0) ∧ ((fPay f).length = 8) ∧ (beAt (fPay f) 4 4 = 0) ∧ (272 < s.health.lastCert.length) ∧ (certEpoch s.health.lastCert = beAt (fPay f) 0 4))
    ∧ (∃ (s : State) (_dt : Nat) (_p : Nat), s.live = true)
    ∧ (∃ (s : State) (dt : Nat) (t : Nat), (s.live = true) ∧ ((s.rd F.healthStatus_state = 3 ∨ s.rd F.healthStatus_state = 4 ∨ s.rd F.healthStatus_state = 5)) ∧ (s.health.seenAt = some t) ∧ (t + 500000000 ≤ s.clk.up + dt))
    ∧ (∃ (s : State) (dt : Nat) (t : Nat), (s.live = true) ∧ ((s.rd F.healthStatus_state = 2 ∨ s.rd F.healthStatus_state = 6)) ∧ (s.health.admitAt = some t) ∧ (t + 1000000000 ≤ s.clk.up + dt) ∧ ((s.portsUp (fun _ => true) && s.mayJoin) = false) ∧ (s.logRoom 1))
    ∧ (∃ (s : State) (dt : Nat) (t : Nat), (s.live = true) ∧ ((s.rd F.healthStatus_state = 2 ∨ s.rd F.healthStatus_state = 6)) ∧ (s.health.admitAt = some t) ∧ (t + 1000000000 ≤ s.clk.up + dt) ∧ (s.portsUp (fun _ => true) = true) ∧ (s.mayJoin = true) ∧ (s.logRoom 1))
    ∧ (∃ (s : State) (dt : Nat), (s.live = true) ∧ (s.rd F.healthStatus_state = 3) ∧ (s.health.candAt + 10000000000 ≤ s.clk.up + dt) ∧ (s.flag F.hardLimit_rateAlarm = false) ∧ (s.flag F.hardLimit_ueRate = false) ∧ (s.health.seenAt = none) ∧ (s.health.low300 < 10) ∧ (s.portsUp (fun q => s.rd F.portStatus_peerEpoch q = s.rd F.fabEpoch_value) = false) ∧ ((s.health.cameFrom = 2 ∨ s.health.cameFrom = 6)))
    ∧ (∃ (s : State) (dt : Nat) (t : Nat), (s.live = true) ∧ (s.health.retainEnd = some t) ∧ (t ≤ s.clk.up + dt) ∧ (s.flag F.healthStatus_retained = true) ∧ (s.logRoom 1))
    ∧ (∃ (s : State) (w : State) (dt : Nat), (s.live = true) ∧ (w = s.pass dt) ∧ (w.longAlarm = true) ∧ (s.flag F.hardLimit_rateAlarm = false) ∧ ((s.rd F.healthStatus_state = 3 ∨ s.rd F.healthStatus_state = 4 ∨ s.rd F.healthStatus_state = 5)))
    ∧ (∃ (s : State) (w : State) (dt : Nat), (s.live = true) ∧ (w = s.pass dt) ∧ (s.flag F.hardLimit_ueRate = true) ∧ (w.ueNow ≤ 1))
    ∧ (∃ (s : State) (dt : Nat) (k : Nat), (s.live = true) ∧ (k < 52) ∧ ((s.quar k).active = true) ∧ ((s.quar k).until_ ≤ s.clk.up + dt) ∧ (s.logRoom 1))
    ∧ (∃ (s : State) (dt : Nat) (k : Nat) (v : QSrc), (s.live = true) ∧ (64 ≤ k) ∧ (s.health.srcs[k - 64]? = some v) ∧ (v.q.active = true) ∧ (v.q.until_ ≤ s.clk.up + dt) ∧ (s.logRoom 1)) :=
  ⟨⟨withReq w0 0x60 (List.replicate 7 0#8 ++ [1] ++ List.replicate 264 0#8), reqOf 0x60 (List.replicate 7 0#8 ++ [1] ++ List.replicate 264 0#8), [], 0, by decide +kernel⟩,
   ⟨wRq (mkFrame 1 2 0 0 0 0x50 0 1 3 0 0 (toBe 4 4106 ++ toBe 4 4096 ++ List.replicate 10 1#8)), (wRq (mkFrame 1 2 0 0 0 0x50 0 1 3 0 0 (toBe 4 4106 ++ toBe 4 4096 ++ List.replicate 10 1#8))).unbox 0 (mkFrame 1 2 0 0 0 0x50 0 1 3 0 0 (toBe 4 4106 ++ toBe 4 4096 ++ List.replicate 10 1#8)) true, 0, 4106, 4096, mkFrame 1 2 0 0 0 0x50 0 1 3 0 0 (toBe 4 4106 ++ toBe 4 4096 ++ List.replicate 10 1#8), List.replicate 10 1#8, ⟨0, 4106, [], 0⟩, by decide +kernel⟩,
   ⟨wRq (mkFrame 1 2 0 0 0 0x50 0 0 3 0 0 (toBe 4 300 ++ toBe 4 0 ++ List.replicate 300 1#8)), (wRq (mkFrame 1 2 0 0 0 0x50 0 0 3 0 0 (toBe 4 300 ++ toBe 4 0 ++ List.replicate 300 1#8))).unbox 0 (mkFrame 1 2 0 0 0 0x50 0 0 3 0 0 (toBe 4 300 ++ toBe 4 0 ++ List.replicate 300 1#8)) true, 0, 300, 0, mkFrame 1 2 0 0 0 0x50 0 0 3 0 0 (toBe 4 300 ++ toBe 4 0 ++ List.replicate 300 1#8), List.replicate 300 1#8, List.replicate 300 1#8, ⟨0, 300, [], 0⟩, by decide +kernel⟩,
   ⟨({ wRq (mkFrame 1 2 0 0 0 0x51 0 0 3 0 0 (toBe 4 0xFFFFFFFF ++ toBe 4 0)) with health := { (wRq (mkFrame 1 2 0 0 0 0x51 0 0 3 0 0 (toBe 4 0xFFFFFFFF ++ toBe 4 0))).health with lastCert := List.replicate 300 255#8 } } : State), ({ wRq (mkFrame 1 2 0 0 0 0x51 0 0 3 0 0 (toBe 4 0xFFFFFFFF ++ toBe 4 0)) with health := { (wRq (mkFrame 1 2 0 0 0 0x51 0 0 3 0 0 (toBe 4 0xFFFFFFFF ++ toBe 4 0))).health with lastCert := List.replicate 300 255#8 } } : State).unbox 0 (mkFrame 1 2 0 0 0 0x51 0 0 3 0 0 (toBe 4 0xFFFFFFFF ++ toBe 4 0)) true, 0, mkFrame 1 2 0 0 0 0x51 0 0 3 0 0 (toBe 4 0xFFFFFFFF ++ toBe 4 0), by decide +kernel⟩,
   ⟨{ w0 with health := { w0.health with frags := [⟨0, 300, [], 0⟩, ⟨1, 300, [], 0⟩] } }, 100000000, 0, by decide +kernel⟩,
   ⟨({ wColl 2 ({ GroupSt.init with entry := grpE 0 3 0 [1, 2], cur := some (cOp false) }) [] with health := { (wColl 2 ({ GroupSt.init with entry := grpE 0 3 0 [1, 2], cur := some (cOp false) }) []).health with seenAt := some 5 } } : State), 600000000, 5, by decide +kernel⟩,
   ⟨({ w0 with health := { (w0).health with admitAt := some 5 } } : State).wr F.healthStatus_state 2, 1000000005, 5, by decide +kernel⟩,
   ⟨({ w0 with oper := some ⟨[], [], 0, 0⟩, health := { w0.health with admitAt := some 5 } } : State).wr F.healthStatus_state 2, 1000000005, 5, by decide +kernel⟩,
   ⟨({ wColl 2 ({ GroupSt.init with entry := grpE 0 3 0 [1, 2], cur := some (cOp false) }) [] with health := { (wColl 2 ({ GroupSt.init with entry := grpE 0 3 0 [1, 2], cur := some (cOp false) }) []).health with cameFrom := 2 } } : State).wr F.healthStatus_state 3, 10000000000, by decide +kernel⟩,
   ⟨({ w0 with health := { (w0).health with retainEnd := some 7 } } : State).wr F.healthStatus_retained 1, 7, 7, by decide +kernel⟩,
   ⟨(wColl 2 ({ GroupSt.init with entry := grpE 0 3 0 [1, 2], cur := some (cOp false) }) []).wr F.govStatus_alarm 1 2, ((wColl 2 ({ GroupSt.init with entry := grpE 0 3 0 [1, 2], cur := some (cOp false) }) []).wr F.govStatus_alarm 1 2).pass 2000000000, 2000000000, by decide +kernel⟩,
   ⟨w0.wr F.hardLimit_ueRate 1, (w0.wr F.hardLimit_ueRate 1).pass 5, 5, by decide +kernel⟩,
   ⟨({ w0 with health := { (w0).health with quar := [(3, ⟨true, 0, 1000, none, [], []⟩)] } } : State).wr F.quar_active 1 3, 1000, 3, by decide +kernel⟩,
   ⟨({ w0 with health := { (w0).health with srcs := [⟨[1, 2], ⟨true, 0, 1000, none, [], []⟩⟩] } } : State).wr F.mgmtQuar_active 1, 1000, 64, ⟨[1, 2], ⟨true, 0, 1000, none, [], []⟩⟩, by decide +kernel⟩⟩

theorem witness_HeartbeatAndHealthRecords :
    (∃ (s : State) (w : State) (dt : Nat), (s.live = true) ∧ (w = s.pass dt) ∧ (w.clk.ns % 1000000 < 2) ∧ (s.clk.beats ≠ w.clk.ns / 1000000 + 1) ∧ (s.coreUp 2 = true))
    ∧ (∃ (s : State) (w : State) (dt : Nat), (s.live = true) ∧ (w = s.pass dt) ∧ (w.clk.ns % 1000000 < 2) ∧ (s.clk.beats ≠ w.clk.ns / 1000000 + 1) ∧ (s.coreUp 0 = false) ∧ (s.coreUp 2 = false) ∧ (s.coreUp 3 = false) ∧ (s.tier.retries = []) ∧ (s.log.hbDropped = 0) ∧ (s.rst.powLow = []) ∧ (s.flag F.healthStatus_hard = false) ∧ (s.rst.thermLow = []) ∧ (s.rst.vinOut = false) ∧ (s.rst.pmbTries < 4))
    ∧ (∃ (s : State) (w : State) (t : State) (dt : Nat), (s.live = true) ∧ (w = { s.pass dt with led := { s.led with healthAt := s.clk.up + dt } }) ∧ (s.coreUp 3 = true) ∧ (s.led.healthAt + (if s.throttle = 1 then 14400000000000 else 3600000000000) ≤ s.clk.up + dt) ∧ (s.throttle ≠ 2) ∧ (3 < s.freeSegs.length) ∧ (w.append 0x20 w.healthBody = some t))
    ∧ (∃ (s : State) (dt : Nat), (s.live = true) ∧ (s.coreUp 3 = true) ∧ (s.led.healthAt + 3600000000000 ≤ s.clk.up + dt) ∧ (s.throttle = 2))
    ∧ (∃ (s : State) (w : State) (t : State) (dt : Nat), (s.live = true) ∧ (w = s.pass dt) ∧ (s.coreUp 3 = true) ∧ (s.led.sumAt + s.summaryS * 1000000000 ≤ s.clk.up + dt) ∧ (s.throttle ≠ 2) ∧ (3 < s.freeSegs.length) ∧ (w.append 0x21 w.summaryBody = some t))
    ∧ (∃ (s : State) (dt : Nat), (s.live = true) ∧ (s.coreUp 3 = true) ∧ (s.led.sumAt + s.summaryS * 1000000000 ≤ s.clk.up + dt) ∧ (s.throttle = 2))
    ∧ (∃ (s : State) (r : MReq) (rest : List MReq), (s.serves 0x0061 r rest) ∧ (r.body = [])) :=
  ⟨⟨w0, w0.pass 1000000, 1000000, by decide +kernel⟩,
   ⟨w0.wr F.mcStatus_coreUp 2, (w0.wr F.mcStatus_coreUp 2).pass 1000000, 1000000, by decide +kernel⟩,
   ⟨w0, ({ w0.pass 3600000000000 with led := { w0.led with healthAt := 3600000000000 } } : State), (({ w0.pass 3600000000000 with led := { w0.led with healthAt := 3600000000000 } } : State).append 0x20 ({ w0.pass 3600000000000 with led := { w0.led with healthAt := 3600000000000 } } : State).healthBody).getD w0, 3600000000000, by decide +kernel⟩,
   ⟨w0.wr F.ledgerStatus_throttle 2, 3600000000000, by decide +kernel⟩,
   ⟨w0, ((w0 : State).pass (3600000000000 : Nat)), ((((w0 : State).pass (3600000000000 : Nat))).append 0x21 (((w0 : State).pass (3600000000000 : Nat))).summaryBody).getD w0, 3600000000000, by decide +kernel, rfl, by decide +kernel, by decide +kernel, by decide +kernel, by decide +kernel, someGetD (by decide +kernel)⟩,
   ⟨w0.wr F.ledgerStatus_throttle 2, 14400000000000, by decide +kernel⟩,
   ⟨withReq w0 0x61 [], reqOf 0x61 [], [], by decide +kernel⟩⟩

theorem witness_ManagementSessions :
    (∃ (s : State) (t : State) (dt : Nat) (p : Nat) (src : Bytes) (d : Bytes), (s.hears p src) ∧ (hsHdrOk d 1 1608 = true) ∧ ((s.pass dt).hsCollect src 1 1608 d = (none, t)))
    ∧ (∃ (s : State) (t : State) (dt : Nat) (p : Nat) (src : Bytes) (d : Bytes) (h : Bytes) (k : KeySlot), (s.hears p src) ∧ (hsHdrOk d 1 1608 = true) ∧ ((s.pass dt).hsCollect src 1 1608 d = (some h, t)) ∧ (s.keyOf 1 (slice h 32 8) = some k) ∧ (s.mgmt.sessions.length < 16) ∧ (s.sec.destroyed = false))
    ∧ (∃ (s : State) (t : State) (dt : Nat) (p : Nat) (src : Bytes) (d : Bytes) (h : Bytes), (s.hears p src) ∧ (hsHdrOk d 1 1608 = true) ∧ ((s.pass dt).hsCollect src 1 1608 d = (some h, t)) ∧ (s.keyOf 1 (slice h 32 8) = none) ∧ (s.logRoom 1) ∧ (s.health.srcs = []))
    ∧ (∃ (s : State) (t : State) (dt : Nat) (p : Nat) (src : Bytes) (d : Bytes) (h : Bytes) (k : KeySlot), (s.hears p src) ∧ (hsHdrOk d 1 1608 = true) ∧ ((s.pass dt).hsCollect src 1 1608 d = (some h, t)) ∧ (s.keyOf 1 (slice h 32 8) = some k) ∧ (16 ≤ s.mgmt.sessions.length))
    ∧ (∃ (s : State) (dt : Nat) (p : Nat) (src : Bytes) (d : Bytes) (z : SessSt), (s.hears p src) ∧ (hsHdrOk d 3 16224 = true) ∧ (s.session (beAt d 4 4) = some z) ∧ (z.source = src) ∧ (z.confirmed = false) ∧ (s.proving z.id = false) ∧ (((s.pass dt).hsCollect src 3 16224 d).1.isSome = true))
    ∧ (∃ (s : State) (t : State) (dt : Nat) (p : Nat) (src : Bytes) (d : Bytes) (z : SessSt), (s.hears p src) ∧ (hsHdrOk d 3 16224 = true) ∧ (s.session (beAt d 4 4) = some z) ∧ (z.source = src) ∧ (z.confirmed = false) ∧ (s.proving z.id = false) ∧ ((s.pass dt).hsCollect src 3 16224 d = (none, t)))
    ∧ (∃ (s : State) (_dt : Nat) (p : Nat) (src : Bytes) (d : Bytes), (s.hears p src) ∧ (recordForm d 0x10) ∧ (s.health.srcs = []) ∧ ((s.session (beAt d 4 4)).all (fun z => !z.confirmed || !z.winIn.fresh (beAt d 8 8)) = true))
    ∧ (∃ (s : State) (_dt : Nat) (p : Nat) (src : Bytes) (d : Bytes) (z : SessSt), (s.hears p src) ∧ (recordForm d 0x10) ∧ (s.session (beAt d 4 4) = some z) ∧ (z.confirmed = true) ∧ (z.winIn.fresh (beAt d 8 8) = true))
    ∧ (∃ (s : State) (_dt : Nat) (p : Nat) (src : Bytes) (d : Bytes) (z : SessSt), (s.hears p src) ∧ (recordForm d 0x1F) ∧ (s.session (beAt d 4 4) = some z) ∧ (z.confirmed = true) ∧ (z.winIn.fresh (beAt d 8 8) = true) ∧ (s.logRoom 1)) :=
  ⟨⟨wMgm [] [], ((wMgm [] []).pass 5).hsCollect [7, 8] 1 1608 (mgm 1 0 0 0 2 (List.replicate 1200 3#8)) |>.2, 5, 0, [7, 8], mgm 1 0 0 0 2 (List.replicate 1200 3#8), by decide +kernel⟩,
   ⟨wHello (keyId (List.replicate 48 5#8)) 2, (((wHello (keyId (List.replicate 48 5#8)) 2).pass 5).hsCollect [7, 8] 1 1608 (dHello (keyId (List.replicate 48 5#8)))).2, 5, 0, [7, 8], dHello (keyId (List.replicate 48 5#8)), hHello (keyId (List.replicate 48 5#8)), ((wHello (keyId (List.replicate 48 5#8)) 2).keyOf 1 (keyId (List.replicate 48 5#8))).getD ⟨0, 0, 0, [], true⟩, by decide +kernel⟩,
   ⟨wHello (List.replicate 8 9#8) 2, (((wHello (List.replicate 8 9#8) 2).pass 5).hsCollect [7, 8] 1 1608 (dHello (List.replicate 8 9#8))).2, 5, 1, [7, 8], dHello (List.replicate 8 9#8), hHello (List.replicate 8 9#8), by decide +kernel⟩,
   ⟨wHello (keyId (List.replicate 48 5#8)) 16, (((wHello (keyId (List.replicate 48 5#8)) 16).pass 5).hsCollect [7, 8] 1 1608 (dHello (keyId (List.replicate 48 5#8)))).2, 5, 1, [7, 8], dHello (keyId (List.replicate 48 5#8)), hHello (keyId (List.replicate 48 5#8)), ((wHello (keyId (List.replicate 48 5#8)) 16).keyOf 1 (keyId (List.replicate 48 5#8))).getD ⟨0, 0, 0, [], true⟩, by decide +kernel⟩,
   ⟨wMgm [zProve] [⟨[7, 8], 3, 1, (List.range 13).map (fun i => (i, List.replicate 1200 1#8))⟩], 5, 1, [7, 8], mgm 3 1 0 13 14 (List.replicate 624 1#8), zProve, by decide +kernel⟩,
   ⟨wMgm [zProve] [], (((wMgm [zProve] []).pass 5).hsCollect [7, 8] 3 16224 (mgm 3 1 0 13 14 (List.replicate 624 1#8))).2, 5, 1, [7, 8], mgm 3 1 0 13 14 (List.replicate 624 1#8), zProve, by decide +kernel⟩,
   ⟨wMgm [zReq] [], 5, 1, [7, 8], mgm 0x10 1 0 0 1 (List.replicate 60 1#8), by decide +kernel⟩,
   ⟨wMgm [zReq] [], 5, 1, [7, 8], mgm 0x10 1 1 0 1 (List.replicate 60 1#8), zReq, by decide +kernel⟩,
   ⟨wMgm [zReq] [], 5, 1, [7, 8], mgm 0x1F 1 1 0 1 (List.replicate 16 1#8), zReq, by decide +kernel⟩⟩

theorem witness_ManagementTimeLimitsAndPorts :
    (∃ (s : State) (_dt : Nat), s.live = true)
    ∧ (∃ (s : State) (dt : Nat) (z : SessSt), (s.live = true) ∧ (s.mgmt.sessions = [z]) ∧ (z.confirmed = true) ∧ ((z.lastAt + 60000000000 ≤ s.clk.up + dt ∨ z.openedAt + 86400000000000 ≤ s.clk.up + dt)) ∧ (s.logRoom 1))
    ∧ (∃ (s : State) (_dt : Nat), s.live = true)
    ∧ (∃ (s : State) (_dt : Nat), (s.live = true) ∧ ((s.mgmt.sessions.map (fun z => z.id)).Nodup))
    ∧ (∃ (s : State) (p : Nat) (src : Bytes), s.hears p src)
    ∧ (∃ (s : State) (p : Nat) (ty : Nat) (src : Bytes) (_target : Bytes) (_body : Bytes), (s.hears p src) ∧ ((ty = 128 ∨ ty = 135)))
    ∧ (∃ (s : State) (p : Nat) (ty : Nat) (src : Bytes) (_target : Bytes) (_body : Bytes), (s.hears p src) ∧ (ty ≠ 128) ∧ (ty ≠ 135))
    ∧ (∃ (s : State) (p : Nat) (_b : Bool), (s.live = true) ∧ (p < 2))
    ∧ (∃ (s : State) (_dt : Nat) (k : Nat), (s.live = true) ∧ (k < 4) ∧ (s.coreUp k = false) ∧ (s.rd F.healthStatus_state ≠ 1))
    ∧ (∃ (s : State) (_dt : Nat) (p : Nat) (src : Bytes) (_d : Bytes), (s.live = true) ∧ (¬ s.hears p src)) :=
  ⟨⟨wMgm [zReq, zProve] [], 60000000000, by decide +kernel⟩,
   ⟨withReq w0 1 [], 60000000000, zReq, by decide +kernel⟩,
   ⟨wMgm [zReq, zProve] [], 500000000, by decide +kernel⟩,
   ⟨wMgm [{ zReq with collecting := [⟨9, 1, 2, [], 0, 0⟩, ⟨10, 1, 2, [], 9, 1⟩] }, { zProve with id := 2 }] [], 1000000000, by decide +kernel⟩,
   ⟨wMgm [] [], 1, [7, 8], by decide +kernel⟩,
   ⟨wMgm [] [], 1, 135, [7, 8], [0xFE, 0x80, 1], [], by decide +kernel⟩,
   ⟨wMgm [] [], 1, 1, [7, 8], [0xFE, 0x80, 1], [], by decide +kernel⟩,
   ⟨w0, 1, true, by decide +kernel⟩,
   ⟨(w0.wr F.mcStatus_coreUp 14).wr F.healthStatus_state 2, 5, 0, by decide +kernel⟩,
   ⟨w0, 5, 0, [7, 8], [], by decide +kernel⟩⟩

theorem witness_AccessesThatReachNoRegister :
    (∃ (s : State) (addr : Nat) (i : Nat) (j : Nat) (r : RegName), s.csrAt addr = .reg r i j)
    ∧ (∃ (_s : State) (addr : Nat), addr % 8 ≠ 0)
    ∧ (∃ (_s : State) (addr : Nat) (c : Nat), csrCluster addr = some c)
    ∧ (∃ (s : State) (_req : Nat) (addr : Nat) (_value : Nat) (code : Nat) (src : Nat), (s.live = true) ∧ (s.logRoom 1) ∧ ((s.csrAt addr = .disabled ∧ code = 2 ∨ s.csrAt addr = .none ∧ code = 3)) ∧ (src = ((csrCluster addr).map (fun c => 0x1000 + 16 * c + 15)).getD 0x00A0))
    ∧ (∃ (s : State) (_req : Nat) (addr : Nat) (_value : Nat) (i : Nat) (j : Nat), (s.live = true) ∧ (s.logRoom 1) ∧ (s.csrAt addr = .reg .arrCfg i j) ∧ ((s.claimer i).isSome = true))
    ∧ (∃ (s : State) (_req : Nat) (addr : Nat), (s.log.hbCount = 16384) ∧ ((s.csrAt addr = .disabled ∨ s.csrAt addr = .none))) :=
  ⟨⟨w0, 0x200, 0, 0, .patStatus, by decide +kernel⟩,
   ⟨w0, 0x201, by decide +kernel⟩,
   ⟨w0, 0x1000004, 0, by decide +kernel⟩,
   ⟨w0, 2, 0x201, 7, 3, 0xA0, by decide +kernel⟩,
   ⟨wRadio, 1, regAddr .arrCfg 2 1, 7, 2, 1, by decide +kernel⟩,
   ⟨{ w0 with log := { w0.log with hbCount := 16384 } }, 1, 0x201, by decide +kernel⟩⟩

theorem witness_RegisterWritesFollowTheirAccessCodes :
    (∃ (s : State) (_req : Nat) (addr : Nat) (value : Nat) (i : Nat) (j : Nat) (r : RegName), (s.live = true) ∧ (s.csrAt addr = .reg r i j) ∧ (hasRule r value = false) ∧ ((r ≠ .arrCfg ∨ (s.claimer i).isNone = true)) ∧ (s.reg r i j < 2 ^ 64))
    ∧ (∃ (s : State) (_req : Nat) (addr : Nat) (value : Nat) (i : Nat) (j : Nat) (r : RegName), (s.live = true) ∧ (s.csrAt addr = .reg r i j) ∧ (hasRule r value = true))
    ∧ (∃ (r : RegName) (old : Nat) (eff : Nat) (k : Nat), (k < 64) ∧ (bit (r.shape.bitsWith (fun a => a = .rw || a = .rws || a = .rl || a = .w1c)) k = false) ∧ (old < 2 ^ 64) ∧ (eff < 2 ^ 64))
    ∧ (∃ (r : RegName) (old : Nat) (eff : Nat) (k : Nat), (k < 64) ∧ (r ≠ .arrStatus) ∧ (bit (r.shape.bitsWith Acc.stored) k = true) ∧ (old < 2 ^ 64) ∧ (eff < 2 ^ 64)) :=
  ⟨⟨w0, 1, regAddr .scrubCtrl 0 0, 5, 0, 0, .scrubCtrl, by decide +kernel⟩,
   ⟨w0, 1, regAddr .timeCtrl 0 0, 5, 0, 0, .timeCtrl, by decide +kernel⟩,
   ⟨.patStatus, 3, 9, 1, by decide +kernel⟩,
   ⟨.scrubCtrl, 3, 9, 0, by decide +kernel⟩⟩

theorem witness_CommandsOfTheManagementPlane :
    (∃ (s : State) (r : MReq) (rest : List MReq), (s.serves 0x0001 r rest) ∧ (r.body = []))
    ∧ (∃ (s : State) (t : State) (r : MReq) (rest : List MReq) (n : Nat), (s.serves 0x0002 r rest) ∧ (r.body.length = 6) ∧ (n = leAt r.body 4 2) ∧ (1 ≤ n) ∧ (n ≤ 128) ∧ (t = ((s.taken rest).readCsrs (leAt r.body 0 4) n).2))
    ∧ (∃ (s : State) (r : MReq) (rest : List MReq) (addr : Nat) (i : Nat) (j : Nat) (x : RegName), (s.serves 0x0002 r rest) ∧ (r.body = toLe 4 addr ++ toLe 2 1) ∧ (addr < 2 ^ 32) ∧ (s.csrAt addr = .reg x i j) ∧ ((x ≠ .timeNowNs ∧ x ≠ .timeCapNs ∧ x ≠ .arrBeats)))
    ∧ (∃ (s : State) (t : State) (r : MReq) (rest : List MReq) (code : Nat), (s.serves 0x0003 r rest) ∧ (r.body.length = 20) ∧ ((code, t) = (s.taken rest).writeCsr 0 (leAt r.body 0 4) (leAt r.body 4 8) (leAt r.body 12 8)) ∧ ((t.session r.sess).isSome = true))
    ∧ (∃ (s : State) (r : MReq) (rest : List MReq) (q : Nat) (n : Nat), (s.serves 0x0004 r rest) ∧ (r.body = toLe 8 q ++ toLe 2 n) ∧ (q < 2 ^ 64) ∧ (1 ≤ n) ∧ (n ≤ 40))
    ∧ (∃ (s : State) (r : MReq) (rest : List MReq) (h : Nat), (s.serves 0x0005 r rest) ∧ (r.body = toLe 4 h) ∧ (h < 2 ^ 32) ∧ ((s.op (h % 256)).state ≠ 0) ∧ ((s.op (h % 256)).handle = h))
    ∧ (∃ (s : State) (r : MReq) (rest : List MReq) (h : Nat), (s.serves 0x0005 r rest) ∧ (r.body = toLe 4 h) ∧ (h < 2 ^ 32) ∧ (s.opOf h = none))
    ∧ (∃ (s : State) (r : MReq) (rest : List MReq) (h : Nat) (i : Nat) (m : Nat) (a : Nat) (n : Nat) (poly : Nat) (fold : Nat) (q : Nat) (g : Nat) (pos : Nat), (s.serves 0x0006 r rest) ∧ (r.body = toLe 4 h) ∧ (h < 2 ^ 32) ∧ (s.opOf h = some i) ∧ ((s.op i).state = 1) ∧ ((s.op i).body = .scan m a n poly fold q g pos))
    ∧ (∃ (s : State) (r : MReq) (rest : List MReq) (h : Nat) (i : Nat), (s.serves 0x0006 r rest) ∧ (r.body = toLe 4 h) ∧ (h < 2 ^ 32) ∧ (s.opOf h = some i) ∧ (s.cancelCode i = none))
    ∧ (∃ (s : State) (r : MReq) (rest : List MReq) (z : SessSt), (s.serves 0x0007 r rest) ∧ (r.body.length = 4) ∧ (s.session r.sess = some z))
    ∧ (∃ (s : State) (r : MReq) (rest : List MReq) (m : Nat) (a : Nat) (n : Nat) (p : Nat) (g : Nat) (cont : Nat) (i : Nat), (s.serves 0x0040 r rest) ∧ (r.body.length = 32) ∧ (m = leAt r.body 0 1) ∧ (m < 64) ∧ (p = leAt r.body 1 1) ∧ (p < 3) ∧ (leAt r.body 2 1 < 3) ∧ (cont = leAt r.body 3 1) ∧ (cont < 2) ∧ (a = leAt r.body 8 8) ∧ (n = leAt r.body 16 8) ∧ (s.mouldLive m = true) ∧ (a % 64 = 0) ∧ (n % 64 = 0) ∧ (0 < n) ∧ (n ≤ 2 ^ 40) ∧ (a + n ≤ 2 ^ 48) ∧ (s.covered m a n 1 = true) ∧ (s.scans < 4) ∧ (s.freeEntry = some i) ∧ (g = (if cont = 1 then (leAt r.body 24 8 ^^^ scanOnes p) &&& scanOnes p else scanOnes p))) :=
  ⟨⟨withReq (w0) 1 ([]), reqOf 1 ([]), [], by decide +kernel⟩,
   ⟨withReq (w0) 2 (toLe 4 0x200 ++ toLe 2 3), (((withReq (w0) 2 (toLe 4 0x200 ++ toLe 2 3)).taken []).readCsrs 0x200 3).2, reqOf 2 (toLe 4 0x200 ++ toLe 2 3), [], 3, by decide +kernel⟩,
   ⟨withReq (w0) 2 (toLe 4 0x200 ++ toLe 2 1), reqOf 2 (toLe 4 0x200 ++ toLe 2 1), [], 0x200, 0, 0, .patStatus, by decide +kernel⟩,
   ⟨withReq (w0) 3 (toLe 4 (regAddr .scrubCtrl 0 0) ++ toLe 8 5 ++ toLe 8 (2 ^ 64 - 1)), (((withReq (w0) 3 (toLe 4 (regAddr .scrubCtrl 0 0) ++ toLe 8 5 ++ toLe 8 (2 ^ 64 - 1))).taken []).writeCsr 0 (regAddr .scrubCtrl 0 0) 5 (2 ^ 64 - 1)).2, reqOf 3 (toLe 4 (regAddr .scrubCtrl 0 0) ++ toLe 8 5 ++ toLe 8 (2 ^ 64 - 1)), [], 0, by decide +kernel⟩,
   ⟨withReq (((w0.logEvt 1 2 3 4).logEvt 5 6 7 8).logEvt 9 10 11 12) 4 (toLe 8 1 ++ toLe 2 2), reqOf 4 (toLe 8 1 ++ toLe 2 2), [], 1, 2, by decide +kernel⟩,
   ⟨wOp (.scan 1 0 128 0 0 0 0 0) 5 (toLe 4 259), reqOf 5 (toLe 4 259), [], 259, by decide +kernel⟩,
   ⟨wOp (.scan 1 0 128 0 0 0 0 0) 5 (toLe 4 258), reqOf 5 (toLe 4 258), [], 258, by decide +kernel⟩,
   ⟨wOp (.scan 1 0 128 0 0 0 0 0) 6 (toLe 4 259), reqOf 6 (toLe 4 259), [], 259, 3, 1, 0, 128, 0, 0, 0, 0, 0, by decide +kernel⟩,
   ⟨wOp (.retrain 1) 6 (toLe 4 259), reqOf 6 (toLe 4 259), [], 259, 3, by decide +kernel⟩,
   ⟨withReq (w0) 7 (toLe 4 7), reqOf 7 (toLe 4 7), [], zReq, by decide +kernel⟩,
   ⟨withReq (wRadio) 64 ([1, 2, 1, 1] ++ toLe 4 5 ++ toLe 8 0 ++ toLe 8 128 ++ toLe 8 99), reqOf 64 ([1, 2, 1, 1] ++ toLe 4 5 ++ toLe 8 0 ++ toLe 8 128 ++ toLe 8 99), [], 1, 0, 128, 2, (99 ^^^ (2 ^ 64 - 1)) &&& (2 ^ 64 - 1), 1, 0, by decide +kernel⟩⟩

theorem witness_LedgerReadsAndFailedAppends :
    (∃ (s : State) (r : MReq) (rest : List MReq) (ecc : Nat) (word : Nat) (o : Nat) (n : Nat), (s.serves 0x0053 r rest) ∧ (r.body.length = 6) ∧ (o = leAt r.body 0 4) ∧ (n = leAt r.body 4 2) ∧ (o % 8 = 0) ∧ (n % 8 = 0) ∧ (8 ≤ n) ∧ (n ≤ 1024) ∧ (o + n ≤ 33554432) ∧ ((ecc = 0 ∨ word < o / 8 ∨ (o + n) / 8 ≤ word)))
    ∧ (∃ (s : State) (r : MReq) (rest : List MReq) (word : Nat) (o : Nat) (n : Nat), (s.serves 0x0053 r rest) ∧ (r.body.length = 6) ∧ (o = leAt r.body 0 4) ∧ (n = leAt r.body 4 2) ∧ (o % 8 = 0) ∧ (n % 8 = 0) ∧ (8 ≤ n) ∧ (n ≤ 1024) ∧ (o + n ≤ 33554432) ∧ (o / 8 ≤ word) ∧ (word < (o + n) / 8) ∧ (s.logRoom 1))
    ∧ (∃ (s : State) (r : MReq) (rest : List MReq) (_ecc : Nat) (_word : Nat) (o : Nat) (n : Nat), (s.serves 0x0053 r rest) ∧ (r.body.length = 6) ∧ (o = leAt r.body 0 4) ∧ (n = leAt r.body 4 2) ∧ (o % 8 = 0) ∧ (n % 8 = 0) ∧ (8 ≤ n) ∧ (n ≤ 1024) ∧ (33554432 < o + n))
    ∧ (∃ (s : State) (dt : Nat) (t : Nat) (ty : Nat) (body : Bytes) (rest : List (Nat × LedWait)), (s.live = true) ∧ (s.led.waits = (t, .own ty body) :: rest) ∧ (t + 10000000 ≤ s.clk.up + dt) ∧ (s.noCompaction = false) ∧ (rest.all (fun p => s.clk.up + dt < p.1 + 10000000) = true) ∧ (s.logRoom 1))
    ∧ (∃ (s : State) (dt : Nat) (t : Nat) (i : Nat) (tgt : Nat) (rest : List (Nat × LedWait)), (s.live = true) ∧ (s.led.waits = (t, .op i) :: rest) ∧ (t + 10000000 ≤ s.clk.up + dt) ∧ (i < 256) ∧ (s.noCompaction = false) ∧ (rest.all (fun p => decide (s.clk.up + dt < p.1 + 10000000) && decide (p.2 ≠ .op i)) = true) ∧ ((s.op i).body = .stage tgt))
    ∧ (∃ (s : State) (dt : Nat) (t : Nat) (r : MReq) (q : List MReq) (rest : List (Nat × LedWait)), (s.live = true) ∧ (s.led.waits = (t, .cmd) :: rest) ∧ (t + 10000000 ≤ s.clk.up + dt) ∧ (s.noCompaction = false) ∧ (rest.all (fun p => s.clk.up + dt < p.1 + 10000000) = true) ∧ (s.mgmt.waiting = r :: q) ∧ ((s.session r.sess).isSome = true) ∧ (s.logRoom 1)) :=
  ⟨⟨withReq (w0) 83 (toLe 4 64 ++ toLe 2 16), reqOf 83 (toLe 4 64 ++ toLe 2 16), [], 0, 8, 64, 16, by decide +kernel⟩,
   ⟨withReq (w0) 83 (toLe 4 64 ++ toLe 2 16), reqOf 83 (toLe 4 64 ++ toLe 2 16), [], 8, 64, 16, by decide +kernel⟩,
   ⟨withReq (w0) 83 (toLe 4 33554424 ++ toLe 2 16), reqOf 83 (toLe 4 33554424 ++ toLe 2 16), [], 0, 8, 33554424, 16, by decide +kernel⟩,
   ⟨({ w0 with led := { (w0).led with waits := [(5, .own 3 [1]), (9, .cmd)] } } : State).wr F.ledgerStatus_compacting 1, 10000005, 5, 3, [1], [(9, .cmd)], by decide +kernel⟩,
   ⟨({ ({ wOp (.stage 0) 9 [] with led := { (wOp (.stage 0) 9 []).led with stage := some ⟨0, 7, 128, 259, true, false⟩ } } : State) with led := { (({ wOp (.stage 0) 9 [] with led := { (wOp (.stage 0) 9 []).led with stage := some ⟨0, 7, 128, 259, true, false⟩ } } : State)).led with waits := [(5, .op 3), (9, .cmd)] } } : State).wr F.ledgerStatus_compacting 1, 10000005, 5, 3, 0, [(9, .cmd)], by decide +kernel⟩,
   ⟨({ withReq w0 9 [] with led := { (withReq w0 9 []).led with waits := [(5, .cmd), (9, .op 5)] } } : State).wr F.ledgerStatus_compacting 1, 10000005, 5, reqOf 9 [], [], [(9, .op 5)], by decide +kernel⟩⟩

theorem witness_StagingAndCommit :
    (∃ (s : State) (t : State) (w : State) (r : MReq) (rest : List MReq) (n : Nat) (i : Nat), (s.opensStage t 0x0050 0 r rest n) ∧ (w = t.dropStage.ledDone .cmd) ∧ (w.freeEntry = some i))
    ∧ (∃ (s : State) (t : State) (w : State) (r : MReq) (rest : List MReq) (n : Nat) (i : Nat), (s.opensStage t 0x0052 1 r rest n) ∧ (w = t.dropStage.ledDone .cmd) ∧ (w.freeEntry = some i))
    ∧ (∃ (s : State) (t : State) (w : State) (r : MReq) (rest : List MReq) (st : StageSt) (idx : Nat) (data : Bytes), (s.sendsChunk 0x0050 0 r rest st idx data) ∧ (s.chunkOf st.id st.total idx = none) ∧ ((s.taken rest).append 2 (toLe 8 (st.id + idx * 2 ^ 32) ++ data) = some t) ∧ (w = (t.setOp (st.op % 256) { t.op (st.op % 256) with done := (t.op (st.op % 256)).done + 1 }).ledDone .cmd))
    ∧ (∃ (s : State) (t : State) (w : State) (r : MReq) (rest : List MReq) (st : StageSt) (idx : Nat) (data : Bytes), (s.sendsChunk 0x0052 1 r rest st idx data) ∧ (s.chunkOf st.id st.total idx = none) ∧ ((s.taken rest).append 2 (toLe 8 (st.id + idx * 2 ^ 32) ++ data) = some t) ∧ (w = (t.setOp (st.op % 256) { t.op (st.op % 256) with done := (t.op (st.op % 256)).done + 1 }).ledDone .cmd))
    ∧ (∃ (s : State) (r : MReq) (rest : List MReq) (st : StageSt) (idx : Nat) (data : Bytes) (d : Bytes), (s.sendsChunk 0x0050 0 r rest st idx data) ∧ (s.chunkOf st.id st.total idx = some d))
    ∧ (∃ (s : State) (r : MReq) (rest : List MReq) (st : StageSt), s.closesStage 0x0050 0 r rest st)
    ∧ (∃ (s : State) (r : MReq) (rest : List MReq) (st : StageSt), s.closesStage 0x0052 1 r rest st)
    ∧ (∃ (s : State) (t : State) (w : State) (r : MReq) (rest : List MReq) (st : StageSt) (q : LRec) (tgt : Nat), (s.serves 0x0051 r rest) ∧ (r.body.length = 8) ∧ (tgt = leAt r.body 0 1) ∧ (tgt < 2) ∧ (allZero (slice r.body 1 3) = true) ∧ (s.staging tgt (leAt r.body 4 4) = some st) ∧ (st.staged = true) ∧ (s.latestOf 3 = some q) ∧ ((s.taken rest).append 4 (slice q.body 0 44 ++ toLe 4 (stageVersion tgt ((s.stageData st.id st.total).getD [])) ++ toLe 4 st.total) = some t) ∧ (w = ({ t with led := { t.led with stage := none } } : State).ledDone .cmd) ∧ (s.logRoom 1)) :=
  ⟨⟨withReq (w0) 80 (stgBody 0), (((withReq (w0) 80 (stgBody 0)).taken []).append 1 (toLe 8 0 ++ toLe 8 30080 ++ (stgBody 0).drop 16)).getD w0, ((((withReq (w0) 80 (stgBody 0)).taken []).append 1 (toLe 8 0 ++ toLe 8 30080 ++ (stgBody 0).drop 16)).getD w0).dropStage.ledDone .cmd, reqOf 80 (stgBody 0), [], 30080, 0, by decide +kernel⟩,
   ⟨withReq (w0) 82 (stgBody 1), (((withReq (w0) 82 (stgBody 1)).taken []).append 1 (toLe 8 1 ++ toLe 8 30080 ++ (stgBody 1).drop 16)).getD w0, ((((withReq (w0) 82 (stgBody 1)).taken []).append 1 (toLe 8 1 ++ toLe 8 30080 ++ (stgBody 1).drop 16)).getD w0).dropStage.ledDone .cmd, reqOf 82 (stgBody 1), [], 30080, 0, by decide +kernel⟩,
   ⟨wStg 0 80 (chkBody 1) false false, (((wStg 0 80 (chkBody 1) false false).taken []).append 2 (toLe 8 7 ++ List.replicate 128 5#8)).getD w0, ((((((wStg 0 80 (chkBody 1) false false).taken []).append 2 (toLe 8 7 ++ List.replicate 128 5#8)).getD w0).setOp 3 { ((((wStg 0 80 (chkBody 1) false false).taken []).append 2 (toLe 8 7 ++ List.replicate 128 5#8)).getD w0).op 3 with done := 1 }).ledDone .cmd), reqOf 80 (chkBody 1), [], ⟨0, 7, 128, 259, false, false⟩, 0, List.replicate 128 5#8, by decide +kernel⟩,
   ⟨wStg 1 82 (chkBody 1) false false, (((wStg 1 82 (chkBody 1) false false).taken []).append 2 (toLe 8 7 ++ List.replicate 128 5#8)).getD w0, ((((((wStg 1 82 (chkBody 1) false false).taken []).append 2 (toLe 8 7 ++ List.replicate 128 5#8)).getD w0).setOp 3 { ((((wStg 1 82 (chkBody 1) false false).taken []).append 2 (toLe 8 7 ++ List.replicate 128 5#8)).getD w0).op 3 with done := 1 }).ledDone .cmd), reqOf 82 (chkBody 1), [], ⟨1, 7, 128, 259, false, false⟩, 0, List.replicate 128 5#8, by decide +kernel⟩,
   ⟨withChunk (wStg 0 0x50 (chkBody 1) false false), reqOf 0x50 (chkBody 1), [], ⟨0, 7, 128, 259, false, false⟩, 0, List.replicate 128 5#8, List.replicate 128 5#8, by decide +kernel⟩,
   ⟨withChunk (wStg 0 80 (chkBody 2) false false), reqOf 80 (chkBody 2), [], ⟨0, 7, 128, 259, false, false⟩, by decide +kernel⟩,
   ⟨withChunk (wStg 1 82 (chkBody 2) false false), reqOf 82 (chkBody 2), [], ⟨1, 7, 128, 259, false, false⟩, by decide +kernel⟩,
   ⟨((withChunk (wStg 0 0x51 (toLe 4 0 ++ toLe 4 259) true true)).append 3 (List.replicate 44 6#8)).getD w0, (((((withChunk (wStg 0 0x51 (toLe 4 0 ++ toLe 4 259) true true)).append 3 (List.replicate 44 6#8)).getD w0).taken ([] : List MReq)).append 4 (slice (((((withChunk (wStg 0 0x51 (toLe 4 0 ++ toLe 4 259) true true)).append 3 (List.replicate 44 6#8)).getD w0).latestOf 3).getD ⟨0, 0, 0, 0, false, []⟩).body 0 44 ++ toLe 4 (stageVersion (0 : Nat) (((((withChunk (wStg 0 0x51 (toLe 4 0 ++ toLe 4 259) true true)).append 3 (List.replicate 44 6#8)).getD w0).stageData (⟨0, 7, 128, 259, true, true⟩ : StageSt).id (⟨0, 7, 128, 259, true, true⟩ : StageSt).total).getD [])) ++ toLe 4 (⟨0, 7, 128, 259, true, true⟩ : StageSt).total)).getD w0, (({ ((((((withChunk (wStg 0 0x51 (toLe 4 0 ++ toLe 4 259) true true)).append 3 (List.replicate 44 6#8)).getD w0).taken ([] : List MReq)).append 4 (slice (((((withChunk (wStg 0 0x51 (toLe 4 0 ++ toLe 4 259) true true)).append 3 (List.replicate 44 6#8)).getD w0).latestOf 3).getD ⟨0, 0, 0, 0, false, []⟩).body 0 44 ++ toLe 4 (stageVersion (0 : Nat) (((((withChunk (wStg 0 0x51 (toLe 4 0 ++ toLe 4 259) true true)).append 3 (List.replicate 44 6#8)).getD w0).stageData (⟨0, 7, 128, 259, true, true⟩ : StageSt).id (⟨0, 7, 128, 259, true, true⟩ : StageSt).total).getD [])) ++ toLe 4 (⟨0, 7, 128, 259, true, true⟩ : StageSt).total)).getD w0) with led := { ((((((withChunk (wStg 0 0x51 (toLe 4 0 ++ toLe 4 259) true true)).append 3 (List.replicate 44 6#8)).getD w0).taken ([] : List MReq)).append 4 (slice (((((withChunk (wStg 0 0x51 (toLe 4 0 ++ toLe 4 259) true true)).append 3 (List.replicate 44 6#8)).getD w0).latestOf 3).getD ⟨0, 0, 0, 0, false, []⟩).body 0 44 ++ toLe 4 (stageVersion (0 : Nat) (((((withChunk (wStg 0 0x51 (toLe 4 0 ++ toLe 4 259) true true)).append 3 (List.replicate 44 6#8)).getD w0).stageData (⟨0, 7, 128, 259, true, true⟩ : StageSt).id (⟨0, 7, 128, 259, true, true⟩ : StageSt).total).getD [])) ++ toLe 4 (⟨0, 7, 128, 259, true, true⟩ : StageSt).total)).getD w0).led with stage := none } } : State).ledDone .cmd), reqOf 0x51 (toLe 4 0 ++ toLe 4 259), [], ⟨0, 7, 128, 259, true, true⟩, ((((withChunk (wStg 0 0x51 (toLe 4 0 ++ toLe 4 259) true true)).append 3 (List.replicate 44 6#8)).getD w0).latestOf 3).getD ⟨0, 0, 0, 0, false, []⟩, 0, by decide +kernel, by decide +kernel, by decide +kernel, by decide +kernel, by decide +kernel, by decide +kernel, by decide +kernel, someGetD (by decide +kernel), someGetD (by decide +kernel), rfl, by decide +kernel⟩⟩

theorem witness_PoursAndSteps :
    (∃ (s : State) (r : MReq) (rest : List MReq) (i : Nat) (b : Bool), (s.serves 0x0010 r rest) ∧ (s.pouring = none) ∧ (s.rd F.dbgStatus_level < 2) ∧ (b = (patKindOf r.body == 1)) ∧ ((b = true ∨ s.oper.isSome = true)) ∧ (s.freeEntry = some i))
    ∧ (∃ (s : State) (r : MReq) (rest : List MReq), (s.serves 0x0010 r rest) ∧ (s.pouring.isSome = true))
    ∧ (∃ (s : State) (dt : Nat) (i : Nat) (_ecc : Nat) (_word : Nat) (_ok : Bool), (s.live = true) ∧ ((s.coreUp 0 = false ∨ s.stepReady i = false ∨ (s.stepClass i).2 < dt ∨ (s.stepClass i).1 = true ∧ (s.stepPick ≠ some i ∨ s.coreStepOk dt = false))))
    ∧ (∃ (s : State) (dt : Nat) (i : Nat) (_ecc : Nat) (_word : Nat) (_ok : Bool) (b : Bool) (a : Bytes), (s.coreStepMay dt i) ∧ ((s.op i).body = .token a b))
    ∧ (∃ (s : State) (dt : Nat) (i : Nat) (_ecc : Nat) (_word : Nat) (m : Nat) (_ok : Bool) (p : PourSt), (s.coreStepMay dt i) ∧ ((s.op i).body = .pour p) ∧ (p.base = false) ∧ ((s.op i).done + 1 = mouldSteps p.data) ∧ (s.keyGone p.data = none) ∧ ((claimsOf p.data).any s.fencedCluster = false) ∧ (m = patMouldNo p.data) ∧ (m < 64) ∧ (i < 256) ∧ (s.logRoom 2))
    ∧ (∃ (s : State) (v : State) (dt : Nat) (i : Nat) (ecc : Nat) (word : Nat) (m : Nat) (a : Nat) (n : Nat) (poly : Nat) (fold : Nat) (q : Nat) (g : Nat) (pos : Nat) (_ok : Bool), (s.live = true) ∧ (s.coreUp 0 = true) ∧ (s.stepReady i = true) ∧ (dt ≤ 100000) ∧ (i < 256) ∧ ((s.op i).body = .scan m a n poly fold q g pos) ∧ (s.mouldLive m = true) ∧ (n ≤ pos + min 65536 (n - pos)) ∧ ((s.stepping false dt i).access m (a + pos) (min 65536 (n - pos)) ecc word = (0, v)))
    ∧ (∃ (s : State) (v : State) (dt : Nat) (i : Nat) (ecc : Nat) (word : Nat) (m : Nat) (a : Nat) (n : Nat) (poly : Nat) (fold : Nat) (q : Nat) (g : Nat) (pos : Nat) (_ok : Bool), (s.live = true) ∧ (s.coreUp 0 = true) ∧ (s.stepReady i = true) ∧ (dt ≤ 100000) ∧ ((s.op i).body = .scan m a n poly fold q g pos) ∧ (s.mouldLive m = true) ∧ (pos + 65536 < n) ∧ ((s.stepping false dt i).access m (a + pos) 65536 ecc word = (0, v)))
    ∧ (∃ (s : State) (dt : Nat) (i : Nat) (_ecc : Nat) (_word : Nat) (ch : Nat) (_ok : Bool), (s.live = true) ∧ (s.coreUp 0 = true) ∧ (s.stepReady i = true) ∧ (dt ≤ 100000) ∧ ((s.op i).body = .retrain ch) ∧ ((s.op i).done = 0)) :=
  ⟨⟨withReq (w0) 16 (List.replicate 6 0#8 ++ [1, 0]), reqOf 16 (List.replicate 6 0#8 ++ [1, 0]), [], 0, true, by decide +kernel⟩,
   ⟨({ wOp (.pour ⟨[], true, 64, false⟩) 0x10 [] with mgmt := { (wOp (.pour ⟨[], true, 64, false⟩) 0x10 []).mgmt with ops := [(3, { (wOp (.pour ⟨[], true, 64, false⟩) 0x10 []).op 3 with kind := 2 })] } } : State), reqOf 0x10 [], [], by decide +kernel⟩,
   ⟨wOp (.retrain 1) 9 [], 100001, 3, 0, 0, true, by decide +kernel⟩,
   ⟨wOp (.token [] true) 9 [], 20000, 3, 0, 0, true, true, [], by decide +kernel⟩,
   ⟨(let s := wOp (.pour ⟨pourPat, false, 1, true⟩) 9 []; let k := ((s.enrolKey 2 0 (List.replicate 104 5#8)).map (·.2)).getD s; (k.setOp 3 { k.op 3 with done := mouldSteps pourPat - 1, kind := 2 }).setMould 1 { k.mould 1 with claimed := [5] }), 100000, 3, 0, 0, 1, true, ⟨pourPat, false, 1, true⟩, by decide +kernel⟩,
   ⟨({ wRadio with mgmt := (wOp (.scan 1 0 128 2 1 0 77 0) 9 []).mgmt } : State), (((({ wRadio with mgmt := (wOp (.scan 1 0 128 2 1 0 77 0) 9 []).mgmt } : State)).stepping false 5 3).access 1 0 128 0 0).2, 5, 3, 0, 0, 1, 0, 128, 2, 1, 0, 77, 0, true, by decide +kernel⟩,
   ⟨({ wRadio with mgmt := (wOp (.scan 1 0 131072 2 1 0 77 0) 9 []).mgmt } : State), (((({ wRadio with mgmt := (wOp (.scan 1 0 131072 2 1 0 77 0) 9 []).mgmt } : State)).stepping false 5 3).access 1 0 65536 0 0).2, 5, 3, 0, 0, 1, 0, 131072, 2, 1, 0, 77, 0, true, by decide +kernel⟩,
   ⟨wOp (.retrain 1) 9 [], 5, 3, 0, 0, 1, true, by decide +kernel⟩⟩

theorem witness_RecoveryLoader :
    (∃ (s : State) (dt : Nat) (reason : Nat), (s.live = true) ∧ (s.sec.recovering = some reason) ∧ (s.sec.recAt + 100000000 ≤ s.clk.up + dt))
    ∧ (∃ (s : State) (dt : Nat), (s.live = true) ∧ ((s.sec.recovering = none ∨ s.clk.up + dt < s.sec.recAt + 100000000)))
    ∧ (∃ (s : State) (d : Bytes), (s.live = true) ∧ ((s.sec.recovering = none ∨ leAt d 0 4 ≠ 0x44524B49 ∨ leAt d 4 4 ≠ s.recId ∨ leAt d 8 2 ≠ s.recNext)))
    ∧ (∃ (s : State) (d : Bytes) (idx : Nat) (frag : Nat) (total : Nat) (len : Nat), (s.live = true) ∧ (s.sec.recovering.isSome = true) ∧ (leAt d 0 4 = 0x44524B49) ∧ (leAt d 4 4 = s.recId) ∧ (idx = leAt d 8 2) ∧ (idx = s.recNext) ∧ (frag = leAt d 10 1) ∧ (frag < 64) ∧ (total = leAt d 11 4) ∧ (idx < stgChunks total) ∧ (s.led.stage.all (fun st => st.total = total) = true) ∧ ((s.sec.recHave = [] ∨ s.sec.recStage = total)) ∧ (len = stgLen total idx) ∧ ((d.drop 15).length = min 1024 (len - 1024 * frag)) ∧ (1024 * frag < len) ∧ (s.sec.recHave.any (fun p => p.1 = frag) = false) ∧ (s.sec.recHave.length + 1 < cdiv len 1024))
    ∧ (∃ (s : State) (t : State) (w : State) (d : Bytes) (total : Nat), (s.live = true) ∧ (s.sec.recovering.isSome = true) ∧ (leAt d 0 4 = 0x44524B49) ∧ (leAt d 4 4 = 0) ∧ (leAt d 8 2 = 0) ∧ (leAt d 10 1 = 0) ∧ (total = leAt d 11 4) ∧ (s.led.stage = none) ∧ (s.sec.recHave = []) ∧ ((d.drop 15).length = total) ∧ (total ≤ 1024) ∧ (stageLenOk 0 total (slice d 15 64) = true) ∧ (s.append 1 (toLe 8 0 ++ toLe 8 total ++ slice d 15 64) = some t) ∧ (t.append 2 (toLe 8 (t.led.seq % 2 ^ 32) ++ d.drop 15) = some w) ∧ (w.chunkOf (t.led.seq % 2 ^ 32) total 0 = some (d.drop 15)) ∧ (imageOk (d.drop 15) = false) ∧ (s.logRoom 1)) :=
  ⟨⟨wRec, 100000000, 0x1701, by decide +kernel⟩,
   ⟨wRec, 99999999, by decide +kernel⟩,
   ⟨wRec, toLe 4 5, by decide +kernel⟩,
   ⟨wRec, recData 2048 1024, 0, 0, 2048, 2048, by decide +kernel⟩,
   ⟨wRec, (wRec.append 1 (toLe 8 0 ++ toLe 8 128 ++ slice (toLe 4 0x44524B49 ++ toLe 4 0 ++ toLe 2 0 ++ [0] ++ toLe 4 128 ++ (toLe 8 0 ++ toLe 4 128 ++ List.replicate 116 0#8)) 15 64)).getD w0, (((wRec.append 1 (toLe 8 0 ++ toLe 8 128 ++ slice (toLe 4 0x44524B49 ++ toLe 4 0 ++ toLe 2 0 ++ [0] ++ toLe 4 128 ++ (toLe 8 0 ++ toLe 4 128 ++ List.replicate 116 0#8)) 15 64)).getD w0).append 2 (toLe 8 (((wRec.append 1 (toLe 8 0 ++ toLe 8 128 ++ slice (toLe 4 0x44524B49 ++ toLe 4 0 ++ toLe 2 0 ++ [0] ++ toLe 4 128 ++ (toLe 8 0 ++ toLe 4 128 ++ List.replicate 116 0#8)) 15 64)).getD w0).led.seq % 2 ^ 32) ++ (toLe 4 0x44524B49 ++ toLe 4 0 ++ toLe 2 0 ++ [0] ++ toLe 4 128 ++ (toLe 8 0 ++ toLe 4 128 ++ List.replicate 116 0#8)).drop 15)).getD w0, (toLe 4 0x44524B49 ++ toLe 4 0 ++ toLe 2 0 ++ [0] ++ toLe 4 128 ++ (toLe 8 0 ++ toLe 4 128 ++ List.replicate 116 0#8)), 128, by decide +kernel⟩⟩

theorem witness_KeyEnrolmentAndRevocation_1 :
    (∃ (s : State) (t : State) (r : MReq) (rest : List MReq) (roles : Nat), (s.serves 0x0058 r rest) ∧ (leAt r.body 0 1 = 1) ∧ (enrolFormat r.body = true) ∧ (roles = leAt r.body 4 1) ∧ (bit roles 3 = false) ∧ (s.enrolRefused r.body = 0) ∧ ((s.advanceCounter 4 (s.counter 4 + 1)).isSome = true) ∧ ((s.taken rest).enrolSlot 1 roles (slice r.body 12 48 ++ List.replicate 56 0#8) = some t) ∧ (s.logRoom 2))
    ∧ (∃ (s : State) (t : State) (r : MReq) (rest : List MReq), (s.serves 0x0058 r rest) ∧ (leAt r.body 0 1 = 2) ∧ (enrolFormat r.body = true) ∧ (s.enrolRefused r.body = 0) ∧ ((s.advanceCounter 4 (s.counter 4 + 1)).isSome = true) ∧ ((s.taken rest).enrolSlot 2 0 (slice r.body 4 48 ++ List.replicate 56 0#8) = some t) ∧ (s.logRoom 2))
    ∧ (∃ (s : State) (r : MReq) (rest : List MReq), (s.serves 0x0058 r rest) ∧ (leAt r.body 0 1 = 2) ∧ (enrolFormat r.body = true) ∧ (s.enrolRefused r.body ≠ 0)) :=
  ⟨⟨withReq (w0) 88 ([1, 0, 0, 0, 7] ++ List.replicate 7 0#8 ++ List.replicate 48 9#8), (((withReq (w0) 88 ([1, 0, 0, 0, 7] ++ List.replicate 7 0#8 ++ List.replicate 48 9#8) : State).taken ([] : List MReq)).enrolSlot 1 (7 : Nat) (slice (reqOf 88 ([1, 0, 0, 0, 7] ++ List.replicate 7 0#8 ++ List.replicate 48 9#8) : MReq).body 12 48 ++ List.replicate 56 0#8)).getD w0, reqOf 88 ([1, 0, 0, 0, 7] ++ List.replicate 7 0#8 ++ List.replicate 48 9#8), [], 7, by decide +kernel, by decide +kernel, by decide +kernel, by decide +kernel, by decide +kernel, by decide +kernel, by decide +kernel, someGetD (by decide +kernel), by decide +kernel⟩,
   ⟨withReq (w0) 88 ([2, 0, 0, 0] ++ List.replicate 48 9#8), (((withReq (w0) 88 ([2, 0, 0, 0] ++ List.replicate 48 9#8) : State).taken ([] : List MReq)).enrolSlot 2 0 (slice (reqOf 88 ([2, 0, 0, 0] ++ List.replicate 48 9#8) : MReq).body 4 48 ++ List.replicate 56 0#8)).getD w0, reqOf 88 ([2, 0, 0, 0] ++ List.replicate 48 9#8), [], by decide +kernel, by decide +kernel, by decide +kernel, by decide +kernel, by decide +kernel, someGetD (by decide +kernel), by decide +kernel⟩,
   ⟨withReq (wMgm [] []) 88 ([2, 0, 0, 0] ++ List.replicate 48 5#8), reqOf 88 ([2, 0, 0, 0] ++ List.replicate 48 5#8), [], by decide +kernel⟩⟩

theorem witness_KeyEnrolmentAndRevocation_2 :
    (∃ (s : State) (t : State) (r : MReq) (rest : List MReq) (b : Bytes) (q : Bytes), (s.serves 0x0058 r rest) ∧ (leAt r.body 0 1 = 4) ∧ (enrolFormat r.body = true) ∧ (b = slice r.body 4 272) ∧ (s.enrolRefused r.body = 0) ∧ ((s.advanceCounter 4 (s.counter 4 + 1)).isSome = true) ∧ (leAt b 2 2 = 0) ∧ (q = slice b 0 0x10 ++ List.replicate 16 0#8 ++ slice b 0x20 240) ∧ ((s.taken rest).append 0x30 q = some t) ∧ (s.logRoom 3) ∧ (s.led.waits = []))
    ∧ (∃ (s : State) (r : MReq) (rest : List MReq), (s.serves 0x0058 r rest) ∧ (leAt r.body 0 1 = 4) ∧ (enrolFormat r.body = true) ∧ (s.enrolRefused r.body = 0) ∧ ((s.advanceCounter 4 (s.counter 4 + 1)).isSome = true))
    ∧ (∃ (s : State) (r : MReq) (rest : List MReq) (c : Bytes), (s.serves 0x0058 r rest) ∧ (leAt r.body 0 1 = 3) ∧ (enrolFormat r.body = true) ∧ (c = r.body.drop 108) ∧ (certFormat true c = true) ∧ (leAt c 0x0C 4 = s.counter 4) ∧ (slice c 0x60 32 = digest256 (r.body.take 108))) :=
  ⟨⟨withReq (w0) 88 ([4, 0, 0, 0] ++ List.replicate 272 0#8), (((withReq (w0) 88 ([4, 0, 0, 0] ++ List.replicate 272 0#8) : State).taken ([] : List MReq)).append 0x30 (List.replicate 272 0#8 : Bytes)).getD w0, reqOf 88 ([4, 0, 0, 0] ++ List.replicate 272 0#8), [], List.replicate 272 0#8, List.replicate 272 0#8, by decide +kernel, by decide +kernel, by decide +kernel, by decide +kernel, by decide +kernel, by decide +kernel, by decide +kernel, by decide +kernel, someGetD (by decide +kernel), by decide +kernel, by decide +kernel⟩,
   ⟨withReq (w0) 88 ([4, 0, 0, 0] ++ List.replicate 272 0#8), reqOf 88 ([4, 0, 0, 0] ++ List.replicate 272 0#8), [], by decide +kernel⟩,
   ⟨withReq (w0) 88 (([3, 0, 0, 0] ++ List.replicate 104 0#8) ++ (toLe 4 0x43514B49 ++ toLe 2 1 ++ [4, 0] ++ List.replicate (0x60 - 8) 0#8 ++ digest256 ([3, 0, 0, 0] ++ List.replicate 104 0#8) ++ List.replicate (272 - 0x80) 0#8)), reqOf 88 (([3, 0, 0, 0] ++ List.replicate 104 0#8) ++ (toLe 4 0x43514B49 ++ toLe 2 1 ++ [4, 0] ++ List.replicate (0x60 - 8) 0#8 ++ digest256 ([3, 0, 0, 0] ++ List.replicate 104 0#8) ++ List.replicate (272 - 0x80) 0#8)), [], (toLe 4 0x43514B49 ++ toLe 2 1 ++ [4, 0] ++ List.replicate (0x60 - 8) 0#8 ++ digest256 ([3, 0, 0, 0] ++ List.replicate 104 0#8) ++ List.replicate (272 - 0x80) 0#8), by decide +kernel⟩⟩

theorem witness_KeyEnrolmentAndRevocation_3 :
    (∃ (s : State) (r : MReq) (rest : List MReq), (s.serves 0x0058 r rest) ∧ (leAt r.body 0 1 = 3) ∧ (enrolFormat r.body = true) ∧ (r.body.length = 108))
    ∧ (∃ (s : State) (v : State) (r : MReq) (rest : List MReq) (k : KeySlot), (s.serves 0x0059 r rest) ∧ (r.body.length = 8) ∧ (s.slotOf r.body = some k) ∧ (s.revokeRefused r.body = 0) ∧ (s.revokeNeedsAuth r.body = false) ∧ ((s.advanceCounter 4 (s.counter 4 + 1)).isSome = true) ∧ (v = ((s.taken rest).setLed (0x4000 + 16 * k.idx + 15) s.clk.ns)))
    ∧ (∃ (s : State) (r : MReq) (rest : List MReq), (s.serves 0x0059 r rest) ∧ (8 ≤ r.body.length) ∧ (s.slotOf (slice r.body 0 8) = none)) :=
  ⟨⟨withReq (w0) 88 (([3, 0, 0, 0] ++ List.replicate 104 0#8)), reqOf 88 (([3, 0, 0, 0] ++ List.replicate 104 0#8)), [], by decide +kernel⟩,
   ⟨({ withReq ((let s := wMgm [] []; ((s.enrolKey 1 7 (List.replicate 104 6#8)).map (·.2)).getD s)) 89 ((keyId (List.replicate 48 5#8))) with mgmt := { (withReq ((let s := wMgm [] []; ((s.enrolKey 1 7 (List.replicate 104 6#8)).map (·.2)).getD s)) 89 ((keyId (List.replicate 48 5#8)))).mgmt with sessions := [{ zReq with keyId := keyId (List.replicate 48 5#8) }, { zReq with id := 2 }] } } : State), ((({ withReq ((let s := wMgm [] []; ((s.enrolKey 1 7 (List.replicate 104 6#8)).map (·.2)).getD s)) 89 ((keyId (List.replicate 48 5#8))) with mgmt := { (withReq ((let s := wMgm [] []; ((s.enrolKey 1 7 (List.replicate 104 6#8)).map (·.2)).getD s)) 89 ((keyId (List.replicate 48 5#8)))).mgmt with sessions := [{ zReq with keyId := keyId (List.replicate 48 5#8) }, { zReq with id := 2 }] } } : State)).taken []).setLed (0x4000 + 15) (({ withReq ((let s := wMgm [] []; ((s.enrolKey 1 7 (List.replicate 104 6#8)).map (·.2)).getD s)) 89 ((keyId (List.replicate 48 5#8))) with mgmt := { (withReq ((let s := wMgm [] []; ((s.enrolKey 1 7 (List.replicate 104 6#8)).map (·.2)).getD s)) 89 ((keyId (List.replicate 48 5#8)))).mgmt with sessions := [{ zReq with keyId := keyId (List.replicate 48 5#8) }, { zReq with id := 2 }] } } : State)).clk.ns, reqOf 89 ((keyId (List.replicate 48 5#8))), [], ((({ withReq ((let s := wMgm [] []; ((s.enrolKey 1 7 (List.replicate 104 6#8)).map (·.2)).getD s)) 89 ((keyId (List.replicate 48 5#8))) with mgmt := { (withReq ((let s := wMgm [] []; ((s.enrolKey 1 7 (List.replicate 104 6#8)).map (·.2)).getD s)) 89 ((keyId (List.replicate 48 5#8)))).mgmt with sessions := [{ zReq with keyId := keyId (List.replicate 48 5#8) }, { zReq with id := 2 }] } } : State)).slotOf (keyId (List.replicate 48 5#8))).getD ⟨0, 0, 0, [], true⟩, by decide +kernel⟩,
   ⟨withReq (w0) 89 (List.replicate 8 3#8), reqOf 89 (List.replicate 8 3#8), [], by decide +kernel⟩⟩

theorem witness_KeyEnrolmentAndRevocation_4 :
    (∃ (s : State) (t : State) (p : Bytes), (s.live = true) ∧ (s.coreUp 0 = true) ∧ (s.rd F.healthStatus_state ≠ 1) ∧ (p.length = 56) ∧ (leAt p 48 1 < 16) ∧ (allZero (slice p 49 7) = true) ∧ (s.keySlots.any (fun k => k.kind = 1) = false) ∧ (s.enrolSlot 1 (7 + (if bit (leAt p 48 1) 3 then 8 else 0)) (slice p 0 48 ++ List.replicate 56 0#8) = some t) ∧ (s.logRoom 2))
    ∧ (∃ (s : State) (_p : Bytes), (s.live = true) ∧ (s.coreUp 0 = true) ∧ (s.rd F.healthStatus_state ≠ 1) ∧ (s.keySlots.any (fun k => k.kind = 1) = true) ∧ (s.logRoom 1)) :=
  ⟨⟨(w0.wr F.healthStatus_state 2), (((w0.wr F.healthStatus_state 2)).enrolSlot 1 (7 + (if bit (leAt ((List.replicate 48 5#8 ++ [8] ++ List.replicate 7 0#8)) 48 1) 3 then 8 else 0)) (slice ((List.replicate 48 5#8 ++ [8] ++ List.replicate 7 0#8)) 0 48 ++ List.replicate 56 0#8)).getD w0, (List.replicate 48 5#8 ++ [8] ++ List.replicate 7 0#8), by decide +kernel, by decide +kernel, by decide +kernel, by decide +kernel, by decide +kernel, by decide +kernel, by decide +kernel, someGetD (by decide +kernel), by decide +kernel⟩,
   ⟨(wMgm [] []).wr F.healthStatus_state 2, (List.replicate 48 5#8 ++ [8] ++ List.replicate 7 0#8), by decide +kernel⟩⟩

theorem witness_AttestationDebugAndTamper :
    (∃ (s : State) (r : MReq) (rest : List MReq) (m : Nat) (i : Nat), (s.serves 0x005A r rest) ∧ (r.body.length = 36) ∧ (leAt r.body 0 1 = 0) ∧ (m = leAt r.body 1 1) ∧ (allZero (slice r.body 2 2) = true) ∧ ((m < 64 ∧ 2 ≤ s.mstate m ∨ m = 0xFF)) ∧ (s.freeEntry = some i))
    ∧ (∃ (s : State) (r : MReq) (rest : List MReq) (h : Nat) (o : Nat) (n : Nat) (p : Nat × Bytes), (s.serves 0x005A r rest) ∧ (r.body.length = 14) ∧ (leAt r.body 0 1 = 1) ∧ (h = leAt r.body 4 4) ∧ (o = leAt r.body 8 4) ∧ (n = leAt r.body 12 2) ∧ (allZero (slice r.body 2 2) = true) ∧ (1 ≤ n) ∧ (n ≤ 1376) ∧ (o + n ≤ 36176) ∧ ((s.opOf h).isSome = true) ∧ (s.sec.reports.find? (fun p => p.1 = h) = some p))
    ∧ (∃ (s : State) (r : MReq) (rest : List MReq) (h : Nat) (o : Nat) (n : Nat), (s.serves 0x005A r rest) ∧ (r.body.length = 14) ∧ (leAt r.body 0 1 = 1) ∧ (h = leAt r.body 4 4) ∧ (o = leAt r.body 8 4) ∧ (n = leAt r.body 12 2) ∧ (allZero (slice r.body 2 2) = true) ∧ (1 ≤ n) ∧ (n ≤ 1376) ∧ (o + n ≤ 36176) ∧ ((s.opOf h = none ∨ s.sec.reports.any (fun p => p.1 = h) = false)))
    ∧ (∃ (s : State) (r : MReq) (rest : List MReq) (level : Nat), (s.serves 0x005B r rest) ∧ (debugFormat r.body = true) ∧ (leAt r.body 0 1 = 0) ∧ (level = leAt r.body 1 1) ∧ (level ≤ leAt s.policy 1 1) ∧ (level < 3) ∧ (s.rd F.dbgStatus_level ≠ 3) ∧ ((level = 2 → (s.rd F.healthStatus_state = 2 ∨ s.rd F.healthStatus_state = 6) ∧ s.allEmpty = true)) ∧ (s.logRoom 1))
    ∧ (∃ (s : State) (r : MReq) (rest : List MReq), (s.serves 0x005B r rest) ∧ (debugFormat r.body = true) ∧ (leAt r.body 0 1 = 1) ∧ (s.rd F.dbgStatus_level ≠ 3))
    ∧ (∃ (s : State) (r : MReq) (rest : List MReq), (s.serves 0x005B r rest) ∧ (debugFormat r.body = true) ∧ (leAt r.body 0 1 = 2))
    ∧ (∃ (s : State) (dt : Nat) (t : Nat), (s.live = true) ∧ (s.sec.debugEnd = some t) ∧ (t ≤ s.clk.up + dt) ∧ (s.rd F.dbgStatus_level ≠ 3))
    ∧ (∃ (s : State) (k : Nat), (s.live = true) ∧ (k < 6) ∧ (bit s.bkp.tamper k = false) ∧ (bit (leAt s.policy 0 1) k = false) ∧ (s.logRoom 1))
    ∧ (∃ (s : State) (k : Nat), (s.live = true) ∧ (k < 6) ∧ (bit s.bkp.tamper k = false) ∧ (bit (leAt s.policy 0 1) k = true))
    ∧ (∃ (s : State) (k : Nat), (s.live = false) ∧ (k < 6) ∧ (bit s.bkp.tamper k = false))
    ∧ (∃ (_s : State) (k : Nat), k < 6)
    ∧ (∃ (s : State) (i : Nat) (d : Bytes) (f : Bool), (s.live = true) ∧ (s.tokenOp = some (i, d, f)) ∧ (96 ≤ (s.op i).done) ∧ (256 ≤ i))
    ∧ (∃ (s : State) (v : Nat), (s.live = true) ∧ (bit v 0 = true) ∧ (s.led.netAt.any (fun t => s.clk.up < t + 1000000000) = true) ∧ (s.logRoom 1))
    ∧ (∃ (s : State) (w : State) (t : State) (v : Nat), (s.live = true) ∧ (bit v 0 = true) ∧ (s.led.netAt.all (fun t => t + 1000000000 ≤ s.clk.up) = true) ∧ (s.led.waits = []) ∧ (w = { s.wr F.ledgerCtrl_summaryS (bitsOf v 16 16) with led := { s.led with netAt := some s.clk.up } }) ∧ (w.append 0x11 (toLe 8 (s.reg .ledgerNet0) ++ toLe 8 (s.reg .ledgerNet1) ++ toLe 1 (s.rd F.ledgerNet2_prefixLen) ++ toLe 7 0) = some t)) :=
  ⟨⟨withReq (wRadio) 90 ([0, 1, 0, 0] ++ List.replicate 32 3#8), reqOf 90 ([0, 1, 0, 0] ++ List.replicate 32 3#8), [], 1, 0, by decide +kernel⟩,
   ⟨({ wOp .none 0x5A ([1, 0, 0, 0] ++ toLe 4 259 ++ toLe 4 2 ++ toLe 2 3) with sec := { (wOp .none 0x5A ([1, 0, 0, 0] ++ toLe 4 259 ++ toLe 4 2 ++ toLe 2 3)).sec with reports := [(259, [1, 2, 3, 4, 5, 6])] } } : State), reqOf 0x5A ([1, 0, 0, 0] ++ toLe 4 259 ++ toLe 4 2 ++ toLe 2 3), [], 259, 2, 3, (259, [1, 2, 3, 4, 5, 6]), by decide +kernel⟩,
   ⟨wOp .none 0x5A ([1, 0, 0, 0] ++ toLe 4 259 ++ toLe 4 2 ++ toLe 2 3), reqOf 0x5A ([1, 0, 0, 0] ++ toLe 4 259 ++ toLe 4 2 ++ toLe 2 3), [], 259, 2, 3, by decide +kernel⟩,
   ⟨withReq (w0) 91 ([0, 1, 0, 0] ++ toLe 4 60), reqOf 91 ([0, 1, 0, 0] ++ toLe 4 60), [], 1, by decide +kernel⟩,
   ⟨withReq (w0.wr F.dbgStatus_level 1) 91 ([1, 0, 0, 0] ++ toLe 4 60), reqOf 91 ([1, 0, 0, 0] ++ toLe 4 60), [], by decide +kernel⟩,
   ⟨withReq ({ w0 with bkp := { w0.bkp with tamper := 7 } }) 91 ([2, 0, 0, 0] ++ toLe 4 60), reqOf 91 ([2, 0, 0, 0] ++ toLe 4 60), [], by decide +kernel⟩,
   ⟨({ w0 with sec := { w0.sec with debugEnd := some 9 } } : State).wr F.dbgStatus_level 1, 9, 9, by decide +kernel⟩,
   ⟨w0, 3, by decide +kernel⟩,
   ⟨(let s := w0; (s.append 0x30 (8#8 :: List.replicate 271 0#8)).getD s), 3, by decide +kernel⟩,
   ⟨State.reset, 3, by decide +kernel⟩,
   ⟨w0, 3, by decide +kernel⟩,
   ⟨{ w0 with mgmt := { w0.mgmt with sessions := [zReq], ops := [(256, { (wOp (.token [1] true) 9 []).op 3 with done := 96 })] } }, 256, [1], true, by decide +kernel⟩,
   ⟨{ w0 with led := { w0.led with netAt := some 0 } }, 1 + 7 * 65536, by decide +kernel⟩,
   ⟨w0, ({ w0.wr F.ledgerCtrl_summaryS 7 with led := { w0.led with netAt := some w0.clk.up } } : State), (({ w0.wr F.ledgerCtrl_summaryS 7 with led := { w0.led with netAt := some w0.clk.up } } : State).append 0x11 (List.replicate 24 0#8)).getD w0, 1 + 7 * 65536, by decide +kernel⟩⟩

theorem witness_SupplyAndResetCauses :
    (∃ (s : State), s.live = true)
    ∧ (∃ (s : State), s.live = false)
    ∧ (∃ (s : State) (mV : Nat), (s.live = true) ∧ (66000 < mV) ∧ (mV ≤ 80000))
    ∧ (∃ (s : State) (mV : Nat), (s.live = true) ∧ (s.rst.vinOut = false) ∧ ((38000 ≤ mV ∧ mV < 40000 ∨ 60000 < mV ∧ mV ≤ 66000)) ∧ (s.logRoom 1))
    ∧ (∃ (_s : State) (mV : Nat), (40000 ≤ mV) ∧ (mV ≤ 60000))
    ∧ (∃ (s : State) (ns : Nat), (s.live = true) ∧ (10000 < ns))
    ∧ (∃ (s : State) (ns : Nat), (s.live = true) ∧ (ns ≤ 10000))
    ∧ (∃ (s : State) (w : Nat), (s.live = true) ∧ (2400 < w))
    ∧ (∃ (s : State) (w : Nat), (w ≤ 2400 ∨ s.live = false))
    ∧ (∃ (s : State), s.live = true)
    ∧ (∃ (s : State), s.live = true)
    ∧ (∃ (s : State), s.live = false)
    ∧ (∃ (s : State) (b : Bool), b = (s.rst.waitPin && !s.bkp.trip))
    ∧ (∃ (s : State), s.live = true)
    ∧ (∃ (s : State) (dt : Nat) (k : Nat), (s.live = true) ∧ (k < 4) ∧ (s.coreUp k = true) ∧ (s.rd F.healthStatus_state ≠ 1) ∧ (s.mgmt.wdogAt.any (fun t => s.clk.up + dt ≤ t + 60000000000) = true))
    ∧ (∃ (s : State) (dt : Nat) (k : Nat), (s.live = true) ∧ (2 ≤ k) ∧ (k < 4) ∧ (s.coreUp k = true) ∧ (s.rd F.healthStatus_state ≠ 1) ∧ (s.mgmt.wdogAt.any (fun t => s.clk.up + dt ≤ t + 60000000000) = false) ∧ (s.logRoom 1))
    ∧ (∃ (s : State) (dt : Nat), (s.live = true) ∧ (s.coreUp 1 = true) ∧ (s.rd F.healthStatus_state ≠ 1) ∧ (s.mgmt.wdogAt.any (fun t => s.clk.up + dt ≤ t + 60000000000) = false))
    ∧ (∃ (s : State) (dt : Nat) (i : Nat) (m : Nat) (a : Nat) (n : Nat) (p : Nat) (f : Nat) (q : Nat) (g : Nat) (pos : Nat) (o : OpSt), (s.live = true) ∧ (s.coreUp 0 = true) ∧ (s.rd F.healthStatus_state ≠ 1) ∧ (s.mgmt.wdogAt.any (fun t => s.clk.up + dt ≤ t + 60000000000) = false) ∧ (s.mgmt.ops = [(i, o)]) ∧ (i < 256) ∧ (o.state = 1) ∧ (o.body = .scan m a n p f q g pos))
    ∧ (∃ (s : State) (_dt : Nat) (f : Nat) (tj : Int), (s.live = true) ∧ (f < 4) ∧ (100 ≤ tj) ∧ (tj < 128) ∧ (Tab.get 0 s.rst.thermLow f = 0) ∧ (Tab.get 0 s.rst.powLow f ≤ 1) ∧ (s.logRoom 1))
    ∧ (∃ (s : State) (dt : Nat) (f : Nat) (n : Nat) (tj : Int), (s.live = true) ∧ (f < 4) ∧ (100 ≤ tj) ∧ (n = Tab.get 0 s.rst.thermLow f) ∧ (0 < n) ∧ (n < 16) ∧ (Tab.get 0 s.rst.capAt f + 1000000 ≤ s.clk.up + dt))
    ∧ (∃ (s : State) (dt : Nat) (f : Nat) (n : Nat) (tj : Int), (s.live = true) ∧ (f < 4) ∧ (tj < 97) ∧ (n = Tab.get 0 s.rst.thermLow f) ∧ (1 < n) ∧ (Tab.get 0 s.rst.capAt f + 10000000 ≤ s.clk.up + dt))
    ∧ (∃ (s : State) (_dt : Nat) (_vin : Nat) (_iin : Nat) (_pin : Nat) (_die : Nat), s.live = true)
    ∧ (∃ (s : State) (_dt : Nat), s.live = true)
    ∧ (∃ (s : State), (s.live = true) ∧ (s.logRoom 1))
    ∧ (∃ (s : State), s.live = true)
    ∧ (∃ (s : State), (s.live = true) ∧ (s.rst.pmbTries < 3))
    ∧ (∃ (s : State), (s.live = true) ∧ (3 ≤ s.rst.pmbTries) ∧ (s.logRoom 1)) :=
  ⟨⟨wRadio, by decide +kernel⟩,
   ⟨State.reset, by decide +kernel⟩,
   ⟨wRadio, 70000, by decide +kernel⟩,
   ⟨w0, 38000, by decide +kernel⟩,
   ⟨{ w0 with rst := { w0.rst with vinOut := true } }, 50000, by decide +kernel⟩,
   ⟨wRadio, 10001, by decide +kernel⟩,
   ⟨w0, 10000, by decide +kernel⟩,
   ⟨wRadio, 2401, by decide +kernel⟩,
   ⟨w0, 2400, by decide +kernel⟩,
   ⟨wRadio, by decide +kernel⟩,
   ⟨wRadio, by decide +kernel⟩,
   ⟨State.reset, by decide +kernel⟩,
   ⟨{ w0 with rst := { w0.rst with pinLow := true, waitPin := true } }, true, by decide +kernel⟩,
   ⟨wRadio, by decide +kernel⟩,
   ⟨({ w0 with mgmt := { w0.mgmt with wdogAt := some 0 } } : State).wr F.healthStatus_state 2, 60000000000, 3, by decide +kernel⟩,
   ⟨w0.wr F.healthStatus_state 2, 5, 2, by decide +kernel⟩,
   ⟨(wMgm [zReq] []).wr F.healthStatus_state 2, 5, by decide +kernel⟩,
   ⟨(wOp (.scan 1 0 128 0 0 0 0 0) 1 []).wr F.healthStatus_state 2, 5, 3, 1, 0, 128, 0, 0, 0, 0, 0, (wOp (.scan 1 0 128 0 0 0 0 0) 1 []).op 3, by decide +kernel⟩,
   ⟨w0, 5, 1, 100, by decide +kernel⟩,
   ⟨{ w0 with rst := { w0.rst with thermLow := [(1, 2)], capAt := [(1, 0)] } }, 1000000, 1, 2, 100, by decide +kernel⟩,
   ⟨{ w0 with rst := { w0.rst with thermLow := [(1, 2)], capAt := [(1, 0)] } }, 10000000, 1, 2, -5, by decide +kernel⟩,
   ⟨{ w0 with rst := { w0.rst with thermLow := [(1, 2)] } }, 5, 5000, 4100, 2060, 1000, by decide +kernel⟩,
   ⟨w0, 7, by decide +kernel⟩,
   ⟨w0, by decide +kernel⟩,
   ⟨{ w0 with rst := { w0.rst with pmbTries := 2 } }, by decide +kernel⟩,
   ⟨{ w0 with rst := { w0.rst with pmbTries := 2 } }, by decide +kernel⟩,
   ⟨{ w0 with rst := { w0.rst with pmbTries := 3 } }, by decide +kernel⟩⟩

theorem witness_ReleaseStartAndCommandedResets :
    (∃ (s : State) (dt : Nat) (_ecc : Nat) (_word : Nat) (_lost : Bool) (_pufOk : Bool) (_keyOk : Bool), (s.pass dt).releasable = true)
    ∧ (∃ (s : State) (dt : Nat) (_ecc : Nat) (_word : Nat) (_lost : Bool) (_keyOk : Bool), (s.pass dt).releasable = true)
    ∧ (∃ (s : State) (dt : Nat) (_ecc : Nat) (_word : Nat) (_lost : Bool) (_pufOk : Bool) (_keyOk : Bool), (s.pass dt).releasable = false)
    ∧ (∃ (s : State) (_dt : Nat) (groups : Nat) (density : Nat) (gbps : Nat) (_trained : Nat), (s.live = true) ∧ (s.rst.booted = true) ∧ (s.rd F.healthStatus_state = 1) ∧ (0 < groups) ∧ (groups < 16) ∧ (0 < density) ∧ (density < 4) ∧ (28 ≤ gbps) ∧ (gbps ≤ 40))
    ∧ (∃ (s : State) (_dt : Nat) (_groups : Nat) (_density : Nat) (_gbps : Nat) (_trained : Nat), (s.live = true) ∧ ((s.rst.booted = false ∨ s.rd F.healthStatus_state ≠ 1)))
    ∧ (∃ (s : State) (r : MReq) (rest : List MReq) (i : Nat), (s.serves 0x0068 r rest) ∧ (r.body = [BitVec.ofNat 8 i, 0, 0, 0]) ∧ (i < 256) ∧ (isBlock i = true) ∧ (s.blockChill i = true) ∧ ((i < 12 ∨ 16 ≤ i)) ∧ (s.logRoom 1))
    ∧ (∃ (s : State) (v : Nat) (i : Nat), (s.live = true) ∧ (bit v 8 = true) ∧ (i = bitsOf v 0 8) ∧ (isBlock i = true) ∧ (s.blockChill i = true) ∧ (12 ≤ i) ∧ (i < 16) ∧ (s.logRoom 1))
    ∧ (∃ (s : State) (v : Nat) (i : Nat), (s.live = true) ∧ (bit v 8 = true) ∧ (i = bitsOf v 0 8) ∧ (isBlock i = true) ∧ (s.blockChill i = false) ∧ (s.logRoom 1))
    ∧ (∃ (s : State) (v : Nat) (i : Nat), (s.live = true) ∧ (bit v 8 = true) ∧ (i = bitsOf v 0 8) ∧ (isBlock i = false))
    ∧ (∃ (s : State) (_dt : Nat) (i : Nat) (_trained : Nat), (s.live = true) ∧ (s.blockBusy i = true) ∧ (64 ≤ i) ∧ (i < 160) ∧ (s.csrSorted = true) ∧ (Tab.sortedFrom none s.clus = true))
    ∧ (∃ (s : State) (_dt : Nat) (i : Nat) (_trained : Nat), (s.live = true) ∧ (s.blockBusy i = true) ∧ (i < 12) ∧ (s.csrSorted = true))
    ∧ (∃ (s : State) (r : MReq) (rest : List MReq) (f : Nat), (s.serves 0x0069 r rest) ∧ (r.body = toLe 4 0x54455352 ++ toLe 4 f) ∧ (f < 2) ∧ ((f = 1 ∨ (List.range 64).all (fun m => !(s.isRadio m && (s.mstate m == 3 || s.mstate m == 4))) = true)))
    ∧ (∃ (s : State) (r : MReq) (rest : List MReq), (s.serves 0x0069 r rest) ∧ (r.body = toLe 4 0x54455352 ++ toLe 4 0) ∧ ((List.range 64).any (fun m => s.isRadio m && (s.mstate m == 3 || s.mstate m == 4)) = true))
    ∧ (∃ (s : State) (dt : Nat) (t : Nat), (s.live = true) ∧ (s.rst.devAt = some t) ∧ (t ≤ s.clk.up + dt)) :=
  ⟨⟨State.reset, 10000, 0, 0, false, false, true, by decide +kernel⟩,
   ⟨State.reset, 10000, 0, 0, true, true, by decide +kernel⟩,
   ⟨State.reset, 9999, 0, 0, false, false, true, by decide +kernel⟩,
   ⟨w0, 5, 1, 1, 32, 7, by decide +kernel⟩,
   ⟨w0.wr F.healthStatus_state 2, 5, 1, 1, 32, 7, by decide +kernel⟩,
   ⟨withReq (w0) 104 ([26, 0, 0, 0]), reqOf 104 ([26, 0, 0, 0]), [], 26, by decide +kernel⟩,
   ⟨w0.wr F.gddrCh_state 2 37, 0x100 + 13, 13, by decide +kernel⟩,
   ⟨w0.wr F.radioUnit_state 1 0, 0x100 + 26, 26, by decide +kernel⟩,
   ⟨w0, 0x100 + 50, 50, by decide +kernel⟩,
   ⟨({ wIns 0 with sram := [(sramKey 2 5, 1), (sramKey 3 5, 1)], rst := { w0.rst with blocks := [(66, 0), (3, 0)] } } : State), 5, 66, 0, by decide +kernel⟩,
   ⟨({ wJor { PortSt.init with rx := [[1]] } with rst := { w0.rst with blocks := [(0, 0)] } } : State), 5, 0, 0, by decide +kernel⟩,
   ⟨withReq (wRadio) 105 (toLe 4 0x54455352 ++ toLe 4 1), reqOf 105 (toLe 4 0x54455352 ++ toLe 4 1), [], 1, by decide +kernel⟩,
   ⟨withReq (wRadio) 105 (toLe 4 0x54455352 ++ toLe 4 0), reqOf 105 (toLe 4 0x54455352 ++ toLe 4 0), [], by decide +kernel⟩,
   ⟨{ w0 with rst := { w0.rst with devAt := some 7 } }, 7, 7, by decide +kernel⟩⟩

theorem witness_TestAccessPort :
    (∃ (_s : State) (code : Nat), tapDecodes (code % 256) = false)
    ∧ (∃ (s : State) (_k : Nat), s.rd F.dbgStatus_level = 3)
    ∧ (∃ (s : State) (_k : Nat), s.rd F.dbgStatus_level ≠ 3)
    ∧ (∃ (s : State), s.live = true)
    ∧ (∃ (s : State) (_data : Bytes), (s.live = true) ∧ (s.tokenBusy = false))
    ∧ (∃ (s : State) (_data : Bytes), (s.live = true) ∧ (s.tokenBusy = true))
    ∧ (∃ (s : State) (t : State) (addr : Nat) (v : Nat), (s.live = true) ∧ (1 ≤ s.rd F.dbgStatus_level) ∧ (s.readCsr 1 (addr % 2 ^ 32) = (v, t)))
    ∧ (∃ (s : State) (_addr : Nat), (s.live = false ∨ s.rd F.dbgStatus_level = 0))
    ∧ (∃ (s : State) (t : State) (addr : Nat) (value : Nat) (code : Nat), (s.live = true) ∧ (2 ≤ s.rd F.dbgStatus_level) ∧ (s.writeCsr 1 (addr % 2 ^ 32) value (2 ^ 64 - 1) = (code, t)))
    ∧ (∃ (s : State) (_addr : Nat) (_value : Nat), (s.live = false ∨ s.rd F.dbgStatus_level < 2))
    ∧ (∃ (s : State) (space : Nat) (cluster : Nat) (addr : Nat) (st : Nat), (s.live = true) ∧ ((if space % 4 = 3 then 1 else 2) ≤ s.rd F.dbgStatus_level) ∧ (space % 4 ≠ 1) ∧ (st = (s.dbgMemory (space % 4) (cluster % 256) (addr % 2 ^ 32)).1))
    ∧ (∃ (s : State) (_cluster : Nat) (addr : Nat), (s.live = true) ∧ (2 ≤ s.rd F.dbgStatus_level) ∧ (addr % 8 = 0) ∧ (addr < 2 ^ 23))
    ∧ (∃ (s : State) (space : Nat) (_cluster : Nat) (_addr : Nat), (s.live = false ∨ s.rd F.dbgStatus_level < (if space % 4 = 3 then 1 else 2))) :=
  ⟨⟨w0, 0x1FF, by decide +kernel⟩,
   ⟨(w0).wr F.dbgStatus_level 3, 17, by decide +kernel⟩,
   ⟨w0, 17, by decide +kernel⟩,
   ⟨w0, by decide +kernel⟩,
   ⟨{ w0 with sec := { w0.sec with challenge := some (List.replicate 32 0#8, 0) } }, List.replicate 100 0#8, by decide +kernel⟩,
   ⟨wOp (.token [] true) 9 [], [], by decide +kernel⟩,
   ⟨({ w0 with tap := { w0.tap with accStatus := 3, accData := 9 } }).wr F.dbgStatus_level 1, ((({ w0 with tap := { w0.tap with accStatus := 3, accData := 9 } }).wr F.dbgStatus_level 1).readCsr 1 0x201).2, 0x201, 0, by decide +kernel⟩,
   ⟨w0, 0x200, by decide +kernel⟩,
   ⟨({ w0 with tap := { w0.tap with accStatus := 3, accData := 9 } }).wr F.dbgStatus_level 2, ((({ w0 with tap := { w0.tap with accStatus := 3, accData := 9 } }).wr F.dbgStatus_level 2).writeCsr 1 (regAddr .scrubCtrl 0 0) 5 (2 ^ 64 - 1)).2, regAddr .scrubCtrl 0 0, 5, 0, by decide +kernel⟩,
   ⟨(w0).wr F.dbgStatus_level 1, 0x200, 5, by decide +kernel⟩,
   ⟨({ w0 with sram := cellsOf 2 8 [1, 2, 3] }).wr F.dbgStatus_level 2, 0, 2, 8, 0, by decide +kernel⟩,
   ⟨(w0).wr F.dbgStatus_level 2, 2, 8, by decide +kernel⟩,
   ⟨w0, 3, 2, 8, by decide +kernel⟩⟩

end Sys2Proof.Tests
end

section
/-! The scope statements: what `step` answers for each form of the command queue. -/
namespace Sys2Proof.Machine

/-- Settles O1: the non-empty branch of `step`. -/
theorem stepRunsFrontCommand : Obligations.StepRunsFrontCommand := by
  intro s c rest hqueue
  rw [step, hqueue]

/-- Settles O2: the empty branch of `step`. -/
theorem emptyQueueIdles : Obligations.EmptyQueueIdles := by
  intro s hqueue
  rw [step, hqueue]

end Sys2Proof.Machine
end

section
/-! Facts shared by the device overview's statements: what an event record leaves in a log that has room, and which
registers a run of register operations can touch. -/
namespace Sys2Proof.Machine

/-- The log after a record for which it has room (R492). -/
def LogSt.push (l : LogSt) (r : LogRec) : LogSt :=
  { l with
    recs := (r :: l.recs).take 65536, seq := l.seq + 1, hbCount := l.hbCount + 1
    codes := Tab.set 0 l.codes r.code (Tab.get 0 l.codes r.code + 1) }

@[simp] theorem LogSt.head?_push (l : LogSt) (r : LogRec) : (l.push r).recs.head? = some r := rfl

theorem State.logRec_of_room {s : State} (r : LogRec) (h : s.logRoom 1) : s.logRec r = { s with log := s.log.push r } := by
  have hroom : ¬ s.log.hbCount ≥ 16384 := by omega
  simp only [State.logRec, if_neg hroom, LogSt.push]

theorem State.logRec_of_full {s : State} (r : LogRec) (h : s.log.hbCount = 16384) :
    s.logRec r = { s.cnt F.logStatus_dropped with
      log := { s.log with hbDropped := s.log.hbDropped + 1, dropped := s.log.dropped + 1 } } := by
  simp only [State.logRec, if_pos h.ge]

/-- An event of no mould carries heat 0. -/
theorem State.logEvt_of_room {s : State} (code source d : Nat) (h : s.logRoom 1) :
    s.logEvt code source 0xFF d = { s with log := s.log.push ⟨s.clk.ns, code, source, 0xFF, 0, d⟩ } :=
  State.logRec_of_room _ h

theorem State.logWith_of_room {s : State} (code source v : Nat) (h : s.logRoom 1) :
    s.logWith code source 0xFF v = { s with log := s.log.push ⟨s.clk.ns, code, source, 0xFF, 0, v % 2 ^ 128⟩ } :=
  State.logEvt_of_room _ _ _ h

theorem State.logFree_of_room {s : State} (code source : Nat) (h : s.logRoom 1) :
    s.logFree code source 0xFF = { s with
      free := s.free + 1
      log := s.log.push ⟨s.clk.ns, code, source, 0xFF, 0, Config.freeValue s.free 128 % 2 ^ 128⟩ } :=
  State.logEvt_of_room (s := { s with free := s.free + 1 }) _ _ _ h

/-- Room or none, an event that names its values touches only the log and LOG_STATUS. -/
theorem State.logWith_frame (s : State) (code source m v : Nat) :
    s.logWith code source m v
      = { s with csr := (s.logWith code source m v).csr, log := (s.logWith code source m v).log } := by
  unfold State.logWith State.logEvt State.logRec
  split <;> rfl

theorem State.alert_frame (s : State) (k : Nat) :
    s.alert k = { s with csr := (s.alert k).csr, rst := { s.rst with alertUntil := (s.alert k).rst.alertUntil } } := by
  unfold State.alert
  dsimp only
  split <;> rfl

theorem RegsBut.refl (s : State) (as : List Nat) : RegsBut s s as := fun _ _ => rfl

theorem RegsBut.trans {s t u : State} {as : List Nat} (h : RegsBut s t as) (k : RegsBut t u as) : RegsBut s u as :=
  fun a ha => (k a ha).trans (h a ha)

theorem RegsBut.mono {s t : State} {as bs : List Nat} (h : RegsBut s t as) (hsub : as ⊆ bs) : RegsBut s t bs :=
  fun a ha => h a fun hmem => ha (hsub hmem)

theorem RegsBut.step {s t u : State} {as : List Nat} {a : Nat} (h : RegsBut s t as) (k : RegsBut t u [a]) (ha : a ∈ as) :
    RegsBut s u as :=
  h.trans (k.mono (List.cons_subset.mpr ⟨ha, List.nil_subset _⟩))

theorem State.regsBut_wr (s : State) (f : Field) (v i j : Nat) : RegsBut s (s.wr f v i j) [regAddr f.reg i j] :=
  fun _ ha => State.wr_find s f v i j (List.ne_of_not_mem_cons ha)

theorem State.regsBut_cnt (s : State) (f : Field) (i j n : Nat) : RegsBut s (s.cnt f i j n) [regAddr f.reg i j] :=
  State.regsBut_wr s f _ i j

theorem State.regsBut_alert (s : State) (k : Nat) : RegsBut s (s.alert k) [regAddr .alertCause 0 0] := by
  intro a ha
  unfold State.alert
  dsimp only
  split
  · rfl
  · exact State.setReg_find s _ _ _ _ (List.ne_of_not_mem_cons ha)

theorem State.regsBut_logEvt (s : State) (code source m d : Nat) :
    RegsBut s (s.logEvt code source m d) [regAddr .logStatus 0 0] :=
  fun _ ha => State.logEvt_find s code source m d (List.ne_of_not_mem_cons ha)

theorem RegsBut.reg {s t : State} {as : List Nat} (h : RegsBut s t as) {r : RegName} {i j : Nat} (ha : regAddr r i j ∉ as) :
    t.reg r i j = s.reg r i j := by
  rw [State.reg, State.reg, Tab.get, Tab.get, h _ ha]

theorem RegsBut.rd {s t : State} {as : List Nat} (h : RegsBut s t as) {f : Field} {i j : Nat} (ha : regAddr f.reg i j ∉ as) :
    t.rd f i j = s.rd f i j := by
  rw [State.rd, State.rd, h.reg ha]

theorem satAdd_lt (w x n : Nat) : satAdd w x n < 2 ^ w := by
  have : 0 < 2 ^ w := Nat.two_pow_pos w
  unfold satAdd
  omega

/-- A counter field after it counts. -/
theorem State.rd_cnt_same (s : State) (f : Field) (i j n : Nat) (h : f.fits) :
    (s.cnt f i j n).rd f i j = satAdd f.width (s.rd f i j) n := by
  rw [State.cnt, State.rd_wr_same s f _ i j h, Nat.mod_eq_of_lt (satAdd_lt _ _ _)]

theorem bit_setBit_same (x k : Nat) (b : Bool) : bit (setBit x k b) k = b := by
  have h := bitsOf_setBits_same x k 1 (if b then 1 else 0)
  unfold bitsOf at h
  unfold bit setBit
  rw [pow_one] at h
  rw [h]
  cases b <;> rfl

theorem bit_eq_bitsOf (x k : Nat) : bit x k = (bitsOf x k 1 == 1) := rfl

theorem bit_mod {x k n : Nat} (h : k < n) : bit (x % 2 ^ n) k = bit x k := by
  rw [bit_eq_bitsOf, bit_eq_bitsOf, bitsOf_mod (by omega)]

/-- The cause that an alert names stands after it (R595). -/
theorem State.bit_alert (s : State) {k : Nat} (h : k < 64) : bit ((s.alert k).reg .alertCause) k = true := by
  unfold State.alert
  dsimp only
  split
  · assumption
  · have hreg : (s.setReg .alertCause 0 0 (setBit (s.reg .alertCause) k true)).reg .alertCause
        = setBit (s.reg .alertCause) k true % 2 ^ 64 := State.reg_setReg_same ..
    exact (congrArg (bit · k) hreg).trans ((bit_mod h).trans (bit_setBit_same _ _ _))

/-- An alarm that counts in a field and sets its cause of ALERT_N (R595). -/
theorem State.cnt_alert_spec (s : State) (f : Field) (i j : Nat) {k : Nat} (hfit : f.fits) (hk : k < 64)
    (haddr : regAddr f.reg i j ∉ [regAddr .alertCause 0 0]) :
    ((s.cnt f i j).alert k).rd f i j = satAdd f.width (s.rd f i j) 1 ∧ bit (((s.cnt f i j).alert k).reg .alertCause) k = true
      ∧ RegsBut s ((s.cnt f i j).alert k) [regAddr f.reg i j, regAddr .alertCause 0 0]
      ∧ (s.cnt f i j).alert k = { s with
          csr := ((s.cnt f i j).alert k).csr, rst := { s.rst with alertUntil := ((s.cnt f i j).alert k).rst.alertUntil } } := by
  have halert := State.regsBut_alert (s.cnt f i j) k
  refine ⟨(halert.rd haddr).trans (State.rd_cnt_same s f i j 1 hfit), State.bit_alert _ hk, ?_, State.alert_frame (s.cnt f i j) k⟩
  exact ((RegsBut.refl s _).step (State.regsBut_cnt s f i j 1) List.mem_cons_self).step halert
    (List.mem_cons_of_mem _ List.mem_cons_self)

end Sys2Proof.Machine
end

section
/-! Where a CSR address leads, and the accesses that reach no register (R13, R14, R20, R609). -/
namespace Sys2Proof.Machine

/-- The address and the index bounds of the register that an index search finds. -/
theorem RegShape.indexOf_spec {r : RegShape} {addr i j : Nat} (h : r.indexOf addr = some (i, j)) :
    addr = r.base + r.ostride * i + r.istride * j ∧ i ≤ r.ocount - 1 ∧ j ≤ r.icount - 1 := by
  unfold RegShape.indexOf at h
  split at h
  · cases h
  case isFalse hbase =>
    dsimp only at h
    generalize hk : (if r.ostride = 0 then 0 else min ((addr - r.base) / r.ostride) (r.ocount - 1)) = k at h
    generalize hl : (if r.istride = 0 then 0
      else min ((addr - r.base - r.ostride * k) / r.istride) (r.icount - 1)) = l at h
    have hinner : r.ostride * k ≤ addr - r.base := by
      rw [← hk]
      split
      · simp
      · exact (Nat.mul_le_mul_left _ (Nat.min_le_left _ _)).trans (Nat.mul_div_le _ _)
    split at h
    case isFalse => cases h
    case isTrue hoff =>
      cases h
      refine ⟨by omega, ?_, ?_⟩
      · rw [← hk]; split <;> omega
      · rw [← hl]; split <;> omega

/-- Every register of the tables lies at a multiple of 8. -/
theorem RegName.shape_aligned (r : RegName) : r.shape.base % 8 = 0 ∧ r.shape.ostride % 8 = 0 ∧ r.shape.istride % 8 = 0 := by
  cases r <;> decide

theorem regAddr_aligned (r : RegName) (i j : Nat) : regAddr r i j % 8 = 0 := by
  obtain ⟨hb, ho, hi⟩ := r.shape_aligned
  rw [regAddr, Nat.add_mod, Nat.add_mod r.shape.base, Nat.mul_mod, Nat.mul_mod r.shape.istride, hb, ho, hi]
  simp

theorem regAt_spec {addr i j : Nat} {r : RegName} (h : regAt addr = some (r, i, j)) :
    addr = regAddr r i j ∧ i ≤ r.shape.ocount - 1 ∧ j ≤ r.shape.icount - 1 := by
  obtain ⟨q, -, hq⟩ := List.exists_of_findSome?_eq_some h
  obtain ⟨⟨k, l⟩, hidx, hp⟩ := Option.map_eq_some_iff.mp hq
  cases hp
  exact RegShape.indexOf_spec hidx

theorem State.csrAt_disabled_iff (s : State) (addr : Nat) :
    s.csrAt addr = .disabled ↔ (csrCluster addr).any (fun c => !s.enabled c) = true := by
  unfold State.csrAt
  split
  · simp [*]
  · split <;> simp [*]

/-- An access at a register is at the register's own address, within its table's indices. -/
theorem State.csrAt_reg {s : State} {addr i j : Nat} {r : RegName} (h : s.csrAt addr = .reg r i j) :
    addr = regAddr r i j ∧ i ≤ r.shape.ocount - 1 ∧ j ≤ r.shape.icount - 1 := by
  unfold State.csrAt at h
  split at h
  · cases h
  · split at h
    case h_1 q k l hat =>
      cases h
      exact regAt_spec hat
    case h_2 => cases h

/-- The code of the record of an access that reaches no register, if it is one: a disabled cluster comes first (log entry 39). -/
def CsrAt.refusal : CsrAt → Option Nat
  | .disabled => some 0x0002
  | .none => some 0x0003
  | .reg _ _ _ => Option.none

theorem State.readCsr_of_refusal {s : State} {req addr code : Nat} (h : (s.csrAt addr).refusal = some code) :
    s.readCsr req addr = (0, s.csrLog code addr false req 0) := by
  unfold State.readCsr
  generalize s.csrAt addr = a at h ⊢
  match a, h with
  | .disabled, rfl => rfl
  | .none, rfl => rfl

theorem State.writeCsr_of_refusal {s : State} {req addr value mask code : Nat} (h : (s.csrAt addr).refusal = some code) :
    s.writeCsr req addr value mask = (0, s.csrLog code addr true req value) := by
  unfold State.writeCsr
  generalize s.csrAt addr = a at h ⊢
  match a, h with
  | .disabled, rfl => rfl
  | .none, rfl => rfl

/-- The source of an access record: the cluster whose window it is in as a whole, or core 0 (R609). -/
def csrSource (addr : Nat) : Nat := ((csrCluster addr).map (fun c => 0x1000 + 16 * c + 15)).getD 0x00A0

/-- The detail of an access record: address, direction, requester and value (R609). -/
def csrDetail (addr : Nat) (write : Bool) (req value : Nat) : Nat :=
  addr % 2 ^ 32 + (if write then 2 ^ 32 else 0) + min req 2 * 2 ^ 33 + value % 2 ^ 64 * 2 ^ 64

theorem csrDetail_read (addr req : Nat) : csrDetail addr false req 0 = addr % 2 ^ 32 + min req 2 * 2 ^ 33 := by
  simp [csrDetail]

theorem csrDetail_write (addr req value : Nat) :
    csrDetail addr true req value = addr % 2 ^ 32 + 2 ^ 32 + min req 2 * 2 ^ 33 + value % 2 ^ 64 * 2 ^ 64 := by
  rw [csrDetail, if_pos rfl]

theorem csrDetail_lt (addr : Nat) (write : Bool) (req value : Nat) : csrDetail addr write req value < 2 ^ 128 := by
  unfold csrDetail
  cases write <;> simp only [Bool.false_eq_true, if_false, if_true] <;> omega

theorem State.csrLog_eq_logEvt (s : State) (code addr : Nat) (write : Bool) (req value : Nat) :
    s.csrLog code addr write req value = s.logEvt code (csrSource addr) 0xFF (csrDetail addr write req value) := by
  unfold State.csrLog csrSource
  cases csrCluster addr <;> rfl

/-- An access that is logged, with room in the log, leaves its record and nothing else. -/
theorem State.csrLog_of_room {s : State} (code addr : Nat) (write : Bool) (req value : Nat) (h : s.logRoom 1) :
    s.csrLog code addr write req value = { s with
      log := s.log.push ⟨s.clk.ns, code, csrSource addr, 0xFF, 0, csrDetail addr write req value⟩ } := by
  rw [State.csrLog_eq_logEvt, State.logEvt_of_room _ _ _ h]

theorem State.logHead_csrLog {s : State} (code addr : Nat) (write : Bool) (req value : Nat) (h : s.logRoom 1) :
    (s.csrLog code addr write req value).logHead
      = some ⟨s.clk.ns, code, csrSource addr, 0xFF, 0, csrDetail addr write req value % 2 ^ 128⟩ := by
  rw [State.csrLog_of_room _ _ _ _ _ h, Nat.mod_eq_of_lt (csrDetail_lt _ _ _ _)]
  exact LogSt.head?_push _ _

theorem State.csrLog_frame {s : State} (code addr : Nat) (write : Bool) (req value : Nat) (h : s.logRoom 1) :
    s.csrLog code addr write req value = { s with log := (s.csrLog code addr write req value).log } := by
  rw [State.csrLog_of_room _ _ _ _ _ h]

theorem exec_disabledClusterAccess_live {s : State} {req addr value : Nat} {write : Bool} (hlive : s.live = true)
    (hat : s.csrAt addr = .disabled) :
    exec (.disabledClusterAccess req addr write value) s
      = .next (s.csrLog 0x0002 addr write req (if write then value else 0)).settle := by
  rw [exec_disabledClusterAccess, execDisabledClusterAccess, whenLive_live _ _ hlive, if_pos hat]

theorem exec_csrInvalidAccess_live {s : State} {req addr value : Nat} {write : Bool} (hlive : s.live = true)
    (hat : s.csrAt addr = .none) :
    exec (.csrInvalidAccess req addr write value) s
      = .next (s.csrLog 0x0003 addr write req (if write then value else 0)).settle := by
  rw [exec_csrInvalidAccess, execCsrInvalidAccess, whenLive_live _ _ hlive, if_pos hat]

/-- ARR_CFG of a cluster lies in that cluster's window. -/
theorem csrCluster_arrCfg {i j : Nat} (hi : i ≤ 95) (hj : j ≤ 3) : csrCluster (regAddr .arrCfg i j) = some i := by
  have haddr : regAddr .arrCfg i j = 0x1001000 + 0x100000 * i + 0x100 * j := rfl
  have hin : (0x1000000 ≤ regAddr .arrCfg i j && regAddr .arrCfg i j < 0x1000000 + 96 * 0x100000) = true := by
    rw [Bool.and_eq_true, decide_eq_true_eq, decide_eq_true_eq]
    omega
  rw [csrCluster, if_pos hin, Option.some.injEq]
  omega

/-- A write of ARR_CFG while a mould claims its cluster is logged and stores nothing (R14). -/
theorem exec_registerWrite_locked {s : State} {req addr value i j : Nat} (hlive : s.live = true)
    (hat : s.csrAt addr = .reg .arrCfg i j) (hclaimed : (s.claimer i).isSome = true) :
    exec (.registerWrite req addr value) s = .next (s.csrLog 0x0001 addr true req (value % 2 ^ 64)).settle := by
  have hmask : ¬ (2 ^ 64 - 1) &&& RegName.arrCfg.shape.bitsWith (· ≠ .ro) = 0 := by decide
  rw [exec_registerWrite, execRegisterWrite, whenLive_live _ _ hlive, hat]
  simp only [hasRule, Bool.false_eq_true, if_false, State.writeReg, if_neg hmask, State.writePlain, hclaimed,
    decide_true, Bool.and_true, if_true, (State.csrAt_reg hat).1]

/-- Settles O48: the register an address reaches is found by its index search, and every access that reaches none, or
writes a locked field, is one `csrLog`. -/
theorem accessesThatReachNoRegister : Obligations.AccessesThatReachNoRegister := by
  refine ⟨?aligned, ?misaligned, ?disabled, ?refused, ?locked, ?full⟩
  case aligned =>
    intro s addr i j r hat
    obtain ⟨rfl, -, -⟩ := State.csrAt_reg hat
    exact ⟨regAddr_aligned r i j, rfl⟩
  case misaligned =>
    intro s addr hodd
    cases hat : s.csrAt addr with
    | disabled => exact .inl rfl
    | none => exact .inr rfl
    | reg r i j => exact absurd ((State.csrAt_reg hat).1 ▸ regAddr_aligned r i j) hodd
  case disabled =>
    intro s addr c hc
    rw [State.csrAt_disabled_iff, hc, Option.any_some, Bool.not_eq_true']
  case refused =>
    intro s req addr value code src hlive hroom hcode hsrc
    have hrefusal : (s.csrAt addr).refusal = some code := by
      rcases hcode with ⟨hat, rfl⟩ | ⟨hat, rfl⟩ <;> rw [hat] <;> rfl
    have hread := State.readCsr_of_refusal (req := req) hrefusal
    have hwrite := fun mask => State.writeCsr_of_refusal (req := req) (value := value) (mask := mask) hrefusal
    rw [← csrSource] at hsrc
    rw [hread, hsrc, ← csrDetail_read, ← csrDetail_write]
    refine ⟨rfl, State.csrLog_frame _ _ _ _ _ hroom, ?_, fun mask => ?_, ?_, ?_⟩
    · exact State.logHead_csrLog code addr false req 0 hroom
    · rw [hwrite]
      exact ⟨rfl, State.csrLog_frame _ _ _ _ _ hroom, State.logHead_csrLog code addr true req value hroom⟩
    · rintro rfl
      rw [hwrite]
      have hat : s.csrAt addr = .disabled := by simpa using hcode
      exact ⟨exec_disabledClusterAccess_live hlive hat, exec_disabledClusterAccess_live hlive hat⟩
    · rintro rfl
      rw [hwrite]
      have hat : s.csrAt addr = .none := by simpa using hcode
      exact ⟨exec_csrInvalidAccess_live hlive hat, exec_csrInvalidAccess_live hlive hat⟩
  case locked =>
    intro s req addr value i j hlive hroom hat hclaimed
    obtain ⟨haddr, hi, hj⟩ := State.csrAt_reg hat
    refine ⟨_, exec_registerWrite_locked hlive hat hclaimed, ?_, State.csrLog_frame _ _ _ _ _ hroom⟩
    have hsrc : csrSource addr = 0x1000 + 16 * i + 15 := by
      rw [csrSource, haddr, csrCluster_arrCfg hi hj]
      rfl
    rw [State.logHead_csrLog _ _ _ _ _ hroom, hsrc, csrDetail_write, Nat.mod_mod]
  case full =>
    intro s req addr hfull hat
    obtain ⟨code, hrefusal⟩ : ∃ code, (s.csrAt addr).refusal = some code := by
      rcases hat with hat | hat <;> rw [hat] <;> exact ⟨_, rfl⟩
    rw [State.readCsr_of_refusal hrefusal, State.csrLog_eq_logEvt]
    refine ⟨rfl, ?_, State.regsBut_logEvt s _ _ _ _⟩
    rw [State.logEvt, State.logRec_of_full _ hfull]

end Sys2Proof.Machine
end

section
/-! What asserts the device reset, and with it the supply, the rails, the pins and the reference (R101, R576 to R586). -/
namespace Sys2Proof.Machine

/-- With every register but ALERT_CAUSE at its reset value, every mould is EMPTY. -/
theorem RegsBut.mstate_reset {u : State} (h : RegsBut State.reset u [regAddr .alertCause 0 0]) (m : Nat) : u.mstate m = 0 := by
  have haddr : regAddr .mouldStatus m 0 ∉ [regAddr .alertCause 0 0] := by
    have hmould : regAddr .mouldStatus m 0 = RegName.mouldStatus.shape.base + RegName.mouldStatus.shape.ostride * m := rfl
    have halert : regAddr .alertCause 0 0 < RegName.mouldStatus.shape.base := by decide
    rw [List.mem_singleton]
    omega
  have hblank : State.reset.reg .mouldStatus m = RegName.mouldStatus.shape.resetVal := rfl
  have hempty : bitsOf RegName.mouldStatus.shape.resetVal F.mouldStatus_state.lo F.mouldStatus_state.width = 0 := by decide
  exact (h.rd (f := F.mouldStatus_state) haddr).trans ((congrArg (bitsOf · _ _) hblank).trans hempty)

theorem State.assertReset_of_asserted {s : State} (h : s.live = false) (cause : Nat) : s.assertReset cause = s := by
  have hasserted : s.rst.asserted = true := by simpa [State.live] using h
  rw [State.assertReset, if_pos hasserted]

/-- A reset that was not asserted is asserted for the cause; the backup domain, the TAP and the rails are as they were (R583, R584). -/
theorem State.assertReset_of_live {s : State} (h : s.live = true) (cause : Nat) :
    s.resetBy (s.assertReset cause) cause ∧ (s.assertReset cause).bkp = s.bkp ∧ (s.assertReset cause).tap = s.tap
      ∧ (s.assertReset cause).rst.rails = s.rst.rails := by
  have hclear : ¬ s.rst.asserted = true := by simpa [State.live] using h
  unfold State.assertReset
  rw [if_neg hclear]
  have hregs : ∀ (t : State) (v : Nat), t.csr = [] →
      RegsBut State.reset (t.wr F.alertCause_refclk v) [regAddr .alertCause 0 0] := fun t v ht a ha =>
    (State.regsBut_wr t _ _ _ _ a ha).trans (by rw [ht]; rfl)
  exact ⟨⟨rfl, rfl, hregs _ _ rfl, rfl, rfl, List.all_eq_true.mpr fun m _ => decide_eq_true ((hregs _ _ rfl).mstate_reset m),
    rfl, rfl, rfl, rfl, rfl, rfl, rfl, rfl, rfl, rfl, rfl⟩, rfl, rfl, rfl⟩

theorem exec_powerFail_live {s : State} (h : s.live = true) : ∃ u : State, exec .powerFail s = .next u.settle ∧ s.downBy u 0x03 := by
  obtain ⟨hreset, hbkp, -, -⟩ := State.assertReset_of_live h 0x03
  exact ⟨_, rfl, hreset, rfl, hbkp, rfl, rfl⟩

theorem exec_powerFail_asserted {s : State} (h : s.live = false) :
    exec .powerFail s = .next ({ s with
      tap := TapSt.init, rst := { s.rst with rails := false, qualified := false } } : State).settle := by
  rw [exec_powerFail, execPowerFail, State.assertReset_of_asserted h]
  rfl

theorem exec_vinOvervoltage_live {s : State} {mV : Nat} (h : s.live = true) (hlow : 66000 < mV) (hhigh : mV ≤ 80000) :
    ∃ u : State, exec (.vinOvervoltage mV) s = .next u.settle ∧ s.downBy u 0x09 := by
  obtain ⟨hreset, hbkp, -, -⟩ := State.assertReset_of_live h 0x09
  rw [exec_vinOvervoltage, execVinOvervoltage, if_neg (by omega), if_neg (by omega)]
  exact ⟨_, rfl, hreset, rfl, hbkp, rfl, rfl⟩

/-- VIN leaves its band for one of the two warning bands (R576). -/
theorem exec_vinOutOfRange_leaves {s : State} {mV : Nat} (h : s.live = true) (hin : s.rst.vinOut = false)
    (hband : 38000 ≤ mV ∧ mV < 40000 ∨ 60000 < mV ∧ mV ≤ 66000) :
    exec (.vinOutOfRange mV) s = .next
      (((({ s with rst := { s.rst with vinOut := true } } : State).cnt F.pwrAlarm_vinOut).alert 4).logFree 0x2001 0x00C1 0xFF).settle := by
  have hout : ((38000 ≤ mV && mV < 40000) || (60000 < mV && mV ≤ 66000)) = true := by simpa using hband
  have hlive : ({ s with rst := { s.rst with vinOut := true } } : State).live = true := h
  rw [exec_vinOutOfRange, execVinOutOfRange]
  simp only [hout, hin, hlive, if_true, Bool.false_eq_true, if_false, done]

theorem exec_vinOutOfRange_alarms {s : State} {mV : Nat} (h : s.live = true) (hin : s.rst.vinOut = false)
    (hband : 38000 ≤ mV ∧ mV < 40000 ∨ 60000 < mV ∧ mV ≤ 66000) (hroom : s.logRoom 1) :
    ∃ u : State, exec (.vinOutOfRange mV) s = .next u.settle ∧ u.rst.vinOut = true
      ∧ u.rd F.pwrAlarm_vinOut = satAdd F.pwrAlarm_vinOut.width (s.rd F.pwrAlarm_vinOut) 1
      ∧ bit (u.reg .alertCause) 4 = true ∧ u.lastEvt = some (0x2001, 0x00C1, 0xFF)
      ∧ RegsBut s u [regAddr .pwrAlarm 0 0, regAddr .alertCause 0 0]
      ∧ u = { s with csr := u.csr, log := u.log, free := s.free + 1, rst := { s.rst with vinOut := true, alertUntil := u.rst.alertUntil } } := by
  refine ⟨_, exec_vinOutOfRange_leaves h hin hband, ?_⟩
  set t : State := { s with rst := { s.rst with vinOut := true } }
  obtain ⟨hcount, hcause, hregs, hframe⟩ := State.cnt_alert_spec t F.pwrAlarm_vinOut 0 0 (k := 4) (by decide) (by decide) (by decide)
  generalize (t.cnt F.pwrAlarm_vinOut).alert 4 = v at *
  have hlog : v.logRoom 1 := by rw [hframe]; exact hroom
  rw [State.logFree_of_room _ _ hlog]
  refine ⟨congrArg (·.rst.vinOut) hframe, hcount, hcause, rfl, hregs, ?_⟩
  rw [hframe]

theorem exec_vinOutOfRange_returns {s : State} {mV : Nat} (hlow : 40000 ≤ mV) (hhigh : mV ≤ 60000) :
    exec (.vinOutOfRange mV) s = .next ({ s with rst := { s.rst with vinOut := false } } : State).settle := by
  have hout : ((38000 ≤ mV && mV < 40000) || (60000 < mV && mV ≤ 66000)) = false := by
    simp only [Bool.or_eq_false_iff, Bool.and_eq_false_imp, decide_eq_true_eq, decide_eq_false_iff_not]
    omega
  have hback : (40000 ≤ mV && mV ≤ 60000) = true := by simp [hlow, hhigh]
  rw [exec_vinOutOfRange, execVinOutOfRange]
  simp only [hout, hback, Bool.false_eq_true, if_false, if_true, done]

theorem exec_railFault_long {s : State} {ns : Nat} (h : s.live = true) (hlong : 10000 < ns) :
    ∃ u : State, exec (.railFault ns) s = .next u.settle ∧ s.resetBy u 0x0B ∧ u.rst.rails = false ∧ u.bkp = s.bkp ∧ u.tap = s.tap := by
  obtain ⟨hreset, hbkp, htap, -⟩ := State.assertReset_of_live h 0x0B
  rw [exec_railFault, execRailFault, if_neg (by simp [h]), if_pos hlong]
  exact ⟨_, rfl, hreset, rfl, hbkp, htap⟩

theorem exec_railFault_short {s : State} {ns : Nat} (h : s.live = true) (hshort : ns ≤ 10000) :
    exec (.railFault ns) s = .next (s.cnt F.pwrAlarm_railFault).settle := by
  rw [exec_railFault, execRailFault, if_neg (by simp [h]), if_neg (by omega)]
  rfl

theorem exec_overpower_over {s : State} {w : Nat} (hover : 2400 < w) :
    exec (.overpower w) s = .next (s.assertReset 0x08).settle := by
  rw [exec_overpower, execOverpower, if_pos hover]
  rfl

theorem exec_overpower_idle {s : State} {w : Nat} (h : w ≤ 2400 ∨ s.live = false) : exec (.overpower w) s = .next s.settle := by
  rcases h with hw | hdown
  · rw [exec_overpower, execOverpower, if_neg (by omega)]
    rfl
  · rw [exec_overpower, execOverpower, State.assertReset_of_asserted hdown, ite_self]
    rfl

theorem exec_thermalTrip_live {s : State} (h : s.live = true) :
    ∃ u : State, exec .thermalTrip s = .next u.settle ∧ s.resetBy u 0x04 ∧ u.tap = TapSt.init ∧ u.bkp = { s.bkp with trip := true }
      ∧ u.rst.waitPin = true ∧ u.rst.rails = false := by
  obtain ⟨hreset, hbkp, -, -⟩ := State.assertReset_of_live h 0x04
  refine ⟨_, rfl, hreset, rfl, ?_, rfl, rfl⟩
  rw [← hbkp]
  rfl

theorem exec_resetNAssert_live {s : State} (h : s.live = true) :
    ∃ u : State, exec .resetNAssert s = .next u.settle ∧ s.resetBy u 0x02 ∧ u.rst.pinLow = true ∧ u.bkp = { s.bkp with trip := false }
      ∧ u.tap = s.tap := by
  obtain ⟨hreset, hbkp, htap, -⟩ := State.assertReset_of_live h 0x02
  refine ⟨_, rfl, hreset, rfl, ?_, htap⟩
  rw [← hbkp]

theorem exec_resetNAssert_asserted {s : State} (h : s.live = false) :
    exec .resetNAssert s = .next ({ s with rst := { s.rst with pinLow := true }, bkp := { s.bkp with trip := false } } : State).settle := by
  rw [exec_resetNAssert, execResetNAssert, State.assertReset_of_asserted h]
  rfl

/-- The loss of the reference resets the device and stands in ALERT_CAUSE (R101, R586). -/
theorem exec_refclkLost_live {s : State} (h : s.live = true) :
    ∃ u : State, exec .refclkLost s = .next u.settle ∧ u.live = false ∧ u.rst.cause = 0x0A ∧ u.rst.refLost = true
      ∧ bit (u.reg .alertCause) 0 = true ∧ RegsBut State.reset u [regAddr .alertCause 0 0] ∧ u.mgmt = State.reset.mgmt
      ∧ u.led.words = s.led.words ∧ u.bkp = s.bkp := by
  obtain ⟨⟨hdown, hcause, hregs, -, hmgmt, -, -, -, -, -, -, -, hwords, -, -, -, -⟩, hbkp, -, -⟩ := State.assertReset_of_live h 0x0A
  refine ⟨_, rfl, ?_⟩
  generalize s.assertReset 0x0A = t at *
  have hlost := State.regsBut_alert { t with rst := { t.rst with refLost := true } } 0
  have hset := State.bit_alert { t with rst := { t.rst with refLost := true } } (k := 0) (by decide)
  have hframe := State.alert_frame { t with rst := { t.rst with refLost := true } } 0
  generalize ({ t with rst := { t.rst with refLost := true } } : State).alert 0 = u at *
  refine ⟨?_, ?_, ?_, hset, hregs.trans hlost, ?_, ?_, ?_⟩ <;> rw [hframe] <;> assumption

end Sys2Proof.Machine
end

section
/-! Watchdog expiries (R477): what every expiry does, and what the restart of a core ends. -/
namespace Sys2Proof.Machine

/-- Core k's watchdog has expired: the instant is kept and the expiry stands in MC_STATUS. -/
def State.expiryMarked (s : State) (dt k : Nat) : State :=
  let v : State := { s.pass dt with mgmt := { s.mgmt with wdogAt := some (s.clk.up + dt) } }
  v.wr F.mcStatus_wdogExpired (setBit (v.rd F.mcStatus_wdogExpired) k true)

/-- It is logged and counted for the health score. -/
def State.expiryLogged (s : State) (dt k : Nat) : State :=
  ((s.expiryMarked dt k).logWith 0x1602 (0x00A0 + k) 0xFF k).count 11 255

/-- Core k stands still, before the device resets or the core's work ends (R477). -/
def State.expired (s : State) (dt k : Nat) : State :=
  (s.expiryLogged dt k).wr F.mcStatus_coreUp (setBit ((s.expiryLogged dt k).rd F.mcStatus_coreUp) k false)

/-- An expiry whose core runs, within 60 s of the one before or not. -/
theorem exec_watchdogExpiry_due {s : State} {dt k : Nat} (h : s.live = true) (hk : k < 4) (hup : s.coreUp k = true)
    (hstate : s.rd F.healthStatus_state ≠ 1) :
    exec (.watchdogExpiry dt k) s = .next (if s.mgmt.wdogAt.any (fun t => s.clk.up + dt ≤ t + 60000000000) then
      (s.expired dt k).assertReset 0x05 else (s.expired dt k).coreFails k).settle := by
  have hdue : ¬ (4 ≤ k || !(s.pass dt).coreUp k || (s.pass dt).rd F.healthStatus_state = 1) = true := by
    have hup' : (s.pass dt).coreUp k = true := hup
    have hstate' : (s.pass dt).rd F.healthStatus_state ≠ 1 := hstate
    simp [hup', hstate', hk]
  rw [exec_watchdogExpiry, execWatchdogExpiry, whenLive_live _ _ h]
  dsimp only
  rw [if_neg hdue]
  rfl

theorem State.count_device (s : State) (kind : Nat) :
    s.count kind 255 = { s with health := { s.health with evs := ⟨kind, 255, s.clk.up / 1000000000, 1⟩ :: s.health.evs } } := rfl

theorem State.expired_frame (s : State) (dt k : Nat) :
    s.expired dt k = { s.pass dt with
      csr := (s.expired dt k).csr, log := (s.expired dt k).log, health := (s.expired dt k).health
      mgmt := { s.mgmt with wdogAt := some (s.clk.up + dt) } } := by
  unfold State.expired State.expiryLogged
  rw [State.count_device, State.logWith_frame]
  rfl

theorem State.coreUp_expired (s : State) {dt k : Nat} (hk : k < 4) : (s.expired dt k).coreUp k = false := by
  unfold State.expired State.coreUp
  rw [State.rd_wr_same _ _ _ _ _ (by decide), bit_mod (by exact hk), bit_setBit_same]

/-- With room for its record, an expiry writes MC_STATUS alone and logs 0x1602. -/
theorem State.expired_of_room {s : State} {dt k : Nat} (hk : k < 4) (hroom : s.logRoom 1) :
    bit ((s.expired dt k).rd F.mcStatus_wdogExpired) k = true ∧ (s.expired dt k).lastEvt = some (0x1602, 0x00A0 + k, 0xFF)
      ∧ RegsBut s (s.expired dt k) [regAddr .mcStatus 0 0] := by
  have hlogged : s.expiryLogged dt k = { s.expiryMarked dt k with
      log := s.log.push ⟨(s.pass dt).clk.ns, 0x1602, 0x00A0 + k, 0xFF, 0, k % 2 ^ 128⟩
      health := { s.health with evs := ⟨11, 255, (s.clk.up + dt) / 1000000000, 1⟩ :: s.health.evs } } := by
    rw [State.expiryLogged, State.count_device, State.logWith_of_room (s := s.expiryMarked dt k) _ _ _ hroom]
    rfl
  have hregs : RegsBut (s.expiryMarked dt k) (s.expiryLogged dt k) [] := by
    rw [hlogged]
    exact RegsBut.refl _ _
  have hmark : RegsBut s (s.expiryMarked dt k) [regAddr .mcStatus 0 0] :=
    State.regsBut_wr { s.pass dt with mgmt := { s.mgmt with wdogAt := some (s.clk.up + dt) } } F.mcStatus_wdogExpired _ 0 0
  refine ⟨?_, ?_, (hmark.trans (hregs.mono (List.nil_subset _))).trans (State.regsBut_wr _ F.mcStatus_coreUp _ 0 0)⟩
  · rw [State.expired, State.rd_wr_beside (f := F.mcStatus_coreUp) (g := F.mcStatus_wdogExpired) _ _ _ _ rfl (by decide) (by decide),
      hregs.rd List.not_mem_nil, State.expiryMarked,
      State.rd_wr_same _ _ _ _ _ (by decide)]
    exact (bit_mod hk).trans (bit_setBit_same _ _ _)
  · have hlog : (s.expired dt k).log = (s.expiryLogged dt k).log := rfl
    rw [State.lastEvt, State.logHead, hlog, hlogged]
    rfl

theorem exec_watchdogExpiry_again {s : State} {dt k : Nat} (h : s.live = true) (hk : k < 4) (hup : s.coreUp k = true)
    (hstate : s.rd F.healthStatus_state ≠ 1) (hagain : s.mgmt.wdogAt.any (fun t => s.clk.up + dt ≤ t + 60000000000) = true) :
    ∃ u : State, exec (.watchdogExpiry dt k) s = .next u.settle ∧ s.resetBy u 0x05 := by
  have hexec := exec_watchdogExpiry_due (dt := dt) h hk hup hstate
  rw [if_pos hagain] at hexec
  refine ⟨_, hexec, ?_⟩
  have hframe := State.expired_frame s dt k
  generalize s.expired dt k = w at *
  have hlive : w.live = true := by rw [hframe]; exact h
  have hreset := (State.assertReset_of_live hlive 0x05).1
  rw [hframe] at hreset ⊢
  exact hreset

theorem exec_watchdogExpiry_first {s : State} {dt k : Nat} (h : s.live = true) (hk : k < 4) (hup : s.coreUp k = true)
    (hstate : s.rd F.healthStatus_state ≠ 1) (hfirst : s.mgmt.wdogAt.any (fun t => s.clk.up + dt ≤ t + 60000000000) = false) :
    exec (.watchdogExpiry dt k) s = .next ((s.expired dt k).coreFails k).settle := by
  rw [exec_watchdogExpiry_due h hk hup hstate, hfirst]
  rfl

/-- Cores 2 and 3 restart and end nothing. -/
theorem State.coreFails_rest (s : State) {k : Nat} (hk : 2 ≤ k) : s.coreFails k = s := by
  rw [State.coreFails, if_neg (by omega), if_neg (by omega)]

/-- t is s after sessions closed: those kept are the ones of s outside the list of ids, and beside them only their waiting commands,
the log and LOG_STATUS changed. -/
def State.ClosedTo (s t : State) (ids : List Nat) : Prop :=
  t.mgmt.sessions = s.mgmt.sessions.filter (fun y => y.id ∉ ids) ∧ RegsBut s t [regAddr .logStatus 0 0]
    ∧ t = { s with csr := t.csr, log := t.log, mgmt := { s.mgmt with sessions := t.mgmt.sessions, waiting := t.mgmt.waiting } }

theorem State.closedTo_closeSession (s : State) (z : Nat) : s.ClosedTo (s.closeSession z) [z] := by
  unfold State.closeSession
  split
  case isTrue hnone =>
    have hkeep : ∀ y ∈ s.mgmt.sessions, y.id ≠ z := by simpa [State.session] using hnone
    refine ⟨(List.filter_eq_self.mpr ?_).symm, RegsBut.refl s _, rfl⟩
    simpa using hkeep
  case isFalse =>
    refine ⟨?_, State.regsBut_logEvt _ _ _ _ _, ?_⟩
    · rw [State.logWith_frame]
      simp
    · rw [State.logWith_frame]

theorem State.ClosedTo.trans {s t u : State} {as bs : List Nat} (h : s.ClosedTo t as) (k : t.ClosedTo u bs) :
    s.ClosedTo u (as ++ bs) := by
  obtain ⟨hsess, hregs, hframe⟩ := h
  obtain ⟨ksess, kregs, kframe⟩ := k
  refine ⟨?_, hregs.trans kregs, kframe.trans ?_⟩
  · rw [ksess, hsess, List.filter_filter]
    simp [Bool.and_comm]
  · rw [hframe]

theorem State.closedTo_foldl (ids : List Nat) (s : State) :
    s.ClosedTo (ids.foldl (fun (u : State) z => u.closeSession z) s) ids := by
  induction ids generalizing s with
  | nil => exact ⟨by simp, RegsBut.refl s _, rfl⟩
  | cons z zs ih => exact (State.closedTo_closeSession s z).trans (ih _)

theorem exec_watchdogExpiry_core23 {s : State} {dt k : Nat} (h : s.live = true) (hk2 : 2 ≤ k) (hk : k < 4) (hup : s.coreUp k = true)
    (hstate : s.rd F.healthStatus_state ≠ 1) (hfirst : s.mgmt.wdogAt.any (fun t => s.clk.up + dt ≤ t + 60000000000) = false)
    (hroom : s.logRoom 1) :
    ∃ u : State, exec (.watchdogExpiry dt k) s = .next u.settle ∧ u.coreUp k = false ∧ bit (u.rd F.mcStatus_wdogExpired) k = true
      ∧ u.lastEvt = some (0x1602, 0x00A0 + k, 0xFF) ∧ RegsBut s u [regAddr .mcStatus 0 0]
      ∧ u = { s.pass dt with csr := u.csr, log := u.log, health := u.health, mgmt := { s.mgmt with wdogAt := some (s.clk.up + dt) } } := by
  have hexec := exec_watchdogExpiry_first h hk hup hstate hfirst
  rw [State.coreFails_rest _ hk2] at hexec
  obtain ⟨hbit, hevt, hregs⟩ := State.expired_of_room (dt := dt) hk hroom
  exact ⟨_, hexec, State.coreUp_expired s hk, hbit, hevt, hregs, State.expired_frame s dt k⟩

/-- Core 1 keeps no session. -/
theorem exec_watchdogExpiry_core1 {s : State} {dt : Nat} (h : s.live = true) (hup : s.coreUp 1 = true)
    (hstate : s.rd F.healthStatus_state ≠ 1) (hfirst : s.mgmt.wdogAt.any (fun t => s.clk.up + dt ≤ t + 60000000000) = false) :
    ∃ u : State, exec (.watchdogExpiry dt 1) s = .next u.settle ∧ u.coreUp 1 = false ∧ u.mgmt.sessions = [] ∧ u.mgmt.hs = []
      ∧ u.mgmt.ops = s.mgmt.ops
      ∧ u = { s.pass dt with
          csr := u.csr, log := u.log, health := u.health
          mgmt := { s.mgmt with wdogAt := some (s.clk.up + dt), sessions := [], hs := [], waiting := u.mgmt.waiting } } := by
  refine ⟨_, exec_watchdogExpiry_first h (by decide) hup hstate hfirst, ?_⟩
  have hcore := State.coreUp_expired s (dt := dt) (k := 1) (by decide)
  have hframe := State.expired_frame s dt 1
  rw [State.coreFails, if_neg (by decide), if_pos rfl]
  dsimp only
  generalize s.expired dt 1 = w at *
  obtain ⟨hsess, hregs, hclosed⟩ := State.closedTo_foldl (w.mgmt.sessions.map (fun (z : SessSt) => z.id)) w
  generalize (w.mgmt.sessions.map (fun (z : SessSt) => z.id)).foldl (fun (u : State) z => u.closeSession z) w = v at *
  have hnone : v.mgmt.sessions = [] := by
    rw [hsess, List.filter_eq_nil_iff]
    intro y hy
    simpa using ⟨y, hy, rfl⟩
  have hup1 : v.coreUp 1 = false := by
    rw [State.coreUp, hregs.rd (by decide)]
    exact hcore
  refine ⟨hup1, hnone, rfl, ?_, ?_⟩
  · rw [hclosed, hframe]
  · rw [hnone] at hclosed
    rw [hclosed, hframe]

/-- Notifying sessions leaves the registers and the operations as they are. -/
theorem State.foldl_notify_keeps (zs : List SessSt) (ty : Nat) (body : Bytes) (s : State) :
    (zs.foldl (fun u z => u.notify z ty body) s).csr = s.csr ∧ (zs.foldl (fun u z => u.notify z ty body) s).mgmt.ops = s.mgmt.ops := by
  induction zs generalizing s with
  | nil => exact ⟨rfl, rfl⟩
  | cons z zs ih => exact ih _

/-- An operation under a handle ends: its entry, and no register changes (R488). -/
theorem State.endOp_spec (s : State) {i : Nat} (hi : i < 256) (state status : Nat) :
    (s.endOp i state status).csr = s.csr
      ∧ (s.endOp i state status).op i = { s.op i with state := state, status := status, ended := s.clk.ns, body := .none } := by
  unfold State.endOp
  rw [if_neg (by omega)]
  dsimp only
  generalize hp : ({ s.op i with state := state, status := status, ended := s.clk.ns, body := .none } : OpSt) = p
  obtain ⟨hcsr, hops⟩ := State.foldl_notify_keeps
    (((s.setOp i p).mgmt.sessions).filter (fun z => bit z.mask 2)) 3 (opBody p)
    ({ s.setOp i p with mgmt := { (s.setOp i p).mgmt with ended := (s.setOp i p).mgmt.ended ++ [i] } } : State)
  refine ⟨hcsr, ?_⟩
  have hself : (s.setOp i p).op i = p := by simp
  exact (congrArg (Tab.get OpSt.init · i) hops).trans hself

/-- The only operation in progress, a scan, fails with the restart of core 0. -/
theorem State.coreFails_scan {s : State} {i m a n p f q g pos : Nat} {o : OpSt} (hops : s.mgmt.ops = [(i, o)]) (hi : i < 256)
    (hrun : o.state = 1) (hbody : o.body = .scan m a n p f q g pos) :
    (s.coreFails 0).csr = s.csr
      ∧ (s.coreFails 0).op i = { o with state := 3, status := E.mgmtRestart, ended := s.clk.ns, body := .none } := by
  have hfails : o.restartFails = true := by simp [OpSt.restartFails, hrun, hbody]
  have hlist : (s.mgmt.ops.filter (fun e => e.2.restartFails)).map (·.1) = [i] := by simp [hops, hfails]
  have hop : s.op i = o := by simp [State.op, hops, Tab.get, Tab.find]
  have hbreak : s.breakOp i 3 E.mgmtRestart = (s.ledRelease (.op i)).endOp i 3 E.mgmtRestart := by
    have hbody' : ((s.ledRelease (.op i)).op i).body = .scan m a n p f q g pos := (congrArg OpSt.body hop).trans hbody
    unfold State.breakOp
    dsimp only
    rw [hbody']
  rw [State.coreFails, if_pos rfl, hlist, List.foldl_cons, List.foldl_nil, hbreak]
  obtain ⟨hcsr, hended⟩ := State.endOp_spec (s.ledRelease (.op i)) hi 3 E.mgmtRestart
  refine ⟨hcsr, hended.trans ?_⟩
  rw [← hop]
  rfl

theorem exec_watchdogExpiry_core0 {s : State} {dt i m a n p f q g pos : Nat} {o : OpSt} (h : s.live = true) (hup : s.coreUp 0 = true)
    (hstate : s.rd F.healthStatus_state ≠ 1) (hfirst : s.mgmt.wdogAt.any (fun t => s.clk.up + dt ≤ t + 60000000000) = false)
    (hops : s.mgmt.ops = [(i, o)]) (hi : i < 256) (hrun : o.state = 1) (hbody : o.body = .scan m a n p f q g pos) :
    ∃ u : State, exec (.watchdogExpiry dt 0) s = .next u.settle ∧ u.coreUp 0 = false
      ∧ u.op i = { o with state := 3, status := E.mgmtRestart, ended := (s.pass dt).clk.ns, body := .none } := by
  refine ⟨_, exec_watchdogExpiry_first h (by decide) hup hstate hfirst, ?_⟩
  have hcore := State.coreUp_expired s (dt := dt) (k := 0) (by decide)
  have hframe := State.expired_frame s dt 0
  generalize s.expired dt 0 = w at *
  have hwops : w.mgmt.ops = [(i, o)] := (congrArg (·.mgmt.ops) hframe).trans hops
  have hclk : w.clk = (s.pass dt).clk := congrArg (·.clk) hframe
  obtain ⟨hcsr, hop⟩ := State.coreFails_scan hwops hi hrun hbody
  refine ⟨?_, by rw [hop, hclk]⟩
  rw [← hcore, State.coreUp, State.coreUp, State.rd, State.rd, State.reg, State.reg, hcsr]

end Sys2Proof.Machine
end

section
/-! The thermal cap and the power cap, which lower a field's limit together (R30, R579, R582), and the side buses (R573). -/
namespace Sys2Proof.Machine

theorem regAddr_govStatus (f : Nat) : regAddr .govStatus f 0 = 0x1008 + 0x40 * f := rfl

/-- The registers above 0x2000 are none of the governors'. -/
theorem notMem_govStatus {a f : Nat} (ha : 0x2000 ≤ a) (hf : f < 4) : a ∉ [regAddr .govStatus f 0] := by
  rw [List.mem_singleton, regAddr_govStatus]
  omega

theorem regAddr_govStatus_notMem {f : Nat} {as : List Nat} (hf : f < 4) (has : ∀ a ∈ as, 0x2000 ≤ a) : regAddr .govStatus f 0 ∉ as :=
  fun hmem => notMem_govStatus (has _ hmem) hf List.mem_cons_self

theorem ofInt_eight {i : Int} (hlow : 0 ≤ i) (hhigh : i < 256) : ofInt 8 i = i.toNat := by
  unfold ofInt
  rw [Int.emod_eq_of_lt hlow (by simpa using hhigh)]

theorem State.regsBut_setTj (s : State) (f : Nat) (tj : Int) : RegsBut s (s.setTj f tj) [regAddr .thermStatus 0 0] :=
  (State.regsBut_wr s F.thermStatus_tj _ 0 0).trans (State.regsBut_wr _ F.thermStatus_tjMax _ 0 0)

/-- The reading of a field stands in its byte of THERM_STATUS (Table 20.12). -/
theorem State.tj_setTj (s : State) {f : Nat} (hf : f < 4) {tj : Int} (hlow : 0 ≤ tj) (hhigh : tj < 256) :
    bitsOf ((s.setTj f tj).rd F.thermStatus_tj) (8 * f) 8 = tj.toNat := by
  unfold State.setTj
  dsimp only
  rw [State.rd_wr_beside (f := F.thermStatus_tjMax) (g := F.thermStatus_tj) _ _ _ _ rfl (by decide) (by decide),
    State.rd_wr_same _ _ _ _ _ (by decide), bitsOf_mod (show 8 * f + 8 ≤ F.thermStatus_tj.width by change 8 * f + 8 ≤ 32; omega), bitsOf_setBits_same, ofInt_eight hlow hhigh]
  omega

/-- What the thermal cap and the power cap lower a field by is its limit's distance from 16. -/
theorem State.rd_setPowerLimit (s : State) (f : Nat) :
    (s.setPowerLimit f).rd F.govStatus_issueLimitPower f
      = (16 - max (Tab.get 0 s.rst.thermLow f) (Tab.get 0 s.rst.powLow f)) % 2 ^ F.govStatus_issueLimitPower.width :=
  State.rd_wr_same s _ _ f 0 (by decide)

/-- The state after field f reads tj and the thermal cap lowers it by n sixteenths. -/
def State.capped (s : State) (dt f : Nat) (tj : Int) (n : Nat) : State := ((s.pass dt).setTj f tj).setTherm f n

theorem State.capped_spec (s : State) (dt f : Nat) (tj : Int) (n : Nat) :
    Tab.get 0 (s.capped dt f tj n).rst.thermLow f = n
      ∧ (s.capped dt f tj n).rd F.govStatus_issueLimitPower f
        = (16 - max n (Tab.get 0 s.rst.powLow f)) % 2 ^ F.govStatus_issueLimitPower.width
      ∧ RegsBut s (s.capped dt f tj n) [regAddr .govStatus f 0, regAddr .thermStatus 0 0]
      ∧ s.capped dt f tj n = { s.pass dt with csr := (s.capped dt f tj n).csr, rst := (s.capped dt f tj n).rst } := by
  have hlow : Tab.get 0 (s.capped dt f tj n).rst.thermLow f = n := Tab.get_set_same 0 s.rst.thermLow f n
  refine ⟨hlow, (State.rd_setPowerLimit _ f).trans
    (congrArg (fun m => (16 - max m (Tab.get 0 s.rst.powLow f)) % 2 ^ F.govStatus_issueLimitPower.width) hlow), ?_, rfl⟩
  exact (((RegsBut.refl s _).step (State.regsBut_setTj (s.pass dt) f tj) (List.mem_cons_of_mem _ List.mem_cons_self)).step
    (State.regsBut_wr _ F.govStatus_issueLimitPower _ f 0) List.mem_cons_self)

theorem exec_thermalCapStep_enters {s : State} {dt f : Nat} {tj : Int} (h : s.live = true) (hf : f < 4) (hhot : 100 ≤ tj)
    (hlow : Tab.get 0 s.rst.thermLow f = 0) :
    exec (.thermalCapStep dt f tj) s
      = .next ((((s.capped dt f tj 1).cnt F.pwrAlarm_capEntries).alert 3).logWith 0x2002 0x00C1 0xFF (f + 2 ^ 8)).settle := by
  have hlow' : Tab.get 0 ((s.pass dt).setTj f tj).rst.thermLow f = 0 := hlow
  rw [exec_thermalCapStep, execThermalCapStep, whenLive_live _ _ h]
  dsimp only
  rw [if_neg (by omega), if_pos hhot, if_pos hlow', State.capped]

theorem exec_thermalCapStep_falls {s : State} {dt f n : Nat} {tj : Int} (h : s.live = true) (hf : f < 4) (hhot : 100 ≤ tj)
    (hn : n = Tab.get 0 s.rst.thermLow f) (hpos : 0 < n) (hmax : n < 16) (hdue : Tab.get 0 s.rst.capAt f + 1000000 ≤ s.clk.up + dt) :
    exec (.thermalCapStep dt f tj) s = .next (s.capped dt f tj (n + 1)).settle := by
  have hlow : Tab.get 0 ((s.pass dt).setTj f tj).rst.thermLow f = n := hn.symm
  have hdue' : Tab.get 0 ((s.pass dt).setTj f tj).rst.capAt f + 1000000 ≤ ((s.pass dt).setTj f tj).clk.up := hdue
  rw [exec_thermalCapStep, execThermalCapStep, whenLive_live _ _ h]
  dsimp only
  rw [if_neg (by omega), if_pos hhot, hlow, if_neg (by omega), if_pos (by simp [hmax, hdue']), State.capped]

theorem exec_thermalCapStep_rises {s : State} {dt f n : Nat} {tj : Int} (h : s.live = true) (hf : f < 4) (hcool : tj < 97)
    (hn : n = Tab.get 0 s.rst.thermLow f) (hmore : 1 < n) (hdue : Tab.get 0 s.rst.capAt f + 10000000 ≤ s.clk.up + dt) :
    exec (.thermalCapStep dt f tj) s = .next (s.capped dt f tj (n - 1)).settle := by
  have hlow : Tab.get 0 ((s.pass dt).setTj f tj).rst.thermLow f = n := hn.symm
  have hdue' : Tab.get 0 ((s.pass dt).setTj f tj).rst.capAt f + 10000000 ≤ ((s.pass dt).setTj f tj).clk.up := hdue
  have hcond : (tj < 97 && n ≠ 0 && Tab.get 0 ((s.pass dt).setTj f tj).rst.capAt f + 10000000 ≤ ((s.pass dt).setTj f tj).clk.up)
      = true := by
    simp [hcool, hdue', show n ≠ 0 by omega]
  rw [exec_thermalCapStep, execThermalCapStep, whenLive_live _ _ h]
  dsimp only
  rw [if_neg (by omega), if_neg (by omega), hlow, if_pos hcond, if_neg (by omega), State.capped]

/-- The first step of the cap counts, alerts and is logged (Table 20.3). -/
theorem exec_thermalCapStep_first {s : State} {dt f : Nat} {tj : Int} (h : s.live = true) (hf : f < 4) (hhot : 100 ≤ tj) (htop : tj < 128)
    (hlow : Tab.get 0 s.rst.thermLow f = 0) (hpow : Tab.get 0 s.rst.powLow f ≤ 1) (hroom : s.logRoom 1) :
    ∃ u : State, exec (.thermalCapStep dt f tj) s = .next u.settle ∧ u.rd F.govStatus_issueLimitPower f = 15
      ∧ Tab.get 0 u.rst.thermLow f = 1 ∧ bitsOf (u.rd F.thermStatus_tj) (8 * f) 8 = tj.toNat
      ∧ u.rd F.pwrAlarm_capEntries = satAdd F.pwrAlarm_capEntries.width (s.rd F.pwrAlarm_capEntries) 1
      ∧ bit (u.reg .alertCause) 3 = true ∧ u.lastEvt = some (0x2002, 0x00C1, 0xFF)
      ∧ RegsBut s u [regAddr .govStatus f 0, regAddr .thermStatus 0 0, regAddr .pwrAlarm 0 0, regAddr .alertCause 0 0]
      ∧ u = { s.pass dt with csr := u.csr, log := u.log, rst := u.rst } := by
  refine ⟨_, exec_thermalCapStep_enters h hf hhot hlow, ?_⟩
  obtain ⟨htherm, hlimit, hcapped, hcframe⟩ := State.capped_spec s dt f tj 1
  have htj : bitsOf ((s.capped dt f tj 1).rd F.thermStatus_tj) (8 * f) 8 = tj.toNat := by
    have hkeep : (s.capped dt f tj 1).rd F.thermStatus_tj = ((s.pass dt).setTj f tj).rd F.thermStatus_tj :=
      (State.regsBut_wr _ F.govStatus_issueLimitPower _ f 0).rd (notMem_govStatus (by decide) hf)
    rw [hkeep, State.tj_setTj _ hf (by omega) (by omega)]
  generalize s.capped dt f tj 1 = t at *
  obtain ⟨hcount, hcause, hregs, hframe⟩ := State.cnt_alert_spec t F.pwrAlarm_capEntries 0 0 (k := 3) (by decide) (by decide) (by decide)
  generalize (t.cnt F.pwrAlarm_capEntries).alert 3 = v at *
  have hlog : v.logRoom 1 := by
    rw [hframe, hcframe]
    exact hroom
  have hentries : t.rd F.pwrAlarm_capEntries = s.rd F.pwrAlarm_capEntries :=
    (hcapped.rd (List.not_mem_cons_of_ne_of_not_mem (List.ne_of_not_mem_cons (notMem_govStatus (by decide) hf)) (by decide)))
  rw [State.logWith_of_room _ _ _ hlog]
  refine ⟨?_, ?_, ?_, ?_, hcause, rfl, ?_, ?_⟩
  · have hfifteen : (16 - max 1 (Tab.get 0 s.rst.powLow f)) % 2 ^ F.govStatus_issueLimitPower.width = 15 := by
      rw [max_eq_left hpow]
      rfl
    exact (hregs.rd (regAddr_govStatus_notMem hf (by decide))).trans (hlimit.trans hfifteen)
  · exact (congrArg (fun x => Tab.get 0 x.rst.thermLow f) hframe).trans htherm
  · exact (congrArg (bitsOf · (8 * f) 8) (hregs.rd (by decide))).trans htj
  · exact hcount.trans (by rw [hentries])
  · exact (hcapped.mono (by simp)).trans (hregs.mono (List.subset_cons_of_subset _ (List.subset_cons_self _ _)))
  · rw [hframe, hcframe]

/-- The power cap sets how far it lowers field f, 1 to 16 sixteenths while a power is exceeded (log entry 50), and its limit. -/
def State.capField (exceeded : Bool) (u : State) (f : Nat) : State :=
  let p := u.fresh 4
  ({ p.2 with rst := { p.2.rst with powLow := Tab.set 0 p.2.rst.powLow f (if exceeded then p.1 + 1 else 0) } } : State).setPowerLimit f

/-- Field f's limit follows both caps, and the power cap lowers it exactly while a power is exceeded. -/
def State.limitFollows (t : State) (exceeded : Bool) (f : Nat) : Prop :=
  t.rd F.govStatus_issueLimitPower f
      = (16 - max (Tab.get 0 t.rst.thermLow f) (Tab.get 0 t.rst.powLow f)) % 2 ^ F.govStatus_issueLimitPower.width
    ∧ if exceeded then 1 ≤ Tab.get 0 t.rst.powLow f ∧ Tab.get 0 t.rst.powLow f ≤ 16 else Tab.get 0 t.rst.powLow f = 0

theorem State.capField_frame (exceeded : Bool) (u : State) (f : Nat) :
    u.capField exceeded f = { u with
      csr := (u.capField exceeded f).csr, free := u.free + 1, rst := { u.rst with powLow := (u.capField exceeded f).rst.powLow } } := rfl

theorem State.regsBut_capField (exceeded : Bool) (u : State) (f : Nat) : RegsBut u (u.capField exceeded f) [regAddr .govStatus f 0] :=
  State.regsBut_wr { (u.fresh 4).2 with rst := _ } F.govStatus_issueLimitPower _ f 0

theorem State.powLow_capField (exceeded : Bool) (u : State) (f g : Nat) :
    Tab.get 0 (u.capField exceeded f).rst.powLow g
      = if g = f then (if exceeded then (u.fresh 4).1 + 1 else 0) else Tab.get 0 u.rst.powLow g :=
  Tab.get_set 0 u.rst.powLow f g _

theorem State.limitFollows_capField_same (exceeded : Bool) (u : State) (f : Nat) : (u.capField exceeded f).limitFollows exceeded f := by
  refine ⟨State.rd_setPowerLimit _ f, ?_⟩
  have hfree : (u.fresh 4).1 < 16 := Nat.mod_lt _ (by decide)
  rw [State.powLow_capField, if_pos rfl]
  cases exceeded <;> simp only [Bool.false_eq_true, if_false, if_true]
  omega

theorem State.limitFollows_capField_ne {exceeded : Bool} {u : State} {f g : Nat} (hne : g ≠ f) (h : u.limitFollows exceeded g) :
    (u.capField exceeded f).limitFollows exceeded g := by
  have haddr : regAddr F.govStatus_issueLimitPower.reg g 0 ∉ [regAddr .govStatus f 0] := by
    have hreg : regAddr F.govStatus_issueLimitPower.reg g 0 = 0x1008 + 0x40 * g := rfl
    rw [List.mem_singleton, hreg, regAddr_govStatus]
    omega
  have htherm : (u.capField exceeded f).rst.thermLow = u.rst.thermLow := rfl
  rw [State.limitFollows, (State.regsBut_capField exceeded u f).rd haddr, State.powLow_capField, if_neg hne, htherm]
  exact h

/-- The power cap over a list of fields sets the limit of each and touches nothing else. -/
theorem State.foldl_capField_spec (exceeded : Bool) (fs : List Nat) (u : State) :
    (∀ f ∈ fs, (fs.foldl (State.capField exceeded) u).limitFollows exceeded f)
      ∧ RegsBut u (fs.foldl (State.capField exceeded) u) (fs.map (regAddr .govStatus · 0))
      ∧ fs.foldl (State.capField exceeded) u = { u with
          csr := (fs.foldl (State.capField exceeded) u).csr, free := u.free + fs.length
          rst := { u.rst with powLow := (fs.foldl (State.capField exceeded) u).rst.powLow } } := by
  induction fs using List.reverseRecOn with
  | nil => exact ⟨by simp, RegsBut.refl u _, rfl⟩
  | append_singleton fs f ih =>
    obtain ⟨hlimits, hregs, hframe⟩ := ih
    rw [List.foldl_append, List.foldl_cons, List.foldl_nil]
    generalize fs.foldl (State.capField exceeded) u = t at *
    refine ⟨fun g hg => ?_, ?_, ?_⟩
    · by_cases hgf : g = f
      · rw [hgf]
        exact State.limitFollows_capField_same exceeded t f
      · exact State.limitFollows_capField_ne hgf (hlimits g (by simpa [hgf] using hg))
    · exact (hregs.mono (by simp)).step (State.regsBut_capField exceeded t f) (by simp)
    · rw [State.capField_frame, List.length_append, hframe]
      rfl

/-- What the power monitor read stands in PWR_STATUS. -/
def State.powerRead (s : State) (dt vin iin pin : Nat) : State :=
  (((s.pass dt).wr F.pwrStatus_vin vin).wr F.pwrStatus_iin iin).wr F.pwrStatus_pinW pin

theorem State.powerRead_spec (s : State) (dt vin iin pin : Nat) :
    (s.powerRead dt vin iin pin).rd F.pwrStatus_vin = vin % 2 ^ F.pwrStatus_vin.width
      ∧ (s.powerRead dt vin iin pin).rd F.pwrStatus_iin = iin % 2 ^ F.pwrStatus_iin.width
      ∧ (s.powerRead dt vin iin pin).rd F.pwrStatus_pinW = pin % 2 ^ F.pwrStatus_pinW.width
      ∧ RegsBut s (s.powerRead dt vin iin pin) [regAddr .pwrStatus 0 0] := by
  refine ⟨?_, ?_, State.rd_wr_same _ _ _ _ _ (by decide), ?_⟩
  · rw [State.powerRead, State.rd_wr_beside (f := F.pwrStatus_pinW) (g := F.pwrStatus_vin) _ _ _ _ rfl (by decide) (by decide),
      State.rd_wr_beside (f := F.pwrStatus_iin) (g := F.pwrStatus_vin) _ _ _ _ rfl (by decide) (by decide),
      State.rd_wr_same _ _ _ _ _ (by decide)]
  · rw [State.powerRead, State.rd_wr_beside (f := F.pwrStatus_pinW) (g := F.pwrStatus_iin) _ _ _ _ rfl (by decide) (by decide),
      State.rd_wr_same _ _ _ _ _ (by decide)]
  · exact (((State.regsBut_wr (s.pass dt) F.pwrStatus_vin _ 0 0).trans (State.regsBut_wr _ F.pwrStatus_iin _ 0 0)).trans
      (State.regsBut_wr _ F.pwrStatus_pinW _ 0 0))

theorem exec_powerCapAdjust_live {s : State} {dt vin iin pin die : Nat} (h : s.live = true) :
    exec (.powerCapAdjust dt vin iin pin die) s
      = .next ((List.range 4).foldl (State.capField (powerOver pin die)) (s.powerRead dt vin iin pin)).settle := by
  rw [exec_powerCapAdjust, execPowerCapAdjust, whenLive_live _ _ h]
  rfl

theorem exec_powerCapAdjust_sets {s : State} {dt vin iin pin die : Nat} (h : s.live = true) :
    ∃ u : State, exec (.powerCapAdjust dt vin iin pin die) s = .next u.settle
      ∧ u.rd F.pwrStatus_vin = vin % 2 ^ F.pwrStatus_vin.width ∧ u.rd F.pwrStatus_iin = iin % 2 ^ F.pwrStatus_iin.width
      ∧ u.rd F.pwrStatus_pinW = pin % 2 ^ F.pwrStatus_pinW.width ∧ (∀ f ∈ List.range 4, u.limitFollows (powerOver pin die) f)
      ∧ u.rst.thermLow = s.rst.thermLow
      ∧ RegsBut s u [regAddr .pwrStatus 0 0, regAddr .govStatus 0 0, regAddr .govStatus 1 0, regAddr .govStatus 2 0, regAddr .govStatus 3 0]
      ∧ u = { s.pass dt with csr := u.csr, free := s.free + 4, rst := { s.rst with powLow := u.rst.powLow } } := by
  refine ⟨_, exec_powerCapAdjust_live h, ?_⟩
  obtain ⟨hvin, hiin, hpin, hread⟩ := State.powerRead_spec s dt vin iin pin
  obtain ⟨hlimits, hregs, hframe⟩ := State.foldl_capField_spec (powerOver pin die) (List.range 4) (s.powerRead dt vin iin pin)
  generalize (List.range 4).foldl (State.capField (powerOver pin die)) (s.powerRead dt vin iin pin) = u at *
  have hpower : regAddr .pwrStatus 0 0 ∉ (List.range 4).map (regAddr .govStatus · 0) := by decide
  exact ⟨(hregs.rd hpower).trans hvin, (hregs.rd hpower).trans hiin, (hregs.rd hpower).trans hpin, hlimits,
    congrArg (·.rst.thermLow) hframe, (hread.mono (by simp)).trans (hregs.mono (by decide)), hframe⟩

theorem exec_smbusCommandRx_nacks {s : State} (h : s.live = true) (hroom : s.logRoom 1) :
    ∃ u : State, exec .smbusCommandRx s = .next u.settle
      ∧ u.rd F.sideStat_smbusNack = satAdd F.sideStat_smbusNack.width (s.rd F.sideStat_smbusNack) 1
      ∧ u.lastEvt = some (0x190B, 0x00A0, 0xFF) ∧ RegsBut s u [regAddr .sideStat 0 0]
      ∧ u = { s with csr := u.csr, log := u.log, free := s.free + 1, out := s.out ++ [.smbus 1 []] } := by
  refine ⟨_, (exec_smbusCommandRx s).trans (whenLive_live _ _ h), ?_⟩
  rw [State.smbusNack, State.logFree_of_room (s := s.cnt F.sideStat_smbusNack) _ _ hroom]
  exact ⟨State.rd_cnt_same s F.sideStat_smbusNack 0 0 1 (by decide), rfl, State.regsBut_cnt s F.sideStat_smbusNack 0 0 1, rfl⟩

theorem exec_pmbusTransferEnd_answered {s : State} (h : s.live = true) :
    exec (.pmbusTransferEnd true) s = .next ({ s with rst := { s.rst with pmbTries := 0 } } : State).settle :=
  (exec_pmbusTransferEnd true s).trans (whenLive_live _ _ h)

/-- What a failed PMBus transfer does with its count of tries (R573). -/
theorem exec_pmbusTransferEnd_failed {s : State} (h : s.live = true) {n : Nat} (hn : n = min 4 (s.rst.pmbTries + 1)) {v : State}
    (hv : v = { s with rst := { s.rst with pmbTries := n } }) :
    exec (.pmbusTransferEnd false) s
      = .next (if n < 4 then v else ((v.cnt F.sideStat_pmbusErr).alert 5).logFree 0x190B 0x00A0 0xFF).settle := by
  rw [exec_pmbusTransferEnd, execPmbusTransferEnd, whenLive_live _ _ h, hv, hn]
  rfl

theorem exec_pmbusTransferEnd_retries {s : State} (h : s.live = true) (htries : s.rst.pmbTries < 3) :
    exec (.pmbusTransferEnd false) s = .next ({ s with rst := { s.rst with pmbTries := s.rst.pmbTries + 1 } } : State).settle := by
  rw [exec_pmbusTransferEnd_failed h (n := s.rst.pmbTries + 1) (by omega) rfl, if_pos (by omega)]

theorem exec_pmbusTransferEnd_alerts {s : State} (h : s.live = true) (htries : 3 ≤ s.rst.pmbTries) (hroom : s.logRoom 1) :
    ∃ u : State, exec (.pmbusTransferEnd false) s = .next u.settle
      ∧ u.rd F.sideStat_pmbusErr = satAdd F.sideStat_pmbusErr.width (s.rd F.sideStat_pmbusErr) 1 ∧ bit (u.reg .alertCause) 5 = true
      ∧ u.lastEvt = some (0x190B, 0x00A0, 0xFF) ∧ RegsBut s u [regAddr .sideStat 0 0, regAddr .alertCause 0 0]
      ∧ u = { s with csr := u.csr, log := u.log, free := s.free + 1, rst := { s.rst with pmbTries := 4, alertUntil := u.rst.alertUntil } } := by
  set t : State := { s with rst := { s.rst with pmbTries := 4 } } with ht
  refine ⟨_, (exec_pmbusTransferEnd_failed h (by omega) ht).trans (by rw [if_neg (by decide)]), ?_⟩
  obtain ⟨hcount, hcause, hregs, hframe⟩ := State.cnt_alert_spec t F.sideStat_pmbusErr 0 0 (k := 5) (by decide) (by decide) (by decide)
  generalize (t.cnt F.sideStat_pmbusErr).alert 5 = v at *
  have hlog : v.logRoom 1 := by rw [hframe]; exact hroom
  rw [State.logFree_of_room _ _ hlog]
  refine ⟨hcount, hcause, rfl, hregs, ?_⟩
  rw [hframe]

/-- Settles O57: each clause is the lemma on what its command does. -/
theorem supplyAndResetCauses : Obligations.SupplyAndResetCauses := by
  refine ⟨fun _ => exec_powerFail_live, fun _ h => ⟨_, exec_powerFail_asserted h, rfl⟩, fun _ _ => exec_vinOvervoltage_live,
    fun _ _ => exec_vinOutOfRange_alarms, fun _ _ hlow hhigh => ⟨_, exec_vinOutOfRange_returns hlow hhigh, rfl⟩,
    fun _ => ⟨_, rfl, rfl⟩, fun _ _ => exec_railFault_long, ?railFault, ?overpower, fun _ _ => exec_overpower_idle,
    fun _ => exec_thermalTrip_live, fun _ => exec_resetNAssert_live, fun _ h => ⟨_, exec_resetNAssert_asserted h, rfl⟩,
    ?resetNRelease, fun _ => exec_refclkLost_live, fun _ => ⟨_, rfl, rfl⟩, fun _ _ _ => exec_watchdogExpiry_again,
    fun _ _ _ => exec_watchdogExpiry_core23, fun _ _ => exec_watchdogExpiry_core1,
    fun _ _ _ _ _ _ _ _ _ _ _ _ => exec_watchdogExpiry_core0, fun _ _ _ _ => exec_thermalCapStep_first, ?falls, ?rises,
    ?powerCap, fun s dt h => ⟨_, (exec_alertNHoldExpiry dt s).trans (whenLive_live _ _ h), rfl⟩, fun _ => exec_smbusCommandRx_nacks,
    fun _ h => ⟨_, exec_pmbusTransferEnd_answered h, rfl⟩, fun _ h htries => ⟨_, exec_pmbusTransferEnd_retries h htries, rfl⟩,
    fun _ => exec_pmbusTransferEnd_alerts⟩
  case railFault =>
    intro s ns h hshort
    exact ⟨_, exec_railFault_short h hshort, State.rd_cnt_same s F.pwrAlarm_railFault 0 0 1 (by decide),
      State.regsBut_cnt s F.pwrAlarm_railFault 0 0 1, rfl⟩
  case overpower =>
    intro s w h hover
    obtain ⟨hreset, hbkp, -, hrails⟩ := State.assertReset_of_live h 0x08
    exact ⟨_, exec_overpower_over hover, hreset, hbkp, hrails⟩
  case resetNRelease =>
    rintro s b rfl
    exact ⟨_, rfl, rfl⟩
  case falls =>
    intro s dt f n tj h hf hhot hn hpos hmax hdue
    exact ⟨_, exec_thermalCapStep_falls h hf hhot hn hpos hmax hdue, State.capped_spec s dt f tj (n + 1)⟩
  case rises =>
    intro s dt f n tj h hf hcool hn hmore hdue
    exact ⟨_, exec_thermalCapStep_rises h hf hcool hn hmore hdue, State.capped_spec s dt f tj (n - 1)⟩
  case powerCap =>
    intro s dt vin iin pin die h
    obtain ⟨u, hexec, hvin, hiin, hpin, hlimits, htherm, hregs, hframe⟩ :=
      exec_powerCapAdjust_sets (dt := dt) (vin := vin) (iin := iin) (pin := pin) (die := die) h
    refine ⟨u, hexec, hvin, hiin, hpin, List.all_eq_true.mpr fun f hf => ?_, List.all_eq_true.mpr fun f hf => ?_, hregs, hframe⟩
    · rw [← htherm]
      exact decide_eq_true (hlimits f hf).1
    · obtain ⟨-, hpow⟩ := hlimits f hf
      cases hover : powerOver pin die <;> simpa [hover] using hpow

end Sys2Proof.Machine
end

section
/-! How core 0 answers a command, and the operation that a command begins (R484, R488, R490). -/
namespace Sys2Proof.Machine

/-- A response goes out once more, with duplicate set, on a port where its request arrived again (R484). -/
def State.resend (z q status handle : Nat) (body : Bytes) (u : State) (p : Nat) : State :=
  u.emit (.response z q status handle true body (u.sendPort p))

/-- Duplicates leave the newest first response as it is. -/
theorem State.foldl_resend_spec (z q status handle : Nat) (body : Bytes) (r : MReq) (dups : List Nat) (u : State) :
    (dups.foldl (State.resend z q status handle body) u).lastAnswer r = u.lastAnswer r
      ∧ dups.foldl (State.resend z q status handle body) u
        = { u with out := (dups.foldl (State.resend z q status handle body) u).out } := by
  induction dups generalizing u with
  | nil => exact ⟨rfl, rfl⟩
  | cons p ps ih =>
    obtain ⟨hanswer, hframe⟩ := ih (State.resend z q status handle body u p)
    have hdup : (State.resend z q status handle body u p).lastAnswer r = u.lastAnswer r := by
      simp [State.lastAnswer, State.resend, State.emit]
    exact ⟨hanswer.trans hdup, hframe⟩

theorem State.lastAnswer_emit_response (u : State) (r : MReq) (status handle p : Nat) (body : Bytes) :
    (u.emit (.response r.sess r.reqId status handle false body p)).lastAnswer r = some (status, handle, body) := by
  simp [State.lastAnswer, State.emit]

/-- A response to an open session is kept with the request and sent, then sent again for each duplicate request (R484). -/
theorem State.reply_of_session {s : State} {z : Nat} {y : SessSt} (h : s.session z = some y) (q p status handle : Nat) (body : Bytes) :
    ∃ (kept : SessSt) (dups : List Nat), s.reply z q p status handle body = dups.foldl (State.resend z q status handle body)
      ((s.setSession kept).emit (.response z q status handle false body (s.sendPort p))) := by
  unfold State.reply
  rw [h]
  exact ⟨_, _, rfl⟩

/-- A command from an open session gets its answer; beside the outputs only the sessions' own records change (R484). -/
theorem State.answer_spec {s : State} {r : MReq} (h : (s.session r.sess).isSome = true) (status handle : Nat) (body : Bytes) :
    (s.answer r status handle body).lastAnswer r = some (status, handle, body)
      ∧ s.answer r status handle body = { s with
          mgmt := { s.mgmt with sessions := (s.answer r status handle body).mgmt.sessions }
          out := (s.answer r status handle body).out } := by
  obtain ⟨y, hy⟩ := Option.isSome_iff_exists.mp h
  obtain ⟨kept, dups, hreply⟩ := State.reply_of_session hy r.reqId r.port status handle body
  obtain ⟨hanswer, hframe⟩ := State.foldl_resend_spec r.sess r.reqId status handle body r dups
    ((s.setSession kept).emit (.response r.sess r.reqId status handle false body (s.sendPort r.port)))
  rw [State.answer, hreply]
  refine ⟨hanswer.trans (State.lastAnswer_emit_response ..), ?_⟩
  rw [hframe]
  rfl

/-- A command that core 0 takes and answers at once, changing nothing else. -/
theorem State.answeredAs_answer {s : State} {code : Nat} {r : MReq} {rest : List MReq} (h : s.serves code r rest)
    (status handle : Nat) (body : Bytes) :
    s.answeredAs ((s.taken rest).answer r status handle body) r rest status handle body
      ∧ (s.taken rest).answer r status handle body = { s with
          mgmt := ((s.taken rest).answer r status handle body).mgmt, out := ((s.taken rest).answer r status handle body).out } := by
  obtain ⟨-, -, -, -, hsess⟩ := h
  obtain ⟨hanswer, hframe⟩ := State.answer_spec (s := s.taken rest) hsess status handle body
  refine ⟨⟨hanswer, ?_⟩, ?_⟩
  · rw [hframe]
    rfl
  · rw [hframe]
    rfl

/-- A command that begins an operation, with entry i the next to be given out: its answer is the handle (R488). -/
theorem State.opStarted_startOp {s : State} {code i : Nat} {r : MReq} {rest : List MReq} (h : s.serves code r rest)
    (hfree : s.freeEntry = some i) (kind total : Nat) (body : OpBody) :
    s.opStarted ((s.taken rest).startOp r kind total body fun _ t => t) r rest i kind total body
      ∧ (s.taken rest).startOp r kind total body (fun _ t => t) = { s with
          mgmt := ((s.taken rest).startOp r kind total body fun _ t => t).mgmt
          out := ((s.taken rest).startOp r kind total body fun _ t => t).out } := by
  obtain ⟨-, -, -, -, hsess⟩ := h
  have hfree' : (s.taken rest).freeEntry = some i := hfree
  unfold State.startOp State.newOp
  rw [hfree']
  dsimp only
  generalize hbegun : State.setOp _ i _ = t
  have hhandle : (t.op i).handle = i + (s.mgmt.handleSeq + 1) % 2 ^ 24 * 256 := by
    rw [← hbegun, State.op_setOp, if_pos rfl]
    rfl
  have hsess' : (t.session r.sess).isSome = true := by
    rw [← hbegun]
    exact hsess
  obtain ⟨hanswer, hframe⟩ := State.answer_spec hsess' 0 (t.op i).handle []
  rw [hhandle] at hanswer hframe ⊢
  refine ⟨⟨hanswer, ?_⟩, ?_⟩
  · rw [hframe, ← hbegun]
    rfl
  · rw [hframe, ← hbegun]
    rfl

end Sys2Proof.Machine
end

section
/-! POUR and the steps of operations (R36, R66 to R69, R251, R287, R303, R490). -/
namespace Sys2Proof.Machine

/-- Core 0 takes a POUR: the refusals in their order, and the pour that begins. -/
theorem exec_pour_taken {s : State} {r : MReq} {rest : List MReq} (h : s.serves 0x0010 r rest) :
    exec .pour s = .next (if s.pouring.isSome then (s.taken rest).answer r E.patBusy
      else if 2 ≤ s.rd F.dbgStatus_level then (s.taken rest).answer r E.secDebugState
      else if !(patKindOf r.body == 1) && s.oper.isNone then (s.taken rest).answer r E.patKind
      else (s.taken rest).startOp r 2 0 (.pour ⟨r.body, patKindOf r.body == 1, patMouldNo r.body, false⟩) fun _ t => t).settle := by
  obtain ⟨hlive, hup, hwaiting, hcode, -⟩ := h
  rw [exec_pour, execPour, takeCmd_takes s _ _ _ r rest hlive hup hwaiting hcode rfl]
  rfl

theorem exec_pour_begins {s : State} {r : MReq} {rest : List MReq} {i : Nat} {b : Bool} (h : s.serves 0x0010 r rest)
    (hidle : s.pouring = none) (hdebug : s.rd F.dbgStatus_level < 2) (hb : b = (patKindOf r.body == 1))
    (hbase : b = true ∨ s.oper.isSome = true) (hfree : s.freeEntry = some i) :
    ∃ u : State, exec .pour s = .next u.settle ∧ s.opStarted u r rest i 2 0 (.pour ⟨r.body, b, patMouldNo r.body, false⟩)
      ∧ u = { s with mgmt := u.mgmt, out := u.out } := by
  have hallowed : ¬ (!(patKindOf r.body == 1) && s.oper.isNone) = true := by
    rw [← hb]
    rcases hbase with rfl | hoper
    · simp
    · simp [Option.isSome_iff_ne_none.mp hoper]
  refine ⟨_, (exec_pour_taken h).trans ?_, State.opStarted_startOp h hfree 2 0 _⟩
  rw [if_neg (by simp [hidle]), if_neg (by omega), if_neg hallowed, hb]

theorem exec_pour_busy {s : State} {r : MReq} {rest : List MReq} (h : s.serves 0x0010 r rest) (hbusy : s.pouring.isSome = true) :
    ∃ u : State, exec .pour s = .next u.settle ∧ s.answeredAs u r rest E.patBusy 0 [] ∧ u = { s with mgmt := u.mgmt, out := u.out } :=
  ⟨_, (exec_pour_taken h).trans (by rw [if_pos hbusy]), State.answeredAs_answer h E.patBusy 0 []⟩

/-- Operation i may not step: core 0 is down, the operation waits, the step is too long, or it is not that operation's turn (R490). -/
theorem exec_operationStep_idle {s : State} {dt i ecc word : Nat} {ok : Bool} (h : s.live = true)
    (hwait : s.coreUp 0 = false ∨ s.stepReady i = false ∨ (s.stepClass i).2 < dt
      ∨ (s.stepClass i).1 = true ∧ (s.stepPick ≠ some i ∨ s.coreStepOk dt = false)) :
    exec (.operationStep dt i ok ecc word) s = .next s.settle := by
  rw [exec_operationStep, execOperationStep, whenLive_live _ _ h]
  dsimp only
  rw [if_pos]
  simpa [or_assoc] using hwait

/-- A step that may run: time passes, the step counts, and the operation's own step is taken. -/
theorem exec_operationStep_runs {s : State} {dt i ecc word : Nat} {ok core : Bool} (h : s.live = true) (hup : s.coreUp 0 = true)
    (hready : s.stepReady i = true) (hcore : (s.stepClass i).1 = core) (hbound : dt ≤ (s.stepClass i).2)
    (hturn : core = true → s.stepPick = some i ∧ s.coreStepOk dt = true) :
    exec (.operationStep dt i ok ecc word) s = .next ((s.stepping core dt i).runStep i ok ecc word).settle := by
  rw [exec_operationStep, execOperationStep, whenLive_live _ _ h]
  dsimp only
  have hmay : ¬ (!s.coreUp 0 || !s.stepReady i || decide ((s.stepClass i).2 < dt)
      || ((s.stepClass i).1 && (decide (s.stepPick ≠ some i) || !s.coreStepOk dt))) = true := by
    cases core
    · simpa [hup, hready, hcore] using hbound
    · simpa [hup, hready, hcore, hturn] using hbound
  rw [if_neg hmay, hcore]
  cases core <;> rfl

theorem exec_operationStep_core {s : State} {dt i ecc word : Nat} {ok : Bool} (h : s.coreStepMay dt i) :
    exec (.operationStep dt i ok ecc word) s = .next ((s.stepping true dt i).runStep i ok ecc word).settle := by
  obtain ⟨hlive, hup, hready, hcore, hbound, hpick, hbudget⟩ := h
  exact exec_operationStep_runs hlive hup hready hcore hbound fun _ => ⟨hpick, hbudget⟩

theorem exec_operationStep_free {s : State} {dt i ecc word ns : Nat} {ok : Bool} (h : s.live = true) (hup : s.coreUp 0 = true)
    (hready : s.stepReady i = true) (hclass : s.stepClass i = freeStep ns) (hbound : dt ≤ ns) :
    exec (.operationStep dt i ok ecc word) s = .next ((s.stepping false dt i).runStep i ok ecc word).settle :=
  exec_operationStep_runs h hup hready (by rw [hclass]; rfl) (by rw [hclass]; exact hbound) (by simp)

@[simp] theorem State.op_stepping (s : State) (core : Bool) (dt i : Nat) :
    (s.stepping core dt i).op i = { s.op i with hb := (s.op i).hb + 1 } := Tab.get_set_same _ _ _ _

theorem exec_operationStep_token {s : State} {dt i ecc word : Nat} {ok b : Bool} {a : Bytes} (h : s.coreStepMay dt i)
    (hbody : (s.op i).body = .token a b) :
    ∃ u : State, exec (.operationStep dt i ok ecc word) s = .next u.settle
      ∧ u.op i = { s.op i with hb := (s.op i).hb + 1, done := (s.op i).done + 1 }
      ∧ u.mgmt = { (s.stepping true dt i).mgmt with ops := u.mgmt.ops } ∧ u = { s.stepping true dt i with mgmt := u.mgmt } := by
  have hrun : (s.stepping true dt i).runStep i ok ecc word
      = (s.stepping true dt i).setOp i { s.op i with hb := (s.op i).hb + 1, done := (s.op i).done + 1 } := by
    simp only [State.runStep, State.op_stepping, hbody]
  have hexec := exec_operationStep_core (ok := ok) (ecc := ecc) (word := word) h
  rw [hrun] at hexec
  exact ⟨_, hexec, (State.op_setOp ..).trans (if_pos rfl), rfl, rfl⟩

theorem exec_operationStep_retrain {s : State} {dt i ecc word ch : Nat} {ok : Bool} (h : s.live = true) (hup : s.coreUp 0 = true)
    (hready : s.stepReady i = true) (hbound : dt ≤ 100000) (hbody : (s.op i).body = .retrain ch) (hfirst : (s.op i).done = 0) :
    ∃ u : State, exec (.operationStep dt i ok ecc word) s = .next u.settle ∧ u.rd F.gddrCh_state ch = 3
      ∧ RegsBut s u [regAddr .gddrCh ch 0] ∧ u.op i = { s.op i with hb := (s.op i).hb + 1, done := 1 }
      ∧ u = { s.stepping false dt i with csr := u.csr, mgmt := u.mgmt } := by
  have hclass : s.stepClass i = freeStep 100000 := by rw [State.stepClass, hbody]
  have hrun : (s.stepping false dt i).runStep i ok ecc word
      = ((s.stepping false dt i).setOp i { s.op i with hb := (s.op i).hb + 1, done := 1 }).wr F.gddrCh_state 3 ch := by
    simp [State.runStep, State.retrainStep, State.op_stepping, hbody, hfirst]
  have hexec := exec_operationStep_free (ok := ok) (ecc := ecc) (word := word) h hup hready hclass hbound
  rw [hrun] at hexec
  refine ⟨_, hexec, ?_, ?_, ?_, rfl⟩
  · exact State.rd_wr_same _ _ _ _ _ (by decide)
  · exact State.regsBut_wr ((s.stepping false dt i).setOp i _) F.gddrCh_state 3 ch 0
  · exact (State.op_setOp ..).trans (if_pos rfl)

/-- What a memory reports of one place changes neither the operations nor the time. -/
theorem State.placeErr_keeps (s : State) (m : Nat) (p : Place) (ecc word : Nat) :
    (s.placeErr m p ecc word).2.mgmt = s.mgmt ∧ (s.placeErr m p ecc word).2.clk = s.clk := by
  unfold State.placeErr State.sramEcc State.gddrCe State.gddrUe State.cxlPoison
  dsimp only
  split_ifs <;> simp

theorem State.access_keeps (s : State) (m a n ecc word : Nat) :
    (s.access m a n ecc word).2.mgmt = s.mgmt ∧ (s.access m a n ecc word).2.clk = s.clk := by
  unfold State.access
  split
  · exact ⟨rfl, rfl⟩
  · dsimp only
    split <;> exact State.placeErr_keeps s m _ ecc word

/-- Notifying sessions changes only the sessions' own records and the outputs. -/
theorem State.foldl_notify_frame (zs : List SessSt) (ty : Nat) (body : Bytes) (s : State) :
    zs.foldl (fun u z => u.notify z ty body) s = { s with
      mgmt := { s.mgmt with sessions := (zs.foldl (fun u z => u.notify z ty body) s).mgmt.sessions }
      out := (zs.foldl (fun u z => u.notify z ty body) s).out } := by
  induction zs generalizing s with
  | nil => rfl
  | cons z zs ih =>
    rw [List.foldl_cons, ih]
    rfl

/-- The end of an operation under a handle changes only the management controller and the outputs (R488, R491). -/
theorem State.endOp_frame (s : State) {i : Nat} (hi : i < 256) (state status : Nat) :
    s.endOp i state status = { s with mgmt := (s.endOp i state status).mgmt, out := (s.endOp i state status).out } := by
  unfold State.endOp
  rw [if_neg (by omega)]
  dsimp only
  rw [State.foldl_notify_frame]
  rfl

/-- A scan step that reads well absorbs its lines: after the last ones the operation ends with the check value, else it goes on (R303). -/
theorem State.scanStep_reads {s v : State} {i ecc word m a n poly fold q g pos : Nat}
    (hbody : (s.op i).body = .scan m a n poly fold q g pos) (hmould : s.mouldLive m = true)
    (hread : s.access m (a + pos) (min 65536 (n - pos)) ecc word = (0, v)) :
    ∃ t : State, t.op i = { s.op i with done := (s.op i).done + 1 } ∧ t = { v with mgmt := t.mgmt } ∧ s.scanStep i ecc word =
      (if n ≤ pos + min 65536 (n - pos) then
        (t.setOp i { t.op i with
          res := v.scanLines m (a + pos) poly fold q (pos / 64) (min 65536 (n - pos) / 64) g ^^^ scanOnes poly }).endOp i 2 0
      else t.setOp i { t.op i with
        body := .scan m a n poly fold q (v.scanLines m (a + pos) poly fold q (pos / 64) (min 65536 (n - pos) / 64) g)
          (pos + min 65536 (n - pos)) }) := by
  have hop : v.op i = s.op i := by
    have hkeep := (State.access_keeps s m (a + pos) (min 65536 (n - pos)) ecc word).1
    rw [hread] at hkeep
    rw [State.op, hkeep, State.op]
  refine ⟨v.setOp i { v.op i with done := (v.op i).done + 1 }, by rw [State.op_setOp, if_pos rfl, hop], rfl, ?_⟩
  unfold State.scanStep
  rw [hbody]
  dsimp only
  rw [if_neg (by simp [hmould]), hread]
  rfl

/-- A scan's step is a channel's: it takes no time of core 0. -/
theorem exec_operationStep_scan {s v : State} {dt i ecc word m a n poly fold q g pos : Nat} {ok : Bool} (h : s.live = true)
    (hup : s.coreUp 0 = true) (hready : s.stepReady i = true) (hbound : dt ≤ 100000)
    (hbody : (s.op i).body = .scan m a n poly fold q g pos) (hmould : s.mouldLive m = true)
    (hread : (s.stepping false dt i).access m (a + pos) (min 65536 (n - pos)) ecc word = (0, v)) :
    ∃ t : State, t.op i = { s.op i with hb := (s.op i).hb + 1, done := (s.op i).done + 1 } ∧ t = { v with mgmt := t.mgmt }
      ∧ exec (.operationStep dt i ok ecc word) s = .next (if n ≤ pos + min 65536 (n - pos) then
          (t.setOp i { t.op i with
            res := v.scanLines m (a + pos) poly fold q (pos / 64) (min 65536 (n - pos) / 64) g ^^^ scanOnes poly }).endOp i 2 0
        else t.setOp i { t.op i with
          body := .scan m a n poly fold q (v.scanLines m (a + pos) poly fold q (pos / 64) (min 65536 (n - pos) / 64) g)
            (pos + min 65536 (n - pos)) }).settle := by
  have hbody' : ((s.stepping false dt i).op i).body = .scan m a n poly fold q g pos := by rw [State.op_stepping]; exact hbody
  have hclass : s.stepClass i = freeStep 100000 := by rw [State.stepClass, hbody]
  have hrun : (s.stepping false dt i).runStep i ok ecc word = (s.stepping false dt i).scanStep i ecc word := by
    rw [State.runStep, hbody']
  obtain ⟨t, hop, hframe, hstep⟩ := State.scanStep_reads hbody' (show (s.stepping false dt i).mouldLive m = true from hmould) hread
  refine ⟨t, by rw [hop, State.op_stepping], hframe, ?_⟩
  rw [exec_operationStep_free h hup hready hclass hbound, hrun, hstep]

theorem exec_operationStep_scan_ends {s v : State} {dt i ecc word m a n poly fold q g pos : Nat} {ok : Bool} (h : s.live = true)
    (hup : s.coreUp 0 = true) (hready : s.stepReady i = true) (hbound : dt ≤ 100000) (hi : i < 256)
    (hbody : (s.op i).body = .scan m a n poly fold q g pos) (hmould : s.mouldLive m = true) (hlast : n ≤ pos + min 65536 (n - pos))
    (hread : (s.stepping false dt i).access m (a + pos) (min 65536 (n - pos)) ecc word = (0, v)) :
    ∃ u : State, exec (.operationStep dt i ok ecc word) s = .next u.settle
      ∧ u.op i = { s.op i with
          hb := (s.op i).hb + 1, done := (s.op i).done + 1, state := 2, status := 0, ended := (s.pass dt).clk.ns, body := .none
          res := v.scanLines m (a + pos) poly fold q (pos / 64) (min 65536 (n - pos) / 64) g ^^^ scanOnes poly }
      ∧ u = { v with mgmt := u.mgmt, out := u.out } := by
  obtain ⟨t, hop, hframe, hexec⟩ := exec_operationStep_scan (ok := ok) h hup hready hbound hbody hmould hread
  rw [if_pos hlast] at hexec
  refine ⟨_, hexec, ?_, ?_⟩
  · have hclk : t.clk = (s.pass dt).clk := by
      have hkeep := (State.access_keeps (s.stepping false dt i) m (a + pos) (min 65536 (n - pos)) ecc word).2
      rw [hread] at hkeep
      rw [hframe]
      exact hkeep
    rw [(State.endOp_spec _ hi 2 0).2, State.op_setOp, if_pos rfl, hop]
    simp only [State.setOp_keeps, hclk]
  · rw [State.endOp_frame _ hi, hframe]
    rfl

theorem exec_operationStep_scan_goes_on {s v : State} {dt i ecc word m a n poly fold q g pos : Nat} {ok : Bool} (h : s.live = true)
    (hup : s.coreUp 0 = true) (hready : s.stepReady i = true) (hbound : dt ≤ 100000)
    (hbody : (s.op i).body = .scan m a n poly fold q g pos) (hmould : s.mouldLive m = true) (hmore : pos + 65536 < n)
    (hread : (s.stepping false dt i).access m (a + pos) 65536 ecc word = (0, v)) :
    ∃ u : State, exec (.operationStep dt i ok ecc word) s = .next u.settle
      ∧ u.op i = { s.op i with
          hb := (s.op i).hb + 1, done := (s.op i).done + 1
          body := .scan m a n poly fold q (v.scanLines m (a + pos) poly fold q (pos / 64) 1024 g) (pos + 65536) }
      ∧ u = { v with mgmt := u.mgmt } := by
  have hwhole : min 65536 (n - pos) = 65536 := by omega
  obtain ⟨t, hop, hframe, hexec⟩ := exec_operationStep_scan (ok := ok) h hup hready hbound hbody hmould (by rwa [hwhole])
  rw [hwhole, if_neg (by omega)] at hexec
  refine ⟨_, hexec, ?_, ?_⟩
  · rw [State.op_setOp, if_pos rfl, hop]
  · rw [hframe]
    rfl

/-- The advance of a counter writes ledger words alone (R507). -/
theorem State.advanceCounter_frame {s t : State} {k w : Nat} (h : s.advanceCounter k w = some t) : t = { s with led := t.led } := by
  unfold State.advanceCounter at h
  dsimp only at h
  split at h
  · cases h; rfl
  split at h
  · cases h
  split at h
  · cases h; rfl
  next p _ =>
    generalize (if s.led.bad.contains (counterWord k p + 1) then 64 else clearedBits (s.ledW (counterWord k p + 1))) = used at h
    split at h
    · cases h; rfl
    split at h
    · cases h
    · cases h; rfl

/-- With room in the log, the advance of a counter leaves every register and makes at most one record (R535, R536). -/
theorem State.advanceOrLog_of_room {s : State} (h : s.logRoom 1) (k w : Nat) :
    (s.advanceOrLog k w).log.hbCount ≤ s.log.hbCount + 1
      ∧ s.advanceOrLog k w = { s with
          log := (s.advanceOrLog k w).log, free := (s.advanceOrLog k w).free, led := (s.advanceOrLog k w).led } := by
  unfold State.advanceOrLog
  split
  next t hadv =>
    rw [State.advanceCounter_frame hadv]
    exact ⟨Nat.le_succ _, rfl⟩
  next =>
    rw [State.logFree_of_room _ _ h]
    exact ⟨le_refl _, rfl⟩

/-- With room in the log, a mould that moves leaves its record (R244). -/
theorem State.moveMould_of_room {s : State} (h : s.logRoom 1) (m new heat : Nat) :
    (s.moveMould m new heat).mstate m = new % 2 ^ F.mouldStatus_state.width ∧ (s.moveMould m new heat).heat m = s.heat m
      ∧ (s.moveMould m new heat).lastEvt = some (0x0F01, 0x00A0, m)
      ∧ s.moveMould m new heat = { s with csr := (s.moveMould m new heat).csr, log := (s.moveMould m new heat).log } := by
  unfold State.moveMould State.logEvt
  dsimp only
  rw [State.logRec_of_room (s := s.wr F.mouldStatus_state new m) _ h]
  exact ⟨State.rd_wr_same s F.mouldStatus_state new m 0 (by decide),
    State.rd_wr_beside s (f := F.mouldStatus_state) (g := F.mouldStatus_heat) new m 0 rfl (by decide) (by decide), rfl, rfl⟩

/-- t is s after writes of registers that leave mould m's heat. -/
def State.HeatKept (s t : State) (m : Nat) : Prop := t.heat m = s.heat m ∧ t = { s with csr := t.csr }

theorem State.HeatKept.trans {s t u : State} {m : Nat} (h : s.HeatKept t m) (k : t.HeatKept u m) : s.HeatKept u m := by
  obtain ⟨hheat, hframe⟩ := h
  obtain ⟨kheat, kframe⟩ := k
  refine ⟨kheat.trans hheat, kframe.trans ?_⟩
  rw [hframe]

theorem State.heatKept_setReg (s : State) {r : RegName} {i j m : Nat} (v : Nat) (h : regAddr .mouldStatus m 0 ≠ regAddr r i j) :
    s.HeatKept (s.setReg r i j v) m :=
  ⟨congrArg (bitsOf · F.mouldStatus_heat.lo F.mouldStatus_heat.width) (State.reg_setReg_ne s v h), rfl⟩

theorem State.heatKept_wr_beside (s : State) {f : Field} (v m : Nat) (hreg : f.reg = .mouldStatus)
    (h : F.mouldStatus_heat.lo + F.mouldStatus_heat.width ≤ f.lo ∨ f.lo + f.width ≤ F.mouldStatus_heat.lo) : s.HeatKept (s.wr f v m) m :=
  ⟨State.rd_wr_beside s (g := F.mouldStatus_heat) v m 0 hreg.symm (by decide) h, rfl⟩

theorem regAddr_mouldStatus (m : Nat) : regAddr .mouldStatus m 0 = 0x800000 + 0x4000 * m := rfl

theorem regAddr_ctxStatus (m x : Nat) : regAddr .ctxStatus m x = 0x800200 + 0x4000 * m + 0x10 * x := rfl

/-- The contexts' base heats take the mould's heat and leave it. -/
theorem State.heatKept_baseHeats (xs : List Nat) (s : State) (m : Nat) :
    s.HeatKept (xs.foldl (fun (u : State) x => u.wr F.ctxStatus_baseHeat (u.heat m) m x) s) m := by
  induction xs generalizing s with
  | nil => exact ⟨rfl, rfl⟩
  | cons x xs ih =>
    have haddr : regAddr .mouldStatus m 0 ≠ regAddr .ctxStatus m x := by
      rw [regAddr_mouldStatus, regAddr_ctxStatus]
      omega
    exact (State.heatKept_setReg s _ haddr).trans (ih _)

theorem State.heatKept_setRepro (s : State) (m : Nat) : s.HeatKept (s.setRepro m) m := by
  have hhash : regAddr .mouldStatus m 0 ≠ regAddr .arithHash m 0 := by
    have : regAddr .arithHash m 0 = 0x800100 + 0x4000 * m := rfl
    rw [regAddr_mouldStatus]
    omega
  have hlow : regAddr .mouldStatus m 0 ≠ regAddr .reproKeyLo m 0 := by
    have : regAddr .reproKeyLo m 0 = 0x800108 + 0x4000 * m := rfl
    rw [regAddr_mouldStatus]
    omega
  have hhigh : regAddr .mouldStatus m 0 ≠ regAddr .reproKeyHi m 0 := by
    have : regAddr .reproKeyHi m 0 = 0x800110 + 0x4000 * m := rfl
    rw [regAddr_mouldStatus]
    omega
  exact ((State.heatKept_setReg s _ hhash).trans (State.heatKept_setReg _ _ hlow)).trans (State.heatKept_setReg _ _ hhigh)

/-- The registers of a mould that the commit step writes from its MOULD_MAP entry b (R251), and its reproducibility key (R229). -/
def State.mouldRegs (s : State) (m : Nat) (b : Bytes) : State :=
  (List.range (leAt b 2 1)).foldl (fun (u : State) x => u.wr F.ctxStatus_baseHeat (u.heat m) m x)
    ((s.wr F.mouldStatus_kind (leAt b 1 1) m).wr F.mouldStatus_contextCount (leAt b 2 1) m)

theorem State.heatKept_mouldRegs (s : State) (m : Nat) (b : Bytes) : s.HeatKept ((s.mouldRegs m b).setRepro m) m :=
  (((State.heatKept_wr_beside s _ m rfl (by decide)).trans (State.heatKept_wr_beside _ _ m rfl (by decide))).trans
    (State.heatKept_baseHeats _ _ m)).trans (State.heatKept_setRepro _ m)

/-- The commit step with MOULD_MAP entry b before its mould moves: the counter has advanced and the sections are in place. -/
def State.committing (s : State) (bs b : Bytes) : State :=
  let m := patMouldNo bs
  let t := s.advanceOrLog 2 (leAt bs 0x18 4)
  (t.setMould m { t.mould m with secs := patSecs bs, runSeq := [], faulted := [] }).mouldRegs m b

theorem State.commitMould_eq (s : State) (bs : Bytes) :
    ∃ b : Bytes, s.commitMould bs = ((s.committing bs b).setRepro (patMouldNo bs)).moveMould (patMouldNo bs) 2
      ((s.committing bs b).heat (patMouldNo bs)) := ⟨_, rfl⟩

theorem State.committing_of_room {s : State} {bs : Bytes} {m : Nat} (hm : m = patMouldNo bs) (h : s.logRoom 2) (b : Bytes) :
    ((s.committing bs b).setRepro m).logRoom 1 ∧ ((s.committing bs b).setRepro m).heat m = s.heat m
      ∧ ((s.committing bs b).setRepro m).mould m = { s.mould m with secs := patSecs bs, runSeq := [], faulted := [] }
      ∧ (s.committing bs b).setRepro m = { s with
          csr := ((s.committing bs b).setRepro m).csr, log := ((s.committing bs b).setRepro m).log
          free := ((s.committing bs b).setRepro m).free, led := ((s.committing bs b).setRepro m).led
          moulds := ((s.committing bs b).setRepro m).moulds } := by
  have hroom : s.logRoom 1 := by omega
  obtain ⟨hcount, hadvance⟩ := State.advanceOrLog_of_room hroom 2 (leAt bs 0x18 4)
  unfold State.committing
  rw [← hm]
  dsimp only
  generalize s.advanceOrLog 2 (leAt bs 0x18 4) = t at *
  have hheat : t.heat m = s.heat m := by rw [hadvance]; rfl
  have hmould : t.mould m = s.mould m := by rw [hadvance]; rfl
  rw [hmould]
  generalize hv : t.setMould m _ = v
  obtain ⟨hkept, hframe⟩ := State.heatKept_mouldRegs v m b
  generalize (v.mouldRegs m b).setRepro m = w at *
  subst hv
  refine ⟨?_, hkept.trans hheat, ?_, ?_⟩
  · rw [hframe]
    exact (Nat.add_le_add_right hcount 1).trans h
  · rw [hframe]
    exact (State.mould_setMould ..).trans (if_pos rfl)
  · rw [hframe, hadvance]
    rfl

/-- The commit step puts the pattern's sections in effect and the mould into READY (R68, R251). -/
theorem State.commitMould_of_room {s : State} {bs : Bytes} {m : Nat} (hm : m = patMouldNo bs) (h : s.logRoom 2) :
    (s.commitMould bs).mstate m = 2 ∧ (s.commitMould bs).mould m = { s.mould m with secs := patSecs bs, runSeq := [], faulted := [] }
      ∧ (s.commitMould bs).heat m = s.heat m ∧ (s.commitMould bs).lastEvt = some (0x0F01, 0x00A0, m)
      ∧ s.commitMould bs = { s with
          csr := (s.commitMould bs).csr, log := (s.commitMould bs).log, free := (s.commitMould bs).free
          led := (s.commitMould bs).led, moulds := (s.commitMould bs).moulds } := by
  obtain ⟨b, heq⟩ := State.commitMould_eq s bs
  obtain ⟨hlog, hheat, hmould, hframe⟩ := State.committing_of_room hm h b
  rw [heq, ← hm]
  generalize (s.committing bs b).setRepro m = w at *
  obtain ⟨hstate, hkept, hevt, hmoved⟩ := State.moveMould_of_room hlog m 2 ((s.committing bs b).heat m)
  refine ⟨hstate, ?_, hkept.trans hheat, hevt, ?_⟩
  · rw [hmoved]
    exact hmould
  · rw [hmoved, hframe]

/-- The last step of a mould pour: with its key still enrolled and no cluster of it fenced, it commits and ends (R68, R69, R541). -/
theorem State.mouldPourStep_last {s : State} {i : Nat} {p : PourSt} (hlast : (s.op i).done + 1 = mouldSteps p.data)
    (hkey : s.keyGone p.data = none) (hfence : (claimsOf p.data).any s.fencedCluster = false) :
    s.mouldPourStep i p = ((s.setOp i { s.op i with done := (s.op i).done + 1 }).commitMould p.data).endOp i 2 0 := by
  have hsign : 1 + cdiv (patLen p.data) 65536 + 48 ≤ stepsAB p.data := by
    unfold stepsAB
    split <;> omega
  have htotal : mouldSteps p.data
      = stepsAB p.data + stepsD p.data + (claimsOf p.data).length + cdiv (tableBytes p.data) 65536 + 1 := rfl
  have hgone : ∀ e, firstErr [s.keyGone p.data, chk (!(claimsOf p.data).any s.fencedCluster) E.patCluster 0x30 0 e] = none := by
    intro e
    rw [hkey, hfence]
    rfl
  unfold State.mouldPourStep
  dsimp only
  rw [hgone, if_neg (by omega), if_neg (by omega), if_neg (by omega), if_neg (by omega), if_neg (by omega), if_neg (by omega),
    if_neg (by omega), if_neg (by omega), if_neg (by omega)]

theorem exec_operationStep_pour_commits {s : State} {dt i ecc word m : Nat} {ok : Bool} {p : PourSt} (h : s.coreStepMay dt i)
    (hbody : (s.op i).body = .pour p) (hbase : p.base = false) (hlast : (s.op i).done + 1 = mouldSteps p.data)
    (hkey : s.keyGone p.data = none) (hfence : (claimsOf p.data).any s.fencedCluster = false) (hm : m = patMouldNo p.data)
    (hi : i < 256) (hroom : s.logRoom 2) :
    ∃ u : State, exec (.operationStep dt i ok ecc word) s = .next u.settle ∧ u.mstate m = 2 ∧ (u.mould m).secs = patSecs p.data
      ∧ (u.mould m).claimed = (s.mould m).claimed ∧ u.heat m = s.heat m ∧ u.lastEvt = some (0x0F01, 0x00A0, m)
      ∧ u.op i = { s.op i with
          hb := (s.op i).hb + 1, done := (s.op i).done + 1, state := 2, status := 0, ended := (s.pass dt).clk.ns, body := .none }
      ∧ u = { s.stepping true dt i with
          csr := u.csr, log := u.log, free := u.free, led := u.led, moulds := u.moulds, mgmt := u.mgmt, out := u.out } := by
  have hlast' : ((s.stepping true dt i).op i).done + 1 = mouldSteps p.data := by rw [State.op_stepping]; exact hlast
  have hrun : (s.stepping true dt i).runStep i ok ecc word
      = (((s.stepping true dt i).setOp i { s.op i with hb := (s.op i).hb + 1, done := (s.op i).done + 1 }).commitMould
        p.data).endOp i 2 0 := by
    have hstep : (s.stepping true dt i).runStep i ok ecc word = (s.stepping true dt i).mouldPourStep i p := by
      simp [State.runStep, State.pourStep, hbody, hbase]
    rw [hstep, State.mouldPourStep_last hlast' hkey hfence, State.op_stepping]
  have hexec := exec_operationStep_core (ok := ok) (ecc := ecc) (word := word) h
  rw [hrun] at hexec
  refine ⟨_, hexec, ?_⟩
  obtain ⟨hstate, hmould, hheat, hevt, hframe⟩ := State.commitMould_of_room
    (s := (s.stepping true dt i).setOp i { s.op i with hb := (s.op i).hb + 1, done := (s.op i).done + 1 }) hm hroom
  generalize State.commitMould _ p.data = c at *
  obtain ⟨-, hop⟩ := State.endOp_spec c hi 2 0
  have hended := State.endOp_frame c hi 2 0
  generalize c.endOp i 2 0 = u at *
  have hstepping : c.op i = { s.op i with hb := (s.op i).hb + 1, done := (s.op i).done + 1 } := by
    rw [hframe]
    exact (State.op_setOp ..).trans (if_pos rfl)
  have hsecs : u.mould m = c.mould m := by rw [hended]; rfl
  refine ⟨?_, ?_, ?_, ?_, ?_, ?_, ?_⟩
  · rw [hended]
    exact hstate
  · rw [hsecs, hmould]
  · rw [hsecs, hmould]
    rfl
  · rw [hended]
    exact hheat
  · rw [hended]
    exact hevt
  · rw [hop, hstepping, hframe]
    rfl
  · rw [hended, hframe]
    rfl

/-- Settles O53: each clause is the lemma on what its command does in that case. -/
theorem poursAndSteps : Obligations.PoursAndSteps :=
  ⟨fun _ _ _ _ _ => exec_pour_begins, fun _ _ _ => exec_pour_busy, fun _ _ _ _ _ _ => exec_operationStep_idle,
    fun _ _ _ _ _ _ _ _ => exec_operationStep_token,
    fun _ _ _ _ _ _ _ _ h hbody hbase hlast hkey hfence hm _ =>
      exec_operationStep_pour_commits h hbody hbase hlast hkey hfence hm,
    fun _ _ _ _ _ _ _ _ _ _ _ _ _ _ _ => exec_operationStep_scan_ends,
    fun _ _ _ _ _ _ _ _ _ _ _ _ _ _ _ => exec_operationStep_scan_goes_on,
    fun _ _ _ _ _ _ _ => exec_operationStep_retrain⟩

end Sys2Proof.Machine
end

section
/-! The beat governors: writes of the target rate, samples, shedding and rejoining (R79 to R90). -/
namespace Sys2Proof.Machine

/-- Room or none, an event touches only the log and LOG_STATUS. -/
theorem State.logEvt_frame (s : State) (code source m d : Nat) :
    s.logEvt code source m d
      = { s with csr := (s.logEvt code source m d).csr, log := (s.logEvt code source m d).log } := by
  unfold State.logEvt State.logRec
  split <;> rfl

theorem exec_govCtrlWrite_live {s : State} {req f v : Nat} (h : s.live = true) (hf : f < 4) :
    exec (.govCtrlWrite req f v) s = .next (s.govWrite f v).settle := by
  rw [exec_govCtrlWrite, execGovCtrlWrite, whenLive_live _ _ h, if_pos hf]

theorem State.govWrite_within {s : State} {f v : Nat} (hlow : 1500 ≤ v) (hhigh : v ≤ 2100) :
    s.govWrite f v = s.wr F.govCtrl_targetMrate v f := by
  unfold State.govWrite
  rw [Nat.mod_eq_of_lt (show v < 2 ^ 12 by omega)]
  exact if_pos ⟨hlow, hhigh⟩

theorem State.govWrite_outside {s : State} {f v : Nat} (hwidth : v < 4096) (hout : v < 1500 ∨ 2100 < v) :
    s.govWrite f v = s.govLog f 0x0C07 v := by
  unfold State.govWrite
  rw [Nat.mod_eq_of_lt (show v < 2 ^ 12 from hwidth)]
  exact if_neg (by omega)

theorem exec_govCtrlWrite_within {s : State} {req f v : Nat} (h : s.live = true) (hf : f < 4) (hlow : 1500 ≤ v) (hhigh : v ≤ 2100) :
    ∃ u : State, exec (.govCtrlWrite req f v) s = .next u.settle ∧ u.rd F.govCtrl_targetMrate f = v
      ∧ RegsBut s u [regAddr .govCtrl f 0] ∧ u = { s with csr := u.csr } := by
  refine ⟨_, exec_govCtrlWrite_live h hf, ?_⟩
  rw [State.govWrite_within hlow hhigh]
  refine ⟨?_, State.regsBut_wr s F.govCtrl_targetMrate v f 0, rfl⟩
  rw [State.rd_wr_same _ _ _ _ _ (by decide)]
  exact Nat.mod_eq_of_lt (show v < 2 ^ 12 by omega)

theorem exec_govCtrlWrite_outside {s : State} {req f v : Nat} (h : s.live = true) (hf : f < 4) (hwidth : v < 4096)
    (hout : v < 1500 ∨ 2100 < v) (hroom : s.logRoom 1) :
    ∃ u : State, exec (.govCtrlWrite req f v) s = .next u.settle
      ∧ u.lastEvt = some (0x0C07, 0x00D1 + f, 0xFF) ∧ u = { s with log := u.log } := by
  refine ⟨_, exec_govCtrlWrite_live h hf, ?_⟩
  rw [State.govWrite_outside hwidth hout, State.govLog, State.logEvt_of_room _ _ _ hroom]
  exact ⟨rfl, rfl⟩

theorem regAddr_govAlarm (f : Nat) : regAddr .govAlarm f 0 = 0x1010 + 0x40 * f := rfl

theorem regAddr_govStatus_notMem_govAlarm (f : Nat) : regAddr .govStatus f 0 ∉ [regAddr .govAlarm f 0] := by
  rw [List.mem_singleton, regAddr_govStatus, regAddr_govAlarm]
  omega

/-- A sample stores what it measured and the rail it leads to in GOV_STATUS_f (R84). -/
def State.sampleStored (s : State) (f rate slowest rail : Nat) : State :=
  (((s.wr F.govStatus_rateMrate rate f).wr F.govStatus_railMv rail f).wr F.govStatus_slowestCluster slowest f).wr
    F.govStatus_atVmax (ofBool (decide (s.vmax f ≤ rail))) f

theorem State.regsBut_sampleStored (s : State) (f rate slowest rail : Nat) :
    RegsBut s (s.sampleStored f rate slowest rail) [regAddr .govStatus f 0] :=
  (((State.regsBut_wr s F.govStatus_rateMrate _ f 0).trans (State.regsBut_wr _ F.govStatus_railMv _ f 0)).trans
    (State.regsBut_wr _ F.govStatus_slowestCluster _ f 0)).trans (State.regsBut_wr _ F.govStatus_atVmax _ f 0)

theorem State.rd_sampleStored_rate (s : State) (f rate slowest rail : Nat) :
    (s.sampleStored f rate slowest rail).rd F.govStatus_rateMrate f = rate % 2 ^ 12 := by
  unfold State.sampleStored
  rw [State.rd_wr_beside _ _ _ _ (by rfl) (by decide) (by decide), State.rd_wr_beside _ _ _ _ (by rfl) (by decide) (by decide),
    State.rd_wr_beside _ _ _ _ (by rfl) (by decide) (by decide)]
  exact State.rd_wr_same _ _ _ _ _ (by decide)

theorem State.rd_sampleStored_rail (s : State) (f rate slowest rail : Nat) :
    (s.sampleStored f rate slowest rail).rd F.govStatus_railMv f = rail % 2 ^ 10 := by
  unfold State.sampleStored
  rw [State.rd_wr_beside _ _ _ _ (by rfl) (by decide) (by decide), State.rd_wr_beside _ _ _ _ (by rfl) (by decide) (by decide)]
  exact State.rd_wr_same _ _ _ _ _ (by decide)

theorem State.rd_sampleStored_slowest (s : State) (f rate slowest rail : Nat) :
    (s.sampleStored f rate slowest rail).rd F.govStatus_slowestCluster f = slowest % 2 ^ 8 := by
  unfold State.sampleStored
  rw [State.rd_wr_beside _ _ _ _ (by rfl) (by decide) (by decide)]
  exact State.rd_wr_same _ _ _ _ _ (by decide)

theorem State.rd_sampleStored_alarm (s : State) (f rate slowest rail : Nat) :
    (s.sampleStored f rate slowest rail).rd F.govStatus_alarm f = s.rd F.govStatus_alarm f := by
  unfold State.sampleStored
  rw [State.rd_wr_beside _ _ _ _ (by rfl) (by decide) (by decide), State.rd_wr_beside _ _ _ _ (by rfl) (by decide) (by decide),
    State.rd_wr_beside _ _ _ _ (by rfl) (by decide) (by decide), State.rd_wr_beside _ _ _ _ (by rfl) (by decide) (by decide)]

theorem State.flag_eq_false {s : State} {f : Field} {i j : Nat} (h : s.rd f i j = 0) : s.flag f i j = false := by
  rw [State.flag, h]
  rfl

/-- No low sample at vmax: the run of them ends (R86). -/
theorem State.sampleCounts_lowRun {s : State} {f rate : Nat} (h : s.rd F.govStatus_atVmax f = 0 ∨ 1560 ≤ rate) :
    (s.sampleCounts f rate).lowRun = 0 := by
  have hlow : (s.flag F.govStatus_atVmax f && decide (rate < 1560)) = false := by
    rcases h with hvmax | hrate
    · rw [State.flag_eq_false hvmax, Bool.false_and]
    · rw [decide_eq_false (by omega), Bool.and_false]
  unfold State.sampleCounts
  simp only [hlow, Bool.false_eq_true, if_false]

/-- With no alarm and fewer than four low samples at vmax, the alarm stays as it is (R86). -/
theorem State.sampleAlarm_quiet {s : State} {f rate : Nat} {k : FieldSt} (halarm : s.rd F.govStatus_alarm f = 0) (hlow : k.lowRun < 4) :
    s.sampleAlarm f rate k = s := by
  unfold State.sampleAlarm
  dsimp only
  rw [State.flag_eq_false halarm, if_pos (by rfl), if_neg (by omega)]

/-- A sample at or above the floor, with no alarm and none due, counts and stores (R84, R86). -/
theorem State.govSample_quiet {s : State} {f rate cl : Nat} (halarm : s.rd F.govStatus_alarm f = 0) (hfloor : 1500 ≤ rate)
    (hwidth : rate < 4096) (hquiet : s.rd F.govStatus_atVmax f = 0 ∨ 1560 ≤ rate) :
    s.govSample f rate cl = ((s.cnt F.govAlarm_alarmMs f 0 0).setField f (s.sampleCounts f rate)).sampleStored f rate cl
      (railStep (s.rd F.govStatus_railMv f) rate (s.rd F.govCtrl_targetMrate f) (s.vmax f)) := by
  have hcount : ∀ t : State, t.count 9 255 0 = t := fun _ => rfl
  unfold State.govSample
  dsimp only
  rw [Nat.mod_eq_of_lt (show rate < 2 ^ 12 from hwidth), State.flag_eq_false halarm]
  simp only [Bool.false_eq_true, if_false, hcount, decide_eq_false (show ¬ rate < 1500 by omega), Bool.false_and]
  refine State.sampleAlarm_quiet ?_ ?_
  · refine (State.rd_sampleStored_alarm _ f rate cl _).trans ?_
    exact ((State.regsBut_cnt s F.govAlarm_alarmMs f 0 0).rd (regAddr_govStatus_notMem_govAlarm f)).trans halarm
  · have hfield : ((s.cnt F.govAlarm_alarmMs f 0 0).setField f (s.sampleCounts f rate)).fieldSt f = s.sampleCounts f rate :=
      (State.fieldSt_setField ..).trans (if_pos rfl)
    exact ((congrArg FieldSt.lowRun hfield).trans (State.sampleCounts_lowRun hquiet)).trans_lt (by decide)

theorem exec_governorSample_quiet {s : State} {dt f rate cl : Nat} (h : s.live = true) (hf : f < 4)
    (halarm : s.rd F.govStatus_alarm f = 0) (hfloor : 1500 ≤ rate) (hwidth : rate < 4096) (hcl : cl < 96)
    (hquiet : s.rd F.govStatus_atVmax f = 0 ∨ 1560 ≤ rate) :
    ∃ u : State, exec (.governorSample dt f rate cl) s = .next u.settle ∧ u.rd F.govStatus_rateMrate f = rate
      ∧ u.rd F.govStatus_slowestCluster f = cl
      ∧ u.rd F.govStatus_railMv f = railStep (s.rd F.govStatus_railMv f) rate (s.rd F.govCtrl_targetMrate f) (s.vmax f) % 2 ^ 10
      ∧ RegsBut s u [regAddr .govStatus f 0, regAddr .govAlarm f 0]
      ∧ u = { s.pass dt with csr := u.csr, fields := u.fields } := by
  have hexec : exec (.governorSample dt f rate cl) s = .next ((s.pass dt).govSample f rate cl).settle := by
    rw [exec_governorSample, execGovernorSample, whenLive_live _ _ h]
    exact congrArg (fun t : State => Host.Outcome.next t.settle) (if_pos hf)
  refine ⟨_, hexec, ?_⟩
  rw [State.govSample_quiet (s := s.pass dt) halarm hfloor hwidth hquiet]
  refine ⟨?_, ?_, State.rd_sampleStored_rail .., ?_, rfl⟩
  · rw [State.rd_sampleStored_rate, Nat.mod_eq_of_lt (show rate < 2 ^ 12 from hwidth)]
  · rw [State.rd_sampleStored_slowest, Nat.mod_eq_of_lt (show cl < 2 ^ 8 by omega)]
  · have hcnt : RegsBut s (((s.pass dt).cnt F.govAlarm_alarmMs f 0 0).setField f ((s.pass dt).sampleCounts f rate))
        [regAddr .govAlarm f 0] := State.regsBut_cnt (s.pass dt) F.govAlarm_alarmMs f 0 0
    exact (hcnt.mono (by simp)).trans ((State.regsBut_sampleStored _ f rate cl _).mono (by simp))

/-- The registers of a shedding stage below 3 (R88, R90). -/
def State.stageStored (s : State) (f stage : Nat) : State :=
  (s.wr F.govStatus_shedStage stage f).wr F.govStatus_issueLimitRate (stageLimit stage) f

/-- Below stage 3 no array ramps down (R88). -/
theorem State.setStage_below {s : State} {f stage : Nat} (h : stage < 3) :
    s.setStage f stage = (s.stageStored f stage).govLog f 0x0C04 0 := by
  unfold State.setStage
  dsimp only
  rw [if_pos h, State.stageStored]

theorem stageLimit_le (stage : Nat) : stageLimit stage ≤ 16 := by
  unfold stageLimit
  split_ifs <;> decide

theorem State.setStage_below_spec (s : State) {f stage : Nat} (hf : f < 4) (h : stage < 3) :
    (s.setStage f stage).rd F.govStatus_shedStage f = stage
      ∧ (s.setStage f stage).rd F.govStatus_issueLimitRate f = stageLimit stage
      ∧ RegsBut s (s.setStage f stage) [regAddr .govStatus f 0, regAddr .logStatus 0 0]
      ∧ s.setStage f stage = { s with csr := (s.setStage f stage).csr, log := (s.setStage f stage).log } := by
  rw [State.setStage_below h]
  have hlog : RegsBut (s.stageStored f stage) ((s.stageStored f stage).govLog f 0x0C04 0) [regAddr .logStatus 0 0] :=
    State.regsBut_logEvt _ _ _ _ _
  have haddr : regAddr .govStatus f 0 ∉ [regAddr .logStatus 0 0] := regAddr_govStatus_notMem hf (by decide)
  refine ⟨?_, ?_, ?_, State.logEvt_frame (s.stageStored f stage) ..⟩
  · rw [hlog.rd haddr, State.stageStored, State.rd_wr_beside _ _ _ _ (by rfl) (by decide) (by decide),
      State.rd_wr_same _ _ _ _ _ (by decide)]
    exact Nat.mod_eq_of_lt (show stage < 2 ^ 2 by omega)
  · rw [hlog.rd haddr, State.stageStored, State.rd_wr_same _ _ _ _ _ (by decide)]
    exact Nat.mod_eq_of_lt (show stageLimit stage < 2 ^ 5 from (stageLimit_le stage).trans_lt (by decide))
  · have hstored : RegsBut s (s.stageStored f stage) [regAddr .govStatus f 0] :=
      (State.regsBut_wr s F.govStatus_shedStage _ f 0).trans (State.regsBut_wr _ F.govStatus_issueLimitRate _ f 0)
    exact (hstored.mono (by simp)).trans (hlog.mono (by simp))

/-- The next lift of field f is 100 µs later, or there is none (R90). -/
def State.liftSet (s : State) (f stage : Nat) : State :=
  s.setField f { s.fieldSt f with liftAt := if 1 < stage then some (s.clk.up + 100000) else none }

theorem exec_shedStageLift_due {s : State} {dt f t : Nat} (h : s.live = true) (hlift : (s.fieldSt f).liftAt = some t)
    (hdue : t ≤ s.clk.up + dt) (halarm : s.rd F.govStatus_alarm f = 0) (hstage : 0 < s.rd F.govStatus_shedStage f) :
    exec (.shedStageLift dt f) s = .next (((s.pass dt).liftSet f (s.rd F.govStatus_shedStage f)).setStage f
      (s.rd F.govStatus_shedStage f - 1)).settle := by
  have hlift' : ((s.pass dt).fieldSt f).liftAt = some t := hlift
  have hhold : ((s.pass dt).clk.up < t || (s.pass dt).flag F.govStatus_alarm f || (s.pass dt).rd F.govStatus_shedStage f = 0) = false := by
    rw [State.flag_eq_false (s := s.pass dt) halarm]
    simp only [Bool.or_false, Bool.or_eq_false_iff, decide_eq_false_iff_not]
    exact ⟨Nat.not_lt.mpr hdue, hstage.ne'⟩
  rw [exec_shedStageLift, execShedStageLift, whenLive_live _ _ h]
  dsimp only
  rw [hlift']
  dsimp only
  rw [hhold]
  rfl

theorem exec_shedStageLift_leaves {s : State} {dt f t : Nat} (h : s.live = true) (hf : f < 4)
    (hlift : (s.fieldSt f).liftAt = some t) (hdue : t ≤ s.clk.up + dt) (halarm : s.rd F.govStatus_alarm f = 0)
    (hstage : 0 < s.rd F.govStatus_shedStage f) :
    ∃ u : State, exec (.shedStageLift dt f) s = .next u.settle ∧ u.rd F.govStatus_shedStage f = s.rd F.govStatus_shedStage f - 1
      ∧ u.rd F.govStatus_issueLimitRate f = stageLimit (s.rd F.govStatus_shedStage f - 1)
      ∧ (u.fieldSt f).liftAt = (if 1 < s.rd F.govStatus_shedStage f then some (s.clk.up + dt + 100000) else none)
      ∧ RegsBut s u [regAddr .govStatus f 0, regAddr .logStatus 0 0]
      ∧ u = { s.pass dt with csr := u.csr, fields := u.fields, log := u.log } := by
  have hwidth : s.rd F.govStatus_shedStage f < 2 ^ 2 := Nat.mod_lt _ (by decide)
  refine ⟨_, exec_shedStageLift_due h hlift hdue halarm hstage, ?_⟩
  generalize s.rd F.govStatus_shedStage f = stage at hwidth hstage ⊢
  obtain ⟨hrdstage, hrdlimit, hregs, hframe⟩ := State.setStage_below_spec ((s.pass dt).liftSet f stage) hf (show stage - 1 < 3 by omega)
  refine ⟨hrdstage, hrdlimit, ?_, hregs, ?_⟩
  · have hfield : ((s.pass dt).liftSet f stage).fieldSt f
        = { s.fieldSt f with liftAt := if 1 < stage then some (s.clk.up + dt + 100000) else none } :=
      (State.fieldSt_setField ..).trans (if_pos rfl)
    rw [hframe]
    exact congrArg FieldSt.liftAt hfield
  · rw [hframe]
    rfl

theorem exec_fieldRejoin_due {s : State} {dt f : Nat} (h : s.live = true) (hbelow : (s.fieldSt f).below = true)
    (hok : 0 < (s.fieldSt f).okSince) (hdue : (s.fieldSt f).okSince - 1 + 1000000 ≤ s.clk.up + dt) :
    ∃ u : State, exec (.fieldRejoin dt f) s = .next u.settle ∧ u.fieldSt f = { s.fieldSt f with below := false }
      ∧ (∀ g, g ≠ f → u.fieldSt g = s.fieldSt g) ∧ u = { s.pass dt with fields := u.fields } := by
  have hexec : exec (.fieldRejoin dt f) s = .next ((s.pass dt).setField f { s.fieldSt f with below := false }).settle := by
    have hcond : (((s.pass dt).fieldSt f).below && ((s.pass dt).fieldSt f).okSince ≠ 0
        && ((s.pass dt).fieldSt f).okSince - 1 + 1000000 ≤ (s.pass dt).clk.up) = true := by
      simp only [Bool.and_eq_true, decide_eq_true_eq]
      exact ⟨⟨hbelow, hok.ne'⟩, hdue⟩
    rw [exec_fieldRejoin, execFieldRejoin, whenLive_live _ _ h]
    dsimp only
    rw [if_pos hcond]
    rfl
  refine ⟨_, hexec, (State.fieldSt_setField ..).trans (if_pos rfl), fun g hg => ?_, rfl⟩
  exact (State.fieldSt_setField ..).trans (if_neg hg)

/-- Settles O9: each clause is the lemma on what its command does in that case. -/
theorem governorAndShedding : Obligations.GovernorAndShedding :=
  ⟨fun _ _ _ _ => exec_govCtrlWrite_within, fun _ _ _ _ => exec_govCtrlWrite_outside,
    fun _ _ _ _ _ => exec_governorSample_quiet, fun _ _ _ _ => exec_shedStageLift_leaves, fun _ _ _ => exec_fieldRejoin_due⟩

end Sys2Proof.Machine
end

section
/-! The frame fence and the crossing FIFOs (R77, R79, R97, R98). -/
namespace Sys2Proof.Machine

/-- A frame that loses no flit ends (R77, R79). -/
theorem exec_meshFrameEnd_whole {s : State} {f m x c : Nat} (h : s.live = true) (hf : f < 4) :
    exec (.meshFrameEnd f 0 m x c) s = .next (s.frameEnd f).settle := by
  rw [exec_meshFrameEnd, execMeshFrameEnd, whenLive_live _ _ h, if_pos hf]
  rfl

theorem State.mem_fenced {s : State} {g : Nat} : g ∈ s.fenced ↔ g < 4 ∧ (s.fieldSt g).below = false := by
  simp [State.fenced]

/-- The fence holds while a fenced field has not ended its frame (R77). -/
theorem State.fenceStep_waits {s : State} {g : Nat} (hg : g ∈ s.fenced) (hdone : (s.fieldSt g).frameDone = false) : s.fenceStep = s := by
  have hall : s.fenced.all (fun g => (s.fieldSt g).frameDone) = false :=
    List.all_eq_false.mpr ⟨g, hg, by rw [hdone]; decide⟩
  unfold State.fenceStep
  rw [hall]
  rfl

theorem State.frameEnd_waits {s : State} {f g : Nat} (hf : (s.fieldSt f).below = false) (hg : g < 4) (hne : g ≠ f)
    (hin : (s.fieldSt g).below = false) (hdone : (s.fieldSt g).frameDone = false) :
    s.frameEnd f = s.setField f { s.fieldSt f with frameDone := true } := by
  have hother : (s.setField f { s.fieldSt f with frameDone := true }).fieldSt g = s.fieldSt g :=
    (State.fieldSt_setField ..).trans (if_neg hne)
  unfold State.frameEnd
  dsimp only
  rw [if_neg (by rw [hf]; decide)]
  exact State.fenceStep_waits (State.mem_fenced.mpr ⟨hg, (congrArg FieldSt.below hother).trans hin⟩)
    ((congrArg FieldSt.frameDone hother).trans hdone)

theorem State.frameEnd_alone {s : State} {f : Nat} (hf : (s.fieldSt f).below = true) :
    s.frameEnd f = s.setField f { s.fieldSt f with frames := (s.fieldSt f).frames + 1 } := by
  unfold State.frameEnd
  exact if_pos hf

/-- Replacing field f leaves the others and every other part. -/
theorem State.setField_spec (s : State) (f : Nat) (v : FieldSt) :
    (s.setField f v).fieldSt f = v ∧ (∀ g, g ≠ f → (s.setField f v).fieldSt g = s.fieldSt g)
      ∧ s.setField f v = { s with fields := (s.setField f v).fields } :=
  ⟨(State.fieldSt_setField ..).trans (if_pos rfl), fun _ hg => (State.fieldSt_setField ..).trans (if_neg hg), rfl⟩

theorem exec_meshFrameEnd_waits {s : State} {f g m x c : Nat} (h : s.live = true) (hf : f < 4) (hfence : (s.fieldSt f).below = false)
    (hg : g < 4) (hne : g ≠ f) (hin : (s.fieldSt g).below = false) (hdone : (s.fieldSt g).frameDone = false) :
    ∃ u : State, exec (.meshFrameEnd f 0 m x c) s = .next u.settle ∧ u.fieldSt f = { s.fieldSt f with frameDone := true }
      ∧ (∀ h, h ≠ f → u.fieldSt h = s.fieldSt h) ∧ u = { s with fields := u.fields } := by
  refine ⟨_, exec_meshFrameEnd_whole h hf, ?_⟩
  rw [State.frameEnd_waits hfence hg hne hin hdone]
  exact State.setField_spec ..

theorem exec_meshFrameEnd_alone {s : State} {f m x c : Nat} (h : s.live = true) (hf : f < 4) (hbelow : (s.fieldSt f).below = true) :
    ∃ u : State, exec (.meshFrameEnd f 0 m x c) s = .next u.settle
      ∧ u.fieldSt f = { s.fieldSt f with frames := (s.fieldSt f).frames + 1 }
      ∧ (∀ h, h ≠ f → u.fieldSt h = s.fieldSt h) ∧ u = { s with fields := u.fields } := by
  refine ⟨_, exec_meshFrameEnd_whole h hf, ?_⟩
  rw [State.frameEnd_alone hbelow]
  exact State.setField_spec ..

/-- Domain d's FIFO out of the core holds n items. -/
def State.xingHeld (s : State) (d n : Nat) : State := { s with xing := Tab.set 0 s.xing d n }

/-- An item out of the core that finds no room is discarded, counted, and logged once (R98). -/
def State.xingDropped (s : State) (d : Nat) : State :=
  let s := s.cnt F.xingDrop_count (d - 1)
  if s.xingLogged.contains d then s
  else { s with xingLogged := d :: s.xingLogged }.logEvt 0x0C06 0x00D0 0xFF (d + s.rd F.xingDrop_count (d - 1) * 2 ^ 32)

/-- With n items held, one more goes out of the core: it joins them where there is room (R98). -/
def State.xingOut (s : State) (d n : Nat) : State :=
  if n < Config.crossingDepth d then (s.xingHeld d n).xingHeld d (n + 1) else (s.xingHeld d n).xingDropped d

theorem exec_crossingItem_runs {s : State} {d n : Nat} (toCore : Bool) (h : s.live = true) (hlow : 0 < d) (hhigh : d ≤ 18)
    (hon : s.clockOn d = true) :
    exec (.crossingItem d toCore n) s
      = .next (if toCore then s.xingHeld d (Tab.get 0 s.xing d - n) else s.xingOut d (Tab.get 0 s.xing d - n)).settle := by
  have hidle : (d = 0 || 18 < d || !s.clockOn d) = false := by
    rw [hon]
    simp only [Bool.not_true, Bool.or_false, Bool.or_eq_false_iff, decide_eq_false_iff_not]
    exact ⟨hlow.ne', Nat.not_lt.mpr hhigh⟩
  rw [exec_crossingItem, execCrossingItem, whenLive_live _ _ h]
  dsimp only
  rw [hidle]
  rfl

theorem State.xing_xingHeld_same (s : State) (d n : Nat) : Tab.get 0 (s.xingHeld d n).xing d = n :=
  Tab.get_set_same 0 s.xing d n

theorem State.xing_xingHeld_ne (s : State) {d e : Nat} (n : Nat) (h : e ≠ d) :
    Tab.get 0 (s.xingHeld d n).xing e = Tab.get 0 s.xing e :=
  Tab.get_set_ne 0 0 s.xing n h

/-- A discarded item touches its counter and the log (R98). -/
theorem State.xingDropped_spec (s : State) {d : Nat} (hlow : 0 < d) (hhigh : d ≤ 18) :
    (s.xingDropped d).rd F.xingDrop_count (d - 1) = satAdd 32 (s.rd F.xingDrop_count (d - 1)) 1
      ∧ RegsBut s (s.xingDropped d) [regAddr .xingDrop (d - 1) 0, regAddr .logStatus 0 0]
      ∧ s.xingDropped d = { s with
          csr := (s.xingDropped d).csr, xingLogged := (s.xingDropped d).xingLogged, log := (s.xingDropped d).log } := by
  have hcount : (s.cnt F.xingDrop_count (d - 1)).rd F.xingDrop_count (d - 1) = satAdd 32 (s.rd F.xingDrop_count (d - 1)) 1 :=
    State.rd_cnt_same s _ _ _ _ (by decide)
  have hregs : RegsBut s (s.cnt F.xingDrop_count (d - 1)) [regAddr .xingDrop (d - 1) 0, regAddr .logStatus 0 0] :=
    (State.regsBut_cnt s F.xingDrop_count (d - 1) 0 1).mono (List.cons_subset_cons _ (List.nil_subset _))
  have haddr : regAddr .xingDrop (d - 1) 0 ∉ [regAddr .logStatus 0 0] := by
    have hdrop : regAddr .xingDrop (d - 1) 0 = 0x1300 + 0x8 * (d - 1) := rfl
    have hstatus : regAddr .logStatus 0 0 = 0x4018 := rfl
    rw [List.mem_singleton, hdrop, hstatus]
    omega
  unfold State.xingDropped
  dsimp only
  split
  · exact ⟨hcount, hregs, rfl⟩
  · have hlog := State.regsBut_logEvt { s.cnt F.xingDrop_count (d - 1) with xingLogged := d :: (s.cnt F.xingDrop_count (d - 1)).xingLogged }
      0x0C06 0x00D0 0xFF (d + (s.cnt F.xingDrop_count (d - 1)).rd F.xingDrop_count (d - 1) * 2 ^ 32)
    refine ⟨(hlog.rd haddr).trans hcount, hregs.trans (hlog.mono (by simp)), ?_⟩
    rw [State.logEvt_frame]
    rfl

theorem exec_crossingItem_in {s : State} {d n : Nat} (h : s.live = true) (hlow : 0 < d) (hhigh : d ≤ 18) (hon : s.clockOn d = true) :
    ∃ u : State, exec (.crossingItem d true n) s = .next u.settle ∧ Tab.get 0 u.xing d = Tab.get 0 s.xing d - n
      ∧ (∀ e, e ≠ d → Tab.get 0 u.xing e = Tab.get 0 s.xing e) ∧ u = { s with xing := u.xing } :=
  ⟨_, exec_crossingItem_runs true h hlow hhigh hon, State.xing_xingHeld_same .., fun _ he => State.xing_xingHeld_ne s _ he, rfl⟩

theorem State.xingOut_spec (s : State) {d : Nat} (n : Nat) (hlow : 0 < d) (hhigh : d ≤ 18) :
    (if n < Config.crossingDepth d then Tab.get 0 (s.xingOut d n).xing d = n + 1 ∧ (s.xingOut d n).csr = s.csr
        else Tab.get 0 (s.xingOut d n).xing d = n
          ∧ (s.xingOut d n).rd F.xingDrop_count (d - 1) = satAdd 32 (s.rd F.xingDrop_count (d - 1)) 1)
      ∧ RegsBut s (s.xingOut d n) [regAddr .xingDrop (d - 1) 0, regAddr .logStatus 0 0]
      ∧ s.xingOut d n = { s with
          csr := (s.xingOut d n).csr, xing := (s.xingOut d n).xing, xingLogged := (s.xingOut d n).xingLogged
          log := (s.xingOut d n).log } := by
  unfold State.xingOut
  by_cases hroom : n < Config.crossingDepth d
  · simp only [if_pos hroom]
    exact ⟨⟨State.xing_xingHeld_same .., rfl⟩, RegsBut.refl s _, rfl⟩
  · simp only [if_neg hroom]
    obtain ⟨hcount, hregs, hframe⟩ := State.xingDropped_spec (s.xingHeld d n) hlow hhigh
    refine ⟨⟨?_, hcount⟩, hregs, ?_⟩
    · rw [hframe]
      exact State.xing_xingHeld_same ..
    · rw [hframe]
      rfl

/-- Settles O10: each clause is the lemma on what its command does in that case. -/
theorem frameFenceAndCrossings : Obligations.FrameFenceAndCrossings :=
  ⟨fun _ _ _ _ _ _ => exec_meshFrameEnd_waits, fun _ _ _ _ _ => exec_meshFrameEnd_alone, fun _ _ _ => exec_crossingItem_in,
    fun s _ _ h hlow hhigh hon => ⟨_, exec_crossingItem_runs false h hlow hhigh hon, State.xingOut_spec s _ hlow hhigh⟩⟩

end Sys2Proof.Machine
end

section
/-! The arrays' power states, the slope controller and the monitored clock domains (R92 to R96, R100). -/
namespace Sys2Proof.Machine

theorem regAddr_arrStatus (c a : Nat) : regAddr .arrStatus c a = 0x1001008 + 0x100000 * c + 0x100 * a := rfl

theorem regAddr_arrStatus_ne {a b : Nat} (c : Nat) (h : a ≠ b) : regAddr .arrStatus c a ≠ regAddr .arrStatus c b := by
  rw [regAddr_arrStatus, regAddr_arrStatus]
  omega

/-- Writing one field of a register at several second indices leaves the rest of the registers. -/
theorem State.foldl_wr_frame (f : Field) (v i : Nat) (bs : List Nat) (s : State) :
    RegsBut s (bs.foldl (fun u b => u.wr f v i b) s) (bs.map (regAddr f.reg i ·))
      ∧ bs.foldl (fun u b => u.wr f v i b) s = { s with csr := (bs.foldl (fun u b => u.wr f v i b) s).csr } := by
  induction bs generalizing s with
  | nil => exact ⟨RegsBut.refl s _, rfl⟩
  | cons b bs ih =>
    obtain ⟨hregs, hframe⟩ := ih (s.wr f v i b)
    refine ⟨((State.regsBut_wr s f v i b).mono (by simp)).trans (hregs.mono (by simp)), ?_⟩
    rw [List.foldl_cons, hframe]
    rfl

/-- The power state p stands in every array it was written to. -/
theorem State.rd_foldl_power {p : Nat} (hp : p < 8) (c : Nat) {b : Nat} (bs : List Nat) (s : State)
    (h : b ∈ bs ∨ s.rd F.arrStatus_power c b = p) : (bs.foldl (fun u b => u.wr F.arrStatus_power p c b) s).rd F.arrStatus_power c b = p := by
  induction bs generalizing s with
  | nil => exact h.resolve_left List.not_mem_nil
  | cons a bs ih =>
    refine ih _ ?_
    by_cases hab : b = a
    · rw [hab]
      exact .inr ((State.rd_wr_same s _ _ _ _ (by decide)).trans (Nat.mod_eq_of_lt hp))
    · refine h.imp (fun hmem => (List.mem_cons.mp hmem).resolve_left hab) fun hrd => ?_
      exact (State.rd_wr_ne s _ (regAddr_arrStatus_ne c hab)).trans hrd

/-- Every array of the gang takes the power state (R162). -/
theorem State.setPower_spec (s : State) (c a : Nat) {p : Nat} (hp : p < 8) :
    (∀ b ∈ s.gangOfArray c a, (s.setPower c a p).rd F.arrStatus_power c b = p)
      ∧ RegsBut s (s.setPower c a p) ((s.gangOfArray c a).map (regAddr .arrStatus c ·))
      ∧ s.setPower c a p = { s with csr := (s.setPower c a p).csr } :=
  ⟨fun _ hb => State.rd_foldl_power hp c _ s (.inl hb), State.foldl_wr_frame F.arrStatus_power p c _ s⟩

theorem exec_holdingExpiry_due {s : State} {dt c a : Nat} (h : s.live = true) (hc : s.enabled c = true) (ha : a < 4)
    (hpower : s.rd F.arrStatus_power c a = 3) (hdue : (s.array c a).holdEnd ≤ s.clk.up + dt) :
    ∃ u : State, exec (.holdingExpiry dt c a) s = .next u.settle ∧ (∀ b ∈ s.gangOfArray c a, u.rd F.arrStatus_power c b = 4)
      ∧ RegsBut s u ((s.gangOfArray c a).map (regAddr .arrStatus c ·)) ∧ u = { s.pass dt with csr := u.csr } := by
  have hcond : ((s.pass dt).enabled c && a < 4 && (s.pass dt).rd F.arrStatus_power c a = 3
      && ((s.pass dt).array c a).holdEnd ≤ (s.pass dt).clk.up) = true := by
    simp only [Bool.and_eq_true, decide_eq_true_eq]
    exact ⟨⟨⟨hc, ha⟩, hpower⟩, hdue⟩
  have hexec : exec (.holdingExpiry dt c a) s = .next ((s.pass dt).setPower c a 4).settle := by
    rw [exec_holdingExpiry, execHoldingExpiry, whenLive_live _ _ h]
    exact congrArg (fun t : State => Host.Outcome.next t.settle) (if_pos hcond)
  exact ⟨_, hexec, State.setPower_spec (s.pass dt) c a (by decide)⟩

theorem exec_rampDownComplete_due {s : State} {c a : Nat} (h : s.live = true) (hc : s.enabled c = true) (ha : a < 4)
    (hpower : s.rd F.arrStatus_power c a = 4) :
    ∃ u : State, exec (.rampDownComplete c a) s = .next u.settle ∧ (∀ b ∈ s.gangOfArray c a, u.rd F.arrStatus_power c b = 0)
      ∧ RegsBut s u ((s.gangOfArray c a).map (regAddr .arrStatus c ·)) ∧ u = { s with csr := u.csr } := by
  have hcond : (s.enabled c && a < 4 && s.rd F.arrStatus_power c a = 4) = true := by
    simp only [Bool.and_eq_true, decide_eq_true_eq]
    exact ⟨⟨hc, ha⟩, hpower⟩
  have hexec : exec (.rampDownComplete c a) s = .next (s.setPower c a 0).settle := by
    rw [exec_rampDownComplete, execRampDownComplete, whenLive_live _ _ h]
    exact congrArg (fun t : State => Host.Outcome.next t.settle) (if_pos hcond)
  exact ⟨_, hexec, State.setPower_spec s c a (by decide)⟩

/-- t differs from s at most in what arrays and their ramps stand in: registers, clusters and fields. -/
def State.PowerOnly (s t : State) : Prop := t = { s with csr := t.csr, clus := t.clus, fields := t.fields }

theorem State.PowerOnly.trans {s t u : State} (h : s.PowerOnly t) (k : t.PowerOnly u) : s.PowerOnly u := by
  unfold State.PowerOnly at *
  rw [k, h]

theorem State.hold_frame (s : State) (c a until_ : Nat) :
    s.hold c a until_ = { s with csr := (s.hold c a until_).csr, clus := (s.hold c a until_).clus } :=
  List.foldlRecOn _ _ (motive := fun t : State => t = { s with csr := t.csr, clus := t.clus }) rfl fun t ht b _ => by
    rw [ht]
    rfl

theorem State.setPower_frame (s : State) (c a p : Nat) : s.setPower c a p = { s with csr := (s.setPower c a p).csr } :=
  (State.foldl_wr_frame F.arrStatus_power p c _ s).2

theorem State.powerOnly_hold (s : State) (c a until_ : Nat) : s.PowerOnly (s.hold c a until_) := by
  unfold State.PowerOnly
  rw [State.hold_frame]

theorem State.powerOnly_setPower (s : State) (c a p : Nat) : s.PowerOnly (s.setPower c a p) := by
  unfold State.PowerOnly
  rw [State.setPower_frame]

theorem State.powerOnly_askRamp_unless (s : State) (r : RampReq) (p : Prop) [Decidable p] : s.PowerOnly (if p then s else s.askRamp r) := by
  unfold State.askRamp
  dsimp only
  split_ifs <;> rfl

theorem State.powerOnly_warmUp (s : State) (cls c mask until_ : Nat) : s.PowerOnly (s.warmUp cls c mask until_) := by
  have hheld : s.PowerOnly ((bitList 4 (s.inPower c mask 3)).foldl (fun u a => u.hold c a until_) s) :=
    List.foldlRecOn _ _ (motive := s.PowerOnly) rfl fun t ht a _ => ht.trans (t.powerOnly_hold c a until_)
  have hturned : s.PowerOnly ((bitList 4 (s.inPower c mask 4)).foldl (fun u a => u.setPower c a 1)
      ((bitList 4 (s.inPower c mask 3)).foldl (fun u a => u.hold c a until_) s)) :=
    List.foldlRecOn _ _ (motive := s.PowerOnly) hheld fun t ht a _ => ht.trans (t.powerOnly_setPower c a 1)
  exact (hturned.trans (State.powerOnly_askRamp_unless ..)).trans (State.powerOnly_askRamp_unless ..)

/-- The occurrence of a slot entry at an instant is noted as pre-warmed (R94). -/
def State.preWarmNoted (s : State) (m key t : Nat) : State :=
  s.setMould m { s.mould m with preWarmed := (key, t) :: (s.mould m).preWarmed.filter (·.1 ≠ key) }

/-- The pre-warm of a radio entry at an instant: the cluster's arrays hold on until its gang's holding window after it (R94). -/
def State.preWarmSent (s : State) (m c i t : Nat) : State :=
  let w := s.preWarmNoted m (slotKey c i) t
  w.warmUp 0 c 15 (w.clk.up + (t - w.clk.ns) + (w.gang m c).holdNs)

theorem exec_preWarm_radio {s : State} {dt m c i t : Nat} {e : SlotEntry} (h : s.live = true)
    (he : (s.pass dt).slotEntry m c i = some e) (hkind : e.kind = 1) (ht : t = (s.pass dt).nextInstant m e.offset)
    (hdue : t ≤ (s.pass dt).clk.ns + 10000) (hruns : (s.pass dt).tableRuns m t e.offset = true)
    (hnew : (s.mould m).preWarmed.contains (slotKey c i, t) = false) :
    exec (.preWarm dt m c i) s = .next ((s.pass dt).preWarmSent m c i t).settle := by
  have hskip : ((s.pass dt).clk.ns + 10000 < t || !(s.pass dt).tableRuns m t e.offset
      || ((s.pass dt).mould m).preWarmed.contains (slotKey c i, t)) = false := by
    rw [hruns, show ((s.pass dt).mould m).preWarmed.contains (slotKey c i, t) = false from hnew]
    simpa using hdue
  rw [exec_preWarm, execPreWarm, whenLive_live _ _ h]
  dsimp only
  rw [he]
  dsimp only
  rw [← ht, hskip, if_neg Bool.false_ne_true, if_pos hkind]
  rfl

theorem State.preWarmSent_spec (s : State) (m c i t : Nat) :
    ((s.preWarmSent m c i t).mould m).preWarmed.contains (slotKey c i, t) = true
      ∧ s.preWarmSent m c i t = { s with
          csr := (s.preWarmSent m c i t).csr, moulds := (s.preWarmSent m c i t).moulds
          fields := (s.preWarmSent m c i t).fields, clus := (s.preWarmSent m c i t).clus } := by
  have hnoted : ((s.preWarmNoted m (slotKey c i) t).mould m).preWarmed.contains (slotKey c i, t) = true := by
    unfold State.preWarmNoted
    rw [State.mould_setMould, if_pos rfl]
    simp
  have hframe : (s.preWarmNoted m (slotKey c i) t).PowerOnly (s.preWarmSent m c i t) := State.powerOnly_warmUp ..
  unfold State.PowerOnly at hframe
  constructor
  · rw [hframe]
    exact hnoted
  · rw [hframe]
    rfl

/-- A granted ramp takes a COLD array, and its gang, to RAMP_UP (R95). -/
def State.rampStarts (s : State) (r : RampReq) (a : Nat) : State :=
  if s.rd F.arrStatus_power r.cluster a = 0 then s.setPower r.cluster a 1 else s

/-- A ramp that ends leaves its arrays HOLDING (R92, R95). -/
def State.rampEnds (s : State) (r : RampReq) (a : Nat) : State :=
  if s.rd F.arrStatus_power r.cluster a = 1 then
    s.hold r.cluster a (if r.until_ = 0 then s.clk.up + s.gangHold r.cluster a else r.until_)
  else s

theorem State.rampStarts_frame (s : State) (r : RampReq) (a : Nat) :
    s.rampStarts r a = { s with csr := (s.rampStarts r a).csr } := by
  unfold State.rampStarts
  split
  · exact State.setPower_frame ..
  · rfl

theorem State.rampEnds_frame (s : State) (r : RampReq) (a : Nat) :
    s.rampEnds r a = { s with csr := (s.rampEnds r a).csr, clus := (s.rampEnds r a).clus } := by
  unfold State.rampEnds
  split
  · exact State.hold_frame ..
  · rfl

theorem State.foldl_rampStarts_frame (s : State) (r : RampReq) (as : List Nat) :
    as.foldl (fun u a => u.rampStarts r a) s = { s with csr := (as.foldl (fun u a => u.rampStarts r a) s).csr } := by
  induction as generalizing s with
  | nil => rfl
  | cons a as ih => rw [List.foldl_cons, ih, State.rampStarts_frame]

theorem State.foldl_rampEnds_frame (s : State) (r : RampReq) (as : List Nat) :
    as.foldl (fun u a => u.rampEnds r a) s = { s with
      csr := (as.foldl (fun u a => u.rampEnds r a) s).csr, clus := (as.foldl (fun u a => u.rampEnds r a) s).clus } := by
  induction as generalizing s with
  | nil => rfl
  | cons a as ih => rw [List.foldl_cons, ih, State.rampEnds_frame]

/-- The slope controller's queue of field f becomes l (R95). -/
def State.setRamps (s : State) (f : Nat) (l : List RampReq) : State := s.setField f { s.fieldSt f with ramps := l }

theorem State.ramps_setRamps (s : State) (f : Nat) (l : List RampReq) : ((s.setRamps f l).fieldSt f).ramps = l :=
  congrArg FieldSt.ramps ((State.fieldSt_setField ..).trans (if_pos rfl))

theorem exec_rampUpGrant_grants {s : State} {f : Nat} {r : RampReq} (h : s.live = true) (hnext : s.nextRamp f = some r) :
    ∃ u : State, exec (.rampUpGrant f false) s = .next u.settle
      ∧ (u.fieldSt f).ramps = (s.fieldSt f).ramps.map (fun q => if q = r then { q with granted := true } else q)
      ∧ u = { s with csr := u.csr, fields := u.fields } := by
  have hexec : exec (.rampUpGrant f false) s = .next (State.settle ((bitList 4 r.mask).foldl (fun u a => u.rampStarts r a)
      (s.setRamps f ((s.fieldSt f).ramps.map (fun q => if q = r then { q with granted := true } else q))))) := by
    rw [exec_rampUpGrant, execRampUpGrant, whenLive_live _ _ h]
    dsimp only
    rw [if_neg Bool.false_ne_true, hnext]
    rfl
  refine ⟨_, hexec, ?_⟩
  rw [State.foldl_rampStarts_frame]
  exact ⟨State.ramps_setRamps .., rfl⟩

theorem exec_rampUpGrant_ends {s : State} {f : Nat} {r : RampReq} (h : s.live = true)
    (hgranted : (s.fieldSt f).ramps.find? (·.granted) = some r) :
    ∃ u : State, exec (.rampUpGrant f true) s = .next u.settle ∧ (u.fieldSt f).ramps = (s.fieldSt f).ramps.erase r
      ∧ u = { s with csr := u.csr, fields := u.fields, clus := u.clus } := by
  have hexec : exec (.rampUpGrant f true) s = .next (State.settle ((bitList 4 r.mask).foldl (fun u a => u.rampEnds r a)
      (s.setRamps f ((s.fieldSt f).ramps.erase r)))) := by
    rw [exec_rampUpGrant, execRampUpGrant, whenLive_live _ _ h]
    dsimp only
    rw [if_pos rfl, hgranted]
    rfl
  refine ⟨_, hexec, ?_⟩
  rw [State.foldl_rampEnds_frame]
  exact ⟨State.ramps_setRamps .., rfl⟩

/-- The clock of domain d stops: its present bit clears and its lost bit sets (R100). -/
def State.clockStopped (s : State) (d : Nat) : State :=
  let s := s.wr F.clkStatus_present (setBit (s.rd F.clkStatus_present) (d - 1) false)
  s.wr F.clkLost_lost (setBit (s.rd F.clkLost_lost) (d - 1) true)

theorem monitored_range {d : Nat} (h : monitored d = true) : 0 < d ∧ d ≤ 18 := by
  unfold monitored at h
  simp only [Bool.or_eq_true, Bool.and_eq_true, beq_iff_eq, decide_eq_true_eq] at h
  omega

/-- A field whose bit k is set to b reads so there. -/
theorem State.bit_rd_wr_setBit (s : State) (f : Field) (x : Nat) {k : Nat} (b : Bool) (hfit : f.fits) (hk : k < f.width) :
    bit ((s.wr f (setBit x k b)).rd f) k = b := by
  rw [State.rd_wr_same _ _ _ _ _ hfit, bit_mod hk, bit_setBit_same]

theorem bit_setBit_ne (x : Nat) {k n : Nat} (b : Bool) (h : n ≠ k) : bit (setBit x k b) n = bit x n := by
  rw [bit_eq_bitsOf, bit_eq_bitsOf, setBit]
  rcases Nat.lt_or_gt_of_ne h with hlt | hgt
  · rw [bitsOf_setBits_below (by omega)]
  · rw [bitsOf_setBits_above (by omega)]

theorem State.clockStopped_spec (s : State) {d : Nat} (hlow : 0 < d) (hhigh : d ≤ 18) :
    (s.clockStopped d).clockOn d = false ∧ bit ((s.clockStopped d).rd F.clkLost_lost) (d - 1) = true
      ∧ RegsBut s (s.clockStopped d) [regAddr .clkStatus 0 0, regAddr .clkLost 0 0] := by
  have hlost := State.regsBut_wr (s.wr F.clkStatus_present (setBit (s.rd F.clkStatus_present) (d - 1) false)) F.clkLost_lost
    (setBit ((s.wr F.clkStatus_present (setBit (s.rd F.clkStatus_present) (d - 1) false)).rd F.clkLost_lost) (d - 1) true) 0 0
  refine ⟨?_, ?_, ?_⟩
  · exact (congrArg (bit · (d - 1)) (hlost.rd (by decide))).trans
      (State.bit_rd_wr_setBit s F.clkStatus_present _ false (by decide) (show d - 1 < 18 by omega))
  · exact State.bit_rd_wr_setBit _ F.clkLost_lost _ true (by decide) (show d - 1 < 18 by omega)
  · exact ((State.regsBut_wr s F.clkStatus_present _ 0 0).mono (by decide)).trans (hlost.mono (by decide))

theorem exec_clockLost_stops {s : State} {d : Nat} {pll : Bool} (h : s.live = true) (hmon : monitored d = true)
    (hpll : pll = true → hasPll d = true) (hon : s.clockOn d = true) (hsynce : d ≠ 14) (hroom : s.logRoom 1) :
    ∃ u : State, exec (.clockLost d pll) s = .next u.settle ∧ u.clockOn d = false ∧ bit (u.rd F.clkLost_lost) (d - 1) = true
      ∧ u.logHead = some ⟨s.clk.ns, 0x0C05, 0x00D0, 0xFF, 0, d + ofBool pll * 2 ^ 8⟩
      ∧ RegsBut s u [regAddr .clkStatus 0 0, regAddr .clkLost 0 0]
      ∧ u = { s with csr := u.csr, health := u.health, log := u.log } := by
  have hskip : (!monitored d || (pll && !hasPll d) || !s.clockOn d) = false := by
    rw [hmon, hon]
    cases pll
    · rfl
    · rw [hpll rfl]
      rfl
  have hexec : exec (.clockLost d pll) s
      = .next (((s.clockStopped d).count 12 255).logEvt 0x0C05 0x00D0 0xFF (d + ofBool pll * 2 ^ 8)).settle := by
    rw [exec_clockLost, execClockLost, whenLive_live _ _ h]
    dsimp only
    rw [hskip, if_neg Bool.false_ne_true, if_neg hsynce]
    rfl
  obtain ⟨hlow, hhigh⟩ := monitored_range hmon
  refine ⟨_, hexec, ?_⟩
  rw [State.logEvt_of_room (s := (s.clockStopped d).count 12 255) _ _ _ hroom]
  obtain ⟨hoff, hlost, hregs⟩ := State.clockStopped_spec s hlow hhigh
  exact ⟨hoff, hlost, rfl, hregs, rfl⟩

theorem exec_clockRestored_runs {s : State} {d : Nat} (h : s.live = true) (hmon : monitored d = true) :
    ∃ u : State, exec (.clockRestored d) s = .next u.settle ∧ u.clockOn d = true
      ∧ (∀ e, e ≠ d → 0 < e → e ≤ 18 → u.clockOn e = s.clockOn e) ∧ RegsBut s u [regAddr .clkStatus 0 0] ∧ u = { s with csr := u.csr } := by
  have hexec : exec (.clockRestored d) s
      = .next (s.wr F.clkStatus_present (setBit (s.rd F.clkStatus_present) (d - 1) true)).settle := by
    rw [exec_clockRestored, execClockRestored, whenLive_live _ _ h, if_pos hmon]
  obtain ⟨hlow, hhigh⟩ := monitored_range hmon
  refine ⟨_, hexec, State.bit_rd_wr_setBit s _ _ true (by decide) (show d - 1 < 18 by omega), fun e hne hpos hle => ?_,
    State.regsBut_wr s F.clkStatus_present _ 0 0, rfl⟩
  rw [State.clockOn, State.rd_wr_same _ _ _ _ _ (by decide), bit_mod (show e - 1 < F.clkStatus_present.width by change e - 1 < 18; omega),
    bit_setBit_ne _ _ (by omega), State.clockOn]

/-- Settles O11: each clause is the lemma on what its command does in that case. -/
theorem arrayPowerAndClocks : Obligations.ArrayPowerAndClocks :=
  ⟨fun _ _ _ _ => exec_holdingExpiry_due, fun _ _ _ => exec_rampDownComplete_due,
    fun s dt m c i _ h he hkind hdue hruns hnew =>
      ⟨_, exec_preWarm_radio h he hkind rfl hdue hruns hnew, State.preWarmSent_spec (s.pass dt) m c i _⟩,
    fun _ _ _ => exec_rampUpGrant_grants, fun _ _ _ => exec_rampUpGrant_ends, fun _ _ _ => exec_clockLost_stops,
    fun _ _ => exec_clockRestored_runs⟩

end Sys2Proof.Machine
end

section
/-! The ladle's queues and operation records, and the transfers that begin within the cluster or towards a far tier
(R167, R182, R284, R292, R354). -/
namespace Sys2Proof.Machine

/-- An operation record after one is replaced. -/
theorem State.rop_setRop (s : State) (i n : Nat) (o : ROp) : (s.setRop i o).rop n = if n = i then o else s.rop n := by
  simp [State.rop, State.setRop, Tab.get_set]

theorem State.rop_setRop_same (s : State) (i : Nat) (o : ROp) : (s.setRop i o).rop i = o :=
  (State.rop_setRop ..).trans (if_pos rfl)

theorem State.rop_setRop_ne (s : State) {i n : Nat} (o : ROp) (h : n ≠ i) : (s.setRop i o).rop n = s.rop n :=
  (State.rop_setRop ..).trans (if_neg h)

/-- A transfer queue after it is replaced. -/
theorem State.movs_setMovs_same (s : State) (c m x : Nat) (l : List MovSt) : (s.setMovs c m x l).movs c m x = l := by
  simp [State.movs, State.setMovs]

theorem State.tokens_setMovs (s : State) (c m x n : Nat) (l : List MovSt) : ((s.setMovs c m x l).clu n).tokens = (s.clu n).tokens := by
  unfold State.setMovs
  rw [State.clu_setClu]
  split
  · next h => rw [h]
  · rfl

/-- The transfer queue of a context with v marked as begun. -/
def State.begunMovs (s : State) (c m x : Nat) (v : MovSt) : List MovSt :=
  (s.movs c m x).map (fun y => if y.opId = v.opId then { v with begun := true } else y)

/-- A transfer that begins is marked in its queue and has its record; no other record changes. -/
theorem State.beganMov_spec (s : State) (c m x : Nat) (v : MovSt) (o : ROp) :
    (s.beganMov c m x v o).movs c m x = s.begunMovs c m x v
      ∧ (s.beganMov c m x v o).rop v.opId = o ∧ (∀ i, i ≠ v.opId → (s.beganMov c m x v o).rop i = s.rop i)
      ∧ s.beganMov c m x v o = { s with clus := (s.beganMov c m x v o).clus, fab := (s.beganMov c m x v o).fab } :=
  ⟨State.movs_setMovs_same .., State.rop_setRop_same .., fun _ hi => State.rop_setRop_ne _ o hi, rfl⟩

/-- A read that meets no error leaves the state (R280). -/
theorem State.placeErr_clean (s : State) (m : Nat) (p : Place) (word : Nat) : (s.placeErr m p 0 word).2 = s := by
  unfold State.placeErr
  dsimp only
  simp only [zero_ne_one, OfNat.zero_ne_ofNat, if_false]
  split_ifs <;> rfl

theorem State.placeErr_pass (s : State) (dt m : Nat) (p : Place) : ((s.pass dt).placeErr m p 0 0).1 = (s.placeErr m p 0 0).1 := by
  have hstate : ∀ ch, (s.pass dt).rd F.gddrCh_state ch = s.rd F.gddrCh_state ch := fun _ => rfl
  have hlink : ∀ k, (s.pass dt).flag F.cxlDev_linkUp k = s.flag F.cxlDev_linkUp k := fun _ => rfl
  unfold State.placeErr
  dsimp only
  simp only [hstate, hlink]
  split_ifs <;> rfl

/-- Whether an access can be reached does not depend on the time. -/
theorem State.access_pass (s : State) (dt m a n : Nat) : ((s.pass dt).access m a n 0 0).1 = (s.access m a n 0 0).1 := by
  have hpieces : (s.pass dt).pieces m a n = s.pieces m a n := rfl
  unfold State.access
  rw [hpieces]
  cases s.pieces m a n with
  | nil => rfl
  | cons p r =>
    dsimp only
    simp only [State.placeErr_clean, State.placeErr_pass]
    split_ifs <;> rfl

theorem State.setGranules_frame (s : State) (cxl : Bool) (k : Nat) (l : List Gran) :
    s.setGranules cxl k l = { s with tier := (s.setGranules cxl k l).tier } := by
  unfold State.setGranules
  dsimp only
  split <;> split <;> rfl

/-- Asking for granules touches only the tiers' queues (R284, R292). -/
theorem State.askGranules_frame (s : State) (who : GranWho) (write : Bool) (m far near n : Nat) :
    (s.askGranules who write m far near n).2 = { s with tier := (s.askGranules who write m far near n).2.tier } := by
  unfold State.askGranules
  dsimp only
  generalize granPieces _ _ _ = l
  refine List.foldlRecOn l _ (motive := fun t : State => t = { s with tier := t.tier }) rfl fun t ht e _ => ?_
  split
  · rw [State.setGranules_frame, ht]
  · exact ht

section
variable {s : State} {dt c m x : Nat} {v : MovSt}

/-- The next transfer of a context begins unless shedding holds it (R88). -/
theorem exec_ladleMovBegin_next (h : s.live = true) (hnext : (s.movs c m x).find? (fun y => !y.begun) = some v)
    (hfree : s.stageOf c < 2 ∨ s.isRadio m = true ∨ (s.clu c).streams.any (fun e => e.2.busy && e.2.run = v.run) = true) :
    exec (.ladleMovBegin dt c m x) s = .next (State.settle
      (if v.kind ≤ 2 then (s.pass dt).beginLocal c m x v
        else if v.kind ≤ 4 then (s.pass dt).beginRemote c m x v else (s.pass dt).beginKind5 c m x v)) := by
  have hnext' : ((s.pass dt).movs c m x).find? (fun y => !y.begun) = some v := hnext
  have hheld : (2 ≤ (s.pass dt).stageOf c && !(s.pass dt).isRadio m
      && !((s.pass dt).clu c).streams.any (fun e => e.2.busy && e.2.run = v.run)) = false := by
    rcases hfree with hstage | hradio | hruns
    · rw [decide_eq_false (show ¬ 2 ≤ (s.pass dt).stageOf c from Nat.not_le.mpr hstage), Bool.false_and, Bool.false_and]
    · rw [show (s.pass dt).isRadio m = true from hradio, Bool.not_true, Bool.and_false, Bool.false_and]
    · rw [show ((s.pass dt).clu c).streams.any (fun e => e.2.busy && e.2.run = v.run) = true from hruns, Bool.not_true, Bool.and_false]
  rw [exec_ladleMovBegin, execLadleMovBegin, whenLive_live _ _ h]
  dsimp only
  rw [hnext']
  dsimp only
  rw [hheld, if_neg Bool.false_ne_true]

theorem exec_ladleMovBegin_within (h : s.live = true) (hnext : (s.movs c m x).find? (fun y => !y.begun) = some v)
    (hfree : s.stageOf c < 2 ∨ s.isRadio m = true ∨ (s.clu c).streams.any (fun e => e.2.busy && e.2.run = v.run) = true)
    (hkind : v.kind = 0) :
    ∃ u : State, exec (.ladleMovBegin dt c m x) s = .next u.settle ∧ u.movs c m x = s.begunMovs c m x v
      ∧ u.rop v.opId = { v.rop c m x (s.clk.up + dt) with near := v.src % 2 ^ 48, far := v.dst % 2 ^ 48, got := true }
      ∧ (∀ i, i ≠ v.opId → u.rop i = s.rop i) ∧ u = { s.pass dt with clus := u.clus, fab := u.fab } := by
  have hlocal : (s.pass dt).beginLocal c m x v = (s.pass dt).beganMov c m x v
      { v.rop c m x (s.clk.up + dt) with near := v.src % 2 ^ 48, far := v.dst % 2 ^ 48, got := true } := by
    unfold State.beginLocal
    simp only [hkind]
    rfl
  refine ⟨_, exec_ladleMovBegin_next h hnext hfree, ?_⟩
  rw [if_pos (by omega), hlocal]
  exact State.beganMov_spec ..

theorem exec_ladleMovBegin_far {far near : Nat} (h : s.live = true) (hnext : (s.movs c m x).find? (fun y => !y.begun) = some v)
    (hfree : s.stageOf c < 2 ∨ s.isRadio m = true ∨ (s.clu c).streams.any (fun e => e.2.busy && e.2.run = v.run) = true)
    (hkind : v.kind = 1 ∨ v.kind = 2) (hfar : far = (if v.kind = 2 then v.src else v.dst) % 2 ^ 48)
    (hnear : near = (if v.kind = 2 then v.dst else v.src) % 2 ^ 48) (hreach : (s.access m far v.len 0 0).1 = 0) :
    ∃ u : State, exec (.ladleMovBegin dt c m x) s = .next u.settle ∧ u.movs c m x = s.begunMovs c m x v
      ∧ (u.rop v.opId).sent = ((s.pass dt).askGranules (.ladle c m x v.opId) (v.kind == 1) m far near v.len).1
      ∧ u.tier = ((s.pass dt).askGranules (.ladle c m x v.opId) (v.kind == 1) m far near v.len).2.tier
      ∧ (∀ i, i ≠ v.opId → u.rop i = s.rop i) ∧ u = { s.pass dt with clus := u.clus, tier := u.tier, fab := u.fab } := by
  have hcode : ((s.pass dt).access m far v.len 0 0).1 = 0 := (State.access_pass ..).trans hreach
  have hfar' : (if v.kind = 2 then v.src % 2 ^ 48 else v.dst % 2 ^ 48) = far := by
    rw [hfar]
    split <;> rfl
  have hnear' : (if v.kind = 2 then v.dst % 2 ^ 48 else v.src % 2 ^ 48) = near := by
    rw [hnear]
    split <;> rfl
  refine ⟨_, exec_ladleMovBegin_next h hnext hfree, ?_⟩
  rw [if_pos (by omega), State.beginLocal]
  dsimp only
  rw [if_neg (by omega), hfar', hnear', if_neg (by rw [hcode]; decide)]
  have hframe := State.askGranules_frame (s.pass dt) (.ladle c m x v.opId) (v.kind == 1) m far near v.len
  generalize (s.pass dt).askGranules (.ladle c m x v.opId) (v.kind == 1) m far near v.len = asked at *
  obtain ⟨n, w⟩ := asked
  dsimp only at hframe ⊢
  obtain ⟨hmovs, hrop, hothers, hbegan⟩ := State.beganMov_spec w c m x v
    { v.rop c m x (s.pass dt).clk.up with near := near, far := far, sent := n, got := n == 0 }
  have hsame : w.movs c m x = s.movs c m x ∧ ∀ i, w.rop i = s.rop i := by
    rw [hframe]
    exact ⟨rfl, fun _ => rfl⟩
  refine ⟨hmovs.trans (congrArg (List.map _) hsame.1), congrArg ROp.sent hrop, rfl,
    fun i hi => (hothers i hi).trans (hsame.2 i), hbegan.trans ?_⟩
  rw [hframe]
  rfl

end

end Sys2Proof.Machine
end

section
/-! The ladle completes transfers, and fails a collective one whose group stays in SETUP (R167, R268, R334, R336, R354). -/
namespace Sys2Proof.Machine

theorem exec_collMovSetupTimeout_due {s : State} {dt c m x g : Nat} {v : MovSt} (h : s.live = true)
    (hnext : (s.movs c m x).find? (fun y => !y.begun) = some v) (hgroup : s.grpOf (v.dst % 65536) = some g) (hkind : v.kind = 5)
    (hsetup : s.rd F.collG_state g = 1) (hbegan : v.beganAt ≠ 0)
    (hdue : v.beganAt + 1000 * (s.grpEnt g).timeoutUs ≤ s.clk.up + dt + 1) :
    ∃ u : State, exec (.collMovSetupTimeout dt c m x) s = .next u.settle ∧ u.movs c m x = s.begunMovs c m x v
      ∧ u.rop v.opId = { v.rop c m x (s.clk.up + dt) with got := true, fail := E.collSetupTimeout }
      ∧ (∀ i, i ≠ v.opId → u.rop i = s.rop i) ∧ u = { s.pass dt with clus := u.clus, fab := u.fab } := by
  have hnext' : ((s.pass dt).movs c m x).find? (fun y => !y.begun) = some v := hnext
  have hgroup' : (s.pass dt).grpOf (v.dst % 65536) = some g := hgroup
  have hcond : (v.kind = 5 && (s.pass dt).rd F.collG_state g = 1 && v.beganAt ≠ 0
      && v.beganAt + 1000 * ((s.pass dt).grpEnt g).timeoutUs ≤ (s.pass dt).clk.up + 1) = true := by
    simp only [Bool.and_eq_true, decide_eq_true_eq]
    exact ⟨⟨⟨hkind, hsetup⟩, hbegan⟩, hdue⟩
  have hexec : exec (.collMovSetupTimeout dt c m x) s = .next ((s.pass dt).beganMov c m x v
      { v.rop c m x (s.clk.up + dt) with got := true, fail := E.collSetupTimeout }).settle := by
    rw [exec_collMovSetupTimeout, execCollMovSetupTimeout, whenLive_live _ _ h]
    dsimp only
    rw [hnext']
    dsimp only
    rw [hgroup']
    dsimp only
    rw [if_pos hcond]
    rfl
  exact ⟨_, hexec, State.beganMov_spec ..⟩

theorem State.setRaw_clus (s : State) (space key : Nat) (b : Byte) : (s.setRaw space key b).clus = s.clus := by
  unfold State.setRaw
  split_ifs <;> rfl

theorem State.retag_clus (s : State) (p : Place) (tag : Nat) : (s.retag p tag).clus = s.clus := by
  unfold State.retag
  split
  · rfl
  · dsimp only
    generalize List.zipIdx _ = l
    exact List.foldlRecOn l _ (motive := fun t : State => t.clus = s.clus) rfl fun t ht e _ => (t.setRaw_clus ..).trans ht

theorem State.setByteAt_clus (s : State) (m a : Nat) (b : Byte) : (s.setByteAt m a b).clus = s.clus := by
  unfold State.setByteAt
  split
  · rw [State.setRaw_clus]
    split
    · rfl
    · exact State.retag_clus ..
  · rfl

/-- Writing memory leaves the clusters' own parts. -/
theorem State.writeMem_clus (s : State) (m a : Nat) (bs : Bytes) : (s.writeMem m a bs).clus = s.clus :=
  List.foldlRecOn bs.zipIdx _ (motive := fun t : State => t.clus = s.clus) rfl fun t ht _ _ => (t.setByteAt_clus ..).trans ht

theorem State.bumpAt_clus (s : State) (m a : Nat) : (s.bumpAt m a).clus = s.clus := by
  unfold State.bumpAt
  split
  · split <;> rfl
  · rfl

theorem State.placeErr_clus (s : State) (m : Nat) (p : Place) (ecc word : Nat) : (s.placeErr m p ecc word).2.clus = s.clus := by
  unfold State.placeErr State.sramEcc State.gddrCe State.gddrUe State.cxlPoison
  dsimp only
  split_ifs <;> simp

theorem State.access_clus (s : State) (m a n ecc word : Nat) : (s.access m a n ecc word).2.clus = s.clus := by
  unfold State.access
  split
  · rfl
  · dsimp only
    split <;> exact State.placeErr_clus s m _ ecc word

/-- The done token of a transfer is posted where it has one (R182). -/
def State.donePosted (s : State) (c m x : Nat) (o : ROp) : State := if o.doneEn then s.post c m x o.doneTok 1 else s

/-- A transfer leaves its queue, and its record is free. -/
def State.movRemoved (s : State) (c m x id : Nat) : State :=
  (s.setMovs c m x ((s.movs c m x).filter (fun y => y.opId ≠ id))).setRop id ROp.init

theorem State.movs_movRemoved (s : State) (c m x id : Nat) :
    (s.movRemoved c m x id).movs c m x = (s.movs c m x).filter (fun y => y.opId ≠ id) := State.movs_setMovs_same ..

theorem State.rop_movRemoved (s : State) (c m x id : Nat) : (s.movRemoved c m x id).rop id = ROp.init := State.rop_setRop_same ..

theorem State.tokens_movRemoved (s : State) (c m x id : Nat) : ((s.movRemoved c m x id).clu c).tokens = (s.clu c).tokens :=
  State.tokens_setMovs ..

theorem State.tok_movRemoved (s : State) (c m x id t : Nat) : (s.movRemoved c m x id).tok c m x t = s.tok c m x t :=
  congrArg (fun l => Tab.get 0 l (tokKey m x t)) (State.tokens_movRemoved ..)

theorem State.movRemoved_frame (s : State) (c m x id : Nat) :
    s.movRemoved c m x id = { s with clus := (s.movRemoved c m x id).clus, fab := (s.movRemoved c m x id).fab } := rfl

theorem State.movs_setTok (s : State) (c m x t v : Nat) : (s.setTok c m x t v).movs c m x = s.movs c m x := by
  simp [State.movs, State.setTok]

/-- Below its limit a done token rises by one where the transfer has one; nothing else changes. -/
theorem State.donePosted_spec (s : State) {c m x : Nat} {o : ROp} (h : o.doneEn = true → s.tok c m x o.doneTok < 65535) :
    (s.donePosted c m x o).tok c m x o.doneTok = s.tok c m x o.doneTok + ofBool o.doneEn
      ∧ (s.donePosted c m x o).movs c m x = s.movs c m x ∧ s.donePosted c m x o = { s with clus := (s.donePosted c m x o).clus } := by
  unfold State.donePosted
  cases hen : o.doneEn with
  | false => exact ⟨rfl, rfl, rfl⟩
  | true =>
    have hpost : s.post c m x o.doneTok 1 = s.setTok c m x o.doneTok (s.tok c m x o.doneTok + 1) := by
      unfold State.post
      exact if_neg (by have := h hen; omega)
    rw [if_pos rfl, hpost]
    exact ⟨State.tok_setTok_same .., State.movs_setTok .., rfl⟩

section
variable {s : State} {c m x ecc word : Nat} {v : MovSt} {o : ROp}

theorem exec_movComplete_slag (h : s.live = true) (hended : (s.movs c m x).find? (fun y => y.begun && (s.rop y.opId).got) = some v)
    (ho : o = s.rop v.opId) (hbusy : o.busy ≠ 2) (hslag : s.isSlag m x o.heat o.quenches = true) :
    exec (.movComplete c m x ecc word) s = .next ((s.countSlag m).movRemoved c m x v.opId).settle := by
  rw [exec_movComplete, execMovComplete, whenLive_live _ _ h]
  dsimp only
  rw [hended]
  dsimp only
  rw [← ho, hslag]
  simp only [hbusy, Bool.or_true, Bool.not_true, Bool.and_false, Bool.false_and, Bool.false_eq_true, if_false, decide_false,
    Bool.not_false]
  rfl

theorem exec_movComplete_slag_counts (h : s.live = true)
    (hended : (s.movs c m x).find? (fun y => y.begun && (s.rop y.opId).got) = some v)
    (ho : o = s.rop v.opId) (hbusy : o.busy ≠ 2) (hslag : s.isSlag m x o.heat o.quenches = true) :
    ∃ u : State, exec (.movComplete c m x ecc word) s = .next u.settle ∧ u.movs c m x = (s.movs c m x).filter (fun y => y.opId ≠ v.opId)
      ∧ u.rop v.opId = ROp.init
      ∧ u.rd F.slagCount_count m = satAdd 32 (s.rd F.slagCount_count m) 1 ∧ (u.clu c).tokens = (s.clu c).tokens
      ∧ RegsBut s u [regAddr .slagCount m 0] ∧ u = { s with csr := u.csr, clus := u.clus, fab := u.fab } :=
  ⟨_, exec_movComplete_slag h hended ho hbusy hslag, State.movs_movRemoved .., State.rop_movRemoved ..,
    State.rd_cnt_same s F.slagCount_count m 0 1 (by decide), State.tokens_movRemoved ..,
    State.regsBut_cnt s F.slagCount_count m 0 1, rfl⟩

theorem exec_movComplete_sram {q : State} (h : s.live = true)
    (hended : (s.movs c m x).find? (fun y => y.begun && (s.rop y.opId).got) = some v) (ho : o = s.rop v.opId) (hkind : o.kind = 0)
    (hbusy : o.busy ≠ 2) (hslag : s.isSlag m x o.heat o.quenches = false) (hread : s.access m o.near o.len ecc word = (0, q)) :
    exec (.movComplete c m x ecc word) s = .next (((((q.writeMem m o.far (q.readMem m o.near o.len)).bumpAt m o.far).donePosted c m x o).movRemoved
      c m x v.opId)).settle := by
  have hcopy : s.copyMov m o ecc word = (0, q.writeMem m o.far (q.readMem m o.near o.len)) := by
    unfold State.copyMov
    rw [hread]
    rfl
  rw [exec_movComplete, execMovComplete, whenLive_live _ _ h]
  dsimp only
  rw [hended]
  dsimp only
  rw [← ho, hslag, hkind, hcopy]
  simp only [hbusy, decide_false, Bool.or_self, Bool.not_false, Bool.and_true, decide_true, if_true, Bool.false_and, Bool.false_eq_true, if_false]
  rfl

theorem exec_movComplete_remote (h : s.live = true)
    (hended : (s.movs c m x).find? (fun y => y.begun && (s.rop y.opId).got) = some v) (ho : o = s.rop v.opId)
    (hkind : o.kind = 3 ∨ o.kind = 4) (hbusy : o.busy ≠ 2) (hslag : s.isSlag m x o.heat o.quenches = false) :
    exec (.movComplete c m x ecc word) s = .next (((s.countMov o false).donePosted c m x o).movRemoved c m x v.opId).settle := by
  rw [exec_movComplete, execMovComplete, whenLive_live _ _ h]
  dsimp only
  rw [hended]
  dsimp only
  rw [← ho, hslag]
  have hsram : o.kind ≠ 0 := by omega
  have hout : o.kind ≠ 1 := by omega
  have hfar : ¬ o.kind ≤ 2 := by omega
  simp only [hbusy, hsram, hout, hfar, decide_false, Bool.or_self, Bool.false_and, Bool.false_eq_true, if_false, Bool.not_false,
    Bool.and_true]
  rfl

/-- A transfer within SRAM has moved its bytes and raised the version of their region (R336). -/
theorem exec_movComplete_moves {q : State} (h : s.live = true)
    (hended : (s.movs c m x).find? (fun y => y.begun && (s.rop y.opId).got) = some v) (ho : o = s.rop v.opId) (hkind : o.kind = 0)
    (hbusy : o.busy ≠ 2) (hslag : s.isSlag m x o.heat o.quenches = false) (hread : s.access m o.near o.len ecc word = (0, q))
    (htok : o.doneEn = true → s.tok c m x o.doneTok < 65535) :
    ∃ u : State, exec (.movComplete c m x ecc word) s = .next u.settle ∧ u.movs c m x = (s.movs c m x).filter (fun y => y.opId ≠ v.opId)
      ∧ u.rop v.opId = ROp.init
      ∧ u.tok c m x o.doneTok = s.tok c m x o.doneTok + ofBool o.doneEn
      ∧ u = { (q.writeMem m o.far (q.readMem m o.near o.len)).bumpAt m o.far with clus := u.clus, fab := u.fab } := by
  refine ⟨_, exec_movComplete_sram h hended ho hkind hbusy hslag hread, ?_⟩
  have hclus : ((q.writeMem m o.far (q.readMem m o.near o.len)).bumpAt m o.far).clus = s.clus := by
    rw [State.bumpAt_clus, State.writeMem_clus, ← State.access_clus s m o.near o.len ecc word, hread]
  generalize (q.writeMem m o.far (q.readMem m o.near o.len)).bumpAt m o.far = w at *
  have hsame : w.movs c m x = s.movs c m x ∧ ∀ t, w.tok c m x t = s.tok c m x t := by
    unfold State.movs State.tok State.clu
    rw [hclus]
    exact ⟨rfl, fun _ => rfl⟩
  obtain ⟨hmovs, htoks⟩ := hsame
  obtain ⟨hpost, hkeep, hframe⟩ := State.donePosted_spec w (c := c) (m := m) (x := x) (o := o) (by rwa [htoks])
  refine ⟨?_, State.rop_movRemoved .., ?_, ?_⟩
  · rw [State.movs_movRemoved, hkeep, hmovs]
  · rw [State.tok_movRemoved, hpost, htoks]
  · rw [State.movRemoved_frame, hframe]

/-- The outcome of a put or get stands in MOV_OUT of its context (R334). -/
theorem State.countMov_spec (s : State) (hkind : o.kind = 3 ∨ o.kind = 4) (hm : o.mould = m) (hx : o.ctx = x) :
    (o.fail = 0 → (s.countMov o false).rd F.movOut_ok m x = satAdd 32 (s.rd F.movOut_ok m x) 1)
      ∧ (o.fail ≠ 0 → (s.countMov o false).rd F.movOut_failed m x = satAdd 16 (s.rd F.movOut_failed m x) 1
        ∧ (s.countMov o false).rd F.movOut_lastCode m x = o.fail % 2 ^ 16)
      ∧ RegsBut s (s.countMov o false) [regAddr .movOut m x] ∧ s.countMov o false = { s with csr := (s.countMov o false).csr } := by
  have hremote : (false || (o.kind ≠ 3 && o.kind ≠ 4)) = false := by
    rcases hkind with hkind | hkind <;> rw [hkind] <;> rfl
  unfold State.countMov
  rw [hremote, hm, hx, if_neg Bool.false_ne_true]
  by_cases hfail : o.fail = 0
  · rw [if_pos hfail]
    exact ⟨fun _ => State.rd_cnt_same s _ _ _ _ (by decide), fun hne => absurd hfail hne, State.regsBut_cnt s F.movOut_ok m x 1, rfl⟩
  · rw [if_neg hfail]
    refine ⟨fun h0 => absurd h0 hfail, fun _ => ⟨?_, State.rd_wr_same _ _ _ _ _ (by decide)⟩,
      (State.regsBut_cnt s F.movOut_failed m x 1).trans (State.regsBut_wr _ F.movOut_lastCode _ m x), rfl⟩
    rw [State.rd_wr_beside _ _ _ _ (by rfl) (by decide) (by decide)]
    exact State.rd_cnt_same s _ _ _ _ (by decide)

theorem exec_movComplete_answers (h : s.live = true)
    (hended : (s.movs c m x).find? (fun y => y.begun && (s.rop y.opId).got) = some v) (ho : o = s.rop v.opId)
    (hkind : o.kind = 3 ∨ o.kind = 4) (hbusy : o.busy ≠ 2) (hm : o.mould = m) (hx : o.ctx = x)
    (hslag : s.isSlag m x o.heat o.quenches = false) (htok : o.doneEn = true → s.tok c m x o.doneTok < 65535) :
    ∃ u : State, exec (.movComplete c m x ecc word) s = .next u.settle ∧ u.movs c m x = (s.movs c m x).filter (fun y => y.opId ≠ v.opId)
      ∧ u.rop v.opId = ROp.init
      ∧ u.tok c m x o.doneTok = s.tok c m x o.doneTok + ofBool o.doneEn
      ∧ (o.fail = 0 → u.rd F.movOut_ok m x = satAdd 32 (s.rd F.movOut_ok m x) 1)
      ∧ (o.fail ≠ 0 → u.rd F.movOut_failed m x = satAdd 16 (s.rd F.movOut_failed m x) 1 ∧ u.rd F.movOut_lastCode m x = o.fail % 2 ^ 16)
      ∧ RegsBut s u [regAddr .movOut m x] ∧ u = { s with csr := u.csr, clus := u.clus, fab := u.fab } := by
  refine ⟨_, exec_movComplete_remote h hended ho hkind hbusy hslag, ?_⟩
  obtain ⟨hok, hfailed, hregs, hcounted⟩ := State.countMov_spec s hkind hm hx
  generalize s.countMov o false = w at *
  have hsame : w.movs c m x = s.movs c m x ∧ ∀ t, w.tok c m x t = s.tok c m x t := by
    rw [hcounted]
    exact ⟨rfl, fun _ => rfl⟩
  obtain ⟨hmovs, htoks⟩ := hsame
  obtain ⟨hpost, hkeep, hframe⟩ := State.donePosted_spec w (c := c) (m := m) (x := x) (o := o) (by rwa [htoks])
  generalize w.donePosted c m x o = y at *
  have hcsr : (y.movRemoved c m x v.opId).csr = w.csr := by
    rw [hframe]
    rfl
  have hrd : ∀ f i j, (y.movRemoved c m x v.opId).rd f i j = w.rd f i j := by
    intro f i j
    unfold State.rd State.reg
    rw [hcsr]
  refine ⟨?_, State.rop_movRemoved .., ?_, ?_, ?_, ?_, ?_⟩
  · rw [State.movs_movRemoved, hkeep, hmovs]
  · rw [State.tok_movRemoved, hpost, htoks]
  · rwa [hrd]
  · rwa [hrd, hrd]
  · unfold RegsBut
    rwa [hcsr]
  · rw [State.movRemoved_frame, hframe, hcounted]

end

end Sys2Proof.Machine
end

section
/-! Puts and gets that begin: the request slot, and what sending their frames leaves unchanged (R321 to R333, R310). -/
namespace Sys2Proof.Machine

/-- An event with a free detail touches only the log, LOG_STATUS and the free values. -/
theorem State.logFree_frame (s : State) (code source m : Nat) :
    s.logFree code source m
      = { s with csr := (s.logFree code source m).csr, free := s.free + 1, log := (s.logFree code source m).log } := by
  unfold State.logFree
  rw [State.logEvt_frame]

theorem State.regsBut_logFree (s : State) (code source m : Nat) : RegsBut s (s.logFree code source m) [regAddr .logStatus 0 0] :=
  fun _ ha => State.logFree_find s code source m (List.ne_of_not_mem_cons ha)

/-- The record of an operation after it sent a frame under a sequence (R321). -/
def ROp.sentUnder (o : ROp) (seq now : Nat) : ROp :=
  let o := { o with left := o.left ++ [seq] }
  if o.sends = 0 then { o with first := seq, firstAt := now, sends := 1 } else o

/-- A write's last sequence stands in its stream, and the fences that cover it follow (R338). -/
def State.writeNoted (s : State) (o : ROp) (id k seq : Nat) : State :=
  if o.kind == 3 || o.kind == 6 || o.kind == 7 || o.kind == 9 then
    (s.setTx k { s.txS k with lastW := Tab.set 0 (s.txS k).lastW o.ctx (seq + 1) }).raiseFences id o.dev seq
  else s

/-- Two records of one remote operation: kind, destination and length agree. -/
def ROp.SameTarget (o p : ROp) : Prop := p.kind = o.kind ∧ p.dev = o.dev ∧ p.far = o.far ∧ p.len = o.len

/-- t is s after frames of operation id were sent: the queues of the ladle, what the operation is, and every register but FAB_STAT2 and
LOG_STATUS stay. -/
structure State.Sends (id : Nat) (s t : State) : Prop where
  frame : t = { s with csr := t.csr, clus := t.clus, fab := t.fab, egr := t.egr, log := t.log, free := t.free }
  regs : RegsBut s t [regAddr .fabStat2 0 0, regAddr .logStatus 0 0]
  ladle : ∀ c, (t.clu c).ladle = (s.clu c).ladle
  op : (s.rop id).SameTarget (t.rop id)

theorem ROp.SameTarget.refl (o : ROp) : o.SameTarget o := ⟨rfl, rfl, rfl, rfl⟩

theorem ROp.SameTarget.trans {o p q : ROp} (h : o.SameTarget p) (k : p.SameTarget q) : o.SameTarget q := by
  obtain ⟨hkind, hdev, hfar, hlen⟩ := h
  obtain ⟨kkind, kdev, kfar, klen⟩ := k
  exact ⟨kkind.trans hkind, kdev.trans hdev, kfar.trans hfar, klen.trans hlen⟩

theorem ROp.sameTarget_sentUnder (o : ROp) (seq now : Nat) : o.SameTarget (o.sentUnder seq now) := by
  unfold ROp.sentUnder
  dsimp only
  split <;> exact ⟨rfl, rfl, rfl, rfl⟩

/-- A class-0 frame goes out in four steps: its stream, its record, the fences, its route (R321, R338, R310). -/
theorem State.sendReq_eq (s : State) (id op flags : Nat) (pay : Bytes) :
    ∃ (k : Nat) (v : TxStream) (o : ROp) (seq : Nat) (f : Bytes), (s.rop id).SameTarget o
      ∧ s.sendReq id op flags pay = (((s.setTx k v).setRop id o).writeNoted o id k seq).dispatchFrame f 12 o.ctx :=
  ⟨_, _, (s.rop id).sentUnder _ _, _, _, ROp.sameTarget_sentUnder .., rfl⟩

namespace State.Sends

theorem refl (id : Nat) (s : State) : s.Sends id s := ⟨rfl, RegsBut.refl s _, fun _ => rfl, ROp.SameTarget.refl _⟩

theorem trans {id : Nat} {s t u : State} (h : s.Sends id t) (k : t.Sends id u) : s.Sends id u :=
  ⟨k.frame.trans (by rw [h.frame]), h.regs.trans k.regs, fun c => (k.ladle c).trans (h.ladle c), h.op.trans k.op⟩

/-- A step that touches neither clusters nor operation records. -/
theorem of_frame {id : Nat} {s t : State} (hframe : t = { s with csr := t.csr, fab := t.fab, egr := t.egr, log := t.log, free := t.free })
    (hregs : RegsBut s t [regAddr .fabStat2 0 0, regAddr .logStatus 0 0]) (hops : t.fab.ops = s.fab.ops) : s.Sends id t := by
  have hclus : t.clus = s.clus := by rw [hframe]
  refine ⟨hframe.trans (by rw [hclus]), hregs, fun c => ?_, ?_⟩
  · rw [State.clu, State.clu, hclus]
  · rw [State.rop, State.rop, hops]
    exact ROp.SameTarget.refl _

theorem setTx (id : Nat) (s : State) (k : Nat) (v : TxStream) : s.Sends id (s.setTx k v) := of_frame rfl (RegsBut.refl s _) rfl

theorem setRop {id : Nat} {s : State} {o : ROp} (h : (s.rop id).SameTarget o) : s.Sends id (s.setRop id o) :=
  ⟨rfl, RegsBut.refl s _, fun _ => rfl, by rwa [State.rop_setRop_same]⟩

theorem setThread (id : Nat) (s : State) (c t : Nat) (v : ThreadSt) : s.Sends id (s.setThread c t v) := by
  refine ⟨rfl, RegsBut.refl s _, fun n => ?_, ROp.SameTarget.refl _⟩
  unfold State.setThread
  rw [State.clu_setClu]
  split
  · next h => rw [h]
  · rfl

theorem raiseFences (id : Nat) (s : State) (i dev seq : Nat) : s.Sends id (s.raiseFences i dev seq) := by
  unfold State.raiseFences
  refine List.foldlRecOn s.clus _ (motive := s.Sends id) (refl id s) fun t ht p _ => ht.trans ?_
  refine List.foldlRecOn p.2.threads _ (motive := t.Sends id) (refl id t) fun u hu e _ => hu.trans ?_
  dsimp only
  split
  · exact setThread ..
  · exact refl id u

theorem noteDetour (id : Nat) (s : State) (dst : Nat) (detour : Bool) : s.Sends id (s.noteDetour dst detour) := by
  have hcount : s.Sends id (s.cnt F.fabStat2_rerouted) :=
    of_frame rfl ((State.regsBut_cnt s F.fabStat2_rerouted 0 0 1).mono (by decide)) rfl
  unfold State.noteDetour
  split
  · dsimp only
    split
    · exact hcount
    · refine hcount.trans (of_frame ?_ ((State.regsBut_logFree _ _ _ _).mono (by decide)) ?_)
      · rw [State.logFree_frame]
      · rw [State.logFree_frame]
  · exact of_frame rfl (RegsBut.refl s _) rfl

theorem dispatchFrame (id : Nat) (s : State) (f : Bytes) (ctx : Nat) : s.Sends id (s.dispatchFrame f 12 ctx) := by
  unfold State.dispatchFrame
  split
  · exact of_frame rfl (RegsBut.refl s _) rfl
  · exact of_frame rfl ((State.regsBut_cnt s F.fabStat2_unreachable 0 0 1).mono (by decide)) rfl
  · exact (noteDetour id s _ _).trans (of_frame rfl (RegsBut.refl _ _) rfl)

theorem writeNoted (id : Nat) (s : State) (o : ROp) (i k seq : Nat) : s.Sends id (s.writeNoted o i k seq) := by
  unfold State.writeNoted
  split
  · exact (setTx ..).trans (raiseFences ..)
  · exact refl id s

theorem sendReq (s : State) (id op flags : Nat) (pay : Bytes) : s.Sends id (s.sendReq id op flags pay) := by
  obtain ⟨k, v, o, seq, f, hsame, hsend⟩ := State.sendReq_eq s id op flags pay
  rw [hsend]
  exact (((setTx id s k v).trans (setRop hsame)).trans (writeNoted ..)).trans (dispatchFrame ..)

/-- Each round of a put sends a frame and counts its bytes; fuel bounds the rounds (R323, R333). -/
theorem feedPut (n : Nat) (s : State) (id : Nat) : s.Sends id (s.feedPut n id) := by
  induction n generalizing s with
  | zero => exact refl id s
  | succ n ih =>
    unfold State.feedPut
    dsimp only
    split
    · exact refl id s
    · refine State.Sends.trans ?_ (ih _)
      exact (sendReq s id _ _ _).trans (setRop ⟨rfl, rfl, rfl, rfl⟩)

end State.Sends

theorem leNat_lt (bs : Bytes) : leNat bs < 256 ^ bs.length := by
  induction bs with
  | nil => decide
  | cons b bs ih =>
    have hb : b.toNat < 256 := b.isLt
    rw [leNat, List.length_cons, pow_succ]
    omega

theorem leAt_lt (bs : Bytes) (off n : Nat) : leAt bs off n < 256 ^ n := by
  have hlen : (slice bs off n).length = n := by simp [slice]
  have hlt := leNat_lt (slice bs off n)
  rwa [hlen] at hlt

/-- An envelope gives a mould at most 65,535 request slots (R46). -/
theorem State.slots_lt (s : State) (m : Nat) : (s.envelope m).slots < 2 ^ 16 := by
  unfold State.envelope
  cases hfind : s.envelopes.find? (fun e => e.mould = m && e.kind ≠ 0) with
  | none => exact Nat.two_pow_pos 16
  | some e =>
    obtain ⟨bs, -, rfl⟩ := List.mem_map.mp (List.mem_of_find?_eq_some hfind)
    exact leAt_lt bs 4 2

theorem regAddr_fabSlots (m : Nat) : regAddr .fabSlots m 0 = 0x800028 + 0x4000 * m := rfl

/-- A slot that is free is taken: FAB_SLOTS counts it (R332). -/
theorem State.takeSlot_spec {s : State} {m : Nat} (h : s.slotFree m = true) :
    (s.takeSlot m).rd F.fabSlots_used m = s.rd F.fabSlots_used m + 1 ∧ s.takeSlot m = { s with csr := (s.takeSlot m).csr } := by
  have hused : s.rd F.fabSlots_used m + 1 < 2 ^ 16 := by
    have hfree : s.rd F.fabSlots_used m < (s.envelope m).slots := of_decide_eq_true h
    have := s.slots_lt m
    omega
  refine ⟨?_, rfl⟩
  unfold State.takeSlot
  dsimp only
  rw [State.rd_wr_beside _ _ _ _ (by rfl) (by decide) (by decide), State.rd_wr_same _ _ _ _ _ (by decide)]
  exact Nat.mod_eq_of_lt hused

/-- The record of a put or get at its begin: a is the address at the other device (R330). -/
def MovSt.remoteRop (v : MovSt) (c m x now a : Nat) : ROp :=
  { v.rop c m x now with dev := a / 2 ^ 54, far := a % 2 ^ 48, near := (if v.kind = 3 then v.src else v.dst) % 2 ^ 48 }

/-- A put or get whose checks pass takes a slot and sends (R332, R333). -/
theorem State.beginRemote_sends {s : State} {c m x a : Nat} {v : MovSt} (ha : a = (if v.kind = 3 then v.dst else v.src))
    (hcheck : s.remoteCheck m a 64 = 0) (hslot : s.slotFree m = true) (hwindow : s.windowOpen (a / 2 ^ 54) m = true) :
    ((s.takeSlot m).beganMov c m x v (v.remoteRop c m x s.clk.up a)).Sends v.opId (s.beginRemote c m x v) := by
  have hside : ∀ p q : Nat, (if (v.kind == 3) = true then p else q) = if v.kind = 3 then p else q := fun p q => by
    simp only [beq_iff_eq]
  unfold State.beginRemote
  dsimp only
  rw [hside, hside, ← ha, hcheck, hslot, hwindow, if_neg (by decide), if_neg (by decide), if_neg (by decide)]
  split
  · exact State.Sends.feedPut ..
  · exact State.Sends.sendReq ..

theorem exec_ladleMovBegin_remote {s : State} {dt c m x a : Nat} {v : MovSt} (h : s.live = true)
    (hnext : (s.movs c m x).find? (fun y => !y.begun) = some v)
    (hfree : s.stageOf c < 2 ∨ s.isRadio m = true ∨ (s.clu c).streams.any (fun e => e.2.busy && e.2.run = v.run) = true)
    (hkind : v.kind = 3 ∨ v.kind = 4) (ha : a = (if v.kind = 3 then v.dst else v.src))
    (hcheck : s.remoteCheck m a 64 = 0) (hslot : s.slotFree m = true) (hwindow : s.windowOpen (a / 2 ^ 54) m = true) :
    ∃ u : State, exec (.ladleMovBegin dt c m x) s = .next u.settle ∧ u.movs c m x = s.begunMovs c m x v
      ∧ (u.rop v.opId).kind = v.kind ∧ (u.rop v.opId).dev = a / 2 ^ 54 ∧ (u.rop v.opId).far = a % 2 ^ 48 ∧ (u.rop v.opId).len = v.len
      ∧ u.rd F.fabSlots_used m = s.rd F.fabSlots_used m + 1
      ∧ u = { s.pass dt with csr := u.csr, clus := u.clus, fab := u.fab, egr := u.egr, log := u.log, free := u.free } := by
  refine ⟨_, exec_ladleMovBegin_next h hnext hfree, ?_⟩
  rw [if_neg (by omega), if_pos (by omega)]
  obtain ⟨hframe, hregs, hladle, hsame⟩ := State.beginRemote_sends (s := s.pass dt) (c := c) (x := x) ha hcheck hslot hwindow
  generalize (s.pass dt).beginRemote c m x v = u at *
  obtain ⟨hmovs, hrop, -, hbegan⟩ := State.beganMov_spec ((s.pass dt).takeSlot m) c m x v (v.remoteRop c m x (s.pass dt).clk.up a)
  obtain ⟨hused, htaken⟩ := State.takeSlot_spec (s := s.pass dt) hslot
  rw [hrop] at hsame
  obtain ⟨hkept, hdev, hfar, hlen⟩ := hsame
  have haddr : regAddr .fabSlots m 0 ∉ [regAddr .fabStat2 0 0, regAddr .logStatus 0 0] := by
    have hstat : regAddr .fabStat2 0 0 = 0x400028 := rfl
    have hlog : regAddr .logStatus 0 0 = 0x4018 := rfl
    simp only [regAddr_fabSlots, hstat, hlog, List.mem_cons, List.not_mem_nil, or_false]
    omega
  refine ⟨?_, hkept, hdev, hfar, hlen, (hregs.rd haddr).trans hused, ?_⟩
  · exact (congrArg (Tab.get [] · (ctxKey m x)) (hladle c)).trans hmovs
  · rw [hframe, hbegan, htaken]

/-- Settles O31: each clause is the lemma on what its command does in that case. -/
theorem ladleTransfers : Obligations.LadleTransfers :=
  ⟨fun _ _ _ _ _ _ => exec_ladleMovBegin_within, fun _ _ _ _ _ _ _ _ => exec_ladleMovBegin_far,
    fun _ _ _ _ _ _ _ h hnext hfree hkind ha _ => exec_ladleMovBegin_remote h hnext hfree hkind ha, fun _ _ _ _ _ _ _ _ _ => exec_movComplete_moves,
    fun _ _ _ _ _ _ _ _ h hended ho hkind hbusy hm hx _ _ => exec_movComplete_answers h hended ho hkind hbusy hm hx,
    fun _ _ _ _ _ _ _ _ h hended ho _ => exec_movComplete_slag_counts h hended ho,
    fun _ _ _ _ _ _ _ => exec_collMovSetupTimeout_due⟩

end Sys2Proof.Machine
end

section
/-! Parts of a cluster, engine queues and what SEQ_STREAM shows, after the operations that a stream's engines are built from
(R165, R166, Table 6.14). -/
namespace Sys2Proof.Machine

/-- A part of a cluster that a replacement agrees on stays in every cluster. -/
theorem State.clu_setClu_keeps {α : Type} (part : ClusterSt → α) {s : State} {c : Nat} {v : ClusterSt} (h : part v = part (s.clu c))
    (n : Nat) : part ((s.setClu c v).clu n) = part (s.clu n) := by
  rw [State.clu_setClu]
  split
  · next hn => rw [h, hn]
  · rfl

@[simp] theorem State.streams_setArray (s : State) (c a n : Nat) (v : ArraySt) :
    ((s.setArray c a v).clu n).streams = (s.clu n).streams := State.clu_setClu_keeps ClusterSt.streams (by rfl) n

@[simp] theorem State.tokens_setArray (s : State) (c a n : Nat) (v : ArraySt) :
    ((s.setArray c a v).clu n).tokens = (s.clu n).tokens := State.clu_setClu_keeps ClusterSt.tokens (by rfl) n

@[simp] theorem State.tokens_setStream (s : State) (c st n : Nat) (v : StreamSt) :
    ((s.setStream c st v).clu n).tokens = (s.clu n).tokens := State.clu_setClu_keeps ClusterSt.tokens (by rfl) n

@[simp] theorem State.arrays_setStream (s : State) (c st n : Nat) (v : StreamSt) :
    ((s.setStream c st v).clu n).arrays = (s.clu n).arrays := State.clu_setClu_keeps ClusterSt.arrays (by rfl) n

@[simp] theorem State.streams_setTok (s : State) (c m x t v n : Nat) :
    ((s.setTok c m x t v).clu n).streams = (s.clu n).streams := State.clu_setClu_keeps ClusterSt.streams (by rfl) n

theorem regAddr_arrChk (c a : Nat) : regAddr .arrChk c a = 0x1001010 + 0x100000 * c + 0x100 * a := rfl

theorem regAddr_arrBeats (c a : Nat) : regAddr .arrBeats c a = 0x1001018 + 0x100000 * c + 0x100 * a := rfl

theorem regAddr_seqStream (c st : Nat) : regAddr .seqStream c st = 0x1002000 + 0x100000 * c + 0x40 * st := rfl

theorem regAddr_seqBeats (c st : Nat) : regAddr .seqBeats c st = 0x1002008 + 0x100000 * c + 0x40 * st := rfl

theorem regAddr_seqBeats_notMem_seqStream (c st : Nat) : regAddr .seqBeats c st ∉ [regAddr .seqStream c st] := by
  rw [regAddr_seqBeats, regAddr_seqStream, List.mem_singleton]
  omega

theorem regAddr_chnCnt (c : Nat) : regAddr .chnCnt c 0 = 0x1002200 + 0x100000 * c + 0x0 * 0 := rfl

theorem regAddr_chnArrive (c a : Nat) : regAddr .chnArrive c a = 0x1002208 + 0x100000 * c + 0x8 * a := rfl

@[simp] theorem State.queue_setQueue_same (s : State) (c st e : Nat) (q : List QIns) : (s.setQueue c st e q).queue c st e = q := by
  unfold State.setQueue State.queue
  rw [State.stream_setStream_same]
  exact Tab.get_set_same ..

/-- What else of a stream stays when one of its queues is replaced. -/
theorem State.stream_setQueue (s : State) (c st e : Nat) (q : List QIns) :
    (s.setQueue c st e q).stream c st = { s.stream c st with queues := Tab.set [] (s.stream c st).queues e q } :=
  State.stream_setStream_same ..

theorem State.queue_of_single {s : State} {c st e : Nat} {l : List QIns} (h : (s.stream c st).queues = [(e, l)]) : s.queue c st e = l := by
  simp [State.queue, h, Tab.get, Tab.find]

/-- An engine with an empty queue has nothing to do. -/
theorem State.runQueue_of_empty {s : State} {c st e : Nat} (h : s.queue c st e = []) (n : Nat) : s.runQueue n c st e = s := by
  cases n with
  | zero => rfl
  | succ n => rw [State.runQueue, h, ite_self]

/-- A ready instruction alone in its queue takes effect and leaves the queue empty (R166). -/
theorem State.runQueue_single {s : State} {c st e : Nat} {q : QIns} (n : Nat) (hbusy : (s.stream c st).busy = true)
    (hqueue : s.queue c st e = [q]) (hready : s.headReady c st q = true) (hcls : q.cls ≠ 8)
    (hdone : ((s.setQueue c st e []).runIns c st q).queue c st e = []) :
    s.runQueue (n + 1) c st e = (s.setQueue c st e []).runIns c st q := by
  rw [State.runQueue, hbusy, hqueue]
  simp only [hready, hcls, Bool.not_true, Bool.false_eq_true, if_false]
  exact State.runQueue_of_empty hdone n

/-- SEQ_STREAM.state follows the stream, its other fields stay (Table 6.14). -/
theorem State.showStream_spec (s : State) (c st : Nat) :
    (s.showStream c st).sMould c st = s.sMould c st ∧ (s.showStream c st).sCtx c st = s.sCtx c st
      ∧ RegsBut s (s.showStream c st) [regAddr .seqStream c st] ∧ s.showStream c st = { s with csr := (s.showStream c st).csr } := by
  unfold State.showStream
  dsimp only
  split
  · exact ⟨rfl, rfl, RegsBut.refl s _, rfl⟩
  · exact ⟨State.rd_wr_beside _ _ _ _ rfl (by decide) (by decide), State.rd_wr_beside _ _ _ _ rfl (by decide) (by decide),
      State.regsBut_wr s F.seqStream_state _ c st, rfl⟩

end Sys2Proof.Machine
end

section
/-! A replay that commits (R156). -/
namespace Sys2Proof.Machine

/-- An event with a free detail that finds room stands as the newest record (R492). -/
theorem State.logFree_pushes {s : State} (code source m : Nat) (h : s.logRoom 1) :
    ∃ r : LogRec, (r.code, r.source, r.mould) = (code, source, m)
      ∧ s.logFree code source m = { s with free := s.free + 1, log := s.log.push r } :=
  ⟨_, rfl, State.logRec_of_room (s := { s with free := s.free + 1 }) _ h⟩

theorem State.count_frame (s : State) (kind cluster n : Nat) :
    s.count kind cluster n = { s with health := (s.count kind cluster n).health } := by
  unfold State.count
  split <;> rfl

/-- A stream all of whose engines have empty queues only shows its state. -/
theorem State.runAll_of_empty {s : State} {c st : Nat} (h : (List.range 9).all (fun e => (s.queue c st e).isEmpty) = true) :
    s.runAll c st = s.showStream c st := by
  have hidle : (List.range 9).foldl (fun u e => u.runQueue 9 c st e) s = s := by
    refine List.foldlRecOn (List.range 9) _ (motive := (· = s)) rfl fun u hu e he => ?_
    rw [hu]
    exact State.runQueue_of_empty (List.isEmpty_iff.mp (List.all_eq_true.mp h e he)) 9
  rw [State.runAll, hidle]

/-- Array a after its replay committed: the pass is no longer held, and ARR_CHK counts it (R156). -/
def State.replayCommitted (s : State) (c a : Nat) : State :=
  ((s.setArray c a { s.array c a with replay := none }).wr F.arrStatus_replaying 0 c a).cnt F.arrChk_replayOk c a

theorem State.replayCommitted_spec (s : State) (c a : Nat) :
    ((s.replayCommitted c a).array c a).replay = none ∧ (s.replayCommitted c a).rd F.arrStatus_replaying c a = 0
      ∧ (s.replayCommitted c a).rd F.arrChk_replayOk c a = satAdd F.arrChk_replayOk.width (s.rd F.arrChk_replayOk c a) 1
      ∧ (∀ st, (s.replayCommitted c a).stream c st = s.stream c st)
      ∧ RegsBut s (s.replayCommitted c a) [regAddr .arrStatus c a, regAddr .arrChk c a]
      ∧ s.replayCommitted c a = { s with csr := (s.replayCommitted c a).csr, clus := (s.replayCommitted c a).clus } := by
  have hne : regAddr .arrStatus c a ≠ regAddr .arrChk c a := by
    rw [regAddr_arrStatus, regAddr_arrChk]
    omega
  refine ⟨?_, ?_, ?_, fun st => ?_, ?_, rfl⟩
  · exact congrArg ArraySt.replay (State.array_setArray_same s c a _)
  · exact (State.rd_wr_ne _ _ hne).trans (State.rd_wr_same _ _ 0 c a (by decide))
  · refine (State.rd_cnt_same _ F.arrChk_replayOk c a 1 (by decide)).trans ?_
    rw [State.rd_wr_ne _ _ hne.symm]
    rfl
  · exact congrArg (Tab.get StreamSt.init · st) (State.streams_setArray s c a c _)
  · exact ((RegsBut.refl s _).step (State.regsBut_wr _ F.arrStatus_replaying 0 c a) List.mem_cons_self).step
      (State.regsBut_cnt _ F.arrChk_replayOk c a 1) (List.mem_cons_of_mem _ List.mem_cons_self)

theorem exec_replayCommit_commits {s : State} {c a st row col len : Nat} (h : s.live = true)
    (hreplay : (s.array c a).replay = some len) (hst : s.streamOfArray c a = some st)
    (hidle : (List.range 9).all (fun e => (s.queue c st e).isEmpty) = true) (hroom : s.logRoom 1) :
    ∃ u : State, exec (.replayCommit c a true row col) s = .next u.settle ∧ (u.array c a).replay = none
      ∧ u.rd F.arrStatus_replaying c a = 0
      ∧ u.rd F.arrChk_replayOk c a = satAdd F.arrChk_replayOk.width (s.rd F.arrChk_replayOk c a) 1
      ∧ u.lastEvt = some (0x0D02, srcEngine c a, s.sMould c st)
      ∧ RegsBut s u [regAddr .arrStatus c a, regAddr .arrChk c a, regAddr .seqStream c st]
      ∧ u = { s with csr := u.csr, clus := u.clus, log := u.log, free := u.free, health := u.health } := by
  obtain ⟨hnone, hclear, hcount, hstream, hregs, hframe⟩ := State.replayCommitted_spec s c a
  have hexec : exec (.replayCommit c a true row col) s
      = .next ((((s.replayCommitted c a).count 5 c).logFree 0x0D02 (srcEngine c a) (s.sMould c st)).runAll c st).settle := by
    rw [exec_replayCommit, execReplayCommit, whenLive_live _ _ h, hreplay, hst]
    dsimp only
    rw [if_pos rfl]
    rfl
  refine ⟨_, hexec, ?_⟩
  generalize s.replayCommitted c a = t at *
  obtain ⟨r, hr, hlog⟩ : ∃ r : LogRec, (r.code, r.source, r.mould) = (0x0D02, srcEngine c a, s.sMould c st)
      ∧ (t.count 5 c).logFree 0x0D02 (srcEngine c a) (s.sMould c st)
        = { t with health := (t.count 5 c).health, free := t.free + 1, log := t.log.push r } := by
    obtain ⟨r, hr, hlog⟩ := State.logFree_pushes (s := t.count 5 c) 0x0D02 (srcEngine c a) (s.sMould c st)
      (by rw [State.count_frame, hframe]; exact hroom)
    exact ⟨r, hr, hlog.trans (by rw [State.count_frame])⟩
  generalize (t.count 5 c).health = hl at hlog
  rw [hlog, State.runAll_of_empty]
  · obtain ⟨-, -, hshow, hshown⟩ := State.showStream_spec { t with health := hl, free := t.free + 1, log := t.log.push r } c st
    generalize State.showStream _ c st = u at *
    have hkept : regAddr .arrStatus c a ∉ [regAddr .seqStream c st] ∧ regAddr .arrChk c a ∉ [regAddr .seqStream c st] := by
      simp only [regAddr_arrStatus, regAddr_arrChk, regAddr_seqStream, List.mem_singleton]
      omega
    refine ⟨?_, (hshow.rd hkept.1).trans hclear, (hshow.rd hkept.2).trans hcount, ?_, ?_, ?_⟩
    · rw [hshown]
      exact hnone
    · rw [hshown]
      exact congrArg some hr
    · exact (hregs.mono (by simp)).trans (RegsBut.mono hshow (by simp))
    · rw [hshown, hframe]
  · refine Eq.trans ?_ hidle
    simp only [State.queue, ← hstream]
    rfl

end Sys2Proof.Machine
end

section
/-! Waits within a segment: what a wait counts, and a TWT that proceeds (R174, R184). -/
namespace Sys2Proof.Machine

/-- A count a TWT sees needs the registers only to know whose segment runs. -/
theorem State.tokenSeen_congr {s t : State} {c st : Nat} {q : QIns} (hm : t.sMould c st = s.sMould c st) (hx : t.sCtx c st = s.sCtx c st)
    (htokens : (t.clu c).tokens = (s.clu c).tokens) (hltok : (t.stream c st).ltok = (s.stream c st).ltok) :
    t.tokenSeen c st q = s.tokenSeen c st q := by
  rw [State.tokenSeen, State.tokenSeen, State.tok, State.tok, hm, hx, htokens, hltok]

theorem State.tokenSeen_setQueue (s : State) (c st e : Nat) (l : List QIns) (q : QIns) :
    (s.setQueue c st e l).tokenSeen c st q = s.tokenSeen c st q :=
  State.tokenSeen_congr rfl rfl (State.tokens_setStream ..) (by rw [State.stream_setQueue])

/-- Outside an audit a TWT is ready once its token holds its count (R184). -/
theorem State.headReady_twt_iff {s : State} {c st : Nat} {q : QIns} (hcls : q.cls = 6) (haudit : (s.stream c st).audit = false) :
    s.headReady c st q = true ↔ q.count ≤ s.tokenSeen c st q := by
  simp [State.headReady, hcls, haudit]

/-- The wait of a stream is counted: in SEQ_BEATS, and that of an arrival STR that held at all in CHN_CNT (R174, R217). -/
def State.waitCounted (s : State) (c st cls wait : Nat) : State :=
  let t := s.inc F.seqBeats_wait c st wait
  if cls = 2 && 0 < wait then t.cnt F.chnCnt_arrivalHolds c else t

theorem State.waitCounted_spec (s : State) (c st cls wait : Nat) :
    (s.waitCounted c st cls wait).rd F.seqBeats_wait c st = (s.rd F.seqBeats_wait c st + wait) % 2 ^ F.seqBeats_wait.width
      ∧ RegsBut s (s.waitCounted c st cls wait) (regAddr .seqBeats c st :: if cls = 2 then [regAddr .chnCnt c 0] else [])
      ∧ s.waitCounted c st cls wait = { s with csr := (s.waitCounted c st cls wait).csr } := by
  have hinc : RegsBut s (s.inc F.seqBeats_wait c st wait) [regAddr .seqBeats c st] := State.regsBut_wr s F.seqBeats_wait _ c st
  have hsum : (s.inc F.seqBeats_wait c st wait).rd F.seqBeats_wait c st = (s.rd F.seqBeats_wait c st + wait) % 2 ^ F.seqBeats_wait.width :=
    State.rd_wr_same s _ _ c st (by decide)
  unfold State.waitCounted
  dsimp only
  split
  · next hheld =>
    have hcls : cls = 2 := by
      simp only [Bool.and_eq_true, decide_eq_true_eq] at hheld
      exact hheld.1
    rw [if_pos hcls]
    have hcnt := State.regsBut_cnt (s.inc F.seqBeats_wait c st wait) F.chnCnt_arrivalHolds c 0 1
    have hne : regAddr .seqBeats c st ∉ [regAddr .chnCnt c 0] := by
      simp only [regAddr_seqBeats, regAddr_chnCnt, List.mem_singleton]
      omega
    exact ⟨(hcnt.rd hne).trans hsum, (hinc.mono (by simp)).trans (hcnt.mono (by simp [F.chnCnt_arrivalHolds])), rfl⟩
  · exact ⟨hsum, hinc.mono (by simp), rfl⟩

/-- The registers of a wait name no segment: the stream's mould and context stay, and so do the clusters. -/
theorem State.waitCounted_keeps (s : State) {st : Nat} (hst : st < 4) (c cls wait : Nat) :
    (s.waitCounted c st cls wait).sMould c st = s.sMould c st ∧ (s.waitCounted c st cls wait).sCtx c st = s.sCtx c st
      ∧ ∀ n, (s.waitCounted c st cls wait).clu n = s.clu n := by
  obtain ⟨-, hregs, hframe⟩ := State.waitCounted_spec s c st cls wait
  have hname : regAddr .seqStream c st ∉ regAddr .seqBeats c st :: if cls = 2 then [regAddr .chnCnt c 0] else [] := by
    rw [regAddr_seqStream, regAddr_seqBeats, regAddr_chnCnt]
    split
    · simp only [List.mem_cons, List.not_mem_nil, or_false]
      omega
    · simp only [List.mem_singleton]
      omega
  refine ⟨RegsBut.rd hregs hname, RegsBut.rd hregs hname, fun n => ?_⟩
  rw [hframe]
  rfl

/-- The one waiting head of a stream proceeds within its limit: its wait counts, it takes effect, and its array notes the wait (R174). -/
theorem State.waitEnds_single {s : State} {c st cls wait : Nat} {h : QIns} (hbusy : (s.stream c st).busy = true)
    (hqueues : (s.stream c st).queues = [(h.eng, [h])]) (hcls : h.cls = cls) (hready : s.headReady c st h = true)
    (hout : bit h.w0 9 = true ∨ cls = 2) (hlimit : wait ≤ s.waitLimit c h) :
    s.waitEnds c st cls wait
      = (let t := (s.waitCounted c st cls wait).runQueue 9 c st h.eng
         if cls = 2 then t.wr F.chnArrive_wait wait c h.eng else t).showStream c st := by
  have hin : (bit h.w0 9 || decide (cls = 2)) = true := by simpa using hout
  simp only [State.waitEnds, State.waitCounted, hbusy, hqueues, hcls, hready, hin, List.filterMap_cons, List.filterMap_nil, decide_true,
    Bool.and_self, if_true, List.filter_cons, List.filter_nil, List.any_cons, List.any_nil, List.isEmpty_cons, List.foldl_cons,
    List.foldl_nil, Nat.not_lt.mpr hlimit, decide_false, Bool.not_true, Bool.or_self, Bool.false_eq_true, if_false]

theorem State.runIns_twt {s : State} {c st : Nat} {q : QIns} (h : q.cls = 6) : s.runIns c st q = s.runTwt c st q := by
  simp only [State.runIns, h]

/-- A TWT takes its count from the token it waited for (R184). -/
theorem State.runTwt_spec {s : State} {c st : Nat} {q : QIns} (haudit : (s.stream c st).audit = false) :
    (s.runTwt c st q).tokenSeen c st q = s.tokenSeen c st q - q.count ∧ (s.runTwt c st q).queue c st q.eng = s.queue c st q.eng
      ∧ s.runTwt c st q = { s with clus := (s.runTwt c st q).clus } := by
  unfold State.runTwt State.tokenSeen
  split
  · rw [haudit, if_neg (by decide)]
    refine ⟨State.tok_setTok_same .., ?_, rfl⟩
    rw [State.queue, State.stream, State.streams_setTok]
    rfl
  · dsimp only
    refine ⟨?_, ?_, rfl⟩
    · rw [State.stream_setStream_same]
      exact Tab.get_set_same ..
    · rw [State.queue, State.stream_setStream_same]
      rfl

theorem exec_twtSatisfied_proceeds {s : State} {c st w : Nat} {h : QIns} (hlive : s.live = true) (hst : st < 4)
    (hbusy : (s.stream c st).busy = true) (hqueues : (s.stream c st).queues = [(h.eng, [h])]) (hcls : h.cls = 6)
    (hready : s.headReady c st h = true) (haudit : (s.stream c st).audit = false) (hout : bit h.w0 9 = true) (hlimit : w ≤ s.waitLimit c h) :
    ∃ u : State, exec (.twtSatisfied c st w) s = .next u.settle ∧ u.tokenSeen c st h = s.tokenSeen c st h - h.count
      ∧ u.rd F.seqBeats_wait c st = (s.rd F.seqBeats_wait c st + w) % 2 ^ F.seqBeats_wait.width ∧ u.queue c st h.eng = []
      ∧ RegsBut s u [regAddr .seqBeats c st, regAddr .seqStream c st] ∧ u = { s with csr := u.csr, clus := u.clus } := by
  have hexec : exec (.twtSatisfied c st w) s = .next (s.waitEnds c st 6 w).settle := by
    rw [exec_twtSatisfied, execTwtSatisfied, whenLive_live _ _ hlive]
  refine ⟨_, hexec, ?_⟩
  rw [State.waitEnds_single hbusy hqueues hcls hready (.inl hout) hlimit]
  dsimp only
  rw [if_neg (by decide)]
  obtain ⟨hwait, hregs, hframe⟩ := State.waitCounted_spec s c st 6 w
  obtain ⟨hm, hx, hclu⟩ := State.waitCounted_keeps s hst c 6 w
  generalize s.waitCounted c st 6 w = a at *
  have hstream : a.stream c st = s.stream c st := by rw [State.stream, State.stream, hclu]
  have hseen : a.tokenSeen c st h = s.tokenSeen c st h := State.tokenSeen_congr hm hx (by rw [hclu]) (by rw [hstream])
  have hready' : a.headReady c st h = true := by
    rw [State.headReady_twt_iff hcls (by rwa [hstream]), hseen]
    exact (State.headReady_twt_iff hcls haudit).mp hready
  obtain ⟨htaken, hempty, htwt⟩ := State.runTwt_spec (s := a.setQueue c st h.eng []) (c := c) (st := st) (q := h)
    (by rwa [State.stream_setQueue, hstream])
  rw [State.queue_setQueue_same] at hempty
  rw [State.runQueue_single 8 (by rwa [hstream]) (State.queue_of_single (by rwa [hstream])) hready' (by omega)
    (by rwa [State.runIns_twt hcls]), State.runIns_twt hcls]
  rw [State.tokenSeen_setQueue, hseen] at htaken
  generalize (a.setQueue c st h.eng []).runTwt c st h = b at *
  obtain ⟨hmu, hxu, hshow, hshown⟩ := State.showStream_spec b c st
  generalize b.showStream c st = u at *
  refine ⟨?_, ?_, ?_, ?_, ?_⟩
  · exact (State.tokenSeen_congr hmu hxu (by rw [hshown]; rfl) (by rw [hshown]; rfl)).trans htaken
  · rw [hshow.rd (regAddr_seqBeats_notMem_seqStream c st), ← hwait, htwt]
    rfl
  · rw [hshown]
    exact hempty
  · refine RegsBut.trans (RegsBut.trans (hregs.mono (by simp)) ?_) (hshow.mono (by simp))
    rw [htwt]
    exact RegsBut.refl _ _
  · rw [hshown, htwt]
    unfold State.setQueue
    rw [hframe]
    rfl

end Sys2Proof.Machine
end

section
/-! A pass of the arrays, and a held arrival STR that proceeds (R134 to R137, R216). -/
namespace Sys2Proof.Machine

theorem gangMembers_lt {mode a b : Nat} (ha : a < 4) (hb : b ∈ gangMembers mode a) : b < 4 := by
  have hsets : ∀ l ∈ gangSets mode, ∀ n ∈ l, n < 4 := by
    unfold gangSets
    split <;> decide
  unfold gangMembers at hb
  cases hfind : (gangSets mode).find? (·.contains a) with
  | none =>
    rw [hfind] at hb
    exact List.mem_singleton.mp hb ▸ ha
  | some l =>
    rw [hfind] at hb
    exact hsets l (List.mem_of_find?_eq_some hfind) b hb

/-- The registers of cluster c that a pass of its arrays writes: their status, counters and beats, and the chain counters. -/
def passRegs (c : Nat) : List Nat :=
  regAddr .chnCnt c 0 :: (List.range 4).flatMap fun a => [regAddr .arrStatus c a, regAddr .arrChk c a, regAddr .arrBeats c a]

theorem arrayReg_mem_passRegs {c a : Nat} {r : RegName} (ha : a < 4) (hr : r ∈ [.arrStatus, .arrChk, .arrBeats]) :
    regAddr r c a ∈ passRegs c :=
  List.mem_cons_of_mem _ (List.mem_flatMap.mpr ⟨a, List.mem_range.mpr ha, List.mem_map_of_mem (f := (regAddr · c a)) hr⟩)

/-- A cluster's sequencer registers lie above those of its arrays. -/
theorem notMem_passRegs {c n : Nat} (hlow : 0x1002000 + 0x100000 * c ≤ n) (hne : n ≠ regAddr .chnCnt c 0) : n ∉ passRegs c := by
  simp only [passRegs, List.mem_cons, List.mem_flatMap, List.mem_range, List.not_mem_nil, or_false, not_or, not_exists, not_and,
    regAddr_arrStatus, regAddr_arrChk, regAddr_arrBeats]
  exact ⟨hne, fun a ha => by omega⟩

/-- t is s after the arrays of cluster c worked for stream st: tokens, the stream's engine queues and every register beside those of
a pass stay. -/
structure State.Passes (c st : Nat) (s t : State) : Prop where
  frame : t = { s with csr := t.csr, clus := t.clus }
  regs : RegsBut s t (passRegs c)
  tokens : (t.clu c).tokens = (s.clu c).tokens
  queues : (t.stream c st).queues = (s.stream c st).queues

namespace State.Passes

variable {c st : Nat}

theorem refl (s : State) : s.Passes c st s := ⟨rfl, RegsBut.refl s _, rfl, rfl⟩

theorem trans {s t u : State} (h : s.Passes c st t) (k : t.Passes c st u) : s.Passes c st u :=
  ⟨k.frame.trans (by rw [h.frame]), h.regs.trans k.regs, k.tokens.trans h.tokens, k.queues.trans h.queues⟩

theorem setArray (s : State) (a : Nat) (v : ArraySt) : s.Passes c st (s.setArray c a v) :=
  ⟨rfl, RegsBut.refl s _, State.tokens_setArray .., by rw [State.stream, State.stream, State.streams_setArray]⟩

theorem wr (s : State) {f : Field} (v : Nat) {j : Nat} (h : regAddr f.reg c j ∈ passRegs c) : s.Passes c st (s.wr f v c j) :=
  ⟨rfl, (RegsBut.refl s _).step (State.regsBut_wr s f v c j) h, rfl, rfl⟩

theorem absorb (s : State) (part ord role : Nat) (bs : Bytes) : s.Passes c st (s.absorb c st part ord role bs) := by
  unfold State.absorb
  dsimp only
  split
  · exact refl s
  · refine ⟨rfl, RegsBut.refl s _, State.tokens_setStream .., ?_⟩
    rw [State.stream_setStream_same]
    split
    · rfl
    · split <;> rfl

theorem runPrologue (s : State) (m a : Nat) (b : Binding) (rows : Nat) : s.Passes c st (s.runPrologue c st m a b rows) := by
  unfold State.runPrologue
  dsimp only
  split
  · exact refl s
  · exact ((setArray s a _).trans (wr _ _ List.mem_cons_self)).trans (absorb ..)

theorem swapPlane (s : State) (a : Nat) (q : QIns) (p : Profile) (nrm : Bool) : s.Passes c st (s.swapPlane c a q p nrm) := by
  unfold State.swapPlane
  dsimp only
  split
  · exact setArray ..
  · split
    · exact refl s
    · split
      · exact setArray ..
      · exact refl s

/-- What an array that takes a stream shows of it: mode and power, its beats and the lines left unchecked (R140, R154). -/
theorem showPass (s : State) {a : Nat} (v : ArraySt) (mode beats skip : Nat) (ha : a < 4) :
    s.Passes c st (((((s.setArray c a v).wr F.arrStatus_mode mode c a).wr F.arrStatus_power 2 c a).inc F.arrBeats_activeBeats c a beats).cnt
      F.arrChk_skip c a skip) := by
  have hwr : ∀ (u : State) (f : Field) (n : Nat), f.reg ∈ [RegName.arrStatus, .arrChk, .arrBeats] → u.Passes c st (u.wr f n c a) :=
    fun u _ n hf => wr u n (arrayReg_mem_passRegs ha hf)
  exact ((((setArray s a v).trans (hwr _ F.arrStatus_mode _ (by decide))).trans (hwr _ F.arrStatus_power _ (by decide))).trans
    (hwr _ F.arrBeats_activeBeats _ (by decide))).trans (hwr _ F.arrChk_skip _ (by decide))

theorem strOn (s : State) (m : Nat) {a : Nat} (q : QIns) (nrm : Bool) (ha : a < 4) : s.Passes c st (s.strOn c st m a q nrm) := by
  unfold State.strOn
  dsimp only
  split
  · exact (((swapPlane ..).trans (showPass _ _ _ _ _ ha)).trans (absorb ..)).trans (absorb ..)
  · exact (swapPlane ..).trans (showPass _ _ _ _ _ ha)

/-- An STR works on the arrays of its gang (R134, R137). -/
theorem runStr (s : State) (m : Nat) {q : QIns} (heng : q.eng < 4) : s.Passes c st (s.runStr c st m q) := by
  have hgang : ∀ (nrm : Bool) (u : State), u.Passes c st ((u.gangOfArray c q.eng).foldl (fun t a => t.strOn c st m a q nrm) u) :=
    fun nrm u => List.foldlRecOn _ _ (motive := u.Passes c st) (refl u) fun t ht a ha => ht.trans (strOn t m q nrm (gangMembers_lt heng ha))
  unfold State.runStr
  dsimp only
  refine State.Passes.trans ((State.Passes.trans ?_ (hgang _ _))) (setArray ..)
  split
  · split
    · exact refl s
    · exact runPrologue ..
  · exact refl s

end State.Passes

/-- The granules a held STR needs follow from its array and its mould (R216). -/
theorem State.arrivalNeed_congr {s t : State} {c st : Nat} {q : QIns} (hframe : t = { s with csr := t.csr, clus := t.clus })
    (hm : t.sMould c st = s.sMould c st) (harr : t.array c q.eng = s.array c q.eng) : t.arrivalNeed c st q = s.arrivalNeed c st q := by
  have hgran : ∀ m k x, t.granules m k q x = s.granules m k q x := fun m k x => by
    rw [hframe]
    rfl
  simp only [State.arrivalNeed, State.nextK, harr, hm, hgran]

theorem State.arrivalNeed_setQueue (s : State) (c st e : Nat) (l : List QIns) (q : QIns) :
    (s.setQueue c st e l).arrivalNeed c st q = s.arrivalNeed c st q :=
  State.arrivalNeed_congr rfl rfl (congrArg (Tab.get ArraySt.init · q.eng) (State.arrays_setStream ..))

/-- An arrival STR is ready once its token holds its granules (R216). -/
theorem State.headReady_of_granules {s : State} {c st t g : Nat} {q : QIns} (hcls : q.cls = 2) (hneed : s.arrivalNeed c st q = some (t, g))
    (hg : g ≤ s.tok c (s.sMould c st) (s.sCtx c st) t) : s.headReady c st q = true := by
  simp [State.headReady, hcls, hneed, hg]

theorem State.runIns_str {s : State} {c st : Nat} {q : QIns} (h : q.cls = 2) :
    s.runIns c st q = (s.takeGranules c st q).runStr c st (s.sMould c st) q := by
  simp only [State.runIns, h]

/-- The granules of an arrival STR leave their token, and CHN_ARRIVE holds their number (R216). -/
theorem State.takeGranules_spec {s : State} {c st t g : Nat} {q : QIns} (haudit : (s.stream c st).audit = false)
    (hneed : s.arrivalNeed c st q = some (t, g)) :
    (s.takeGranules c st q).tok c (s.sMould c st) (s.sCtx c st) t = s.tok c (s.sMould c st) (s.sCtx c st) t - g
      ∧ (s.takeGranules c st q).rd F.chnArrive_granules c q.eng = g % 2 ^ F.chnArrive_granules.width
      ∧ (s.takeGranules c st q).queue c st q.eng = s.queue c st q.eng
      ∧ RegsBut s (s.takeGranules c st q) [regAddr .chnArrive c q.eng]
      ∧ s.takeGranules c st q = { s with csr := (s.takeGranules c st q).csr, clus := (s.takeGranules c st q).clus } := by
  unfold State.takeGranules
  rw [hneed, haudit]
  dsimp only
  rw [if_neg (by decide)]
  refine ⟨State.tok_setTok_same .., ?_, ?_, ?_, rfl⟩
  · exact (State.rd_wr_beside (f := F.chnArrive_token) (g := F.chnArrive_granules) _ t c q.eng rfl (by decide) (by decide)).trans
      (State.rd_wr_same _ F.chnArrive_granules g c q.eng (by decide))
  · exact congrArg (fun l : Tab StreamSt => Tab.get [] (Tab.get StreamSt.init l st).queues q.eng) (State.streams_setTok s c _ _ t _ c)
  · exact (RegsBut.trans (State.regsBut_wr _ F.chnArrive_wait 0 c q.eng) (State.regsBut_wr _ F.chnArrive_granules g c q.eng)).trans
      (State.regsBut_wr _ F.chnArrive_token t c q.eng)

theorem notMem_passRegs_chnArrive (c a : Nat) : regAddr .chnArrive c a ∉ passRegs c := by
  refine notMem_passRegs ?_ ?_
  · rw [regAddr_chnArrive]
    omega
  · rw [regAddr_chnArrive, regAddr_chnCnt]
    omega

theorem notMem_passRegs_seqBeats {c st a : Nat} (hst : st < 4) : regAddr .seqBeats c st ∉ regAddr .chnArrive c a :: passRegs c := by
  intro hmem
  rw [regAddr_seqBeats, List.mem_cons, regAddr_chnArrive] at hmem
  rcases hmem with heq | hmem
  · omega
  · exact notMem_passRegs (by omega) (by rw [regAddr_chnCnt]; omega) hmem

/-- An arrival STR at the head of its queue takes its granules, and its pass leaves them so (R216). -/
theorem State.runIns_arrival_spec {s : State} {c st t g : Nat} {q : QIns} (hcls : q.cls = 2) (heng : q.eng < 4)
    (haudit : (s.stream c st).audit = false) (hneed : s.arrivalNeed c st q = some (t, g)) :
    (s.runIns c st q).tok c (s.sMould c st) (s.sCtx c st) t = s.tok c (s.sMould c st) (s.sCtx c st) t - g
      ∧ (s.runIns c st q).rd F.chnArrive_granules c q.eng = g % 2 ^ F.chnArrive_granules.width
      ∧ (s.runIns c st q).queue c st q.eng = s.queue c st q.eng
      ∧ RegsBut s (s.runIns c st q) (regAddr .chnArrive c q.eng :: passRegs c)
      ∧ s.runIns c st q = { s with csr := (s.runIns c st q).csr, clus := (s.runIns c st q).clus } := by
  obtain ⟨htok, hgran, hqueue, hregs, hframe⟩ := State.takeGranules_spec haudit hneed
  obtain ⟨pframe, pregs, ptokens, pqueues⟩ := State.Passes.runStr (st := st) (s.takeGranules c st q) (s.sMould c st) heng
  rw [← State.runIns_str hcls] at pframe pregs ptokens pqueues
  refine ⟨?_, ?_, ?_, ?_, ?_⟩
  · rw [← htok, State.tok, State.tok, ptokens]
  · rw [← hgran]
    exact RegsBut.rd pregs (notMem_passRegs_chnArrive c q.eng)
  · rw [← hqueue, State.queue, State.queue, pqueues]
  · exact (hregs.mono (by simp)).trans (pregs.mono (List.subset_cons_self _ _))
  · rw [pframe, hframe]

theorem exec_arrivalGranulePresent_proceeds {s : State} {c st w t g : Nat} {h : QIns} (hlive : s.live = true) (hst : st < 4)
    (hbusy : (s.stream c st).busy = true) (hqueues : (s.stream c st).queues = [(h.eng, [h])]) (hcls : h.cls = 2) (heng : h.eng < 4)
    (hneed : s.arrivalNeed c st h = some (t, g)) (hg : g ≤ s.tok c (s.sMould c st) (s.sCtx c st) t)
    (haudit : (s.stream c st).audit = false) (hlimit : w ≤ s.waitLimit c h) :
    ∃ u : State, exec (.arrivalGranulePresent c st w) s = .next u.settle
      ∧ u.tok c (s.sMould c st) (s.sCtx c st) t = s.tok c (s.sMould c st) (s.sCtx c st) t - g
      ∧ u.rd F.chnArrive_granules c h.eng = g % 2 ^ F.chnArrive_granules.width
      ∧ u.rd F.chnArrive_wait c h.eng = w % 2 ^ F.chnArrive_wait.width
      ∧ u.rd F.seqBeats_wait c st = (s.rd F.seqBeats_wait c st + w) % 2 ^ F.seqBeats_wait.width
      ∧ u = { s with csr := u.csr, clus := u.clus } := by
  have hexec : exec (.arrivalGranulePresent c st w) s = .next (s.waitEnds c st 2 w).settle := by
    rw [exec_arrivalGranulePresent, execArrivalGranulePresent, whenLive_live _ _ hlive]
  refine ⟨_, hexec, ?_⟩
  rw [State.waitEnds_single hbusy hqueues hcls (State.headReady_of_granules hcls hneed hg) (.inr rfl) hlimit]
  dsimp only
  rw [if_pos rfl]
  obtain ⟨hwait, -, hframe⟩ := State.waitCounted_spec s c st 2 w
  obtain ⟨hm, hx, hclu⟩ := State.waitCounted_keeps s hst c 2 w
  generalize s.waitCounted c st 2 w = a at *
  have hstream : a.stream c st = s.stream c st := by rw [State.stream, State.stream, hclu]
  have hsame : a.arrivalNeed c st h = some (t, g) := by
    rw [← hneed]
    refine State.arrivalNeed_congr (by rw [hframe]) hm ?_
    rw [State.array, State.array, hclu]
  have htoken : a.tok c (s.sMould c st) (s.sCtx c st) t = s.tok c (s.sMould c st) (s.sCtx c st) t := by rw [State.tok, State.tok, hclu]
  have hready : a.headReady c st h = true := State.headReady_of_granules hcls hsame (by rwa [hm, hx, htoken])
  obtain ⟨htok, hgran, hempty, htouched, hran⟩ := State.runIns_arrival_spec (s := a.setQueue c st h.eng []) (c := c) (st := st) (q := h)
    hcls heng (by rwa [State.stream_setQueue, hstream]) ((State.arrivalNeed_setQueue ..).trans hsame)
  rw [State.queue_setQueue_same] at hempty
  rw [State.runQueue_single 8 (by rwa [hstream]) (State.queue_of_single (by rwa [hstream])) hready (by omega) hempty]
  generalize (a.setQueue c st h.eng []).runIns c st h = b at *
  have hmb : (a.setQueue c st h.eng []).sMould c st = s.sMould c st := hm
  have hxb : (a.setQueue c st h.eng []).sCtx c st = s.sCtx c st := hx
  have hheld : (a.setQueue c st h.eng []).tok c (s.sMould c st) (s.sCtx c st) t = s.tok c (s.sMould c st) (s.sCtx c st) t := by
    rw [← htoken, State.tok, State.tok, State.setQueue, State.tokens_setStream]
  rw [hmb, hxb, hheld] at htok
  obtain ⟨-, -, hshow, hshown⟩ := State.showStream_spec (b.wr F.chnArrive_wait w c h.eng) c st
  have hnoted := htouched.step (State.regsBut_wr b F.chnArrive_wait w c h.eng) List.mem_cons_self
  have hkept : regAddr .chnArrive c h.eng ∉ [regAddr .seqStream c st] := by
    rw [regAddr_seqStream, regAddr_chnArrive, List.mem_singleton]
    omega
  refine ⟨?_, ?_, ?_, ?_, ?_⟩
  · rw [hshown]
    exact htok
  · rw [hshow.rd hkept, State.rd_wr_beside b (f := F.chnArrive_wait) (g := F.chnArrive_granules) w c h.eng rfl (by decide) (by decide)]
    exact hgran
  · rw [hshow.rd hkept, State.rd_wr_same b _ w c h.eng (by decide)]
  · rw [hshow.rd (regAddr_seqBeats_notMem_seqStream c st), hnoted.rd (notMem_passRegs_seqBeats hst), ← hwait]
    rfl
  · rw [hshown, hran]
    unfold State.setQueue
    rw [hframe]
    rfl

/-- Settles O16: each clause is the lemma on what its command does. -/
theorem waitsAndReplaysEnd : Obligations.WaitsAndReplaysEnd :=
  ⟨fun _ _ _ _ _ _ _ h _ _ => exec_replayCommit_commits h,
    fun _ _ _ _ _ h _ hst => exec_twtSatisfied_proceeds h hst,
    fun _ _ _ _ _ _ _ h _ hst => exec_arrivalGranulePresent_proceeds h hst⟩

end Sys2Proof.Machine
end

section
/-! Admission: what a segment's start does to its engines and its stream, and the request that leaves its queue
(R168, R256 to R258). -/
namespace Sys2Proof.Machine

/-- t is s after engines of cluster c were made ready for a segment: context tokens and start queues stay. -/
structure State.Readies (c : Nat) (s t : State) : Prop where
  frame : t = { s with csr := t.csr, clus := t.clus }
  tokens : (t.clu c).tokens = (s.clu c).tokens
  queues : (t.clu c).queues = (s.clu c).queues

namespace State.Readies

variable {c : Nat}

theorem refl (s : State) : s.Readies c s := ⟨rfl, rfl, rfl⟩

theorem trans {s t u : State} (h : s.Readies c t) (k : t.Readies c u) : s.Readies c u :=
  ⟨k.frame.trans (by rw [h.frame]), k.tokens.trans h.tokens, k.queues.trans h.queues⟩

theorem foldl {α : Type} {f : State → α → State} (hf : ∀ (u : State) (a : α), u.Readies c (f u a)) (l : List α) (s : State) :
    s.Readies c (l.foldl f s) :=
  List.foldlRecOn l f (motive := s.Readies c) (refl s) fun t ht a _ => ht.trans (hf t a)

/-- Registers are no part of a cluster's tables. -/
theorem of_csr {s t : State} (h : t = { s with csr := t.csr }) : s.Readies c t := by
  rw [h]
  exact ⟨rfl, rfl, rfl⟩

theorem loadArrCfg (s : State) (a m : Nat) (lent : Bool) : s.Readies c (s.loadArrCfg c a m lent) := of_csr rfl

theorem clearArray (s : State) (a : Nat) : s.Readies c (s.clearArray c a) :=
  trans (t := s.setArray c a { ArraySt.init with holdEnd := (s.array c a).holdEnd })
    ⟨rfl, State.clu_setClu_keeps ClusterSt.tokens (by rfl) c, State.clu_setClu_keeps ClusterSt.queues (by rfl) c⟩ (of_csr rfl)

/-- A signal engine that a segment claims is cleared and shows idle (R412). -/
theorem clearSeng (s : State) (i : Nat) :
    s.Readies c ((s.setSeng c (4 + i) (s.seng c (4 + i)).cleared).wr F.seStatus_state 0 c i) :=
  trans (t := s.setSeng c (4 + i) (s.seng c (4 + i)).cleared)
    ⟨rfl, State.clu_setClu_keeps ClusterSt.tokens (by rfl) c, State.clu_setClu_keeps ClusterSt.queues (by rfl) c⟩ (of_csr rfl)

end State.Readies

/-- A field of a register at another address is unchanged by a store. -/
theorem State.rd_setReg_ne (s : State) {r : RegName} {f : Field} {i j k l : Nat} (v : Nat) (h : regAddr f.reg k l ≠ regAddr r i j) :
    (s.setReg r i j v).rd f k l = s.rd f k l := congrArg (bitsOf · f.lo f.width) (State.reg_setReg_ne s v h)

/-- The arrays and signal engines a segment claims as its first beats leave them (R51, R160, R412). -/
def State.segReadied (s : State) (c m : Nat) (h : SegHdr) (lent : Bool) : State :=
  let s := if lent then (bitList 4 h.arrays).foldl (fun u a => u.loadArrCfg c a m true) s else s
  let s := (bitList 4 h.arrays).foldl (fun u a => u.clearArray c a) s
  (bitList 2 h.engines).foldl (fun u i => (u.setSeng c (4 + i) (u.seng c (4 + i)).cleared).wr F.seStatus_state 0 c i) s

theorem State.readies_segReadied (s : State) (c m : Nat) (h : SegHdr) (lent : Bool) : s.Readies c (s.segReadied c m h lent) := by
  have hlent : s.Readies c (if lent then (bitList 4 h.arrays).foldl (fun u a => u.loadArrCfg c a m true) s else s) := by
    split
    · exact .foldl (fun u a => .loadArrCfg u a m true) _ s
    · exact .refl s
  exact (hlent.trans (.foldl (fun u a => .clearArray u a) _ _)).trans (.foldl (fun u i => .clearSeng u i) _ _)

/-- SEQ_STREAM names a running segment, and its beats start from 0 (Table 6.14). -/
def State.segShown (s : State) (c st m x idx id : Nat) : State :=
  (((((s.wr F.seqStream_state 1 c st).wr F.seqStream_mould m c st).wr F.seqStream_ctx x c st).wr
    F.seqStream_segIndex idx c st).wr F.seqStream_listId id c st).setReg .seqBeats c st 0

theorem State.segShown_spec (s : State) {c st m x : Nat} (idx id : Nat) (hm : m < 64) (hx : x < 16) :
    (s.segShown c st m x idx id).rd F.seqStream_state c st = 1 ∧ (s.segShown c st m x idx id).rd F.seqStream_mould c st = m
      ∧ (s.segShown c st m x idx id).rd F.seqStream_ctx c st = x
      ∧ s.segShown c st m x idx id = { s with csr := (s.segShown c st m x idx id).csr } := by
  have hne : regAddr .seqStream c st ≠ regAddr .seqBeats c st := by
    rw [regAddr_seqStream, regAddr_seqBeats]
    omega
  have hlast : ∀ (f : Field), f.reg = .seqStream → f.fits → f.lo + f.width ≤ 16 →
      (s.segShown c st m x idx id).rd f c st
        = (((s.wr F.seqStream_state 1 c st).wr F.seqStream_mould m c st).wr F.seqStream_ctx x c st).rd f c st := by
    intro f hreg hfit hlow
    rw [State.segShown, State.rd_setReg_ne _ _ (by rwa [hreg]), State.rd_wr_beside _ _ _ _ hreg hfit (.inl (hlow.trans (by decide))),
      State.rd_wr_beside _ _ _ _ hreg hfit (.inl hlow)]
  refine ⟨?_, ?_, ?_, rfl⟩
  · rw [hlast _ rfl (by decide) (by decide),
      State.rd_wr_beside _ (f := F.seqStream_ctx) (g := F.seqStream_state) _ _ _ rfl (by decide) (.inl (by decide)),
      State.rd_wr_beside _ (f := F.seqStream_mould) (g := F.seqStream_state) _ _ _ rfl (by decide) (.inl (by decide)),
      State.rd_wr_same _ _ _ _ _ (by decide)]
    rfl
  · rw [hlast _ rfl (by decide) (by decide),
      State.rd_wr_beside _ (f := F.seqStream_ctx) (g := F.seqStream_mould) _ _ _ rfl (by decide) (.inl (by decide)),
      State.rd_wr_same _ _ _ _ _ (by decide)]
    exact Nat.mod_eq_of_lt hm
  · rw [hlast _ rfl (by decide) (by decide), State.rd_wr_same _ _ _ _ _ (by decide)]
    exact Nat.mod_eq_of_lt (show x < 256 by omega)

/-- A segment that starts: its stream runs it, SEQ_STREAM shows it, and tokens and start queues stay (R168). -/
theorem State.startSeg_spec (s : State) {c st m x : Nat} (im : Bytes) (h : SegHdr) (lent : Bool) (v : StreamSt) (hm : m < 64) (hx : x < 16) :
    ((s.startSeg c st m x im h lent v).stream c st).busy = true ∧ ((s.startSeg c st m x im h lent v).stream c st).image = im
      ∧ ((s.startSeg c st m x im h lent v).stream c st).segOff = h.off
      ∧ ((s.startSeg c st m x im h lent v).clu c).tokens = (s.clu c).tokens
      ∧ ((s.startSeg c st m x im h lent v).clu c).queues = (s.clu c).queues
      ∧ (s.startSeg c st m x im h lent v).rd F.seqStream_state c st = 1 ∧ (s.startSeg c st m x im h lent v).rd F.seqStream_mould c st = m
      ∧ (s.startSeg c st m x im h lent v).rd F.seqStream_ctx c st = x
      ∧ s.startSeg c st m x im h lent v = { s with
          csr := (s.startSeg c st m x im h lent v).csr, clus := (s.startSeg c st m x im h lent v).clus
          runNo := (s.startSeg c st m x im h lent v).runNo } := by
  obtain ⟨hframe, htokens, hqueues⟩ := s.readies_segReadied c m h lent
  obtain ⟨w, hstart, hbusy, himage, hoff⟩ : ∃ w : StreamSt,
      s.startSeg c st m x im h lent v = ({ s.segReadied c m h lent with runNo := (s.segReadied c m h lent).runNo + 1 }.setStream c st w).segShown
        c st m x h.idx (listIdOf im) ∧ w.busy = true ∧ w.image = im ∧ w.segOff = h.off := ⟨_, rfl, rfl, rfl, rfl⟩
  rw [hstart]
  generalize s.segReadied c m h lent = a at *
  obtain ⟨hstate, hmould, hctx, hshown⟩ :=
    State.segShown_spec (State.setStream { a with runNo := a.runNo + 1 } c st w) (st := st) (c := c) h.idx (listIdOf im) hm hx
  generalize State.segShown _ c st m x h.idx (listIdOf im) = u at *
  have hstream : u.stream c st = w := by
    rw [hshown]
    exact State.stream_setStream_same ..
  refine ⟨hstream ▸ hbusy, hstream ▸ himage, hstream ▸ hoff, ?_, ?_, hstate, hmould, hctx, ?_⟩
  · rw [← htokens, hshown]
    exact State.tokens_setStream ..
  · rw [← hqueues, hshown]
    exact State.clu_setClu_keeps ClusterSt.queues (by rfl) c
  · rw [hshown, hframe]
    rfl

/-- An admitted request takes its gate count from its token where its gate is enabled (R258). -/
def State.gateTaken (s : State) (c m x : Nat) (r : StartReq) : State :=
  if r.gateEn then s.setTok c m x r.gateTok (s.tok c m x r.gateTok - r.gateCnt) else s

theorem State.gateTaken_spec (s : State) (c m x : Nat) (r : StartReq) :
    (s.gateTaken c m x r).tok c m x r.gateTok = (if r.gateEn then s.tok c m x r.gateTok - r.gateCnt else s.tok c m x r.gateTok)
      ∧ ((s.gateTaken c m x r).clu c).queues = (s.clu c).queues
      ∧ s.gateTaken c m x r = { s with clus := (s.gateTaken c m x r).clus } := by
  unfold State.gateTaken
  split
  · exact ⟨State.tok_setTok_same .., State.clu_setClu_keeps ClusterSt.queues (by rfl) c, rfl⟩
  · exact ⟨rfl, rfl, rfl⟩

/-- The head request of a context leaves its start queue, and the round robin goes on after the context (R256). -/
def State.dequeued (s : State) (c m x : Nat) : State :=
  s.setClu c { s.clu c with
    nextCtx := (x + 1) % 16, queues := Tab.set [] (s.clu c).queues (ctxKey m x) ((Tab.get [] (s.clu c).queues (ctxKey m x)).drop 1) }

theorem State.dequeued_spec {s : State} {c m x : Nat} {r : StartReq} {q : List StartReq}
    (h : Tab.get [] (s.clu c).queues (ctxKey m x) = r :: q) :
    Tab.get [] ((s.dequeued c m x).clu c).queues (ctxKey m x) = q ∧ ((s.dequeued c m x).clu c).tokens = (s.clu c).tokens := by
  unfold State.dequeued
  rw [State.clu_setClu, if_pos rfl, h]
  exact ⟨Tab.get_set_same .., rfl⟩

/-- A loan segment is counted when it is admitted (R261). -/
def State.loanCounted (s : State) (m : Nat) (loan : Bool) : State := if loan then s.cnt F.slotCnt_loanAdmitted m else s

theorem State.loanCounted_frame (s : State) (m : Nat) (loan : Bool) : s.loanCounted m loan = { s with csr := (s.loanCounted m loan).csr } := by
  unfold State.loanCounted
  split <;> rfl

theorem State.admitSeg_starts {s : State} {c st m x : Nat} {r : StartReq} {l : ResList} {h : SegHdr}
    (hlist : s.resident c m r.list = some l) (hseg : segHdr l.image r.seg = some h) :
    ∃ loan : Bool, s.admitSeg c st m x r
      = (((s.gateTaken c m x r).dequeued c m x).loanCounted m loan).startSeg c st m x l.image h loan StreamSt.init := by
  refine ⟨decide (s.claimer c ≠ some m), ?_⟩
  unfold State.admitSeg
  rw [hlist]
  dsimp only
  rw [hseg]
  simp only [State.gateTaken, State.dequeued, State.loanCounted, decide_eq_true_eq]

theorem State.tryAudit_of_none {s : State} {c : Nat} (h : (s.clu c).auditOp = none) (st : Nat) : s.tryAudit c st = s := by
  rw [State.tryAudit, h]

/-- The first context's head is eligible: it is admitted (R256). -/
theorem State.admitScan_first {s : State} {c st m x : Nat} {r : StartReq} {q : List StartReq} (rest : List (Nat × Nat))
    (hqueue : Tab.get [] (s.clu c).queues (ctxKey m x) = r :: q) (hverdict : s.verdict c st m x r = .ok) :
    State.admitScan ((m, x) :: rest) s c st = s.admitSeg c st m x r := by
  rw [State.admitScan, hqueue]
  dsimp only
  rw [hverdict]

theorem exec_segmentAdmit_admits {s : State} {dt c st m x : Nat} {r : StartReq} {rest : List (Nat × Nat)} {q : List StartReq}
    (hlive : s.live = true) (haudit : (s.clu c).auditOp = none) (hadmits : (s.admitStreams c).contains st = true)
    (hidle : (s.stream c st).busy = false) (horder : (s.pass dt).admitOrder c = (m, x) :: rest)
    (hqueue : Tab.get [] (s.clu c).queues (ctxKey m x) = r :: q) (hverdict : (s.pass dt).verdict c st m x r = .ok) :
    exec (.segmentAdmit dt c st) s = .next ((s.pass dt).admitSeg c st m x r).settle := by
  have hnoAudit : (if st < 4 && c < 96 then (s.pass dt).tryAudit c st else s.pass dt) = s.pass dt := by
    rw [State.tryAudit_of_none (s := s.pass dt) haudit, ite_self]
  have hfree : (((s.pass dt).admitStreams c).contains st && !((s.pass dt).stream c st).busy) = true := by
    rw [show (s.pass dt).admitStreams c = s.admitStreams c from rfl, hadmits, show (s.pass dt).stream c st = s.stream c st from rfl, hidle]
    rfl
  rw [exec_segmentAdmit, execSegmentAdmit, whenLive_live _ _ hlive]
  dsimp only
  rw [hnoAudit, if_pos hfree, horder, State.admitScan_first (s := s.pass dt) rest hqueue hverdict]

/-- Settles O13: the request leaves its gate and its queue before its segment starts on the stream. -/
theorem segmentAdmission : Obligations.SegmentAdmission := by
  intro s dt c st m x r l h rest q hlive hm hx haudit hadmits hidle horder hqueue hverdict hlist hseg
  refine ⟨_, exec_segmentAdmit_admits hlive haudit hadmits hidle horder hqueue hverdict, ?_⟩
  obtain ⟨loan, hadmit⟩ := State.admitSeg_starts (s := s.pass dt) (st := st) (x := x) hlist hseg
  rw [hadmit]
  obtain ⟨hgate, hkept, hgated⟩ := (s.pass dt).gateTaken_spec c m x r
  generalize (s.pass dt).gateTaken c m x r = a at *
  obtain ⟨hleft, htokens⟩ := State.dequeued_spec (s := a) (hkept ▸ hqueue : Tab.get [] (a.clu c).queues (ctxKey m x) = r :: q)
  have hcounted := (a.dequeued c m x).loanCounted_frame m loan
  obtain ⟨hbusy, himage, hoff, hstokens, hsqueues, hstate, hmould, hctx, hframe⟩ :=
    ((a.dequeued c m x).loanCounted m loan).startSeg_spec (c := c) (st := st) l.image h loan StreamSt.init hm hx
  generalize State.startSeg _ c st m x l.image h loan StreamSt.init = u at *
  refine ⟨hbusy, himage, hoff, ?_, ?_, hstate, hmould, hctx, ?_⟩
  · rw [hsqueues, hcounted]
    exact hleft
  · refine Eq.trans ?_ hgate
    rw [State.tok, State.tok, hstokens, hcounted, ← htokens]
    rfl
  · rw [hframe, hcounted]
    unfold State.dequeued
    rw [hgated]
    rfl

end Sys2Proof.Machine
end

section
/-! A stream issues an instruction into an empty engine queue: it moves on by one ordinal, and the engine takes the
instruction at once (R165, R166). -/
namespace Sys2Proof.Machine

/-- t is s after stream st of cluster c moved on or its queues changed: all that its engines work with stays. -/
structure State.StreamMoves (c st : Nat) (s t : State) : Prop where
  frame : t = { s with clus := t.clus }
  cluster : t.clu c = { s.clu c with streams := (t.clu c).streams }
  stream : t.stream c st = { s.stream c st with
    pc := (t.stream c st).pc, rpts := (t.stream c st).rpts, ordinal := (t.stream c st).ordinal, queues := (t.stream c st).queues
    ndSeeded := (t.stream c st).ndSeeded, ndOrder := (t.stream c st).ndOrder }

namespace State.StreamMoves

variable {c st : Nat}

theorem refl (s : State) : s.StreamMoves c st s := ⟨rfl, rfl, rfl⟩

theorem trans {s t u : State} (h : s.StreamMoves c st t) (k : t.StreamMoves c st u) : s.StreamMoves c st u :=
  ⟨k.frame.trans (by rw [h.frame]), k.cluster.trans (by rw [h.cluster]), k.stream.trans (by rw [h.stream])⟩

theorem setStream {s : State} {v : StreamSt} (h : v = { s.stream c st with
      pc := v.pc, rpts := v.rpts, ordinal := v.ordinal, queues := v.queues, ndSeeded := v.ndSeeded, ndOrder := v.ndOrder }) :
    s.StreamMoves c st (s.setStream c st v) := by
  refine ⟨rfl, ?_, ?_⟩
  · unfold State.setStream
    rw [State.clu_setClu, if_pos rfl]
  · rw [State.stream_setStream_same]
    exact h

theorem markNd (s : State) (m : Nat) (q : QIns) : s.StreamMoves c st (s.markNd c st m q) := by
  unfold State.markNd
  dsimp only
  split
  · exact refl s
  · refine setStream ?_
    split <;> rfl

theorem advance (s : State) (n : Nat) : s.StreamMoves c st (s.advance c st n) := setStream rfl

theorem setQueue (s : State) (e : Nat) (l : List QIns) : s.StreamMoves c st (s.setQueue c st e l) := setStream rfl

theorem sMould {s t : State} (h : s.StreamMoves c st t) : t.sMould c st = s.sMould c st := by
  rw [h.frame]
  rfl

theorem sCtx {s t : State} (h : s.StreamMoves c st t) : t.sCtx c st = s.sCtx c st := by
  rw [h.frame]
  rfl

theorem regsBut {s t : State} (h : s.StreamMoves c st t) (as : List Nat) : RegsBut s t as := by
  rw [h.frame]
  exact RegsBut.refl s as

theorem busy {s t : State} (h : s.StreamMoves c st t) : (t.stream c st).busy = (s.stream c st).busy := by rw [h.stream]

theorem audit {s t : State} (h : s.StreamMoves c st t) : (t.stream c st).audit = (s.stream c st).audit := by rw [h.stream]

theorem tokenSeen {s t : State} (h : s.StreamMoves c st t) (q : QIns) : t.tokenSeen c st q = s.tokenSeen c st q :=
  State.tokenSeen_congr h.sMould h.sCtx (by rw [h.cluster]) (by rw [h.stream])

end State.StreamMoves

/-- A running segment has a next instruction only while its stream is busy. -/
theorem State.busy_of_nextIns {s : State} {c st n : Nat} {q : QIns} (h : s.nextIns c st = some (q, n)) : (s.stream c st).busy = true := by
  unfold State.nextIns at h
  dsimp only at h
  split at h
  · cases h
  · next hmay =>
    simp only [Bool.or_eq_true, Bool.not_eq_true', not_or, Bool.not_eq_false] at hmay
    obtain ⟨⟨hbusy, -⟩, -⟩ := hmay
    exact hbusy

theorem State.markNd_keeps (s : State) (c st m : Nat) (q : QIns) :
    ((s.markNd c st m q).stream c st).ordinal = (s.stream c st).ordinal ∧ ((s.markNd c st m q).stream c st).queues = (s.stream c st).queues := by
  unfold State.markNd
  dsimp only
  split
  · exact ⟨rfl, rfl⟩
  · rw [State.stream_setStream_same]
    split <;> exact ⟨rfl, rfl⟩

theorem State.advance_spec (s : State) (c st n : Nat) :
    ((s.advance c st n).stream c st).ordinal = (s.stream c st).ordinal + 1 ∧ ((s.advance c st n).stream c st).queues = (s.stream c st).queues := by
  unfold State.advance
  dsimp only
  rw [State.stream_setStream_same]
  exact ⟨rfl, rfl⟩

/-- The stream has issued q, of n words, into its engine's queue, and the engine has taken it from the head (R165, R166). -/
def State.atHead (s : State) (c st n : Nat) (q : QIns) : State :=
  (((s.markNd c st (s.sMould c st) q).advance c st n).setQueue c st q.eng [q]).setQueue c st q.eng []

theorem State.atHead_spec (s : State) (c st n : Nat) (q : QIns) :
    s.StreamMoves c st (s.atHead c st n q) ∧ ((s.atHead c st n q).stream c st).ordinal = (s.stream c st).ordinal + 1
      ∧ (s.atHead c st n q).queue c st q.eng = [] := by
  refine ⟨?_, ?_, State.queue_setQueue_same ..⟩
  · exact (((State.StreamMoves.markNd ..).trans (.advance ..)).trans (.setQueue ..)).trans (.setQueue ..)
  · rw [State.atHead, State.stream_setQueue, State.stream_setQueue]
    exact (State.advance_spec ..).1.trans (congrArg (· + 1) (State.markNd_keeps ..).1)

/-- An instruction that is ready at once and leaves its engine's queue takes effect as it is issued. -/
theorem State.issue_atHead {s : State} {c st n : Nat} {q : QIns} (hnext : s.nextIns c st = some (q, n)) (hempty : s.queue c st q.eng = [])
    (hfree : s.queue c st 8 = []) (hcls : q.cls ≠ 8) (hready : ∀ t, s.StreamMoves c st t → t.headReady c st q = true)
    (hqueue : ∀ t : State, (t.runIns c st q).queue c st q.eng = t.queue c st q.eng) :
    s.issue c st q.cls = ((s.atHead c st n q).runIns c st q).showStream c st := by
  have hmoves : s.StreamMoves c st ((s.markNd c st (s.sMould c st) q).advance c st n) := (State.StreamMoves.markNd ..).trans (.advance ..)
  have hstill : ((s.markNd c st (s.sMould c st) q).advance c st n).queue c st q.eng = [] := by
    rw [← hempty, State.queue, State.queue, (State.advance_spec ..).2, (State.markNd_keeps ..).2]
  have hmay : ¬ (q.cls ≠ q.cls || 8 ≤ (s.queue c st q.eng).length || !(s.queue c st 8).isEmpty) = true := by
    rw [hempty, hfree]
    simp
  have hhead := hmoves.trans (.setQueue _ q.eng [q])
  unfold State.issue
  rw [hnext]
  dsimp only
  rw [if_neg hmay, hstill, List.nil_append,
    State.runQueue_single 8 (by rw [hhead.busy]; exact State.busy_of_nextIns hnext) (State.queue_setQueue_same ..) (hready _ hhead) hcls
      (by rw [hqueue, State.queue_setQueue_same])]
  rfl

/-- The form of an issue that takes effect at once: the engine takes the instruction in t, and u is t after its effect, the stream
shown. -/
theorem exec_issue_shown {s : State} {i : Instr} {c st n : Nat} {q : QIns} (hexec : exec i s = .next (s.issue c st q.cls).settle)
    (hnext : s.nextIns c st = some (q, n)) (hempty : s.queue c st q.eng = [])
    (hfree : s.queue c st 8 = []) (hcls : q.cls ≠ 8) (hready : ∀ t, s.StreamMoves c st t → t.headReady c st q = true)
    (hqueue : ∀ t : State, (t.runIns c st q).queue c st q.eng = t.queue c st q.eng) :
    ∃ t u : State, exec i s = .next u.settle ∧ s.StreamMoves c st t ∧ (t.stream c st).ordinal = (s.stream c st).ordinal + 1
      ∧ t.queue c st q.eng = [] ∧ u.sMould c st = (t.runIns c st q).sMould c st ∧ u.sCtx c st = (t.runIns c st q).sCtx c st
      ∧ RegsBut (t.runIns c st q) u [regAddr .seqStream c st] ∧ u = { t.runIns c st q with csr := u.csr } := by
  obtain ⟨hmoves, hordinal, hqueued⟩ := s.atHead_spec c st n q
  refine ⟨s.atHead c st n q, _, hexec.trans ?_, hmoves, hordinal, hqueued, State.showStream_spec _ c st⟩
  rw [State.issue_atHead hnext hempty hfree hcls hready hqueue]

theorem State.headReady_at_once {s : State} {c st : Nat} {q : QIns} (h : q.cls ∈ [0, 4, 5, 7]) : s.headReady c st q = true := by
  simp only [List.mem_cons, List.not_mem_nil, or_false] at h
  rcases h with h | h | h | h <;> simp only [State.headReady, h]

end Sys2Proof.Machine
end

section
/-! What NOP, TPS, TWT, MOV and CHN do at the head of their queue (R178, R182, R184, R197). -/
namespace Sys2Proof.Machine

variable {s : State} {c st n : Nat} {q : QIns}

/-- An event that is logged where a condition holds. -/
theorem State.logEvt_if_spec (s : State) (p : Prop) [Decidable p] (code source m d : Nat) :
    RegsBut s (if p then s.logEvt code source m d else s) [regAddr .logStatus 0 0]
      ∧ (if p then s.logEvt code source m d else s) = { s with
          csr := (if p then s.logEvt code source m d else s).csr, log := (if p then s.logEvt code source m d else s).log } := by
  split
  · exact ⟨State.regsBut_logEvt s code source m d, State.logEvt_frame s code source m d⟩
  · exact ⟨RegsBut.refl s _, rfl⟩

theorem regAddr_logStatus : regAddr .logStatus 0 0 = 0x4018 := rfl

theorem regAddr_seqStream_notMem_logStatus (c st : Nat) : regAddr .seqStream c st ∉ [regAddr .logStatus 0 0] := by
  rw [regAddr_seqStream, regAddr_logStatus, List.mem_singleton]
  omega

theorem State.clu_setTok (s : State) (c m x t v : Nat) :
    (s.setTok c m x t v).clu c = { s.clu c with tokens := Tab.set 0 (s.clu c).tokens (tokKey m x t) v } :=
  (State.clu_setClu ..).trans (if_pos rfl)

/-- A post adds to its token up to 65,535, and touches nothing else but the log where it saturates (R184). -/
theorem State.post_spec (s : State) (c m x t v : Nat) :
    (s.post c m x t v).tok c m x t = min (s.tok c m x t + v) 65535
      ∧ (s.post c m x t v).clu c = { s.clu c with tokens := ((s.post c m x t v).clu c).tokens }
      ∧ (s.tok c m x t + v ≤ 65535 → s.post c m x t v = { s with clus := (s.post c m x t v).clus })
      ∧ RegsBut s (s.post c m x t v) [regAddr .logStatus 0 0]
      ∧ s.post c m x t v = { s with csr := (s.post c m x t v).csr, clus := (s.post c m x t v).clus, log := (s.post c m x t v).log } := by
  unfold State.post
  dsimp only
  split
  · next hover =>
    have hlogged := State.logEvt_frame (s.setTok c m x t 65535) 0x0E01 (srcEngine c 8) m (t % 32 + 2 ^ 8 + x * 2 ^ 16)
    have hregs := State.regsBut_logEvt (s.setTok c m x t 65535) 0x0E01 (srcEngine c 8) m (t % 32 + 2 ^ 8 + x * 2 ^ 16)
    generalize State.logEvt _ 0x0E01 (srcEngine c 8) m (t % 32 + 2 ^ 8 + x * 2 ^ 16) = u at *
    have hclu : u.clu c = (s.setTok c m x t 65535).clu c := by
      rw [hlogged]
      rfl
    refine ⟨?_, ?_, fun h => absurd h (by omega), hregs, ?_⟩
    · rw [State.tok, hclu, Nat.min_eq_right (by omega)]
      exact State.tok_setTok_same ..
    · rw [hclu, State.clu_setTok]
    · rw [hlogged]
      rfl
  · refine ⟨?_, ?_, fun _ => rfl, RegsBut.refl s _, rfl⟩
    · rw [State.tok_setTok_same, Nat.min_eq_left (by omega)]
    · rw [State.clu_setTok]

/-- The stream's own token that a TPS names after its value is added, saturating (R184). -/
def State.localPosted (s : State) (c st : Nat) (q : QIns) : State :=
  s.setStream c st { s.stream c st with
    ltok := Tab.set 0 (s.stream c st).ltok q.token (min (Tab.get 0 (s.stream c st).ltok q.token + q.count) 65535) }

theorem State.runTps_local (s : State) (c st : Nat) (h : q.ctxScope = false) :
    s.runTps c st q = if Tab.get 0 (s.stream c st).ltok q.token + q.count > 65535 then
        (s.localPosted c st q).logEvt 0x0E01 (srcEngine c 8) (s.sMould c st) (q.token + s.sCtx c st * 2 ^ 16 + st * 2 ^ 24)
      else s.localPosted c st q := by
  rw [State.runTps, h, if_neg Bool.false_ne_true]
  rfl

theorem State.runTps_ctx (s : State) (c st : Nat) (h : q.ctxScope = true) :
    s.runTps c st q = s.post c (s.sMould c st) (s.sCtx c st) q.token q.count := by
  rw [State.runTps, h, if_pos rfl]

/-- A TPS adds its value to its token, saturating; of its stream only its own tokens change (R184). -/
theorem State.runTps_spec (s : State) (c st : Nat) (q : QIns) :
    (s.runTps c st q).tokenSeen c st q = min 65535 (s.tokenSeen c st q + q.count)
      ∧ (s.runTps c st q).stream c st = { s.stream c st with ltok := ((s.runTps c st q).stream c st).ltok }
      ∧ RegsBut s (s.runTps c st q) [regAddr .logStatus 0 0]
      ∧ s.runTps c st q = { s with csr := (s.runTps c st q).csr, clus := (s.runTps c st q).clus, log := (s.runTps c st q).log } := by
  unfold State.tokenSeen
  cases hscope : q.ctxScope with
  | true =>
    obtain ⟨htok, hclu, -, hregs, hframe⟩ := s.post_spec c (s.sMould c st) (s.sCtx c st) q.token q.count
    rw [← State.runTps_ctx s c st hscope] at htok hclu hregs hframe
    generalize s.runTps c st q = u at *
    have hm : u.sMould c st = s.sMould c st := hregs.rd (regAddr_seqStream_notMem_logStatus c st)
    have hx : u.sCtx c st = s.sCtx c st := hregs.rd (regAddr_seqStream_notMem_logStatus c st)
    refine ⟨?_, ?_, hregs, hframe⟩
    · rw [if_pos rfl, if_pos rfl, hm, hx, htok, Nat.min_comm]
    · rw [State.stream, hclu]
      rfl
  | false =>
    obtain ⟨hregs, hframe⟩ := State.logEvt_if_spec (s.localPosted c st q)
      (Tab.get 0 (s.stream c st).ltok q.token + q.count > 65535) 0x0E01 (srcEngine c 8) (s.sMould c st)
      (q.token + s.sCtx c st * 2 ^ 16 + st * 2 ^ 24)
    rw [← State.runTps_local s c st hscope] at hregs hframe
    generalize s.runTps c st q = u at *
    have hstream : u.stream c st = (s.localPosted c st q).stream c st := by
      rw [hframe]
      rfl
    rw [State.localPosted, State.stream_setStream_same] at hstream
    refine ⟨?_, by rw [hstream], hregs, by rw [hframe]; rfl⟩
    rw [hstream, if_neg Bool.false_ne_true, if_neg Bool.false_ne_true, Nat.min_comm]
    exact Tab.get_set_same ..

/-- Of its stream a TWT changes only its own tokens. -/
theorem State.runTwt_stream (s : State) (c st : Nat) (q : QIns) :
    (s.runTwt c st q).stream c st = { s.stream c st with ltok := ((s.runTwt c st q).stream c st).ltok } := by
  unfold State.runTwt
  split
  · split
    · rfl
    · rw [State.stream, State.streams_setTok]
      rfl
  · dsimp only
    rw [State.stream_setStream_same]

/-- A MOV joins the end of its context's transfer queue; streams stay (R182). -/
theorem State.queueMov_spec (s : State) (c st : Nat) (q : QIns) :
    (Tab.get [] ((s.queueMov c st q).clu c).ladle (ctxKey (s.sMould c st) (s.sCtx c st))).map (fun v => (v.kind, v.len, v.begun))
        = (Tab.get [] (s.clu c).ladle (ctxKey (s.sMould c st) (s.sCtx c st))).map (fun v => (v.kind, v.len, v.begun))
          ++ [(bitsOf q.w0 16 4, bitsOf q.w0 32 32, false)]
      ∧ (s.queueMov c st q).stream c st = s.stream c st
      ∧ s.queueMov c st q = { s with clus := (s.queueMov c st q).clus, fab := (s.queueMov c st q).fab } := by
  refine ⟨?_, ?_, rfl⟩
  · unfold State.queueMov
    dsimp only
    rw [State.clu_setClu, if_pos rfl]
    dsimp only
    rw [Tab.get_set_same, List.map_append]
    rfl
  · exact congrArg (Tab.get StreamSt.init · st) (State.clu_setClu_keeps ClusterSt.streams (by rfl) c)

/-- A CHN binds its chain to its array; streams stay (R197). -/
theorem State.runChn_spec (s : State) (c st : Nat) (q : QIns) :
    ((s.runChn c q).array c q.eng).binding.map (fun b => (b.chain, b.param0, b.strDone)) = some (bitsOf q.w0 16 6, bitsOf q.w0 32 32, false)
      ∧ (s.runChn c q).stream c st = s.stream c st ∧ s.runChn c q = { s with clus := (s.runChn c q).clus } := by
  refine ⟨?_, ?_, rfl⟩
  · unfold State.runChn
    dsimp only
    rw [State.array_setArray_same]
    rfl
  · exact congrArg (Tab.get StreamSt.init · st) (State.streams_setArray ..)

theorem State.runIns_nop (h : q.cls = 0) : s.runIns c st q = s := by simp only [State.runIns, h]

theorem State.runIns_chn (h : q.cls = 4) : s.runIns c st q = s.runChn c q := by simp only [State.runIns, h]

theorem State.runIns_mov (h : q.cls = 5) : s.runIns c st q = s.queueMov c st q := by simp only [State.runIns, h]

theorem State.runIns_tps (h : q.cls = 7) : s.runIns c st q = s.runTps c st q := by simp only [State.runIns, h]

/-- An engine's queue depends on its stream alone. -/
theorem State.queue_congr {s t : State} {c st : Nat} (h : (t.stream c st).queues = (s.stream c st).queues) (e : Nat) :
    t.queue c st e = s.queue c st e := by
  rw [State.queue, State.queue, h]

theorem State.stream_of_csr {s u : State} (h : u = { s with csr := u.csr }) (c st : Nat) : u.stream c st = s.stream c st := by
  rw [h]
  rfl

end Sys2Proof.Machine
end

section
/-! Each instruction that a stream issues into an empty queue (R165, R178, R182, R184, R186, R197). -/
namespace Sys2Proof.Machine

variable {s : State} {c st n : Nat} {q : QIns}

theorem exec_nop_issues (hlive : s.live = true) (hnext : s.nextIns c st = some (q, n)) (hcls : q.cls = 0)
    (hempty : s.queue c st q.eng = []) (hfree : s.queue c st 8 = []) :
    ∃ u : State, exec (.nop c st) s = .next u.settle ∧ (u.stream c st).ordinal = (s.stream c st).ordinal + 1 ∧ u.queue c st q.eng = []
      ∧ RegsBut s u [regAddr .seqStream c st] ∧ u = { s with csr := u.csr, clus := u.clus } := by
  obtain ⟨t, u, hexec, hmoves, hordinal, hqueue, -, -, hregs, hframe⟩ := exec_issue_shown (i := .nop c st)
    (by rw [hcls, exec_nop, execNop, whenLive_live _ _ hlive]) hnext hempty hfree (by omega)
    (fun t _ => State.headReady_at_once (by simp [hcls])) (fun t => by rw [State.runIns_nop hcls])
  rw [State.runIns_nop hcls] at hregs hframe
  have hstream := State.stream_of_csr hframe c st
  refine ⟨u, hexec, by rw [hstream, hordinal], (State.queue_congr (by rw [hstream]) _).trans hqueue, (hmoves.regsBut _).trans hregs, ?_⟩
  rw [hframe, hmoves.frame]

theorem exec_tps_issues (hlive : s.live = true) (hnext : s.nextIns c st = some (q, n)) (hcls : q.cls = 7)
    (hempty : s.queue c st q.eng = []) (hfree : s.queue c st 8 = []) :
    ∃ u : State, exec (.tps c st) s = .next u.settle ∧ (u.stream c st).ordinal = (s.stream c st).ordinal + 1
      ∧ u.tokenSeen c st q = min 65535 (s.tokenSeen c st q + q.count)
      ∧ RegsBut s u [regAddr .seqStream c st, regAddr .logStatus 0 0] ∧ u = { s with csr := u.csr, clus := u.clus, log := u.log } := by
  obtain ⟨t, u, hexec, hmoves, hordinal, -, hm, hx, hregs, hframe⟩ := exec_issue_shown (i := .tps c st)
    (by rw [hcls, exec_tps, execTps, whenLive_live _ _ hlive]) hnext hempty hfree (by omega)
    (fun t _ => State.headReady_at_once (by simp [hcls]))
    (fun t => State.queue_congr (by rw [State.runIns_tps hcls, (t.runTps_spec c st q).2.1]) _)
  rw [State.runIns_tps hcls] at hm hx hregs hframe
  obtain ⟨hseen, hran, htouched, hrun⟩ := t.runTps_spec c st q
  generalize t.runTps c st q = b at *
  have hstream := State.stream_of_csr hframe c st
  refine ⟨u, hexec, by rw [hstream, hran, hordinal], ?_, ?_, ?_⟩
  · rw [State.tokenSeen_congr hm hx (by rw [hframe]; rfl) (by rw [hstream]), hseen, hmoves.tokenSeen]
  · exact ((hmoves.regsBut _).trans (htouched.mono (by simp))).trans (hregs.mono (by simp))
  · rw [hframe, hrun, hmoves.frame]

theorem exec_twt_issues (hlive : s.live = true) (hnext : s.nextIns c st = some (q, n)) (hcls : q.cls = 6)
    (hempty : s.queue c st q.eng = []) (hfree : s.queue c st 8 = []) (haudit : (s.stream c st).audit = false)
    (hcount : q.count ≤ s.tokenSeen c st q) :
    ∃ u : State, exec (.twt c st) s = .next u.settle ∧ (u.stream c st).ordinal = (s.stream c st).ordinal + 1
      ∧ u.tokenSeen c st q = s.tokenSeen c st q - q.count
      ∧ RegsBut s u [regAddr .seqStream c st] ∧ u = { s with csr := u.csr, clus := u.clus } := by
  have hready : ∀ t, s.StreamMoves c st t → t.headReady c st q = true := fun t ht =>
    (State.headReady_twt_iff hcls (ht.audit.trans haudit)).mpr (by rwa [ht.tokenSeen])
  obtain ⟨t, u, hexec, hmoves, hordinal, -, hm, hx, hregs, hframe⟩ := exec_issue_shown (i := .twt c st)
    (by rw [hcls, exec_twt, execTwt, whenLive_live _ _ hlive]) hnext hempty hfree (by omega) hready
    (fun t => State.queue_congr (by rw [State.runIns_twt hcls, t.runTwt_stream c st q]) _)
  rw [State.runIns_twt hcls] at hm hx hregs hframe
  have hran := t.runTwt_stream c st q
  obtain ⟨hseen, -, hrun⟩ := State.runTwt_spec (q := q) (hmoves.audit.trans haudit)
  generalize t.runTwt c st q = b at *
  have hstream := State.stream_of_csr hframe c st
  have htokens : b.sMould c st = t.sMould c st ∧ b.sCtx c st = t.sCtx c st := by
    rw [hrun]
    exact ⟨rfl, rfl⟩
  refine ⟨u, hexec, by rw [hstream, hran, hordinal], ?_, ?_, ?_⟩
  · rw [State.tokenSeen_congr hm hx (by rw [hframe]; rfl) (by rw [hstream]), hseen, hmoves.tokenSeen]
  · refine (hmoves.regsBut _).trans (RegsBut.trans ?_ hregs)
    rw [hrun]
    exact RegsBut.refl _ _
  · rw [hframe, hrun, hmoves.frame]

theorem exec_mov_issues (hlive : s.live = true) (hnext : s.nextIns c st = some (q, n)) (hcls : q.cls = 5)
    (hempty : s.queue c st q.eng = []) (hfree : s.queue c st 8 = []) :
    ∃ u : State, exec (.mov c st) s = .next u.settle ∧ (u.stream c st).ordinal = (s.stream c st).ordinal + 1
      ∧ (Tab.get [] (u.clu c).ladle (ctxKey (s.sMould c st) (s.sCtx c st))).map (fun v => (v.kind, v.len, v.begun))
        = (Tab.get [] (s.clu c).ladle (ctxKey (s.sMould c st) (s.sCtx c st))).map (fun v => (v.kind, v.len, v.begun))
          ++ [(bitsOf q.w0 16 4, bitsOf q.w0 32 32, false)]
      ∧ RegsBut s u [regAddr .seqStream c st] ∧ u = { s with csr := u.csr, clus := u.clus, fab := u.fab } := by
  obtain ⟨t, u, hexec, hmoves, hordinal, -, -, -, hregs, hframe⟩ := exec_issue_shown (i := .mov c st)
    (by rw [hcls, exec_mov, execMov, whenLive_live _ _ hlive]) hnext hempty hfree (by omega)
    (fun t _ => State.headReady_at_once (by simp [hcls]))
    (fun t => State.queue_congr (by rw [State.runIns_mov hcls, (t.queueMov_spec c st q).2.1]) _)
  rw [State.runIns_mov hcls] at hregs hframe
  obtain ⟨hladle, hran, hrun⟩ := t.queueMov_spec c st q
  generalize t.queueMov c st q = b at *
  have hstream := State.stream_of_csr hframe c st
  refine ⟨u, hexec, by rw [hstream, hran, hordinal], ?_, ?_, ?_⟩
  · rw [hmoves.sMould, hmoves.sCtx, hmoves.cluster] at hladle
    rw [← hladle, hframe]
    rfl
  · refine (hmoves.regsBut _).trans (RegsBut.trans ?_ hregs)
    rw [hrun]
    exact RegsBut.refl _ _
  · rw [hframe, hrun, hmoves.frame]

theorem exec_chn_issues (hlive : s.live = true) (hnext : s.nextIns c st = some (q, n)) (hcls : q.cls = 4)
    (hempty : s.queue c st q.eng = []) (hfree : s.queue c st 8 = []) :
    ∃ u : State, exec (.chn c st) s = .next u.settle ∧ (u.stream c st).ordinal = (s.stream c st).ordinal + 1
      ∧ (u.array c q.eng).binding.map (fun b => (b.chain, b.param0, b.strDone)) = some (bitsOf q.w0 16 6, bitsOf q.w0 32 32, false)
      ∧ RegsBut s u [regAddr .seqStream c st] ∧ u = { s with csr := u.csr, clus := u.clus } := by
  obtain ⟨t, u, hexec, hmoves, hordinal, -, -, -, hregs, hframe⟩ := exec_issue_shown (i := .chn c st)
    (by rw [hcls, exec_chn, execChn, whenLive_live _ _ hlive]) hnext hempty hfree (by omega)
    (fun t _ => State.headReady_at_once (by simp [hcls]))
    (fun t => State.queue_congr (by rw [State.runIns_chn hcls, (t.runChn_spec c st q).2.1]) _)
  rw [State.runIns_chn hcls] at hregs hframe
  obtain ⟨hbinding, hran, hrun⟩ := t.runChn_spec c st q
  generalize t.runChn c q = b at *
  have hstream := State.stream_of_csr hframe c st
  refine ⟨u, hexec, by rw [hstream, hran, hordinal], ?_, ?_, ?_⟩
  · rw [← hbinding, hframe]
    rfl
  · refine (hmoves.regsBut _).trans (RegsBut.trans ?_ hregs)
    rw [hrun]
    exact RegsBut.refl _ _
  · rw [hframe, hrun, hmoves.frame]

/-- An RPT is executed by the stream as it issues it: its body begins at the next word (R186). -/
theorem exec_rpt_issues (hlive : s.live = true) (hnext : s.nextIns c st = some (q, n)) (hcls : q.cls = 9) (hfree : s.queue c st 8 = []) :
    ∃ u : State, exec (.rpt c st) s = .next u.settle ∧ (u.stream c st).ordinal = (s.stream c st).ordinal + 1
      ∧ ((u.stream c st).rpts.getLast?).map (fun r => (r.start, r.body, r.count, r.iter))
        = some ((u.stream c st).pc, bitsOf q.w0 32 16, bitsOf q.w0 16 16 + 1, 0)
      ∧ u = { s with clus := u.clus } := by
  have hmay : ¬ (q.cls ≠ 9 || !(s.queue c st 8).isEmpty) = true := by
    rw [hcls, hfree]
    simp
  have hordinal := (s.advance_spec c st n).1
  generalize hopened : (s.advance c st n).stream c st = v at hordinal
  refine ⟨(s.advance c st n).setStream c st { v with
    rpts := v.rpts ++ [⟨v.pc, bitsOf q.w0 32 16, bitsOf q.w0 16 16 + 1, 0, bitsOf q.w0 64 32, bitsOf q.w0 96 32⟩] }, ?_, ?_, ?_, rfl⟩
  · rw [exec_rpt, execRpt, whenLive_live _ _ hlive, hnext, ← hopened]
    dsimp only
    rw [if_neg hmay]
  · rw [State.stream_setStream_same]
    exact hordinal
  · rw [State.stream_setStream_same, List.getLast?_concat]
    rfl

theorem exec_endSeg_issues (hlive : s.live = true) (hnext : s.nextIns c st = some (q, n)) (hcls : q.cls = 15) (hfree : s.queue c st 8 = []) :
    ∃ u : State, exec (.endSeg c st) s = .next u.settle ∧ (u.stream c st).ending = true
      ∧ RegsBut s u [regAddr .seqStream c st] ∧ u = { s with csr := u.csr, clus := u.clus } := by
  have hmay : ¬ (q.cls ≠ 15 || !(s.queue c st 8).isEmpty) = true := by
    rw [hcls, hfree]
    simp
  have hexec : exec (.endSeg c st) s = .next (((s.advance c st n).setStream c st
      { (s.advance c st n).stream c st with ending := true }).showStream c st).settle := by
    rw [exec_endSeg, execEndSeg, whenLive_live _ _ hlive, hnext]
    dsimp only
    rw [if_neg hmay]
  obtain ⟨-, -, hregs, hframe⟩ := State.showStream_spec
    ((s.advance c st n).setStream c st { (s.advance c st n).stream c st with ending := true }) c st
  refine ⟨_, hexec, ?_, hregs, ?_⟩
  · rw [State.stream_of_csr hframe, State.stream_setStream_same]
  · rw [hframe]
    rfl

/-- Settles O14: each clause is the lemma on what its instruction does as it is issued. -/
theorem instructionsOfTheSequencer : Obligations.InstructionsOfTheSequencer :=
  ⟨fun _ _ _ _ _ h _ _ => exec_nop_issues h, fun _ _ _ _ _ h _ _ => exec_tps_issues h, fun _ _ _ _ _ h _ _ => exec_twt_issues h,
    fun _ _ _ _ _ h _ _ => exec_mov_issues h, fun _ _ _ _ _ h _ _ hnext hcls _ => exec_chn_issues h hnext hcls,
    fun _ _ _ _ _ h _ _ => exec_rpt_issues h, fun _ _ _ _ _ h _ _ => exec_endSeg_issues h⟩

end Sys2Proof.Machine
end

section
/-! Commands that core 0 takes: the body's check, and an answer after registers and clusters changed (R485). -/
namespace Sys2Proof.Machine

variable {s t : State} {code : Nat} {r : MReq} {rest : List MReq}

/-- A row's command with no further condition runs its meaning once core 0 has taken it. -/
theorem takeCmd_serves (h : s.serves code r rest) (k : MReq → State → State) :
    s.takeCmd code (fun _ => true) k = .next (k r (s.taken rest)).settle := by
  obtain ⟨hlive, hup, hwaiting, hcode, -⟩ := h
  exact takeCmd_takes s _ _ _ r rest hlive hup hwaiting hcode rfl

theorem State.bodyOk_pos {ok : Bool} (h : ok = true) (k : State → State) : s.bodyOk r ok k = k s := if_pos h

/-- The answer of a command that changed at most registers and clusters. -/
theorem State.answeredAs_of_changed (h : s.serves code r rest) (ht : t = { s.taken rest with csr := t.csr, clus := t.clus }) (status : Nat) :
    s.answeredAs (t.answer r status) r rest status 0 []
      ∧ (t.answer r status).csr = t.csr ∧ (∀ d, (t.answer r status).clu d = t.clu d)
      ∧ t.answer r status = { s with
          csr := (t.answer r status).csr, clus := (t.answer r status).clus
          mgmt := (t.answer r status).mgmt, out := (t.answer r status).out } := by
  obtain ⟨-, -, -, -, hsess⟩ := h
  have hmgmt : t.mgmt = { s.mgmt with waiting := rest, stepped := false, hbCmds := s.mgmt.hbCmds + 1 } := by
    rw [ht]
    rfl
  obtain ⟨hanswer, hframe⟩ := State.answer_spec (s := t) (r := r) (by rw [State.session, hmgmt]; exact hsess) status 0 []
  generalize t.answer r status = u at *
  refine ⟨⟨hanswer, ?_⟩, ?_, fun d => ?_, ?_⟩
  · rw [hframe, hmgmt]
  · rw [hframe]
  · rw [hframe]
    rfl
  · rw [hframe, ht]
    rfl

/-- The answer of a command that replaced one cluster. -/
theorem State.answer_setClu (h : s.serves code r rest) (c : Nat) (v : ClusterSt) :
    s.answeredAs (((s.taken rest).setClu c v).answer r 0) r rest 0 0 [] ∧ (((s.taken rest).setClu c v).answer r 0).clu c = v
      ∧ (∀ d, d ≠ c → (((s.taken rest).setClu c v).answer r 0).clu d = s.clu d)
      ∧ ((s.taken rest).setClu c v).answer r 0 = { s with
          clus := (((s.taken rest).setClu c v).answer r 0).clus, mgmt := (((s.taken rest).setClu c v).answer r 0).mgmt
          out := (((s.taken rest).setClu c v).answer r 0).out } := by
  obtain ⟨hanswered, hcsr, hclu, hframe⟩ := State.answeredAs_of_changed (t := (s.taken rest).setClu c v) h rfl 0
  generalize ((s.taken rest).setClu c v).answer r 0 = u at *
  refine ⟨hanswered, ?_, fun d hd => ?_, ?_⟩
  · rw [hclu, State.clu_setClu, if_pos rfl]
  · rw [hclu, State.clu_setClu, if_neg hd]
    rfl
  · rw [hframe, hcsr]
    rfl

theorem State.reg_of_csr {s u : State} (h : u.csr = s.csr) (n : RegName) (i j : Nat) : u.reg n i j = s.reg n i j := by
  rw [State.reg, State.reg, h]

theorem State.rd_of_csr {s u : State} (h : u.csr = s.csr) (f : Field) (i j : Nat) : u.rd f i j = s.rd f i j := by
  rw [State.rd, State.rd, State.reg_of_csr h]

/-- A cluster whose table is replaced, and every other one. -/
theorem State.clu_setSeng (s : State) (c e : Nat) (v : SeSt) :
    (s.setSeng c e v).clu c = { s.clu c with se := Tab.set SeSt.init (s.clu c).se e v } :=
  (State.clu_setClu ..).trans (if_pos rfl)

theorem State.clu_setSeng_ne (s : State) {c d : Nat} (e : Nat) (v : SeSt) (h : d ≠ c) : (s.setSeng c e v).clu d = s.clu d :=
  (State.clu_setClu ..).trans (if_neg h)

theorem State.clu_setThread (s : State) (c t : Nat) (v : ThreadSt) :
    (s.setThread c t v).clu c = { s.clu c with threads := Tab.set ThreadSt.init (s.clu c).threads t v } :=
  (State.clu_setClu ..).trans (if_pos rfl)

end Sys2Proof.Machine
end

section
/-! Loads and unloads of lists and signal-engine programs by command (R191, R192, R426, R429). -/
namespace Sys2Proof.Machine

variable {s : State} {r : MReq} {rest : List MReq} {c m : Nat}

/-- The load of a list whose header lies on the cluster joins those that wait (R191). -/
theorem State.listLoad_spec (s : State) (x : Nat) {a : Nat} (asker : Asker) (h : s.onCluster m c a 64 1 = true) :
    (s.listLoad c m x a asker).clu c = { s.clu c with loads := (s.clu c).loads
        ++ [⟨m, x, a, 0, listIdOf (s.readMem m a 64), cdiv (leAt (s.readMem m a 64) 0xC 4) 8192, asker⟩] }
      ∧ (∀ d, d ≠ c → (s.listLoad c m x a asker).clu d = s.clu d)
      ∧ s.listLoad c m x a asker = { s with clus := (s.listLoad c m x a asker).clus } := by
  refine ⟨?_, fun d hd => ?_, rfl⟩
  · unfold State.listLoad
    rw [if_pos h, State.clu_setClu, if_pos rfl]
  · unfold State.listLoad
    rw [State.clu_setClu, if_neg hd]

theorem exec_listLoad_waits {x a : Nat} (h : s.serves 0x0016 r rest) (hlen : r.body.length = 16) (hm : m = leAt r.body 0 1)
    (hx : x = leAt r.body 1 1) (hc : c = leAt r.body 2 1) (hzero : allZero (slice r.body 3 5) = true) (ha : a = leAt r.body 8 8 % 2 ^ 48)
    (hmould : m < 64) (hcluster : s.enabled c = true) (hctx : s.ctxCount m = 0 ∨ x < s.ctxCount m) (hon : s.onCluster m c a 64 1 = true) :
    ∃ u : State, exec .listLoad s = .next u.settle ∧ u.clu c = { s.clu c with loads := (s.clu c).loads
        ++ [⟨m, x, a, 0, listIdOf (s.readMem m a 64), cdiv (leAt (s.readMem m a 64) 0xC 4) 8192, .mgmt r.sess r.reqId r.port⟩] }
      ∧ (∀ d, d ≠ c → u.clu d = s.clu d)
      ∧ u = { s with clus := u.clus, mgmt := { s.mgmt with waiting := rest, stepped := false, hbCmds := s.mgmt.hbCmds + 1 } } := by
  have hbody : (r.body.length == 16 && m < 64 && (s.taken rest).enabled c && allZero (slice r.body 3 5)) = true := by
    rw [hlen, hzero, show (s.taken rest).enabled c = true from hcluster]
    simpa using hmould
  have hrange : ¬ ((s.taken rest).ctxCount m ≠ 0 && (s.taken rest).ctxCount m ≤ x) = true := by
    rw [show (s.taken rest).ctxCount m = s.ctxCount m from rfl]
    simp only [Bool.and_eq_true, decide_eq_true_eq]
    omega
  have hexec : exec .listLoad s = .next ((s.taken rest).listLoad c m x a (.mgmt r.sess r.reqId r.port)).settle := by
    rw [exec_listLoad, execListLoad, takeCmd_serves h]
    dsimp only
    rw [← hm, ← hx, ← hc, ← ha, State.bodyOk_pos hbody, if_neg hrange]
  exact ⟨_, hexec, (s.taken rest).listLoad_spec x _ hon⟩

/-- An unload answers 0 only where it removes the list, and else changes nothing (R192). -/
theorem State.listUnload_cases (s : State) (c m id : Nat) :
    (s.listUnload c m id).1 ≠ 0 ∧ (s.listUnload c m id).2 = s
      ∨ s.listUnload c m id = (0, s.setClu c { s.clu c with lists := (s.clu c).lists.filter (fun l => !(l.mould = m && l.id = id)) }) := by
  have hbusy : E.listBusy ≠ 0 := by decide
  have hgone : E.segListGone ≠ 0 := by decide
  unfold State.listUnload
  dsimp only
  split
  · exact .inl ⟨hbusy, rfl⟩
  · split
    · exact .inl ⟨hgone, rfl⟩
    · split
      · exact .inl ⟨hbusy, rfl⟩
      · exact .inr rfl

/-- Whether a list may be unloaded does not depend on the commands that wait. -/
theorem State.listUnload_taken (s : State) (rest : List MReq) (c m id : Nat) :
    ((s.taken rest).listUnload c m id).1 = (s.listUnload c m id).1 := by
  simp only [State.listUnload, apply_ite Prod.fst]
  rfl

theorem State.listUnload_of_zero {id : Nat} (h : (s.listUnload c m id).1 = 0) :
    s.listUnload c m id = (0, s.setClu c { s.clu c with lists := (s.clu c).lists.filter (fun l => !(l.mould = m && l.id = id)) }) :=
  (s.listUnload_cases c m id).resolve_left fun hcode => hcode.1 h

/-- A list that was filtered out is not resident. -/
theorem State.resident_of_filtered {u : State} {id : Nat} {l : List ResList}
    (h : (u.clu c).lists = l.filter (fun l => !(l.mould = m && l.id = id))) : u.resident c m id = none := by
  rw [State.resident, h, List.find?_eq_none]
  intro e he
  have hother := (List.mem_filter.mp he).2
  rwa [Bool.not_eq_true', ← Bool.not_eq_true] at hother

theorem exec_listUnload_removes {id : Nat} (h : s.serves 0x0017 r rest) (hlen : r.body.length = 8) (hm : m = leAt r.body 0 1)
    (hc : c = leAt r.body 1 1) (hzero : leAt r.body 2 2 = 0) (hid : id = leAt r.body 4 4) (hmould : m < 64)
    (hcluster : s.enabled c = true) (hunload : (s.listUnload c m id).1 = 0) :
    ∃ u : State, exec .listUnload s = .next u.settle ∧ s.answeredAs u r rest 0 0 [] ∧ u.resident c m id = none
      ∧ u.clu c = { s.clu c with lists := (s.clu c).lists.filter (fun l => !(l.mould = m && l.id = id)) }
      ∧ (∀ d, d ≠ c → u.clu d = s.clu d) ∧ u = { s with clus := u.clus, mgmt := u.mgmt, out := u.out } := by
  have hbody : (r.body.length == 8 && m < 64 && (s.taken rest).enabled c && leAt r.body 2 2 == 0) = true := by
    rw [hlen, hzero, show (s.taken rest).enabled c = true from hcluster]
    simpa using hmould
  have hremoved := State.listUnload_of_zero ((s.listUnload_taken rest c m id).trans hunload)
  have hexec : exec .listUnload s = .next (((s.taken rest).setClu c { (s.taken rest).clu c with
      lists := ((s.taken rest).clu c).lists.filter (fun l => !(l.mould = m && l.id = id)) }).answer r 0).settle := by
    rw [exec_listUnload, execListUnload, takeCmd_serves h]
    dsimp only
    rw [← hm, ← hc, ← hid, State.bodyOk_pos hbody, hremoved]
  obtain ⟨hanswered, hclu, hothers, hframe⟩ := State.answer_setClu h c { (s.taken rest).clu c with
    lists := ((s.taken rest).clu c).lists.filter (fun l => !(l.mould = m && l.id = id)) }
  exact ⟨_, hexec, hanswered, State.resident_of_filtered (congrArg ClusterSt.lists hclu), hclu, hothers, hframe⟩

/-- A program load joins those of the lowest engine it names (R426). -/
theorem State.seLoadAsk_of_engine {mask e : Nat} {es : List Nat} (h : maskEngines mask = e :: es) (s : State) (c m x addr : Nat) (asker : Asker) :
    s.seLoadAsk c m x mask addr asker
      = s.setSeng c e { s.seng c e with loads := (s.seng c e).loads ++ [⟨m, x, addr, mask, 0, 0, asker⟩] } := by
  rw [State.seLoadAsk, h]

theorem exec_seLoad_waits {k e : Nat} {es : List Nat} (h : s.serves 0x0018 r rest) (hlen : r.body.length = 16) (hm : m = leAt r.body 0 1)
    (hc : c = leAt r.body 1 1) (hk : k = leAt r.body 2 1) (hzero : allZero (slice r.body 3 5) = true) (hmould : m < 64)
    (hcluster : s.enabled c = true) (hlow : 0 < k) (hhigh : k < 4) (hengines : maskEngines k = e :: es) :
    ∃ u : State, exec .seLoad s = .next u.settle ∧ u.seng c e = { s.seng c e with loads := (s.seng c e).loads
        ++ [⟨m, 0, leAt r.body 8 8 % 2 ^ 48, k, 0, 0, .mgmt r.sess r.reqId r.port⟩] }
      ∧ u.clu c = { s.clu c with se := (u.clu c).se } ∧ (∀ d, d ≠ c → u.clu d = s.clu d)
      ∧ u = { s with clus := u.clus, mgmt := { s.mgmt with waiting := rest, stepped := false, hbCmds := s.mgmt.hbCmds + 1 } } := by
  have hbody : (r.body.length == 16 && m < 64 && (s.taken rest).enabled c && 0 < k && k < 4 && allZero (slice r.body 3 5)) = true := by
    rw [hlen, hzero, show (s.taken rest).enabled c = true from hcluster]
    simpa using ⟨⟨hmould, hlow⟩, hhigh⟩
  have hexec : exec .seLoad s = .next ((s.taken rest).setSeng c e { s.seng c e with loads := (s.seng c e).loads
        ++ [⟨m, 0, leAt r.body 8 8 % 2 ^ 48, k, 0, 0, .mgmt r.sess r.reqId r.port⟩] }).settle := by
    rw [exec_seLoad, execSeLoad, takeCmd_serves h]
    dsimp only
    rw [← hm, ← hc, ← hk, State.bodyOk_pos hbody, State.seLoadAsk_of_engine hengines]
    rfl
  refine ⟨_, hexec, State.seng_setSeng_same .., ?_, fun d hd => State.clu_setSeng_ne _ _ _ hd, rfl⟩
  rw [State.clu_setSeng]
  rfl

theorem exec_seUnload_removes {e id : Nat} (h : s.serves 0x0019 r rest) (hlen : r.body.length = 8) (hm : m = leAt r.body 0 1)
    (hc : c = leAt r.body 1 1) (he : e = leAt r.body 2 1) (hzero : leAt r.body 3 1 = 0) (hid : id = leAt r.body 4 4) (hmould : m < 64)
    (hcluster : s.enabled c = true) (hengine : e = 4 ∨ e = 5) (hthere : (s.seng c e).progs.any (fun p => p.mould = m && p.id = id) = true)
    (hunused : (List.range 4).any (fun st => (s.stream c st).busy && s.sMould c st = m && bit (s.stream c st).engines (e - 4)) = false) :
    ∃ u : State, exec .seUnload s = .next u.settle ∧ s.answeredAs u r rest 0 0 []
      ∧ u.seng c e = { s.seng c e with progs := (s.seng c e).progs.filter (fun p => !(p.mould = m && p.id = id)) }
      ∧ u.clu c = { s.clu c with se := (u.clu c).se } ∧ (∀ d, d ≠ c → u.clu d = s.clu d)
      ∧ u = { s with clus := u.clus, mgmt := u.mgmt, out := u.out } := by
  have hbody : (r.body.length == 8 && m < 64 && (s.taken rest).enabled c && (e == 4 || e == 5) && leAt r.body 3 1 == 0) = true := by
    rw [hlen, hzero, show (s.taken rest).enabled c = true from hcluster]
    simpa using ⟨hmould, hengine⟩
  have hexec : exec .seUnload s = .next (((s.taken rest).setSeng c e { s.seng c e with
      progs := (s.seng c e).progs.filter (fun p => !(p.mould = m && p.id = id)) }).answer r 0).settle := by
    have hstart : ¬ (!((s.taken rest).seng c e).progs.any (fun p => p.mould = m && p.id = id)) = true := by
      rw [show ((s.taken rest).seng c e).progs.any (fun p => p.mould = m && p.id = id) = true from hthere]
      exact Bool.false_ne_true
    have hrun : ¬ (List.range 4).any (fun st => ((s.taken rest).stream c st).busy && (s.taken rest).sMould c st = m
        && bit ((s.taken rest).stream c st).engines (e - 4)) = true := fun hruns =>
      Bool.false_ne_true (hunused.symm.trans hruns)
    rw [exec_seUnload, execSeUnload, takeCmd_serves h]
    dsimp only
    rw [← hm, ← hc, ← he, ← hid, State.bodyOk_pos hbody, if_neg hstart, if_neg hrun]
    rfl
  obtain ⟨hanswered, hclu, hothers, hframe⟩ := State.answer_setClu h c { s.clu c with
    se := Tab.set SeSt.init (s.clu c).se e { s.seng c e with progs := (s.seng c e).progs.filter (fun p => !(p.mould = m && p.id = id)) } }
  refine ⟨_, hexec, hanswered, ?_, ?_, hothers, hframe⟩
  · exact (congrArg (Tab.get SeSt.init ·.se e) hclu).trans (Tab.get_set_same ..)
  · exact hclu.trans (congrArg (fun k => { s.clu c with se := ClusterSt.se k }) hclu.symm)

end Sys2Proof.Machine
end

section
/-! Threads started and stopped by command (R468, R469). -/
namespace Sys2Proof.Machine

variable {s : State} {r : MReq} {rest : List MReq} {c m x t : Nat}

theorem regAddr_thrStatus (c t : Nat) : regAddr .thrStatus c t = 0x1005000 + 0x100000 * c + 0x10 * t := rfl

theorem regAddr_thrFault (c t : Nat) : regAddr .thrFault c t = 0x1005008 + 0x100000 * c + 0x10 * t := rfl

theorem regAddr_thrStatus_ne_thrFault (c t : Nat) : regAddr .thrStatus c t ≠ regAddr .thrFault c t := by
  rw [regAddr_thrStatus, regAddr_thrFault]
  omega

theorem State.regsBut_setReg (s : State) (r : RegName) (i j v : Nat) : RegsBut s (s.setReg r i j v) [regAddr r i j] :=
  fun _ ha => State.setReg_find s r i j v (List.ne_of_not_mem_cons ha)

/-- THR_STATUS of a thread that is bound READY to a context, its remote operations still counted (R468). -/
def State.boundShown (s : State) (c m x t : Nat) (cf : Bool) : State :=
  ((((((s.setReg .thrStatus c t 0).wr F.thrStatus_remoteOut (s.rd F.thrStatus_remoteOut c t) c t).wr F.thrStatus_state 1 c t).wr
    F.thrStatus_mould m c t).wr F.thrStatus_ctx x c t).setFlag F.thrStatus_ctxFault cf c t).setReg .thrFault c t 0

theorem State.boundShown_spec (s : State) (c x t : Nat) (cf : Bool) (hm : m < 64) :
    (s.boundShown c m x t cf).thrState c t = 1 ∧ (s.boundShown c m x t cf).tMould c t = m ∧ (s.boundShown c m x t cf).tCtx c t = x % 16
      ∧ (s.boundShown c m x t cf).flag F.thrStatus_ctxFault c t = cf ∧ (s.boundShown c m x t cf).reg .thrFault c t = 0
      ∧ RegsBut s (s.boundShown c m x t cf) [regAddr .thrStatus c t, regAddr .thrFault c t]
      ∧ s.boundShown c m x t cf = { s with csr := (s.boundShown c m x t cf).csr } := by
  have hlast : ∀ f : Field, f.reg = .thrStatus → (s.boundShown c m x t cf).rd f c t
      = ((((((s.setReg .thrStatus c t 0).wr F.thrStatus_remoteOut (s.rd F.thrStatus_remoteOut c t) c t).wr F.thrStatus_state 1 c t).wr
        F.thrStatus_mould m c t).wr F.thrStatus_ctx x c t).wr F.thrStatus_ctxFault (ofBool cf) c t).rd f c t := fun f hf =>
    State.rd_setReg_ne _ 0 (hf ▸ regAddr_thrStatus_ne_thrFault c t)
  have hflag : ∀ (u : State) (g : Field) (v : Nat), g.reg = .thrStatus → g.lo + g.width ≤ 13 →
      (u.wr F.thrStatus_ctxFault v c t).rd g c t = u.rd g c t := fun u g v hg hlow =>
    State.rd_wr_beside u v c t hg (by unfold Field.fits; omega) (.inl hlow)
  refine ⟨?_, ?_, ?_, ?_, ?_, ?_, rfl⟩
  · rw [State.thrState, hlast _ rfl, hflag _ _ _ rfl (by decide),
      State.rd_wr_beside _ (f := F.thrStatus_ctx) (g := F.thrStatus_state) _ _ _ rfl (by decide) (.inl (by decide)),
      State.rd_wr_beside _ (f := F.thrStatus_mould) (g := F.thrStatus_state) _ _ _ rfl (by decide) (.inl (by decide)),
      State.rd_wr_same _ _ _ _ _ (by decide)]
    rfl
  · rw [State.tMould, hlast _ rfl, hflag _ _ _ rfl (by decide),
      State.rd_wr_beside _ (f := F.thrStatus_ctx) (g := F.thrStatus_mould) _ _ _ rfl (by decide) (.inl (by decide)),
      State.rd_wr_same _ _ _ _ _ (by decide)]
    exact Nat.mod_eq_of_lt hm
  · rw [State.tCtx, hlast _ rfl, hflag _ _ _ rfl (by decide), State.rd_wr_same _ _ _ _ _ (by decide)]
    rfl
  · rw [State.flag, hlast _ rfl, State.rd_wr_same _ _ _ _ _ (by decide)]
    cases cf <;> rfl
  · exact State.reg_setReg_same ..
  · have hstatus : RegsBut s ((((((s.setReg .thrStatus c t 0).wr F.thrStatus_remoteOut (s.rd F.thrStatus_remoteOut c t) c t).wr
        F.thrStatus_state 1 c t).wr F.thrStatus_mould m c t).wr F.thrStatus_ctx x c t).wr F.thrStatus_ctxFault (ofBool cf) c t)
        [regAddr .thrStatus c t] :=
      (((((State.regsBut_setReg s .thrStatus c t 0).trans (State.regsBut_wr _ F.thrStatus_remoteOut _ c t)).trans
        (State.regsBut_wr _ F.thrStatus_state _ c t)).trans (State.regsBut_wr _ F.thrStatus_mould _ c t)).trans
        (State.regsBut_wr _ F.thrStatus_ctx _ c t)).trans (State.regsBut_wr _ F.thrStatus_ctxFault _ c t)
    exact (hstatus.mono (by simp)).trans ((State.regsBut_setReg _ .thrFault c t 0).mono (by simp))

/-- A thread that is bound starts at its entry with its argument in register 1 (R468). -/
def ThreadSt.started (entry arg : Nat) : ThreadSt := ({ ThreadSt.init with pc := entry }).setReg 1 arg

theorem ThreadSt.started_spec (entry : Nat) {arg : Nat} (h : arg < 2 ^ 64) :
    (ThreadSt.started entry arg).pc = entry ∧ (ThreadSt.started entry arg).reg 1 = arg
      ∧ ∀ i, 2 ≤ i → (ThreadSt.started entry arg).reg i = 0 := by
  refine ⟨rfl, ?_, fun i hi => ?_⟩
  · exact (Tab.get_set_same ..).trans (Nat.mod_eq_of_lt h)
  · rw [ThreadSt.reg, if_neg (by omega)]
    exact Tab.get_set_ne _ _ _ _ (by omega)

/-- The start of a FREE thread that the rules allow (R467, R468). -/
theorem State.startThread_free (entry arg : Nat) (cf : Bool) (hthread : s.threadFor c m t = true) (hfree : s.thrState c t = 0)
    (hfault : (s.mould m).faulted.contains x = false) (hlive : s.mouldLive m = true) :
    s.startThread c m x (some t) entry arg cf = (0, t, (s.setThread c t (ThreadSt.started entry arg)).boundShown c m x t cf) := by
  unfold State.startThread
  dsimp only
  rw [if_pos hthread]
  dsimp only
  rw [if_neg (by simp [hfree]), if_neg (hfault ▸ Bool.false_ne_true), if_neg (by simp [hlive])]
  rfl

theorem exec_thrStart_binds (h : s.serves 0x001A r rest) (hlen : r.body.length = 24) (hm : m = leAt r.body 0 1) (hx : x = leAt r.body 1 1)
    (hc : c = leAt r.body 2 1) (ht : t = leAt r.body 3 1) (hflag : leAt r.body 4 1 < 2) (hzero : allZero (slice r.body 5 3) = true)
    (hmould : m < 64) (hcluster : s.enabled c = true) (hctx : x < s.ctxCount m) (hthread : s.threadFor c m t = true)
    (hfree : s.thrState c t = 0) (hfault : (s.mould m).faulted.contains x = false) (hlive : s.mouldLive m = true) :
    ∃ u : State, exec .thrStart s = .next u.settle ∧ s.answeredAs u r rest 0 0 [] ∧ u.thrState c t = 1 ∧ u.tMould c t = m
      ∧ u.tCtx c t = x % 16 ∧ u.flag F.thrStatus_ctxFault c t = (leAt r.body 4 1 == 1) ∧ (u.thread c t).pc = leAt r.body 8 8
      ∧ u.xreg c t 1 = leAt r.body 16 8 ∧ (∀ i, 2 ≤ i → u.xreg c t i = 0) ∧ u.reg .thrFault c t = 0
      ∧ RegsBut s u [regAddr .thrStatus c t, regAddr .thrFault c t] ∧ u.clu c = { s.clu c with threads := (u.clu c).threads }
      ∧ u = { s with csr := u.csr, clus := u.clus, mgmt := u.mgmt, out := u.out } := by
  have hbody : (r.body.length == 24 && m < 64 && (s.taken rest).enabled c && leAt r.body 4 1 < 2 && allZero (slice r.body 5 3)) = true := by
    rw [hlen, hzero, show (s.taken rest).enabled c = true from hcluster]
    simpa using ⟨hmould, Nat.le_of_lt_succ hflag⟩
  have hrange : ¬ ((s.taken rest).ctxCount m ≤ x && (s.taken rest).ctxCount m ≠ 0) = true := by
    rw [show (s.taken rest).ctxCount m = s.ctxCount m from rfl]
    simp only [Bool.and_eq_true, decide_eq_true_eq]
    omega
  have hlow : t < 16 := by
    unfold State.threadFor at hthread
    rw [Bool.and_eq_true, decide_eq_true_eq] at hthread
    exact hthread.1
  have hexec : exec .thrStart s = .next ((((s.taken rest).setThread c t (ThreadSt.started (leAt r.body 8 8) (leAt r.body 16 8))).boundShown
      c m x t (leAt r.body 4 1 == 1)).answer r 0).settle := by
    rw [exec_thrStart, execThrStart, takeCmd_serves h]
    dsimp only
    rw [← hm, ← hx, ← hc, ← ht, State.bodyOk_pos hbody, if_neg hrange, if_neg (by omega),
      State.startThread_free (s := s.taken rest) _ _ _ hthread hfree hfault hlive]
  refine ⟨_, hexec, ?_⟩
  obtain ⟨hstate, hbound, hboundCtx, hctxFault, hclear, hregs, hshown⟩ := State.boundShown_spec
    ((s.taken rest).setThread c t (ThreadSt.started (leAt r.body 8 8) (leAt r.body 16 8))) c x t (leAt r.body 4 1 == 1) hmould
  generalize State.boundShown _ c m x t (leAt r.body 4 1 == 1) = b at *
  have hclu : b.clu c = { s.clu c with
      threads := Tab.set ThreadSt.init (s.clu c).threads t (ThreadSt.started (leAt r.body 8 8) (leAt r.body 16 8)) } := by
    rw [hshown]
    exact State.clu_setThread ..
  have hthreadAt : b.thread c t = ThreadSt.started (leAt r.body 8 8) (leAt r.body 16 8) := by
    rw [State.thread, hclu]
    exact Tab.get_set_same ..
  obtain ⟨hpc, harg, hrest⟩ := ThreadSt.started_spec (leAt r.body 8 8) (leAt_lt r.body 16 8)
  rw [← hthreadAt] at hpc harg hrest
  obtain ⟨hanswered, hcsr, hclus, hframe⟩ := State.answeredAs_of_changed (t := b) h (by rw [hshown]; rfl) 0
  generalize b.answer r 0 = u at *
  have hrd := fun f => State.rd_of_csr hcsr f c t
  have huthread : u.thread c t = b.thread c t := by rw [State.thread, State.thread, hclus]
  refine ⟨hanswered, (hrd _).trans hstate, (hrd _).trans hbound, (hrd _).trans hboundCtx, ?_, huthread ▸ hpc, ?_, ?_,
    (State.reg_of_csr hcsr _ _ _).trans hclear, ?_, ?_, hframe⟩
  · rw [← hctxFault, State.flag, State.flag, hrd]
  · rw [State.xreg, huthread, harg]
  · intro i hi
    rw [State.xreg, huthread, hrest i hi]
  · intro a ha
    rw [hcsr]
    exact hregs a ha
  · rw [hclus, hclu]

/-- THR_STOP frees a thread: only the count of its remote operations stays in THR_STATUS (R469). -/
theorem State.freeThread_spec (s : State) (c t : Nat) :
    (s.freeThread c t).thrState c t = 0 ∧ (s.freeThread c t).thread c t = ThreadSt.init
      ∧ (s.freeThread c t).rd F.thrStatus_remoteOut c t = s.rd F.thrStatus_remoteOut c t
      ∧ RegsBut s (s.freeThread c t) [regAddr .thrStatus c t]
      ∧ (s.freeThread c t).clu c = { s.clu c with threads := ((s.freeThread c t).clu c).threads }
      ∧ s.freeThread c t = { s with csr := (s.freeThread c t).csr, clus := (s.freeThread c t).clus } := by
  unfold State.freeThread
  dsimp only
  have hclu := State.clu_setThread s c t ThreadSt.init
  refine ⟨?_, ?_, ?_, ?_, ?_, rfl⟩
  · rw [State.thrState, State.rd_wr_beside _ (f := F.thrStatus_remoteOut) (g := F.thrStatus_state) _ _ _ rfl (by decide) (.inl (by decide)),
      State.rd]
    exact congrArg (bitsOf · 0 3) (State.reg_setReg_same ..)
  · exact State.thread_setThread_same ..
  · rw [State.rd_wr_same _ _ _ _ _ (by decide)]
    exact Nat.mod_mod _ _
  · exact RegsBut.trans (State.regsBut_setReg (s.setThread c t ThreadSt.init) .thrStatus c t 0) (State.regsBut_wr _ F.thrStatus_remoteOut _ c t)
  · exact hclu.trans (congrArg (fun k => { s.clu c with threads := ClusterSt.threads k }) hclu.symm)

theorem exec_thrStop_frees (h : s.serves 0x001B r rest) (hlen : r.body.length = 2) (hc : c = leAt r.body 0 1) (ht : t = leAt r.body 1 1)
    (hcluster : s.enabled c = true) (hlow : t < 16) (hbound : s.thrState c t ≠ 0) :
    ∃ u : State, exec .thrStop s = .next u.settle ∧ s.answeredAs u r rest 0 0 [] ∧ u.thrState c t = 0 ∧ u.thread c t = ThreadSt.init
      ∧ u.rd F.thrStatus_remoteOut c t = s.rd F.thrStatus_remoteOut c t ∧ RegsBut s u [regAddr .thrStatus c t]
      ∧ u.clu c = { s.clu c with threads := (u.clu c).threads } ∧ u = { s with csr := u.csr, clus := u.clus, mgmt := u.mgmt, out := u.out } := by
  have hbody : (r.body.length == 2 && (s.taken rest).enabled c) = true := by
    rw [hlen, show (s.taken rest).enabled c = true from hcluster]
    rfl
  have hexec : exec .thrStop s = .next (((s.taken rest).freeThread c t).answer r 0).settle := by
    rw [exec_thrStop, execThrStop, takeCmd_serves h]
    dsimp only
    rw [← hc, ← ht, State.bodyOk_pos hbody, if_neg (by omega), if_neg (show ¬ (s.taken rest).thrState c t = 0 from hbound)]
  refine ⟨_, hexec, ?_⟩
  obtain ⟨hstate, hthread, hout, hregs, hclu, hfreed⟩ := (s.taken rest).freeThread_spec c t
  generalize (s.taken rest).freeThread c t = b at *
  obtain ⟨hanswered, hcsr, hclus, hframe⟩ := State.answeredAs_of_changed (t := b) h hfreed 0
  generalize b.answer r 0 = u at *
  have hrd := fun f => State.rd_of_csr hcsr f c t
  refine ⟨hanswered, (hrd _).trans hstate, ?_, (hrd _).trans hout, ?_, ?_, hframe⟩
  · rw [State.thread, hclus]
    exact hthread
  · intro a ha
    rw [hcsr]
    exact hregs a ha
  · rw [hclus]
    exact hclu

/-- Settles O21: each clause is the lemma on what its command does. -/
theorem loadsAndThreadsByCommand : Obligations.LoadsAndThreadsByCommand :=
  ⟨fun _ _ _ _ _ _ _ => exec_listLoad_waits, fun _ _ _ _ _ _ => exec_listUnload_removes, fun _ _ _ _ _ _ _ _ => exec_seLoad_waits,
    fun _ _ _ _ _ _ _ => exec_seUnload_removes, fun _ _ _ _ _ _ _ => exec_thrStart_binds, fun _ _ _ _ _ => exec_thrStop_frees⟩

end Sys2Proof.Machine
end

section
/-! How a thread's system instruction ends: it retires, with a code in ST or without, or the thread is switched out
(R471, R473). -/
namespace Sys2Proof.Machine

theorem Tab.del_put_same {α : Type} (t : Tab α) (k : Nat) (v : α) : Tab.del (Tab.put t k v) k = Tab.del t k := by
  induction t with
  | nil => simp [Tab.put, Tab.del]
  | cons e r ih =>
    by_cases hk : e.1 = k
    · simp [Tab.put, Tab.del, hk]
    · by_cases hlt : k < e.1 <;> simp [Tab.put, Tab.del, hk, hlt, ih]

theorem Tab.put_put_same {α : Type} (t : Tab α) (k : Nat) (v w : α) : Tab.put (Tab.put t k v) k w = Tab.put t k w := by
  induction t with
  | nil => simp [Tab.put]
  | cons e r ih =>
    by_cases hk : e.1 = k
    · simp [Tab.put, hk]
    · by_cases hlt : k < e.1 <;> simp [Tab.put, hk, hlt, ih]

/-- The second of two writes at a key stands alone, where the first listed the key. -/
theorem Tab.set_set_same {α : Type} [DecidableEq α] {d v : α} (t : Tab α) (k : Nat) (w : α) (h : v ≠ d) :
    Tab.set d (Tab.set d t k v) k w = Tab.set d t k w := by
  unfold Tab.set
  rw [if_neg h, Tab.del_put_same, Tab.put_put_same]

theorem Tab.set_ne_nil {α : Type} [DecidableEq α] {d v : α} (t : Tab α) (k : Nat) (h : v ≠ d) : Tab.set d t k v ≠ [] := by
  intro hnil
  have hfind := Tab.find_put_same t k v
  rw [Tab.set, if_neg h] at hnil
  rw [hnil] at hfind
  cases hfind

/-- The second of two replacements of a thread stands alone, where the first listed the thread. -/
theorem State.setThread_setThread {s : State} {c t : Nat} {v : ThreadSt} (w : ThreadSt) (h : v ≠ ThreadSt.init) :
    (s.setThread c t v).setThread c t w = s.setThread c t w := by
  have hlisted : { s.clu c with threads := Tab.set ThreadSt.init (s.clu c).threads t v } ≠ ClusterSt.init := fun heq =>
    Tab.set_ne_nil _ t h (congrArg ClusterSt.threads heq)
  have hclu := State.clu_setThread s c t v
  calc (s.setThread c t v).setThread c t w
      = (s.setThread c t v).setClu c { s.clu c with threads := Tab.set ThreadSt.init (s.clu c).threads t w } := by
        rw [State.setThread, hclu]
        dsimp only
        rw [Tab.set_set_same _ _ _ h]
    _ = s.setThread c t w :=
        congrArg (fun l => { s with clus := l }) (Tab.set_set_same s.clus c _ hlisted)

variable {s v : State} {c t op mask w : Nat}

/-- A system instruction of a thread runs in the state in which its line is fetched (R470, R471). -/
theorem sysIns_runs (h : s.sysRuns v c t op mask w) (k : Nat → State → State) : s.sysIns c t op mask k = .next (k w v).settle := by
  obtain ⟨hlive, hissue, hword, hclass, hop, hpark, hclear, rfl⟩ := h
  rw [State.sysIns, whenLive_live _ _ hlive, hissue, hword]
  dsimp only
  rw [hpark, State.issued]
  simp [hclass, hop, hclear]

theorem State.retire_eq (s : State) (c t : Nat) (f : ThreadSt → ThreadSt) : s.retire c t f = s.setThread c t (f (s.thread c t)).next := rfl

/-- A thread that has retired an instruction is listed. -/
theorem ThreadSt.next_ne_init (v : ThreadSt) : v.next ≠ ThreadSt.init := fun h => Nat.succ_ne_zero _ (congrArg ThreadSt.quantum h)

/-- A thread that retires an instruction and is switched out. -/
theorem State.retire_switchOut (s : State) (c t : Nat) (f : ThreadSt → ThreadSt) (w : ThrWait) :
    (s.retire c t f).switchOut c t w
      = (s.setThread c t { (f (s.thread c t)).next with wait := w }).wr F.thrStatus_state 3 c t := by
  rw [State.retire_eq, State.switchOut, State.thread_setThread_same, State.setThread_setThread _ (ThreadSt.next_ne_init _)]

/-- A thread's state field after it is written. -/
theorem State.wr_thrState_spec (s : State) (c t n : Nat) :
    (s.wr F.thrStatus_state n c t).thrState c t = n % 8 ∧ RegsBut s (s.wr F.thrStatus_state n c t) [regAddr .thrStatus c t] :=
  ⟨State.rd_wr_same s _ n c t (by decide), State.regsBut_wr s F.thrStatus_state n c t⟩

theorem ThreadSt.bitsOf_code (v : ThreadSt) (e : Nat) : bitsOf (v.code e).st 0 16 = e % 2 ^ 16 := bitsOf_setBits_same ..

end Sys2Proof.Machine
end

section
/-! Fences, tokens, start requests and loads of a thread (R184, R191, R192, R253, R338, R426, R471 to R474). -/
namespace Sys2Proof.Machine

variable {s v : State} {c t w : Nat}

theorem exec_fence_done (h : s.sysRuns v c t 0x07 0 w)
    (hdone : v.fenceDone (v.tMould c t) (v.tCtx c t) (v.fenceSet (v.tMould c t) (v.tCtx c t)) = true) :
    ∃ u : State, exec (.fence c t) s = .next u.settle ∧ bitsOf (u.thread c t).st 0 16 = (v.thread c t).fenceErr % 2 ^ 16
      ∧ u = v.setThread c t { (v.thread c t).next with st := (u.thread c t).st, fenceErr := 0, fence := [], wait := .none } := by
  have hexec : exec (.fence c t) s = .next (v.setThread c t (v.thread c t).fenceEnd.next).settle := by
    rw [exec_fence, execFence, sysIns_runs h]
    dsimp only
    rw [if_pos hdone]
    rfl
  refine ⟨_, hexec, ?_, ?_⟩
  · rw [State.thread_setThread_same]
    exact ThreadSt.bitsOf_code _ _
  · rw [State.thread_setThread_same]
    rfl

theorem exec_fence_waits {l : List (Nat × Nat)} (h : s.sysRuns v c t 0x07 0 w) (hl : l = v.fenceSet (v.tMould c t) (v.tCtx c t))
    (hopen : v.fenceDone (v.tMould c t) (v.tCtx c t) l = false) :
    ∃ u : State, exec (.fence c t) s = .next u.settle ∧ u.thrState c t = 3 ∧ RegsBut v u [regAddr .thrStatus c t]
      ∧ u = { v.setThread c t { (v.thread c t).next with quantum := 1, fence := l, wait := .fence } with csr := u.csr } := by
  have hexec : exec (.fence c t) s = .next ((v.setThread c t
      { (v.thread c t).next with quantum := 1, fence := l, wait := .fence }).wr F.thrStatus_state 3 c t).settle := by
    rw [exec_fence, execFence, sysIns_runs h]
    dsimp only
    rw [← hl, hopen, if_neg Bool.false_ne_true, State.retire_switchOut]
  obtain ⟨hstate, hregs⟩ :=
    (v.setThread c t { (v.thread c t).next with quantum := 1, fence := l, wait := .fence }).wr_thrState_spec c t 3
  exact ⟨_, hexec, hstate, hregs, rfl⟩

theorem exec_fenceComplete_ends (hlive : s.live = true) (hout : s.thrState c t = 3) (hwait : (s.thread c t).wait = .fence)
    (hdone : s.fenceDone (s.tMould c t) (s.tCtx c t) (s.thread c t).fence = true) :
    ∃ u : State, exec (.fenceComplete c t) s = .next u.settle ∧ u.thrState c t = 1
      ∧ bitsOf (u.thread c t).st 0 16 = (s.thread c t).fenceErr % 2 ^ 16 ∧ RegsBut s u [regAddr .thrStatus c t]
      ∧ u = { s.setThread c t { s.thread c t with st := (u.thread c t).st, fenceErr := 0, fence := [], wait := .none } with csr := u.csr } := by
  have hexec : exec (.fenceComplete c t) s = .next ((s.setThread c t (s.thread c t).fenceEnd).wr F.thrStatus_state 1 c t).settle := by
    rw [exec_fenceComplete, execFenceComplete, whenLive_live _ _ hlive]
    dsimp only
    rw [if_neg (by simp [hout, hwait, hdone])]
  obtain ⟨hstate, hregs⟩ := (s.setThread c t (s.thread c t).fenceEnd).wr_thrState_spec c t 1
  have hthread : ((s.setThread c t (s.thread c t).fenceEnd).wr F.thrStatus_state 1 c t).thread c t = (s.thread c t).fenceEnd :=
    State.thread_setThread_same ..
  refine ⟨_, hexec, hstate, ?_, hregs, ?_⟩
  · rw [hthread]
    exact ThreadSt.bitsOf_code _ _
  · rw [hthread]
    rfl

theorem exec_tpost_posts {k n : Nat} (h : s.sysRuns v c t 0x08 6 w) (hk : k = v.xreg c t (sRs1 w) % 32) (hn : n = v.xreg c t (sRs2 w)) :
    ∃ u : State, exec (.tpost c t) s = .next u.settle
      ∧ u.tok c (v.tMould c t) (v.tCtx c t) k = min (v.tok c (v.tMould c t) (v.tCtx c t) k + n) 65535
      ∧ u.thread c t = (v.thread c t).next
      ∧ (v.tok c (v.tMould c t) (v.tCtx c t) k + n ≤ 65535 → u = { v with clus := u.clus })
      ∧ u = { v with csr := u.csr, clus := u.clus, log := u.log } := by
  obtain ⟨htok, hclu, hquiet, -, hframe⟩ := v.post_spec c (v.tMould c t) (v.tCtx c t) k n
  have hexec : exec (.tpost c t) s = .next ((v.post c (v.tMould c t) (v.tCtx c t) k n).setThread c t (v.thread c t).next).settle := by
    have hthread : (v.post c (v.tMould c t) (v.tCtx c t) k n).thread c t = v.thread c t := by
      rw [State.thread, hclu]
      rfl
    rw [exec_tpost, execTpost, sysIns_runs h, ← hk, ← hn, State.retire_eq, hthread, id]
  generalize v.post c (v.tMould c t) (v.tCtx c t) k n = p at *
  refine ⟨_, hexec, ?_, State.thread_setThread_same .., fun hroom => ?_, ?_⟩
  · rw [← htok, State.tok, State.clu_setThread]
    rfl
  · rw [hquiet hroom]
    rfl
  · rw [hframe]
    rfl

theorem exec_twait_takes {k n : Nat} (h : s.sysRuns v c t 0x09 6 w) (hk : k = v.xreg c t (sRs1 w) % 32) (hn : n = v.xreg c t (sRs2 w))
    (hthere : n ≤ v.tok c (v.tMould c t) (v.tCtx c t) k) :
    ∃ u : State, exec (.twait c t) s = .next u.settle
      ∧ u = (v.setTok c (v.tMould c t) (v.tCtx c t) k (v.tok c (v.tMould c t) (v.tCtx c t) k - n)).setThread c t (v.thread c t).next := by
  refine ⟨_, ?_, rfl⟩
  have hthread : (v.setTok c (v.tMould c t) (v.tCtx c t) k (v.tok c (v.tMould c t) (v.tCtx c t) k - n)).thread c t = v.thread c t := by
    rw [State.thread, State.clu_setTok]
    rfl
  rw [exec_twait, execTwait, sysIns_runs h]
  dsimp only
  rw [← hk, ← hn, if_pos hthere, State.retire_eq, hthread, id]

theorem exec_twait_waits {k n : Nat} (h : s.sysRuns v c t 0x09 6 w) (hk : k = v.xreg c t (sRs1 w) % 32) (hn : n = v.xreg c t (sRs2 w))
    (hmissing : v.tok c (v.tMould c t) (v.tCtx c t) k < n) :
    ∃ u : State, exec (.twait c t) s = .next u.settle ∧ u.thrState c t = 3 ∧ RegsBut v u [regAddr .thrStatus c t]
      ∧ u = { v.setThread c t { (v.thread c t).next with quantum := 1, wait := .token k n } with csr := u.csr } := by
  have hexec : exec (.twait c t) s = .next ((v.setThread c t
      { (v.thread c t).next with quantum := 1, wait := .token k n }).wr F.thrStatus_state 3 c t).settle := by
    rw [exec_twait, execTwait, sysIns_runs h]
    dsimp only
    rw [← hk, ← hn, if_neg (by omega), State.retire_switchOut]
  obtain ⟨hstate, hregs⟩ := (v.setThread c t { (v.thread c t).next with quantum := 1, wait := .token k n }).wr_thrState_spec c t 3
  exact ⟨_, hexec, hstate, hregs, rfl⟩

/-- A start request is queued with code 0, or refused with another and nothing changes (R253). -/
theorem State.enqueueStart_cases (s : State) (c m x : Nat) (q : StartReq) :
    (s.enqueueStart c m x q).1 ≠ 0 ∧ (s.enqueueStart c m x q).2 = s
      ∨ s.enqueueStart c m x q = (0, s.setClu c { s.clu c with
          queues := Tab.put (s.clu c).queues (ctxKey m x) (Tab.get [] (s.clu c).queues (ctxKey m x) ++ [q]) }) := by
  have hrefused : ∀ code ∈ [E.mouldState, E.ctxRange, E.ctxQueueFull, E.ctxFaulted, E.segListGone, E.ctxSegment, E.ctxNotClosed, E.mouldKind],
      code ≠ 0 := by decide
  unfold State.enqueueStart
  dsimp only
  iterate 9 (split; · exact .inl ⟨hrefused _ (by simp), rfl⟩)
  exact .inr rfl

/-- An instruction that changed its cluster beside the threads and ends with a code in ST. -/
theorem State.retireCode_spec {v p : State} (hclu : (p.clu c).threads = (v.clu c).threads) (hframe : p = { v with clus := p.clus }) (e : Nat) :
    (p.retireCode c t e).thread c t = ((v.thread c t).code e).next
      ∧ (p.retireCode c t e).clu c = { p.clu c with threads := ((p.retireCode c t e).clu c).threads }
      ∧ p.retireCode c t e = { v with clus := (p.retireCode c t e).clus } := by
  have hthread : p.thread c t = v.thread c t := by rw [State.thread, hclu, State.thread]
  rw [State.retireCode, State.retire_eq, hthread]
  refine ⟨State.thread_setThread_same .., ?_, ?_⟩
  · rw [State.clu_setThread]
  · rw [hframe]
    rfl

theorem State.retireCode_setClu {v : State} {k : ClusterSt} (hk : k.threads = (v.clu c).threads) (e : Nat) :
    ((v.setClu c k).retireCode c t e).thread c t = ((v.thread c t).code e).next
      ∧ ((v.setClu c k).retireCode c t e).clu c = { k with threads := (((v.setClu c k).retireCode c t e).clu c).threads }
      ∧ (v.setClu c k).retireCode c t e = { v with clus := ((v.setClu c k).retireCode c t e).clus } := by
  have hclu : (v.setClu c k).clu c = k := (State.clu_setClu ..).trans (if_pos rfl)
  obtain ⟨hthread, hkept, hframe⟩ := State.retireCode_spec (v := v) (p := v.setClu c k) (c := c) (t := t) (by rw [hclu, hk]) rfl e
  refine ⟨hthread, hkept.trans ?_, hframe⟩
  rw [hclu]

theorem exec_sreq_queues {a b : Nat} {q : StartReq} (h : s.sysRuns v c t 0x0A 6 w) (ha : a = v.xreg c t (sRs1 w)) (hb : b = v.xreg c t (sRs2 w))
    (hq : q = ⟨bitsOf a 0 32, bitsOf a 32 16, bitsOf b 16 5, bit b 21, bitsOf b 0 16⟩) :
    ∃ u : State, exec (.sreq c t) s = .next u.settle
      ∧ u.thread c t = ((v.thread c t).code (v.enqueueStart c (v.tMould c t) (v.tCtx c t) q).1).next
      ∧ ((v.enqueueStart c (v.tMould c t) (v.tCtx c t) q).1 = 0 → Tab.get [] (u.clu c).queues (ctxKey (v.tMould c t) (v.tCtx c t))
        = Tab.get [] (v.clu c).queues (ctxKey (v.tMould c t) (v.tCtx c t)) ++ [q])
      ∧ ((v.enqueueStart c (v.tMould c t) (v.tCtx c t) q).1 ≠ 0 → (u.clu c).queues = (v.clu c).queues)
      ∧ u = { v with clus := u.clus } := by
  have hexec : exec (.sreq c t) s = .next ((v.enqueueStart c (v.tMould c t) (v.tCtx c t) q).2.retireCode c t
      (v.enqueueStart c (v.tMould c t) (v.tCtx c t) q).1).settle := by
    rw [exec_sreq, execSreq, sysIns_runs h]
    dsimp only
    rw [← ha, ← hb, ← hq]
  refine ⟨_, hexec, ?_⟩
  rcases v.enqueueStart_cases c (v.tMould c t) (v.tCtx c t) q with ⟨hcode, hsame⟩ | hqueued
  · rw [hsame]
    obtain ⟨hthread, hclu, hframe⟩ := State.retireCode_spec (v := v) (p := v) (c := c) (t := t) rfl rfl
      (v.enqueueStart c (v.tMould c t) (v.tCtx c t) q).1
    exact ⟨hthread, fun hzero => absurd hzero hcode, fun _ => by rw [hclu], hframe⟩
  · rw [hqueued]
    dsimp only
    obtain ⟨hthread, hclu, hframe⟩ := State.retireCode_setClu (v := v) (c := c) (t := t) (k := { v.clu c with
      queues := Tab.put (v.clu c).queues (ctxKey (v.tMould c t) (v.tCtx c t))
        (Tab.get [] (v.clu c).queues (ctxKey (v.tMould c t) (v.tCtx c t)) ++ [q]) }) rfl 0
    refine ⟨hthread, fun _ => ?_, fun hne => absurd rfl hne, hframe⟩
    rw [hclu, Tab.get, Tab.find_put_same, Option.getD_some]

theorem exec_lunload_removes {id : Nat} (h : s.sysRuns v c t 0x0C 2 w) (hid : id = v.xreg c t (sRs1 w) % 2 ^ 32) :
    ∃ u : State, exec (.lunload c t) s = .next u.settle ∧ u.thread c t = ((v.thread c t).code (v.listUnload c (v.tMould c t) id).1).next
      ∧ ((v.listUnload c (v.tMould c t) id).1 = 0 → u.resident c (v.tMould c t) id = none)
      ∧ ((v.listUnload c (v.tMould c t) id).1 ≠ 0 → (u.clu c).lists = (v.clu c).lists)
      ∧ u = { v with clus := u.clus } := by
  have hexec : exec (.lunload c t) s = .next ((v.listUnload c (v.tMould c t) id).2.retireCode c t
      (v.listUnload c (v.tMould c t) id).1).settle := by
    rw [exec_lunload, execLunload, sysIns_runs h]
    dsimp only
    rw [← hid]
  refine ⟨_, hexec, ?_⟩
  rcases v.listUnload_cases c (v.tMould c t) id with ⟨hcode, hsame⟩ | hremoved
  · rw [hsame]
    obtain ⟨hthread, hclu, hframe⟩ := State.retireCode_spec (v := v) (p := v) (c := c) (t := t) rfl rfl (v.listUnload c (v.tMould c t) id).1
    exact ⟨hthread, fun hzero => absurd hzero hcode, fun _ => by rw [hclu], hframe⟩
  · rw [hremoved]
    dsimp only
    obtain ⟨hthread, hclu, hframe⟩ := State.retireCode_setClu (v := v) (c := c) (t := t) (k := { v.clu c with
      lists := (v.clu c).lists.filter (fun l => !(l.mould = v.tMould c t && l.id = id)) }) rfl 0
    exact ⟨hthread, fun _ => State.resident_of_filtered (congrArg ClusterSt.lists hclu), fun hne => absurd rfl hne, hframe⟩

/-- A load joins the end of those that wait, with its mould, context and address (R191). -/
theorem State.listLoad_appends (s : State) (c m x addr : Nat) (asker : Asker) :
    ∃ l : LoadReq, (l.mould, l.ctx, l.addr) = (m, x, addr)
      ∧ s.listLoad c m x addr asker = s.setClu c { s.clu c with loads := (s.clu c).loads ++ [l] } := ⟨_, rfl, rfl⟩

/-- The thread that asked for a load is switched out until it completes (R471). -/
def State.awaitsLoad (v : State) (c t : Nat) : State :=
  (v.setThread c t { (v.thread c t).next with quantum := 1, wait := .load }).wr F.thrStatus_state 3 c t

theorem State.awaitsLoad_spec (v : State) (c t : Nat) :
    (v.awaitsLoad c t).thrState c t = 3 ∧ (v.awaitsLoad c t).thread c t = { (v.thread c t).next with quantum := 1, wait := .load }
      ∧ RegsBut v (v.awaitsLoad c t) [regAddr .thrStatus c t]
      ∧ (v.awaitsLoad c t).clu c = { v.clu c with threads := ((v.awaitsLoad c t).clu c).threads }
      ∧ v.awaitsLoad c t = { v with csr := (v.awaitsLoad c t).csr, clus := (v.awaitsLoad c t).clus } := by
  obtain ⟨hstate, hregs⟩ := (v.setThread c t { (v.thread c t).next with quantum := 1, wait := .load }).wr_thrState_spec c t 3
  have hclu := State.clu_setThread v c t { (v.thread c t).next with quantum := 1, wait := .load }
  exact ⟨hstate, State.thread_setThread_same .., hregs,
    hclu.trans (congrArg (fun k => { v.clu c with threads := ClusterSt.threads k }) hclu.symm), rfl⟩

theorem exec_lload_waits {a : Nat} (h : s.sysRuns v c t 0x0B 2 w) (ha : a = v.xreg c t (sRs1 w)) (hlocal : v.isLocal c t a = true) :
    ∃ u : State, exec (.lload c t) s = .next u.settle ∧ u.thrState c t = 3
      ∧ u.thread c t = { (v.thread c t).next with quantum := 1, wait := .load }
      ∧ (u.clu c).loads.take (v.clu c).loads.length = (v.clu c).loads ∧ (u.clu c).loads.length = (v.clu c).loads.length + 1
      ∧ ((u.clu c).loads.getLast?.map (fun l => (l.mould, l.ctx, l.addr))) = some (v.tMould c t, v.tCtx c t, a % 2 ^ 48)
      ∧ RegsBut v u [regAddr .thrStatus c t] ∧ u = { v with csr := u.csr, clus := u.clus } := by
  have hexec : exec (.lload c t) s = .next ((v.awaitsLoad c t).listLoad c (v.tMould c t) (v.tCtx c t) (a % 2 ^ 48) (.thread t)).settle := by
    rw [exec_lload, execLload, sysIns_runs h]
    dsimp only
    rw [← ha, hlocal, if_neg (by decide), State.retire_switchOut]
    rfl
  obtain ⟨l, hl, hload⟩ := (v.awaitsLoad c t).listLoad_appends c (v.tMould c t) (v.tCtx c t) (a % 2 ^ 48) (.thread t)
  rw [hload] at hexec
  obtain ⟨hstate, hthread, hregs, hclu, hframe⟩ := v.awaitsLoad_spec c t
  generalize v.awaitsLoad c t = b at *
  have hloads : ((b.setClu c { b.clu c with loads := (b.clu c).loads ++ [l] }).clu c).loads = (v.clu c).loads ++ [l] := by
    rw [State.clu_setClu, if_pos rfl, hclu]
  refine ⟨_, hexec, hstate, ?_, ?_, ?_, ?_, hregs, ?_⟩
  · rw [← hthread, State.thread, State.clu_setClu, if_pos rfl]
    rfl
  · rw [hloads, List.take_left]
  · rw [hloads, List.length_append, List.length_singleton]
  · rw [hloads, List.getLast?_concat]
    exact congrArg some hl
  · rw [hframe]
    rfl

theorem exec_seload_waits {a e : Nat} {es : List Nat} (h : s.sysRuns v c t 0x0D 10 w) (hlow : sMod w ≠ 0) (hhigh : sMod w ≤ 3)
    (ha : a = v.xreg c t (sRs1 w)) (hlocal : v.isLocal c t a = true) (hengines : maskEngines (sMod w) = e :: es) :
    ∃ u : State, exec (.seload c t) s = .next u.settle ∧ u.thrState c t = 3
      ∧ u.thread c t = { (v.thread c t).next with quantum := 1, wait := .load }
      ∧ (u.seng c e).loads = (v.seng c e).loads ++ [⟨v.tMould c t, v.tCtx c t, a % 2 ^ 48, sMod w, 0, 0, .thread t⟩]
      ∧ RegsBut v u [regAddr .thrStatus c t] ∧ u = { v with csr := u.csr, clus := u.clus } := by
  have hmask : ¬ (sMod w = 0 || 3 < sMod w) = true := by
    simp only [Bool.or_eq_true, decide_eq_true_eq]
    omega
  have hexec : exec (.seload c t) s = .next ((v.awaitsLoad c t).setSeng c e { (v.awaitsLoad c t).seng c e with
      loads := ((v.awaitsLoad c t).seng c e).loads ++ [⟨v.tMould c t, v.tCtx c t, a % 2 ^ 48, sMod w, 0, 0, .thread t⟩] }).settle := by
    rw [exec_seload, execSeload, sysIns_runs h]
    dsimp only
    rw [if_neg hmask, ← ha, hlocal, if_neg (by decide), State.retire_switchOut, State.seLoadAsk_of_engine hengines]
    rfl
  obtain ⟨hstate, hthread, hregs, hclu, hframe⟩ := v.awaitsLoad_spec c t
  generalize v.awaitsLoad c t = b at *
  have hseng : b.seng c e = v.seng c e := by
    rw [State.seng, hclu]
    rfl
  refine ⟨_, hexec, hstate, ?_, ?_, hregs, ?_⟩
  · rw [← hthread, State.thread, State.clu_setSeng]
    rfl
  · rw [State.seng_setSeng_same, hseng]
  · rw [hframe]
    rfl

/-- Settles O23: each clause is the lemma on what its instruction does in that case. -/
theorem threadSynchronisation : Obligations.ThreadSynchronisation :=
  ⟨fun _ _ _ _ _ => exec_fence_done, fun _ _ _ _ _ _ => exec_fence_waits, fun _ _ _ => exec_fenceComplete_ends,
    fun _ _ _ _ _ _ _ => exec_tpost_posts, fun _ _ _ _ _ _ _ => exec_twait_takes, fun _ _ _ _ _ _ _ => exec_twait_waits,
    fun _ _ _ _ _ _ _ _ => exec_sreq_queues, fun _ _ _ _ _ _ => exec_lload_waits, fun _ _ _ _ _ _ => exec_lunload_removes,
    fun _ _ _ _ _ _ _ _ => exec_seload_waits⟩

end Sys2Proof.Machine
end

section
/-! What frames that are taken and sent leave unchanged at a target: the memory, and the clusters but for posted tokens
(R310, R322, R323, R333). -/
namespace Sys2Proof.Machine

/-- t is s after frames were taken or sent: only registers, free values, the log, the fabric and the egress queues differ. -/
abbrev State.Routes (s t : State) : Prop := t = { s with csr := t.csr, free := t.free, log := t.log, fab := t.fab, egr := t.egr }

/-- The bytes of every memory stay. -/
def State.MemoryKept (s t : State) : Prop := t.sram = s.sram ∧ t.gddr = s.gddr ∧ t.cxl = s.cxl

namespace State.MemoryKept

theorem refl (s : State) : s.MemoryKept s := ⟨rfl, rfl, rfl⟩

theorem trans {s t u : State} (h : s.MemoryKept t) (k : t.MemoryKept u) : s.MemoryKept u := by
  obtain ⟨hsram, hgddr, hcxl⟩ := h
  obtain ⟨ksram, kgddr, kcxl⟩ := k
  exact ⟨ksram.trans hsram, kgddr.trans hgddr, kcxl.trans hcxl⟩

theorem of_routes {s t : State} (h : s.Routes t) : s.MemoryKept t :=
  ⟨(congrArg State.sram h).trans rfl, (congrArg State.gddr h).trans rfl, (congrArg State.cxl h).trans rfl⟩

theorem setRx (s : State) (k : Nat) (v : RxStream) : s.MemoryKept (s.setRx k v) := ⟨rfl, rfl, rfl⟩

end State.MemoryKept

theorem State.Routes.trans {s t u : State} (h : s.Routes t) (k : t.Routes u) : s.Routes u := by
  unfold State.Routes at *
  rw [k, h]

theorem State.Routes.clus {s t : State} (h : s.Routes t) : t.clus = s.clus := (congrArg State.clus h).trans rfl

theorem State.routes_noteDetour (s : State) (dst : Nat) (detour : Bool) : s.Routes (s.noteDetour dst detour) := by
  unfold State.noteDetour
  split
  · dsimp only
    split
    · rfl
    · unfold State.Routes
      rw [State.logFree_frame]
      rfl
  · rfl

/-- A frame made here goes to its route (R310). -/
theorem State.routes_dispatchFrame (s : State) (f : Bytes) (ctx : Nat) : s.Routes (s.dispatchFrame f 12 ctx) := by
  unfold State.dispatchFrame
  split
  · rfl
  · rfl
  · exact (s.routes_noteDetour _ _).trans rfl

theorem State.routes_sendAck (s : State) (dev m : Nat) : s.Routes (s.sendAck dev m) :=
  State.Routes.trans rfl (State.routes_dispatchFrame ..)

theorem State.routes_respond (s : State) (f : Bytes) (op status : Nat) (pay : Bytes) : s.Routes (s.respond f op status pay) :=
  s.routes_dispatchFrame ..

theorem State.routes_sendGet (s : State) (f : Bytes) : s.Routes (s.sendGet f) :=
  List.foldlRecOn (List.range _) _ (motive := s.Routes) rfl fun _ ht _ _ => ht.trans (State.routes_dispatchFrame ..)

theorem State.routes_owe (s : State) (p : Nat) (f : Bytes) : s.Routes (s.owe p f) := by
  unfold State.owe
  split <;> rfl

theorem State.routes_unbox (s : State) (p : Nat) (f : Bytes) (owe : Bool) : s.Routes (s.unbox p f owe) := by
  unfold State.unbox
  split
  · rfl
  · dsimp only
    split
    · exact State.Routes.trans rfl (State.routes_owe ..)
    · rfl

theorem State.memoryKept_post (s : State) (c m x t n : Nat) : s.MemoryKept (s.post c m x t n) := by
  simp [State.MemoryKept]

/-- The puts of a stream that have a refused frame, as cum passes a frame: a put's first frame begins it anew (R327). -/
def PutRec.openRefusals (r : PutRec) (l : List Nat) : List Nat := if bit (fFlags r.head) 2 then l.filter (· ≠ putName r.head) else l

/-- The remote token of a put's frame is posted, once for each 64-byte granule (R215, R327). -/
def State.postPut (s : State) (m : Nat) (refused : List Nat) (head : Bytes) : State :=
  let live := s.mstate m = 2 ∨ s.mstate m = 3 ∨ s.mstate m = 4
  if refused.contains (putName head) || !bit (qTok head) 5 || !decide live || s.ctxCount m ≤ qCtx head then s
  else
    match s.tokenCluster m (qOff head) with
    | some c => s.post c m (qCtx head) (qTok head % 32) ((beAt head 0x10 2 - 16) / 64)
    | none => s

theorem State.passPut_eq (s : State) (k : Nat) (r : PutRec) :
    s.passPut k r = (if r.refused then
        s.setRx k { s.rxS k with refused := putName r.head :: (r.openRefusals (s.rxS k).refused).filter (· ≠ putName r.head) }
      else (s.setRx k { s.rxS k with refused := r.openRefusals (s.rxS k).refused }).postPut (k % 64)
        (r.openRefusals (s.rxS k).refused) r.head) :=
  rfl

theorem State.memoryKept_postPut (s : State) (m : Nat) (refused : List Nat) (head : Bytes) : s.MemoryKept (s.postPut m refused head) := by
  unfold State.postPut
  dsimp only
  split
  · exact .refl s
  · split
    · exact State.memoryKept_post ..
    · exact .refl s

/-- A put's frame that cum passes posts at most a token. -/
theorem State.memoryKept_passPut (s : State) (k : Nat) (r : PutRec) : s.MemoryKept (s.passPut k r) := by
  rw [State.passPut_eq]
  split
  · exact .setRx ..
  · exact .trans (.setRx ..) (State.memoryKept_postPut ..)

theorem State.memoryKept_advanceCum (n : Nat) (s : State) (k : Nat) : s.MemoryKept (s.advanceCum n k) := by
  induction n generalizing s with
  | zero => exact .refl s
  | succ n ih =>
    unfold State.advanceCum
    dsimp only
    split
    · exact .refl s
    · refine .trans ?_ (ih _)
      split
      · exact .trans (.setRx ..) (State.memoryKept_passPut ..)
      · exact .setRx ..

/-- A stream with a request frame taken above cum (R322). -/
def RxStream.took (v : RxStream) (f : Bytes) (refused : Bool) : RxStream :=
  { v with above := fSeq f :: v.above, puts := if fOp f = 1 then ⟨fSeq f, refused, f.take 48⟩ :: v.puts else v.puts }

/-- Eight advances of cum since the last acknowledgement are acknowledged at once (R322). -/
def State.ackEighth (s : State) (f : Bytes) : State :=
  if 8 ≤ (s.rxS (streamKey (fSrc f) (fMould f))).adv then s.sendAck (fSrc f) (fMould f) else s

theorem State.rxS_setRx_same (s : State) (k : Nat) (v : RxStream) : (s.setRx k v).rxS k = v := Tab.get_set_same ..

/-- Taking a frame stores it in its stream, moves cum as far as it goes, and acknowledges when due. -/
theorem State.takeSeq_eq (s : State) (f : Bytes) (refused : Bool) {k : Nat} (hk : k = streamKey (fSrc f) (fMould f)) :
    s.takeSeq f refused
      = ((s.setRx k ((s.rxS k).took f refused)).advanceCum ((s.rxS k).above.length + 1) k).ackEighth f := by
  have hlen : ((s.setRx k ((s.rxS k).took f refused)).rxS k).above.length = (s.rxS k).above.length + 1 := by
    rw [State.rxS_setRx_same]
    rfl
  rw [← hlen, hk]
  rfl

theorem State.memoryKept_ackEighth (s : State) (f : Bytes) : s.MemoryKept (s.ackEighth f) := by
  unfold State.ackEighth
  split
  · exact .of_routes (State.routes_sendAck ..)
  · exact .refl s

theorem State.memoryKept_takeSeq (s : State) (f : Bytes) (refused : Bool) : s.MemoryKept (s.takeSeq f refused) := by
  rw [State.takeSeq_eq s f refused rfl]
  exact .trans (.setRx ..) (.trans (State.memoryKept_advanceCum ..) (State.memoryKept_ackEighth ..))

theorem State.memoryKept_answered (s : State) (dup : Bool) (f : Bytes) (refused : Bool) : s.MemoryKept (s.answered dup f refused) := by
  unfold State.answered
  split
  · exact .of_routes (State.routes_sendAck ..)
  · exact State.memoryKept_takeSeq ..

end Sys2Proof.Machine
end

section
/-! An access that meets no error, and what a write of memory changes beside the memory (R280, R285, R329, R336). -/
namespace Sys2Proof.Machine

/-- q is s, but for the count of one corrected word of an SRAM or of a GDDR7 channel at most (R280, R285). -/
def State.ReadsClean (s q : State) : Prop :=
  q = s ∨ (∃ c, q = ((s.cnt F.sramEcc_ce c).cnt F.memEcc_sramCe).count 3 c) ∨ ∃ ch, q = s.gddrCe ch 1

/-- A read of an SRAM, of a GDDR7 channel or over CXL that reports no error. -/
theorem State.placeErr_ok {s q : State} {m ecc word : Nat} {p : Place} (h : s.placeErr m p ecc word = (0, q)) : s.ReadsClean q := by
  unfold State.placeErr at h
  dsimp only at h
  split at h
  · obtain ⟨hcode, hq⟩ := Prod.mk.inj h
    have hecc : ecc ≠ 2 := fun he => absurd hcode (by rw [if_pos he]; decide)
    unfold State.sramEcc at hq
    split at hq
    · exact .inr (.inl ⟨_, hq.symm⟩)
    · exact .inl hq.symm
  · split at h
    · split at h
      · exact absurd (Prod.mk.inj h).1 (by decide)
      · split at h
        · exact .inr (.inr ⟨_, (congrArg Prod.snd h).symm⟩)
        · split at h
          · exact absurd (Prod.mk.inj h).1 (by decide)
          · exact .inl (congrArg Prod.snd h).symm
    · split at h
      · exact absurd (Prod.mk.inj h).1 (by decide)
      · split at h
        · exact absurd (Prod.mk.inj h).1 (by decide)
        · split at h
          · exact absurd (Prod.mk.inj h).1 (by decide)
          · exact .inl (congrArg Prod.snd h).symm

/-- An access without an error does no more than the read of one place. -/
theorem State.access_ok {s q : State} {m a n ecc word : Nat} (h : s.access m a n ecc word = (0, q)) : s.ReadsClean q := by
  unfold State.access at h
  split at h
  · exact .inl (congrArg Prod.snd h).symm
  · next p r _ =>
    dsimp only at h
    split at h
    · next hcode => exact absurd (congrArg Prod.fst h) hcode
    · next hcode =>
      have hread : s.placeErr m p ecc word = (0, q) := Prod.ext_iff.mpr ⟨not_not.mp hcode, (Prod.mk.inj h).2⟩
      exact State.placeErr_ok hread

/-- An access without an error changes only counters. -/
theorem State.access_ok_frame {s q : State} {m a n ecc word : Nat} (h : s.access m a n ecc word = (0, q)) :
    q = { s with csr := q.csr, health := q.health } := by
  obtain rfl | ⟨c, rfl⟩ | ⟨ch, rfl⟩ := State.access_ok h
  · rfl
  · rw [State.count_frame]
    rfl
  · unfold State.gddrCe
    rw [State.count_frame]
    rfl

/-- A field is unchanged by a write to other bits, of its own register or of any other with the same reset value, even one that an
index beyond its range puts at the same address. -/
theorem State.rd_wr_otherBits (s : State) {f g : Field} (v i j k l : Nat) (hreset : f.reg.shape.resetVal = g.reg.shape.resetVal)
    (hg : g.fits) (h : g.lo + g.width ≤ f.lo ∨ f.lo + f.width ≤ g.lo) : (s.wr f v i j).rd g k l = s.rd g k l := by
  by_cases haddr : regAddr g.reg k l = regAddr f.reg i j
  · have hreg : ∀ t : State, t.reg g.reg k l = t.reg f.reg i j := fun t => by rw [State.reg, State.reg, haddr, hreset]
    unfold State.rd State.wr
    rw [hreg, hreg, State.reg_setReg_same, bitsOf_mod hg]
    exact h.elim bitsOf_setBits_below bitsOf_setBits_above
  · exact State.rd_wr_ne s v haddr

theorem State.rd_count (s : State) (kind c n : Nat) (f : Field) (i j : Nat) : (s.count kind c n).rd f i j = s.rd f i j := by
  rw [State.count_frame]
  rfl

/-- An access without an error leaves the state and the contexts of every mould. -/
theorem State.access_ok_mouldStatus {s q : State} {m a n ecc word : Nat} (h : s.access m a n ecc word = (0, q)) {f : Field} {i : Nat}
    (hreg : f.reg = .mouldStatus) (hlow : f.lo + f.width ≤ 16) : q.rd f i = s.rd f i := by
  have haddr : regAddr f.reg i 0 = 0x800000 + 0x4000 * i := by
    rw [hreg]
    rfl
  have hfits : f.fits := by
    unfold Field.fits
    omega
  obtain rfl | ⟨c, rfl⟩ | ⟨ch, rfl⟩ := State.access_ok h
  · rfl
  · have hecc : regAddr F.sramEcc_ce.reg c 0 = 0x1003000 + 0x100000 * c := rfl
    have hmem : regAddr F.memEcc_sramCe.reg 0 0 = 0x709000 := rfl
    rw [State.rd_count, State.cnt, State.rd_wr_ne _ _ (by omega), State.cnt, State.rd_wr_ne _ _ (by omega)]
  · rw [State.gddrCe, State.rd_count, State.cnt, State.rd_wr_otherBits _ _ _ _ _ _ (by rw [hreg]; decide) hfits (.inl hlow)]

/-- t is s but for the bytes of its memories and the tags they are stored under. -/
abbrev State.Writes (s t : State) : Prop := t = { s with sram := t.sram, gddr := t.gddr, cxl := t.cxl, xts := t.xts }

theorem State.Writes.trans {s t u : State} (h : s.Writes t) (k : t.Writes u) : s.Writes u := by
  unfold State.Writes at *
  rw [k, h]

theorem State.writes_setRaw (s : State) (space key : Nat) (b : Byte) : s.Writes (s.setRaw space key b) := by
  unfold State.setRaw
  split_ifs <;> rfl

theorem State.writes_retag (s : State) (p : Place) (tag : Nat) : s.Writes (s.retag p tag) := by
  unfold State.retag
  split
  · rfl
  · dsimp only
    generalize List.zipIdx _ = l
    refine State.Writes.trans ?_ rfl
    exact List.foldlRecOn l _ (motive := s.Writes) rfl fun t ht e _ => ht.trans (t.writes_setRaw ..)

theorem State.writes_setByteAt (s : State) (m a : Nat) (b : Byte) : s.Writes (s.setByteAt m a b) := by
  unfold State.setByteAt
  split
  · refine State.Writes.trans ?_ (State.writes_setRaw ..)
    split
    · rfl
    · exact State.writes_retag ..
  · rfl

theorem State.writes_writeMem (s : State) (m a : Nat) (bs : Bytes) : s.Writes (s.writeMem m a bs) :=
  List.foldlRecOn bs.zipIdx _ (motive := s.Writes) rfl fun t ht _ _ => ht.trans (t.writes_setByteAt ..)

theorem State.bumpAt_frame (s : State) (m a : Nat) : s.bumpAt m a = { s with vers := (s.bumpAt m a).vers } := by
  unfold State.bumpAt
  split
  · split <;> rfl
  · rfl

/-- A write with the version of its region leaves everything else (R336). -/
theorem State.writeMem_bumpAt_frame (s : State) (m a : Nat) (bs : Bytes) :
    (s.writeMem m a bs).bumpAt m a = { s with
      sram := (s.writeMem m a bs).sram, gddr := (s.writeMem m a bs).gddr, cxl := ((s.writeMem m a bs).bumpAt m a).cxl
      xts := ((s.writeMem m a bs).bumpAt m a).xts, vers := ((s.writeMem m a bs).bumpAt m a).vers } := by
  rw [State.bumpAt_frame, s.writes_writeMem m a bs]

end Sys2Proof.Machine
end

section
/-! A put's frame that is next in its stream: cum passes it and its remote token is posted (R215, R322, R327). -/
namespace Sys2Proof.Machine

/-- A field that lies within the bytes kept. -/
theorem beAt_take (f : Bytes) {off n j : Nat} (h : off + n ≤ j) : beAt (f.take j) off n = beAt f off n := by
  have hslice : slice (f.take j) off n = slice f off n := by
    unfold slice
    rw [List.drop_take, List.take_take, Nat.min_eq_left (by omega)]
  rw [beAt, beAt, hslice]

/-- The frame that follows cum is no duplicate when none above cum has been taken (R325). -/
theorem RxStream.dup_next {v : RxStream} {seq : Nat} (habove : v.above = []) (hseq : seq = (v.cum + 1) % 2 ^ 32) (hcum : v.cum < 2 ^ 32) :
    v.dup seq = false := by
  have hone : (seq % 2 ^ 32 + 2 ^ 32 - v.cum) % 2 ^ 32 = 1 := by omega
  have hdiff : v.above_ seq = 1 := by
    unfold RxStream.above_ sext
    rw [hone]
    rfl
  rw [RxStream.dup, hdiff, habove]
  rfl

/-- A stream whose cum moves on to a sequence, the only one above it. -/
def RxStream.passed (v : RxStream) (seq now : Nat) : RxStream :=
  { v with
    cum := seq, above := [], puts := v.puts.filter (fun e => e.seq ≠ seq), adv := v.adv + 1
    advAt := if v.adv = 0 then now else v.advAt }

/-- A put's frame as its stream keeps it until cum passes it: its header and its request header (R327). -/
def putRecOf (f : Bytes) : PutRec := ⟨fSeq f, false, f.take 48⟩

theorem beAt_putRecOf (f : Bytes) {off n : Nat} (h : off + n ≤ 48) : beAt (putRecOf f).head off n = beAt f off n := beAt_take f h

theorem qCtx_putRecOf (f : Bytes) : qCtx (putRecOf f).head = qCtx f := beAt_putRecOf f (by decide)

theorem qTok_putRecOf (f : Bytes) : qTok (putRecOf f).head = qTok f := beAt_putRecOf f (by decide)

theorem qOff_putRecOf (f : Bytes) : qOff (putRecOf f).head = qOff f := beAt_putRecOf f (by decide)

theorem RxStream.took_put {v : RxStream} {f : Bytes} (hop : fOp f = 1) (habove : v.above = []) :
    v.took f false = { v with above := [fSeq f], puts := putRecOf f :: v.puts } := by
  rw [RxStream.took, habove, if_pos hop, putRecOf]

/-- The state in which cum stands at a put's frame and the frame's token is not yet posted. -/
def State.cumAtPut (s : State) (k : Nat) (f : Bytes) : State :=
  (s.setRx k ((s.rxS k).took f false)).setRx k (((s.rxS k).took f false).passed (fSeq f) s.clk.up)

theorem State.rxS_cumAtPut (s : State) (k : Nat) (f : Bytes) :
    (s.cumAtPut k f).rxS k = ((s.rxS k).took f false).passed (fSeq f) s.clk.up := State.rxS_setRx_same ..

/-- A put's frame that is next in its stream is taken: cum passes it (R322). -/
theorem State.takeSeq_put {s : State} {k : Nat} {f : Bytes} (hk : k = streamKey (fSrc f) (fMould f)) (hop : fOp f = 1)
    (habove : (s.rxS k).above = []) (hseq : fSeq f = ((s.rxS k).cum + 1) % 2 ^ 32) :
    s.takeSeq f false = ((s.cumAtPut k f).passPut k (putRecOf f)).ackEighth f := by
  have htaken := RxStream.took_put hop habove
  have hcum : ((s.rxS k).took f false).cum = (s.rxS k).cum := rfl
  have hnext : ((s.rxS k).took f false).puts.find? (fun e => e.seq = fSeq f) = some (putRecOf f) := by
    rw [htaken]
    exact List.find?_cons_of_pos (decide_eq_true rfl)
  have hcontains : ¬ (!((s.rxS k).took f false).above.contains (fSeq f)) = true := by
    rw [htaken]
    simp
  have herase : ((s.rxS k).took f false).above.erase (fSeq f) = [] := by
    rw [htaken]
    exact List.erase_cons_head ..
  rw [State.takeSeq_eq s f false hk, habove, State.cumAtPut, RxStream.passed, State.advanceCum]
  dsimp only
  rw [State.rxS_setRx_same, hcum, ← hseq, if_neg hcontains, hnext, herase]
  rfl

section
variable {s : State} {m c n : Nat}

/-- A put's frame that names a token of a live mould, of a put without a refused frame, posts it n times. -/
theorem State.postPut_posts {head : Bytes} (htok : bit (qTok head) 5 = true) (hlive : s.mouldLive m = true)
    (hctx : qCtx head < s.ctxCount m) (hcluster : s.tokenCluster m (qOff head) = some c) (hn : n = (beAt head 0x10 2 - 16) / 64)
    (hroom : s.tok c m (qCtx head) (qTok head % 32) + n ≤ 65535) :
    s.postPut m [] head = s.setTok c m (qCtx head) (qTok head % 32) (s.tok c m (qCtx head) (qTok head % 32) + n) := by
  have hstate : s.mstate m = 2 ∨ s.mstate m = 3 ∨ s.mstate m = 4 := by
    simpa [State.mouldLive, or_assoc] using hlive
  have hposts : ¬ (([] : List Nat).contains (putName head) || !bit (qTok head) 5
      || !decide (s.mstate m = 2 ∨ s.mstate m = 3 ∨ s.mstate m = 4) || decide (s.ctxCount m ≤ qCtx head)) = true := by
    rw [htok, decide_eq_true hstate, decide_eq_false (by omega)]
    simp
  unfold State.postPut
  dsimp only
  rw [if_neg hposts, hcluster, ← hn]
  exact if_neg (by omega)

/-- A frame in order that cum passes posts its token n times, and its stream stays as cum left it. -/
theorem State.passPut_posts {k : Nat} {r : PutRec} (hk : k % 64 = m) (hr : r.refused = false) (hnone : (s.rxS k).refused = [])
    (htok : bit (qTok r.head) 5 = true) (hlive : s.mouldLive m = true) (hctx : qCtx r.head < s.ctxCount m)
    (hcluster : s.tokenCluster m (qOff r.head) = some c) (hn : n = (beAt r.head 0x10 2 - 16) / 64)
    (hroom : s.tok c m (qCtx r.head) (qTok r.head % 32) + n ≤ 65535) :
    (s.passPut k r).tok c m (qCtx r.head) (qTok r.head % 32) = s.tok c m (qCtx r.head) (qTok r.head % 32) + n
      ∧ (s.passPut k r).rxS k = s.rxS k
      ∧ s.passPut k r = { s with clus := (s.passPut k r).clus, fab := (s.passPut k r).fab } := by
  have hopen : r.openRefusals [] = [] := by
    unfold PutRec.openRefusals
    split <;> rfl
  have hpass : s.passPut k r = (s.setRx k { s.rxS k with refused := [] }).setTok c m (qCtx r.head) (qTok r.head % 32)
      (s.tok c m (qCtx r.head) (qTok r.head % 32) + n) := by
    rw [State.passPut_eq, hr, if_neg Bool.false_ne_true, hnone, hopen, hk]
    exact State.postPut_posts htok hlive hctx hcluster hn hroom
  rw [hpass]
  refine ⟨State.tok_setTok_same .., ?_, rfl⟩
  rw [← hnone]
  exact State.rxS_setRx_same ..

/-- A put's frame in order is taken: cum stands at it and its token has been posted n times (R215, R322, R327). -/
theorem State.takeSeq_put_posts {f : Bytes} {k : Nat} (hk : k = streamKey (fSrc f) m) (hm : m = fMould f) (hop : fOp f = 1)
    (habove : (s.rxS k).above = []) (hseq : fSeq f = ((s.rxS k).cum + 1) % 2 ^ 32) (hnone : (s.rxS k).refused = [])
    (hadv : (s.rxS k).adv < 7) (htok : bit (qTok f) 5 = true) (hlive : s.mouldLive m = true) (hctx : qCtx f < s.ctxCount m)
    (hcluster : s.tokenCluster m (qOff f) = some c) (hn : n = (beAt f 0x10 2 - 16) / 64)
    (hroom : s.tok c m (qCtx f) (qTok f % 32) + n ≤ 65535) :
    ∃ u : State, s.takeSeq f false = u ∧ u.tok c m (qCtx f) (qTok f % 32) = s.tok c m (qCtx f) (qTok f % 32) + n
      ∧ (u.rxS k).cum = fSeq f ∧ (u.rxS k).above = [] ∧ (u.rxS k).adv = (s.rxS k).adv + 1
      ∧ u = { s with clus := u.clus, fab := u.fab } := by
  have hmod : k % 64 = m := by
    have : m < 64 := by
      rw [hm]
      exact Nat.mod_lt _ (by decide)
    rw [hk, streamKey]
    omega
  rw [hm] at hk
  have htake := State.takeSeq_put hk hop habove hseq
  have hstream := s.rxS_cumAtPut k f
  rw [RxStream.took_put hop habove] at hstream
  obtain ⟨hposted, hkept, hframe⟩ := State.passPut_posts (s := s.cumAtPut k f) (r := putRecOf f) (c := c) (n := n) hmod rfl
    (by rw [hstream]; exact hnone) (by rwa [qTok_putRecOf]) hlive (by rwa [qCtx_putRecOf])
    (by rw [qOff_putRecOf]; exact hcluster) (by rwa [beAt_putRecOf f (by decide)]) (by rw [qCtx_putRecOf, qTok_putRecOf]; exact hroom)
  rw [qCtx_putRecOf, qTok_putRecOf] at hposted
  rw [hstream] at hkept
  have hfew : ¬ 8 ≤ (((s.cumAtPut k f).passPut k (putRecOf f)).rxS (streamKey (fSrc f) (fMould f))).adv := by
    rw [← hk, hkept]
    dsimp only [RxStream.passed]
    omega
  refine ⟨_, htake.trans (if_neg hfew), hposted, ?_, ?_, ?_, hframe⟩
  · rw [hkept]
    rfl
  · rw [hkept]
    rfl
  · rw [hkept]
    rfl

end

end Sys2Proof.Machine
end

section
/-! Requests at the target (R323, R325, R328, R329, R333, R336, R337). -/
namespace Sys2Proof.Machine

section
variable {s v q : State} {p op ecc word : Nat} {f : Bytes}

/-- A request that passes the checks before the memory is handed on, with whether it is a duplicate (R325, R328). -/
theorem State.request_takes (h : s.takesRequest v p op f) (k : Bool → Bytes → State → State) :
    s.request p op k = k ((v.rxS (streamKey (fSrc f) (fMould f))).dup (fSeq f)) f v := by
  obtain ⟨⟨-, hport, hhead, hv, hpool, hepoch⟩, hform, hwindow⟩ := h
  unfold State.request State.frameAt
  rw [if_neg (by omega), hhead]
  dsimp only
  rw [← hv, State.checked, hpool, if_pos hepoch, hform, if_neg (by decide), if_neg (by decide), if_neg (by omega)]

/-- Taking the frame out of its buffer leaves memory and clusters. -/
theorem State.takesRequest_routes (h : s.takesRequest v p op f) : s.Routes v := by
  obtain ⟨⟨-, -, -, hv, -⟩, -⟩ := h
  rw [hv]
  exact State.routes_unbox ..

/-- The opcode of a request that is taken. -/
theorem State.takesRequest_op (h : s.takesRequest v p op f) : fOp f = op := by
  obtain ⟨⟨-, -, hhead, -⟩, -⟩ := h
  have hsel := List.find?_some hhead
  rw [Bool.and_eq_true] at hsel
  exact of_decide_eq_true hsel.2

/-- A put's or a store's frame that passes the target's checks is written (R328, R329, R336). -/
theorem State.writeRequest_writes (h : s.takesRequest v p op f) (hdup : (v.rxS (streamKey (fSrc f) (fMould f))).dup (fSeq f) = false)
    (hcheck : v.targetCheck f (qData f).length = 0) (hread : v.access (fMould f) (qOff f) (qData f).length ecc word = (0, q)) :
    s.writeRequest p op ecc word = ((q.writeMem (fMould f) (qOff f) (qData f)).bumpAt (fMould f) (qOff f)).takeSeq f false := by
  rw [State.writeRequest, State.request_takes h, hdup, if_neg Bool.false_ne_true]
  dsimp only
  rw [if_neg (not_not.mpr hcheck), hread]
  rfl

/-- A duplicate is acknowledged and touches neither memory nor clusters (R325). -/
theorem State.writeRequest_duplicate (h : s.takesRequest v p op f) (hdup : (v.rxS (streamKey (fSrc f) (fMould f))).dup (fSeq f) = true) :
    s.writeRequest p op ecc word = v.sendAck (fSrc f) (fMould f) ∧ s.Routes (s.writeRequest p op ecc word) := by
  have hacks : s.writeRequest p op ecc word = v.sendAck (fSrc f) (fMould f) := by
    rw [State.writeRequest, State.request_takes h, hdup, if_pos rfl]
  refine ⟨hacks, ?_⟩
  rw [hacks]
  exact (State.takesRequest_routes h).trans (State.routes_sendAck ..)

/-- A frame that fails the target's checks is refused with its code, and the memory stays (R328). -/
theorem State.writeRequest_refused (h : s.takesRequest v p op f) (hdup : (v.rxS (streamKey (fSrc f) (fMould f))).dup (fSeq f) = false)
    (hcheck : v.targetCheck f (qData f).length ≠ 0) :
    s.writeRequest p op ecc word = (v.nak f (v.targetCheck f (qData f).length)).takeSeq f true
      ∧ s.MemoryKept (s.writeRequest p op ecc word) := by
  have hrefuses : s.writeRequest p op ecc word = (v.nak f (v.targetCheck f (qData f).length)).takeSeq f true := by
    rw [State.writeRequest, State.request_takes h, hdup, if_neg Bool.false_ne_true]
    dsimp only
    rw [if_pos hcheck]
    rfl
  refine ⟨hrefuses, ?_⟩
  rw [hrefuses]
  exact .trans (.of_routes ((State.takesRequest_routes h).trans (State.routes_respond ..))) (State.memoryKept_takeSeq ..)

variable {size : Bytes → Nat} {ans : Bytes → State → State}

/-- A get's or a load's frame that passes the target's checks is answered; the memory stays when sending its answer leaves it. -/
theorem State.readRequest_answers (h : s.takesRequest v p op f) (hop : op ≠ 6) (hcheck : v.targetCheck f (size f) = 0)
    (hread : v.access (fMould f) (qOff f) (size f) ecc word = (0, q)) (hans : q.Routes (ans f q)) :
    s.readRequest p op ecc word size ans = (ans f q).answered ((v.rxS (streamKey (fSrc f) (fMould f))).dup (fSeq f)) f false
      ∧ s.MemoryKept (s.readRequest p op ecc word size ans) := by
  have hanswers : s.readRequest p op ecc word size ans
      = (ans f q).answered ((v.rxS (streamKey (fSrc f) (fMould f))).dup (fSeq f)) f false := by
    rw [State.readRequest, State.request_takes h]
    dsimp only
    rw [if_neg (not_not.mpr hcheck), if_neg hop, hread]
    exact if_neg (not_not.mpr rfl)
  have hq : v.MemoryKept q := by
    rw [State.access_ok_frame hread]
    exact .refl v
  refine ⟨hanswers, ?_⟩
  rw [hanswers]
  exact .trans (.of_routes (State.takesRequest_routes h)) (.trans hq (.trans (.of_routes hans) (State.memoryKept_answered ..)))

/-- A version read is answered without an access to the memory (R337). -/
theorem State.readRequest_version (h : s.takesRequest v p 6 f) (hcheck : v.targetCheck f (size f) = 0) (hans : v.Routes (ans f v)) :
    s.readRequest p 6 ecc word size ans = (ans f v).answered ((v.rxS (streamKey (fSrc f) (fMould f))).dup (fSeq f)) f false
      ∧ s.MemoryKept (s.readRequest p 6 ecc word size ans) := by
  have hanswers : s.readRequest p 6 ecc word size ans
      = (ans f v).answered ((v.rxS (streamKey (fSrc f) (fMould f))).dup (fSeq f)) f false := by
    rw [State.readRequest, State.request_takes h]
    dsimp only
    rw [if_neg (not_not.mpr hcheck), if_pos rfl]
    exact if_neg (not_not.mpr rfl)
  refine ⟨hanswers, ?_⟩
  rw [hanswers]
  exact .trans (.of_routes (State.takesRequest_routes h)) (.trans (.of_routes hans) (State.memoryKept_answered ..))

theorem exec_putData_live (h : s.takesRequest v p 1 f) :
    exec (.putData p ecc word) s = .next (s.writeRequest p 1 ecc word).settle :=
  (exec_putData ..).trans (whenLive_live s (fun t => t.writeRequest p 1 ecc word) h.1.1)

theorem exec_storeFrame_live (h : s.takesRequest v p 3 f) :
    exec (.storeFrame p ecc word) s = .next (s.writeRequest p 3 ecc word).settle :=
  (exec_storeFrame ..).trans (whenLive_live s (fun t => t.writeRequest p 3 ecc word) h.1.1)

/-- The answer to a load: the bytes, with the version of their region behind 64 of them (R337). -/
def loadAnswer (f : Bytes) (s : State) : State :=
  s.respond f 0x12 0 (s.readMem (fMould f) (qOff f) (qLen f)
    ++ (if qLen f = 64 then toBe 8 (s.versionAt (fMould f) (qOff f)).1 else []))

/-- The answer to a version read (R337). -/
def versionAnswer (f : Bytes) (s : State) : State :=
  s.respond f 0x14 0 (toBe 4 (s.versionAt (fMould f) (qOff f)).1 ++ toBe 4 0)

theorem exec_getReq_live (h : s.takesRequest v p 2 f) :
    exec (.getReq p ecc word) s = .next (s.readRequest p 2 ecc word qLen fun f s => s.sendGet f).settle :=
  (exec_getReq ..).trans (whenLive_live s (fun t => t.readRequest p 2 ecc word qLen fun f s => s.sendGet f) h.1.1)

theorem exec_loadReq_live (h : s.takesRequest v p 4 f) :
    exec (.loadReq p ecc word) s = .next (s.readRequest p 4 ecc word qLen loadAnswer).settle := by
  have hanswer : loadAnswer = fun f s => s.respond f 0x12 0 (if qLen f = 64
      then s.readMem (fMould f) (qOff f) (qLen f) ++ toBe 8 (s.versionAt (fMould f) (qOff f)).1
      else s.readMem (fMould f) (qOff f) (qLen f)) := by
    funext f s
    unfold loadAnswer
    split
    · rfl
    · rw [List.append_nil]
  rw [hanswer]
  exact (exec_loadReq ..).trans (whenLive_live s _ h.1.1)

theorem exec_vreadReq_live (h : s.takesRequest v p 6 f) :
    exec (.vreadReq p) s = .next (s.readRequest p 6 0 0 (fun _ => 1) versionAnswer).settle :=
  (exec_vreadReq ..).trans (whenLive_live s (fun t => t.readRequest p 6 0 0 (fun _ => 1) versionAnswer) h.1.1)

/-- A put's frame in order posts its token for each 64 bytes it wrote. -/
theorem exec_putData_posts {k c n : Nat} (h : s.takesRequest v p 1 f) (hk : k = streamKey (fSrc f) (fMould f))
    (hcheck : v.targetCheck f (qData f).length = 0) (hread : v.access (fMould f) (qOff f) (qData f).length ecc word = (0, q))
    (habove : (v.rxS k).above = []) (hseq : fSeq f = ((v.rxS k).cum + 1) % 2 ^ 32) (hcum : (v.rxS k).cum < 2 ^ 32)
    (hnone : (v.rxS k).refused = []) (hadv : (v.rxS k).adv < 7) (htok : bit (qTok f) 5 = true) (hlive : v.mouldLive (fMould f) = true)
    (hctx : qCtx f < v.ctxCount (fMould f)) (hcluster : v.tokenCluster (fMould f) (qOff f) = some c)
    (hn : n = (beAt f 0x10 2 - 16) / 64) (hroom : v.tok c (fMould f) (qCtx f) (qTok f % 32) + n ≤ 65535) :
    ∃ u : State, exec (.putData p ecc word) s = .next u.settle
      ∧ u.tok c (fMould f) (qCtx f) (qTok f % 32) = v.tok c (fMould f) (qCtx f) (qTok f % 32) + n
      ∧ (u.rxS k).cum = fSeq f ∧ (u.rxS k).above = [] ∧ (u.rxS k).adv = (v.rxS k).adv + 1
      ∧ u.sram = (q.writeMem (fMould f) (qOff f) (qData f)).sram ∧ u.gddr = (q.writeMem (fMould f) (qOff f) (qData f)).gddr
      ∧ u = { q with clus := u.clus, fab := u.fab, sram := u.sram, gddr := u.gddr, cxl := u.cxl, xts := u.xts, vers := u.vers } := by
  have hdup : (v.rxS (streamKey (fSrc f) (fMould f))).dup (fSeq f) = false := hk ▸ RxStream.dup_next habove hseq hcum
  have hexec := exec_putData_live (ecc := ecc) (word := word) h
  rw [State.writeRequest_writes h hdup hcheck hread] at hexec
  have hread' := State.access_ok_frame hread
  have hstate : q.mstate (fMould f) = v.mstate (fMould f) := State.access_ok_mouldStatus hread rfl (by decide)
  have hcount : q.ctxCount (fMould f) = v.ctxCount (fMould f) := State.access_ok_mouldStatus hread rfl (by decide)
  have hwrite := q.writeMem_bumpAt_frame (fMould f) (qOff f) (qData f)
  have hsram := (congrArg State.sram hwrite).trans rfl
  have hgddr := (congrArg State.gddr hwrite).trans rfl
  generalize (q.writeMem (fMould f) (qOff f) (qData f)).bumpAt (fMould f) (qOff f) = w at *
  have hsame : w.rxS k = v.rxS k ∧ (∀ m x t, w.tok c m x t = v.tok c m x t) ∧ w.mouldLive (fMould f) = v.mouldLive (fMould f)
      ∧ w.ctxCount (fMould f) = v.ctxCount (fMould f) ∧ w.tokenCluster (fMould f) (qOff f) = v.tokenCluster (fMould f) (qOff f) := by
    have hlives : q.mouldLive (fMould f) = v.mouldLive (fMould f) := by rw [State.mouldLive, State.mouldLive, hstate]
    rw [← hlives, ← hcount, hwrite, hread']
    exact ⟨rfl, fun _ _ _ => rfl, rfl, rfl, rfl⟩
  obtain ⟨hstream, htokens, hlives, hcounts, hclusters⟩ := hsame
  obtain ⟨u, htake, hposted, hcumAt, hnoneAbove, hadvanced, hframe⟩ :=
    State.takeSeq_put_posts (s := w) (k := k) (c := c) (n := n) (f := f) hk rfl (State.takesRequest_op h) (by rwa [hstream])
      (by rwa [hstream]) (by rwa [hstream]) (by rwa [hstream]) htok (by rwa [hlives]) (by rwa [hcounts]) (by rwa [hclusters]) hn
      (by rwa [htokens])
  rw [htake] at hexec
  rw [htokens] at hposted
  rw [hstream] at hadvanced
  refine ⟨u, hexec, hposted, hcumAt, hnoneAbove, hadvanced, ?_, ?_, ?_⟩
  · exact (congrArg State.sram hframe).trans hsram
  · exact (congrArg State.gddr hframe).trans hgddr
  · rw [hframe, hwrite]

end

/-- Settles O33: each clause is what the write or the read request of its command does in that case. -/
theorem remoteReadsAndWrites : Obligations.RemoteReadsAndWrites := by
  refine ⟨?_, ?_, fun _ _ _ _ _ _ _ _ _ _ => exec_putData_posts, ?_, ?_, ?_, ?_, ?_, ?_, ?_⟩
  · rintro s v q p _ ecc word f h rfl hdup hcheck hread
    exact ⟨_, exec_putData_live h, State.writeRequest_writes h hdup hcheck hread⟩
  · rintro s v q p _ ecc word f h rfl hdup hcheck hread
    exact ⟨_, exec_storeFrame_live h, State.writeRequest_writes h hdup hcheck hread⟩
  · rintro s v p _ ecc word f h rfl hdup
    obtain ⟨hacks, hroutes⟩ := State.writeRequest_duplicate h hdup
    obtain ⟨hsram, hgddr, hcxl⟩ := State.MemoryKept.of_routes hroutes
    exact ⟨_, exec_putData_live h, hacks, hsram, hgddr, hcxl, hroutes.clus⟩
  · rintro s v p _ ecc word f h rfl hdup hcheck
    exact ⟨_, exec_putData_live h, State.writeRequest_refused h hdup hcheck⟩
  · rintro s v p _ ecc word f h rfl hdup
    obtain ⟨hacks, hroutes⟩ := State.writeRequest_duplicate h hdup
    obtain ⟨hsram, hgddr, hcxl⟩ := State.MemoryKept.of_routes hroutes
    exact ⟨_, exec_storeFrame_live h, hacks, hsram, hgddr, hcxl, hroutes.clus⟩
  · rintro s v p _ ecc word f h rfl hdup hcheck
    exact ⟨_, exec_storeFrame_live h, State.writeRequest_refused h hdup hcheck⟩
  · intro s v q p ecc word f h hcheck hread
    exact ⟨_, exec_getReq_live h, State.readRequest_answers h (by decide) hcheck hread (State.routes_sendGet ..)⟩
  · intro s v q p ecc word f h hcheck hread
    exact ⟨_, exec_loadReq_live h, State.readRequest_answers h (by decide) hcheck hread (State.routes_respond ..)⟩
  · intro s v p f h hcheck
    exact ⟨_, exec_vreadReq_live h, State.readRequest_version h hcheck (State.routes_respond ..)⟩

end Sys2Proof.Machine
end

section
/-! Slot tables: a radio entry at its instant, the table's first cycle, loan windows, and the issue limit's delay
(R87, R248, R257, R259 to R261). -/
namespace Sys2Proof.Machine

/-- An event that finds room stands as the newest record, and nothing but the log changes (R492). -/
theorem State.logEvt_pushes {s : State} (code source m d : Nat) (h : s.logRoom 1) :
    (s.logEvt code source m d).lastEvt = some (code, source, m)
      ∧ s.logEvt code source m d = { s with log := (s.logEvt code source m d).log } := by
  rw [State.logEvt, State.logRec_of_room _ h]
  exact ⟨rfl, rfl⟩

/-- The stream of a segment that starts, its engines as a leaves them (R168, R231). -/
def StreamSt.running (v : StreamSt) (a : State) (im : Bytes) (h : SegHdr) : StreamSt :=
  { v with
    busy := true, image := im, segOff := h.off, arrays := h.arrays, engines := h.engines % 8, banks := h.banks
    startNs := a.clk.up, run := a.runNo + 1, ndSeed := if v.audit then v.auditSeed else a.clk.ns % 2 ^ 32 }

theorem State.startSeg_eq (s : State) (c st m x : Nat) (im : Bytes) (h : SegHdr) (lent : Bool) (v : StreamSt) :
    s.startSeg c st m x im h lent v
      = ({ s.segReadied c m h lent with runNo := (s.segReadied c m h lent).runNo + 1 }.setStream c st
          (v.running (s.segReadied c m h lent) im h)).segShown c st m x h.idx (listIdOf im) := rfl

/-- SEQ_STREAM is in state 1, whatever mould and context it names. -/
theorem State.rd_segShown_state (s : State) (c st m x idx id : Nat) : (s.segShown c st m x idx id).rd F.seqStream_state c st = 1 := by
  have hne : regAddr F.seqStream_state.reg c st ≠ regAddr .seqBeats c st := by
    rw [show F.seqStream_state.reg = .seqStream from rfl, regAddr_seqStream, regAddr_seqBeats]
    omega
  rw [State.segShown, State.rd_setReg_ne _ _ hne,
    State.rd_wr_beside _ (f := F.seqStream_listId) (g := F.seqStream_state) _ _ _ rfl (by decide) (.inl (by decide)),
    State.rd_wr_beside _ (f := F.seqStream_segIndex) (g := F.seqStream_state) _ _ _ rfl (by decide) (.inl (by decide)),
    State.rd_wr_beside _ (f := F.seqStream_ctx) (g := F.seqStream_state) _ _ _ rfl (by decide) (.inl (by decide)),
    State.rd_wr_beside _ (f := F.seqStream_mould) (g := F.seqStream_state) _ _ _ rfl (by decide) (.inl (by decide)),
    State.rd_wr_same _ _ _ _ _ (by decide)]
  rfl

/-- A segment that starts on a stream: the stream runs it from now on, and SEQ_STREAM shows it (R168). -/
theorem State.startSeg_runs (s : State) (c st m x : Nat) (im : Bytes) (h : SegHdr) (lent : Bool) (v : StreamSt) :
    ((s.startSeg c st m x im h lent v).stream c st).busy = true ∧ ((s.startSeg c st m x im h lent v).stream c st).slot = v.slot
      ∧ ((s.startSeg c st m x im h lent v).stream c st).image = im
      ∧ ((s.startSeg c st m x im h lent v).stream c st).startNs = s.clk.up
      ∧ (s.startSeg c st m x im h lent v).rd F.seqStream_state c st = 1
      ∧ s.startSeg c st m x im h lent v = { s with
          csr := (s.startSeg c st m x im h lent v).csr, clus := (s.startSeg c st m x im h lent v).clus
          runNo := (s.startSeg c st m x im h lent v).runNo } := by
  have hframe := (s.readies_segReadied c m h lent).frame
  rw [State.startSeg_eq]
  generalize s.segReadied c m h lent = a at *
  have hns : a.clk.up = s.clk.up := by rw [hframe]
  have hstream : ((State.setStream { a with runNo := a.runNo + 1 } c st (v.running a im h)).segShown c st m x h.idx (listIdOf im)).stream c st
      = v.running a im h := State.stream_setStream_same ..
  rw [hstream]
  refine ⟨rfl, rfl, rfl, hns, State.rd_segShown_state .., ?_⟩
  rw [hframe]
  rfl

section
variable {s : State} {dt m c i t : Nat} {e : SlotEntry} {l : ResList} {h : SegHdr}

/-- A radio entry's occurrence that is not yet settled is taken at its instant (R259). -/
theorem exec_slotEntryStart_due (hlive : s.live = true) (hentry : (s.pass dt).slotEntry m c i = some e)
    (hinstant : (s.pass dt).lastInstant m e.offset = some t) (hkind : e.kind = 1) (hruns : (s.pass dt).tableRuns m t e.offset = true)
    (hopen : Tab.get 0 (s.mould m).slotDone (slotKey c i) ≠ t + 1) :
    exec (.slotEntryStart dt m c i) s = .next ((s.pass dt).slotStart m c i t e).settle := by
  have hopen' : ¬ Tab.get 0 ((s.pass dt).mould m).slotDone (slotKey c i) = t + 1 := hopen
  rw [exec_slotEntryStart, execSlotEntryStart, whenLive_live _ _ hlive]
  simp [hentry, hinstant, hkind, hruns, hopen']

section
variable {s : State} (hlist : s.resident c m e.list = some l) (hhealthy : (s.mould m).faulted.contains l.ctx = false)
  (hseg : segHdr l.image 0 = some h) (hfence : s.fencedCluster c = false) (htest : s.testing c h.arrays = false)
include hlist hhealthy hseg hfence htest

/-- The first segment of an entry's list starts where nothing holds it back (R259). -/
theorem State.slotStart_starts (hidle : (s.stream c 0).busy = false) (hclaims : s.claimsFree c 0 h = true)
    (hsound : s.suspectIn c h.arrays = none) (hwarm : s.coldOf c h.arrays = 0) (hroom : h.movs ≤ s.movRoom c m l.ctx) :
    s.slotStart m c i t e
      = (s.slotSettled m c i t).startSeg c 0 m l.ctx l.image h false { StreamSt.init with slot := some (m, i) } := by
  have hhealthy' : l.ctx ∉ (s.mould m).faulted := by simpa using hhealthy
  unfold State.slotStart
  simp [hlist, hhealthy', hseg, hfence, htest, hidle, hclaims, hsound, hwarm, Nat.not_lt.mpr hroom]

/-- An entry whose stream is still busy 4 ns after its instant is skipped (R260). -/
theorem State.slotStart_misses (hbusy : (s.stream c 0).busy = true) (hlate : t + 4 ≤ s.clk.ns) :
    s.slotStart m c i t e = ((s.slotSettled m c i t).cnt F.slotCnt_missed m).slotLog 0x0F03 m c i t := by
  have hhealthy' : l.ctx ∉ (s.mould m).faulted := by simpa using hhealthy
  unfold State.slotStart
  simp [hlist, hhealthy', hseg, hfence, htest, hbusy, Nat.not_lt.mpr hlate]

end

theorem State.slotDone_slotSettled (s : State) (m c i t : Nat) :
    Tab.get 0 ((s.slotSettled m c i t).mould m).slotDone (slotKey c i) = t + 1 := by
  rw [State.slotSettled, State.mould_setMould, if_pos rfl]
  exact Tab.get_set_same 0 (s.mould m).slotDone (slotKey c i) (t + 1)

theorem exec_slotEntryStart_starts (hlive : s.live = true) (hentry : (s.pass dt).slotEntry m c i = some e)
    (hinstant : (s.pass dt).lastInstant m e.offset = some t) (hkind : e.kind = 1) (hruns : (s.pass dt).tableRuns m t e.offset = true)
    (hopen : Tab.get 0 (s.mould m).slotDone (slotKey c i) ≠ t + 1) (hlist : s.resident c m e.list = some l)
    (hhealthy : (s.mould m).faulted.contains l.ctx = false) (hseg : segHdr l.image 0 = some h)
    (hfence : s.fencedCluster c = false) (htest : s.testing c h.arrays = false) (hidle : (s.stream c 0).busy = false)
    (hclaims : s.claimsFree c 0 h = true) (hsound : s.suspectIn c h.arrays = none) (hwarm : s.coldOf c h.arrays = 0)
    (hroom : h.movs ≤ s.movRoom c m l.ctx) :
    ∃ u : State, exec (.slotEntryStart dt m c i) s = .next u.settle ∧ (u.stream c 0).busy = true ∧ (u.stream c 0).slot = some (m, i)
      ∧ (u.stream c 0).image = l.image ∧ (u.stream c 0).startNs = s.clk.up + dt ∧ u.rd F.seqStream_state c 0 = 1
      ∧ Tab.get 0 (u.mould m).slotDone (slotKey c i) = t + 1
      ∧ u = { s.pass dt with csr := u.csr, clus := u.clus, moulds := u.moulds, runNo := u.runNo } := by
  have hstarts := State.slotStart_starts (s := s.pass dt) (i := i) (t := t) hlist hhealthy hseg hfence htest hidle hclaims hsound hwarm hroom
  refine ⟨_, exec_slotEntryStart_due hlive hentry hinstant hkind hruns hopen, ?_⟩
  rw [hstarts]
  obtain ⟨hbusy, hslot, himage, hns, hstate, hframe⟩ := ((s.pass dt).slotSettled m c i t).startSeg_runs c 0 m l.ctx l.image h false
    { StreamSt.init with slot := some (m, i) }
  generalize State.startSeg _ c 0 m l.ctx l.image h false _ = u at *
  refine ⟨hbusy, hslot, himage, hns, hstate, ?_, ?_⟩
  · rw [hframe]
    exact State.slotDone_slotSettled ..
  · rw [hframe]
    rfl

theorem exec_slotEntryStart_misses (hlive : s.live = true) (hentry : (s.pass dt).slotEntry m c i = some e)
    (hinstant : (s.pass dt).lastInstant m e.offset = some t) (hkind : e.kind = 1) (hruns : (s.pass dt).tableRuns m t e.offset = true)
    (hopen : Tab.get 0 (s.mould m).slotDone (slotKey c i) ≠ t + 1) (hlist : s.resident c m e.list = some l)
    (hhealthy : (s.mould m).faulted.contains l.ctx = false) (hseg : segHdr l.image 0 = some h)
    (hfence : s.fencedCluster c = false) (htest : s.testing c h.arrays = false) (hbusy : (s.stream c 0).busy = true)
    (hlate : t + 4 ≤ (s.pass dt).clk.ns) (hroom : s.logRoom 1) :
    ∃ u : State, exec (.slotEntryStart dt m c i) s = .next u.settle ∧ u.rd F.slotCnt_missed m = satAdd F.slotCnt_missed.width (s.rd F.slotCnt_missed m) 1
      ∧ u.lastEvt = some (0x0F03, srcEngine c 8, m) ∧ Tab.get 0 (u.mould m).slotDone (slotKey c i) = t + 1
      ∧ RegsBut s u [regAddr .slotCnt m 0] ∧ u = { s.pass dt with csr := u.csr, moulds := u.moulds, log := u.log } := by
  have hskips := State.slotStart_misses (s := s.pass dt) (i := i) hlist hhealthy hseg hfence htest hbusy hlate
  refine ⟨_, exec_slotEntryStart_due hlive hentry hinstant hkind hruns hopen, ?_⟩
  rw [hskips]
  obtain ⟨hevt, hframe⟩ := State.logEvt_pushes (s := ((s.pass dt).slotSettled m c i t).cnt F.slotCnt_missed m) 0x0F03 (srcEngine c 8) m
    (c + i * 2 ^ 8 + t * 2 ^ 64) hroom
  refine ⟨?_, hevt, ?_, ?_, ?_⟩
  · rw [State.slotLog, hframe]
    exact State.rd_cnt_same _ F.slotCnt_missed m 0 1 (by decide)
  · rw [State.slotLog, hframe]
    exact State.slotDone_slotSettled ..
  · rw [State.slotLog, hframe]
    exact State.regsBut_cnt ((s.pass dt).slotSettled m c i t) F.slotCnt_missed m 0 1
  · rw [State.slotLog, hframe]
    rfl

end

theorem State.mould_setMould_same (s : State) (m : Nat) (v : MouldSt) : (s.setMould m v).mould m = v :=
  (State.mould_setMould s m m v).trans (if_pos rfl)

theorem State.mould_setMould_ne (s : State) {m n : Nat} (v : MouldSt) (h : n ≠ m) : (s.setMould m v).mould n = s.mould n :=
  (State.mould_setMould s m n v).trans (if_neg h)

section
variable {s : State} {dt m c i t : Nat} {e : SlotEntry}

/-- The table of a started mould runs from the first cycle instant at least 100 µs after its start (R248). -/
theorem exec_slotTableActivate_due {t0 b : Nat} (hlive : s.live = true) (hstarted : (s.mould m).tableAt = some t0) (hruns : s.mstate m = 3)
    (hb : b = s.phaseNs m + cdiv (t0 + 100000 - s.phaseNs m) (s.cycleNs m) * s.cycleNs m) (hnear : b ≤ (s.pass dt).clk.ns + 10000) :
    ∃ u : State, exec (.slotTableActivate dt m) s = .next u.settle ∧ (u.mould m).tableFrom = some b ∧ (u.mould m).tableAt = none
      ∧ (∀ n, n ≠ m → u.mould n = s.mould n) ∧ u = { s.pass dt with moulds := u.moulds } := by
  refine ⟨(s.pass dt).setMould m { s.mould m with tableAt := none, tableFrom := some b }, ?_, ?_, ?_,
    fun n hn => State.mould_setMould_ne (s.pass dt) _ hn, rfl⟩
  · have hdue : ¬ ((s.pass dt).mstate m ≠ 3 || decide ((s.pass dt).clk.ns + 10000 < b)) = true := by
      simp [show (s.pass dt).mstate m = 3 from hruns, hnear]
    rw [exec_slotTableActivate, execSlotTableActivate, whenLive_live _ _ hlive]
    dsimp only
    rw [show ((s.pass dt).mould m).tableAt = some t0 from hstarted]
    dsimp only
    rw [show (s.pass dt).phaseNs m + cdiv (t0 + 100000 - (s.pass dt).phaseNs m) ((s.pass dt).cycleNs m) * (s.pass dt).cycleNs m = b from hb.symm]
    rw [if_neg hdue]
    rfl
  · rw [State.mould_setMould_same]
  · rw [State.mould_setMould_same]

/-- A loan window opens until its end instant (R261). -/
theorem exec_loanWindowOpen_due (hlive : s.live = true) (hentry : (s.pass dt).slotEntry m c i = some e)
    (hinstant : (s.pass dt).lastInstant m e.offset = some t) (hkind : e.kind = 2) (hruns : (s.pass dt).tableRuns m t e.offset = true)
    (hends : (s.pass dt).clk.ns < t - e.offset + e.stop) :
    ∃ u : State, exec (.loanWindowOpen dt m c i) s = .next u.settle ∧ Tab.get 0 (u.mould m).windows (slotKey c i) = t - e.offset + e.stop
      ∧ (∀ n, n ≠ m → u.mould n = s.mould n) ∧ u = { s.pass dt with moulds := u.moulds } := by
  refine ⟨(s.pass dt).setMould m { s.mould m with windows := Tab.set 0 (s.mould m).windows (slotKey c i) (t - e.offset + e.stop) }, ?_, ?_,
    fun n hn => State.mould_setMould_ne (s.pass dt) _ hn, rfl⟩
  · rw [exec_loanWindowOpen, execLoanWindowOpen, whenLive_live _ _ hlive]
    simp only [hentry, hinstant, hkind, hruns]
    rw [if_neg (by simp [hends])]
    rfl
  · rw [State.mould_setMould_same]
    exact Tab.get_set_same 0 (s.mould m).windows (slotKey c i) _

/-- A loan window closes at its end instant (R261). -/
theorem exec_loanWindowClose_due (hlive : s.live = true) (hended : Tab.get 0 (s.mould m).windows (slotKey c i) ≤ (s.pass dt).clk.ns) :
    ∃ u : State, exec (.loanWindowClose dt m c i) s = .next u.settle ∧ Tab.get 0 (u.mould m).windows (slotKey c i) = 0
      ∧ (∀ n, n ≠ m → u.mould n = s.mould n) ∧ u = { s.pass dt with moulds := u.moulds } := by
  refine ⟨(s.pass dt).setMould m { s.mould m with windows := Tab.set 0 (s.mould m).windows (slotKey c i) 0 }, ?_, ?_,
    fun n hn => State.mould_setMould_ne (s.pass dt) _ hn, rfl⟩
  · rw [exec_loanWindowClose, execLoanWindowClose, whenLive_live _ _ hlive]
    exact congrArg (fun u : State => Host.Outcome.next u.settle) (if_neg (Nat.not_lt.mpr hended))
  · rw [State.mould_setMould_same]
    exact Tab.get_set_same 0 (s.mould m).windows (slotKey c i) 0

/-- The delay after a segment ends once the stream has waited its beats at the field's rate (R87). -/
theorem exec_issueLimitExpiry_due {st : Nat} (hlive : s.live = true) (hidle : (s.stream c st).busy = false)
    (hwaited : (s.stream c st).notBefore ≤ (s.clk.up + dt - (s.stream c st).startNs) * s.rd F.govStatus_rateMrate (fieldOf c) / 1000) :
    ∃ u : State, exec (.issueLimitExpiry dt c st) s = .next u.settle ∧ u.stream c st = { s.stream c st with notBefore := 0 }
      ∧ u = { s.pass dt with clus := u.clus } := by
  refine ⟨(s.pass dt).setStream c st { s.stream c st with notBefore := 0 }, ?_, State.stream_setStream_same .., rfl⟩
  rw [exec_issueLimitExpiry, execIssueLimitExpiry, whenLive_live _ _ hlive]
  refine congrArg (fun u : State => Host.Outcome.next u.settle) (if_neg ?_)
  rw [show (s.pass dt).stream c st = s.stream c st from rfl, hidle, Bool.false_or, decide_eq_true_eq]
  exact Nat.not_lt.mpr hwaited

end

/-- Settles O12: each clause is the lemma on what its command does in that case. -/
theorem slotTablesAndLoans : Obligations.SlotTablesAndLoans :=
  ⟨fun _ _ _ _ _ _ _ _ _ => exec_slotEntryStart_starts, fun _ _ _ _ _ _ _ _ _ => exec_slotEntryStart_misses,
    fun _ _ _ _ _ => exec_slotTableActivate_due, fun _ _ _ _ _ _ _ => exec_loanWindowOpen_due,
    fun _ _ _ _ _ => exec_loanWindowClose_due, fun _ _ _ _ => exec_issueLimitExpiry_due⟩

end Sys2Proof.Machine
end

section
/-! A mould starts, is chilled and is quenched (R244 to R249). -/
namespace Sys2Proof.Machine

section
variable {s t : State} {code : Nat} {r : MReq} {rest : List MReq}

/-- The answer of a command that left the management controller as core 0 took it: beside that controller and the outputs,
everything is as the command left it (R484). -/
theorem State.answer_of_mgmt (h : s.serves code r rest) (ht : t.mgmt = (s.taken rest).mgmt) (status handle : Nat) (body : Bytes) :
    s.answeredAs (t.answer r status handle body) r rest status handle body
      ∧ t.answer r status handle body = { t with
          mgmt := (t.answer r status handle body).mgmt, out := (t.answer r status handle body).out } := by
  obtain ⟨-, -, -, -, hsess⟩ := h
  obtain ⟨hanswer, hframe⟩ := State.answer_spec (s := t) (r := r) (by rw [State.session, ht]; exact hsess) status handle body
  generalize t.answer r status handle body = u at *
  refine ⟨⟨hanswer, ?_⟩, ?_⟩
  · rw [hframe, ht]
    rfl
  · rw [hframe]

end

theorem State.regsBut_of_csr {s t : State} (h : t.csr = s.csr) (as : List Nat) : RegsBut s t as :=
  fun _ _ => by rw [h]

theorem State.regsBut_moveMould_of_room {s : State} (h : s.logRoom 1) (m new heat : Nat) :
    RegsBut s (s.moveMould m new heat) [regAddr .mouldStatus m 0] := by
  unfold State.moveMould State.logEvt
  dsimp only
  rw [State.logRec_of_room (s := s.wr F.mouldStatus_state new m) _ h]
  exact State.regsBut_wr s F.mouldStatus_state new m 0

/-- A mould that moves keeps what it has beside its state register. -/
theorem State.mould_moveMould (s : State) (m n new heat : Nat) : (s.moveMould m new heat).mould n = s.mould n :=
  congrArg (Tab.get MouldSt.init · n) (by simp)

theorem leAt_mouldBody {b : Bytes} {m : Nat} (h : mouldBody b = true) (hm : m = leAt b 0 1) : m < 64 := by
  unfold mouldBody at h
  rw [Bool.and_eq_true, decide_eq_true_eq] at h
  exact hm ▸ h.2

section
variable {s : State} {r : MReq} {rest : List MReq} {m : Nat}

/-- A mould as MOULD_START leaves it, its slot table due from an instant where it has one (R248). -/
def MouldSt.startedAt (k : MouldSt) (at_ : Option Nat) : MouldSt :=
  { k with chilling := false, tableAt := at_, tableFrom := none, windows := [], slotDone := [], preWarmed := [] }

theorem exec_mouldStart_runs (h : s.serves 0x0011 r rest) (hbody : mouldBody r.body = true) (hm : m = leAt r.body 0 1)
    (hready : s.mstate m = 2 ∨ s.mstate m = 4) (hroom : s.logRoom 1) :
    ∃ u : State, exec .mouldStart s = .next u.settle ∧ s.answeredAs u r rest 0 0 [] ∧ u.mstate m = 3 ∧ (u.mould m).chilling = false
      ∧ (u.mould m).tableAt = (if s.isRadio m then some s.clk.ns else none) ∧ (u.mould m).tableFrom = none
      ∧ u.lastEvt = some (0x0F01, 0x00A0, m) ∧ RegsBut s u [regAddr .mouldStatus m 0] ∧ (∀ n, n ≠ m → u.mould n = s.mould n)
      ∧ u = { s with csr := u.csr, moulds := u.moulds, log := u.log, mgmt := u.mgmt, out := u.out } := by
  have hstate : ¬ ((s.taken rest).mstate m ≠ 2 && (s.taken rest).mstate m ≠ 4) = true := by
    rw [show (s.taken rest).mstate m = s.mstate m from rfl]
    rcases hready with hready | hready <;> simp [hready]
  have hexec : exec .mouldStart s = .next ((((s.taken rest).setMould m ((s.mould m).startedAt
      (if s.isRadio m then some s.clk.ns else none))).moveMould m 3 (s.heat m)).answer r 0).settle := by
    rw [exec_mouldStart, execMouldStart, takeCmd_serves h]
    dsimp only
    rw [← hm, State.bodyOk_pos hbody, if_neg hstate]
    rfl
  refine ⟨_, hexec, ?_⟩
  obtain ⟨k, hk⟩ : ∃ k, k = (s.mould m).startedAt (if s.isRadio m then some s.clk.ns else none) := ⟨_, rfl⟩
  rw [← hk]
  obtain ⟨hmoved, -, hevt, hframe⟩ := State.moveMould_of_room (s := (s.taken rest).setMould m k) hroom m 3 (s.heat m)
  have hregs := State.regsBut_moveMould_of_room (s := (s.taken rest).setMould m k) hroom m 3 (s.heat m)
  generalize ((s.taken rest).setMould m k).moveMould m 3 (s.heat m) = t at *
  obtain ⟨hanswered, hsent⟩ := State.answer_of_mgmt h (t := t) (by rw [hframe]; rfl) 0 0 []
  generalize t.answer r 0 = u at *
  have hmould : ∀ n, u.mould n = ((s.taken rest).setMould m k).mould n := by
    intro n
    rw [hsent, hframe]
    rfl
  have hmine : u.mould m = k := (hmould m).trans (State.mould_setMould_same ..)
  refine ⟨hanswered, ?_, ?_, ?_, ?_, ?_, ?_, fun n hn => (hmould n).trans (State.mould_setMould_ne _ _ hn), ?_⟩
  · rw [hsent]
    exact hmoved
  · rw [hmine, hk]
    rfl
  · rw [hmine, hk]
    rfl
  · rw [hmine, hk]
    rfl
  · rw [hsent]
    exact hevt
  · rw [hsent]
    exact hregs
  · rw [hsent, hframe]
    rfl

theorem exec_mouldChill_begins (h : s.serves 0x0012 r rest) (hbody : mouldBody r.body = true) (hm : m = leAt r.body 0 1)
    (hruns : s.mstate m = 3) (hquiet : (s.mould m).auditing = false) :
    ∃ u : State, exec .mouldChill s = .next u.settle ∧ s.answeredAs u r rest 0 0 [] ∧ u.mould m = { s.mould m with chilling := true }
      ∧ (∀ n, n ≠ m → u.mould n = s.mould n) ∧ u = { s with moulds := u.moulds, mgmt := u.mgmt, out := u.out } := by
  have hstate : ¬ ((s.taken rest).mstate m ≠ 3 || ((s.taken rest).mould m).auditing) = true := by
    rw [show (s.taken rest).mstate m = 3 from hruns, show ((s.taken rest).mould m).auditing = false from hquiet]
    decide
  have hexec : exec .mouldChill s = .next (((s.taken rest).setMould m { s.mould m with chilling := true }).answer r 0).settle := by
    rw [exec_mouldChill, execMouldChill, takeCmd_serves h]
    dsimp only
    rw [← hm, State.bodyOk_pos hbody, if_neg hstate]
    rfl
  refine ⟨_, hexec, ?_⟩
  obtain ⟨hanswered, hsent⟩ := State.answer_of_mgmt h (t := (s.taken rest).setMould m { s.mould m with chilling := true }) rfl 0 0 []
  generalize ((s.taken rest).setMould m { s.mould m with chilling := true }).answer r 0 = u at *
  have hmould : ∀ n, u.mould n = ((s.taken rest).setMould m { s.mould m with chilling := true }).mould n := fun n => by
    rw [hsent]
    rfl
  refine ⟨hanswered, (hmould m).trans (State.mould_setMould_same ..), fun n hn => (hmould n).trans (State.mould_setMould_ne _ _ hn), ?_⟩
  rw [hsent]
  rfl

theorem exec_mouldChilled_drained (hlive : s.live = true) (hruns : s.mstate m = 3) (hchilling : (s.mould m).chilling = true)
    (hdrained : s.chillDrained m = true) (hroom : s.logRoom 1) :
    ∃ u : State, exec (.mouldChilled m) s = .next u.settle ∧ u.mstate m = 4
      ∧ u.mould m = { s.mould m with chilling := false, tableAt := none, tableFrom := none }
      ∧ u.lastEvt = some (0x0F01, 0x00A0, m) ∧ RegsBut s u [regAddr .mouldStatus m 0] ∧ (∀ n, n ≠ m → u.mould n = s.mould n)
      ∧ u = { s with csr := u.csr, moulds := u.moulds, log := u.log } := by
  obtain ⟨k, hk⟩ : ∃ k, k = { s.mould m with chilling := false, tableAt := none, tableFrom := none } := ⟨_, rfl⟩
  have hexec : exec (.mouldChilled m) s = .next ((s.setMould m k).moveMould m 4 (s.heat m)).settle := by
    rw [exec_mouldChilled, execMouldChilled, whenLive_live _ _ hlive, if_pos (by simp [hruns, hchilling, hdrained]), hk]
  refine ⟨_, hexec, ?_⟩
  obtain ⟨hmoved, -, hevt, hframe⟩ := State.moveMould_of_room (s := s.setMould m k) hroom m 4 (s.heat m)
  have hregs := State.regsBut_moveMould_of_room (s := s.setMould m k) hroom m 4 (s.heat m)
  generalize (s.setMould m k).moveMould m 4 (s.heat m) = u at *
  have hmould : ∀ n, u.mould n = (s.setMould m k).mould n := fun n => by
    rw [hframe]
    rfl
  refine ⟨hmoved, ((hmould m).trans (State.mould_setMould_same ..)).trans hk, hevt, hregs,
    fun n hn => (hmould n).trans (State.mould_setMould_ne _ _ hn), ?_⟩
  rw [hframe]
  rfl

/-- A mould enters QUENCHING (Table 9.2 step 2): its heat and its quenches are one higher, and its record stands. -/
theorem State.enterQuench_spec (hroom : s.logRoom 1) (m : Nat) :
    (s.enterQuench m).mstate m = 5 ∧ (s.enterQuench m).heat m = (s.heat m + 1) % 2 ^ F.mouldStatus_heat.width
      ∧ ((s.enterQuench m).mould m).quenches = (s.mould m).quenches + 1 ∧ (s.enterQuench m).lastEvt = some (0x0F01, 0x00A0, m)
      ∧ RegsBut s (s.enterQuench m) [regAddr .mouldStatus m 0] ∧ (∀ n, n ≠ m → (s.enterQuench m).mould n = s.mould n)
      ∧ s.enterQuench m = { s with
          csr := (s.enterQuench m).csr, moulds := (s.enterQuench m).moulds, log := (s.enterQuench m).log } := by
  obtain ⟨a, ha⟩ : ∃ a, a = s.setMould m { s.mould m with chilling := false, quenches := (s.mould m).quenches + 1, tableAt := none, tableFrom := none } :=
    ⟨_, rfl⟩
  have henter : s.enterQuench m = (a.raiseHeat m).moveMould m 5 (s.heat m) := by rw [ha]; rfl
  have hraised : (a.raiseHeat m).heat m = (s.heat m + 1) % 2 ^ F.mouldStatus_heat.width := by
    rw [ha]
    exact State.rd_wr_same _ F.mouldStatus_heat _ m 0 (by decide)
  have hregs : RegsBut s (a.raiseHeat m) [regAddr .mouldStatus m 0] := by
    rw [ha]
    exact State.regsBut_wr (s.setMould m _) F.mouldStatus_heat _ m 0
  have hroom' : (a.raiseHeat m).logRoom 1 := by
    rw [ha]
    exact hroom
  obtain ⟨hmoved, hheat, hevt, hframe⟩ := State.moveMould_of_room hroom' m 5 (s.heat m)
  have hmregs := State.regsBut_moveMould_of_room hroom' m 5 (s.heat m)
  rw [henter]
  generalize (a.raiseHeat m).moveMould m 5 (s.heat m) = u at *
  have hmould : ∀ n, u.mould n = a.mould n := fun n => by
    rw [hframe]
    rfl
  refine ⟨hmoved, hheat.trans hraised, ?_, hevt, hregs.trans hmregs, fun n hn => ?_, ?_⟩
  · rw [hmould, ha, State.mould_setMould_same]
  · rw [hmould, ha, State.mould_setMould_ne _ _ hn]
  · rw [hframe, ha]
    rfl

/-- The clusters a quench of a mould has to clear, and its table steps (Table 9.2). -/
def State.quenchTotal (s : State) (m : Nat) : Nat :=
  match s.quenchBody m (cdiv (s.releaseBytes m) 65536 + 1) 2 0 with
  | .quench _ todo _ tables _ _ => 2 + todo.length + tables
  | _ => 0

/-- Entry i begins an operation, and the handle sequence goes on (R488). -/
def State.withOp (s : State) (i cmd kind total : Nat) (body : OpBody) : State :=
  { s with mgmt := { s.mgmt with
      handleSeq := s.mgmt.handleSeq + 1, ended := s.mgmt.ended.filter (· ≠ i)
      ops := Tab.set OpSt.init s.mgmt.ops i ⟨i + (s.mgmt.handleSeq + 1) % 2 ^ 24 * 256, cmd, 1, kind, 0, total, s.clk.ns, 0, 0, body, 0, 0⟩ } }

theorem State.newOp_of_free {i : Nat} (hfree : s.freeEntry = some i) (cmd kind total : Nat) (body : OpBody) :
    s.newOp cmd kind total body = some (i, s.withOp i cmd kind total body) := by
  unfold State.newOp
  rw [hfree]
  rfl

theorem State.op_withOp (s : State) (i cmd kind total : Nat) (body : OpBody) :
    (s.withOp i cmd kind total body).op i = ⟨i + (s.mgmt.handleSeq + 1) % 2 ^ 24 * 256, cmd, 1, kind, 0, total, s.clk.ns, 0, 0, body, 0, 0⟩ :=
  Tab.get_set_same ..

/-- The answer of a command that began an operation in entry i (R488). -/
theorem State.answer_of_withOp {t : State} {code i kind total : Nat} {body : OpBody} (h : s.serves code r rest)
    (ht : t.mgmt = ((s.taken rest).withOp i r.code kind total body).mgmt) :
    s.opStarted (t.answer r 0 (i + (s.mgmt.handleSeq + 1) % 2 ^ 24 * 256)) r rest i kind total body
      ∧ t.answer r 0 (i + (s.mgmt.handleSeq + 1) % 2 ^ 24 * 256) = { t with
          mgmt := (t.answer r 0 (i + (s.mgmt.handleSeq + 1) % 2 ^ 24 * 256)).mgmt
          out := (t.answer r 0 (i + (s.mgmt.handleSeq + 1) % 2 ^ 24 * 256)).out } := by
  obtain ⟨-, -, -, -, hsess⟩ := h
  obtain ⟨hanswer, hframe⟩ := State.answer_spec (s := t) (r := r) (by rw [State.session, ht]; exact hsess) 0
    (i + (s.mgmt.handleSeq + 1) % 2 ^ 24 * 256) []
  generalize t.answer r 0 (i + (s.mgmt.handleSeq + 1) % 2 ^ 24 * 256) = u at *
  refine ⟨⟨hanswer, ?_⟩, ?_⟩
  · rw [hframe, ht]
    rfl
  · rw [hframe]

/-- A quench that finds a free entry: the entry begins, then the mould is QUENCHING (R249). -/
theorem State.beginQuench_of_free {i : Nat} (hfree : s.freeEntry = some i) (cmd m : Nat) :
    s.beginQuench cmd m = some (i, (s.withOp i cmd 1 (s.quenchTotal m)
      (s.quenchBody m (cdiv (s.releaseBytes m) 65536 + 1) 2 0)).enterQuench m) := by
  unfold State.beginQuench
  dsimp only
  rw [State.newOp_of_free hfree]
  rfl

/-- An entry is free only while fewer than 64 operations run (R488). -/
theorem State.opsRunning_of_freeEntry {i : Nat} (hfree : s.freeEntry = some i) : s.opsRunning < 64 := by
  unfold State.freeEntry at hfree
  by_contra hfull
  rw [if_pos (by omega)] at hfree
  cases hfree

theorem exec_mouldQuench_begins {i : Nat} (h : s.serves 0x0013 r rest) (hbody : mouldBody r.body = true) (hm : m = leAt r.body 0 1)
    (hnone : s.quenchOp m = none) (hpour : s.pourOp m = none) (hlive : s.mouldLive m = true) (hborrowers : s.borrowersOf m = [])
    (hfree : s.freeEntry = some i) (hroom : s.logRoom 1) :
    ∃ u : State, exec .mouldQuench s = .next u.settle
      ∧ s.opStarted u r rest i 1 (u.op i).total (s.quenchBody m (cdiv (s.releaseBytes m) 65536 + 1) 2 0)
      ∧ u.mstate m = 5 ∧ u.heat m = (s.heat m + 1) % 2 ^ F.mouldStatus_heat.width ∧ (u.mould m).quenches = (s.mould m).quenches + 1
      ∧ u.lastEvt = some (0x0F01, 0x00A0, m) ∧ RegsBut s u [regAddr .mouldStatus m 0] ∧ (∀ n, n ≠ m → u.mould n = s.mould n)
      ∧ u = { s with csr := u.csr, moulds := u.moulds, log := u.log, mgmt := u.mgmt, out := u.out } := by
  have hborrowers' : (s.taken rest).borrowersOf m = [] := hborrowers
  have hcount : ¬ 64 < (s.taken rest).opsRunning + 1 + (([] : List Nat).filter (fun b => (s.taken rest).mouldLive b)).length := by
    have hrunning := State.opsRunning_of_freeEntry hfree
    rw [show (s.taken rest).opsRunning = s.opsRunning from rfl, List.filter_nil, List.length_nil]
    omega
  obtain ⟨w, hw⟩ : ∃ w, w = (s.taken rest).withOp i r.code 1 ((s.taken rest).quenchTotal m)
    ((s.taken rest).quenchBody m (cdiv ((s.taken rest).releaseBytes m) 65536 + 1) 2 0) := ⟨_, rfl⟩
  obtain ⟨hstate, hheat, hquenches, hevt, hregs, hothers, hframe⟩ := State.enterQuench_spec (s := w) (by rw [hw]; exact hroom) m
  have hhandle : ((w.enterQuench m).op i).handle = i + (s.mgmt.handleSeq + 1) % 2 ^ 24 * 256 := by
    rw [hframe, hw]
    exact congrArg OpSt.handle (State.op_withOp (s.taken rest) ..)
  have hexec : exec .mouldQuench s = .next (((w.enterQuench m).answer r 0 (i + (s.mgmt.handleSeq + 1) % 2 ^ 24 * 256)).settle) := by
    rw [exec_mouldQuench, execMouldQuench, takeCmd_serves h]
    dsimp only
    rw [← hm, State.bodyOk_pos hbody, show (s.taken rest).quenchOp m = none from hnone]
    dsimp only
    rw [show (s.taken rest).pourOp m = none from hpour]
    dsimp only
    rw [show (s.taken rest).mouldLive m = true from hlive, if_neg (by decide), hborrowers', if_neg hcount, List.foldl_nil,
      State.beginQuench_of_free (s := s.taken rest) hfree, ← hw, ← hhandle]
  refine ⟨_, hexec, ?_⟩
  obtain ⟨hstarted, hsent⟩ := State.answer_of_withOp h (t := w.enterQuench m) (i := i) (kind := 1) (total := (s.taken rest).quenchTotal m)
    (body := (s.taken rest).quenchBody m (cdiv ((s.taken rest).releaseBytes m) 65536 + 1) 2 0) (by rw [hframe, hw])
  generalize (w.enterQuench m).answer r 0 (i + (s.mgmt.handleSeq + 1) % 2 ^ 24 * 256) = u at *
  have htotal : (u.op i).total = (s.taken rest).quenchTotal m := by
    obtain ⟨-, hmgmt⟩ := hstarted
    rw [State.op, hmgmt]
    exact congrArg OpSt.total (Tab.get_set_same ..)
  refine ⟨htotal ▸ hstarted, ?_, ?_, ?_, ?_, ?_, fun n hn => ?_, ?_⟩
  · rw [hsent]
    exact hstate
  · rw [hsent]
    exact hheat.trans (by rw [hw]; rfl)
  · rw [hsent]
    exact hquenches.trans (by rw [hw]; rfl)
  · rw [hsent]
    exact hevt
  · rw [hsent]
    exact RegsBut.trans (State.regsBut_of_csr (by rw [hw]; rfl) _) hregs
  · rw [hsent]
    exact (hothers n hn).trans (by rw [hw]; rfl)
  · rw [hsent, hframe, hw]
    rfl

end

/-- Settles O19: each clause is the lemma on what its command does in that case. -/
theorem mouldLife : Obligations.MouldLife :=
  ⟨fun _ _ _ _ => exec_mouldStart_runs, fun _ _ _ _ => exec_mouldChill_begins,
    fun _ _ h _ => exec_mouldChilled_drained h, fun _ _ _ _ _ => exec_mouldQuench_begins⟩

end Sys2Proof.Machine
end

section
/-! What the stop of a context leaves unchanged: commands that wait, what was sent, and the parts that no segment, transfer or
group of a context stands in (R195, R239, R267, R373). -/
namespace Sys2Proof.Machine

/-- t is s after parts of a context stopped: what was sent stays sent, and the commands that wait go on waiting. -/
structure State.Halts (s t : State) : Prop where
  frame : t = { s with
    csr := t.csr, free := t.free, log := t.log, moulds := t.moulds, clus := t.clus, mgmt := t.mgmt, fab := t.fab, groups := t.groups
    aborts := t.aborts, egr := t.egr, out := t.out }
  waiting : t.mgmt.waiting = s.mgmt.waiting
  sent : ∀ e ∈ s.out, e ∈ t.out

namespace State.Halts

theorem refl (s : State) : s.Halts s := ⟨rfl, rfl, fun _ he => he⟩

theorem trans {s t u : State} (h : s.Halts t) (k : t.Halts u) : s.Halts u :=
  ⟨k.frame.trans (by rw [h.frame]), k.waiting.trans h.waiting, fun e he => k.sent e (h.sent e he)⟩

theorem foldl {α : Type} {f : State → α → State} (hf : ∀ (u : State) (a : α), u.Halts (f u a)) (l : List α) (s : State) :
    s.Halts (l.foldl f s) :=
  List.foldlRecOn l f (motive := s.Halts) (refl s) fun t ht a _ => ht.trans (hf t a)

/-- Nothing that core 0 keeps or sends is among the parts that change. -/
theorem of_parts {s t : State} (h : t = { s with
    csr := t.csr, free := t.free, log := t.log, moulds := t.moulds, clus := t.clus, fab := t.fab, groups := t.groups
    aborts := t.aborts, egr := t.egr }) : s.Halts t := by
  rw [h]
  exact ⟨rfl, rfl, fun _ he => he⟩

theorem setClu (s : State) (c : Nat) (v : ClusterSt) : s.Halts (s.setClu c v) := of_parts rfl

theorem wr (s : State) (f : Field) (v i j : Nat) : s.Halts (s.wr f v i j) := of_parts rfl

theorem cnt (s : State) (f : Field) (i j n : Nat) : s.Halts (s.cnt f i j n) := of_parts rfl

theorem logEvt (s : State) (code source m d : Nat) : s.Halts (s.logEvt code source m d) := by
  rw [State.logEvt_frame]
  exact of_parts rfl

theorem moveMould (s : State) (m new heat : Nat) : s.Halts (s.moveMould m new heat) :=
  (wr s F.mouldStatus_state new m 0).trans (logEvt ..)

theorem notify (s : State) (z : SessSt) (ty : Nat) (b : Bytes) : s.Halts (s.notify z ty b) :=
  ⟨rfl, rfl, fun _ he => List.mem_append_left _ he⟩

/-- An operation that ends is told to the sessions that subscribe to it (R491). -/
theorem endOp (s : State) (i state status : Nat) : s.Halts (s.endOp i state status) := by
  unfold State.endOp
  split
  · exact ⟨rfl, rfl, fun _ he => he⟩
  · dsimp only
    refine State.Halts.trans ?_ (foldl (fun u z => notify u z _ _) _ _)
    exact ⟨rfl, rfl, fun _ he => he⟩

theorem clearArray (s : State) (c a : Nat) : s.Halts (s.clearArray c a) := of_parts rfl

theorem hold (s : State) (c a until_ : Nat) : s.Halts (s.hold c a until_) := by
  rw [State.hold_frame]
  exact of_parts rfl

theorem releaseArrays (s : State) (c mask : Nat) : s.Halts (s.releaseArrays c mask) := by
  refine foldl (fun u a => ?_) _ s
  have hcleared : u.Halts (if u.rd F.arrStatus_power c a = 2 then (u.clearArray c a).hold c a (u.clk.up + u.gangHold c a) else u.clearArray c a) := by
    split
    · exact (clearArray u c a).trans (hold ..)
    · exact clearArray u c a
  dsimp only
  split
  · split
    · exact hcleared.trans (of_parts rfl)
    · exact hcleared
  · exact hcleared

theorem haltEngines (s : State) (c mask : Nat) : s.Halts (s.haltEngines c mask) := by
  refine foldl (fun u i => ?_) _ s
  split
  · exact of_parts rfl
  · exact refl u

theorem pushRecord (s : State) (c st active : Nat) (stopped : Option Nat) : s.Halts (s.pushRecord c st active stopped) := by
  unfold State.pushRecord
  dsimp only
  split
  · exact refl s
  · exact setClu ..

theorem freeStream (s : State) (c st active : Nat) : s.Halts (s.freeStream c st active) :=
  ((releaseArrays s c _).trans (haltEngines ..)).trans (of_parts rfl)

theorem countRun (s : State) (m x : Nat) : s.Halts (s.countRun m x) := of_parts rfl

theorem endAudit (s : State) (c m status : Nat) : s.Halts (s.endAudit c m status) := by
  unfold State.endAudit
  dsimp only
  split
  · refine State.Halts.trans ?_ (endOp ..)
    split
    · exact trans (of_parts rfl) (moveMould ..)
    · exact of_parts rfl
  · exact refl s

theorem endAudit_of (b : Bool) (s : State) (c m status : Nat) : s.Halts (if b then s.endAudit c m status else s) := by
  cases b
  · exact refl s
  · exact endAudit ..

theorem stopSegAt (s : State) (c st : Nat) (code : Option Nat) (elapsed : Nat) : s.Halts (s.stopSegAt c st code elapsed) := by
  unfold State.stopSegAt
  dsimp only
  split
  · exact refl s
  · refine State.Halts.trans ?_ (endAudit_of ..)
    refine State.Halts.trans ?_ (freeStream ..)
    have hcounted := (countRun s (s.rd F.seqStream_mould c st) (s.rd F.seqStream_ctx c st)).trans (wr _ F.seqBeats_elapsed elapsed c st)
    refine hcounted.trans ?_
    split
    · exact pushRecord ..
    · split
      · exact refl _
      · exact cnt ..

theorem stopSeg (s : State) (c st : Nat) (code : Option Nat) : s.Halts (s.stopSeg c st code) :=
  trans (of_parts rfl) (stopSegAt ..)

theorem emptyQueues (s : State) (m x : Nat) : s.Halts (s.emptyQueues m x) := by
  refine foldl (fun u e => ?_) _ s
  exact setClu ..

theorem dropMovs (s : State) (m x : Nat) : s.Halts (s.dropMovs m x) := by
  refine foldl (fun u e => ?_) _ s
  exact setClu ..

theorem stopThreads (s : State) (m x : Nat) : s.Halts (s.stopThreads m x) := by
  refine foldl (fun u e => foldl (fun w t => ?_) _ u) _ s
  split
  · exact of_parts rfl
  · exact refl w

theorem zeroTokens (s : State) (m x : Nat) : s.Halts (s.zeroTokens m x) := by
  refine foldl (fun u e => ?_) _ s
  exact setClu ..

theorem stopCtx (s : State) (m x : Nat) (code : Option Nat) : s.Halts (s.stopCtx m x code) := by
  unfold State.stopCtx
  dsimp only
  refine State.Halts.trans ?_ (stopThreads ..)
  refine State.Halts.trans ?_ (dropMovs ..)
  refine State.Halts.trans ?_ (emptyQueues ..)
  refine foldl (fun u p => ?_) _ s
  exact stopSeg ..

theorem abandon (s : State) (m x : Nat) : s.Halts (s.abandon m x) := by
  refine foldl (fun u e => ?_) _ s
  dsimp only
  split
  · exact refl u
  · exact of_parts rfl

theorem setRop (s : State) (i : Nat) (o : ROp) : s.Halts (s.setRop i o) := of_parts rfl

theorem endQueuedColl (s : State) (g code : Nat) : s.Halts (s.endQueuedColl g code) := by
  refine foldl (fun u p => ?_) _ s
  dsimp only
  split
  · exact refl u
  · exact (foldl (fun w v => setRop w _ _) _ u).trans (setClu ..)

theorem logWith (s : State) (code source m v : Nat) : s.Halts (s.logWith code source m v) := logEvt ..

theorem abortGroup (s : State) (g code : Nat) : s.Halts (s.abortGroup g code) := by
  unfold State.abortGroup
  dsimp only
  split
  · exact refl s
  · refine State.Halts.trans ?_ (logWith ..)
    have hended : s.Halts (match (s.grp g).cur with | some c => (s.announceAbort g code).endColl c.opId code | none => s.announceAbort g code) := by
      split <;> exact of_parts rfl
    exact (hended.trans (endQueuedColl ..)).trans (of_parts rfl)

theorem abortCtxGroups (s : State) (m x code : Nat) : s.Halts (s.abortCtxGroups m x code) := by
  refine foldl (fun u g => ?_) _ s
  split
  · exact abortGroup ..
  · exact refl u

/-- Aborts due now go out as frames (R373). -/
theorem flushAborts (s : State) : s.Halts s.flushAborts ∧ s.flushAborts.moulds = s.moulds := by
  have hsent : ∀ (u : State) (a : AbortSt), u.Routes (u.sendAbort a) := fun u a =>
    List.foldlRecOn a.devs _ (motive := u.Routes) rfl fun t ht d _ => ht.trans (State.routes_dispatchFrame ..)
  have hflushed : ∀ l : List AbortSt, ∀ u : State, u.Routes (l.foldl (fun w a => w.sendAbort a) u) := fun l u =>
    List.foldlRecOn l _ (motive := u.Routes) rfl fun t ht a _ => ht.trans (hsent t a)
  unfold State.flushAborts
  dsimp only
  generalize hrest : ({ s with aborts := _ } : State) = w
  have hroutes := hflushed (s.aborts.filter (fun a => a.at_ ≤ s.clk.up)) w
  generalize (s.aborts.filter (fun a => a.at_ ≤ s.clk.up)).foldl (fun w a => w.sendAbort a) w = u at *
  rw [← hrest] at hroutes
  exact ⟨of_parts (by rw [hroutes]), (congrArg State.moulds hroutes).trans rfl⟩

end State.Halts

/-- A context that was quenched counts its runs from 0 and is not FAULTED (R267). -/
theorem State.quenchCtx_spec (s : State) (m x : Nat) :
    s.Halts (s.quenchCtx m x) ∧ Tab.get 0 ((s.quenchCtx m x).mould m).runSeq x = 0
      ∧ ((s.quenchCtx m x).mould m).faulted.contains x = false := by
  unfold State.quenchCtx
  dsimp only
  have hraised : s.Halts ((s.raiseHeat m).wr F.ctxStatus_baseHeat ((s.raiseHeat m).heat m) m x) := .of_parts rfl
  generalize State.wr _ F.ctxStatus_baseHeat _ m x = a at *
  have hstopped := ((hraised.trans (.stopCtx a m x none)).trans (.abandon _ m x)).trans (.zeroTokens _ m x)
  have haborted := hstopped.trans (.abortCtxGroups _ m x E.collAborted)
  generalize State.abortCtxGroups _ m x E.collAborted = b at *
  rw [State.mould_setMould_same]
  refine ⟨haborted.trans (.of_parts rfl), Tab.get_set_same 0 (b.mould m).runSeq x 0, ?_⟩
  simp

end Sys2Proof.Machine
end

section
/-! CTX_QUENCH, SEG_START, AUDIT_RUN and ARR_SELFTEST (R159, R241, R242, R251, R253, R267). -/
namespace Sys2Proof.Machine

variable {s : State} {r : MReq} {rest : List MReq} {c m x i : Nat}

/-- The first response to a command of an open session goes out on the port R482 gives, and nothing sent before is lost. -/
theorem State.response_mem_answer (h : (s.session r.sess).isSome = true) (status handle : Nat) (body : Bytes) :
    Emit.response r.sess r.reqId status handle false body (s.sendPort r.port) ∈ (s.answer r status handle body).out := by
  obtain ⟨y, hy⟩ := Option.isSome_iff_exists.mp h
  obtain ⟨kept, dups, hreply⟩ := State.reply_of_session hy r.reqId r.port status handle body
  rw [State.answer, hreply]
  refine List.foldlRecOn dups _ (motive := fun u : State =>
    Emit.response r.sess r.reqId status handle false body (s.sendPort r.port) ∈ u.out) ?_ fun u hu p _ => ?_
  · exact List.mem_append_right _ List.mem_cons_self
  · exact List.mem_append_left _ hu

/-- What a command does once its operation has begun is done to the state in which it is answered (R488). -/
theorem State.startOp_of_free (hfree : s.freeEntry = some i) (kind total : Nat) (body : OpBody) (k : Nat → State → State) :
    s.startOp r kind total body k
      = k i ((s.withOp i r.code kind total body).answer r 0 (i + (s.mgmt.handleSeq + 1) % 2 ^ 24 * 256)) := by
  have hhandle : ((s.withOp i r.code kind total body).op i).handle = i + (s.mgmt.handleSeq + 1) % 2 ^ 24 * 256 :=
    congrArg OpSt.handle (State.op_withOp ..)
  rw [State.startOp, State.newOp_of_free hfree, ← hhandle]

theorem exec_ctxQuench_quenches (h : s.serves 0x0014 r rest) (hlen : r.body.length = 2) (hm : m = leAt r.body 0 1) (hmould : m < 64)
    (hx : x = leAt r.body 1 1) (hlive : s.mouldLive m = true) (hctx : x < s.ctxCount m) (hfree : s.freeEntry = some i) :
    ∃ u : State, exec .ctxQuench s = .next u.settle ∧ Tab.get 0 (u.mould m).runSeq x = 0 ∧ (u.mould m).faulted.contains x = false
      ∧ Emit.response r.sess r.reqId 0 (i + (s.mgmt.handleSeq + 1) % 2 ^ 24 * 256) false [] (s.sendPort r.port) ∈ u.out
      ∧ u.mgmt.waiting = rest
      ∧ u = { s with
          csr := u.csr, clus := u.clus, moulds := u.moulds, log := u.log, free := u.free, mgmt := u.mgmt, out := u.out
          groups := u.groups, aborts := u.aborts, fab := u.fab, egr := u.egr } := by
  have hbody : (r.body.length == 2 && decide (m < 64)) = true := by
    rw [hlen]
    simpa using hmould
  have hrange : ¬ (s.taken rest).ctxCount m ≤ x := Nat.not_le.mpr hctx
  obtain ⟨n, hexec⟩ : ∃ n : Nat, exec .ctxQuench s = .next (((((s.taken rest).withOp i r.code 1 n (.ctxQuench m x)).answer r 0
      (i + (s.mgmt.handleSeq + 1) % 2 ^ 24 * 256)).quenchCtx m x).flushAborts).settle := by
    refine ⟨((s.gangs m).filter (fun g => g.ctx.contains x)).length + 1, ?_⟩
    rw [exec_ctxQuench, execCtxQuench, takeCmd_serves h]
    dsimp only
    rw [← hm, ← hx, State.bodyOk_pos hbody, show (s.taken rest).mouldLive m = true from hlive, if_neg (by decide), if_neg hrange,
      State.startOp_of_free (s := s.taken rest) hfree]
    rfl
  refine ⟨_, hexec, ?_⟩
  have hsess : (((s.taken rest).withOp i r.code 1 n (.ctxQuench m x)).session r.sess).isSome = true := by
    obtain ⟨-, -, -, -, hsess⟩ := h
    exact hsess
  have hresponse := State.response_mem_answer hsess 0 (i + (s.mgmt.handleSeq + 1) % 2 ^ 24 * 256) []
  obtain ⟨hstarted, hsent⟩ := State.answer_of_withOp h (t := (s.taken rest).withOp i r.code 1 n (.ctxQuench m x)) rfl
  generalize ((s.taken rest).withOp i r.code 1 n (.ctxQuench m x)).answer r 0 (i + (s.mgmt.handleSeq + 1) % 2 ^ 24 * 256) = a at *
  obtain ⟨hquench, hruns, hfault⟩ := a.quenchCtx_spec m x
  generalize a.quenchCtx m x = b at *
  obtain ⟨hflush, hmoulds⟩ := State.Halts.flushAborts b
  generalize b.flushAborts = u at *
  have hmouldAt : u.mould m = b.mould m := congrArg (Tab.get MouldSt.init · m) hmoulds
  obtain ⟨hframe, hwaiting, hkept⟩ := hquench.trans hflush
  refine ⟨hmouldAt ▸ hruns, hmouldAt ▸ hfault, hkept _ hresponse, ?_, ?_⟩
  · obtain ⟨-, hmgmt⟩ := hstarted
    rw [hwaiting, hmgmt]
  · rw [hframe, hsent]
    rfl

/-- Whether a start request is taken does not depend on the commands that wait. -/
theorem State.enqueueStart_taken (s : State) (rest : List MReq) (c m x : Nat) (q : StartReq) :
    ((s.taken rest).enqueueStart c m x q).1 = (s.enqueueStart c m x q).1 := by
  unfold State.enqueueStart
  simp only [show (s.taken rest).resident c m q.list = s.resident c m q.list from rfl, apply_ite Prod.fst]
  cases s.resident c m q.list with
  | none => rfl
  | some l =>
    simp only [apply_ite Prod.fst]
    cases segHdr l.image q.seg with
    | none => rfl
    | some h =>
      simp only [apply_ite Prod.fst]
      rfl

theorem exec_segStart_queues {q : StartReq} (h : s.serves 0x0015 r rest) (hlen : r.body.length = 16) (hzero : leAt r.body 3 1 = 0)
    (htok : leAt r.body 10 1 < 32) (hen : leAt r.body 11 1 < 2) (hlast : leAt r.body 14 2 = 0) (hcluster : s.enabled c = true)
    (hmould : m < 64) (hm : m = leAt r.body 0 1) (hx : x = leAt r.body 1 1) (hc : c = leAt r.body 2 1)
    (hq : q = ⟨leAt r.body 4 4, leAt r.body 8 2, leAt r.body 10 1, leAt r.body 11 1 == 1, leAt r.body 12 2⟩)
    (htaken : (s.enqueueStart c m x q).1 = 0) :
    ∃ u : State, exec .segStart s = .next u.settle ∧ s.answeredAs u r rest 0 0 []
      ∧ Tab.get [] (u.clu c).queues (ctxKey m x) = Tab.get [] (s.clu c).queues (ctxKey m x) ++ [q]
      ∧ u.clu c = { s.clu c with queues := (u.clu c).queues } ∧ (∀ d, d ≠ c → u.clu d = s.clu d)
      ∧ u = { s with clus := u.clus, mgmt := u.mgmt, out := u.out } := by
  have hbody : (r.body.length == 16 && decide (m < 64) && (s.taken rest).enabled c && leAt r.body 3 1 == 0 && decide (leAt r.body 10 1 < 32)
      && decide (leAt r.body 11 1 < 2) && leAt r.body 14 2 == 0) = true := by
    simp [hlen, hzero, hlast, htok, hen, hmould, show (s.taken rest).enabled c = true from hcluster]
  have hqueued := (State.enqueueStart_cases (s.taken rest) c m x q).resolve_left fun hcode =>
    hcode.1 ((s.enqueueStart_taken rest c m x q).trans htaken)
  obtain ⟨k, hk⟩ : ∃ k : ClusterSt, k = { s.clu c with
    queues := Tab.put (s.clu c).queues (ctxKey m x) (Tab.get [] (s.clu c).queues (ctxKey m x) ++ [q]) } := ⟨_, rfl⟩
  have hexec : exec .segStart s = .next (((s.taken rest).setClu c k).answer r 0).settle := by
    rw [exec_segStart, execSegStart, takeCmd_serves h]
    dsimp only
    rw [← hm, ← hx, ← hc, State.bodyOk_pos hbody, ← hq, hqueued, hk]
    rfl
  refine ⟨_, hexec, ?_⟩
  obtain ⟨hanswered, hclu, hothers, hframe⟩ := State.answer_setClu h c k
  refine ⟨hanswered, ?_, ?_, hothers, hframe⟩
  · rw [hclu, hk, Tab.get, Tab.find_put_same, Option.getD_some]
  · rw [hclu, hk]

/-- An audit waits while every stream of its cluster is busy (R242). -/
theorem State.tryAudit_waits {t : State} {list seg seed c' st : Nat} {l : ResList} {hd : SegHdr} (haudit : (t.clu c).auditOp = some i)
    (hop : (t.op i).body = .audit c' m x list seg seed) (hlist : t.resident c m list = some l) (hseg : segHdr l.image seg = some hd)
    (hbusy : (t.stream c st).busy = true) : t.tryAudit c st = t := by
  unfold State.tryAudit
  simp [haudit, hop, hlist, hseg, hbusy]

theorem exec_auditRun_waits {l : ResList} {hd : SegHdr} (h : s.serves 0x001C r rest) (hlen : r.body.length = 16)
    (hzero : leAt r.body 3 1 = 0) (hlast : leAt r.body 10 2 = 0) (hmould : m < 64) (hcluster : s.enabled c = true)
    (hm : m = leAt r.body 0 1) (hx : x = leAt r.body 1 1) (hc : c = leAt r.body 2 1) (hready : s.mstate m = 2) (hctx : x < s.ctxCount m)
    (hlist : s.resident c m (leAt r.body 4 4) = some l) (howner : l.ctx = x) (hseg : segHdr l.image (leAt r.body 8 2) = some hd)
    (hdigest : bitsOf hd.flags 2 4 ≠ 0) (hnone : (s.clu c).auditOp = none) (hfree : s.freeEntry = some i)
    (hbusy : (List.range 4).all (fun st => (s.stream c st).busy) = true) (hroom : s.logRoom 1) :
    ∃ u : State, exec .auditRun s = .next u.settle
      ∧ s.opStarted u r rest i 8 1 (.audit c m x (leAt r.body 4 4) (leAt r.body 8 2) (leAt r.body 12 4))
      ∧ u.mstate m = 3 ∧ u.mould m = { s.mould m with auditing := true } ∧ u.clu c = { s.clu c with auditOp := some i }
      ∧ u.lastEvt = some (0x0F01, 0x00A0, m) ∧ RegsBut s u [regAddr .mouldStatus m 0]
      ∧ u = { s with csr := u.csr, clus := u.clus, moulds := u.moulds, log := u.log, mgmt := u.mgmt, out := u.out } := by
  have hbody : (r.body.length == 16 && decide (m < 64) && (s.taken rest).enabled c && leAt r.body 3 1 == 0 && leAt r.body 10 2 == 0) = true := by
    simp [hlen, hzero, hlast, hmould, show (s.taken rest).enabled c = true from hcluster]
  have hfound : ((s.taken rest).resident c m (leAt r.body 4 4)).bind (fun l => if l.ctx = x then segHdr l.image (leAt r.body 8 2) else none)
      = some hd := by
    rw [show (s.taken rest).resident c m (leAt r.body 4 4) = some l from hlist, Option.bind_some, if_pos howner, hseg]
  obtain ⟨b, hb⟩ : ∃ b : OpBody, b = .audit c m x (leAt r.body 4 4) (leAt r.body 8 2) (leAt r.body 12 4) := ⟨_, rfl⟩
  obtain ⟨a, ha⟩ : ∃ a : State, a = ((s.taken rest).withOp i r.code 8 1 b).answer r 0 (i + (s.mgmt.handleSeq + 1) % 2 ^ 24 * 256) := ⟨_, rfl⟩
  obtain ⟨t, ht⟩ : ∃ t : State, t = ((a.setClu c { a.clu c with auditOp := some i }).setMould m { a.mould m with auditing := true }).moveMould m 3 (a.heat m) :=
    ⟨_, rfl⟩
  obtain ⟨sts, hsts, hexec⟩ : ∃ sts : List Nat, sts ⊆ List.range 4 ∧
      exec .auditRun s = .next (sts.foldl (fun (u : State) st => u.tryAudit c st) t).settle := by
    refine ⟨if t.claimer c = some m then [0, 1, 2, 3] else [1, 2, 3], by split <;> decide, ?_⟩
    rw [exec_auditRun, execAuditRun, takeCmd_serves h]
    dsimp only
    rw [← hm, ← hx, ← hc, State.bodyOk_pos hbody, show (s.taken rest).mstate m = 2 from hready, if_neg (by decide),
      if_neg (show ¬ (s.taken rest).ctxCount m ≤ x from Nat.not_le.mpr hctx), hfound]
    dsimp only
    rw [if_neg hdigest, show ((s.taken rest).clu c).auditOp = none from hnone, if_neg (by decide),
      State.startOp_of_free (s := s.taken rest) hfree, ← hb, ht, ha]
    rfl
  obtain ⟨hstarted, hsent⟩ := State.answer_of_withOp h (t := (s.taken rest).withOp i r.code 8 1 b) rfl
  rw [← ha] at hstarted hsent
  have hframe : a = { s with mgmt := a.mgmt, out := a.out } := by
    rw [hsent]
    rfl
  obtain ⟨k, hk⟩ : ∃ k : MouldSt, k = { a.mould m with auditing := true } := ⟨_, rfl⟩
  obtain ⟨g, hg⟩ : ∃ g : ClusterSt, g = { a.clu c with auditOp := some i } := ⟨_, rfl⟩
  rw [← hk, ← hg] at ht
  obtain ⟨hstate, -, hevt, hmoved⟩ := State.moveMould_of_room (s := (a.setClu c g).setMould m k) (by rw [hframe]; exact hroom) m 3 (a.heat m)
  have hregs := State.regsBut_moveMould_of_room (s := (a.setClu c g).setMould m k) (by rw [hframe]; exact hroom) m 3 (a.heat m)
  rw [← ht] at hstate hevt hmoved hregs
  have hclu : t.clu c = { s.clu c with auditOp := some i } := by
    have hgs : g = { s.clu c with auditOp := some i } := by
      rw [hg, hframe]
      rfl
    rw [hmoved, ← hgs]
    exact (State.clu_setClu ..).trans (if_pos rfl)
  have hwaits : ∀ st ∈ sts, t.tryAudit c st = t := by
    intro st hst
    refine State.tryAudit_waits (i := i) (list := leAt r.body 4 4) (seg := leAt r.body 8 2) (seed := leAt r.body 12 4) (c' := c) (x := x) (m := m)
      (l := l) (hd := hd) ?_ ?_ ?_ hseg ?_
    · rw [hclu]
    · have hop : t.op i = a.op i := by
        rw [hmoved]
        rfl
      obtain ⟨-, hmgmt⟩ := hstarted
      rw [hop, ← hb, State.op, hmgmt]
      exact congrArg OpSt.body (Tab.get_set_same ..)
    · rw [State.resident, hclu]
      exact hlist
    · rw [State.stream, hclu]
      exact List.all_eq_true.mp hbusy st (hsts hst)
  have hfold : sts.foldl (fun (u : State) st => u.tryAudit c st) t = t :=
    List.foldlRecOn sts _ (motive := fun u => u = t) rfl fun u hu st hst => by rw [hu, hwaits st hst]
  rw [hfold] at hexec
  refine ⟨t, hexec, ?_, hstate, ?_, hclu, hevt, ?_, ?_⟩
  · obtain ⟨hanswer, hmgmt⟩ := hstarted
    rw [hb] at hmgmt
    rw [hmoved]
    exact ⟨hanswer, hmgmt⟩
  · have hks : k = { s.mould m with auditing := true } := by
      rw [hk, hframe]
      rfl
    rw [hmoved, ← hks]
    exact State.mould_setMould_same ..
  · exact RegsBut.trans (State.regsBut_of_csr (by rw [hframe]; rfl) _) hregs
  · rw [hmoved, hframe]
    rfl

theorem exec_arrSelftest_starts {a : Nat} (h : s.serves 0x001D r rest) (hlen : r.body.length = 2) (hc : c = leAt r.body 0 1)
    (ha : a = leAt r.body 1 1) (hcluster : s.enabled c = true) (harray : a < 4) (hok : s.selfTestOk c a = true) (hfree : s.freeEntry = some i) :
    ∃ u : State, exec .arrSelftest s = .next u.settle ∧ s.opStarted u r rest i 8 1 (.selfTest c a) ∧ u.rd F.arrStatus_selfTestBusy c a = 1
      ∧ RegsBut s u [regAddr .arrStatus c a] ∧ u = { s with csr := u.csr, mgmt := u.mgmt, out := u.out } := by
  have hbody : (r.body.length == 2 && (s.taken rest).enabled c && decide (a < 4)) = true := by
    simp [hlen, harray, show (s.taken rest).enabled c = true from hcluster]
  obtain ⟨t, ht⟩ : ∃ t : State, t = ((s.taken rest).withOp i r.code 8 1 (.selfTest c a)).answer r 0 (i + (s.mgmt.handleSeq + 1) % 2 ^ 24 * 256) := ⟨_, rfl⟩
  obtain ⟨hstarted, hsent⟩ := State.answer_of_withOp h (t := (s.taken rest).withOp i r.code 8 1 (.selfTest c a)) rfl
  rw [← ht] at hstarted hsent
  have hframe : t = { s with mgmt := t.mgmt, out := t.out } := by
    rw [hsent]
    rfl
  have hok' : t.selfTestOk c a = true := by
    rw [hframe]
    exact hok
  have hexec : exec .arrSelftest s = .next (t.wr F.arrStatus_selfTestBusy 1 c a).settle := by
    rw [exec_arrSelftest, execArrSelftest, takeCmd_serves h]
    dsimp only
    rw [← hc, ← ha, State.bodyOk_pos hbody, show (s.taken rest).selfTestOk c a = true from hok, if_neg (by decide),
      State.startOp_of_free (s := s.taken rest) hfree]
    rw [show (s.taken rest).mgmt.handleSeq = s.mgmt.handleSeq from rfl, ← ht, State.selfTest, if_pos hok']
  refine ⟨_, hexec, hstarted, ?_, ?_, ?_⟩
  · exact State.rd_wr_same t F.arrStatus_selfTestBusy 1 c a (by decide)
  · exact RegsBut.trans (State.regsBut_of_csr (by rw [hsent]; rfl) _) (State.regsBut_wr t F.arrStatus_selfTestBusy 1 c a)
  · rw [hsent]
    rfl

/-- Settles O20: each clause is the lemma on what its command does in that case. -/
theorem contextQuenchesStartsAndAudits : Obligations.ContextQuenchesStartsAndAudits :=
  ⟨fun _ _ _ _ _ _ => exec_ctxQuench_quenches, fun _ _ _ _ _ _ _ => exec_segStart_queues,
    fun _ _ _ _ _ _ _ _ _ => exec_auditRun_waits, fun _ _ _ _ _ _ => exec_arrSelftest_starts⟩

end Sys2Proof.Machine
end

section
/-! The hot set: its directory, and the commands that use it (R262 to R265). -/
namespace Sys2Proof.Machine

variable {s : State} {r : MReq} {rest : List MReq} {m n i src dst : Nat} {d : Bytes} {e : HotEntry}

/-- An entry found under a key has that key. -/
theorem State.hotOf_some (h : s.hotOf m d = some e) : e ∈ s.hot ∧ e.mould = m ∧ e.digest = d := by
  have hkey := List.find?_some h
  simp only [Bool.and_eq_true, decide_eq_true_eq] at hkey
  exact ⟨List.mem_of_find?_eq_some h, hkey⟩

/-- A search among entries of which some were replaced by v, an entry of the same key, finds what it would have found, or v in its place. -/
theorem find_setHot (l : List HotEntry) (v : HotEntry) (m : Nat) (d : Bytes) :
    (l.map (fun x => if x.mould = v.mould && x.digest = v.digest then v else x)).find? (fun x => x.mould = m && x.digest = d)
      = (l.find? (fun x => x.mould = m && x.digest = d)).map (fun x => if x.mould = v.mould && x.digest = v.digest then v else x) := by
  rw [List.find?_map]
  congr 2
  funext x
  by_cases hkey : x.mould = v.mould ∧ x.digest = v.digest
  · simp [hkey]
  · simp [hkey]

/-- What a changed entry leaves in the directory: itself under its key, and every other key as it was. -/
theorem State.setHot_spec (h : s.hotOf m d = some e) {v : HotEntry} (hmould : v.mould = e.mould) (hdigest : v.digest = e.digest) :
    (s.setHot v).hotOf m d = some v ∧ (s.setHot v).hot.length = s.hot.length
      ∧ ∀ k f, (k, f) ≠ (m, d) → (s.setHot v).hotOf k f = s.hotOf k f := by
  obtain ⟨-, hm, hd⟩ := State.hotOf_some h
  refine ⟨?_, List.length_map _, fun k f hne => ?_⟩
  · refine (find_setHot s.hot v m d).trans ?_
    rw [show s.hot.find? (fun x => x.mould = m && x.digest = d) = some e from h, Option.map_some, hmould, hdigest]
    simp
  · refine (find_setHot s.hot v k f).trans ?_
    cases hfound : s.hotOf k f with
    | none => exact congrArg (Option.map _) hfound
    | some x =>
      obtain ⟨-, hk, hf⟩ := State.hotOf_some hfound
      have hother : ¬ (x.mould = v.mould && x.digest = v.digest) = true := by
        rw [hk, hf, hmould, hdigest, hm, hd]
        simpa using hne
      refine (congrArg (Option.map _) hfound).trans ?_
      rw [Option.map_some, if_neg hother]

theorem exec_hotPool_gives {l : List (Nat × Nat)} (h : s.serves 0x0020 r rest) (hmin : 8 ≤ r.body.length) (hm : m = leAt r.body 0 1)
    (hn : n = leAt r.body 1 1) (hmould : m < 64) (hranges : n ≤ 16) (hlen : r.body.length = 8 + 16 * n) (hzero : leAt r.body 4 4 = 0)
    (hl : l = (List.range n).map (fun i => (leAt r.body (8 + 16 * i) 8, leAt r.body (16 + 16 * i) 8))) (hlive : s.mouldLive m = true)
    (hroom : sumNat (s.moulds.map (fun e => e.2.maxHot)) + leAt r.body 2 2 ≤ 1024) (hnone : (s.mould m).pooled = false)
    (hok : l.all (fun p => s.poolOk m p.1 p.2) = true) :
    ∃ u : State, exec .hotPool s = .next u.settle ∧ s.answeredAs u r rest 0 0 []
      ∧ u = { s.setMould m { s.mould m with pooled := true, pools := l, maxHot := leAt r.body 2 2 } with mgmt := u.mgmt, out := u.out } := by
  have hbody : (decide (8 ≤ r.body.length) && decide (m < 64) && decide (n ≤ 16) && r.body.length == 8 + 16 * n && leAt r.body 4 4 == 0)
      = true := by
    simp [hmin, hmould, hranges, ← hlen, hzero]
  have hlimit : ¬ 1024 < sumNat ((s.taken rest).moulds.map (fun e => e.2.maxHot)) + leAt r.body 2 2 := Nat.not_lt.mpr hroom
  have hfits : ¬ (((s.taken rest).mould m).pooled || !l.all (fun p => (s.taken rest).poolOk m p.1 p.2)) = true := by
    rw [show ((s.taken rest).mould m).pooled = false from hnone, show l.all (fun p => (s.taken rest).poolOk m p.1 p.2) = true from hok]
    decide
  have hexec : exec .hotPool s = .next (((s.taken rest).setMould m
      { s.mould m with pooled := true, pools := l, maxHot := leAt r.body 2 2 }).answer r 0).settle := by
    rw [exec_hotPool, execHotPool, takeCmd_serves h]
    dsimp only
    rw [← hm, ← hn, State.bodyOk_pos hbody, ← hl, show (s.taken rest).mouldLive m = true from hlive, if_neg (by decide), if_neg hlimit,
      if_neg hfits]
    rfl
  obtain ⟨hanswered, hframe⟩ := State.answer_of_mgmt h (t := (s.taken rest).setMould m
      { s.mould m with pooled := true, pools := l, maxHot := leAt r.body 2 2 }) rfl 0 0 []
  exact ⟨_, hexec, hanswered, hframe⟩

/-- A command about an entry that changes it answers, and changes nothing else. -/
theorem State.answer_setHot {code : Nat} (h : s.serves code r rest) (v : HotEntry) (status handle : Nat) (body : Bytes) :
    s.answeredAs (((s.taken rest).setHot v).answer r status handle body) r rest status handle body
      ∧ ((s.taken rest).setHot v).answer r status handle body = { s.setHot v with
          mgmt := (((s.taken rest).setHot v).answer r status handle body).mgmt
          out := (((s.taken rest).setHot v).answer r status handle body).out } :=
  State.answer_of_mgmt h (t := (s.taken rest).setHot v) rfl status handle body

/-- The directory in which a changed entry was answered. -/
theorem State.hotOf_answer_setHot {code : Nat} (h : s.serves code r rest) (hentry : s.hotOf m d = some e) {v : HotEntry}
    (hmould : v.mould = e.mould) (hdigest : v.digest = e.digest) (status handle : Nat) (body : Bytes) :
    (((s.taken rest).setHot v).answer r status handle body).hotOf m d = some v
      ∧ (((s.taken rest).setHot v).answer r status handle body).hot.length = s.hot.length
      ∧ ∀ k f, (k, f) ≠ (m, d) → (((s.taken rest).setHot v).answer r status handle body).hotOf k f = s.hotOf k f := by
  rw [(State.answer_setHot h v status handle body).2]
  exact State.setHot_spec hentry hmould hdigest

/-- The body of a load, and the checks it passes before the directory is looked at (R263). -/
theorem hotLoad_body (hlen : r.body.length = 64) (hmould : m < 64) (hzero : allZero (slice r.body 1 7) = true) (hn : n ≠ 0)
    (halign : n % 64 = 0) (hmax : n < 2 ^ 40) :
    (r.body.length == 64 && decide (m < 64) && allZero (slice r.body 1 7) && n != 0 && n % 64 == 0 && decide (n < 2 ^ 40)) = true := by
  rw [hlen, hzero, halign, decide_eq_true hmould, decide_eq_true hmax, bne_iff_ne.mpr hn]
  rfl

theorem exec_hotLoad_resident (h : s.serves 0x0021 r rest) (hlen : r.body.length = 64) (hm : m = leAt r.body 0 1) (hmould : m < 64)
    (hzero : allZero (slice r.body 1 7) = true) (hd : d = slice r.body 8 32) (hdst : dst = leAt r.body 48 8 % 2 ^ 48)
    (hn : n = leAt r.body 56 8) (hpos : n ≠ 0) (halign : n % 64 = 0) (hmax : n < 2 ^ 40) (hlive : s.mouldLive m = true)
    (hpool : (s.mould m).pools.any (fun p => p.1 ≤ dst && dst + n ≤ p.1 + p.2) = true)
    (hcovered : s.covered m (leAt r.body 40 8 % 2 ^ 48) n 1 = true)
    (hfar : ((s.cover m (leAt r.body 40 8 % 2 ^ 48) n).getD []).all (fun g => g.tier = 1 || g.tier = 2) = true)
    (hentry : s.hotOf m d = some e) (hresident : e.loading = false) (hplace : e.dst = dst) :
    ∃ u : State, exec .hotLoad s = .next u.settle ∧ s.answeredAs u r rest 0 0 [] ∧ u.hotOf m d = some { e with lastUse := s.clk.ns }
      ∧ u = { s.setHot { e with lastUse := s.clk.ns } with mgmt := u.mgmt, out := u.out } := by
  have hexec : exec .hotLoad s = .next (((s.taken rest).setHot { e with lastUse := s.clk.ns }).answer r 0).settle := by
    rw [exec_hotLoad, execHotLoad, takeCmd_serves h]
    dsimp only
    rw [← hm, ← hd, ← hdst, ← hn, State.bodyOk_pos (hotLoad_body hlen hmould hzero hpos halign hmax),
      show (s.taken rest).mouldLive m = true from hlive, if_neg (by decide),
      show ((s.taken rest).mould m).pools.any (fun p => p.1 ≤ dst && dst + n ≤ p.1 + p.2) = true from hpool,
      show (s.taken rest).covered m (leAt r.body 40 8 % 2 ^ 48) n 1 = true from hcovered,
      show (((s.taken rest).cover m (leAt r.body 40 8 % 2 ^ 48) n).getD []).all (fun g => g.tier = 1 || g.tier = 2) = true from hfar,
      if_neg (by decide), show (s.taken rest).hotOf m d = some e from hentry]
    dsimp only
    rw [hresident, if_neg (by decide), if_pos hplace]
    rfl
  obtain ⟨hanswered, hframe⟩ := State.answer_setHot h { e with lastUse := s.clk.ns } 0 0 []
  exact ⟨_, hexec, hanswered, (State.hotOf_answer_setHot h hentry (v := { e with lastUse := s.clk.ns }) rfl rfl 0 0 []).1, hframe⟩

/-- Nothing is evicted where no entry matches. -/
theorem State.evict_none {p : HotEntry → Bool} (h : s.hot.any p = false) : s.evict p = s := by
  have hnone : s.hot.filter p = [] := List.filter_eq_nil_iff.mpr fun x hx hp => by
    rw [List.any_eq_true.mpr ⟨x, hx, hp⟩] at h
    cases h
  rw [State.evict, hnone, List.length_nil, if_pos rfl]

/-- What an eviction removes and counts. -/
theorem State.evict_some {p : HotEntry → Bool} (h : e ∈ s.hot) (hp : p e = true) :
    s.evict p = { s with hot := s.hot.filter (fun x => !p x) }.cnt F.hotStatus_evictions 0 0 (s.hot.filter p).length := by
  have hsome : (s.hot.filter p).length ≠ 0 := fun hzero =>
    List.filter_eq_nil_iff.mp (List.length_eq_zero_iff.mp hzero) e h hp
  rw [State.evict, if_neg hsome]

theorem exec_hotLoad_begins (h : s.serves 0x0021 r rest) (hlen : r.body.length = 64) (hm : m = leAt r.body 0 1) (hmould : m < 64)
    (hzero : allZero (slice r.body 1 7) = true) (hd : d = slice r.body 8 32) (hsrc : src = leAt r.body 40 8 % 2 ^ 48)
    (hdst : dst = leAt r.body 48 8 % 2 ^ 48) (hn : n = leAt r.body 56 8) (hpos : n ≠ 0) (halign : n % 64 = 0) (hmax : n < 2 ^ 40)
    (hlive : s.mouldLive m = true) (hpool : (s.mould m).pools.any (fun p => p.1 ≤ dst && dst + n ≤ p.1 + p.2) = true)
    (hcovered : s.covered m src n 1 = true) (hfar : ((s.cover m src n).getD []).all (fun g => g.tier = 1 || g.tier = 2) = true)
    (habsent : s.hotOf m d = none) (hclear : s.hot.any (fun e => e.mould = m && e.dst < dst + n && dst < e.dst + e.len) = false)
    (hroom : (s.hot.filter (fun e => e.mould = m)).length < (s.mould m).maxHot) (hfree : s.freeEntry = some i) :
    ∃ u : State, exec .hotLoad s = .next u.settle ∧ s.opStarted u r rest i 5 (2 + cdiv n 262144 + cdiv n 1048576) (.hot m d src dst n)
      ∧ u = { s with hot := s.hot ++ [⟨d, m, true, dst, n, 0, s.clk.ns, (u.op i).handle⟩], mgmt := u.mgmt, out := u.out } := by
  have hnoclash : (s.taken rest).hot.any (fun e => decide (e.mould = m ∧ e.dst < dst + n ∧ dst < e.dst + e.len)) = false := by
    rw [← hclear]
    simp [Bool.and_assoc, State.taken]
  have hblocked : (s.taken rest).hot.any (fun e => decide (e.mould = m ∧ e.dst < dst + n ∧ dst < e.dst + e.len) && (e.pins ≠ 0 || e.loading)) = false := by
    rw [List.any_eq_false] at hnoclash ⊢
    intro x hx
    simp [hnoclash x hx]
  have hleft : ¬ ((s.taken rest).mould m).maxHot ≤ ((s.taken rest).hot.filter (fun e => e.mould = m
      && !decide (e.mould = m ∧ e.dst < dst + n ∧ dst < e.dst + e.len))).length := by
    refine Nat.not_le.mpr (lt_of_le_of_lt (List.Sublist.length_le (List.monotone_filter_right _ ?_)) hroom)
    intro x hx
    simp only [Bool.and_eq_true] at hx
    exact hx.1
  have hfew : ¬ 64 ≤ (s.taken rest).opsRunning := Nat.not_le.mpr (State.opsRunning_of_freeEntry hfree)
  obtain ⟨t, ht⟩ : ∃ t, t = ((s.taken rest).withOp i r.code 5 (2 + cdiv n 262144 + cdiv n 1048576) (.hot m d src dst n)).answer r 0
      (i + (s.mgmt.handleSeq + 1) % 2 ^ 24 * 256) := ⟨_, rfl⟩
  have hexec : exec .hotLoad s
      = .next ({ t with hot := t.hot ++ [⟨d, m, true, dst, n, 0, t.clk.ns, (t.op i).handle⟩] } : State).settle := by
    rw [exec_hotLoad, execHotLoad, takeCmd_serves h]
    dsimp only
    rw [← hm, ← hd, ← hdst, ← hsrc, ← hn, State.bodyOk_pos (hotLoad_body hlen hmould hzero hpos halign hmax),
      show (s.taken rest).mouldLive m = true from hlive, if_neg (by decide),
      show ((s.taken rest).mould m).pools.any (fun p => p.1 ≤ dst && dst + n ≤ p.1 + p.2) = true from hpool,
      show (s.taken rest).covered m src n 1 = true from hcovered,
      show (((s.taken rest).cover m src n).getD []).all (fun g => g.tier = 1 || g.tier = 2) = true from hfar,
      if_neg (by decide), show (s.taken rest).hotOf m d = none from habsent]
    dsimp only
    rw [hblocked, if_neg (by decide), decide_eq_false hleft, Bool.false_and, if_neg (by decide), if_neg hfew,
      State.evict_none hnoclash]
    cases (s.taken rest).oldestHot m with
    | none =>
      dsimp only
      rw [State.startOp_of_free (s := s.taken rest) hfree, ht]
      rfl
    | some o =>
      dsimp only
      rw [if_neg hleft, State.startOp_of_free (s := s.taken rest) hfree, ht]
      rfl
  refine ⟨_, hexec, ?_⟩
  obtain ⟨hstarted, hframe⟩ := State.answer_of_withOp h (t := (s.taken rest).withOp i r.code 5 (2 + cdiv n 262144 + cdiv n 1048576)
    (.hot m d src dst n)) rfl
  rw [← ht] at hstarted hframe
  refine ⟨hstarted, ?_⟩
  rw [hframe]
  rfl

theorem exec_hotPin_counts (h : s.serves 0x0022 r rest) (hbody : hotBody r.body = true) (hm : m = leAt r.body 0 1)
    (hd : d = slice r.body 8 32) (hentry : s.hotOf m d = some e) (hpins : e.pins < 65535) :
    ∃ u : State, exec .hotPin s = .next u.settle ∧ s.answeredAs u r rest 0 0 []
      ∧ u.hotOf m d = some { e with pins := e.pins + 1, lastUse := s.clk.ns } ∧ u.hot.length = s.hot.length
      ∧ (∀ n f, (n, f) ≠ (m, d) → u.hotOf n f = s.hotOf n f) ∧ u = { s with hot := u.hot, mgmt := u.mgmt, out := u.out } := by
  have hexec : exec .hotPin s
      = .next (((s.taken rest).setHot { e with pins := e.pins + 1, lastUse := s.clk.ns }).answer r 0).settle := by
    rw [exec_hotPin, execHotPin, takeCmd_serves h]
    rw [← hm, ← hd, State.bodyOk_pos hbody, show (s.taken rest).hotOf m d = some e from hentry]
    dsimp only
    rw [if_neg (Nat.ne_of_lt hpins)]
    rfl
  obtain ⟨hanswered, hframe⟩ := State.answer_setHot h { e with pins := e.pins + 1, lastUse := s.clk.ns } 0 0 []
  obtain ⟨hsame, hcount, hothers⟩ := State.hotOf_answer_setHot h hentry (v := { e with pins := e.pins + 1, lastUse := s.clk.ns }) rfl rfl 0 0 []
  refine ⟨_, hexec, hanswered, hsame, hcount, hothers, ?_⟩
  rw [hframe]
  rfl

theorem exec_hotUnpin_counts (h : s.serves 0x0023 r rest) (hbody : hotBody r.body = true) (hm : m = leAt r.body 0 1)
    (hd : d = slice r.body 8 32) (hentry : s.hotOf m d = some e) (hpins : 0 < e.pins) :
    ∃ u : State, exec .hotUnpin s = .next u.settle ∧ s.answeredAs u r rest 0 0 []
      ∧ u.hotOf m d = some { e with pins := e.pins - 1 } ∧ u.hot.length = s.hot.length
      ∧ (∀ n f, (n, f) ≠ (m, d) → u.hotOf n f = s.hotOf n f) ∧ u = { s with hot := u.hot, mgmt := u.mgmt, out := u.out } := by
  have hexec : exec .hotUnpin s = .next (((s.taken rest).setHot { e with pins := e.pins - 1 }).answer r 0).settle := by
    rw [exec_hotUnpin, execHotUnpin, takeCmd_serves h]
    rw [← hm, ← hd, State.bodyOk_pos hbody, show (s.taken rest).hotOf m d = some e from hentry]
    dsimp only
    rw [if_neg (Nat.ne_of_gt hpins)]
  obtain ⟨hanswered, hframe⟩ := State.answer_setHot h { e with pins := e.pins - 1 } 0 0 []
  obtain ⟨hsame, hcount, hothers⟩ := State.hotOf_answer_setHot h hentry (v := { e with pins := e.pins - 1 }) rfl rfl 0 0 []
  refine ⟨_, hexec, hanswered, hsame, hcount, hothers, ?_⟩
  rw [hframe]
  rfl

theorem exec_hotEvict_removes (h : s.serves 0x0024 r rest) (hbody : hotBody r.body = true) (hm : m = leAt r.body 0 1)
    (hd : d = slice r.body 8 32) (hentry : s.hotOf m d = some e) (hpins : e.pins = 0) :
    ∃ u : State, exec .hotEvict s = .next u.settle ∧ s.answeredAs u r rest 0 0 [] ∧ u.hot = s.hot.filter (fun x => !decide (x = e))
      ∧ u.rd F.hotStatus_evictions = satAdd F.hotStatus_evictions.width (s.rd F.hotStatus_evictions) (s.hot.filter (fun x => x = e)).length
      ∧ RegsBut s u [regAddr .hotStatus 0 0] ∧ u = { s with csr := u.csr, hot := u.hot, mgmt := u.mgmt, out := u.out } := by
  obtain ⟨t, ht⟩ : ∃ t : State, t = ({ s.taken rest with hot := s.hot.filter (fun x => !decide (x = e)) } : State).cnt F.hotStatus_evictions 0 0
      (s.hot.filter (fun x => x = e)).length := ⟨_, rfl⟩
  have hexec : exec .hotEvict s = .next (t.answer r 0).settle := by
    rw [exec_hotEvict, execHotEvict, takeCmd_serves h]
    rw [← hm, ← hd, State.bodyOk_pos hbody, show (s.taken rest).hotOf m d = some e from hentry]
    dsimp only
    rw [if_neg (by simp [hpins]), State.evict_some (s := s.taken rest) (p := fun x => decide (x = e)) (State.hotOf_some hentry).1
      (decide_eq_true rfl), ht]
    rfl
  obtain ⟨hanswered, hframe⟩ := State.answer_of_mgmt h (t := t) (by rw [ht]; rfl) 0 0 []
  refine ⟨_, hexec, hanswered, ?_, ?_, ?_, ?_⟩
  · rw [hframe, ht]
    rfl
  · rw [State.rd_of_csr (congrArg State.csr hframe), ht]
    exact State.rd_cnt_same _ _ _ _ _ (by decide)
  · have hregs : RegsBut s t [regAddr .hotStatus 0 0] := by
      rw [ht]
      exact State.regsBut_cnt ({ s.taken rest with hot := s.hot.filter (fun x => !decide (x = e)) } : State) F.hotStatus_evictions 0 0 _
    exact hregs.trans (State.regsBut_of_csr (congrArg State.csr hframe) _)
  · rw [hframe, ht]
    rfl

theorem exec_hotLookup_answers (h : s.serves 0x0025 r rest) (hbody : hotBody r.body = true) (hm : m = leAt r.body 0 1)
    (hd : d = slice r.body 8 32) (hentry : s.hotOf m d = some e) :
    ∃ u : State, exec .hotLookup s = .next u.settle
      ∧ s.answeredAs u r rest 0 0 (toLe 1 (if e.loading then 1 else 2) ++ toLe 7 0 ++ toLe 8 e.dst ++ toLe 8 e.len)
      ∧ u.hotOf m d = some { e with lastUse := s.clk.ns } ∧ u = { s.setHot { e with lastUse := s.clk.ns } with mgmt := u.mgmt, out := u.out } := by
  have hexec : exec .hotLookup s = .next (((s.taken rest).setHot { e with lastUse := s.clk.ns }).answer r 0 0
      (toLe 1 (if e.loading then 1 else 2) ++ toLe 7 0 ++ toLe 8 e.dst ++ toLe 8 e.len)).settle := by
    rw [exec_hotLookup, execHotLookup, takeCmd_serves h]
    rw [← hm, ← hd, State.bodyOk_pos hbody, show (s.taken rest).hotOf m d = some e from hentry]
    rfl
  obtain ⟨hanswered, hframe⟩ := State.answer_setHot h { e with lastUse := s.clk.ns } 0 0
    (toLe 1 (if e.loading then 1 else 2) ++ toLe 7 0 ++ toLe 8 e.dst ++ toLe 8 e.len)
  exact ⟨_, hexec, hanswered, (State.hotOf_answer_setHot h hentry (v := { e with lastUse := s.clk.ns }) rfl rfl 0 0 _).1, hframe⟩

/-- Settles O28: each command is evaluated to its answer, and the directory is followed through the replaced or removed entry. -/
theorem hotSet : Obligations.HotSet :=
  ⟨fun _ _ _ _ _ _ h hmin hm hn hmould hranges hlen hzero hl hlive hroom hnone hok =>
      exec_hotPool_gives h hmin hm hn hmould hranges hlen hzero hl hlive hroom hnone hok,
    fun _ _ _ _ _ _ _ _ h hlen hm hmould hzero hd hdst hn hpos halign hmax hlive hpool hcovered hfar hentry hresident hplace =>
      exec_hotLoad_resident h hlen hm hmould hzero hd hdst hn hpos halign hmax hlive hpool hcovered hfar hentry hresident hplace,
    fun _ _ _ _ _ _ _ _ _ h hlen hm hmould hzero hd hsrc hdst hn hpos halign hmax hlive hpool hcovered hfar habsent hclear hroom hfree =>
      exec_hotLoad_begins h hlen hm hmould hzero hd hsrc hdst hn hpos halign hmax hlive hpool hcovered hfar habsent hclear hroom hfree,
    fun _ _ _ _ _ _ h hbody hm hd hentry hpins => exec_hotPin_counts h hbody hm hd hentry hpins,
    fun _ _ _ _ _ _ h hbody hm hd hentry hpins => exec_hotUnpin_counts h hbody hm hd hentry hpins,
    fun _ _ _ _ _ _ h hbody hm hd hentry hpins => exec_hotEvict_removes h hbody hm hd hentry hpins,
    fun _ _ _ _ _ _ h hbody hm hd hentry => exec_hotLookup_answers h hbody hm hd hentry⟩

end Sys2Proof.Machine
end

section
/-! What is written to a memory and read from it depends on the memories, on where the bytes of a mould lie, and on nothing else
(R282, R294). -/
namespace Sys2Proof.Machine

/-- t holds the same memories as s, with every mould's bytes at the same places under the same tags. -/
structure State.SharesMemory (s t : State) : Prop where
  place : ∀ m a, t.place m a = s.place m a
  lineTag : ∀ m a p, t.lineTag m a p = s.lineTag m a p
  sram : t.sram = s.sram
  gddr : t.gddr = s.gddr
  cxl : t.cxl = s.cxl
  xts : t.xts = s.xts

namespace State.SharesMemory

variable {s t : State}

theorem refl (s : State) : s.SharesMemory s := ⟨fun _ _ => rfl, fun _ _ _ => rfl, rfl, rfl, rfl, rfl⟩

/-- Bytes written and tags changed in both leave both with equal memories where the new memories are equal. -/
theorem of_writes {u v : State} (h : s.SharesMemory t) (hu : s.Writes u) (hv : t.Writes v) (hsram : v.sram = u.sram)
    (hgddr : v.gddr = u.gddr) (hcxl : v.cxl = u.cxl) (hxts : v.xts = u.xts) : u.SharesMemory v := by
  refine ⟨fun m a => ?_, fun m a p => ?_, hsram, hgddr, hcxl, hxts⟩
  · rw [hu, hv]
    exact h.place m a
  · rw [hu, hv]
    exact h.lineTag m a p

theorem rawByte (h : s.SharesMemory t) (space key : Nat) : t.rawByte space key = s.rawByte space key := by
  rw [State.rawByte, State.rawByte, h.sram, h.gddr, h.cxl]

theorem tagByte (h : s.SharesMemory t) (p : Place) (tag : Nat) : t.tagByte p tag = s.tagByte p tag := by
  unfold State.tagByte
  simp only [h.rawByte, h.xts]

theorem byteAt (h : s.SharesMemory t) (m a : Nat) : t.byteAt m a = s.byteAt m a := by
  unfold State.byteAt
  rw [h.place]
  split
  · rw [h.lineTag, h.tagByte]
  · rfl

theorem readMem (h : s.SharesMemory t) (m a n : Nat) : t.readMem m a n = s.readMem m a n :=
  List.map_congr_left fun _ _ => h.byteAt ..

theorem setRaw (h : s.SharesMemory t) (space key : Nat) (b : Byte) : (s.setRaw space key b).SharesMemory (t.setRaw space key b) := by
  have hsram := h.sram
  have hgddr := h.gddr
  have hcxl := h.cxl
  have hxts := h.xts
  refine h.of_writes (State.writes_setRaw ..) (State.writes_setRaw ..) ?_ ?_ ?_ ?_ <;> unfold State.setRaw <;> split_ifs <;> simp [*]

theorem retag (h : s.SharesMemory t) (p : Place) (tag : Nat) : (s.retag p tag).SharesMemory (t.retag p tag) := by
  unfold State.retag
  simp only [h.xts, h.tagByte]
  split
  · exact h
  · generalize List.zipIdx _ = l
    have hbytes : ∀ (l : List (Byte × Nat)) (u v : State), u.SharesMemory v →
        (l.foldl (fun u (b, i) => u.setRaw p.space (p.key / 64 * 64 + i) b) u).SharesMemory
          (l.foldl (fun u (b, i) => u.setRaw p.space (p.key / 64 * 64 + i) b) v) := by
      intro l
      induction l with
      | nil => exact fun _ _ hw => hw
      | cons x l ih => exact fun _ _ hw => ih _ _ (hw.setRaw ..)
    have hl := hbytes l s t h
    exact ⟨hl.place, hl.lineTag, hl.sram, hl.gddr, hl.cxl, congrArg (Tab.set 0 · (tagKey p) tag) hl.xts⟩

theorem setByteAt (h : s.SharesMemory t) (m a : Nat) (b : Byte) : (s.setByteAt m a b).SharesMemory (t.setByteAt m a b) := by
  unfold State.setByteAt
  rw [h.place]
  split
  · next p _ =>
    rw [h.lineTag]
    split
    · exact h.setRaw ..
    · exact (h.retag ..).setRaw ..
  · exact h

/-- The same bytes written to equal memories leave equal memories. -/
theorem writeMem (h : s.SharesMemory t) (m a : Nat) (bs : Bytes) : (s.writeMem m a bs).SharesMemory (t.writeMem m a bs) := by
  unfold State.writeMem
  generalize bs.zipIdx = l
  induction l generalizing s t with
  | nil => exact h
  | cons x l ih => exact ih (h.setByteAt ..)

end State.SharesMemory

end Sys2Proof.Machine
end

section
/-! Service endpoints: their binding, their rings and their datagrams (R269 to R272, R336, R386). -/
namespace Sys2Proof.Machine

variable {s : State} {r : MReq} {rest : List MReq} {e : Nat} {v w : SvcSt}

theorem regAddr_svcRing (e : Nat) : regAddr .svcRing e 0 = 0x508000 + 0x20 * e := rfl

theorem regAddr_svcStat (e : Nat) : regAddr .svcStat e 0 = 0x508008 + 0x20 * e := rfl

theorem regAddr_svcRing_ne_svcStat (e f : Nat) : regAddr .svcRing e 0 ≠ regAddr .svcStat f 0 := by
  rw [regAddr_svcRing, regAddr_svcStat]
  omega

theorem State.svcEp_setSvc_same (s : State) (e : Nat) (v : SvcSt) : (s.setSvc e v).svcEp e = v :=
  Tab.get_set_same SvcSt.init s.svc e v

theorem State.svcEp_setSvc_ne (s : State) {e f : Nat} (v : SvcSt) (h : f ≠ e) : (s.setSvc e v).svcEp f = s.svcEp f :=
  Tab.get_set_ne SvcSt.init SvcSt.init s.svc v h

theorem State.svcEp_of_svc {s u : State} (h : u.svc = s.svc) (f : Nat) : u.svcEp f = s.svcEp f := by
  rw [State.svcEp, State.svcEp, h]

/-- Endpoint e taken by v: its ring indices and its counters start from 0 (R269). -/
def State.svcTaken (s : State) (e : Nat) (v : SvcSt) : State := ((s.setSvc e v).setReg .svcRing e 0 0).setReg .svcStat e 0 0

theorem State.svcTaken_spec (s : State) (e : Nat) (v : SvcSt) :
    (s.svcTaken e v).reg .svcRing e 0 = 0 ∧ (s.svcTaken e v).reg .svcStat e 0 = 0
      ∧ RegsBut s (s.svcTaken e v) [regAddr .svcRing e 0, regAddr .svcStat e 0] := by
  refine ⟨?_, State.reg_setReg_same .., ?_⟩
  · rw [State.svcTaken, State.reg_setReg_ne _ _ (regAddr_svcRing_ne_svcStat e e), State.reg_setReg_same]
    rfl
  · have hring := State.regsBut_setReg (s.setSvc e v) .svcRing e 0 0
    exact (hring.mono (by simp)).step (State.regsBut_setReg _ .svcStat e 0 0) (by simp)

theorem exec_svcBind_binds (h : s.serves 0x0028 r rest) (hlen : r.body.length = 80) (he : e = leAt r.body 0 2) (hv : v = svcOf r.body)
    (hmould : v.mould < 64) (hlive : s.mouldLive v.mould = true) (hctx : v.ctx < s.ctxCount v.mould) (hendpoint : e < 256)
    (hbound : s.svcBound e = false) (hfew : (s.svc.filter (fun p => p.2.mould = v.mould)).length < 16)
    (hrx : (s.svcRing v.mould v.ctx v.rxBase v.rxSlots).isSome = true) (htx : (s.svcRing v.mould v.ctx v.txBase v.txSlots).isSome = true)
    (hport : v.port < 8) (hqueue : v.queue < 1024)
    (howner : (s.qInfo (queueNo (0x10 + v.port) v.queue)).bind (·.owner) = some v.mould) (htoken : v.token < 32)
    (hfree : s.blockBusy (18 + v.port) = false) :
    ∃ u : State, exec .svcBind s = .next u.settle ∧ s.answeredAs u r rest 0 0 [] ∧ u.svcEp e = v ∧ u.reg .svcRing e = 0
      ∧ u.reg .svcStat e = 0 ∧ (∀ f, f ≠ e → u.svcEp f = s.svcEp f) ∧ RegsBut s u [regAddr .svcRing e 0, regAddr .svcStat e 0]
      ∧ u = { s with csr := u.csr, svc := u.svc, mgmt := u.mgmt, out := u.out } := by
  have hbody : (r.body.length == 80 && decide (v.mould < 64)) = true := by
    rw [hlen, decide_eq_true hmould]
    rfl
  obtain ⟨c, hc⟩ := Option.isSome_iff_exists.mp hrx
  obtain ⟨d, hd⟩ := Option.isSome_iff_exists.mp htx
  obtain ⟨t, ht⟩ : ∃ t, t = (s.taken rest).svcTaken e v := ⟨_, rfl⟩
  have hexec : exec .svcBind s = .next (t.answer r 0).settle := by
    rw [exec_svcBind, execSvcBind, takeCmd_serves h]
    dsimp only
    rw [← hv, ← he, State.bodyOk_pos hbody, show (s.taken rest).mouldLive v.mould = true from hlive, if_neg (by decide),
      if_neg (show ¬ (s.taken rest).ctxCount v.mould ≤ v.ctx from Nat.not_le.mpr hctx),
      show (s.taken rest).svcRing v.mould v.ctx v.rxBase v.rxSlots = some c from hc,
      show (s.taken rest).svcRing v.mould v.ctx v.txBase v.txSlots = some d from hd,
      show (s.taken rest).svcBound e = false from hbound, show (s.taken rest).blockBusy (18 + v.port) = false from hfree,
      show ((s.taken rest).qInfo (queueNo (0x10 + v.port) v.queue)).bind (·.owner) = some v.mould from howner,
      decide_eq_false (Nat.not_le.mpr hendpoint), decide_eq_true hport, decide_eq_true hqueue, decide_eq_false (Nat.not_le.mpr htoken),
      decide_eq_false (show ¬ 16 ≤ ((s.taken rest).svc.filter (fun p => p.2.mould = v.mould)).length from Nat.not_le.mpr hfew),
      if_neg (by simp), ht]
    rfl
  obtain ⟨hanswered, hframe⟩ := State.answer_of_mgmt h (t := t) (by rw [ht]; rfl) 0 0 []
  obtain ⟨hring, hstat, hregs⟩ := (s.taken rest).svcTaken_spec e v
  rw [← ht] at hring hstat hregs
  have hcsr : (t.answer r 0).csr = t.csr := (congrArg State.csr hframe).trans rfl
  have hsvc : (t.answer r 0).svc = ((s.taken rest).setSvc e v).svc := by
    rw [hframe, ht]
    rfl
  refine ⟨_, hexec, hanswered, ?_, ?_, ?_, fun f hf => ?_, ?_, ?_⟩
  · rw [State.svcEp_of_svc hsvc, State.svcEp_setSvc_same]
  · rw [State.reg_of_csr hcsr, hring]
  · rw [State.reg_of_csr hcsr, hstat]
  · rw [State.svcEp_of_svc hsvc, State.svcEp_setSvc_ne _ _ hf]
    rfl
  · exact RegsBut.trans (t := t) hregs (State.regsBut_of_csr hcsr _)
  · rw [hframe, ht]
    rfl

theorem exec_svcUnbind_clears (h : s.serves 0x0029 r rest) (hlen : r.body.length = 2) (he : e = leAt r.body 0 2) (hendpoint : e < 256)
    (hbound : s.svcBound e = true) :
    ∃ u : State, exec .svcUnbind s = .next u.settle ∧ s.answeredAs u r rest 0 0 []
      ∧ u = { s.setSvc e SvcSt.init with mgmt := u.mgmt, out := u.out } := by
  have hexec : exec .svcUnbind s = .next (((s.taken rest).setSvc e SvcSt.init).answer r 0).settle := by
    rw [exec_svcUnbind, execSvcUnbind, takeCmd_serves h]
    dsimp only
    rw [← he, State.bodyOk_pos (by rw [hlen]; rfl), show (s.taken rest).svcBound e = true from hbound,
      decide_eq_false (Nat.not_le.mpr hendpoint), if_neg (by decide)]
  obtain ⟨hanswered, hframe⟩ := State.answer_of_mgmt h (t := (s.taken rest).setSvc e SvcSt.init) rfl 0 0 []
  exact ⟨_, hexec, hanswered, hframe⟩

theorem exec_svcRingWrite_sets {q n : Nat} (h : s.live = true) (he : e < 256)
    (hq : q = 0 ∨ 2 ≤ q ∧ s.svcBound e = true ∧ q - 2 = (s.svcEp e).mould + 64 * (s.svcEp e).ctx) :
    ∃ u : State, exec (.svcRingWrite q e n) s = .next u.settle ∧ u.rd F.svcRing_rxHead e = bitsOf n 0 16
      ∧ u.rd F.svcRing_txTail e = bitsOf n 32 16 ∧ u.rd F.svcRing_rxTail e = s.rd F.svcRing_rxTail e
      ∧ u.rd F.svcRing_txHead e = s.rd F.svcRing_txHead e ∧ RegsBut s u [regAddr .svcRing e 0] ∧ u = { s with csr := u.csr } := by
  have hallowed : (decide (q = 0) || decide (2 ≤ q) && s.svcBound e && decide (q - 2 = (s.svcEp e).mould + 64 * (s.svcEp e).ctx)) = true := by
    obtain hzero | ⟨htwo, hbound, hctx⟩ := hq
    · rw [decide_eq_true hzero, Bool.true_or]
    · rw [decide_eq_true htwo, hbound, decide_eq_true hctx, Bool.and_self, Bool.and_self, Bool.or_true]
  have hexec : exec (.svcRingWrite q e n) s
      = .next ((s.wr F.svcRing_rxHead (bitsOf n 0 16) e).wr F.svcRing_txTail (bitsOf n 32 16) e).settle := by
    rw [exec_svcRingWrite, execSvcRingWrite, whenLive_live _ _ h, if_neg (Nat.not_le.mpr he), State.writeSvcRing]
    rw [if_pos hallowed]
  have hfield : ∀ lo : Nat, bitsOf n lo 16 % 2 ^ 16 = bitsOf n lo 16 := fun lo => Nat.mod_mod _ _
  refine ⟨_, hexec, ?_, ?_, ?_, ?_, ?_, rfl⟩
  · rw [State.rd_wr_beside _ _ _ _ (by rfl) (by decide) (by decide), State.rd_wr_same _ _ _ _ _ (by decide)]
    exact hfield 0
  · rw [State.rd_wr_same _ _ _ _ _ (by decide)]
    exact hfield 32
  · rw [State.rd_wr_beside _ _ _ _ (by rfl) (by decide) (by decide), State.rd_wr_beside _ _ _ _ (by rfl) (by decide) (by decide)]
  · rw [State.rd_wr_beside _ _ _ _ (by rfl) (by decide) (by decide), State.rd_wr_beside _ _ _ _ (by rfl) (by decide) (by decide)]
  · exact (State.regsBut_wr s F.svcRing_rxHead (bitsOf n 0 16) e 0).trans (State.regsBut_wr _ F.svcRing_txTail (bitsOf n 32 16) e 0)

/-- What follows a datagram that enters a session of an endpoint leaves its binding (R270). -/
theorem SvcSt.track_binding {id ctr now : Nat} (h : v.track id ctr now = some w) :
    ∃ l n, w = { v with sessions := l, floor := n } := by
  unfold SvcSt.track at h
  split at h
  · split at h
    · exact ⟨_, v.floor, (Option.some.inj h).symm⟩
    · cases h
  · split at h
    · cases h
    · dsimp only at h
      split at h
      · split at h
        · exact ⟨_, _, (Option.some.inj h).symm⟩
        · exact ⟨_, v.floor, (Option.some.inj h).symm⟩
      · exact ⟨_, v.floor, (Option.some.inj h).symm⟩

/-- The frames of a queue after one joins it, and of the others. -/
theorem State.eq_enqueue (s : State) (q k : Nat) (f : EgFrame) :
    (s.enqueue q f).eq k = if k = q then { s.eq q with frames := (s.eq q).frames ++ [f] } else s.eq k :=
  Tab.get_set EgQueue.init s.egr.qs q k { s.eq q with frames := (s.eq q).frames ++ [f] }

theorem exec_serviceDatagramTx_sends {a n q : Nat} {h : Bytes} (hlive : s.live = true) (he : e < 256) (hv : v = s.svcEp e)
    (hmould : v.mould < 64) (hsome : s.rd F.svcRing_txHead e ≠ s.rd F.svcRing_txTail e) (hcount : v.txCount < 2 ^ 32 - 1)
    (ha : a = v.txBase + s.rd F.svcRing_txHead e % v.txSlots * 2048)
    (hh : h = (s.readMem v.mould (a + 32) 24).take 20 ++ toBe 4 (v.txCount + 1)) (hn : n = beAt (s.readMem v.mould (a + 32) 24) 16 2)
    (hmax : n ≤ 1400) (hq : q = queueNo (0x10 + v.port) v.queue) (hroom : s.hasRoom q (14 + 40 + 8 + 24 + n + 16) = true) :
    ∃ u : State, exec (.serviceDatagramTx e) s = .next u.settle ∧ u.svcEp e = { v with txCount := v.txCount + 1 }
      ∧ u.rd F.svcRing_txHead e = (s.rd F.svcRing_txHead e + 1) % 2 ^ 16
      ∧ (u.eq q).frames = (s.eq q).frames ++ [⟨s.readMem v.mould (a + 8) 18 ++ h ++ gcmCrypt v.key (svcNonce h 1) (s.readMem v.mould (a + 56) n)
        ++ Config.gcmTag v.key (svcNonce h 1) h (gcmCrypt v.key (svcNonce h 1) (s.readMem v.mould (a + 56) n)),
        14 + 40 + 8 + 24 + n + 16, 12, v.mould, false, 0, 0⟩]
      ∧ (∀ f, f ≠ e → u.svcEp f = s.svcEp f) ∧ (∀ k, k ≠ q → u.eq k = s.eq k)
      ∧ RegsBut s u [regAddr .svcRing e 0] ∧ u = { s with csr := u.csr, svc := u.svc, egr := u.egr } := by
  obtain ⟨f, hf⟩ : ∃ f : EgFrame, f = ⟨s.readMem v.mould (a + 8) 18 ++ h ++ gcmCrypt v.key (svcNonce h 1) (s.readMem v.mould (a + 56) n)
      ++ Config.gcmTag v.key (svcNonce h 1) h (gcmCrypt v.key (svcNonce h 1) (s.readMem v.mould (a + 56) n)),
      14 + 40 + 8 + 24 + n + 16, 12, v.mould, false, 0, 0⟩ := ⟨_, rfl⟩
  obtain ⟨t, ht⟩ : ∃ t, t = (s.setSvc e { v with txCount := v.txCount + 1 }).inc F.svcRing_txHead e := ⟨_, rfl⟩
  have hbound : s.svcBound e = true := by
    rw [State.svcBound, ← hv]
    exact decide_eq_true hmould
  have hexec : exec (.serviceDatagramTx e) s = .next (t.enqueue q f).settle := by
    rw [exec_serviceDatagramTx, execServiceDatagramTx, whenLive_live _ _ hlive]
    dsimp only
    rw [← hv, hbound, decide_eq_false (Nat.not_le.mpr he), decide_eq_false hsome, decide_eq_false (Nat.not_le.mpr hcount),
      if_neg (by decide), ← ha, ← hn, ← hq, ← hh, if_neg (Nat.not_lt.mpr hmax), hroom, if_neg (by decide), ← hf, ← ht]
  have heqs : ∀ k, t.eq k = s.eq k := fun k => by
    rw [ht]
    rfl
  rw [← hf]
  refine ⟨_, hexec, ?_, ?_, ?_, fun g hg => ?_, fun k hk => ?_, ?_, ?_⟩
  · have hsvc : (t.enqueue q f).svc = (s.setSvc e { v with txCount := v.txCount + 1 }).svc := by
      rw [ht]
      rfl
    rw [State.svcEp_of_svc hsvc, State.svcEp_setSvc_same]
  · rw [State.rd_of_csr (show (t.enqueue q f).csr = t.csr from rfl), ht, State.inc, State.rd_wr_same _ _ _ _ _ (by decide)]
    rfl
  · rw [State.eq_enqueue, if_pos rfl, heqs]
  · have hsvc : (t.enqueue q f).svc = (s.setSvc e { v with txCount := v.txCount + 1 }).svc := by
      rw [ht]
      rfl
    rw [State.svcEp_of_svc hsvc, State.svcEp_setSvc_ne _ _ hg]
  · rw [State.eq_enqueue, if_neg hk, heqs]
  · have hregs : RegsBut s t [regAddr .svcRing e 0] := by
      rw [ht]
      exact State.regsBut_wr (s.setSvc e { v with txCount := v.txCount + 1 }) F.svcRing_txHead _ e 0
    exact hregs.trans (State.regsBut_of_csr rfl _)
  · rw [ht]
    rfl

end Sys2Proof.Machine
end

section
/-! A datagram at a service endpoint (R270 to R272, Table 9.6). -/
namespace Sys2Proof.Machine

variable {s : State} {dt sub e sport dport n c tail a : Nat} {src dst d h : Bytes} {v w : SvcSt}

/-- The slot a datagram fills: when and whence it came, its header, and what it holds (R271). -/
def svcSlot (ns : Nat) (src : Bytes) (sport n : Nat) (h text : Bytes) : Bytes :=
  toLe 8 ns ++ src ++ toLe 2 sport ++ toLe 2 n ++ toLe 4 0 ++ h ++ text

/-- The rate window of an endpoint in millisecond ms (R270). -/
def SvcSt.inMs (v : SvcSt) (ms : Nat) : SvcSt := if v.msStart = ms then v else { v with msStart := ms, msCount := 0 }

/-- The endpoint keeps its binding and its sessions when it enters a millisecond, and has room there for a datagram. -/
theorem SvcSt.inMs_spec {ms : Nat} (hrate : v.msStart = ms → v.msCount < v.rxRate) (hpos : 0 < v.rxRate) :
    ∃ k, v.inMs ms = { v with msStart := ms, msCount := k } ∧ k < v.rxRate := by
  unfold SvcSt.inMs
  by_cases hms : v.msStart = ms
  · exact ⟨v.msCount, by rw [if_pos hms, ← hms], hrate hms⟩
  · exact ⟨0, if_neg hms, hpos⟩

/-- Endpoint e, now v, takes a datagram into the slot at address a (R271, R336). -/
def State.svcStored (s : State) (e : Nat) (v : SvcSt) (a : Nat) (slot : Bytes) : State :=
  ((((s.setSvc e v).writeMem v.mould a slot).bumpAt v.mould a).inc F.svcRing_rxTail e).cnt F.svcStat_rxOk e

theorem State.svcStored_spec (s : State) (e : Nat) (v : SvcSt) (a : Nat) (slot : Bytes) :
    (s.svcStored e v a slot).rd F.svcRing_rxTail e = (s.rd F.svcRing_rxTail e + 1) % 2 ^ 16
      ∧ (s.svcStored e v a slot).rd F.svcStat_rxOk e = satAdd 16 (s.rd F.svcStat_rxOk e) 1
      ∧ (s.svcStored e v a slot).sram = (s.writeMem v.mould a slot).sram
      ∧ RegsBut s (s.svcStored e v a slot) [regAddr .svcRing e 0, regAddr .svcStat e 0]
      ∧ s.svcStored e v a slot = { s.setSvc e v with
          csr := (s.svcStored e v a slot).csr, sram := (s.svcStored e v a slot).sram, gddr := (s.svcStored e v a slot).gddr
          cxl := (s.svcStored e v a slot).cxl, xts := (s.svcStored e v a slot).xts, vers := (s.svcStored e v a slot).vers } := by
  have hshares : s.SharesMemory (s.setSvc e v) := ⟨fun _ _ => rfl, fun _ _ _ => rfl, rfl, rfl, rfl, rfl⟩
  have hsram := (hshares.writeMem v.mould a slot).sram
  have hwritten := (s.setSvc e v).writeMem_bumpAt_frame v.mould a slot
  unfold State.svcStored
  generalize ((s.setSvc e v).writeMem v.mould a slot).bumpAt v.mould a = t at *
  have hcsr : t.csr = s.csr := (congrArg State.csr hwritten).trans rfl
  have hregs : RegsBut s (t.inc F.svcRing_rxTail e) [regAddr .svcRing e 0] :=
    (State.regsBut_of_csr hcsr _).trans (State.regsBut_wr t F.svcRing_rxTail _ e 0)
  refine ⟨?_, ?_, ?_, ?_, ?_⟩
  · rw [State.cnt, State.rd_wr_ne _ _ (regAddr_svcRing_ne_svcStat e e), State.inc, State.rd_wr_same _ _ _ _ _ (by decide),
      State.rd_of_csr hcsr]
    rfl
  · rw [State.rd_cnt_same _ _ _ _ _ (by decide), hregs.rd (f := F.svcStat_rxOk) (by
      rw [List.mem_singleton]
      exact (regAddr_svcRing_ne_svcStat e e).symm)]
    rfl
  · rw [← hsram]
    exact (congrArg State.sram hwritten).trans rfl
  · exact (hregs.mono (by simp)).step (State.regsBut_cnt _ F.svcStat_rxOk e 0 1) (List.mem_cons_of_mem _ List.mem_cons_self)
  · rw [hwritten]
    rfl

theorem exec_serviceDatagramRx_taken (hlive : s.live = true) (hopen : s.subOpen sub = true) (hlen : 24 ≤ d.length) (hh : h = d.take 24)
    (he : e = beAt h 2 2) (hendpoint : e < 256) (hv : v = s.svcEp e) (hmould : v.mould < 64) (hport : v.port = (sub - 16) / 4)
    (hip : v.ipv6 = dst) (hudp : v.udp = dport) (hhdr : svcHdrOk h (d.length - 24) = true) (hn : n = beAt h 16 2)
    (htrack : v.track (beAt h 4 4) (beAt h 20 4) (s.clk.up + dt) = some w)
    (hrate : w.msStart = (s.pass dt).clk.ns / 1000000 → w.msCount < v.rxRate) (hpos : 0 < v.rxRate) (htail : tail = s.rd F.svcRing_rxTail e)
    (hroom : (tail + 65536 - s.rd F.svcRing_rxHead e) % 65536 < v.rxSlots) (ha : a = v.rxBase + tail % v.rxSlots * 2048)
    (hring : s.svcRing v.mould v.ctx v.rxBase v.rxSlots = some c) (htok : s.tok c v.mould v.ctx v.token < 65535) :
    ∃ u : State, exec (.serviceDatagramRx dt sub src sport dst dport d) s = .next u.settle
      ∧ (slice d (24 + n) 16 ≠ Config.gcmTag v.key (svcNonce h 0) h (slice d 24 n) → u = (s.pass dt).cnt F.svcStat_dropAuth e)
      ∧ (slice d (24 + n) 16 = Config.gcmTag v.key (svcNonce h 0) h (slice d 24 n) →
        u.rd F.svcRing_rxTail e = (tail + 1) % 2 ^ 16 ∧ u.rd F.svcStat_rxOk e = satAdd 16 (s.rd F.svcStat_rxOk e) 1
        ∧ (u.svcEp e).sessions = w.sessions ∧ u.tok c v.mould v.ctx v.token = s.tok c v.mould v.ctx v.token + 1
        ∧ u.sram = (s.writeMem v.mould a (toLe 8 (s.pass dt).clk.ns ++ src ++ toLe 2 sport ++ toLe 2 n ++ toLe 4 0 ++ h
          ++ gcmCrypt v.key (svcNonce h 0) (slice d 24 n))).sram
        ∧ RegsBut s u [regAddr .svcRing e 0, regAddr .svcStat e 0])
      ∧ u = { s.pass dt with csr := u.csr, clus := u.clus, svc := u.svc, sram := u.sram, gddr := u.gddr, cxl := u.cxl, xts := u.xts, vers := u.vers } := by
  obtain ⟨l, k, hw⟩ := SvcSt.track_binding htrack
  subst hw
  obtain ⟨i, hms, hi⟩ := SvcSt.inMs_spec hrate hpos
  obtain ⟨z, hz⟩ : ∃ z, z = { v with sessions := l, floor := k, msStart := (s.pass dt).clk.ns / 1000000, msCount := i } := ⟨_, rfl⟩
  have hbinding : z.mould = v.mould ∧ z.ctx = v.ctx ∧ z.token = v.token ∧ z.rxBase = v.rxBase ∧ z.rxSlots = v.rxSlots ∧ z.rxRate = v.rxRate
      ∧ z.key = v.key ∧ z.sessions = l ∧ z.msCount = i := by
    rw [hz]
    exact ⟨rfl, rfl, rfl, rfl, rfl, rfl, rfl, rfl, rfl⟩
  obtain ⟨hzmould, hzctx, hztoken, hzbase, hzslots, hzrate, hzkey, hzsessions, hzcount⟩ := hbinding
  have hbound : s.svcBound e = true := by
    rw [State.svcBound, ← hv]
    exact decide_eq_true hmould
  have hknown : ¬ (decide (d.length < 24) || decide (256 ≤ e) || !(s.pass dt).svcBound e || decide (v.port ≠ (sub - 16) / 4)
      || decide (v.ipv6 ≠ dst) || decide (v.udp ≠ dport)) = true := by
    rw [show (s.pass dt).svcBound e = true from hbound, decide_eq_false (Nat.not_lt.mpr hlen), decide_eq_false (Nat.not_le.mpr hendpoint),
      decide_eq_false (not_not_intro hport), decide_eq_false (not_not_intro hip), decide_eq_false (not_not_intro hudp)]
    decide
  by_cases htag : slice d (24 + n) 16 = Config.gcmTag v.key (svcNonce h 0) h (slice d 24 n)
  · obtain ⟨slot, hslot⟩ : ∃ slot, slot = svcSlot (s.pass dt).clk.ns src sport n h (gcmCrypt z.key (svcNonce h 0) (slice d 24 n)) := ⟨_, rfl⟩
    obtain ⟨t, ht⟩ : ∃ t, t = ((s.pass dt).setSvc e z).svcStored e { z with msCount := z.msCount + 1 } a slot := ⟨_, rfl⟩
    obtain ⟨htaken, hcounted, hstored, hregs, hframe⟩ :=
      ((s.pass dt).setSvc e z).svcStored_spec e { z with msCount := z.msCount + 1 } a slot
    rw [← ht] at htaken hcounted hstored hregs hframe
    have hplace : t.svcRing z.mould z.ctx z.rxBase z.rxSlots = some c := by
      rw [hframe, hzmould, hzctx, hzbase, hzslots]
      exact hring
    have hexec : exec (.serviceDatagramRx dt sub src sport dst dport d) s = .next (t.post c z.mould z.ctx z.token 1).settle := by
      rw [exec_serviceDatagramRx, execServiceDatagramRx, whenLive_live _ _ hlive]
      dsimp only
      rw [show (s.pass dt).subOpen sub = true from hopen, if_neg (by decide), ← hh, ← he, show (s.pass dt).svcEp e = v from hv.symm,
        if_neg hknown, hhdr, if_neg (by decide), ← hn, if_neg (not_not_intro htag),
        show v.track (beAt h 4 4) (beAt h 20 4) (s.pass dt).clk.up = some _ from htrack]
      dsimp only
      rw [show (if _ = (s.pass dt).clk.ns / 1000000 then _ else _) = z from hms.trans hz.symm,
        show ((s.pass dt).setSvc e z).rd F.svcRing_rxTail e = tail from htail.symm,
        show ((s.pass dt).setSvc e z).rd F.svcRing_rxHead e = s.rd F.svcRing_rxHead e from rfl,
        if_neg (Nat.not_le.mpr (by rw [hzrate, hzcount]; exact hi)), if_neg (Nat.not_le.mpr (by rw [hzslots]; exact hroom)),
        show z.rxBase + tail % z.rxSlots * 2048 = a by rw [hzbase, hzslots, ha], show ((s.pass dt).setSvc e z).clk.ns = (s.pass dt).clk.ns from rfl]
      rw [ht, hslot] at hplace ⊢
      dsimp only [State.svcStored, svcSlot] at hplace ⊢
      rw [hplace]
    obtain ⟨hposted, -, hquiet, -, -⟩ := t.post_spec c z.mould z.ctx z.token 1
    have htokens : t.tok c z.mould z.ctx z.token = s.tok c v.mould v.ctx v.token := by
      rw [hframe, hzmould, hzctx, hztoken]
      rfl
    have hclus := hquiet (by omega)
    refine ⟨_, hexec, fun hne => absurd htag hne, fun _ => ⟨?_, ?_, ?_, ?_, ?_, ?_⟩, ?_⟩
    · rw [hclus, htail]
      exact htaken
    · rw [hclus]
      exact hcounted
    · rw [hclus, hframe]
      exact (congrArg SvcSt.sessions (State.svcEp_setSvc_same ..)).trans hzsessions
    · rw [← hzmould, ← hzctx, ← hztoken, hposted, htokens, Nat.min_eq_left (by omega), hzmould, hzctx, hztoken]
    · have hshares : s.SharesMemory ((s.pass dt).setSvc e z) := ⟨fun _ _ => rfl, fun _ _ _ => rfl, rfl, rfl, rfl, rfl⟩
      rw [hclus, ← hzkey, ← hzmould]
      refine hstored.trans ?_
      rw [hslot]
      exact (hshares.writeMem ..).sram
    · rw [hclus]
      exact hregs
    · rw [hclus, hframe]
      rfl
  · have hexec : exec (.serviceDatagramRx dt sub src sport dst dport d) s = .next ((s.pass dt).cnt F.svcStat_dropAuth e).settle := by
      rw [exec_serviceDatagramRx, execServiceDatagramRx, whenLive_live _ _ hlive]
      dsimp only
      rw [show (s.pass dt).subOpen sub = true from hopen, if_neg (by decide), ← hh, ← he, show (s.pass dt).svcEp e = v from hv.symm,
        if_neg hknown, hhdr, if_neg (by decide), ← hn, if_pos htag]
    exact ⟨_, hexec, fun _ => rfl, fun h => absurd h htag, rfl⟩

/-- Settles O29: each command and datagram is evaluated to its end, and what it stores is followed through the rules of the registers,
the queues and the memories. -/
theorem serviceEndpoints : Obligations.ServiceEndpoints :=
  ⟨fun _ _ _ _ _ h hlen he hv hmould hlive hctx hendpoint hbound hfew hrx htx hport hqueue howner htoken hfree =>
      exec_svcBind_binds h hlen he hv hmould hlive hctx hendpoint hbound hfew hrx htx hport hqueue howner htoken hfree,
    fun _ _ _ _ h hlen he hendpoint hbound => exec_svcUnbind_clears h hlen he hendpoint hbound,
    fun _ _ _ _ h he hq => exec_svcRingWrite_sets h he hq,
    fun _ _ _ _ _ _ _ _ _ _ _ _ _ _ _ _ hlive hopen hlen hh he hendpoint hv hmould hport hip hudp hhdr hn htrack hrate hpos htail hroom
        ha hring htok =>
      exec_serviceDatagramRx_taken hlive hopen hlen hh he hendpoint hv hmould hport hip hudp hhdr hn htrack hrate hpos htail hroom ha hring htok,
    fun _ _ _ _ _ _ _ hlive he hv hmould hsome hcount ha hh hn hmax hq hroom =>
      exec_serviceDatagramTx_sends hlive he hv hmould hsome hcount ha hh hn hmax hq hroom⟩

end Sys2Proof.Machine
end

section
/-! Granules of the far tiers: what serving one does, whatever it is served from (R268, R284, R285, R298, R300). -/
namespace Sys2Proof.Machine

variable {s : State} {g : Gran} {c m x id t code n : Nat}

/-- Bytes of a granule that move change only what is stored. -/
theorem State.writes_moveGran (s : State) (g : Gran) (n : Nat) : s.Writes (s.moveGran g n) := by
  unfold State.moveGran
  split
  · exact State.writes_writeMem ..
  · exact State.writes_writeMem ..

/-- The bytes of a granule move alike in equal memories. -/
theorem State.SharesMemory.moveGran {s t : State} (h : s.SharesMemory t) (g : Gran) (n : Nat) :
    (s.moveGran g n).SharesMemory (t.moveGran g n) := by
  unfold State.moveGran
  split
  · rw [h.readMem]
    exact h.writeMem ..
  · rw [h.readMem]
    exact h.writeMem ..

theorem State.moveGran_zero (s : State) (g : Gran) : s.moveGran g 0 = s := by
  unfold State.moveGran
  split
  · rfl
  · rfl

/-- The bytes of a granule move in a state whose queues alone differ. -/
theorem State.moveGran_of_tier {s t : State} (h : t = { s with tier := t.tier }) (g : Gran) (n : Nat) :
    t.moveGran g n = { s.moveGran g n with tier := t.tier } := by
  have hshares : s.SharesMemory t := by
    rw [h]
    exact ⟨fun _ _ => rfl, fun _ _ _ => rfl, rfl, rfl, rfl, rfl⟩
  have hmoved := hshares.moveGran g n
  rw [State.writes_moveGran t g n, hmoved.sram, hmoved.gddr, hmoved.cxl, hmoved.xts, State.writes_moveGran s g n, h]

/-- A transfer's granule that is served without an error (R268, R284). -/
theorem State.served_moves (hwho : g.who = .ladle c m x id) (hslag : s.isSlag m x (s.rop id).heat (s.rop id).quenches = false) (n : Nat) :
    ∃ o : ROp, s.served g 0 n = (s.moveGran g n).setRop id o ∧ o.sent = (s.rop id).sent - 1 ∧ o.got = ((s.rop id).sent - 1 == 0)
      ∧ o.fail = (s.rop id).fail := by
  obtain ⟨o, ho⟩ : ∃ o : ROp, o = { s.rop id with
    sent := (s.rop id).sent - 1, fail := if (s.rop id).fail = 0 then 0 else (s.rop id).fail
    sub := if n = 0 then (s.rop id).sub else 1, got := (s.rop id).sent - 1 == 0 } := ⟨_, rfl⟩
  have hserved : s.served g 0 n = (s.moveGran g n).setRop id o := by
    unfold State.served
    rw [hwho, ho]
    dsimp only
    rw [hslag]
    simp
  refine ⟨o, hserved, by rw [ho], by rw [ho], ?_⟩
  rw [ho]
  dsimp only
  split
  · next hzero => exact hzero.symm
  · rfl

/-- A transfer's granule that fails ends the transfer with its first failure, and the transfer's other granules are not asked for
any more (R268, R285). -/
theorem State.served_fails (hwho : g.who = .ladle c m x id) (hcode : code ≠ 0) (n : Nat) :
    ∃ o : ROp, (s.served g code n = ((s.moveGran g n).dropGranules g.who).setRop id o ∨ s.served g code n = (s.dropGranules g.who).setRop id o)
      ∧ o.got = true ∧ o.fail = if (s.rop id).fail = 0 then code else (s.rop id).fail := by
  unfold State.served
  rw [hwho]
  dsimp only
  rw [if_neg hcode]
  split
  · exact ⟨_, .inr rfl, rfl, rfl⟩
  · exact ⟨_, .inl rfl, rfl, rfl⟩

/-- A thread's granule that fails is left to the thread, which is ready with the failure (R268). -/
theorem State.served_thread_fails (hwho : g.who = .thread c t) (hcode : code ≠ 0) (n : Nat) :
    s.served g code n = s ∨ s.served g code n = (s.setThread c t { s.thread c t with wait := .none, missErr := code }).wr F.thrStatus_state 1 c t := by
  unfold State.served
  rw [hwho]
  dsimp only
  rw [if_neg hcode]
  split
  · exact .inl rfl
  · exact .inr rfl

/-- A line that leaves the data cache takes only its bytes with it. -/
theorem State.dropLine_spec (s : State) (c k : Nat) :
    s.dropLine c k = { s with
        clus := (s.dropLine c k).clus, sram := (s.dropLine c k).sram, gddr := (s.dropLine c k).gddr, cxl := (s.dropLine c k).cxl
        xts := (s.dropLine c k).xts }
      ∧ ∀ d, ((s.dropLine c k).clu d).threads = (s.clu d).threads := by
  unfold State.dropLine
  dsimp only
  split
  · exact ⟨rfl, fun _ => rfl⟩
  · next l _ =>
    have hthreads : ∀ d, ((s.setClu c { s.clu c with dcache := Tab.del (s.clu c).dcache k }).clu d).threads = (s.clu d).threads :=
      State.clu_setClu_keeps ClusterSt.threads rfl
    split
    · have hwritten := State.writes_writeMem (s.setClu c { s.clu c with dcache := Tab.del (s.clu c).dcache k }) l.mould l.addr l.data
      refine ⟨?_, fun d => ?_⟩
      · rw [hwritten]
        rfl
      · rw [← hthreads d, hwritten]
        rfl
    · exact ⟨rfl, hthreads⟩

/-- A line that is filled is in the cache it was filled for, and the threads do not change (R298, R300). -/
theorem State.fillLine_spec (s : State) (ins : Bool) (c m a : Nat) :
    s.fillLine ins c m a = { s with
        free := (s.fillLine ins c m a).free, clus := (s.fillLine ins c m a).clus, sram := (s.fillLine ins c m a).sram
        gddr := (s.fillLine ins c m a).gddr, cxl := (s.fillLine ins c m a).cxl, xts := (s.fillLine ins c m a).xts }
      ∧ (∀ d, ((s.fillLine ins c m a).clu d).threads = (s.clu d).threads)
      ∧ ∀ p, s.place m a = some p →
          (Tab.find (if ins then ((s.fillLine ins c m a).clu c).icache else ((s.fillLine ins c m a).clu c).dcache) (lineKey m p)).isSome = true := by
  unfold State.fillLine
  split
  · next p hp =>
    dsimp only
    cases ins with
    | true =>
      refine ⟨rfl, State.clu_setClu_keeps ClusterSt.threads rfl, fun q hq => ?_⟩
      obtain rfl : p = q := Option.some.inj (hp.symm.trans hq)
      rw [if_pos rfl, if_pos rfl, State.clu_setClu, if_pos rfl, Tab.find_put_same]
      rfl
    | false =>
      rw [if_neg (by decide)]
      obtain ⟨u, hu⟩ : ∃ u : State, u = if (s.clu c).dcache.length < 1024 then s
        else { s with free := s.free + 1 }.dropLine c
          (((s.clu c).dcache.map (fun (e : Nat × LineSt) => e.1)).getD (Config.freeValue s.free 10 % 1024) 0) := ⟨_, rfl⟩
      rw [← hu]
      have hroom : u = { s with free := u.free, clus := u.clus, sram := u.sram, gddr := u.gddr, cxl := u.cxl, xts := u.xts }
          ∧ ∀ d, (u.clu d).threads = (s.clu d).threads := by
        rw [hu]
        split
        · exact ⟨rfl, fun _ => rfl⟩
        · obtain ⟨hframe, hthreads⟩ := State.dropLine_spec { s with free := s.free + 1 } c
            (((s.clu c).dcache.map (fun (e : Nat × LineSt) => e.1)).getD (Config.freeValue s.free 10 % 1024) 0)
          exact ⟨by rw [hframe], hthreads⟩
      obtain ⟨hframe, hthreads⟩ := hroom
      refine ⟨?_, fun d => ?_, fun q hq => ?_⟩
      · rw [hframe]
        rfl
      · rw [← hthreads d]
        exact State.clu_setClu_keeps (s := u) ClusterSt.threads (by rfl) d
      · obtain rfl : p = q := Option.some.inj (hp.symm.trans hq)
        rw [if_neg (by decide), State.clu_setClu, if_pos rfl, Tab.find_put_same]
        rfl
  · next hnone => exact ⟨rfl, fun _ => rfl, fun p hp => absurd (hnone.symm.trans hp) (by simp)⟩

/-- A thread's granule that is served without an error fills its line, and the thread is ready (R268, R298). -/
theorem State.served_fills (hwho : g.who = .thread c t) (hwaits : s.thrState c t = 3) (halign : g.far % 64 = 0) (n : Nat) :
    (s.served g 0 n).thrState c t = 1 ∧ (s.served g 0 n).thread c t = { s.thread c t with wait := .none, missErr := 0 }
      ∧ ((s.place g.mould g.far).isSome = true → ((s.served g 0 n).lineOf (g.near == 1) c g.mould g.far).isSome = true)
      ∧ RegsBut s (s.served g 0 n) [regAddr .thrStatus c t]
      ∧ s.served g 0 n = { s with
          csr := (s.served g 0 n).csr, free := (s.served g 0 n).free, clus := (s.served g 0 n).clus, sram := (s.served g 0 n).sram
          gddr := (s.served g 0 n).gddr, cxl := (s.served g 0 n).cxl, xts := (s.served g 0 n).xts } := by
  obtain ⟨hfilled, hthreads, hline⟩ := s.fillLine_spec (g.near == 1) c g.mould g.far
  obtain ⟨u, hu⟩ : ∃ u, u = s.fillLine (g.near == 1) c g.mould g.far := ⟨_, rfl⟩
  rw [← hu] at hfilled hthreads hline
  have hthread : u.thread c t = s.thread c t := congrArg (Tab.get ThreadSt.init · t) (hthreads c)
  have hcsr : u.csr = s.csr := (congrArg State.csr hfilled).trans rfl
  have hstate : ¬ u.rd F.thrStatus_state c t ≠ 3 := not_not_intro ((State.rd_of_csr hcsr _ _ _).trans hwaits)
  obtain ⟨w, hw⟩ : ∃ w, w = u.setThread c t { s.thread c t with wait := .none, missErr := 0 } := ⟨_, rfl⟩
  have hserved : s.served g 0 n = w.wr F.thrStatus_state 1 c t := by
    unfold State.served
    rw [hwho]
    dsimp only
    rw [if_pos rfl, show (decide (g.near = 1)) = (g.near == 1) from rfl, ← hu, if_neg hstate, hthread, hw]
  rw [hserved]
  obtain ⟨hready, hregs⟩ := w.wr_thrState_spec c t 1
  refine ⟨hready, ?_, fun hplace => ?_, ?_, ?_⟩
  · rw [hw]
    exact State.thread_setThread_same u c t { s.thread c t with wait := .none, missErr := 0 }
  · obtain ⟨p, hp⟩ := Option.isSome_iff_exists.mp hplace
    have hat : (w.wr F.thrStatus_state 1 c t).place g.mould (g.far / 64 * 64) = some p := by
      rw [Nat.div_mul_cancel (Nat.dvd_of_mod_eq_zero halign), hw, ← hp, hfilled]
      rfl
    have hcaches : (w.wr F.thrStatus_state 1 c t).clu c = { u.clu c with threads := (w.clu c).threads } := by
      have hclu := State.clu_setThread u c t { s.thread c t with wait := .none, missErr := 0 }
      rw [← hw] at hclu
      exact hclu.trans (by rw [hclu])
    rw [State.lineOf, hat, Option.bind_some, hcaches]
    exact hline p hp
  · have hsame : RegsBut s w [regAddr .thrStatus c t] := by
      rw [hw]
      exact State.regsBut_of_csr (t := u.setThread c t _) hcsr _
    exact hsame.trans hregs
  · rw [hw, hfilled]
    rfl

end Sys2Proof.Machine
end

section
/-! GDDR7 channels and CXL ports: queues, turns and errors (R283 to R292, R296). -/
namespace Sys2Proof.Machine

variable {s : State} {dt ch k m retries line c x id t : Nat} {own : Bool} {g : Gran} {r : List Gran}

/-- A queue that is replaced asks for the bytes it was replaced with. -/
theorem State.granules_setGranules_same (s : State) (cxl : Bool) (k : Nat) (l : List Gran) :
    ((s.setGranules cxl k l).granules' cxl k).map (·.far) = l.map (·.far) := by
  cases l with
  | nil => cases cxl <;> simp [State.setGranules, State.granules']
  | cons a l =>
    have hhead : ((if a.head = 0 then { a with head := s.clk.up + 1 } else a) : Gran).far = a.far := by split <;> rfl
    cases cxl <;> simp [State.setGranules, State.granules', hhead]

theorem regAddr_gddrCh_ne_memEcc {ch : Nat} (hch : ch < 128) : regAddr .gddrCh ch 0 ≠ regAddr .memEcc 0 0 := by
  rw [show regAddr .gddrCh ch 0 = 0x701000 + 0x8 * ch from rfl, show regAddr .memEcc 0 0 = 0x709000 from rfl]
  omega

/-- An uncorrectable word of a channel is counted and logged (R285). -/
theorem State.gddrUe_spec (hroom : s.logRoom 1) (hch : ch < 128) (m : Nat) :
    (s.gddrUe ch m).rd F.gddrCh_ue ch = satAdd 16 (s.rd F.gddrCh_ue ch) 1
      ∧ (s.gddrUe ch m).rd F.memEcc_gddrUe = satAdd 16 (s.rd F.memEcc_gddrUe) 1
      ∧ (s.gddrUe ch m).lastEvt = some (0x1003, srcGddr ch, m)
      ∧ RegsBut s (s.gddrUe ch m) [regAddr .gddrCh ch 0, regAddr .memEcc 0 0]
      ∧ s.gddrUe ch m = { s with csr := (s.gddrUe ch m).csr, health := (s.gddrUe ch m).health, log := (s.gddrUe ch m).log } := by
  obtain ⟨w, hw⟩ : ∃ w, w = ((s.cnt F.gddrCh_ue ch).cnt F.memEcc_gddrUe).count 1 255 := ⟨_, rfl⟩
  have hroom' : w.logRoom 1 := by
    rw [hw, State.count_device]
    exact hroom
  obtain ⟨hevent, hlogged⟩ := State.logEvt_pushes 0x1003 (srcGddr ch) m (ch % 2 ^ 128) hroom'
  have hfull : s.gddrUe ch m = w.logEvt 0x1003 (srcGddr ch) m (ch % 2 ^ 128) := by
    rw [hw]
    rfl
  rw [← hfull] at hevent hlogged
  have hcsr : (s.gddrUe ch m).csr = w.csr := (congrArg State.csr hlogged).trans rfl
  have hw_csr : w.csr = ((s.cnt F.gddrCh_ue ch).cnt F.memEcc_gddrUe).csr := by
    rw [hw, State.count_device]
  refine ⟨?_, ?_, hevent, ?_, ?_⟩
  · rw [State.rd_of_csr (hcsr.trans hw_csr), State.cnt, State.rd_wr_ne _ _ (regAddr_gddrCh_ne_memEcc hch),
      State.rd_cnt_same _ _ _ _ _ (by decide)]
    rfl
  · rw [State.rd_of_csr (hcsr.trans hw_csr), State.rd_cnt_same _ _ _ _ _ (by decide), State.cnt,
      State.rd_wr_ne _ _ (regAddr_gddrCh_ne_memEcc hch).symm]
    rfl
  · have hcounted := ((State.regsBut_cnt s F.gddrCh_ue ch 0 1).mono (List.cons_subset_cons _ (List.nil_subset [regAddr .memEcc 0 0]))).step
      (State.regsBut_cnt _ F.memEcc_gddrUe 0 0 1) (List.mem_cons_of_mem _ List.mem_cons_self)
    exact hcounted.trans (State.regsBut_of_csr (hcsr.trans hw_csr) _)
  · rw [hlogged, hw, State.count_device]
    rfl

/-- The granule at the head of a mould's queue for a channel takes a unit (R283, R284): only the tiers' queues and turns change
before it is served, and it leaves the queue. -/
theorem exec_gddrGranuleServe_takes (hlive : s.live = true) (hm : m < 64) (hstate : s.rd F.gddrCh_state ch = 2)
    (hturn : own = true ∨ nextTurn (s.waiters false ch) (Tab.get 0 s.tier.gLast ch) = some m) (hchan : bit (s.envelope m).chans ch = true)
    (hqueue : s.granules' false (tierKey ch m) = g :: r) (ecc : Nat) :
    ∃ w : State, w = { s.pass dt with tier := w.tier } ∧ (w.granules' false (tierKey ch m)).map (·.far) = r.map (·.far)
      ∧ exec (.gddrGranuleServe dt ch m own retries ecc line) s
          = .next (if 4 < retries ∨ ecc = 2 then (w.gddrUe ch m).served g E.memGddrUe (min g.len (64 * line))
            else (if ecc = 1 then w.gddrCe ch 1 else w).served g 0 g.len).settle := by
  have hserves : ¬ (decide (64 ≤ m) || decide ((s.pass dt).rd F.gddrCh_state ch ≠ 2)
      || !(own || nextTurn ((s.pass dt).waiters false ch) (Tab.get 0 (s.pass dt).tier.gLast ch) == some m)
      || !bit ((s.pass dt).envelope m).chans ch) = true := by
    rw [decide_eq_false (Nat.not_le.mpr hm), show (s.pass dt).rd F.gddrCh_state ch = 2 from hstate,
      show bit ((s.pass dt).envelope m).chans ch = true from hchan]
    obtain hown | hnext := hturn
    · rw [hown, Bool.true_or]
      decide
    · rw [show nextTurn ((s.pass dt).waiters false ch) (Tab.get 0 (s.pass dt).tier.gLast ch) = some m from hnext, beq_self_eq_true,
        Bool.or_true]
      decide
  rw [exec_gddrGranuleServe, execGddrGranuleServe, whenLive_live _ _ hlive]
  dsimp only
  rw [show (s.pass dt).granules' false (tierKey ch m) = g :: r from hqueue]
  dsimp only
  rw [if_neg hserves]
  generalize hw : State.setGranules _ false (tierKey ch m) r = w
  refine ⟨w, ?_, ?_, rfl⟩
  · rw [← hw, State.setGranules_frame]
    rfl
  · rw [← hw, State.granules_setGranules_same]

/-- A slag transfer is one wherever the registers and the moulds are those of s. -/
theorem State.isSlag_of_pass {w : State} (hw : w = { s.pass dt with tier := w.tier }) (m x a q : Nat) : w.isSlag m x a q = s.isSlag m x a q := by
  rw [hw]
  rfl

/-- A granule that moves its bytes for its transfer, served from a state in which only the queues and turns have changed. -/
theorem State.served_moves_of_pass {w : State} (hw : w = { s.pass dt with tier := w.tier }) (hwho : g.who = .ladle c m x id)
    (hslag : s.isSlag m x (s.rop id).heat (s.rop id).quenches = false) :
    ((w.served g 0 g.len).rop id).sent = (s.rop id).sent - 1 ∧ ((w.served g 0 g.len).rop id).got = ((s.rop id).sent - 1 == 0)
      ∧ ((w.served g 0 g.len).rop id).fail = (s.rop id).fail ∧ (w.served g 0 g.len).tier = w.tier
      ∧ (∀ i, i ≠ id → (w.served g 0 g.len).rop i = s.rop i)
      ∧ w.served g 0 g.len = { (s.pass dt).moveGran g g.len with tier := (w.served g 0 g.len).tier, fab := (w.served g 0 g.len).fab } := by
  have hops : ∀ i, w.rop i = s.rop i := fun i => by
    rw [hw]
    rfl
  obtain ⟨o, hserved, hsent, hgot, hfail⟩ := State.served_moves (s := w) hwho (by rw [State.isSlag_of_pass hw, hops]; exact hslag) g.len
  rw [hops] at hsent hgot hfail
  have hmoved := State.moveGran_of_tier hw g g.len
  rw [hserved, State.rop_setRop_same]
  refine ⟨hsent, hgot, hfail, ?_, fun i hi => ?_, ?_⟩
  · rw [hmoved]
    rfl
  · rw [State.rop_setRop_ne _ _ hi, ← hops, State.writes_moveGran w g g.len]
    rfl
  · rw [hmoved]
    rfl

theorem exec_gddrGranuleServe_moves (hlive : s.live = true) (hm : m < 64) (hstate : s.rd F.gddrCh_state ch = 2)
    (hturn : own = true ∨ nextTurn (s.waiters false ch) (Tab.get 0 s.tier.gLast ch) = some m) (hchan : bit (s.envelope m).chans ch = true)
    (hqueue : s.granules' false (tierKey ch m) = g :: r) (hretries : retries ≤ 4) (hwho : g.who = .ladle c m x id)
    (hslag : s.isSlag m x (s.rop id).heat (s.rop id).quenches = false) :
    ∃ u : State, exec (.gddrGranuleServe dt ch m own retries 0 line) s = .next u.settle
      ∧ (u.rop id).sent = (s.rop id).sent - 1 ∧ (u.rop id).got = ((s.rop id).sent - 1 == 0) ∧ (u.rop id).fail = (s.rop id).fail
      ∧ (u.granules' false (tierKey ch m)).map (·.far) = r.map (·.far) ∧ (∀ i, i ≠ id → u.rop i = s.rop i)
      ∧ u = { (s.pass dt).moveGran g g.len with tier := u.tier, fab := u.fab } := by
  obtain ⟨w, hw, hleft, hexec⟩ := exec_gddrGranuleServe_takes (dt := dt) (retries := retries) (line := line) hlive hm hstate hturn hchan hqueue 0
  rw [if_neg (by omega), if_neg (by decide)] at hexec
  obtain ⟨hsent, hgot, hfail, htier, hothers, hframe⟩ := State.served_moves_of_pass hw hwho hslag
  exact ⟨_, hexec, hsent, hgot, hfail, by rw [State.granules', htier]; exact hleft, hothers, hframe⟩

theorem exec_gddrGranuleServe_fills (hlive : s.live = true) (hm : m < 64) (hstate : s.rd F.gddrCh_state ch = 2)
    (hturn : own = true ∨ nextTurn (s.waiters false ch) (Tab.get 0 s.tier.gLast ch) = some m) (hchan : bit (s.envelope m).chans ch = true)
    (hqueue : s.granules' false (tierKey ch m) = g :: r) (hretries : retries ≤ 4) (hwho : g.who = .thread c t) (halign : g.far % 64 = 0)
    (hwaits : s.thrState c t = 3) :
    ∃ u : State, exec (.gddrGranuleServe dt ch m own retries 0 line) s = .next u.settle ∧ u.thrState c t = 1
      ∧ u.thread c t = { s.thread c t with wait := .none, missErr := 0 }
      ∧ ((s.place g.mould g.far).isSome = true → (u.lineOf (g.near == 1) c g.mould g.far).isSome = true)
      ∧ (u.granules' false (tierKey ch m)).map (·.far) = r.map (·.far) ∧ RegsBut s u [regAddr .thrStatus c t]
      ∧ u = { s.pass dt with
          csr := u.csr, clus := u.clus, tier := u.tier, free := u.free, sram := u.sram, gddr := u.gddr, cxl := u.cxl, xts := u.xts } := by
  obtain ⟨w, hw, hleft, hexec⟩ := exec_gddrGranuleServe_takes (dt := dt) (retries := retries) (line := line) hlive hm hstate hturn hchan hqueue 0
  rw [if_neg (by omega), if_neg (by decide)] at hexec
  have hcsr : w.csr = s.csr := (congrArg State.csr hw).trans rfl
  obtain ⟨hready, hthread, hline, hregs, hframe⟩ := State.served_fills (s := w) hwho ((State.rd_of_csr hcsr _ _ _).trans hwaits) halign g.len
  refine ⟨_, hexec, hready, ?_, fun hplace => hline ?_, ?_, (State.regsBut_of_csr hcsr _).trans hregs, ?_⟩
  · rw [hthread, hw]
    rfl
  · rw [hw]
    exact hplace
  · rw [hframe]
    exact hleft
  · rw [hframe, hw]

/-- Granules that leave every queue change no queue's channel, register or memory. -/
theorem State.dropGranules_frame (s : State) (who : GranWho) : s.dropGranules who = { s with tier := (s.dropGranules who).tier } := rfl

/-- A failed granule of a transfer that had met no failure (R268, R285). -/
theorem State.served_fails_spec (hwho : g.who = .ladle c m x id) {code : Nat} (hcode : code ≠ 0) (hfirst : (s.rop id).fail = 0) (n : Nat) :
    ((s.served g code n).rop id).got = true ∧ ((s.served g code n).rop id).fail = code
      ∧ s.served g code n = { s with
          tier := (s.served g code n).tier, fab := (s.served g code n).fab, sram := (s.served g code n).sram, gddr := (s.served g code n).gddr
          cxl := (s.served g code n).cxl, xts := (s.served g code n).xts } := by
  obtain ⟨o, hserved, hgot, hfail⟩ := State.served_fails hwho hcode n (s := s)
  rw [if_pos hfirst] at hfail
  obtain hserved | hserved := hserved
  · rw [hserved, State.rop_setRop_same]
    refine ⟨hgot, hfail, ?_⟩
    rw [State.dropGranules_frame, State.writes_moveGran s g n]
    rfl
  · rw [hserved, State.rop_setRop_same]
    exact ⟨hgot, hfail, rfl⟩

theorem exec_gddrGranuleServe_fails {ecc : Nat} (hlive : s.live = true) (hm : m < 64) (hch : ch < 128) (hstate : s.rd F.gddrCh_state ch = 2)
    (hturn : own = true ∨ nextTurn (s.waiters false ch) (Tab.get 0 s.tier.gLast ch) = some m) (hchan : bit (s.envelope m).chans ch = true)
    (hqueue : s.granules' false (tierKey ch m) = g :: r) (herr : 4 < retries ∨ ecc = 2) (hwho : g.who = .ladle c m x id)
    (hfirst : (s.rop id).fail = 0) (hroom : s.logRoom 1) :
    ∃ u : State, exec (.gddrGranuleServe dt ch m own retries ecc line) s = .next u.settle ∧ (u.rop id).got = true
      ∧ (u.rop id).fail = E.memGddrUe ∧ u.rd F.gddrCh_ue ch = satAdd 16 (s.rd F.gddrCh_ue ch) 1
      ∧ u.rd F.memEcc_gddrUe = satAdd 16 (s.rd F.memEcc_gddrUe) 1 ∧ u.lastEvt = some (0x1003, srcGddr ch, m)
      ∧ RegsBut s u [regAddr .gddrCh ch 0, regAddr .memEcc 0 0]
      ∧ u = { s.pass dt with
          csr := u.csr, tier := u.tier, fab := u.fab, health := u.health, log := u.log, sram := u.sram, gddr := u.gddr, cxl := u.cxl
          xts := u.xts } := by
  obtain ⟨w, hw, -, hexec⟩ := exec_gddrGranuleServe_takes (dt := dt) (retries := retries) (line := line) hlive hm hstate hturn hchan hqueue ecc
  rw [if_pos herr] at hexec
  have hroom' : w.logRoom 1 := by
    rw [hw]
    exact hroom
  have hcsr : w.csr = s.csr := (congrArg State.csr hw).trans rfl
  obtain ⟨hcount, hall, hevent, hregs, hcounted⟩ := State.gddrUe_spec hroom' hch m
  generalize w.gddrUe ch m = v at *
  have hfirst' : (v.rop id).fail = 0 := by
    rw [hcounted, hw]
    exact hfirst
  obtain ⟨hgot, hfail, hframe⟩ := State.served_fails_spec hwho (code := E.memGddrUe) (by decide) hfirst' (min g.len (64 * line))
  refine ⟨_, hexec, hgot, hfail, ?_, ?_, ?_, ?_, ?_⟩
  · rw [hframe]
    exact hcount.trans (by rw [State.rd_of_csr hcsr])
  · rw [hframe]
    exact hall.trans (by rw [State.rd_of_csr hcsr])
  · rw [hframe]
    exact hevent
  · rw [hframe]
    exact (State.regsBut_of_csr hcsr _).trans hregs
  · rw [hframe, hcounted, hw]

/-- The corrections of a channel are counted beside its state (R285). -/
theorem State.gddrCe_spec (s : State) (ch n : Nat) :
    (s.gddrCe ch n).rd F.gddrCh_ce ch = satAdd 16 (s.rd F.gddrCh_ce ch) n
      ∧ (∀ i, (s.gddrCe ch n).rd F.gddrCh_state i = s.rd F.gddrCh_state i) ∧ RegsBut s (s.gddrCe ch n) [regAddr .gddrCh ch 0]
      ∧ s.gddrCe ch n = { s with csr := (s.gddrCe ch n).csr, health := (s.gddrCe ch n).health } := by
  obtain ⟨w, hw⟩ : ∃ w, w = s.cnt F.gddrCh_ce ch 0 n := ⟨_, rfl⟩
  have hfull : s.gddrCe ch n = w.count 3 255 n := by rw [hw, State.gddrCe]
  have hcsr : (w.count 3 255 n).csr = w.csr := (congrArg State.csr (State.count_frame w 3 255 n)).trans rfl
  rw [hfull]
  refine ⟨?_, fun i => ?_, ?_, ?_⟩
  · rw [State.rd_count, hw, State.rd_cnt_same _ _ _ _ _ (by decide)]
    rfl
  · rw [State.rd_count, hw, State.cnt, State.rd_wr_otherBits _ _ _ _ _ _ (by rfl) (by decide) (by decide)]
  · have hregs : RegsBut s w [regAddr .gddrCh ch 0] := hw ▸ State.regsBut_cnt s F.gddrCh_ce ch 0 n
    exact hregs.trans (State.regsBut_of_csr hcsr _)
  · rw [State.count_frame, hw]
    rfl

theorem regAddr_scrubStatus_notMem_gddrCh (hch : ch < 128) : regAddr .scrubStatus 0 0 ∉ [regAddr .gddrCh ch 0] := by
  rw [List.mem_singleton, show regAddr .gddrCh ch 0 = 0x701000 + 0x8 * ch from rfl, show regAddr .scrubStatus 0 0 = 0x709010 from rfl]
  omega

theorem exec_gddrMaintenanceUnit_scrubs {ce n : Nat} (hlive : s.live = true) (hch : ch < 128) (hstate : s.rd F.gddrCh_state ch = 2)
    (hen : s.flag F.scrubCtrl_gddrEn = true)
    (hn : n = ((List.range 128).filter (fun k => s.rd F.gddrCh_state k = 2)).length * s.rd F.gddrCfg_channelMb * 4096) :
    ∃ u : State, exec (.gddrMaintenanceUnit dt ch ce) s = .next u.settle
      ∧ u.rd F.gddrCh_ce ch = satAdd 16 (s.rd F.gddrCh_ce ch) (min ce 4)
      ∧ u.tier = (if s.tier.gddrPos + 1 < n then { s.tier with gddrPos := s.tier.gddrPos + 1 }
        else { s.tier with gddrPos := 0, gddrAt := s.clk.up + dt })
      ∧ u.rd F.scrubStatus_gddrPasses
        = (if s.tier.gddrPos + 1 < n then s.rd F.scrubStatus_gddrPasses else satAdd 16 (s.rd F.scrubStatus_gddrPasses) 1)
      ∧ RegsBut s u [regAddr .gddrCh ch 0, regAddr .scrubStatus 0 0]
      ∧ u = { s.pass dt with csr := u.csr, tier := u.tier, health := u.health } := by
  obtain ⟨w, hw⟩ : ∃ w, w = (s.pass dt).gddrCe ch (min ce 4) := ⟨_, rfl⟩
  obtain ⟨hce, hstates, hregs, hframe⟩ := (s.pass dt).gddrCe_spec ch (min ce 4)
  rw [← hw] at hce hstates hregs hframe
  have hsize : w.rd F.gddrCfg_channelMb = s.rd F.gddrCfg_channelMb := hregs.rd (f := F.gddrCfg_channelMb) (by
    rw [List.mem_singleton, show regAddr F.gddrCfg_channelMb.reg 0 0 = 0x700000 from rfl,
      show regAddr .gddrCh ch 0 = 0x701000 + 0x8 * ch from rfl]
    omega)
  have htotal : ((List.range 128).filter (fun n => w.rd F.gddrCh_state n = 2)).length * w.rd F.gddrCfg_channelMb * 4096 = n := by
    simp only [hstates, hsize]
    exact hn.symm
  have hpos : w.tier = s.tier := (congrArg State.tier hframe).trans rfl
  have hpasses : w.rd F.scrubStatus_gddrPasses = s.rd F.scrubStatus_gddrPasses :=
    hregs.rd (f := F.scrubStatus_gddrPasses) (regAddr_scrubStatus_notMem_gddrCh hch)
  have hregs' : RegsBut s w [regAddr .gddrCh ch 0, regAddr .scrubStatus 0 0] := hregs.mono (by simp)
  have hready : ¬ (decide ((s.pass dt).rd F.gddrCh_state ch ≠ 2) || !(s.pass dt).flag F.scrubCtrl_gddrEn) = true := by
    rw [show (s.pass dt).rd F.gddrCh_state ch = 2 from hstate, show (s.pass dt).flag F.scrubCtrl_gddrEn = true from hen]
    decide
  by_cases hmore : s.tier.gddrPos + 1 < n
  · have hexec : exec (.gddrMaintenanceUnit dt ch ce) s
        = .next ({ w with tier := { s.tier with gddrPos := s.tier.gddrPos + 1 } } : State).settle := by
      rw [exec_gddrMaintenanceUnit, execGddrMaintenanceUnit, whenLive_live _ _ hlive]
      dsimp only
      rw [if_neg hready, ← hw, htotal, hpos, if_pos hmore]
    rw [if_pos hmore, if_pos hmore]
    refine ⟨_, hexec, hce, rfl, hpasses, hregs', ?_⟩
    rw [hframe]
  · obtain ⟨late, hlate⟩ : ∃ late, late = (w.flag F.scrubStatus_late
        || decide (s.tier.gddrAt + max 10 (w.rd F.scrubCtrl_gddrPeriodS) * 1000000000 < w.clk.up)) := ⟨_, rfl⟩
    obtain ⟨v, hv⟩ : ∃ v, v = (w.cnt F.scrubStatus_gddrPasses).setFlag F.scrubStatus_late late := ⟨_, rfl⟩
    have hexec : exec (.gddrMaintenanceUnit dt ch ce) s
        = .next ({ v with tier := { v.tier with gddrPos := 0, gddrAt := v.clk.up } } : State).settle := by
      rw [exec_gddrMaintenanceUnit, execGddrMaintenanceUnit, whenLive_live _ _ hlive]
      dsimp only
      rw [if_neg hready, ← hw, htotal, hpos, if_neg hmore, ← hlate, ← hv]
    rw [if_neg hmore, if_neg hmore]
    have hcounted : v.rd F.scrubStatus_gddrPasses = satAdd 16 (s.rd F.scrubStatus_gddrPasses) 1 := by
      rw [hv, State.setFlag, State.rd_wr_beside _ _ _ _ (by rfl) (by decide) (by decide), State.rd_cnt_same _ _ _ _ _ (by decide), hpasses]
      rfl
    have hafter : RegsBut w v [regAddr .scrubStatus 0 0] := by
      rw [hv]
      exact (State.regsBut_cnt w F.scrubStatus_gddrPasses 0 0 1).trans (State.regsBut_wr _ F.scrubStatus_late _ 0 0)
    have hcorrected : v.rd F.gddrCh_ce ch = w.rd F.gddrCh_ce ch := hafter.rd (f := F.gddrCh_ce) (by
      rw [List.mem_singleton]
      exact fun heq => regAddr_scrubStatus_notMem_gddrCh hch (List.mem_singleton.mpr heq.symm))
    refine ⟨_, hexec, hcorrected.trans hce, ?_, hcounted, hregs'.trans (hafter.mono (by simp)), ?_⟩
    · rw [hv, hframe]
      rfl
    · rw [hv, hframe]
      rfl

theorem exec_gddrRetrain_begins {q : MReq} {rest : List MReq} {i : Nat} (h : s.serves 0x0041 q rest) (hlen : q.body.length = 1)
    (hc : ch = leAt q.body 0 1) (hch : ch < 128) (hstate : s.rd F.gddrCh_state ch ≠ 0)
    (hradio : s.flag F.gddrCh_radio ch = true → s.mstate (s.rd F.gddrCh_radioMould ch) = 4 ∨ s.mstate (s.rd F.gddrCh_radioMould ch) = 0)
    (hidle : s.retraining ch = false) (hblock : s.blockBusy (12 + ch / 32) = false) (hfree : s.freeEntry = some i) :
    ∃ u : State, exec .gddrRetrain s = .next u.settle ∧ s.opStarted u q rest i 3 10 (.retrain ch)
      ∧ u = { s with mgmt := u.mgmt, out := u.out } := by
  have hbody : (q.body.length == 1 && decide (ch < 128)) = true := by
    rw [hlen, decide_eq_true hch]
    rfl
  have hallowed : ¬ ((s.taken rest).flag F.gddrCh_radio ch && decide ((s.taken rest).mstate ((s.taken rest).rd F.gddrCh_radioMould ch) ≠ 4)
      && decide ((s.taken rest).mstate ((s.taken rest).rd F.gddrCh_radioMould ch) ≠ 0) || (s.taken rest).retraining ch
      || (s.taken rest).blockBusy (12 + ch / 32)) = true := by
    rw [show (s.taken rest).retraining ch = false from hidle, show (s.taken rest).blockBusy (12 + ch / 32) = false from hblock]
    simp only [Bool.or_false, Bool.and_eq_true, decide_eq_true_eq, not_and, Decidable.not_not]
    exact fun hown => (hradio hown.1).resolve_left hown.2
  have hexec : exec .gddrRetrain s = .next ((s.taken rest).startOp q 3 10 (.retrain ch) fun _ t => t).settle := by
    rw [exec_gddrRetrain, execGddrRetrain, takeCmd_serves h]
    dsimp only
    rw [← hc, State.bodyOk_pos hbody, if_neg (show ¬ (s.taken rest).rd F.gddrCh_state ch = 0 from hstate), if_neg hallowed]
  obtain ⟨hstarted, hframe⟩ := State.opStarted_startOp h hfree 3 10 (.retrain ch)
  exact ⟨_, hexec, hstarted, hframe⟩

end Sys2Proof.Machine
end

section
/-! CXL ports: completions, time limits, training and loss of a link (R290 to R292). -/
namespace Sys2Proof.Machine

variable {s : State} {dt k m line c x id : Nat} {g : Gran} {r : List Gran}

/-- The request at the head of a mould's queue is taken in its turn: only queues and turns change, and it leaves its queue (R292). -/
theorem State.takeCxl_spec (hqueue : s.granules' true (tierKey k m) = g :: r)
    (hturn : nextTurn (s.waiters true k) (Tab.get 0 s.tier.cLast k) = some m) :
    ∃ w : State, s.takeCxl k m = some (g, w) ∧ w = { s with tier := w.tier }
      ∧ (w.granules' true (tierKey k m)).map (·.far) = r.map (·.far) := by
  unfold State.takeCxl
  rw [hqueue]
  dsimp only
  rw [if_pos hturn]
  generalize hq : (s.noteWait m (0x80 * 16 + k * 16) g).setGranules true (tierKey k m) r = q
  refine ⟨_, rfl, ?_, ?_⟩
  · rw [← hq, State.setGranules_frame]
    rfl
  · have hleft := State.granules_setGranules_same (s.noteWait m (0x80 * 16 + k * 16) g) true (tierKey k m) r
    rw [hq] at hleft
    exact hleft

theorem exec_cxlRequestComplete_moves (hlive : s.live = true) (hk : k < 4) (hm : m < 64) (hup : s.flag F.cxlDev_linkUp k = true)
    (hqueue : s.granules' true (tierKey k m) = g :: r) (hturn : nextTurn (s.waiters true k) (Tab.get 0 s.tier.cLast k) = some m)
    (hwho : g.who = .ladle c m x id) (hslag : s.isSlag m x (s.rop id).heat (s.rop id).quenches = false) :
    ∃ u : State, exec (.cxlRequestComplete dt k m false false line) s = .next u.settle
      ∧ (u.rop id).sent = (s.rop id).sent - 1 ∧ (u.rop id).got = ((s.rop id).sent - 1 == 0) ∧ (u.rop id).fail = (s.rop id).fail
      ∧ (u.granules' true (tierKey k m)).map (·.far) = r.map (·.far) ∧ (∀ i, i ≠ id → u.rop i = s.rop i)
      ∧ u = { (s.pass dt).moveGran g g.len with tier := u.tier, fab := u.fab } := by
  obtain ⟨w, htaken, hw, hleft⟩ := State.takeCxl_spec (s := s.pass dt) hqueue hturn
  have hopen : ¬ (decide (4 ≤ k) || decide (64 ≤ m) || !(s.pass dt).flag F.cxlDev_linkUp k) = true := by
    rw [decide_eq_false (Nat.not_le.mpr hk), decide_eq_false (Nat.not_le.mpr hm), show (s.pass dt).flag F.cxlDev_linkUp k = true from hup]
    decide
  have hexec : exec (.cxlRequestComplete dt k m false false line) s = .next (w.served g 0 g.len).settle := by
    rw [exec_cxlRequestComplete, execCxlRequestComplete, whenLive_live _ _ hlive]
    dsimp only
    rw [if_neg hopen, if_neg (by decide), htaken]
    rfl
  obtain ⟨hsent, hgot, hfail, htier, hothers, hframe⟩ := State.served_moves_of_pass hw hwho hslag
  exact ⟨_, hexec, hsent, hgot, hfail, by rw [State.granules', htier]; exact hleft, hothers, hframe⟩

/-- A granule that fails before any of its bytes came moves none. -/
theorem State.served_fails_empty (hwho : g.who = .ladle c m x id) {code : Nat} (hcode : code ≠ 0) :
    ∃ o : ROp, s.served g code 0 = (s.dropGranules g.who).setRop id o
      ∧ o.got = true ∧ o.fail = if (s.rop id).fail = 0 then code else (s.rop id).fail := by
  obtain ⟨o, hserved, hgot, hfail⟩ := State.served_fails hwho hcode 0 (s := s)
  rw [State.moveGran_zero, or_self] at hserved
  exact ⟨o, hserved, hgot, hfail⟩

theorem exec_cxlTimeout_fails (hlive : s.live = true) (hk : k < 4) (hm : m < 64) (hqueue : s.granules' true (tierKey k m) = g :: r)
    (hturn : nextTurn (s.waiters true k) (Tab.get 0 s.tier.cLast k) = some m) (hwho : g.who = .ladle c m x id)
    (hfirst : (s.rop id).fail = 0) (hlate : g.at_ + 10000000 ≤ s.clk.up + dt) :
    ∃ u : State, exec (.cxlTimeout dt k m) s = .next u.settle ∧ (u.rop id).got = true ∧ (u.rop id).fail = E.memTimeout
      ∧ u.rd F.cxlDev_timeouts k = satAdd 16 (s.rd F.cxlDev_timeouts k) 1 ∧ RegsBut s u [regAddr .cxlDev k 0]
      ∧ u = { s.pass dt with csr := u.csr, tier := u.tier, fab := u.fab } := by
  obtain ⟨w, htaken, hw, -⟩ := State.takeCxl_spec (s := s.pass dt) hqueue hturn
  have hopen : ¬ (decide (4 ≤ k) || decide (64 ≤ m)) = true := by
    rw [decide_eq_false (Nat.not_le.mpr hk), decide_eq_false (Nat.not_le.mpr hm)]
    decide
  obtain ⟨v, hv⟩ : ∃ v, v = w.cnt F.cxlDev_timeouts k := ⟨_, rfl⟩
  have hexec : exec (.cxlTimeout dt k m) s = .next (v.served g E.memTimeout 0).settle := by
    rw [exec_cxlTimeout, execCxlTimeout, whenLive_live _ _ hlive]
    dsimp only
    rw [if_neg hopen, htaken]
    dsimp only
    rw [if_neg (show ¬ (s.pass dt).clk.up < g.at_ + 10000000 from Nat.not_lt.mpr hlate), ← hv]
  have hops : v.rop id = s.rop id := by
    rw [hv, hw]
    rfl
  obtain ⟨o, hserved, hgot, hfail⟩ := State.served_fails_empty (s := v) hwho (code := E.memTimeout) (by decide)
  rw [hops, if_pos hfirst] at hfail
  have hcsr : w.csr = s.csr := (congrArg State.csr hw).trans rfl
  refine ⟨_, hexec, ?_⟩
  rw [hserved, State.rop_setRop_same]
  refine ⟨hgot, hfail, ?_, ?_, ?_⟩
  · have hcount : v.rd F.cxlDev_timeouts k = satAdd 16 (s.rd F.cxlDev_timeouts k) 1 := by
      rw [hv, State.rd_cnt_same _ _ _ _ _ (by decide), State.rd_of_csr hcsr]
      rfl
    exact hcount
  · have hregs : RegsBut s v [regAddr .cxlDev k 0] := by
      rw [hv]
      exact (State.regsBut_of_csr hcsr _).trans (State.regsBut_cnt w F.cxlDev_timeouts k 0 1)
    exact hregs
  · rw [hv, hw]
    rfl

theorem exec_cxlLinkTrain_shows {width cap : Nat} {ide : Bool} (hlive : s.live = true) (hk : k < 4) (hblock : s.blockBusy (16 + k / 2) = false)
    (hdown : s.flag F.cxlDev_linkUp k = false) (hquar : s.flag F.quar_active (48 + k) = false) (hwidth : width = 8 ∨ width = 16)
    (hide : s.needsIde k = true → ide = true) :
    ∃ u : State, exec (.cxlLinkTrain k width cap true ide) s = .next u.settle ∧ u.rd F.cxlDev_present k = 1 ∧ u.rd F.cxlDev_linkUp k = 1
      ∧ u.rd F.cxlDev_width k = width ∧ u.rd F.cxlDev_capacityGb k = min cap 512 ∧ u.flag F.cxlDev_ide k = s.needsIde k
      ∧ RegsBut s u [regAddr .cxlDev k 0] ∧ u = { s with csr := u.csr } := by
  obtain ⟨w, hw⟩ : ∃ w, w = ((s.wr F.cxlDev_present 1 k).wr F.cxlDev_width width k).wr F.cxlDev_capacityGb (min cap 512) k := ⟨_, rfl⟩
  have hneeds : w.needsIde k = s.needsIde k := by
    rw [hw]
    rfl
  have hlinks : ¬ (s.needsIde k && !ide) = true := by
    cases hneed : s.needsIde k with
    | false => exact Bool.false_ne_true
    | true => simp [hide hneed]
  have hknown : ¬ (!true || (decide (width ≠ 8) && decide (width ≠ 16))) = true := by
    obtain rfl | rfl := hwidth <;> decide
  have hexec : exec (.cxlLinkTrain k width cap true ide) s
      = .next ((w.setFlag F.cxlDev_ide (s.needsIde k) k).wr F.cxlDev_linkUp 1 k).settle := by
    rw [exec_cxlLinkTrain, execCxlLinkTrain, whenLive_live _ _ hlive]
    dsimp only
    rw [decide_eq_false (Nat.not_le.mpr hk), hblock, hdown, hquar, if_neg (by decide), if_neg hknown, ← hw, hneeds, if_neg hlinks]
  have hregs : RegsBut s w [regAddr .cxlDev k 0] := by
    rw [hw]
    exact ((State.regsBut_wr s F.cxlDev_present 1 k 0).trans (State.regsBut_wr _ F.cxlDev_width width k 0)).trans
      (State.regsBut_wr _ F.cxlDev_capacityGb (min cap 512) k 0)
  refine ⟨_, hexec, ?_, ?_, ?_, ?_, ?_, ?_, ?_⟩
  · rw [State.rd_wr_beside _ _ _ _ (by rfl) (by decide) (by decide), State.setFlag, State.rd_wr_beside _ _ _ _ (by rfl) (by decide) (by decide),
      hw, State.rd_wr_beside _ _ _ _ (by rfl) (by decide) (by decide), State.rd_wr_beside _ _ _ _ (by rfl) (by decide) (by decide),
      State.rd_wr_same _ _ _ _ _ (by decide)]
    rfl
  · rw [State.rd_wr_same _ _ _ _ _ (by decide)]
    rfl
  · rw [State.rd_wr_beside _ _ _ _ (by rfl) (by decide) (by decide), State.setFlag, State.rd_wr_beside _ _ _ _ (by rfl) (by decide) (by decide),
      hw, State.rd_wr_beside _ _ _ _ (by rfl) (by decide) (by decide), State.rd_wr_same _ _ _ _ _ (by decide)]
    obtain rfl | rfl := hwidth <;> rfl
  · rw [State.rd_wr_beside _ _ _ _ (by rfl) (by decide) (by decide), State.setFlag, State.rd_wr_beside _ _ _ _ (by rfl) (by decide) (by decide),
      hw, State.rd_wr_same _ _ _ _ _ (by decide)]
    exact Nat.mod_eq_of_lt (lt_of_le_of_lt (Nat.min_le_right cap 512) (by decide))
  · rw [State.flag, State.rd_wr_beside _ _ _ _ (by rfl) (by decide) (by decide), State.setFlag, State.rd_wr_same _ _ _ _ _ (by decide)]
    cases s.needsIde k <;> rfl
  · exact (hregs.trans (State.regsBut_wr w F.cxlDev_ide _ k 0)).trans (State.regsBut_wr _ F.cxlDev_linkUp 1 k 0)
  · rw [hw]
    rfl

theorem Tab.find_none_iff {α : Type} (t : Tab α) (k : Nat) : Tab.find t k = none ↔ ∀ e ∈ t, e.1 ≠ k := by
  induction t with
  | nil => exact ⟨fun _ _ he => absurd he List.not_mem_nil, fun _ => rfl⟩
  | cons e r ih =>
    rw [Tab.find, List.forall_mem_cons, ← ih]
    by_cases hk : e.1 = k
    · simp [hk]
    · simp [hk]

theorem Tab.find_del_same_of_set {α : Type} [DecidableEq α] (d : α) (t : Tab α) (k : Nat) : Tab.find (Tab.set d t k d) k = none := by
  rw [Tab.set, if_pos rfl, Tab.find_del_same]

/-- t is s after requests of CXL device k failed: a queue that was empty stays empty, and the link is as it was. -/
structure State.CxlFails (k : Nat) (s t : State) : Prop where
  frame : t = { s with csr := t.csr, clus := t.clus, tier := t.tier, fab := t.fab }
  empty : ∀ j, Tab.find s.tier.cq j = none → Tab.find t.tier.cq j = none
  link : t.rd F.cxlDev_linkUp k = s.rd F.cxlDev_linkUp k

namespace State.CxlFails

variable {s t u : State} {k m code : Nat}

theorem refl (k : Nat) (s : State) : State.CxlFails k s s := ⟨rfl, fun _ h => h, rfl⟩

theorem trans (h : State.CxlFails k s t) (q : State.CxlFails k t u) : State.CxlFails k s u :=
  ⟨q.frame.trans (by rw [h.frame]), fun j hj => q.empty j (h.empty j hj), q.link.trans h.link⟩

theorem foldl {α : Type} {f : State → α → State} (hf : ∀ (u : State) (a : α), State.CxlFails k u (f u a)) (l : List α) (s : State) :
    State.CxlFails k s (l.foldl f s) :=
  List.foldlRecOn l f (motive := State.CxlFails k s) (refl k s) fun t ht a _ => ht.trans (hf t a)

theorem dropGranules (k : Nat) (s : State) (who : GranWho) : State.CxlFails k s (s.dropGranules who) := by
  refine ⟨rfl, fun j hj => ?_, rfl⟩
  rw [Tab.find_none_iff] at hj ⊢
  intro e he
  obtain ⟨a, ha, rfl⟩ := List.mem_map.mp (List.mem_of_mem_filter he)
  exact hj a ha

/-- A request that fails before any of its bytes came. -/
theorem served (hk : k < 4) (s : State) (g : Gran) (hcode : code ≠ 0) : State.CxlFails k s (s.served g code 0) := by
  cases hwho : g.who with
  | ladle c m x id =>
    obtain ⟨o, hserved, -, -⟩ := State.served_fails_empty (s := s) hwho hcode
    rw [hserved]
    exact (dropGranules k s g.who).trans ⟨rfl, fun _ h => h, rfl⟩
  | thread c t =>
    obtain hserved | hserved := State.served_thread_fails (s := s) hwho hcode 0
    · rw [hserved]
      exact refl k s
    · rw [hserved]
      refine ⟨rfl, fun _ h => h, State.rd_wr_ne _ _ ?_⟩
      rw [show regAddr F.thrStatus_state.reg c t = 0x1005000 + 0x100000 * c + 0x10 * t from rfl,
        show regAddr F.cxlDev_linkUp.reg k 0 = 0x708000 + 0x8 * k from rfl]
      omega

theorem emptied (k : Nat) (s : State) (j : Nat) :
    State.CxlFails k s (s.setGranules true j []) ∧ Tab.find (s.setGranules true j []).tier.cq j = none := by
  have hnone : Tab.find (s.setGranules true j []).tier.cq j = none := Tab.find_del_same_of_set [] s.tier.cq j
  refine ⟨⟨rfl, fun i hi => ?_, rfl⟩, hnone⟩
  by_cases hij : i = j
  · exact hij ▸ hnone
  · exact (Tab.find_set_ne [] s.tier.cq [] hij).trans hi

/-- The requests of a mould on device k fail, and its queue is empty. -/
theorem queue (hk : k < 4) (s : State) (l : List Gran) (hcode : code ≠ 0) (j : Nat) :
    State.CxlFails k s (l.foldl (fun w g => w.served g code 0) (s.setGranules true j []))
      ∧ Tab.find (l.foldl (fun w g => w.served g code 0) (s.setGranules true j [])).tier.cq j = none := by
  obtain ⟨hemptied, hnone⟩ := emptied k s j
  have hserved := foldl (f := fun w g => w.served g code 0) (fun u g => served hk u g hcode) l (s.setGranules true j [])
  exact ⟨hemptied.trans hserved, hserved.empty j hnone⟩

/-- Every request of device k fails, and its queues are empty (R292). -/
theorem failCxl (hk : k < 4) (s : State) (hcode : code ≠ 0) :
    State.CxlFails k s (s.failCxl k code) ∧ ∀ m < 64, Tab.find (s.failCxl k code).tier.cq (tierKey k m) = none := by
  have hall : ∀ (l : List Nat) (u : State), State.CxlFails k u (l.foldl (fun u m =>
      (u.granules' true (tierKey k m)).foldl (fun w g => w.served g code 0) (u.setGranules true (tierKey k m) [])) u)
        ∧ ∀ m ∈ l, Tab.find (l.foldl (fun u m =>
          (u.granules' true (tierKey k m)).foldl (fun w g => w.served g code 0) (u.setGranules true (tierKey k m) [])) u).tier.cq
            (tierKey k m) = none := by
    intro l
    induction l with
    | nil => exact fun u => ⟨refl k u, fun _ hm => absurd hm List.not_mem_nil⟩
    | cons n l ih =>
      intro u
      obtain ⟨hfirst, hnone⟩ := queue hk u (u.granules' true (tierKey k n)) hcode (tierKey k n)
      obtain ⟨hrest, hempty⟩ := ih ((u.granules' true (tierKey k n)).foldl (fun w g => w.served g code 0)
        (u.setGranules true (tierKey k n) []))
      refine ⟨hfirst.trans hrest, fun m hm => ?_⟩
      obtain rfl | hm := List.mem_cons.mp hm
      · exact hrest.empty _ hnone
      · exact hempty m hm
  have hmoulds : ∀ m < 64, m ∈ List.range 64 := fun m hm => List.mem_range.mpr hm
  unfold State.failCxl
  generalize List.range 64 = l at *
  obtain ⟨hfails, hempty⟩ := hall l s
  exact ⟨hfails, fun m hm => hempty m (hmoulds m hm)⟩

end State.CxlFails

theorem exec_cxlLinkDown_fails (hlive : s.live = true) (hk : k < 4) (hup : s.flag F.cxlDev_linkUp k = true) :
    ∃ u : State, exec (.cxlLinkDown k) s = .next u.settle ∧ u.rd F.cxlDev_linkUp k = 0
      ∧ (List.range 64).all (fun m => (u.granules' true (tierKey k m)).isEmpty) = true
      ∧ u = { s with csr := u.csr, clus := u.clus, tier := u.tier, fab := u.fab } := by
  have hexec : exec (.cxlLinkDown k) s = .next ((s.wr F.cxlDev_linkUp 0 k).failCxl k E.memPortDown).settle := by
    rw [exec_cxlLinkDown, execCxlLinkDown, whenLive_live _ _ hlive, hup, decide_eq_false (Nat.not_le.mpr hk), if_neg (by decide)]
  obtain ⟨hfails, hempty⟩ := State.CxlFails.failCxl hk (s.wr F.cxlDev_linkUp 0 k) (code := E.memPortDown) (by decide)
  refine ⟨_, hexec, ?_, ?_, ?_⟩
  · rw [hfails.link, State.rd_wr_same _ _ _ _ _ (by decide)]
    rfl
  · rw [List.all_eq_true]
    intro m hm
    have hnone := hempty m (List.mem_range.mp hm)
    rw [State.granules', if_pos rfl, Tab.get, hnone]
    rfl
  · exact hfails.frame.trans rfl

/-- Settles O30: each unit served, request and link event is evaluated to its end; what serving a granule does is proved once for the
channels and the ports. -/
theorem farTiers : Obligations.FarTiers :=
  ⟨fun _ _ _ _ _ _ _ _ _ _ _ _ hlive hm _ hstate hturn hchan hqueue hretries hwho hslag =>
      exec_gddrGranuleServe_moves hlive hm hstate hturn hchan hqueue hretries hwho hslag,
    fun _ _ _ _ _ _ _ _ _ _ _ hlive hm _ hstate hturn hchan hqueue hretries hwho _ _ halign hwaits =>
      exec_gddrGranuleServe_fills hlive hm hstate hturn hchan hqueue hretries hwho halign hwaits,
    fun _ _ _ _ _ _ _ _ _ _ _ _ _ hlive hm hch hstate hturn hchan hqueue herr hwho hfirst hroom =>
      exec_gddrGranuleServe_fails hlive hm hch hstate hturn hchan hqueue herr hwho hfirst hroom,
    fun _ _ _ _ _ hlive hch hstate hen hn => exec_gddrMaintenanceUnit_scrubs hlive hch hstate hen hn,
    fun _ _ _ _ _ h hlen hc hch hstate hradio hidle hblock hfree =>
      exec_gddrRetrain_begins h hlen hc hch hstate hradio hidle hblock hfree,
    fun _ _ _ _ _ _ _ _ _ _ hlive hk hm hup hqueue hturn hwho hslag =>
      exec_cxlRequestComplete_moves hlive hk hm hup hqueue hturn hwho hslag,
    fun _ _ _ _ _ _ _ _ _ hlive hk hm hqueue hturn hwho hfirst hlate => exec_cxlTimeout_fails hlive hk hm hqueue hturn hwho hfirst hlate,
    fun _ _ _ _ _ hlive hk hblock hdown hquar hwidth hide => exec_cxlLinkTrain_shows hlive hk hblock hdown hquar hwidth hide,
    fun _ _ hlive hk hup => exec_cxlLinkDown_fails hlive hk hup⟩

end Sys2Proof.Machine
end

section
/-! How an operation ends at its requester: its slot, its frames, the fences over it, and the thread that waits for it
(R331, R334, R338, R473, R475). -/
namespace Sys2Proof.Machine

variable {s v : State} {p op id code ver c t : Nat} {f res : Bytes} {o : ROp} {w : ThreadSt}

/-- The operations are none of what a frame leaves its buffer with. -/
theorem State.ops_unbox (s : State) (p : Nat) (f : Bytes) (owe : Bool) : (s.unbox p f owe).fab.ops = s.fab.ops := by
  unfold State.unbox
  split
  · rfl
  · dsimp only
    split
    · unfold State.owe
      split <;> rfl
    · rfl

theorem State.takesFrame_rop (h : s.takesFrame v p op f) (i : Nat) : v.rop i = s.rop i := by
  obtain ⟨-, -, -, hv, -, -⟩ := h
  rw [hv, State.rop, State.ops_unbox, State.rop]

/-- An answer in form that passes the checks of R328 up to the epoch is handed on. -/
theorem State.answerFrame_takes (h : s.takesFrame v p op f) (hform : headerOk f 1 = true) {ok : Bytes → Bool} (hok : ok f = true)
    (k : Bytes → State → State) : s.answerFrame p op ok k = k f v := by
  obtain ⟨-, hport, hhead, hv, hpool, hepoch⟩ := h
  unfold State.answerFrame State.frameAt
  rw [if_neg (by omega), hhead]
  dsimp only
  rw [← hv, State.checked, hpool, if_pos hepoch, hform, hok, if_neg (by decide), if_pos (by decide)]

/-- A thread after another one, or itself, is replaced. -/
theorem State.thread_setThread (s : State) (a b c t : Nat) (w : ThreadSt) :
    (s.setThread a b w).thread c t = if c = a ∧ t = b then w else s.thread c t := by
  unfold State.thread State.setThread
  dsimp only
  rw [State.clu_setClu]
  by_cases hc : c = a
  · rw [if_pos hc, Tab.get_set, hc]
    by_cases ht : t = b
    · rw [if_pos ht, if_pos ⟨rfl, ht⟩]
    · rw [if_neg ht, if_neg fun h => ht h.2]
  · rw [if_neg hc, if_neg fun h => hc h.1]

/-- A failure that a fence notes: only clusters change, and of a thread only the fence's code, which was 0 (R338). -/
def State.FenceNoted (id code c t : Nat) (s u : State) : Prop :=
  u = { s with clus := u.clus } ∧ (u.thread c t = s.thread c t
    ∨ code ≠ 0 ∧ (s.thread c t).fence.contains (1, id) = true ∧ (s.thread c t).fenceErr = 0 ∧ u.thread c t = { s.thread c t with fenceErr := code })

theorem State.fenceNoted_set {u : State} (h : s.FenceNoted id code c t u) (hcode : code ≠ 0) {a b : Nat}
    (hfence : (u.thread a b).fence.contains (1, id) = true) (herr : (u.thread a b).fenceErr = 0) :
    s.FenceNoted id code c t (u.setThread a b { u.thread a b with fenceErr := code }) := by
  obtain ⟨hframe, hthread⟩ := h
  refine ⟨by rw [hframe]; rfl, ?_⟩
  rw [State.thread_setThread]
  by_cases hsame : c = a ∧ t = b
  · obtain ⟨rfl, rfl⟩ := hsame
    rw [if_pos ⟨rfl, rfl⟩]
    obtain hkept | ⟨-, -, -, hnoted⟩ := hthread
    · rw [hkept] at hfence herr ⊢
      exact .inr ⟨hcode, hfence, herr, rfl⟩
    · rw [hnoted] at herr
      exact absurd herr hcode
  · rw [if_neg hsame]
    exact hthread

/-- An operation's failure is noted by the fences that cover it, and by nothing else (R338). -/
theorem State.noteFences_spec (s : State) (o : ROp) (id code c t : Nat) : s.FenceNoted id code c t (s.noteFences o id code) := by
  unfold State.noteFences
  split
  · exact ⟨rfl, .inl rfl⟩
  · next hcode =>
    refine List.foldlRecOn s.clus _ (motive := s.FenceNoted id code c t) ⟨rfl, .inl rfl⟩ fun u hu p _ => ?_
    refine List.foldlRecOn (List.range 16) _ (motive := s.FenceNoted id code c t) hu fun q hq b _ => ?_
    dsimp only
    split
    · next hnotes =>
      simp only [Bool.and_eq_true, decide_eq_true_eq] at hnotes
      exact State.fenceNoted_set hq hcode hnotes.1.1 hnotes.1.2
    · exact hq

/-- Operation o, that id names, leaves its slot and its frames, and its failure is noted (R331, R338). -/
def State.ropFreed (s : State) (id : Nat) (o : ROp) (code : Nat) : State :=
  ((s.setTx (streamKey o.dev o.mould) { s.txS (streamKey o.dev o.mould) with
    out := (s.txS (streamKey o.dev o.mould)).out.filter (fun e => e.op ≠ id) }).freeSlot o.mould).noteFences o id code

theorem State.ropFreed_spec (s : State) (id : Nat) (o : ROp) (code c t : Nat) :
    (s.ropFreed id o code).rd F.fabSlots_used o.mould = s.rd F.fabSlots_used o.mould - 1
      ∧ RegsBut s (s.ropFreed id o code) [regAddr .fabSlots o.mould 0]
      ∧ ((s.ropFreed id o code).thread c t = s.thread c t ∨ code ≠ 0 ∧ (s.thread c t).fence.contains (1, id) = true ∧ (s.thread c t).fenceErr = 0
        ∧ (s.ropFreed id o code).thread c t = { s.thread c t with fenceErr := code })
      ∧ (s.ropFreed id o code).fab.ops = s.fab.ops
      ∧ s.ropFreed id o code = { s with
          csr := (s.ropFreed id o code).csr, clus := (s.ropFreed id o code).clus, fab := (s.ropFreed id o code).fab } := by
  unfold State.ropFreed
  obtain ⟨x, hx⟩ : ∃ x : State, x = s.setTx (streamKey o.dev o.mould) { s.txS (streamKey o.dev o.mould) with
    out := (s.txS (streamKey o.dev o.mould)).out.filter (fun e => e.op ≠ id) } := ⟨_, rfl⟩
  rw [← hx]
  obtain ⟨hframe, hthread⟩ := (x.freeSlot o.mould).noteFences_spec o id code c t
  have hcsr : x.csr = s.csr := by
    rw [hx]
    rfl
  have hfew : s.rd F.fabSlots_used o.mould - 1 < 2 ^ F.fabSlots_used.width :=
    lt_of_le_of_lt (Nat.sub_le _ _) (Nat.mod_lt _ (Nat.two_pow_pos _))
  have hthreads : (x.freeSlot o.mould).thread c t = s.thread c t := by
    rw [hx]
    rfl
  rw [hthreads] at hthread
  refine ⟨?_, ?_, hthread, ?_, ?_⟩
  · rw [hframe]
    refine (State.rd_wr_same x F.fabSlots_used _ o.mould 0 (by decide)).trans ?_
    rw [State.rd_of_csr hcsr, Nat.mod_eq_of_lt hfew]
  · rw [hframe]
    exact (State.regsBut_of_csr hcsr _).trans (State.regsBut_wr x F.fabSlots_used _ o.mould 0)
  · rw [hframe, hx]
    rfl
  · rw [hframe, hx]
    rfl

/-- A thread after its remote operation other than a store has answered with a code and a result (R334, R473). -/
def ThreadSt.answered (w : ThreadSt) (o : ROp) (code : Nat) (res : Bytes) (ver : Nat) : ThreadSt :=
  if o.kind = 5 ∧ o.sub = 0 then
    { w with wait := .none }.setReg o.rd (if o.tok = 1 then ofInt 64 (sext (8 * o.len) (leNat res)) else leNat res)
  else if code ≠ 0 then { w with wait := .none }.code code
  else if o.kind = 5 then
    { ({ w with wait := .none }.load64 o.rd res).code 0 with st := setBits (({ w with wait := .none }.load64 o.rd res).code 0).st 16 32 ver }
  else ({ w with wait := .none }.setReg o.rd (leNat res)).code 0

/-- A thread that waits for an operation other than a store is ready with the operation's answer; a failed load is an exception
instead (R475). -/
theorem State.threadResult_answers (hkind : o.kind ≠ 6) (hwait : (s.thread o.cluster o.thread).wait = .remote id)
    (hload : ¬ (o.kind = 5 ∧ o.sub = 0 ∧ code ≠ 0)) :
    s.threadResult id o code res ver
      = ((s.wr F.thrStatus_remoteOut (s.rd F.thrStatus_remoteOut o.cluster o.thread - 1) o.cluster o.thread).setThread o.cluster o.thread
          ((s.thread o.cluster o.thread).answered o code res ver)).wr F.thrStatus_state 1 o.cluster o.thread := by
  obtain ⟨x, hx⟩ : ∃ x, x = s.wr F.thrStatus_remoteOut (s.rd F.thrStatus_remoteOut o.cluster o.thread - 1) o.cluster o.thread := ⟨_, rfl⟩
  have hthread : x.thread o.cluster o.thread = s.thread o.cluster o.thread := by
    rw [hx]
    rfl
  have hnofault : ¬ (decide (o.kind = 5) && decide (o.sub = 0) && decide (code ≠ 0)) = true := by
    simpa [and_assoc] using hload
  unfold State.threadResult
  dsimp only
  rw [← hx, hthread, if_neg hkind, if_neg (not_not_intro hwait), if_neg hnofault]
  unfold ThreadSt.answered
  by_cases hsmall : o.kind = 5 ∧ o.sub = 0
  · simp only [hsmall, decide_true, Bool.and_true, if_true, and_self]
  · have hlarge : ¬ (decide (o.kind = 5) && decide (o.sub = 0)) = true := by simpa using hsmall
    rw [if_neg hlarge, if_neg hsmall]

theorem regAddr_thrStatus_ne_fabSlots (c t m : Nat) : regAddr .thrStatus c t ≠ regAddr .fabSlots m 0 := by
  rw [regAddr_thrStatus, regAddr_fabSlots]
  omega

/-- The operation of a thread, when it ends and is not slag (R331). -/
theorem State.endRop_thread (ho : o = s.rop id) (hkind : 3 ≤ o.kind) (hgot : o.got = false) (hthread : o.thread < 16) :
    s.endRop id code res ver false
      = ((s.ropFreed id o (if o.fail = 0 then code else o.fail)).setRop id ROp.init).threadResult id o (if o.fail = 0 then code else o.fail)
          res ver := by
  unfold State.endRop
  dsimp only
  rw [← ho, hgot, decide_eq_false (by omega), if_neg (by decide), if_neg (show ¬ o.thread = 16 by omega), if_neg Bool.false_ne_true,
    if_neg Bool.false_ne_true]
  rfl

/-- A thread's operation other than a store ends: the thread is ready with its answer (R331, R334). -/
theorem State.endRop_answers (ho : o = s.rop id) (hkind : 5 ≤ o.kind) (hstore : o.kind ≠ 6) (hgot : o.got = false) (hfail : o.fail = 0)
    (hthread : o.thread < 16) (hwait : (s.thread o.cluster o.thread).wait = .remote id)
    (hload : ¬ (o.kind = 5 ∧ o.sub = 0 ∧ code ≠ 0)) (hfence : code = 0 ∨ (s.thread o.cluster o.thread).fence = []) :
    s.remoteEnded (s.endRop id code res ver false) id o ((s.thread o.cluster o.thread).answered o code res ver) := by
  rw [State.endRop_thread ho (by omega) hgot hthread, if_pos hfail]
  obtain ⟨hslots, hregs, hnoted, -, hframe⟩ := s.ropFreed_spec id o code o.cluster o.thread
  obtain ⟨y, hy⟩ : ∃ y, y = (s.ropFreed id o code).setRop id ROp.init := ⟨_, rfl⟩
  have hsame : (s.ropFreed id o code).thread o.cluster o.thread = s.thread o.cluster o.thread := by
    refine hnoted.resolve_right ?_
    rintro ⟨hcode, hcovered, -⟩
    rw [hfence.resolve_left hcode] at hcovered
    cases hcovered
  generalize s.ropFreed id o code = x at *
  have hkept : y.thread o.cluster o.thread = s.thread o.cluster o.thread := by
    rw [hy, ← hsame]
    rfl
  have hcsr : y.csr = x.csr := by
    rw [hy]
    rfl
  have hregs' : RegsBut s y [regAddr .fabSlots o.mould 0] := hregs.trans (State.regsBut_of_csr hcsr _)
  have hout : y.rd F.thrStatus_remoteOut o.cluster o.thread = s.rd F.thrStatus_remoteOut o.cluster o.thread :=
    hregs'.rd (f := F.thrStatus_remoteOut) fun hmem => regAddr_thrStatus_ne_fabSlots _ _ _ (List.mem_singleton.mp hmem)
  have hfew : s.rd F.thrStatus_remoteOut o.cluster o.thread - 1 < 2 ^ F.thrStatus_remoteOut.width :=
    lt_of_le_of_lt (Nat.sub_le _ _) (Nat.mod_lt _ (Nat.two_pow_pos _))
  rw [← hy, State.threadResult_answers hstore (by rw [hkept]; exact hwait) hload, hkept, hout]
  obtain ⟨z, hz⟩ : ∃ z, z = y.wr F.thrStatus_remoteOut (s.rd F.thrStatus_remoteOut o.cluster o.thread - 1) o.cluster o.thread := ⟨_, rfl⟩
  obtain ⟨q, hq⟩ : ∃ q, q = z.setThread o.cluster o.thread ((s.thread o.cluster o.thread).answered o code res ver) := ⟨_, rfl⟩
  have hqcsr : q.csr = z.csr := by
    rw [hq]
    rfl
  rw [← hz, ← hq]
  obtain ⟨hready, hstate⟩ := q.wr_thrState_spec o.cluster o.thread 1
  have hzregs : RegsBut y z [regAddr .thrStatus o.cluster o.thread] := by
    rw [hz]
    exact State.regsBut_wr y F.thrStatus_remoteOut _ o.cluster o.thread
  have hthr : RegsBut y (q.wr F.thrStatus_state 1 o.cluster o.thread) [regAddr .thrStatus o.cluster o.thread] :=
    (hzregs.trans (State.regsBut_of_csr hqcsr _)).trans hstate
  refine ⟨?_, ?_, ?_, hready, ?_, ?_, ?_⟩
  · rw [hq, hz, hy]
    exact State.rop_setRop_same ..
  · rw [hthr.rd (f := F.fabSlots_used) fun hmem => regAddr_thrStatus_ne_fabSlots _ _ _ (List.mem_singleton.mp hmem).symm,
      State.rd_of_csr hcsr, hslots]
  · rw [State.rd_wr_beside _ _ _ _ (by rfl) (by decide) (by decide), State.rd_of_csr hqcsr, hz, State.rd_wr_same _ _ _ _ _ (by decide),
      Nat.mod_eq_of_lt hfew]
  · rw [hq]
    exact State.thread_setThread_same ..
  · exact (hregs'.mono (List.cons_subset_cons _ (List.nil_subset _))).trans (hthr.mono (List.subset_cons_self _ _))
  · rw [hq, hz, hy, hframe]
    rfl

end Sys2Proof.Machine
end

section
/-! Responses and refusals that end an operation at once (R328, R331, R334, R335, R337, R342). -/
namespace Sys2Proof.Machine

variable {s v : State} {p op kind id : Nat} {f : Bytes} {o : ROp}

/-- A response without an error ends the operation it answers with its result. -/
theorem State.response_ends (h : s.takesAnswer v p op kind id f o) (hstatus : fStatus f = 0) {size : Bytes → Bool} (hsize : size f = true)
    (res : ROp → Bytes → Bytes × Nat) : s.response p op kind size res = v.endRop id 0 (res o f).1 (res o f).2 false := by
  obtain ⟨hframe, hform, hout, ho, -, -, -, -, -, -, hslag, -⟩ := h
  unfold State.response
  rw [State.answerFrame_takes hframe hform (by rw [if_pos hstatus]; exact hsize), hout]
  dsimp only
  rw [State.takesFrame_rop hframe, ← ho, hslag, if_neg Bool.false_ne_true, if_neg (not_not_intro hstatus)]

/-- The thread whose operation a response ends has its answer. -/
theorem State.response_answers (h : s.takesAnswer v p op kind id f o) (hkind : kind = 5 ∨ kind = 7 ∨ kind = 8 ∨ kind = 9) (res : Bytes)
    (ver : Nat) : v.remoteEnded (v.endRop id 0 res ver false) id o ((v.thread o.cluster o.thread).answered o 0 res ver) := by
  obtain ⟨hframe, -, -, ho, hk, hgot, hfail, -, -, hthread, -, hwait⟩ := h
  exact State.endRop_answers (by rw [State.takesFrame_rop hframe, ← ho]) (by omega) (by omega) hgot hfail hthread hwait
    (fun hload => hload.2.2 rfl) (.inl rfl)

/-- An operation other than a load that answers without an error leaves its 8 or 4 bytes in its register. -/
theorem ThreadSt.answered_value (w : ThreadSt) (hkind : o.kind ≠ 5) (res : Bytes) (ver : Nat) :
    w.answered o 0 res ver = ({ w with wait := .none }.setReg o.rd (leNat res)).code 0 := by
  unfold ThreadSt.answered
  rw [if_neg fun h => hkind h.1, if_neg (not_not_intro rfl), if_neg hkind]

/-- An operation other than a load that is refused leaves its code. -/
theorem ThreadSt.answered_code (w : ThreadSt) (hkind : o.kind ≠ 5) {code : Nat} (hcode : code ≠ 0) (res : Bytes) (ver : Nat) :
    w.answered o code res ver = { w with wait := .none }.code code := by
  unfold ThreadSt.answered
  rw [if_neg fun h => hkind h.1, if_pos hcode]

theorem exec_loadResp_small (h : s.takesAnswer v p 0x12 5 id f o) (hstatus : fStatus f = 0) (hsize : (fPay f).length ∈ [1, 2, 4, 8, 72])
    (hsub : o.sub = 0) :
    ∃ u : State, exec (.loadResp p) s = .next u.settle
      ∧ v.remoteEnded u id o (({ v.thread o.cluster o.thread with wait := .none } : ThreadSt).setReg o.rd
        (if o.tok = 1 then ofInt 64 (sext (8 * o.len) (leNat ((fPay f).take o.len))) else leNat ((fPay f).take o.len))) := by
  have hlen : ((fPay f).length == 1 || (fPay f).length == 2 || (fPay f).length == 4 || (fPay f).length == 8 || (fPay f).length == 72)
      = true := by
    simpa [or_assoc] using hsize
  have hexec := (exec_loadResp p s).trans (whenLive_live s _ h.1.1)
  rw [State.response_ends h hstatus hlen] at hexec
  have hended := State.response_answers h (.inl rfl) ((fPay f).take o.len) (if o.len = 64 then beAt (fPay f) 64 8 else 0)
  have hanswer : (v.thread o.cluster o.thread).answered o 0 ((fPay f).take o.len) (if o.len = 64 then beAt (fPay f) 64 8 else 0)
      = ({ v.thread o.cluster o.thread with wait := .none } : ThreadSt).setReg o.rd
        (if o.tok = 1 then ofInt 64 (sext (8 * o.len) (leNat ((fPay f).take o.len))) else leNat ((fPay f).take o.len)) := by
    obtain ⟨-, -, -, -, hk, -⟩ := h
    rw [ThreadSt.answered, if_pos ⟨hk, hsub⟩]
  rw [hanswer] at hended
  exact ⟨_, hexec, hended⟩

theorem exec_loadResp_line {w : ThreadSt} (h : s.takesAnswer v p 0x12 5 id f o) (hstatus : fStatus f = 0) (hsize : (fPay f).length = 72)
    (hsub : o.sub ≠ 0) (hlen : o.len = 64)
    (hw : w = ((({ v.thread o.cluster o.thread with wait := .none } : ThreadSt).load64 o.rd ((fPay f).take 64)).code 0)) :
    ∃ u : State, exec (.loadResp p) s = .next u.settle ∧ v.remoteEnded u id o { w with st := setBits w.st 16 32 (beAt (fPay f) 64 8) } := by
  have hexec := (exec_loadResp p s).trans (whenLive_live s _ h.1.1)
  rw [State.response_ends h hstatus (by simp [hsize])] at hexec
  dsimp only at hexec
  rw [hlen, if_pos rfl] at hexec
  have hended := State.response_answers h (.inl rfl) ((fPay f).take 64) (beAt (fPay f) 64 8)
  have hanswer : (v.thread o.cluster o.thread).answered o 0 ((fPay f).take 64) (beAt (fPay f) 64 8)
      = { w with st := setBits w.st 16 32 (beAt (fPay f) 64 8) } := by
    obtain ⟨-, -, -, -, hk, -⟩ := h
    rw [ThreadSt.answered, if_neg fun h => hsub h.2, if_neg (not_not_intro rfl), if_pos hk, hw]
  rw [hanswer] at hended
  exact ⟨_, hexec, hended⟩

theorem exec_atomicResp_answers (h : s.takesAnswer v p 0x13 7 id f o) (hstatus : fStatus f = 0) (hsize : (fPay f).length = 8) :
    ∃ u : State, exec (.atomicResp p) s = .next u.settle
      ∧ v.remoteEnded u id o ((({ v.thread o.cluster o.thread with wait := .none } : ThreadSt).setReg o.rd (leNat (fPay f).reverse)).code 0) := by
  have hexec := (exec_atomicResp p s).trans (whenLive_live s _ h.1.1)
  rw [State.response_ends h hstatus (by simp [hsize])] at hexec
  have hended := State.response_answers h (.inr (.inl rfl)) (fPay f).reverse 0
  obtain ⟨-, -, -, -, hk, -⟩ := h
  rw [ThreadSt.answered_value _ (by omega)] at hended
  exact ⟨_, hexec, hended⟩

theorem exec_vreadResp_answers (h : s.takesAnswer v p 0x14 8 id f o) (hstatus : fStatus f = 0) (hsize : (fPay f).length = 8)
    (hzero : beAt f 0x24 4 = 0) :
    ∃ u : State, exec (.vreadResp p) s = .next u.settle
      ∧ v.remoteEnded u id o
        ((({ v.thread o.cluster o.thread with wait := .none } : ThreadSt).setReg o.rd (leNat ((fPay f).take 4).reverse)).code 0) := by
  have hexec := (exec_vreadResp p s).trans (whenLive_live s _ h.1.1)
  rw [State.response_ends h hstatus (by simp [hsize, hzero])] at hexec
  have hended := State.response_answers h (.inr (.inr (.inl rfl))) ((fPay f).take 4).reverse 0
  obtain ⟨-, -, -, -, hk, -⟩ := h
  rw [ThreadSt.answered_value _ (by omega)] at hended
  exact ⟨_, hexec, hended⟩

theorem exec_ownResp_answers (h : s.takesAnswer v p 0x15 9 id f o) (hstatus : fStatus f = 0) (hsize : (fPay f).length = 8) :
    ∃ u : State, exec (.ownResp p) s = .next u.settle
      ∧ v.remoteEnded u id o ((({ v.thread o.cluster o.thread with wait := .none } : ThreadSt).setReg o.rd (leNat (fPay f).reverse)).code 0) := by
  have hexec := (exec_ownResp p s).trans (whenLive_live s _ h.1.1)
  rw [State.response_ends h hstatus (by simp [hsize])] at hexec
  have hended := State.response_answers h (.inr (.inr (.inr rfl))) (fPay f).reverse 0
  obtain ⟨-, -, -, -, hk, -⟩ := h
  rw [ThreadSt.answered_value _ (by omega)] at hended
  exact ⟨_, hexec, hended⟩

/-- What a refusal, or any frame that covers a sequence, does before its operation: the sequence's frame is sent no more. -/
theorem State.dropTx_frame (s : State) (k : Nat) (q : Nat → Bool) :
    s.dropTx k q = { s with fab := { s.fab with tx := (s.dropTx k q).fab.tx } } := rfl

/-- A refusal in form that answers an operation. -/
theorem exec_nak_takes (h : s.takesFrame v p 0x19 f) (hform : headerOk f 1 = true) (hempty : fPay f = [])
    (hout : v.outstanding (fSrc f) (fMould f) (fSeq f) (fun k => decide (3 ≤ k) && decide (k ≤ 9)) = some id) (ho : o = s.rop id) :
    ∃ w : State, w = v.dropTx (streamKey o.dev o.mould) (fun q => decide (q = fSeq f)) ∧ w.rop id = o
      ∧ exec (.nak p) s = .next (if o.kind = 3 || o.kind = 6 then w.settleSeqs id (fun q => decide (q = fSeq f)) (fStatus f)
        else if w.isSlag o.mould o.ctx (fHeat f) o.quenches then w.endRop id 0 [] 0 true
        else if (o.kind = 7 || o.kind = 9) && fStatus f = E.fabBusy then w.setRop id { o with busy := o.busy + 1 }
        else w.endRop id (fStatus f) [] 0 false).settle := by
  have hop : v.rop id = o := by rw [State.takesFrame_rop h, ho]
  refine ⟨_, rfl, hop, ?_⟩
  have hlive : s.live = true := h.1
  rw [exec_nak, execNak, whenLive_live _ _ hlive, State.answerFrame_takes h hform (by rw [hempty]; rfl)]
  dsimp only
  rw [hout]
  dsimp only
  rw [hop]

theorem exec_nak_refuses (h : s.takesAnswer v p 0x19 kind id f o) (hkind : kind = 7 ∨ kind = 8 ∨ kind = 9) (hempty : fPay f = [])
    (hout : v.outstanding (fSrc f) (fMould f) (fSeq f) (fun k => decide (3 ≤ k) && decide (k ≤ 9)) = some id)
    (hfence : (v.thread o.cluster o.thread).fence = []) (hbusy : fStatus f ≠ E.fabBusy) (hcode : fStatus f ≠ 0) :
    ∃ u : State, exec (.nak p) s = .next u.settle
      ∧ v.remoteEnded u id o (({ v.thread o.cluster o.thread with wait := .none } : ThreadSt).code (fStatus f)) := by
  obtain ⟨hframe, hform, -, ho, hk, hgot, hfail, -, -, hthread, hslag, hwait⟩ := h
  obtain ⟨w, hw, hop, hexec⟩ := exec_nak_takes hframe hform hempty hout ho
  have hslag' : w.isSlag o.mould o.ctx (fHeat f) o.quenches = false := by
    rw [hw]
    exact hslag
  have hthreads : w.thread o.cluster o.thread = v.thread o.cluster o.thread := by
    rw [hw]
    rfl
  have hstore : ¬ (decide (o.kind = 3) || decide (o.kind = 6)) = true := by
    rw [decide_eq_false (by omega), decide_eq_false (by omega)]
    decide
  have hretry : ¬ ((decide (o.kind = 7) || decide (o.kind = 9)) && decide (fStatus f = E.fabBusy)) = true := by
    rw [decide_eq_false hbusy, Bool.and_false]
    decide
  rw [if_neg hstore, hslag', if_neg Bool.false_ne_true, if_neg hretry] at hexec
  have hended := State.endRop_answers (s := w) (code := fStatus f) (res := []) (ver := 0) hop.symm (by omega) (by omega) hgot hfail hthread
    (by rw [hthreads]; exact hwait) (fun hload => by omega) (.inr (by rw [hthreads]; exact hfence))
  rw [hthreads, ThreadSt.answered_code _ (by omega) hcode] at hended
  refine ⟨_, hexec, ?_⟩
  obtain ⟨hfree, hslots, hout', hready, hth, hregs, hfr⟩ := hended
  refine ⟨hfree, ?_, ?_, hready, hth, ?_, ?_⟩
  · rw [hslots, hw]
    rfl
  · rw [hout', hw]
    rfl
  · have hsame : RegsBut v w [regAddr .fabSlots o.mould 0, regAddr .thrStatus o.cluster o.thread] := State.regsBut_of_csr (by rw [hw]; rfl) _
    exact hsame.trans hregs
  · rw [hfr, hw]
    rfl

theorem exec_nak_busy (h : s.takesAnswer v p 0x19 kind id f o) (hkind : kind = 7 ∨ kind = 9) (hempty : fPay f = [])
    (hout : v.outstanding (fSrc f) (fMould f) (fSeq f) (fun k => decide (3 ≤ k) && decide (k ≤ 9)) = some id)
    (hbusy : fStatus f = E.fabBusy) :
    ∃ u : State, exec (.nak p) s = .next u.settle ∧ u.rop id = { o with busy := o.busy + 1 } ∧ u = { v with fab := u.fab } := by
  obtain ⟨hframe, hform, -, ho, hk, hgot, hfail, -, -, hthread, hslag, hwait⟩ := h
  obtain ⟨w, hw, hop, hexec⟩ := exec_nak_takes hframe hform hempty hout ho
  have hslag' : w.isSlag o.mould o.ctx (fHeat f) o.quenches = false := by
    rw [hw]
    exact hslag
  have hstore : ¬ (decide (o.kind = 3) || decide (o.kind = 6)) = true := by
    rw [decide_eq_false (by omega), decide_eq_false (by omega)]
    decide
  have hretry : ((decide (o.kind = 7) || decide (o.kind = 9)) && decide (fStatus f = E.fabBusy)) = true := by
    rw [decide_eq_true hbusy, Bool.and_true, Bool.or_eq_true, decide_eq_true_eq, decide_eq_true_eq]
    omega
  rw [if_neg hstore, hslag', if_neg Bool.false_ne_true, if_pos hretry] at hexec
  refine ⟨_, hexec, State.rop_setRop_same .., ?_⟩
  rw [hw]
  rfl

end Sys2Proof.Machine
end

section
/-! Stores and acknowledgements: sequences that are settled, and frames that answer nothing (R322 to R324, R328, R331, R338). -/
namespace Sys2Proof.Machine

variable {s v : State} {p id code c t k : Nat} {f : Bytes} {o : ROp}

/-- A put or store all of whose bytes are sent forms no more frames. -/
theorem State.feedPut_done (h : (s.rop id).len ≤ (s.rop id).sent) (n : Nat) : s.feedPut n id = s := by
  cases n with
  | zero => rfl
  | succ n =>
    unfold State.feedPut
    dsimp only
    rw [decide_eq_true h, Bool.true_or, Bool.true_or, if_pos rfl]

/-- Sequences settle nothing of an operation that is neither a put nor a store. -/
theorem State.settleSeqs_other (hput : (s.rop id).kind ≠ 3) (hstore : (s.rop id).kind ≠ 6) (q : Nat → Bool) (code : Nat) :
    s.settleSeqs id q code = s := by
  unfold State.settleSeqs
  dsimp only
  rw [decide_eq_true hput, decide_eq_true hstore, if_pos (by decide)]

/-- A store whose sequences a frame covers. -/
def ROp.covered (o : ROp) (code : Nat) : ROp := { o with left := [], fail := if o.fail = 0 then code else o.fail }

/-- A store whose last sequence is settled ends (R331). -/
theorem State.settleSeqs_store {q : Nat → Bool} {seq : Nat} (ho : s.rop id = o) (hkind : o.kind = 6) (hleft : o.left = [seq]) (hq : q seq = true)
    (hsent : o.len ≤ o.sent) (hslag : s.isSlag o.mould o.ctx o.heat o.quenches = false) :
    s.settleSeqs id q code = (s.setRop id (o.covered code)).endRop id 0 [] 0 false := by
  have hnone : o.left.filter (fun e => !q e) = [] := by simp [hleft, hq]
  have hrop : (s.setRop id (o.covered code)).rop id = o.covered code := State.rop_setRop_same ..
  have hfed := State.feedPut_done (s := s.setRop id (o.covered code)) (id := id) (by rw [hrop]; exact hsent)
  unfold State.settleSeqs
  dsimp only
  unfold ROp.covered at hrop hfed ⊢
  rw [ho, if_neg (by simp [hkind]), hnone, hfed, hrop, if_pos (by simp [hkind])]
  exact congrArg (State.endRop _ id 0 [] 0) hslag

/-- A store that ends counts out of its thread; a failed one leaves its code to the fence and is logged (R338). -/
theorem State.threadResult_store (hkind : o.kind = 6) (res : Bytes) (ver : Nat)
    (hlive : code ≠ 0 → s.rd F.thrStatus_state o.cluster o.thread ≠ 0) :
    s.threadResult id o code res ver
      = if code = 0 then s.wr F.thrStatus_remoteOut (s.rd F.thrStatus_remoteOut o.cluster o.thread - 1) o.cluster o.thread
        else ((s.wr F.thrStatus_remoteOut (s.rd F.thrStatus_remoteOut o.cluster o.thread - 1) o.cluster o.thread).setThread o.cluster o.thread
          { s.thread o.cluster o.thread with
            fenceErr := if (s.thread o.cluster o.thread).fenceErr = 0 then code else (s.thread o.cluster o.thread).fenceErr }).logFree 0x1104
              (srcEngine o.cluster 6) o.mould := by
  obtain ⟨x, hx⟩ : ∃ x, x = s.wr F.thrStatus_remoteOut (s.rd F.thrStatus_remoteOut o.cluster o.thread - 1) o.cluster o.thread := ⟨_, rfl⟩
  have hthread : x.thread o.cluster o.thread = s.thread o.cluster o.thread := by
    rw [hx]
    rfl
  have hstate : x.rd F.thrStatus_state o.cluster o.thread = s.rd F.thrStatus_state o.cluster o.thread := by
    rw [hx, State.rd_wr_beside _ _ _ _ (by rfl) (by decide) (by decide)]
  unfold State.threadResult
  dsimp only
  rw [← hx, hthread, hstate, if_pos hkind]
  by_cases hcode : code = 0
  · rw [if_pos hcode, if_pos (by rw [decide_eq_true hcode, Bool.true_or])]
  · rw [if_neg hcode, if_neg (by rw [decide_eq_false hcode, decide_eq_false (hlive hcode)]; decide)]

/-- The state in which a store's record and slot are free and its failure is noted. -/
def State.storeFreed (s : State) (id : Nat) (o : ROp) (code : Nat) : State := (s.ropFreed id o code).setRop id ROp.init

theorem State.storeFreed_spec (s : State) (id : Nat) (o : ROp) (code : Nat) :
    (s.storeFreed id o code).rop id = ROp.init ∧ (s.storeFreed id o code).rd F.fabSlots_used o.mould = s.rd F.fabSlots_used o.mould - 1
      ∧ (s.storeFreed id o code).fab.ops = Tab.set ROp.init s.fab.ops id ROp.init
      ∧ RegsBut s (s.storeFreed id o code) [regAddr .fabSlots o.mould 0]
      ∧ ((s.storeFreed id o code).thread o.cluster o.thread = s.thread o.cluster o.thread
        ∨ code ≠ 0 ∧ (s.thread o.cluster o.thread).fence.contains (1, id) = true ∧ (s.thread o.cluster o.thread).fenceErr = 0
        ∧ (s.storeFreed id o code).thread o.cluster o.thread = { s.thread o.cluster o.thread with fenceErr := code })
      ∧ s.storeFreed id o code = { s with
          csr := (s.storeFreed id o code).csr, clus := (s.storeFreed id o code).clus, fab := (s.storeFreed id o code).fab } := by
  obtain ⟨hslots, hregs, hthread, hops, hframe⟩ := s.ropFreed_spec id o code o.cluster o.thread
  unfold State.storeFreed
  generalize s.ropFreed id o code = x at *
  refine ⟨State.rop_setRop_same .., hslots, ?_, hregs, hthread, ?_⟩
  · rw [← hops]
    rfl
  · rw [hframe]
    rfl

theorem regAddr_thrStatus_notMem_fabSlots (c t m : Nat) : regAddr .thrStatus c t ∉ [regAddr .fabSlots m 0] :=
  fun hmem => regAddr_thrStatus_ne_fabSlots c t m (List.mem_singleton.mp hmem)

theorem regAddr_fabSlots_notMem_thrStatus (m c t : Nat) : regAddr .fabSlots m 0 ∉ [regAddr .thrStatus c t] :=
  fun hmem => regAddr_thrStatus_ne_fabSlots c t m (List.mem_singleton.mp hmem).symm

theorem State.sub_one_remoteOut (s : State) (c t : Nat) :
    (s.wr F.thrStatus_remoteOut (s.rd F.thrStatus_remoteOut c t - 1) c t).rd F.thrStatus_remoteOut c t = s.rd F.thrStatus_remoteOut c t - 1 := by
  have hfew : s.rd F.thrStatus_remoteOut c t - 1 < 2 ^ F.thrStatus_remoteOut.width :=
    lt_of_le_of_lt (Nat.sub_le _ _) (Nat.mod_lt _ (Nat.two_pow_pos _))
  rw [State.rd_wr_same _ _ _ _ _ (by decide), Nat.mod_eq_of_lt hfew]

/-- A store without a failure ends: its slot and its record are free, and its thread counts it out (R331). -/
theorem State.endRop_stored (ho : o = s.rop id) (hkind : o.kind = 6) (hgot : o.got = false) (hthread : o.thread < 16) (hfail : o.fail = 0) :
    (s.endRop id 0 [] 0 false).rop id = ROp.init
      ∧ (s.endRop id 0 [] 0 false).rd F.fabSlots_used o.mould = s.rd F.fabSlots_used o.mould - 1
      ∧ (s.endRop id 0 [] 0 false).rd F.thrStatus_remoteOut o.cluster o.thread = s.rd F.thrStatus_remoteOut o.cluster o.thread - 1
      ∧ (s.endRop id 0 [] 0 false).fab.ops = Tab.set ROp.init s.fab.ops id ROp.init
      ∧ (∀ k, ((s.endRop id 0 [] 0 false).txS k).acked = (s.txS k).acked)
      ∧ RegsBut s (s.endRop id 0 [] 0 false) [regAddr .fabSlots o.mould 0, regAddr .thrStatus o.cluster o.thread]
      ∧ s.endRop id 0 [] 0 false = { s with csr := (s.endRop id 0 [] 0 false).csr, fab := (s.endRop id 0 [] 0 false).fab } := by
  obtain ⟨hfree, hslots, hops, hregs, -, -⟩ := s.storeFreed_spec id o 0
  have hended := State.endRop_thread (code := 0) (res := []) (ver := 0) ho (by omega) hgot hthread
  rw [hfail, if_pos rfl, State.threadResult_store hkind _ _ fun h => absurd rfl h, if_pos rfl,
    show (s.ropFreed id o 0).setRop id ROp.init = s.storeFreed id o 0 from rfl] at hended
  have hacked : ∀ k, ((s.storeFreed id o 0).txS k).acked = (s.txS k).acked := fun k => by
    have htx : (s.storeFreed id o 0).txS k = if k = streamKey o.dev o.mould then { s.txS (streamKey o.dev o.mould) with
        out := (s.txS (streamKey o.dev o.mould)).out.filter (fun e => e.op ≠ id) } else s.txS k := Tab.get_set ..
    rw [htx]
    split
    · next hk => rw [hk]
    · rfl
  have hframe : s.storeFreed id o 0 = { s with csr := (s.storeFreed id o 0).csr, fab := (s.storeFreed id o 0).fab } := rfl
  rw [hended]
  generalize s.storeFreed id o 0 = y at *
  have hout : y.rd F.thrStatus_remoteOut o.cluster o.thread = s.rd F.thrStatus_remoteOut o.cluster o.thread :=
    hregs.rd (f := F.thrStatus_remoteOut) (regAddr_thrStatus_notMem_fabSlots o.cluster o.thread o.mould)
  have hcounted := State.regsBut_wr y F.thrStatus_remoteOut (y.rd F.thrStatus_remoteOut o.cluster o.thread - 1) o.cluster o.thread
  refine ⟨hfree, ?_, ?_, hops, hacked, ?_, ?_⟩
  · rw [hcounted.rd (f := F.fabSlots_used) (regAddr_fabSlots_notMem_thrStatus o.mould o.cluster o.thread), hslots]
  · rw [State.sub_one_remoteOut, hout]
  · exact (hregs.mono (List.cons_subset_cons _ (List.nil_subset _))).trans (hcounted.mono (List.subset_cons_self _ _))
  · rw [hframe]
    rfl

/-- A store with a failure ends: its slot and its record are free, its thread counts it out, and the fence keeps the first failure
(R331, R338). -/
theorem State.endRop_store_failed (ho : o = s.rop id) (hkind : o.kind = 6) (hgot : o.got = false) (hthread : o.thread < 16) (hfail : o.fail ≠ 0)
    (hlive : s.thrState o.cluster o.thread ≠ 0) :
    ∃ u : State, s.endRop id 0 [] 0 false = u ∧ u.rop id = ROp.init ∧ u.rd F.fabSlots_used o.mould = s.rd F.fabSlots_used o.mould - 1
      ∧ u.rd F.thrStatus_remoteOut o.cluster o.thread = s.rd F.thrStatus_remoteOut o.cluster o.thread - 1
      ∧ (u.thread o.cluster o.thread).fenceErr
        = (if (s.thread o.cluster o.thread).fenceErr = 0 then o.fail else (s.thread o.cluster o.thread).fenceErr)
      ∧ u = { s with csr := u.csr, clus := u.clus, fab := u.fab, log := u.log, free := u.free } := by
  obtain ⟨hfree, hslots, -, hregs, hnoted, hframe⟩ := s.storeFreed_spec id o o.fail
  have hended := State.endRop_thread (code := 0) (res := []) (ver := 0) ho (by omega) hgot hthread
  rw [if_neg hfail, show (s.ropFreed id o o.fail).setRop id ROp.init = s.storeFreed id o o.fail from rfl] at hended
  generalize s.storeFreed id o o.fail = y at *
  have hout : y.rd F.thrStatus_remoteOut o.cluster o.thread = s.rd F.thrStatus_remoteOut o.cluster o.thread :=
    hregs.rd (f := F.thrStatus_remoteOut) (regAddr_thrStatus_notMem_fabSlots o.cluster o.thread o.mould)
  have hstate : y.rd F.thrStatus_state o.cluster o.thread = s.thrState o.cluster o.thread :=
    hregs.rd (f := F.thrStatus_state) (regAddr_thrStatus_notMem_fabSlots o.cluster o.thread o.mould)
  rw [State.threadResult_store hkind _ _ fun _ => hstate ▸ hlive, if_neg hfail] at hended
  obtain ⟨w, hw⟩ : ∃ w, w = y.wr F.thrStatus_remoteOut (y.rd F.thrStatus_remoteOut o.cluster o.thread - 1) o.cluster o.thread := ⟨_, rfl⟩
  obtain ⟨x, hx⟩ : ∃ x, x = w.setThread o.cluster o.thread { y.thread o.cluster o.thread with
      fenceErr := if (y.thread o.cluster o.thread).fenceErr = 0 then o.fail else (y.thread o.cluster o.thread).fenceErr } := ⟨_, rfl⟩
  rw [← hw, ← hx] at hended
  have hxcsr : x.csr = w.csr := by
    rw [hx]
    rfl
  have hlogged := State.logFree_frame x 0x1104 (srcEngine o.cluster 6) o.mould
  have hafter := State.regsBut_logFree x 0x1104 (srcEngine o.cluster 6) o.mould
  have hcounted : RegsBut y w [regAddr .thrStatus o.cluster o.thread] := by
    rw [hw]
    exact State.regsBut_wr y F.thrStatus_remoteOut _ o.cluster o.thread
  have herr : (x.thread o.cluster o.thread).fenceErr
      = if (s.thread o.cluster o.thread).fenceErr = 0 then o.fail else (s.thread o.cluster o.thread).fenceErr := by
    rw [hx, State.thread_setThread_same]
    obtain hkept | ⟨-, -, hzero, hset⟩ := hnoted
    · rw [hkept]
    · rw [hset, hzero, if_pos rfl]
      exact if_neg hfail
  refine ⟨_, hended, ?_, ?_, ?_, ?_, ?_⟩
  · rw [hlogged, hx, hw]
    exact hfree
  · rw [hafter.rd (f := F.fabSlots_used) (by
      rw [List.mem_singleton, regAddr_logStatus, show regAddr F.fabSlots_used.reg o.mould 0 = 0x800028 + 0x4000 * o.mould from rfl]
      omega), State.rd_of_csr hxcsr, hcounted.rd (f := F.fabSlots_used) (regAddr_fabSlots_notMem_thrStatus o.mould o.cluster o.thread), hslots]
  · rw [hafter.rd (f := F.thrStatus_remoteOut) (by
      rw [List.mem_singleton, regAddr_logStatus,
        show regAddr F.thrStatus_remoteOut.reg o.cluster o.thread = 0x1005000 + 0x100000 * o.cluster + 0x10 * o.thread from rfl]
      omega), State.rd_of_csr hxcsr, hw, State.sub_one_remoteOut, hout]
  · rw [hlogged]
    exact herr
  · rw [hlogged, hx, hw, hframe]
    rfl

theorem exec_nak_store (h : s.takesFrame v p 0x19 f) (hform : headerOk f 1 = true) (hempty : fPay f = []) (hcode : fStatus f ≠ 0)
    (hout : v.outstanding (fSrc f) (fMould f) (fSeq f) (fun k => decide (3 ≤ k) && decide (k ≤ 9)) = some id) (ho : o = s.rop id)
    (hkind : o.kind = 6) (hgot : o.got = false) (hfail : o.fail = 0) (hleft : o.left = [fSeq f]) (hsent : o.len ≤ o.sent)
    (hthread : o.thread < 16) (hslag : v.isSlag o.mould o.ctx o.heat o.quenches = false) (hlive : v.thrState o.cluster o.thread ≠ 0) :
    ∃ u : State, exec (.nak p) s = .next u.settle ∧ u.rop id = ROp.init ∧ u.rd F.fabSlots_used o.mould = v.rd F.fabSlots_used o.mould - 1
      ∧ u.rd F.thrStatus_remoteOut o.cluster o.thread = v.rd F.thrStatus_remoteOut o.cluster o.thread - 1
      ∧ (u.thread o.cluster o.thread).fenceErr
        = (if (v.thread o.cluster o.thread).fenceErr = 0 then fStatus f else (v.thread o.cluster o.thread).fenceErr)
      ∧ u = { v with csr := u.csr, clus := u.clus, fab := u.fab, log := u.log, free := u.free } := by
  obtain ⟨w, hw, hop, hexec⟩ := exec_nak_takes h hform hempty hout ho
  have hslag' : w.isSlag o.mould o.ctx o.heat o.quenches = false := by
    rw [hw]
    exact hslag
  rw [if_pos (by simp [hkind]), State.settleSeqs_store hop hkind hleft (decide_eq_true rfl) hsent hslag'] at hexec
  have hfails : (o.covered (fStatus f)).fail = fStatus f := if_pos hfail
  obtain ⟨u, hu, hfree, hslots, hcount, herr, hframe⟩ := State.endRop_store_failed (s := w.setRop id (o.covered (fStatus f)))
    (o := o.covered (fStatus f)) (State.rop_setRop_same ..).symm hkind hgot hthread (by rw [hfails]; exact hcode) (by rw [hw]; exact hlive)
  rw [hu] at hexec
  rw [hfails] at herr
  refine ⟨u, hexec, hfree, ?_, ?_, ?_, ?_⟩
  · refine hslots.trans ?_
    rw [hw]
    rfl
  · refine hcount.trans ?_
    rw [hw]
    rfl
  · refine herr.trans ?_
    rw [hw]
    rfl
  · rw [hframe, hw]
    rfl

end Sys2Proof.Machine
end

section
/-! Acknowledgements (R322 to R324, R331) and answers that match nothing (R328). -/
namespace Sys2Proof.Machine

variable {s v : State} {p id k : Nat} {f : Bytes} {o : ROp}

theorem State.txS_setTx (s : State) (k j : Nat) (w : TxStream) : (s.setTx k w).txS j = if j = k then w else s.txS j := Tab.get_set ..

/-- The stream to a device acknowledged up to a sequence: every frame it covers is sent no more. -/
def State.ackedTo (s : State) (k seq : Nat) : State :=
  (s.setTx k { s.txS k with acked := seq }).dropTx k (fun q => decide (0 ≤ sext 32 (seq + 2 ^ 32 - q)))

theorem State.ackedTo_spec (s : State) (k seq : Nat) :
    (s.ackedTo k seq).txS k
        = { s.txS k with acked := seq, out := (s.txS k).out.filter (fun e => decide (sext 32 (seq + 2 ^ 32 - e.seq) < 0)) }
      ∧ (∀ j, j ≠ k → (s.ackedTo k seq).txS j = s.txS j)
      ∧ s.ackedTo k seq = { s with fab := { s.fab with tx := (s.ackedTo k seq).fab.tx } } := by
  refine ⟨?_, fun j hj => ?_, rfl⟩
  · rw [State.ackedTo, State.dropTx]
    dsimp only
    rw [State.txS_setTx, if_pos rfl, State.txS_setTx, if_pos rfl]
    congr 1
    refine List.filter_congr fun e _ => ?_
    rw [← decide_not]
    exact decide_eq_decide.mpr Int.not_le
  · rw [State.ackedTo, State.dropTx]
    dsimp only
    rw [State.txS_setTx, if_neg hj, State.txS_setTx, if_neg hj]

/-- What an acknowledgement settles of the operations of a stream (R331). -/
def State.settleAll (s : State) (dev m : Nat) (q : Nat → Bool) : State :=
  s.fab.ops.foldl (fun (u : State) e =>
    if e.2.dev = dev && e.2.mould = m && !e.2.got && 0 < e.2.sends then u.settleSeqs e.1 q 0 else u) s

/-- An acknowledgement in form that covers a sequence of its stream. -/
theorem exec_ack_takes (h : s.takesFrame v p 0x18 f) (hform : headerOk f 1 = true) (hempty : fPay f = [])
    (hk : k = streamKey (fSrc f) (fMould f)) (hnew : 0 < sext 32 (fSeq f + 2 ^ 32 - (v.txS k).acked))
    (hsent : 0 ≤ sext 32 ((v.txS k).seq + 2 ^ 32 - fSeq f)) :
    exec (.ack p) s = .next ((((v.ackedTo k (fSeq f)).settleAll (fSrc f) (fMould f)
      (fun q => decide (0 ≤ sext 32 (fSeq f + 2 ^ 32 - q)))).feedStream (fSrc f) (fMould f)).settle) := by
  have hlive : s.live = true := h.1
  have hcovers : ¬ (decide (sext 32 (fSeq f + 2 ^ 32 - (v.txS k).acked) ≤ 0) || decide (sext 32 ((v.txS k).seq + 2 ^ 32 - fSeq f) < 0))
      = true := by
    rw [decide_eq_false (Int.not_le.mpr hnew), decide_eq_false (Int.not_lt.mpr hsent)]
    decide
  rw [exec_ack, execAck, whenLive_live _ _ hlive, State.answerFrame_takes h hform (by rw [hempty]; rfl)]
  dsimp only
  rw [← hk, if_neg hcovers]
  rfl

/-- Where no put and no store of the stream is under way, nothing is settled. -/
theorem State.settleAll_none {dev m : Nat} (q : Nat → Bool)
    (hother : s.fab.ops.all (fun e => e.2.dev ≠ dev || e.2.mould ≠ m || (e.2.kind ≠ 3 && e.2.kind ≠ 6)) = true)
    (hops : s.fab.ops.all (fun e => s.rop e.1 = e.2) = true) : s.settleAll dev m q = s := by
  unfold State.settleAll
  refine List.foldlRecOn s.fab.ops _ (motive := fun u => u = s) rfl ?_
  rintro u rfl e he
  split
  · next hmine =>
    have hkinds := List.all_eq_true.mp hother e he
    have hop : u.rop e.1 = e.2 := of_decide_eq_true (List.all_eq_true.mp hops e he)
    simp only [Bool.and_eq_true, decide_eq_true_eq] at hmine
    obtain ⟨⟨⟨hdev, hm⟩, -⟩, -⟩ := hmine
    simp only [hdev, hm, ne_eq, not_true_eq_false, decide_false, Bool.false_or, Bool.and_eq_true, decide_eq_true_eq] at hkinds
    obtain ⟨hput, hstore⟩ := hkinds
    exact State.settleSeqs_other (by rwa [hop]) (by rwa [hop]) q 0
  · rfl

/-- Where no put of the stream is under way, none goes on. -/
theorem State.feedStream_none {dev m : Nat}
    (hother : s.fab.ops.all (fun e => e.2.dev ≠ dev || e.2.mould ≠ m || (e.2.kind ≠ 3 && e.2.kind ≠ 6)) = true) : s.feedStream dev m = s := by
  unfold State.feedStream
  refine List.foldlRecOn s.fab.ops _ (motive := fun u => u = s) rfl ?_
  rintro u rfl e he
  split
  · next hmine =>
    have hkinds := List.all_eq_true.mp hother e he
    simp only [Bool.and_eq_true, decide_eq_true_eq] at hmine
    obtain ⟨⟨hkind, hdev⟩, hm⟩ := hmine
    simp [hkind, hdev, hm] at hkinds
  · rfl

theorem exec_ack_covers (h : s.takesFrame v p 0x18 f) (hform : headerOk f 1 = true) (hempty : fPay f = [])
    (hk : k = streamKey (fSrc f) (fMould f)) (hnew : 0 < sext 32 (fSeq f + 2 ^ 32 - (v.txS k).acked))
    (hsent : 0 ≤ sext 32 ((v.txS k).seq + 2 ^ 32 - fSeq f))
    (hother : v.fab.ops.all (fun e => e.2.dev ≠ fSrc f || e.2.mould ≠ fMould f || (e.2.kind ≠ 3 && e.2.kind ≠ 6)) = true)
    (hops : v.fab.ops.all (fun e => v.rop e.1 = e.2) = true) :
    ∃ u : State, exec (.ack p) s = .next u.settle
      ∧ u.txS k = { v.txS k with acked := fSeq f, out := (v.txS k).out.filter (fun e => decide (sext 32 (fSeq f + 2 ^ 32 - e.seq) < 0)) }
      ∧ (∀ j, j ≠ k → u.txS j = v.txS j) ∧ u.fab.ops = v.fab.ops ∧ u.fab.ports = v.fab.ports ∧ u = { v with fab := u.fab } := by
  obtain ⟨hstream, hothers, hframe⟩ := v.ackedTo_spec k (fSeq f)
  have hexec := exec_ack_takes h hform hempty hk hnew hsent
  rw [State.settleAll_none (s := v.ackedTo k (fSeq f)) _ hother hops, State.feedStream_none (s := v.ackedTo k (fSeq f)) hother] at hexec
  exact ⟨_, hexec, hstream, hothers, rfl, rfl, hframe⟩

/-- A one-entry table after its entry is replaced and left out. -/
theorem Tab.set_default_of_single {α : Type} [DecidableEq α] (d : α) (k : Nat) (a b : α) : Tab.set d (Tab.set d [(k, a)] k b) k d = [] := by
  rw [Tab.set, if_pos rfl, Tab.set]
  split
  · simp [Tab.del]
  · simp [Tab.del, Tab.put]

/-- A sequence covers itself. -/
theorem sext_self (n : Nat) : sext 32 (n + 2 ^ 32 - n) = 0 := by
  rw [Nat.add_sub_cancel_left]
  decide

theorem exec_ack_ends_store (h : s.takesFrame v p 0x18 f) (hform : headerOk f 1 = true) (hempty : fPay f = [])
    (hk : k = streamKey (fSrc f) (fMould f)) (hnew : 0 < sext 32 (fSeq f + 2 ^ 32 - (v.txS k).acked))
    (hsent : 0 ≤ sext 32 ((v.txS k).seq + 2 ^ 32 - fSeq f)) (hops : v.fab.ops = [(id, o)]) (hkind : o.kind = 6) (hdev : o.dev = fSrc f)
    (hmould : o.mould = fMould f) (hgot : o.got = false) (hfail : o.fail = 0) (hsends : 0 < o.sends) (hleft : o.left = [fSeq f])
    (hall : o.len ≤ o.sent) (hthread : o.thread < 16) (hslag : v.isSlag o.mould o.ctx o.heat o.quenches = false) :
    ∃ u : State, exec (.ack p) s = .next u.settle ∧ u.rop id = ROp.init ∧ (u.txS k).acked = fSeq f
      ∧ u.rd F.fabSlots_used o.mould = v.rd F.fabSlots_used o.mould - 1
      ∧ u.rd F.thrStatus_remoteOut o.cluster o.thread = v.rd F.thrStatus_remoteOut o.cluster o.thread - 1
      ∧ RegsBut v u [regAddr .fabSlots o.mould 0, regAddr .thrStatus o.cluster o.thread] ∧ u = { v with csr := u.csr, fab := u.fab } := by
  have hexec := exec_ack_takes h hform hempty hk hnew hsent
  obtain ⟨hstream, -, hframe⟩ := v.ackedTo_spec k (fSeq f)
  have hacked : ((v.ackedTo k (fSeq f)).txS k).acked = fSeq f := congrArg TxStream.acked hstream
  have hops' : (v.ackedTo k (fSeq f)).fab.ops = [(id, o)] := hops
  have hop : (v.ackedTo k (fSeq f)).rop id = o := by
    rw [State.rop, hops', Tab.get, Tab.find, if_pos rfl, Option.getD_some]
  have hslag' : (v.ackedTo k (fSeq f)).isSlag o.mould o.ctx o.heat o.quenches = false := hslag
  have hcsr : (v.ackedTo k (fSeq f)).csr = v.csr := rfl
  generalize v.ackedTo k (fSeq f) = w at *
  have hsettled : w.settleAll (fSrc f) (fMould f) (fun q => decide (0 ≤ sext 32 (fSeq f + 2 ^ 32 - q)))
      = (w.setRop id (o.covered 0)).endRop id 0 [] 0 false := by
    have hmine : (decide (o.dev = fSrc f) && decide (o.mould = fMould f) && !o.got && decide (0 < o.sends)) = true := by
      rw [decide_eq_true hdev, decide_eq_true hmould, hgot, decide_eq_true hsends]
      rfl
    unfold State.settleAll
    rw [hops', List.foldl_cons, List.foldl_nil, if_pos hmine,
      State.settleSeqs_store hop hkind hleft (decide_eq_true (by rw [sext_self])) hall hslag']
  have hnofail : (o.covered 0).fail = 0 := if_pos hfail
  obtain ⟨hfree, hslots, hcount, hempties, hstreams, hregs, hended⟩ := State.endRop_stored (s := w.setRop id (o.covered 0)) (id := id)
    (o := o.covered 0) (State.rop_setRop_same ..).symm hkind hgot hthread hnofail
  rw [hsettled] at hexec
  have hnone : ((w.setRop id (o.covered 0)).endRop id 0 [] 0 false).fab.ops = [] := by
    refine hempties.trans ?_
    rw [show (w.setRop id (o.covered 0)).fab.ops = Tab.set ROp.init w.fab.ops id (o.covered 0) from rfl, hops']
    exact Tab.set_default_of_single ..
  rw [State.feedStream_none (by rw [hnone]; rfl)] at hexec
  refine ⟨_, hexec, hfree, ?_, ?_, ?_, ?_, ?_⟩
  · exact (hstreams k).trans hacked
  · exact hslots.trans (congrArg (· - 1) (State.rd_of_csr hcsr F.fabSlots_used o.mould 0))
  · exact hcount.trans (congrArg (· - 1) (State.rd_of_csr hcsr F.thrStatus_remoteOut o.cluster o.thread))
  · exact (State.regsBut_of_csr hcsr _).trans hregs
  · rw [hended, hframe]
    rfl

end Sys2Proof.Machine
end

section
/-! What a frame that answers nothing does to its port (R318, R328, R345, R399, R573, R575). -/
namespace Sys2Proof.Machine

/-- t is s after a port was charged with a frame, and perhaps left its neighbour: the streams, the operations and the count of orphans
are as they were. -/
structure State.PortCharged (s t : State) : Prop where
  frame : t = { s with csr := t.csr, free := t.free, log := t.log, fab := t.fab, egr := t.egr, tim := t.tim, health := t.health }
  tx : t.fab.tx = s.fab.tx
  ops : t.fab.ops = s.fab.ops
  orphans : t.rd F.fabStat_orphan = s.rd F.fabStat_orphan

namespace State.PortCharged

variable {s t u : State}

theorem refl (s : State) : s.PortCharged s := ⟨rfl, rfl, rfl, rfl⟩

theorem trans (h : s.PortCharged t) (k : t.PortCharged u) : s.PortCharged u :=
  ⟨k.frame.trans (by rw [h.frame]), k.tx.trans h.tx, k.ops.trans h.ops, k.orphans.trans h.orphans⟩

theorem foldl {α : Type} {f : State → α → State} (hf : ∀ (u : State) (a : α), u.PortCharged (f u a)) (l : List α) (s : State) :
    s.PortCharged (l.foldl f s) :=
  List.foldlRecOn l f (motive := s.PortCharged) (refl s) fun t ht a _ => ht.trans (hf t a)

/-- Parts that hold neither registers nor the fabric's streams and operations. -/
theorem of_parts (h : t = { s with free := t.free, log := t.log, fab := t.fab, egr := t.egr, tim := t.tim, health := t.health })
    (htx : t.fab.tx = s.fab.tx) (hops : t.fab.ops = s.fab.ops) : s.PortCharged t := by
  have hcsr : t.csr = s.csr := (congrArg State.csr h).trans rfl
  exact ⟨by rw [hcsr]; exact h, htx, hops, State.rd_of_csr hcsr _ _ _⟩

theorem wr (s : State) (f : Field) (v i j : Nat) (h : regAddr f.reg i j ≠ 0x400020) : s.PortCharged (s.wr f v i j) :=
  ⟨rfl, rfl, rfl, State.rd_wr_ne s v (f := f) (g := F.fabStat_orphan) h.symm⟩

theorem cnt (s : State) (f : Field) (i j n : Nat) (h : regAddr f.reg i j ≠ 0x400020) : s.PortCharged (s.cnt f i j n) := wr s f _ i j h

theorem logEvt (s : State) (code source m d : Nat) : s.PortCharged (s.logEvt code source m d) := by
  have hframe := State.logEvt_frame s code source m d
  have hregs := State.regsBut_logEvt s code source m d
  generalize s.logEvt code source m d = t at *
  refine ⟨?_, ?_, ?_, hregs.rd (f := F.fabStat_orphan) (by decide)⟩
  · rw [hframe]
  · rw [hframe]
  · rw [hframe]

theorem logFree (s : State) (code source m : Nat) : s.PortCharged (s.logFree code source m) := by
  have hframe := State.logFree_frame s code source m
  have hregs := State.regsBut_logFree s code source m
  generalize s.logFree code source m = t at *
  refine ⟨?_, ?_, ?_, hregs.rd (f := F.fabStat_orphan) (by decide)⟩
  · rw [hframe]
  · rw [hframe]
  · rw [hframe]

theorem setPort (s : State) (p : Nat) (v : PortSt) : s.PortCharged (s.setPort p v) := of_parts rfl rfl rfl

theorem owe (s : State) (p : Nat) (f : Bytes) : s.PortCharged (s.owe p f) := by
  unfold State.owe
  split
  · exact refl s
  · exact setPort ..

theorem noteDetour (s : State) (dst : Nat) (detour : Bool) : s.PortCharged (s.noteDetour dst detour) := by
  unfold State.noteDetour
  split
  · have hcount := cnt s F.fabStat2_rerouted 0 0 1 (by decide)
    dsimp only
    split
    · exact hcount
    · refine State.PortCharged.trans ?_ (logFree ..)
      exact hcount.trans (of_parts rfl rfl rfl)
  · exact of_parts rfl rfl rfl

/-- A frame goes to its route, from whichever port it came (R310, R313). -/
theorem dispatchFrame (s : State) (f : Bytes) (inPort ctx : Nat) : s.PortCharged (s.dispatchFrame f inPort ctx) := by
  unfold State.dispatchFrame
  split
  · refine State.PortCharged.trans ?_ (owe ..)
    exact of_parts rfl rfl rfl
  · exact (owe ..).trans (cnt _ F.fabStat2_unreachable 0 0 1 (by decide))
  · exact (noteDetour ..).trans (of_parts rfl rfl rfl)

theorem rerouteFrom (s : State) (p : Nat) : s.PortCharged (s.rerouteFrom p) := by
  unfold State.rerouteFrom
  dsimp only
  refine State.PortCharged.trans ?_ (foldl (fun u f => dispatchFrame u _ _ _) _ _)
  refine State.PortCharged.trans ?_ (foldl (fun u f => dispatchFrame u _ _ _) _ _)
  refine State.PortCharged.trans ?_ (setPort ..)
  refine foldl (fun u e => ?_) _ s
  exact of_parts rfl rfl rfl

theorem timeState (s : State) (n : Nat) : s.PortCharged (s.timeState n) := by
  unfold State.timeState
  dsimp only
  split
  · exact refl s
  · refine State.PortCharged.trans ?_ (logEvt ..)
    refine State.PortCharged.trans ?_ (wr _ F.timeStatus_state n 0 0 (by decide))
    exact of_parts rfl rfl rfl

theorem setIncr (s : State) (v : Nat) : s.PortCharged (s.setIncr v) := by
  unfold State.setIncr
  dsimp only
  refine State.PortCharged.trans ?_ (wr _ F.timeStatus_freqOffset _ 0 0 (by decide))
  refine State.PortCharged.trans ?_ (wr _ F.timeIncr_incr _ 0 0 (by decide))
  exact of_parts rfl rfl rfl

theorem holdover (s : State) : s.PortCharged s.holdover := by
  unfold State.holdover
  split
  · exact ((timeState ..).trans (setIncr ..)).trans (of_parts rfl rfl rfl)
  · exact refl s

theorem upstreamLost (s : State) (p : Nat) : s.PortCharged (s.upstreamLost p) := by
  unfold State.upstreamLost
  split
  · refine State.PortCharged.trans ?_ (holdover ..)
    exact of_parts rfl rfl rfl
  · exact refl s

theorem portLeaves {p : Nat} (hp : p < 12) (s : State) (st : Nat) : s.PortCharged (s.portLeaves p st) := by
  have hport : regAddr F.portStatus_state.reg p 0 ≠ 0x400020 := by
    rw [show regAddr F.portStatus_state.reg p 0 = 0x401000 + 0x40 * p from rfl]
    omega
  have hkeys : regAddr F.macsec_active.reg p 0 ≠ 0x400020 := by
    rw [show regAddr F.macsec_active.reg p 0 = 0x300200 + 0x8 * p from rfl]
    omega
  have hleft := ((wr s F.portStatus_state st p 0 hport).trans (wr _ F.portStatus_macsec 0 p 0 hport)).trans (wr _ F.macsec_active 0 p 0 hkeys)
  unfold State.portLeaves
  dsimp only
  split
  · exact ((hleft.trans (logEvt ..)).trans (rerouteFrom ..)).trans (upstreamLost ..)
  · exact hleft

theorem count (s : State) (kind cluster n : Nat) : s.PortCharged (s.count kind cluster n) := by
  have hframe := State.count_frame s kind cluster n
  generalize s.count kind cluster n = t at *
  rw [hframe]
  exact of_parts rfl rfl rfl

theorem quarBegin {k : Nat} (hk : k < 12) (s : State) : s.PortCharged (s.quarBegin k) := by
  have haddr : regAddr F.quar_active.reg k 0 ≠ 0x400020 := by
    rw [show regAddr F.quar_active.reg k 0 = 0x5100 + 0x8 * k from rfl]
    omega
  unfold State.quarBegin
  dsimp only
  refine State.PortCharged.trans ?_ (count ..)
  refine State.PortCharged.trans ?_ (logEvt ..)
  refine State.PortCharged.trans ?_ (cnt _ F.quar_quarantines k 0 1 haddr)
  refine State.PortCharged.trans ?_ (wr _ F.quar_level _ k 0 haddr)
  refine State.PortCharged.trans ?_ (wr _ F.quar_active 1 k 0 haddr)
  exact of_parts rfl rfl rfl

theorem quarHit {k : Nat} (hk : k < 12) (s : State) (limit : Nat) : s.PortCharged (s.quarHit k limit).2 := by
  unfold State.quarHit
  dsimp only
  split
  · exact refl s
  · split
    · refine State.PortCharged.trans ?_ (quarBegin hk _)
      exact of_parts rfl rfl rfl
    · exact of_parts rfl rfl rfl

theorem badFrame (s : State) (p : Nat) : s.PortCharged (s.badFrame p) := by
  unfold State.badFrame
  split
  · exact refl s
  · next hp =>
    dsimp only
    split
    · exact (quarHit (by omega) s 1000).trans (portLeaves (by omega) _ 4)
    · exact quarHit (by omega) s 1000

end State.PortCharged

variable {s v : State} {p : Nat} {f : Bytes}

theorem exec_ack_orphan (h : s.takesFrame v p 0x18 f) (hform : headerOk f 1 = true) (hempty : fPay f = [])
    (hold : sext 32 (fSeq f + 2 ^ 32 - (v.txS (streamKey (fSrc f) (fMould f))).acked) ≤ 0) :
    ∃ u : State, exec (.ack p) s = .next u.settle ∧ u.rd F.fabStat_orphan = satAdd 16 (v.rd F.fabStat_orphan) 1 ∧ u.fab.tx = v.fab.tx
      ∧ u.fab.ops = v.fab.ops
      ∧ u = { v with csr := u.csr, free := u.free, log := u.log, fab := u.fab, egr := u.egr, tim := u.tim, health := u.health } := by
  have hlive : s.live = true := h.1
  have hexec : exec (.ack p) s = .next ((v.cnt F.fabStat_orphan).badFrame p).settle := by
    rw [exec_ack, execAck, whenLive_live _ _ hlive, State.answerFrame_takes h hform (by rw [hempty]; rfl)]
    dsimp only
    rw [decide_eq_true hold, Bool.true_or, if_pos rfl]
    rfl
  have hcharged := State.PortCharged.badFrame (v.cnt F.fabStat_orphan) p
  refine ⟨_, hexec, ?_, hcharged.tx, hcharged.ops, hcharged.frame⟩
  rw [hcharged.orphans, State.rd_cnt_same _ _ _ _ _ (by decide)]
  rfl

end Sys2Proof.Machine
end

section
/-! Frames of a get at its requester (R333, R334, R337). -/
namespace Sys2Proof.Machine

variable {s v q : State} {p id sub : Nat} {f d : Bytes} {o : ROp}

/-- The record of a get when a frame's bytes have landed: their granules, the versions it carries, and its flags at the end (R333). -/
def ROp.landing (o : ROp) (f d : Bytes) (sub : Nat) : ROp :=
  { o with
    landed := ((List.range (d.length / 64)).map (· + sub / 64)).filter (fun g => !o.landed.contains g) ++ o.landed, v0 := beAt f 0x24 4
    v1 := if bit (fFlags f) 3 then beAt f 0x28 4 else o.v1, gflags := if bit (fFlags f) 3 then beAt f 0x2C 2 % 4 else o.gflags }

/-- A first frame lands all its granules. -/
theorem ROp.landed_landing (o : ROp) (f d : Bytes) (sub : Nat) (hnone : o.landed = []) :
    (o.landing f d sub).landed = (List.range (d.length / 64)).map (fun g => g + sub / 64) := by
  unfold ROp.landing
  simp [hnone]

/-- The form of a get's frame that carries bytes (Table 11.8). -/
theorem getResp_form (hd : d = (fPay f).drop 16) (hmin : 16 < (fPay f).length) (hmax : (fPay f).length ≤ 4112) (hline : d.length % 64 = 0)
    (hsub : beAt f 0x20 4 % 64 = 0) (hzero : beAt f 0x2E 2 = 0) :
    (decide (fStatus f ≠ 0) || decide (80 ≤ (fPay f).length ∧ (fPay f).length ≤ 4112 ∧ (fPay f).length % 64 = 16 ∧ beAt f 0x20 4 % 64 = 0
      ∧ beAt f 0x2E 2 = 0)) = true := by
  have hlen : d.length = (fPay f).length - 16 := by rw [hd, List.length_drop]
  rw [decide_eq_true (by omega : 80 ≤ (fPay f).length ∧ (fPay f).length ≤ 4112 ∧ (fPay f).length % 64 = 16 ∧ beAt f 0x20 4 % 64 = 0
    ∧ beAt f 0x2E 2 = 0), Bool.or_true]

/-- A frame of the newest attempt of a get lands (R333). -/
theorem exec_getResp_takes (h : s.takesFrame v p 0x11 f) (hform : headerOk f 1 = true) (hstatus : fStatus f = 0)
    (hout : v.outstanding (fSrc f) (fMould f) (fSeq f) (fun k => k = 4) = some id) (ho : o = s.rop id)
    (hslag : v.isSlag o.mould o.ctx (fHeat f) o.quenches = false) (hattempt : fFlags f / 16 = o.attempt) (hd : d = (fPay f).drop 16)
    (hsub : sub = beAt f 0x20 4) (hmin : 16 < (fPay f).length) (hmax : (fPay f).length ≤ 4112) (hline : d.length % 64 = 0)
    (halign : sub % 64 = 0) (hzero : beAt f 0x2E 2 = 0) (hfits : sub + d.length ≤ o.len) :
    exec (.getResp p) s = .next (if 64 * (o.landing f d sub).landed.length < o.len
      then (v.writeMem o.mould (o.near + sub) d).setRop id (o.landing f d sub)
      else ((v.writeMem o.mould (o.near + sub) d).setRop id (o.landing f d sub)).endRop id
        (if bit (o.landing f d sub).gflags 1 then E.fabTorn else 0) [] 0 false).settle := by
  have hlive : s.live = true := h.1
  have hop : v.rop id = o := by rw [State.takesFrame_rop h, ho]
  rw [exec_getResp, execGetResp, whenLive_live _ _ hlive,
    State.answerFrame_takes h hform (getResp_form hd hmin hmax hline (hsub ▸ halign) hzero), hout]
  dsimp only
  rw [hop, hslag, if_neg Bool.false_ne_true, if_neg (not_not_intro hattempt), if_neg (not_not_intro hstatus), ← hd, ← hsub,
    if_neg (Nat.not_lt.mpr hfits)]
  rfl

theorem exec_getResp_lands (h : s.takesFrame v p 0x11 f) (hform : headerOk f 1 = true) (hstatus : fStatus f = 0)
    (hout : v.outstanding (fSrc f) (fMould f) (fSeq f) (fun k => k = 4) = some id) (ho : o = s.rop id) (hgot : o.got = false)
    (hslag : v.isSlag o.mould o.ctx (fHeat f) o.quenches = false) (hattempt : fFlags f / 16 = o.attempt) (hd : d = (fPay f).drop 16)
    (hsub : sub = beAt f 0x20 4) (hmin : 16 < (fPay f).length) (hmax : (fPay f).length ≤ 4112) (hline : d.length % 64 = 0)
    (halign : sub % 64 = 0) (hzero : beAt f 0x2E 2 = 0) (hfits : sub + d.length ≤ o.len) (hnone : o.landed = []) (hmore : d.length < o.len)
    (hq : q = v.writeMem o.mould (o.near + sub) d) :
    ∃ u : State, exec (.getResp p) s = .next u.settle ∧ (u.rop id).landed = (List.range (d.length / 64)).map (fun g => g + sub / 64)
      ∧ (u.rop id).v0 = beAt f 0x24 4 ∧ (u.rop id).got = false ∧ u = { q with fab := u.fab } := by
  have hlanded := o.landed_landing f d sub hnone
  have hcount : 64 * (o.landing f d sub).landed.length < o.len := by
    rw [hlanded, List.length_map, List.length_range]
    omega
  have hexec := exec_getResp_takes h hform hstatus hout ho hslag hattempt hd hsub hmin hmax hline halign hzero hfits
  rw [if_pos hcount, ← hq] at hexec
  refine ⟨_, hexec, ?_, ?_, ?_, rfl⟩
  · rw [State.rop_setRop_same, hlanded]
  · rw [State.rop_setRop_same]
    rfl
  · rw [State.rop_setRop_same]
    exact hgot

/-- A get of the ladle ends: its slot and frames are free, and its trailer follows its data (R331, R333). -/
theorem State.endRop_get {code : Nat} (ho : o = s.rop id) (hkind : o.kind = 4) (hgot : o.got = false) (hfail : o.fail = 0)
    (hladle : o.thread = 16) (res : Bytes) (ver : Nat) :
    s.endRop id code res ver false = ((s.ropFreed id o code).writeMem o.mould (o.near + o.len) (getTrailer o code)).setRop id
      { o with got := true, fail := code, left := [] } := by
  unfold State.endRop
  dsimp only
  rw [← ho, hgot, decide_eq_false (by omega), if_neg (by decide), if_pos hladle, if_pos hfail, if_neg Bool.false_ne_true,
    if_pos (by rw [decide_eq_true hkind]; rfl), if_neg Bool.false_ne_true]
  rfl

theorem exec_getResp_ends {w : State} {code : Nat} {g : ROp} (h : s.takesFrame v p 0x11 f) (hform : headerOk f 1 = true)
    (hstatus : fStatus f = 0) (hout : v.outstanding (fSrc f) (fMould f) (fSeq f) (fun k => k = 4) = some id) (ho : o = s.rop id)
    (hkind : o.kind = 4) (hgot : o.got = false) (hfail : o.fail = 0) (hladle : o.thread = 16)
    (hslag : v.isSlag o.mould o.ctx (fHeat f) o.quenches = false) (hattempt : fFlags f / 16 = o.attempt) (hd : d = (fPay f).drop 16)
    (hsub : beAt f 0x20 4 = 0) (hmin : 16 < (fPay f).length) (hmax : (fPay f).length ≤ 4112) (hline : d.length % 64 = 0)
    (hzero : beAt f 0x2E 2 = 0) (hall : d.length = o.len) (hnone : o.landed = []) (hlast : bit (fFlags f) 3 = true)
    (hq : q = v.writeMem o.mould o.near d) (hcode : code = (if bit (beAt f 0x2C 2) 1 then E.fabTorn else 0))
    (hg : g = { o with landed := List.range (d.length / 64), v0 := beAt f 0x24 4, v1 := beAt f 0x28 4, gflags := beAt f 0x2C 2 % 4 })
    (hw : w = q.writeMem o.mould (o.near + o.len) (getTrailer g code)) :
    ∃ u : State, exec (.getResp p) s = .next u.settle ∧ u.rop id = { g with got := true, fail := code, left := [] }
      ∧ u.rd F.fabSlots_used o.mould = v.rd F.fabSlots_used o.mould - 1 ∧ u.sram = w.sram ∧ u.gddr = w.gddr ∧ u.cxl = w.cxl ∧ u.xts = w.xts
      ∧ RegsBut q u [regAddr .fabSlots o.mould 0]
      ∧ u = { q with
          csr := u.csr, clus := u.clus, fab := u.fab, sram := u.sram, gddr := u.gddr, cxl := u.cxl, xts := u.xts, vers := u.vers } := by
  have hlanded : o.landing f d 0 = g := by
    rw [hg, ROp.landing, hlast, if_pos rfl, if_pos rfl, hnone]
    simp
  have hcount : ¬ 64 * g.landed.length < o.len := by
    rw [hg]
    dsimp only
    rw [List.length_range]
    omega
  have htorn : (if bit g.gflags 1 then E.fabTorn else 0) = code := by
    have hbit : bit g.gflags 1 = bit (beAt f 0x2C 2) 1 := by
      rw [hg]
      exact bit_mod (n := 2) (by decide)
    rw [hbit, hcode]
  have hexec := exec_getResp_takes h hform hstatus hout ho hslag hattempt hd hsub.symm hmin hmax hline (by decide) hzero (by omega)
  rw [hlanded, if_neg hcount, htorn, Nat.add_zero, ← hq] at hexec
  have hfields : g.kind = 4 ∧ g.got = false ∧ g.fail = 0 ∧ g.thread = 16 ∧ g.mould = o.mould ∧ g.near = o.near ∧ g.len = o.len := by
    rw [hg]
    exact ⟨hkind, hgot, hfail, hladle, rfl, rfl, rfl⟩
  obtain ⟨hgkind, hggot, hgfail, hgladle, hgmould, hgnear, hglen⟩ := hfields
  rw [State.endRop_get (State.rop_setRop_same ..).symm hgkind hggot hgfail hgladle] at hexec
  obtain ⟨hslots, hregs, -, -, hframe⟩ := (q.setRop id g).ropFreed_spec id g code 0 0
  rw [← hgmould, ← hgnear, ← hglen] at hw
  rw [← hgmould]
  generalize (q.setRop id g).ropFreed id g code = x at *
  have hshares : q.SharesMemory x := by
    rw [hframe]
    exact ⟨fun _ _ => rfl, fun _ _ _ => rfl, rfl, rfl, rfl, rfl⟩
  have hmem := hshares.writeMem g.mould (g.near + g.len) (getTrailer g code)
  have hwritten := State.writes_writeMem x g.mould (g.near + g.len) (getTrailer g code)
  rw [← hw] at hmem
  generalize x.writeMem g.mould (g.near + g.len) (getTrailer g code) = y at *
  have hcsr : y.csr = x.csr := (congrArg State.csr hwritten).trans rfl
  have hqcsr : q.csr = v.csr := by
    rw [hq, State.writes_writeMem v]
  refine ⟨_, hexec, State.rop_setRop_same .., ?_, hmem.sram, hmem.gddr, hmem.cxl, hmem.xts, ?_, ?_⟩
  · exact (State.rd_of_csr hcsr _ _ _).trans (hslots.trans (congrArg (· - 1) (State.rd_of_csr hqcsr F.fabSlots_used g.mould 0)))
  · exact RegsBut.trans hregs (State.regsBut_of_csr hcsr _)
  · rw [hwritten, hframe]
    rfl

theorem exec_getResp_stale (h : s.takesFrame v p 0x11 f) (hform : headerOk f 1 = true) (hmin : 80 ≤ (fPay f).length)
    (hmax : (fPay f).length ≤ 4112) (hline : (fPay f).length % 64 = 16) (hsub : beAt f 0x20 4 % 64 = 0) (hzero : beAt f 0x2E 2 = 0)
    (hout : v.outstanding (fSrc f) (fMould f) (fSeq f) (fun k => k = 4) = some id) (ho : o = s.rop id)
    (hslag : v.isSlag o.mould o.ctx (fHeat f) o.quenches = false) (hattempt : fFlags f / 16 ≠ o.attempt) :
    ∃ u : State, exec (.getResp p) s = .next u.settle ∧ u = v := by
  have hlive : s.live = true := h.1
  have hop : v.rop id = o := by rw [State.takesFrame_rop h, ho]
  refine ⟨v, ?_, rfl⟩
  rw [exec_getResp, execGetResp, whenLive_live _ _ hlive, State.answerFrame_takes h hform (by
    rw [decide_eq_true (⟨hmin, hmax, hline, hsub, hzero⟩ : 80 ≤ (fPay f).length ∧ (fPay f).length ≤ 4112 ∧ (fPay f).length % 64 = 16
      ∧ beAt f 0x20 4 % 64 = 0 ∧ beAt f 0x2E 2 = 0), Bool.or_true]), hout]
  dsimp only
  rw [hop, hslag, if_neg Bool.false_ne_true, if_pos hattempt]

/-- Settles O35: an answer in form is handed on; how an operation ends is proved once for a thread's answers, for stores and for gets,
and each frame is evaluated to the end it brings. -/
theorem answersAtTheRequester : Obligations.AnswersAtTheRequester :=
  ⟨fun _ _ _ _ _ _ h hstatus hsize hsub => exec_loadResp_small h hstatus hsize hsub,
    fun _ _ _ _ _ _ _ h hstatus hsize hsub hlen hw => exec_loadResp_line h hstatus hsize hsub hlen hw,
    fun _ _ _ _ _ _ h hstatus hsize => exec_atomicResp_answers h hstatus hsize,
    fun _ _ _ _ _ _ h hstatus hsize hzero => exec_vreadResp_answers h hstatus hsize hzero,
    fun _ _ _ _ _ _ h hstatus hsize => exec_ownResp_answers h hstatus hsize,
    fun _ _ _ _ _ _ _ h hkind hempty hout hfence hbusy hcode => exec_nak_refuses h hkind hempty hout hfence hbusy hcode,
    fun _ _ _ _ _ _ _ h hkind hempty hout hbusy => exec_nak_busy h hkind hempty hout hbusy,
    fun _ _ _ _ _ _ h hform hempty hcode hout ho hkind hgot hfail hleft hsent _ _ hthread hslag hlive =>
      exec_nak_store h hform hempty hcode hout ho hkind hgot hfail hleft hsent hthread hslag hlive,
    fun _ _ _ _ _ h hform hempty hk hnew hsent hother hops => exec_ack_covers h hform hempty hk hnew hsent hother hops,
    fun _ _ _ _ _ _ _ h hform hempty hk hnew hsent hops hkind hdev hmould hgot hfail hsends hleft hall _ hthread hslag =>
      exec_ack_ends_store h hform hempty hk hnew hsent hops hkind hdev hmould hgot hfail hsends hleft hall hthread hslag,
    fun _ _ _ _ h hform hempty hold => exec_ack_orphan h hform hempty hold,
    fun _ _ _ _ _ _ _ _ _ h hform hstatus hout ho _ hgot hslag hattempt hd hsub hmin hmax hline halign hzero hfits hnone hmore hq =>
      exec_getResp_lands h hform hstatus hout ho hgot hslag hattempt hd hsub hmin hmax hline halign hzero hfits hnone hmore hq,
    fun _ _ _ _ _ _ _ _ _ _ _ h hform hstatus hout ho hkind hgot hfail hladle _ hslag hattempt hd hsub hmin hmax hline hzero hall hnone
        hlast hq hcode hg hw =>
      exec_getResp_ends h hform hstatus hout ho hkind hgot hfail hladle hslag hattempt hd hsub hmin hmax hline hzero hall hnone hlast hq
        hcode hg hw,
    fun _ _ _ _ _ _ h hform hmin hmax hline hsub hzero hout ho hslag hattempt =>
      exec_getResp_stale h hform hmin hmax hline hsub hzero hout ho hslag hattempt⟩

end Sys2Proof.Machine
end

section
/-! The ring of a carrier's control messages (R448). -/
namespace Sys2Proof.Machine

variable {s t : State} {c q x i rel len : Nat} {msg : Bytes}

theorem State.car_setCar_same (s : State) (c : Nat) (v : CarrierSt) : (s.setCar c v).car c = v :=
  Tab.get_set_same CarrierSt.init s.cars c v

theorem State.car_setCar_ne (s : State) {c d : Nat} (v : CarrierSt) (h : d ≠ c) : (s.setCar c v).car d = s.car d :=
  Tab.get_set_ne CarrierSt.init CarrierSt.init s.cars v h

theorem State.cpEntry_of_sharesMemory (hmem : s.SharesMemory t) (hcar : t.car c = s.car c) (i : Nat) : t.cpEntry c i = s.cpEntry c i := by
  unfold State.cpEntry
  dsimp only
  rw [hcar, hmem.readMem]

/-- An entry of the ring that is in form and in time waits for its release. -/
theorem State.takeCp_good (hentry : s.cpEntry c i = (rel, len, msg)) (htime : s.clk.ns ≤ rel) (hmin : 8 ≤ len) (hmax : len ≤ 2000)
    (htype : beAt msg 1 1 = 2) (haxc : beAt msg 4 2 &&& (s.car c).fld 0x1A 2 = (s.car c).fld 0x18 2) :
    s.takeCp c i = (s.wr F.radioCpring_head (i + 1) c).setCar c { s.car c with cp := (s.car c).cp ++ [(rel, msg)] } := by
  unfold State.takeCp
  rw [hentry]
  dsimp only
  rw [if_neg (show ¬ rel < (s.wr F.radioCpring_head (i + 1) c).clk.ns from Nat.not_lt.mpr htime), decide_eq_false (Nat.not_lt.mpr hmin),
    decide_eq_false (Nat.not_lt.mpr hmax), decide_eq_false (not_not_intro htype), decide_eq_false (not_not_intro haxc),
    if_neg (by decide)]

theorem State.takeCp_late (hentry : s.cpEntry c i = (rel, len, msg)) (htime : rel < s.clk.ns) :
    s.takeCp c i = (s.wr F.radioCpring_head (i + 1) c).cnt F.fhRx2_txLate c := by
  unfold State.takeCp
  rw [hentry]
  exact if_pos htime

/-- A write of the ring's tail that passes one entry takes it. -/
theorem exec_cpringTailWrite_takes (hlive : s.live = true) (hc : c < 128) (hbound : s.flag F.radioCar_bound c = true)
    (hone : (bitsOf x 16 16 + 65536 - s.rd F.radioCpring_head c) % 65536 = 1) :
    exec (.cpringTailWrite 0 c x) s
      = .next ((s.wr F.radioCpring_tail (bitsOf x 16 16) c).takeCp c (s.rd F.radioCpring_head c)).settle := by
  have hbound' : (s.wr F.radioCpring_tail (bitsOf x 16 16) c).flag F.radioCar_bound c = true := by
    rw [State.flag, State.rd_wr_ne _ _ (by
      show 0x501000 + 0x40 * c ≠ 0x501020 + 0x40 * c
      omega)]
    exact hbound
  have hhead : s.rd F.radioCpring_head c < 65536 := Nat.mod_lt _ (by decide)
  rw [exec_cpringTailWrite, execCpringTailWrite, whenLive_live _ _ hlive, if_neg (Nat.not_le.mpr hc)]
  unfold State.writeCpTail
  dsimp only
  rw [hbound', hone, decide_eq_true rfl, Bool.true_or, if_neg (by decide), if_neg (by decide)]
  rw [List.range_one, List.foldl_cons, List.foldl_nil, Nat.add_zero, Nat.mod_eq_of_lt hhead]

theorem State.cpEntry_wr (s : State) (f : Field) (v j c i : Nat) : (s.wr f v j).cpEntry c i = s.cpEntry c i :=
  State.cpEntry_of_sharesMemory ⟨fun _ _ => rfl, fun _ _ _ => rfl, rfl, rfl, rfl, rfl⟩ rfl i

/-- The head has passed an entry whose index ended at the tail. -/
theorem State.rd_cpringHead_wr (s : State) (c v : Nat) :
    (s.wr F.radioCpring_head (v + 1) c).rd F.radioCpring_head c = (v + 1) % 65536 :=
  State.rd_wr_same s F.radioCpring_head (v + 1) c 0 (by decide)

theorem exec_cpringTailWrite_good (hlive : s.live = true) (hc : c < 128) (hbound : s.flag F.radioCar_bound c = true)
    (hone : (bitsOf x 16 16 + 65536 - s.rd F.radioCpring_head c) % 65536 = 1)
    (hentry : s.cpEntry c (s.rd F.radioCpring_head c) = (rel, len, msg)) (htime : s.clk.ns ≤ rel) (hmin : 8 ≤ len) (hmax : len ≤ 2000)
    (htype : beAt msg 1 1 = 2) (haxc : beAt msg 4 2 &&& (s.car c).fld 0x1A 2 = (s.car c).fld 0x18 2) :
    ∃ u : State, exec (.cpringTailWrite 0 c x) s = .next u.settle ∧ u.rd F.radioCpring_tail c = bitsOf x 16 16
      ∧ u.rd F.radioCpring_head c = (s.rd F.radioCpring_head c + 1) % 65536 ∧ u.car c = { s.car c with cp := (s.car c).cp ++ [(rel, msg)] }
      ∧ (∀ d, d ≠ c → u.car d = s.car d) ∧ RegsBut s u [regAddr .radioCpring c 0] ∧ u = { s with csr := u.csr, cars := u.cars } := by
  have htail : ∀ w : State, (w.wr F.radioCpring_tail (bitsOf x 16 16) c).rd F.radioCpring_tail c = bitsOf x 16 16 := fun w => by
    rw [State.rd_wr_same w _ _ c 0 (by decide)]
    exact Nat.mod_eq_of_lt (Nat.mod_lt _ (by decide))
  have hregs : RegsBut s ((s.wr F.radioCpring_tail (bitsOf x 16 16) c).wr F.radioCpring_head (s.rd F.radioCpring_head c + 1) c)
      [regAddr .radioCpring c 0] :=
    RegsBut.trans (State.regsBut_wr s F.radioCpring_tail _ c 0) (State.regsBut_wr _ F.radioCpring_head _ c 0)
  have htakes := State.takeCp_good (s := s.wr F.radioCpring_tail (bitsOf x 16 16) c) (c := c) ((State.cpEntry_wr ..).trans hentry) htime hmin
    hmax htype haxc
  refine ⟨_, (exec_cpringTailWrite_takes hlive hc hbound hone).trans (by rw [htakes]), ?_, ?_, ?_, ?_, ?_, rfl⟩
  · exact (State.rd_wr_beside (g := F.radioCpring_tail) (f := F.radioCpring_head) _ _ c 0 (by rfl) (by decide) (by decide)).trans (htail s)
  · exact State.rd_cpringHead_wr _ c _
  · exact State.car_setCar_same ..
  · exact fun d hd => State.car_setCar_ne _ _ hd
  · exact hregs

theorem exec_cpringTailWrite_late (hlive : s.live = true) (hc : c < 128) (hbound : s.flag F.radioCar_bound c = true)
    (hone : (bitsOf x 16 16 + 65536 - s.rd F.radioCpring_head c) % 65536 = 1)
    (hentry : s.cpEntry c (s.rd F.radioCpring_head c) = (rel, len, msg)) (htime : rel < s.clk.ns) :
    ∃ u : State, exec (.cpringTailWrite 0 c x) s = .next u.settle ∧ u.rd F.fhRx2_txLate c = satAdd 16 (s.rd F.fhRx2_txLate c) 1
      ∧ u.rd F.radioCpring_head c = (s.rd F.radioCpring_head c + 1) % 65536
      ∧ RegsBut s u [regAddr .radioCpring c 0, regAddr .fhRx2 c 0] ∧ u = { s with csr := u.csr } := by
  have haddr : regAddr F.fhRx2_txLate.reg c 0 ≠ regAddr F.radioCpring_head.reg c 0 := by
    show 0x501010 + 0x40 * c ≠ 0x501020 + 0x40 * c
    omega
  have hlate : ∀ (w : State) (f : Field) (y : Nat), f.reg = .radioCpring → (w.wr f y c).rd F.fhRx2_txLate c = w.rd F.fhRx2_txLate c :=
    fun w f y hf => State.rd_wr_ne w y (by rw [hf]; exact haddr)
  have htakes := State.takeCp_late (s := s.wr F.radioCpring_tail (bitsOf x 16 16) c) (c := c) ((State.cpEntry_wr ..).trans hentry) htime
  refine ⟨_, (exec_cpringTailWrite_takes hlive hc hbound hone).trans (by rw [htakes]), ?_, ?_, ?_, rfl⟩
  · rw [State.rd_cnt_same _ _ _ _ _ (by decide), hlate _ _ _ rfl, hlate _ _ _ rfl]
    rfl
  · rw [State.cnt, State.rd_wr_ne _ _ haddr.symm]
    exact State.rd_cpringHead_wr _ c _
  · exact (((RegsBut.refl s _).step (State.regsBut_wr _ F.radioCpring_tail _ c 0) List.mem_cons_self).step
      (State.regsBut_wr _ F.radioCpring_head _ c 0) List.mem_cons_self).step (State.regsBut_cnt _ F.fhRx2_txLate c 0 1)
      (List.mem_cons_of_mem _ List.mem_cons_self)

theorem csrSource_radioCpring (hc : c < 128) : csrSource (regAddr .radioCpring c 0) = 0x00A0 := by
  have haddr : regAddr .radioCpring c 0 = 0x501020 + 0x40 * c := rfl
  rw [csrSource, csrCluster, haddr, decide_eq_false (by omega), Bool.false_and, if_neg Bool.false_ne_true]
  rfl

/-- A requester without the right to the ring changes nothing, and its write is logged (R448). -/
theorem exec_cpringTailWrite_refused (hlive : s.live = true) (hc : c < 128)
    (hwho : q = 1 ∨ (2 ≤ q ∧ (q - 2) % 64 ≠ (s.car c).mould)) (hroom : s.logRoom 1) :
    ∃ u : State, exec (.cpringTailWrite q c x) s = .next u.settle ∧ u.lastEvt = some (0x0001, 0x00A0, 0xFF) ∧ u = { s with log := u.log } := by
  have hright : (decide (q = 0) || (s.flag F.radioCar_bound c && decide (2 ≤ q) && decide ((q - 2) % 64 = (s.car c).mould))) = false := by
    obtain hmesh | ⟨hmould, hother⟩ := hwho
    · rw [decide_eq_false (by omega : ¬ q = 0), decide_eq_false (by omega : ¬ 2 ≤ q), Bool.and_false, Bool.false_and, Bool.or_false]
    · rw [decide_eq_false (by omega : ¬ q = 0), decide_eq_false hother, Bool.and_false, Bool.or_false]
  refine ⟨s.csrLog 0x0001 (regAddr .radioCpring c 0) true q x, ?_, ?_, ?_⟩
  · rw [exec_cpringTailWrite, execCpringTailWrite, whenLive_live _ _ hlive, if_neg (Nat.not_le.mpr hc)]
    unfold State.writeCpTail
    dsimp only
    rw [hright]
    rfl
  · rw [State.csrLog_of_room _ _ _ _ _ hroom, csrSource_radioCpring hc]
    rfl
  · rw [State.csrLog_of_room _ _ _ _ _ hroom]

end Sys2Proof.Machine
end

section
/-! What a carrier sends: its frames in the queues, control messages at their release, and downlink symbols (R386, R448 to R450). -/
namespace Sys2Proof.Machine

variable {s t w : State} {v : CarrierSt} {c k n q off ty until_ key dt : Nat} {b : Bytes}

theorem CarrierSt.ether_of_desc {v z : CarrierSt} (h : z.desc = v.desc) (ty : Nat) (pay : Bytes) : z.ether ty pay = v.ether ty pay := by
  unfold CarrierSt.ether CarrierSt.sub CarrierSt.ap CarrierSt.lane CarrierSt.flag CarrierSt.fld
  rw [h]

/-- A carrier's frames follow from its descriptor. -/
theorem State.carFrame_of_desc (h : (t.car c).desc = (s.car c).desc) (ty until_ : Nat) (pay : Bytes) :
    t.carFrame c ty until_ pay = s.carFrame c ty until_ pay := by
  unfold State.carFrame CarrierSt.mould CarrierSt.fld
  rw [CarrierSt.ether_of_desc h, h]

theorem State.carQueue_of_desc (h : (t.car c).desc = (s.car c).desc) (off : Nat) : t.carQueue c off = s.carQueue c off := by
  unfold State.carQueue CarrierSt.ap CarrierSt.fld
  rw [h]

/-- A frame of a carrier that is not muted joins the queue that has room for it (R386). -/
theorem State.sendCar_enqueues (hmuted : s.flag F.radioCar_muted c = false)
    (hroom : s.hasRoom (s.carQueue c off) (s.carFrame c ty until_ b).len = true) :
    s.sendCar c off ty until_ b = s.enqueue (s.carQueue c off) (s.carFrame c ty until_ b) := by
  unfold State.sendCar
  exact (if_neg (by rw [hmuted]; exact Bool.false_ne_true)).trans (if_pos hroom)

theorem State.car_nextDl_same (s : State) (c key : Nat) : (s.nextDl c key).2.car c
    = { s.car c with seqDl := Tab.set 0 (s.car c).seqDl key ((Tab.get 0 (s.car c).seqDl key + 1) % 65536) } :=
  State.car_setCar_same ..

theorem State.car_nextDl_ne (s : State) {c d : Nat} (key : Nat) (h : d ≠ c) : (s.nextDl c key).2.car d = s.car d :=
  State.car_setCar_ne _ _ h

/-- s after a carrier sends its next message of a stream into queue q. -/
def State.sendsNext (s : State) (c key q : Nat) (f : EgFrame) : State := (s.nextDl c key).2.enqueue q f

theorem State.sendsNext_spec (s : State) (c key q : Nat) (f : EgFrame) :
    ((s.sendsNext c key q f).eq q).frames = (s.eq q).frames ++ [f] ∧ (∀ j, j ≠ q → (s.sendsNext c key q f).eq j = s.eq j)
      ∧ (s.sendsNext c key q f).car c
        = { s.car c with seqDl := Tab.set 0 (s.car c).seqDl key ((Tab.get 0 (s.car c).seqDl key + 1) % 65536) }
      ∧ (∀ d, d ≠ c → (s.sendsNext c key q f).car d = s.car d)
      ∧ s.sendsNext c key q f = { s with cars := (s.sendsNext c key q f).cars, egr := (s.sendsNext c key q f).egr } := by
  refine ⟨?_, fun j hj => ?_, State.car_nextDl_same s c key, fun d hd => State.car_nextDl_ne s key hd, rfl⟩
  · rw [State.sendsNext, State.eq_enqueue, if_pos rfl]
    rfl
  · rw [State.sendsNext, State.eq_enqueue, if_neg hj]
    rfl

theorem State.nextDl_sendCar (hmuted : w.flag F.radioCar_muted c = false) (hq : q = w.carQueue c off)
    (hroom : w.hasRoom q (w.carFrame c ty until_ b).len = true) :
    (w.nextDl c key).2.sendCar c off ty until_ b = w.sendsNext c key q (w.carFrame c ty until_ b) := by
  have hdesc : ((w.nextDl c key).2.car c).desc = (w.car c).desc := by rw [State.car_nextDl_same]
  rw [State.sendCar_enqueues (s := (w.nextDl c key).2) hmuted (by rw [State.carQueue_of_desc hdesc, State.carFrame_of_desc hdesc, ← hq]; exact hroom),
    State.carQueue_of_desc hdesc, State.carFrame_of_desc hdesc, ← hq]
  rfl

theorem exec_cplaneRelease_sends {rel : Nat} {msg : Bytes} {r : List (Nat × Bytes)} (hlive : s.live = true) (hc : c < 128) (hw : w = s.pass dt)
    (hcp : (s.car c).cp = (rel, msg) :: r) (htime : rel ≤ (s.pass dt).clk.ns) (hmuted : s.flag F.radioCar_muted c = false)
    (hq : q = s.carQueue c 0x34) (hkey : key = 2 * (beAt msg 4 2 % 2 ^ (s.car c).fld 0x1C 1) + 1)
    (hb : b = msg.take 2 ++ toBe 2 (msg.length - 4) ++ slice msg 4 2 ++ toBe 1 (Tab.get 0 (s.car c).seqDl key % 256) ++ toBe 1 0x80 ++ msg.drop 8)
    (hroom : s.hasRoom q (s.carFrame c 0xAEFE 0 b).len = true) :
    ∃ u : State, exec (.cplaneRelease dt c) s = .next u.settle ∧ (u.car c).cp = r ∧ (u.eq q).frames = (s.eq q).frames ++ [s.carFrame c 0xAEFE 0 b]
      ∧ Tab.get 0 (u.car c).seqDl key = (Tab.get 0 (s.car c).seqDl key + 1) % 65536
      ∧ (∀ k, k ≠ q → u.eq k = s.eq k) ∧ (∀ d, d ≠ c → u.car d = s.car d) ∧ u = { w with cars := u.cars, egr := u.egr } := by
  obtain ⟨t, ht⟩ : ∃ t, t = w.setCar c { s.car c with cp := r } := ⟨_, rfl⟩
  have hcar : t.car c = { s.car c with cp := r } := by rw [ht, State.car_setCar_same]
  have hother : ∀ d, d ≠ c → t.car d = s.car d := fun d hd => by
    rw [ht, State.car_setCar_ne _ _ hd, hw]
    rfl
  have hdesc : (t.car c).desc = (s.car c).desc := by rw [hcar]
  have hframe : t = { w with cars := t.cars } := by
    rw [ht]
    rfl
  have heq : ∀ j, t.eq j = s.eq j := fun j => by
    rw [ht, hw]
    rfl
  have hsend : (t.nextDl c key).2.sendCar c 0x34 0xAEFE 0 b = t.sendsNext c key q (s.carFrame c 0xAEFE 0 b) := by
    rw [← State.carFrame_of_desc hdesc]
    refine State.nextDl_sendCar ?_ (by rw [State.carQueue_of_desc hdesc, hq]) ?_
    · rw [hframe, hw]
      exact hmuted
    · rw [State.carFrame_of_desc hdesc, hframe, hw]
      exact hroom
  have hexec : exec (.cplaneRelease dt c) s = .next (t.sendsNext c key q (s.carFrame c 0xAEFE 0 b)).settle := by
    rw [exec_cplaneRelease, execCplaneRelease, whenLive_live _ _ hlive]
    dsimp only
    rw [show ((s.pass dt).car c).cp = (rel, msg) :: r from hcp]
    dsimp only
    rw [decide_eq_false (Nat.not_le.mpr hc), decide_eq_false (Nat.not_lt.mpr htime), if_neg (by decide), ← hsend, hb, hkey, ht, hw]
    congr 4
    rw [State.nextDl, State.car_setCar_same]
    rfl
  obtain ⟨hjoins, hkeeps, hnext, hcars, hrest⟩ := t.sendsNext_spec c key q (s.carFrame c 0xAEFE 0 b)
  refine ⟨_, hexec, ?_, ?_, ?_, fun j hj => ?_, fun d hd => ?_, ?_⟩
  · rw [hnext, hcar]
  · rw [hjoins, heq]
  · rw [hnext, hcar]
    exact Tab.get_set_same ..
  · rw [hkeeps j hj, heq]
  · rw [hcars d hd, hother d hd]
  · rw [hrest, hframe]

/-- The carrier with its control word of slot k, which is read with symbol 0 (R449). -/
def CarrierSt.withWord (v : CarrierSt) (k n word : Nat) : CarrierSt :=
  if n = 0 then { v with dlWord := Tab.set 0 v.dlWord (k % 2) word } else v

theorem CarrierSt.withWord_eq (v : CarrierSt) (k n word : Nat) : v.withWord k n word = { v with dlWord := (v.withWord k n word).dlWord } := by
  unfold CarrierSt.withWord
  split <;> rfl

theorem CarrierSt.dlWordOf_withWord (v : CarrierSt) (k n word : Nat) :
    (v.withWord k n word).dlWordOf k = if n = 0 then word else v.dlWordOf k := by
  unfold CarrierSt.withWord
  split
  · exact Tab.get_set_same ..
  · rfl

/-- The streams of a symbol as they are read from the mould's memory (R449). -/
def State.dlRead (s : State) (v : CarrierSt) (k n word : Nat) : List (Nat × Bytes) :=
  (bitList v.dls (bitsOf word 16 16)).map (fun st =>
    (st, s.readMem v.mould (v.fld 0x48 8 + symKey k n * (v.dls * v.dlLen) + st * v.dlLen) v.dlLen))

theorem exec_dlSymbolRead_reads {x : Nat} (hlive : s.live = true) (hc : c < 128) (hn : n < 14) (hbound : s.flag F.radioCar_bound c = true)
    (hv : v = s.car c) (hw : w = s.pass dt) (hopen : v.t96 k n ≤ w.now96 + 96 * (v.fld 0x30 4 + 10000))
    (hclosed : w.now96 + 96 * v.fld 0x30 4 < v.t96 k n)
    (hx : x = (if n = 0 then leNat (s.readMem v.mould (v.fld 0x50 8 + 1792 + 8 * (k % 2)) 8) else v.dlWordOf k)) :
    ∃ u : State, exec (.dlSymbolRead dt c k n) s = .next u.settle
      ∧ Tab.get [] (u.car c).dl (14 * k + n) = (if bit x n then (bitList v.dls (bitsOf x 16 16)).map (fun st =>
        (st, s.readMem v.mould (v.fld 0x48 8 + symKey k n * (v.dls * v.dlLen) + st * v.dlLen) v.dlLen)) else Tab.get [] v.dl (14 * k + n))
      ∧ (u.car c).dlWordOf k = x ∧ u.car c = { v with dl := (u.car c).dl, dlWord := (u.car c).dlWord }
      ∧ (∀ d, d ≠ c → u.car d = s.car d) ∧ u = { w with cars := u.cars } := by
  have hmem : ∀ m a l, (s.pass dt).readMem m a l = s.readMem m a l :=
    State.SharesMemory.readMem ⟨fun _ _ => rfl, fun _ _ _ => rfl, rfl, rfl, rfl, rfl⟩
  obtain ⟨z, hz⟩ : ∃ z, z = v.withWord k n (leNat (s.readMem v.mould (v.fld 0x50 8 + 1792 + 8 * (k % 2)) 8)) := ⟨_, rfl⟩
  have hword : z.dlWordOf k = x := by rw [hz, CarrierSt.dlWordOf_withWord, hx]
  have hkeeps : z = { v with dlWord := z.dlWord } := by
    rw [hz]
    exact CarrierSt.withWord_eq ..
  have hread : s.dlRead z k n x = s.dlRead v k n x := by
    rw [hkeeps]
    rfl
  have hexec : exec (.dlSymbolRead dt c k n) s = .next (w.setCar c { z with
      dl := if bit x n then Tab.set [] z.dl (14 * k + n) (s.dlRead z k n x) else z.dl }).settle := by
    rw [exec_dlSymbolRead, execDlSymbolRead, whenLive_live _ _ hlive]
    dsimp only
    rw [show (s.pass dt).car c = v from hv.symm, show (s.pass dt).flag F.radioCar_bound c = true from hbound, ← hw,
      decide_eq_false (Nat.not_le.mpr hc), decide_eq_false (Nat.not_le.mpr hn), decide_eq_false (Nat.not_lt.mpr hopen),
      decide_eq_false (Nat.not_le.mpr hclosed), if_neg (by decide), hw]
    simp only [hmem]
    rw [← CarrierSt.withWord, ← hz, hword]
    rfl
  refine ⟨_, hexec, ?_, ?_, ?_, fun d hd => ?_, rfl⟩
  · rw [State.car_setCar_same]
    dsimp only
    split
    · rw [Tab.get_set_same, hread]
      rfl
    · rw [hkeeps]
  · rw [State.car_setCar_same]
    exact hword
  · rw [State.car_setCar_same, hkeeps]
  · rw [State.car_setCar_ne _ _ hd, hw]
    rfl

/-- One stream whose PRBs fit a frame is sent as one frame (R450). -/
theorem State.queueFd_single {st : Nat} {d : Bytes} {prbs : List Bytes} (hdl : Tab.get [] (w.car c).dl (14 * k + n) = [(st, d)])
    (hprbs : prbs = (chunks 24 (dlValues d)).map (prbBytes (w.car c).iqw)) (hsome : 0 < prbs.length) (hfit : prbs.length ≤ (w.car c).prbMax) :
    w.queueFd c k n until_ = (w.nextDl c (2 * st)).2.sendCar c 0x36 0xAEFE until_
      ((w.car c).uplane (Tab.get 0 (w.car c).seqDl (2 * st)) k n st 0 prbs) := by
  have hone : cdiv prbs.length (w.car c).prbMax = 1 := by
    rw [cdiv, if_neg (by omega)]
    exact Nat.div_eq_of_lt_le (by omega) (by omega)
  unfold State.queueFd
  dsimp only
  rw [hdl, List.foldl_cons, List.foldl_nil]
  dsimp only
  rw [← hprbs, hone, List.range_one, List.foldl_cons, List.foldl_nil, Nat.mul_zero, List.drop_zero, List.take_of_length_le hfit]
  rfl

theorem exec_dlFrameQueue_sends {st : Nat} {d b : Bytes} (hlive : s.live = true) (hc : c < 128) (hn : n < 14)
    (hbound : s.flag F.radioCar_bound c = true) (hv : v = s.car c) (hw : w = s.pass dt) (hsplit : v.split ≠ 2)
    (hopen : v.t96 k n ≤ w.now96 + 96 * v.fld 0x30 4) (hclosed : w.now96 + 96 * v.fld 0x2C 4 < v.t96 k n)
    (huntil : until_ = (v.t96 k n - 96 * v.fld 0x2C 4) / 96) (hdl : Tab.get [] v.dl (14 * k + n) = [(st, d)])
    (hsome : 0 < (chunks 24 (dlValues d)).length) (hfit : (chunks 24 (dlValues d)).length ≤ v.prbMax)
    (hmuted : s.flag F.radioCar_muted c = false) (hq : q = s.carQueue c 0x36)
    (hb : b = v.uplane (Tab.get 0 v.seqDl (2 * st)) k n st 0 ((chunks 24 (dlValues d)).map (prbBytes v.iqw)))
    (hroom : s.hasRoom q (s.carFrame c 0xAEFE until_ b).len = true) :
    ∃ u : State, exec (.dlFrameQueue dt c k n) s = .next u.settle ∧ (u.eq q).frames = (s.eq q).frames ++ [s.carFrame c 0xAEFE until_ b]
      ∧ Tab.get 0 (u.car c).seqDl (2 * st) = (Tab.get 0 v.seqDl (2 * st) + 1) % 65536
      ∧ (u.car c).dl = v.dl.filter (fun e => decide (14 * k + n < e.1)) ∧ (∀ j, j ≠ q → u.eq j = s.eq j) ∧ (∀ d, d ≠ c → u.car d = s.car d)
      ∧ u = { w with cars := u.cars, egr := u.egr } := by
  have hcar : w.car c = v := by
    rw [hw, hv]
    rfl
  have hsend : w.queueFd c k n until_ = w.sendsNext c (2 * st) q (w.carFrame c 0xAEFE until_ b) := by
    rw [State.queueFd_single (by rw [hcar]; exact hdl) rfl (by rw [List.length_map]; exact hsome)
      (by rw [List.length_map, hcar]; exact hfit), hcar, ← hb]
    refine State.nextDl_sendCar ?_ ?_ ?_
    · rw [hw]
      exact hmuted
    · rw [hw]
      exact hq
    · rw [hw]
      exact hroom
  have hframe : w.carFrame c 0xAEFE until_ b = s.carFrame c 0xAEFE until_ b := by
    rw [hw]
    rfl
  obtain ⟨t, ht⟩ : ∃ t, t = w.sendsNext c (2 * st) q (s.carFrame c 0xAEFE until_ b) := ⟨_, rfl⟩
  obtain ⟨hjoins, hkeeps, hnext, hcars, hrest⟩ := w.sendsNext_spec c (2 * st) q (s.carFrame c 0xAEFE until_ b)
  rw [← ht] at hjoins hkeeps hnext hcars hrest
  rw [hcar] at hnext
  have hexec : exec (.dlFrameQueue dt c k n) s = .next (t.setCar c { t.car c with
      dl := (t.car c).dl.filter (fun e => decide (14 * k + n < e.1 + 1) && (decide ((t.car c).split = 2) || decide (e.1 ≠ 14 * k + n))) }).settle := by
    rw [exec_dlFrameQueue, execDlFrameQueue, whenLive_live _ _ hlive]
    dsimp only
    rw [show (s.pass dt).car c = v from hv.symm, show (s.pass dt).flag F.radioCar_bound c = true from hbound, ← hw,
      decide_eq_false (Nat.not_le.mpr hc), decide_eq_false (Nat.not_le.mpr hn), decide_eq_false (Nat.not_lt.mpr hopen),
      decide_eq_false (Nat.not_le.mpr hclosed), if_neg (by decide), if_neg hsplit, ← huntil, hsend, hframe, ← ht]
  have hsplit' : (t.car c).split ≠ 2 := by
    rw [hnext]
    exact hsplit
  refine ⟨_, hexec, ?_, ?_, ?_, fun j hj => ?_, fun e he => ?_, ?_⟩
  · exact hjoins.trans (by rw [hw]; rfl)
  · rw [State.car_setCar_same, hnext]
    exact Tab.get_set_same ..
  · rw [State.car_setCar_same]
    dsimp only
    rw [decide_eq_false hsplit', hnext]
    refine List.filter_congr fun e _ => ?_
    rw [Bool.false_or, ← Bool.decide_and]
    exact decide_eq_decide.mpr (by omega)
  · exact (hkeeps j hj).trans (by rw [hw]; rfl)
  · rw [State.car_setCar_ne _ _ he, hcars e he, hw]
    rfl
  · rw [hrest]
    rfl

end Sys2Proof.Machine
end

section
/-! The removal of a carrier's queued frames, at the end of their window and at muting (R449, R465). -/
namespace Sys2Proof.Machine

variable {s : State} {c dt now : Nat}

/-- Keys above a bound that the table's keys rise from. -/
theorem Tab.lt_of_sorted {α : Type} {t : Tab α} {b : Nat} {e : Nat × α} (h : Tab.sortedFrom (some b) t = true) (he : e ∈ t) : b < e.1 := by
  induction t generalizing b with
  | nil => exact absurd he List.not_mem_nil
  | cons x r ih =>
    obtain ⟨hhead, hrest⟩ := Bool.and_eq_true_iff.mp h
    have hlt : b < x.1 := of_decide_eq_true hhead
    obtain rfl | hr := List.mem_cons.mp he
    · exact hlt
    · exact hlt.trans (ih hrest hr)

/-- A sorted table holds every entry under its key. -/
theorem Tab.find_of_mem {α : Type} {t : Tab α} {e : Nat × α} (h : Tab.sortedFrom none t = true) (he : e ∈ t) : Tab.find t e.1 = some e.2 := by
  induction t with
  | nil => exact absurd he List.not_mem_nil
  | cons x r ih =>
    obtain rfl | hr := List.mem_cons.mp he
    · exact if_pos rfl
    · exact (if_neg (Nat.ne_of_lt (Tab.lt_of_sorted h hr))).trans (ih (Tab.sorted_none h) hr)

theorem Tab.mem_of_find {α : Type} {t : Tab α} {k : Nat} {v : α} (h : Tab.find t k = some v) : (k, v) ∈ t := by
  induction t with
  | nil => cases h
  | cons x r ih =>
    obtain ⟨a, y⟩ := x
    by_cases ha : a = k
    · rw [Tab.find, if_pos ha, Option.some.injEq] at h
      rw [ha, h]
      exact List.mem_cons_self
    · rw [Tab.find, if_neg ha] at h
      exact List.mem_cons_of_mem _ (ih h)

/-- Entries that count nothing may be left out of a sum. -/
theorem sumNat_filter {α : Type} (l : List α) (p : α → Bool) (g : α → Nat) (h : ∀ e, p e = false → g e = 0) :
    sumNat ((l.filter p).map g) = sumNat (l.map g) := by
  unfold sumNat
  rw [← List.sum_eq_foldl, ← List.sum_eq_foldl]
  induction l with
  | nil => rfl
  | cons e r ih =>
    rw [List.map_cons, List.sum_cons, ← ih]
    cases hp : p e with
    | true => rw [List.filter_cons_of_pos hp, List.map_cons, List.sum_cons]
    | false => rw [List.filter_cons_of_neg (by rw [hp]; exact Bool.false_ne_true), h e hp, Nat.zero_add]

theorem State.eq_setEq (s : State) (q k : Nat) (v : EgQueue) : (s.setEq q v).eq k = if k = q then v else s.eq k :=
  Tab.get_set EgQueue.init s.egr.qs q k v

/-- An entry of the sorted table of queues is the queue of its key. -/
theorem State.eq_of_mem {e : Nat × EgQueue} (h : Tab.sortedFrom none s.egr.qs = true) (he : e ∈ s.egr.qs) : s.eq e.1 = e.2 := by
  rw [State.eq, Tab.get, Tab.find_of_mem h he]
  rfl

/-- A queue with a frame stands in the table of queues. -/
theorem State.mem_of_frame {q : Nat} {f : EgFrame} (h : f ∈ (s.eq q).frames) : (q, s.eq q) ∈ s.egr.qs := by
  refine Tab.mem_of_find ?_
  cases hfind : Tab.find s.egr.qs q with
  | none =>
    rw [State.eq, Tab.get, hfind] at h
    exact absurd h List.not_mem_nil
  | some v =>
    rw [State.eq, Tab.get, hfind]
    rfl

/-- Queues that are replaced in turn, each by what g makes of it. -/
theorem State.eq_foldl_setEq (g : EgQueue → EgQueue) (l : List (Nat × EgQueue)) (h : ∀ e ∈ l, s.eq e.1 = e.2) (u : State) (q : Nat) :
    (l.foldl (fun u e => u.setEq e.1 (g e.2)) u).eq q = if ∃ e ∈ l, e.1 = q then g (s.eq q) else u.eq q := by
  induction l generalizing u with
  | nil => simp
  | cons x r ih =>
    rw [List.foldl_cons, ih (fun e he => h e (List.mem_cons_of_mem _ he)), State.eq_setEq]
    have hx := h x List.mem_cons_self
    by_cases hr : ∃ e ∈ r, e.1 = q
    · obtain ⟨e, he, hq⟩ := hr
      rw [if_pos ⟨e, he, hq⟩, if_pos ⟨e, List.mem_cons_of_mem _ he, hq⟩]
    · rw [if_neg hr]
      by_cases hq : q = x.1
      · rw [if_pos hq, if_pos ⟨x, List.mem_cons_self, hq.symm⟩, hq, hx]
      · rw [if_neg hq, if_neg]
        rintro ⟨e, he, hkey⟩
        obtain rfl | her := List.mem_cons.mp he
        · exact hq hkey.symm
        · exact hr ⟨e, her, hkey⟩

theorem State.csr_logEvt_of_room (s : State) (code source m d : Nat) (h : s.logRoom 1) : (s.logEvt code source m d).csr = s.csr := by
  rw [(State.logEvt_pushes code source m d h).2]

/-- A queue without the frames that a removal hits. -/
def EgQueue.without (hit : EgFrame → Bool) (v : EgQueue) : EgQueue := { v with frames := v.frames.filter (fun f => !hit f) }

theorem State.dropCarFrames_eq (s : State) (c : Nat) {p hit : EgFrame → Bool} (hhit : ∀ f, (decide (f.car = c + 1) && p f) = hit f) :
    s.dropCarFrames c p = (sumNat ((s.egr.qs.filter (fun e => e.2.frames.any hit)).map (fun e => (e.2.frames.filter hit).length)),
      (s.egr.qs.filter (fun e => e.2.frames.any hit)).foldl (fun u e => u.setEq e.1 (EgQueue.without hit e.2)) s) := by
  obtain rfl : (fun f => decide (f.car = c + 1) && p f) = hit := funext hhit
  rfl

/-- The frames of a carrier that a removal names leave their queues, and are counted. -/
theorem State.dropCarFrames_spec (hsorted : Tab.sortedFrom none s.egr.qs = true) (c : Nat) {p hit : EgFrame → Bool}
    (hhit : ∀ f, (decide (f.car = c + 1) && p f) = hit f) :
    (∀ q, ((s.dropCarFrames c p).2.eq q).frames = (s.eq q).frames.filter (fun f => !hit f))
      ∧ (s.dropCarFrames c p).1 = sumNat (s.egr.qs.map (fun e => (e.2.frames.filter hit).length))
      ∧ (s.dropCarFrames c p).2 = { s with egr := (s.dropCarFrames c p).2.egr } := by
  rw [State.dropCarFrames_eq s c hhit]
  refine ⟨fun q => ?_, ?_, ?_⟩
  · rw [State.eq_foldl_setEq (EgQueue.without hit) _ (fun e he => State.eq_of_mem hsorted (List.mem_of_mem_filter he))]
    split
    · rfl
    · next hno =>
      refine (List.filter_eq_self.mpr fun f hf => ?_).symm
      by_contra hhits
      exact hno ⟨_, List.mem_filter.mpr ⟨State.mem_of_frame hf, List.any_eq_true.mpr ⟨f, hf, by simpa using hhits⟩⟩, rfl⟩
  · refine sumNat_filter _ _ _ fun e he => ?_
    rw [List.length_eq_zero_iff, List.filter_eq_nil_iff]
    exact List.any_eq_false.mp he
  · exact List.foldlRecOn _ _ (motive := fun u : State => u = { s with egr := u.egr }) rfl fun u hu e _ => by
      rw [hu]
      rfl

theorem exec_dlFrameExpiry_removes (hlive : s.live = true) (hc : c < 128) (hsorted : Tab.sortedFrom none s.egr.qs = true)
    (hnow : now = (s.pass dt).clk.ns) :
    ∃ u : State, exec (.dlFrameExpiry dt c) s = .next u.settle ∧ (∀ q, (u.eq q).frames = (s.eq q).frames.filter (fun f => !f.past c now))
      ∧ u.rd F.fhRx2_txLate c = satAdd 16 (s.rd F.fhRx2_txLate c) (sumNat (s.egr.qs.map (fun e => (e.2.frames.filter (EgFrame.past c now)).length)))
      ∧ RegsBut s u [regAddr .fhRx2 c 0] ∧ u = { s.pass dt with csr := u.csr, egr := u.egr } := by
  obtain ⟨hframes, hcount, hrest⟩ := State.dropCarFrames_spec (s := s.pass dt) hsorted c
    (p := fun f => decide (f.until_ ≠ 0) && decide (f.until_ ≤ (s.pass dt).clk.ns)) (hit := EgFrame.past c now) fun f => by
      rw [EgFrame.past, hnow, Bool.and_assoc]
  obtain ⟨n, t, ht⟩ : ∃ n t, (n, t) = (s.pass dt).dropCarFrames c (fun f => decide (f.until_ ≠ 0) && decide (f.until_ ≤ (s.pass dt).clk.ns)) :=
    ⟨_, _, rfl⟩
  rw [← ht] at hframes hcount hrest
  have hcsr : t.csr = s.csr := by
    rw [show t = _ from hrest]
    rfl
  refine ⟨t.cnt F.fhRx2_txLate c 0 n, ?_, hframes, ?_, ?_, ?_⟩
  · rw [exec_dlFrameExpiry, execDlFrameExpiry, whenLive_live _ _ hlive]
    dsimp only
    rw [if_neg (Nat.not_le.mpr hc), ← ht]
  · rw [State.rd_cnt_same _ _ _ _ _ (by decide), State.rd_of_csr hcsr, show n = _ from hcount]
    rfl
  · exact (State.regsBut_of_csr hcsr _).trans (State.regsBut_cnt t F.fhRx2_txLate c 0 n)
  · rw [show t = _ from hrest]
    rfl

theorem exec_carrierMute_mutes (hlive : s.live = true) (hc : c < 128) (hbound : s.flag F.radioCar_bound c = true)
    (hmuted : s.flag F.radioCar_muted c = false) (hmust : (s.pass dt).mustMute c = true) (hsorted : Tab.sortedFrom none s.egr.qs = true)
    (hroom : s.logRoom 1) :
    ∃ u : State, exec (.carrierMute dt c) s = .next u.settle ∧ u.rd F.radioCar_muted c = 1 ∧ u.rd F.radioCar_mutes c = satAdd 32 (s.rd F.radioCar_mutes c) 1
      ∧ (∀ q, (u.eq q).frames = (s.eq q).frames.filter (fun f => decide (f.car ≠ c + 1)))
      ∧ u.lastEvt = some (0x1501, 0x0050 + (s.car c).ap, (s.car c).mould) ∧ RegsBut s u [regAddr .radioCar c 0, regAddr .fhRx2 c 0]
      ∧ u = { s.pass dt with csr := u.csr, egr := u.egr, log := u.log } := by
  obtain ⟨hframes, -, hrest⟩ := State.dropCarFrames_spec (s := s.pass dt) hsorted c (p := fun _ => true)
    (hit := fun f => decide (f.car = c + 1)) fun f => Bool.and_true _
  obtain ⟨n, t, ht⟩ : ∃ n t, (n, t) = (s.pass dt).dropCarFrames c (fun _ => true) := ⟨_, _, rfl⟩
  rw [← ht] at hframes hrest
  have hcsr : t.csr = s.csr := by
    rw [show t = _ from hrest]
    rfl
  obtain ⟨v, hv⟩ : ∃ v, v = ((t.cnt F.fhRx2_txLate c 0 n).wr F.radioCar_muted 1 c).cnt F.radioCar_mutes c := ⟨_, rfl⟩
  have hvrest : v = { t with csr := v.csr } := by
    rw [hv]
    rfl
  have hcar : v.car c = s.car c := by
    rw [hvrest, show t = _ from hrest]
    rfl
  have hvroom : v.logRoom 1 := by
    rw [hvrest, show t = _ from hrest]
    exact hroom
  obtain ⟨hlast, hlog⟩ := State.logEvt_pushes 0x1501 (0x0050 + (s.car c).ap) (s.car c).mould (c % 2 ^ 128) hvroom
  have hlogcsr := State.csr_logEvt_of_room v 0x1501 (0x0050 + (s.car c).ap) (s.car c).mould (c % 2 ^ 128) hvroom
  have haddr : regAddr F.radioCar_mutes.reg c 0 ≠ regAddr F.fhRx2_txLate.reg c 0 := by
    show 0x501000 + 0x40 * c ≠ 0x501010 + 0x40 * c
    omega
  refine ⟨v.logEvt 0x1501 (0x0050 + (s.car c).ap) (s.car c).mould (c % 2 ^ 128), ?_, ?_, ?_, fun q => ?_, hlast, ?_, ?_⟩
  · rw [exec_carrierMute, execCarrierMute, whenLive_live _ _ hlive]
    dsimp only
    rw [show (s.pass dt).flag F.radioCar_bound c = true from hbound, show (s.pass dt).flag F.radioCar_muted c = false from hmuted, hmust,
      decide_eq_false (Nat.not_le.mpr hc), if_neg (by decide), ← ht]
    dsimp only
    rw [← hv, hcar]
    rfl
  · rw [State.rd_of_csr hlogcsr, hv, State.cnt, State.rd_wr_beside _ _ _ _ (by rfl) (by decide) (by decide), State.rd_wr_same _ _ _ _ _ (by decide)]
    rfl
  · rw [State.rd_of_csr hlogcsr, hv, State.rd_cnt_same _ _ _ _ _ (by decide), State.rd_wr_beside _ _ _ _ (by rfl) (by decide) (by decide), State.cnt,
      State.rd_wr_ne _ _ haddr, State.rd_of_csr hcsr]
    rfl
  · rw [hlog, hvrest]
    exact (hframes q).trans (List.filter_congr fun f _ => (decide_not).symm)
  · have hv' : RegsBut s v [regAddr .radioCar c 0, regAddr .fhRx2 c 0] := by
      rw [hv]
      exact (((State.regsBut_of_csr hcsr _).step (State.regsBut_cnt t F.fhRx2_txLate c 0 n) (List.mem_cons_of_mem _ List.mem_cons_self)).step
        (State.regsBut_wr _ F.radioCar_muted 1 c 0) List.mem_cons_self).step (State.regsBut_cnt _ F.radioCar_mutes c 0 1) List.mem_cons_self
    exact hv'.trans (State.regsBut_of_csr hlogcsr _)
  · rw [hlog, hvrest, show t = _ from hrest]

/-- A carrier is unmuted at the first radio frame after the time is good (R465). -/
theorem exec_carrierUnmute_unmutes {v : CarrierSt} (hlive : s.live = true) (hc : c < 128) (hbound : s.flag F.radioCar_bound c = true)
    (hmuted : s.flag F.radioCar_muted c = true) (hv : v = s.car c)
    (hgood : s.rd F.timeStatus_state = 2 ∨ (s.rd F.timeStatus_state = 0 ∧ v.flag 3 = true))
    (hframe : s.tim.lockNs + (10000000 - (s.tim.lockNs + 10000000 - v.off) % 10000000) ≤ (s.pass dt).clk.ns) (hroom : s.logRoom 1) :
    ∃ u : State, exec (.carrierUnmute dt c) s = .next u.settle ∧ u.rd F.radioCar_muted c = 0 ∧ u.lastEvt = some (0x1502, 0x0050 + v.ap, v.mould)
      ∧ RegsBut s u [regAddr .radioCar c 0] ∧ u = { s.pass dt with csr := u.csr, log := u.log } := by
  have hok : (decide (s.rd F.timeStatus_state = 2) || (decide (s.rd F.timeStatus_state = 0) && v.flag 3)) = true := by
    obtain hlocked | ⟨hfree, hflag⟩ := hgood
    · rw [decide_eq_true hlocked, Bool.true_or]
    · rw [decide_eq_true hfree, hflag, Bool.true_and, Bool.or_true]
  obtain ⟨t, ht⟩ : ∃ t, t = (s.pass dt).wr F.radioCar_muted 0 c := ⟨_, rfl⟩
  have htrest : t = { s.pass dt with csr := t.csr } := by
    rw [ht]
    rfl
  have htroom : t.logRoom 1 := by
    rw [htrest]
    exact hroom
  obtain ⟨hlast, hlog⟩ := State.logEvt_pushes 0x1502 (0x0050 + v.ap) v.mould (c % 2 ^ 128) htroom
  have hlogcsr := State.csr_logEvt_of_room t 0x1502 (0x0050 + v.ap) v.mould (c % 2 ^ 128) htroom
  refine ⟨t.logEvt 0x1502 (0x0050 + v.ap) v.mould (c % 2 ^ 128), ?_, ?_, hlast, ?_, ?_⟩
  · rw [exec_carrierUnmute, execCarrierUnmute, whenLive_live _ _ hlive]
    dsimp only
    rw [show (s.pass dt).car c = v from hv.symm, show (s.pass dt).flag F.radioCar_bound c = true from hbound,
      show (s.pass dt).flag F.radioCar_muted c = true from hmuted, show (s.pass dt).rd F.timeStatus_state = s.rd F.timeStatus_state from rfl,
      show (s.pass dt).tim = s.tim from rfl, hok, decide_eq_false (Nat.not_le.mpr hc), decide_eq_false (Nat.not_lt.mpr hframe),
      if_neg (by decide), ← ht]
    rfl
  · rw [State.rd_of_csr hlogcsr, ht, State.rd_wr_same _ _ _ _ _ (by decide)]
    rfl
  · have hwr : RegsBut s t [regAddr .radioCar c 0] := by
      rw [ht]
      exact State.regsBut_wr (s.pass dt) F.radioCar_muted 0 c 0
    exact hwr.trans (State.regsBut_of_csr hlogcsr _)
  · rw [hlog, htrest]

end Sys2Proof.Machine
end

section
/-! The jobs of decoders, encoders and transform units: their start and their completion (R268, R462 to R464). -/
namespace Sys2Proof.Machine

variable {s t : State} {i code word ecc : Nat} {j : JobRec} {q r : List JobRec}

/-- s after unit i takes the next job of its queue with the code of its checks. -/
def State.jobTaken (s : State) (i : Nat) (r : List JobRec) (j : JobRec) (code : Nat) : State :=
  (s.setUnit i { queue := r, busy := some (j, code) }).wr F.radioUnit_state 2 i

theorem State.unit_setUnit_same (s : State) (i : Nat) (v : UnitSt) : (s.setUnit i v).unit i = v :=
  Tab.get_set_same UnitSt.init s.units i v

theorem State.unit_setUnit_ne (s : State) {i k : Nat} (v : UnitSt) (h : k ≠ i) : (s.setUnit i v).unit k = s.unit k :=
  Tab.get_set_ne UnitSt.init UnitSt.init s.units v h

theorem State.unit_wr (s : State) (f : Field) (v k i : Nat) : (s.wr f v k).unit i = s.unit i := rfl

theorem State.regsBut_setUnit (s : State) (i : Nat) (v : UnitSt) : RegsBut s (s.setUnit i v) [regAddr .radioUnit i 0] :=
  State.regsBut_wr { s with units := Tab.set UnitSt.init s.units i v } F.radioUnit_queued v.queue.length i 0

/-- A unit's queue shows in RADIO_UNIT.queued alone. -/
theorem State.rd_setUnit (s : State) (i : Nat) (v : UnitSt) {f : Field} (hreg : f.reg = .radioUnit) (hfits : f.fits)
    (hbits : f.lo + f.width ≤ 8 ∨ 16 ≤ f.lo) : (s.setUnit i v).rd f i = s.rd f i :=
  State.rd_wr_beside { s with units := Tab.set UnitSt.init s.units i v } (f := F.radioUnit_queued) v.queue.length i 0 hreg hfits hbits

theorem State.jobTaken_spec (s : State) (i : Nat) (r : List JobRec) (j : JobRec) (code : Nat) :
    (s.jobTaken i r j code).unit i = ⟨r, some (j, code)⟩ ∧ (s.jobTaken i r j code).rd F.radioUnit_state i = 2
      ∧ (s.jobTaken i r j code).rd F.radioUnit_queued i = r.length % 2 ^ 8 ∧ (∀ k, k ≠ i → (s.jobTaken i r j code).unit k = s.unit k)
      ∧ RegsBut s (s.jobTaken i r j code) [regAddr .radioUnit i 0]
      ∧ s.jobTaken i r j code = { s with csr := (s.jobTaken i r j code).csr, units := (s.jobTaken i r j code).units } := by
  unfold State.jobTaken
  refine ⟨?_, ?_, ?_, fun k hk => ?_, ?_, rfl⟩
  · rw [State.unit_wr, State.unit_setUnit_same]
  · rw [State.rd_wr_same _ _ _ _ _ (by decide)]
    rfl
  · rw [State.rd_wr_beside _ _ _ _ (by rfl) (by decide) (by decide), State.setUnit]
    exact State.rd_wr_same _ F.radioUnit_queued _ i 0 (by decide)
  · rw [State.unit_wr, State.unit_setUnit_ne s _ hk]
  · exact (State.regsBut_setUnit s i _).step (State.regsBut_wr _ F.radioUnit_state 2 i 0) List.mem_cons_self

theorem exec_unitJobStart_takes (hlive : s.live = true) (hi : i < 16) (hunit : s.unit i = ⟨j :: r, none⟩) (hformat : jobFormatOk j = true)
    (hin : s.jobRange j (j.p 8 4) (jobBytes j).1 = true) (hout : s.jobRange j (j.p 0x10 4) (jobBytes j).2.1 = true)
    (hharq : j.p 2 2 % 4 = 0 ∨ s.jobRange j (j.p 0x18 4) (jobBytes j).2.2 = true) :
    exec (.unitJobStart i 0 word) s = .next (s.jobTaken i r j 0).settle := by
  have hharq' : (!decide (j.p 2 2 % 4 ≠ 0) || s.jobRange j (j.p 0x18 4) (jobBytes j).2.2) = true := by
    obtain hnone | hrange := hharq
    · rw [hnone]
      rfl
    · rw [hrange, Bool.or_true]
  rw [exec_unitJobStart, execUnitJobStart, whenLive_live _ _ hlive]
  dsimp only
  rw [hunit]
  dsimp only
  rw [decide_eq_false (Nat.not_le.mpr hi), if_neg (by decide), hformat, hin, hout, hharq', if_neg (by decide), if_neg (by decide)]
  rfl

/-- A job whose fields are out of form runs with the code of that (R463). -/
theorem exec_unitJobStart_fails (hlive : s.live = true) (hi : i < 16) (hunit : s.unit i = ⟨j :: r, none⟩) (hformat : jobFormatOk j = false) :
    exec (.unitJobStart i ecc word) s = .next (s.jobTaken i r j E.jobFormat).settle := by
  rw [exec_unitJobStart, execUnitJobStart, whenLive_live _ _ hlive]
  dsimp only
  rw [hunit]
  dsimp only
  rw [decide_eq_false (Nat.not_le.mpr hi), if_neg (by decide), hformat, if_pos (by decide)]
  rfl

/-- s after unit i is free of the job it ran, which it counts. -/
def State.jobEnded (s : State) (i : Nat) (q : List JobRec) : State :=
  ((s.setUnit i ⟨q, none⟩).wr F.radioUnit_state (if s.rd F.radioUnit_state i = 0 then 0 else 1) i).inc F.radioUnit_jobs i

theorem State.jobEnded_spec (s : State) (i : Nat) (q : List JobRec) :
    (s.jobEnded i q).unit i = ⟨q, none⟩ ∧ (s.jobEnded i q).rd F.radioUnit_state i = (if s.rd F.radioUnit_state i = 0 then 0 else 1)
      ∧ (s.jobEnded i q).rd F.radioUnit_jobs i = (s.rd F.radioUnit_jobs i + 1) % 2 ^ 32
      ∧ RegsBut s (s.jobEnded i q) [regAddr .radioUnit i 0]
      ∧ s.jobEnded i q = { s with csr := (s.jobEnded i q).csr, units := (s.jobEnded i q).units } := by
  unfold State.jobEnded
  refine ⟨?_, ?_, ?_, ?_, rfl⟩
  · rw [State.inc, State.unit_wr, State.unit_wr, State.unit_setUnit_same]
  · rw [State.inc, State.rd_wr_beside _ _ _ _ (by rfl) (by decide) (by decide), State.rd_wr_same _ _ _ _ _ (by decide)]
    split <;> rfl
  · rw [State.inc, State.rd_wr_same _ _ _ _ _ (by decide), State.rd_wr_beside _ _ _ _ (by rfl) (by decide) (by decide),
      State.rd_setUnit s i _ (by rfl) (by decide) (by decide)]
    rfl
  · exact ((State.regsBut_setUnit s i _).step (State.regsBut_wr _ F.radioUnit_state _ i 0) List.mem_cons_self).step
      (State.regsBut_wr _ F.radioUnit_jobs _ i 0) List.mem_cons_self

/-- A store into a cluster's SRAM depends on the SRAM alone. -/
theorem State.setSram_spec (h : t.sram = s.sram) (c o : Nat) (bs : Bytes) :
    (t.setSram c o bs).sram = (s.setSram c o bs).sram ∧ t.setSram c o bs = { t with sram := (t.setSram c o bs).sram } := by
  unfold State.setSram
  generalize bs.zipIdx = l
  induction l generalizing s t with
  | nil => exact ⟨h, rfl⟩
  | cons e r ih =>
    have hset : (t.setRaw 0 (sramKey c (o + e.2)) e.1).sram = (s.setRaw 0 (sramKey c (o + e.2)) e.1).sram := by
      show Tab.set 0#8 t.sram _ _ = Tab.set 0#8 s.sram _ _
      rw [h]
    obtain ⟨hsram, hframe⟩ := ih hset
    refine ⟨hsram, ?_⟩
    rw [List.foldl_cons, hframe]
    rfl

theorem State.bumpSram_frame (s : State) (m c o n : Nat) : s.bumpSram m c o n = { s with vers := (s.bumpSram m c o n).vers } := by
  unfold State.bumpSram
  exact List.foldlRecOn _ _ (motive := fun u : State => u = { s with vers := u.vers }) rfl fun u hu e _ => by
    split
    · rw [hu]
    · exact hu

/-- s with the flag of a job cleared at the engine that posted it, where the run still goes on (R464). -/
def State.jobFlagged (s : State) (j : JobRec) : State :=
  if (s.stream j.cluster (s.seng j.cluster j.eng).stream).run = j.run then
    s.setSeng j.cluster j.eng { s.seng j.cluster j.eng with flags := setBit (s.seng j.cluster j.eng).flags j.j false }
  else s

theorem State.jobFlagged_spec (s : State) (j : JobRec) :
    ((s.stream j.cluster (s.seng j.cluster j.eng).stream).run = j.run →
        ((s.jobFlagged j).seng j.cluster j.eng).flags = setBit (s.seng j.cluster j.eng).flags j.j false)
      ∧ s.jobFlagged j = { s with clus := (s.jobFlagged j).clus } := by
  unfold State.jobFlagged
  constructor
  · intro hrun
    rw [if_pos hrun, State.seng_setSeng_same]
  · split <;> rfl

end Sys2Proof.Machine
end

section
/-! The completion of a job: done, failed, or slag (R268, R464); and the obligation of the radio's transmit path and jobs. -/
namespace Sys2Proof.Machine

variable {s t : State} {i code : Nat} {j : JobRec} {q : List JobRec}

/-- A job's result comes from its descriptor and the SRAM. -/
theorem State.jobResult_of_units (h : t = { s with csr := t.csr, units := t.units }) (j : JobRec) : t.jobResult j = s.jobResult j := by
  rw [h]
  rfl

/-- The status that a job which passed its checks leaves (R464). -/
def State.doneStatus (s : State) (j : JobRec) : Bytes :=
  toLe 2 0 ++ toLe 1 (s.jobResult j).2.2.1 ++ toLe 1 (s.jobResult j).2.2.2 ++ toLe 4 (s.jobResult j).1.length
    ++ toLe 4 (jobBeats j (s.jobResult j).2.2.1)

/-- s with the output and the status of a job in its cluster's SRAM. -/
def State.jobOutput (s : State) (j : JobRec) (out status : Bytes) : State :=
  ((s.setSram j.cluster (j.p 0x10 4) out).bumpSram j.mould j.cluster (j.p 0x10 4) out.length).setSram j.cluster (j.sa + 0x30) status

theorem State.jobOutput_spec (h : t.sram = s.sram) (j : JobRec) (out status : Bytes) :
    (t.jobOutput j out status).sram = ((s.setSram j.cluster (j.p 0x10 4) out).setSram j.cluster (j.sa + 0x30) status).sram
      ∧ t.jobOutput j out status = { t with sram := (t.jobOutput j out status).sram, vers := (t.jobOutput j out status).vers } := by
  obtain ⟨hout, houtFrame⟩ := State.setSram_spec h j.cluster (j.p 0x10 4) out
  obtain ⟨v, hv⟩ : ∃ v, v = (t.setSram j.cluster (j.p 0x10 4) out).bumpSram j.mould j.cluster (j.p 0x10 4) out.length := ⟨_, rfl⟩
  have hvFrame : v = { t.setSram j.cluster (j.p 0x10 4) out with vers := v.vers } := by
    rw [hv]
    exact State.bumpSram_frame ..
  have hvSram : v.sram = (s.setSram j.cluster (j.p 0x10 4) out).sram := by
    rw [hvFrame]
    exact hout
  obtain ⟨hstatus, hstatusFrame⟩ := State.setSram_spec hvSram j.cluster (j.sa + 0x30) status
  unfold State.jobOutput
  rw [← hv]
  refine ⟨hstatus, ?_⟩
  rw [hstatusFrame, hvFrame, houtFrame]

theorem exec_jobComplete_done (hlive : s.live = true) (hunit : s.unit i = ⟨q, some (j, 0)⟩)
    (hslag : s.isSlag j.mould j.ctx j.heat j.quenches = false) (hharq : bit (j.p 2 2) 1 = false) (hpost : bit (j.p 2 2) 2 = false) :
    exec (.jobComplete i) s = .next (((s.jobEnded i q).jobOutput j (s.jobResult j).1 (s.doneStatus j)).jobFlagged j).settle := by
  rw [exec_jobComplete, execJobComplete, whenLive_live _ _ hlive]
  dsimp only
  rw [hunit]
  dsimp only
  rw [hslag, if_neg Bool.false_ne_true, ← State.jobEnded, State.jobResult_of_units (State.jobEnded_spec s i q).2.2.2.2, hharq, hpost]
  rfl

/-- A flag cleared at the engine that posted a job, of a state that a job's end and its stores leave the clusters of. -/
theorem State.jobFlagged_flags (h : t.clus = s.clus) (hrun : (s.stream j.cluster (s.seng j.cluster j.eng).stream).run = j.run) :
    ((t.jobFlagged j).seng j.cluster j.eng).flags = setBit (s.seng j.cluster j.eng).flags j.j false := by
  have hclu : ∀ c, t.clu c = s.clu c := fun c => by rw [State.clu, State.clu, h]
  have hseng : t.seng j.cluster j.eng = s.seng j.cluster j.eng := by rw [State.seng, State.seng, hclu]
  rw [(t.jobFlagged_spec j).1 (by rw [hseng, State.stream, hclu]; exact hrun), hseng]

theorem exec_jobComplete_writes (hlive : s.live = true) (hunit : s.unit i = ⟨q, some (j, 0)⟩)
    (hslag : s.isSlag j.mould j.ctx j.heat j.quenches = false) (hharq : bit (j.p 2 2) 1 = false) (hpost : bit (j.p 2 2) 2 = false) :
    ∃ u : State, exec (.jobComplete i) s = .next u.settle ∧ u.unit i = ⟨q, none⟩ ∧ u.rd F.radioUnit_state i = (if s.rd F.radioUnit_state i = 0 then 0 else 1)
      ∧ u.rd F.radioUnit_jobs i = (s.rd F.radioUnit_jobs i + 1) % 2 ^ 32
      ∧ u.sram = ((s.setSram j.cluster (j.p 0x10 4) (s.jobResult j).1).setSram j.cluster (j.sa + 0x30) (s.doneStatus j)).sram
      ∧ ((s.stream j.cluster (s.seng j.cluster j.eng).stream).run = j.run →
        (u.seng j.cluster j.eng).flags = setBit (s.seng j.cluster j.eng).flags j.j false)
      ∧ RegsBut s u [regAddr .radioUnit i 0] ∧ u = { s with csr := u.csr, units := u.units, sram := u.sram, vers := u.vers, clus := u.clus } := by
  have hexec := exec_jobComplete_done hlive hunit hslag hharq hpost
  obtain ⟨hfree, hstate, hjobs, hregs, hended⟩ := s.jobEnded_spec i q
  obtain ⟨a, ha⟩ : ∃ a, a = s.jobEnded i q := ⟨_, rfl⟩
  rw [← ha] at hexec hfree hstate hjobs hregs hended
  obtain ⟨hsram, houtput⟩ := State.jobOutput_spec (show a.sram = s.sram by rw [hended]) j (s.jobResult j).1 (s.doneStatus j)
  obtain ⟨b, hb⟩ : ∃ b, b = a.jobOutput j (s.jobResult j).1 (s.doneStatus j) := ⟨_, rfl⟩
  rw [← hb] at hexec hsram houtput
  have hflags := State.jobFlagged_flags (s := s) (t := b) (j := j) (by rw [houtput, hended])
  have hflagged := (b.jobFlagged_spec j).2
  obtain ⟨u, hu⟩ : ∃ u, u = b.jobFlagged j := ⟨_, rfl⟩
  rw [← hu] at hexec hflags hflagged
  have hcsr : u.csr = a.csr := by rw [hflagged, houtput]
  have hunits : u.unit i = a.unit i := by
    rw [hflagged, houtput]
    rfl
  refine ⟨u, hexec, hunits.trans hfree, (State.rd_of_csr hcsr ..).trans hstate, (State.rd_of_csr hcsr ..).trans hjobs, ?_, hflags,
    hregs.trans (State.regsBut_of_csr hcsr _), ?_⟩
  · rw [hflagged]
    exact hsram
  · rw [hflagged, houtput, hended]

/-- The status that a failed job leaves (R464). -/
def failStatus (code : Nat) : Bytes := toLe 2 code ++ toLe 1 0 ++ toLe 1 0xFF ++ toLe 4 0 ++ toLe 4 0

theorem exec_jobComplete_failed (hlive : s.live = true) (hunit : s.unit i = ⟨q, some (j, code)⟩) (hcode : code ≠ 0)
    (hslag : s.isSlag j.mould j.ctx j.heat j.quenches = false) (hpost : bit (j.p 2 2) 2 = false) :
    exec (.jobComplete i) s = .next ((((((s.jobEnded i q).setSram j.cluster (j.sa + 0x30) (failStatus code)).jobFlagged j).wr
      F.radioUnit_lastFail code i)).logEvt 0x1505 (0x0060 + i) j.mould (code % 2 ^ 128)).settle := by
  rw [exec_jobComplete, execJobComplete, whenLive_live _ _ hlive]
  dsimp only
  rw [hunit]
  dsimp only
  rw [hslag, if_neg Bool.false_ne_true, ← State.jobEnded, decide_eq_false hcode, hpost]
  simp only [if_neg hcode, Bool.false_and, if_neg Bool.false_ne_true]
  rfl

theorem exec_jobComplete_logs (hlive : s.live = true) (hunit : s.unit i = ⟨q, some (j, code)⟩) (hcode : code ≠ 0)
    (hslag : s.isSlag j.mould j.ctx j.heat j.quenches = false) (hpost : bit (j.p 2 2) 2 = false) (hroom : s.logRoom 1) :
    ∃ u : State, exec (.jobComplete i) s = .next u.settle ∧ u.unit i = ⟨q, none⟩
      ∧ u.rd F.radioUnit_lastFail i = code % 2 ^ 16 ∧ u.lastEvt = some (0x1505, 0x0060 + i, j.mould)
      ∧ u.sram = (s.setSram j.cluster (j.sa + 0x30) (failStatus code)).sram
      ∧ RegsBut s u [regAddr .radioUnit i 0] ∧ u = { s with csr := u.csr, units := u.units, sram := u.sram, clus := u.clus, log := u.log } := by
  have hexec := exec_jobComplete_failed hlive hunit hcode hslag hpost
  obtain ⟨hfree, -, -, hregs, hended⟩ := s.jobEnded_spec i q
  obtain ⟨a, ha⟩ : ∃ a, a = s.jobEnded i q := ⟨_, rfl⟩
  rw [← ha] at hexec hfree hregs hended
  obtain ⟨hsram, hstored⟩ := State.setSram_spec (show a.sram = s.sram by rw [hended]) j.cluster (j.sa + 0x30) (failStatus code)
  obtain ⟨b, hb⟩ : ∃ b, b = a.setSram j.cluster (j.sa + 0x30) (failStatus code) := ⟨_, rfl⟩
  rw [← hb] at hexec hsram hstored
  have hflagged := (b.jobFlagged_spec j).2
  obtain ⟨d, hd⟩ : ∃ d, d = b.jobFlagged j := ⟨_, rfl⟩
  rw [← hd] at hexec hflagged
  have hcsr : d.csr = a.csr := by rw [hflagged, hstored]
  obtain ⟨e, he⟩ : ∃ e, e = d.wr F.radioUnit_lastFail code i := ⟨_, rfl⟩
  have hewr : e = { d with csr := e.csr } := by
    rw [he]
    rfl
  rw [← he] at hexec
  have heroom : e.logRoom 1 := by
    rw [hewr, hflagged, hstored, hended]
    exact hroom
  have hlogcsr := State.csr_logEvt_of_room e 0x1505 (0x0060 + i) j.mould (code % 2 ^ 128) heroom
  obtain ⟨hlast, hlogged⟩ := State.logEvt_pushes 0x1505 (0x0060 + i) j.mould (code % 2 ^ 128) heroom
  refine ⟨_, hexec, ?_, ?_, hlast, ?_, ?_, ?_⟩
  · rw [hlogged, hewr, hflagged, hstored]
    exact hfree
  · rw [State.rd_of_csr hlogcsr, he, State.rd_wr_same _ _ _ _ _ (by decide)]
    rfl
  · rw [hlogged, hewr, hflagged]
    exact hsram
  · have hwr : RegsBut d e [regAddr .radioUnit i 0] := by
      rw [he]
      exact State.regsBut_wr d F.radioUnit_lastFail code i 0
    exact ((hregs.trans (State.regsBut_of_csr hcsr _)).trans hwr).trans (State.regsBut_of_csr hlogcsr _)
  · rw [hlogged, hewr, hflagged, hstored, hended]

theorem exec_jobComplete_slag (hlive : s.live = true) (hi : i < 16) (hunit : s.unit i = ⟨q, some (j, code)⟩)
    (hslag : s.isSlag j.mould j.ctx j.heat j.quenches = true) :
    ∃ u : State, exec (.jobComplete i) s = .next u.settle ∧ u.unit i = ⟨q, none⟩
      ∧ u.rd F.slagCount_count j.mould = satAdd F.slagCount_count.width (s.rd F.slagCount_count j.mould) 1
      ∧ RegsBut s u [regAddr .radioUnit i 0, regAddr .slagCount j.mould 0] ∧ u = { s with csr := u.csr, units := u.units } := by
  obtain ⟨hfree, -, -, hregs, hended⟩ := s.jobEnded_spec i q
  have haddr : regAddr F.slagCount_count.reg j.mould 0 ∉ [regAddr .radioUnit i 0] := by
    rw [List.mem_singleton]
    show 0x800008 + 0x4000 * j.mould ≠ 0x503000 + 0x10 * i
    exact Nat.ne_of_gt (by linarith only [hi, Nat.zero_le j.mould])
  refine ⟨(s.jobEnded i q).cnt F.slagCount_count j.mould, ?_, hfree, ?_, ?_, ?_⟩
  · rw [exec_jobComplete, execJobComplete, whenLive_live _ _ hlive]
    dsimp only
    rw [hunit]
    dsimp only
    rw [hslag, if_pos rfl]
    rfl
  · rw [State.rd_cnt_same _ _ _ _ _ (by decide), hregs.rd haddr]
  · exact (hregs.mono (List.cons_subset_cons _ (List.nil_subset _))).step (State.regsBut_cnt _ F.slagCount_count j.mould 0 1)
      (List.mem_cons_of_mem _ List.mem_cons_self)
  · rw [hended]
    rfl

/-- Settles O42: each instruction takes the branch its hypotheses name, and the frames follow from the frames of its parts. -/
theorem radioTransmitAndJobs : Obligations.RadioTransmitAndJobs :=
  ⟨fun _ _ _ _ _ _ hlive hc hbound hone hentry htime hmin hmax htype haxc =>
      exec_cpringTailWrite_good hlive hc hbound hone hentry htime hmin hmax htype haxc,
    fun _ _ _ _ _ _ hlive hc hbound hone hentry htime => exec_cpringTailWrite_late hlive hc hbound hone hentry htime,
    fun _ _ _ _ hlive hc hwho hroom => exec_cpringTailWrite_refused hlive hc hwho hroom,
    fun _ _ _ _ _ _ _ _ _ hlive hc hw hcp htime hmuted hq hb hroom =>
      exec_cplaneRelease_sends hlive hc hw hcp htime hmuted hq rfl hb hroom,
    fun _ _ _ _ _ _ _ _ hlive hc hn hbound hv hw hopen hclosed hx =>
      exec_dlSymbolRead_reads hlive hc hn hbound hv hw hopen hclosed hx,
    fun _ _ _ _ _ _ _ _ _ _ _ _ hlive hc hn hbound hv hw hsplit hopen hclosed huntil hdl hsome hfit hmuted hq hb hroom =>
      exec_dlFrameQueue_sends hlive hc hn hbound hv hw hsplit hopen hclosed huntil hdl hsome hfit hmuted hq hb hroom,
    fun _ _ _ _ hlive hc hsorted hnow => exec_dlFrameExpiry_removes hlive hc hsorted hnow,
    fun _ _ _ hlive hc hbound hmuted hmust hsorted hroom => exec_carrierMute_mutes hlive hc hbound hmuted hmust hsorted hroom,
    fun _ _ _ _ hlive hc hbound hmuted hv hgood hframe hroom => exec_carrierUnmute_unmutes hlive hc hbound hmuted hv hgood hframe hroom,
    fun s i _ j r hlive hi hunit hformat hin hout hharq =>
      ⟨s.jobTaken i r j 0, exec_unitJobStart_takes hlive hi hunit hformat hin hout hharq, s.jobTaken_spec i r j 0⟩,
    fun s i _ _ j r hlive hi hunit hformat =>
      have ⟨htaken, hstate, _, hrest⟩ := s.jobTaken_spec i r j E.jobFormat
      ⟨s.jobTaken i r j E.jobFormat, exec_unitJobStart_fails hlive hi hunit hformat, htaken, hstate, hrest⟩,
    fun _ _ _ _ hlive _ hunit hslag hharq hpost => exec_jobComplete_writes hlive hunit hslag hharq hpost,
    fun _ _ _ _ _ hlive _ hunit hcode hslag hpost hroom => exec_jobComplete_logs hlive hunit hcode hslag hpost hroom,
    fun _ _ _ _ _ hlive hi hunit _ hslag => exec_jobComplete_slag hlive hi hunit hslag⟩

end Sys2Proof.Machine
end

section
/-! Little-endian fields, and a session's record after an answer (R10, R484). -/
namespace Sys2Proof.Machine

theorem length_toLe (n x : Nat) : (toLe n x).length = n := by
  induction n generalizing x with
  | zero => rfl
  | succ n ih => rw [toLe, List.length_cons, ih]

theorem leNat_toLe (n x : Nat) : leNat (toLe n x) = x % 256 ^ n := by
  induction n generalizing x with
  | zero => rw [toLe, leNat, pow_zero, Nat.mod_one]
  | succ n ih =>
    rw [toLe, leNat, ih, BitVec.toNat_ofNat, pow_succ' 256]
    exact Nat.mod_mul.symm

/-- A field that an encoding left at its place is read back. -/
theorem leAt_append_toLe (pre suf : Bytes) (n x : Nat) : leAt (pre ++ (toLe n x ++ suf)) pre.length n = x % 256 ^ n := by
  have hfield : slice (pre ++ (toLe n x ++ suf)) pre.length n = toLe n x := by
    have hlen := length_toLe n x
    rw [slice, List.drop_left, List.take_append_of_le_length hlen.ge, List.take_of_length_le hlen.le, hlen, Nat.sub_self,
      List.replicate_zero, List.append_nil]
  rw [leAt, hfield, leNat_toLe]

theorem leAt_toLe_append (n x : Nat) (suf : Bytes) : leAt (toLe n x ++ suf) 0 n = x % 256 ^ n := leAt_append_toLe [] suf n x

theorem leAt_toLe (n x : Nat) : leAt (toLe n x) 0 n = x % 256 ^ n := by
  simpa using leAt_toLe_append n x []

theorem leAt_toLe_second (k y n x : Nat) : leAt (toLe k y ++ toLe n x) k n = x % 256 ^ n := by
  have hfield := leAt_append_toLe (toLe k y) [] n x
  rwa [List.append_nil, length_toLe] at hfield

/-- An open session whose record is replaced holds the new one. -/
theorem State.session_setSession {s : State} {y z : SessSt} (h : s.session z.id = some y) : (s.setSession z).session z.id = some z := by
  have hfind : ∀ l : List SessSt, l.find? (fun w => w.id = z.id) = some y →
      (l.map fun w => if w.id = z.id then z else w).find? (fun w => w.id = z.id) = some z := by
    intro l hl
    induction l with
    | nil => cases hl
    | cons w ws ih =>
      by_cases hw : w.id = z.id
      · simp [hw]
      · rw [List.find?_cons_of_neg (by simpa using hw)] at hl
        simpa [hw] using ih hl
  exact hfind _ h

theorem State.session_id {s : State} {k : Nat} {z : SessSt} (h : s.session k = some z) : z.id = k := by
  simpa using List.find?_some h

/-- No record's replacement closes a session. -/
theorem State.isSome_session_setSession (s : State) (z : SessSt) (k : Nat) :
    ((s.setSession z).session k).isSome = (s.session k).isSome := by
  have hkeep : ∀ w : SessSt, decide ((if w.id = z.id then z else w).id = k) = decide (w.id = k) := by
    intro w
    split
    · next hid => rw [hid]
    · rfl
  simp only [State.session, State.setSession, List.find?_map, Function.comp_def, hkeep, Option.isSome_map]

/-- An answer leaves what its session subscribes to (R484, R494). -/
theorem State.session_answer {s : State} {r : MReq} {z : SessSt} (h : s.session r.sess = some z) (status handle : Nat) (body : Bytes) :
    ((s.answer r status handle body).session r.sess).map (fun y => (y.mask, y.sentTo)) = some (z.mask, z.sentTo) := by
  obtain ⟨kept, dups, hid, hmask, hsent, hreply⟩ : ∃ (kept : SessSt) (dups : List Nat), kept.id = r.sess ∧ kept.mask = z.mask
      ∧ kept.sentTo = z.sentTo ∧ s.answer r status handle body = dups.foldl (State.resend r.sess r.reqId status handle body)
        ((s.setSession kept).emit (.response r.sess r.reqId status handle false body (s.sendPort r.port))) := by
    unfold State.answer State.reply
    rw [h]
    refine ⟨_, _, ?_, ?_, ?_, rfl⟩
    · exact State.session_id (z := z) h
    · rfl
    · rfl
  have hframe := (State.foldl_resend_spec r.sess r.reqId status handle body r dups
    ((s.setSession kept).emit (.response r.sess r.reqId status handle false body (s.sendPort r.port)))).2
  rw [← hreply] at hframe
  have hheld : (s.setSession kept).session kept.id = some kept := State.session_setSession (hid ▸ h)
  have hsame : (s.answer r status handle body).session r.sess = (s.setSession kept).session r.sess := by
    rw [hframe]
    rfl
  rw [hsame, ← hid, hheld, Option.map_some, hmask, hsent]

end Sys2Proof.Machine
end

section
/-! Commands of the management plane itself: IDENT, registers, the log, operations, subscriptions and scans (R301, R302, R485, R486,
R488, R491, R494). -/
namespace Sys2Proof.Machine

variable {s t : State} {r : MReq} {rest : List MReq}

/-- A command that core 0 answers at once with a body, changing nothing. -/
theorem exec_answers {code status : Nat} {body : Bytes} {c : Instr} (h : s.serves code r rest)
    (hexec : exec c s = .next ((s.taken rest).answer r status 0 body).settle) :
    ∃ u : State, exec c s = .next u.settle ∧ s.answeredAs u r rest status 0 body ∧ u = { s with mgmt := u.mgmt, out := u.out } :=
  ⟨_, hexec, State.answeredAs_answer h status 0 body⟩

theorem exec_ident_answers (h : s.serves 0x0001 r rest) (hbody : r.body = []) :
    ∃ u : State, exec .ident s = .next u.settle
      ∧ s.answeredAs u r rest 0 0 (toLe 8 (s.reg .devIdent) ++ toLe 2 s.devId ++ toLe 1 (s.rd F.healthStatus_state) ++ toLe 1 0
        ++ toLe 4 (s.rd F.fabEpoch_value))
      ∧ u = { s with mgmt := u.mgmt, out := u.out } := by
  refine exec_answers h ?_
  rw [exec_ident, execIdent, takeCmd_serves h, State.bodyOk_pos (by rw [hbody]; rfl)]
  rfl

/-- A read leaves the management controller. -/
theorem State.readCsr_mgmt (s : State) (req addr : Nat) : (s.readCsr req addr).2.mgmt = s.mgmt := by
  unfold State.readCsr
  split
  · simp
  · simp
  · unfold State.readReg
    split
    · exact (State.wr_keeps ..).2.2.2.2.2.2.2.2.2.2.2.2.2.2.1
    · unfold State.readCap
      split <;> rfl
    · rfl
    · rfl

theorem State.readCsrs_spec (s : State) (addr n : Nat) :
    (s.readCsrs addr n).1.length = 8 * n ∧ (s.readCsrs addr n).2.mgmt = s.mgmt := by
  induction n generalizing s addr with
  | zero => exact ⟨rfl, rfl⟩
  | succ n ih =>
    obtain ⟨hlen, hmgmt⟩ := ih (s.readCsr 0 addr).2 (addr + 8)
    refine ⟨?_, hmgmt.trans (State.readCsr_mgmt s 0 addr)⟩
    rw [State.readCsrs, List.length_append, length_toLe, hlen]
    omega

/-- Core 0 takes a CSR_READ in form. -/
theorem exec_csrRead_taken {n : Nat} (h : s.serves 0x0002 r rest) (hlen : r.body.length = 6) (hn : n = leAt r.body 4 2) (hmin : 1 ≤ n)
    (hmax : n ≤ 128) :
    exec .csrRead s = .next (((s.taken rest).readCsrs (leAt r.body 0 4) n).2.answer r 0 0
      ((s.taken rest).readCsrs (leAt r.body 0 4) n).1).settle := by
  subst hn
  rw [exec_csrRead, execCsrRead, takeCmd_serves h, State.bodyOk_pos (by simp [hlen, hmin, hmax])]

theorem exec_csrRead_reads {n : Nat} (h : s.serves 0x0002 r rest) (hlen : r.body.length = 6) (hn : n = leAt r.body 4 2) (hmin : 1 ≤ n)
    (hmax : n ≤ 128) (ht : t = ((s.taken rest).readCsrs (leAt r.body 0 4) n).2) :
    ∃ u : State, exec .csrRead s = .next u.settle
      ∧ u.lastAnswer r = some (0, 0, ((s.taken rest).readCsrs (leAt r.body 0 4) n).1)
      ∧ ((s.taken rest).readCsrs (leAt r.body 0 4) n).1.length = 8 * n
      ∧ u = { t with mgmt := { t.mgmt with sessions := u.mgmt.sessions }, out := u.out } := by
  have hexec := exec_csrRead_taken h hlen hn hmin hmax
  obtain ⟨hbytes, hmgmt⟩ := (s.taken rest).readCsrs_spec (leAt r.body 0 4) n
  rw [← ht] at hexec hmgmt
  obtain ⟨-, -, -, -, hsess⟩ := h
  obtain ⟨hanswer, hframe⟩ := State.answer_spec (s := t) (r := r) (by rw [State.session, hmgmt]; exact hsess) 0 0
    ((s.taken rest).readCsrs (leAt r.body 0 4) n).1
  exact ⟨_, hexec, hanswer, hbytes, hframe⟩

theorem State.readReg_plain {x : RegName} (h : x ≠ .timeNowNs ∧ x ≠ .timeCapNs ∧ x ≠ .arrBeats) (i j : Nat) :
    s.readReg x i j = (s.csrValue x i j, s) := by
  obtain ⟨hnow, hcap, hbeats⟩ := h
  unfold State.readReg
  split
  · exact absurd rfl hnow
  · exact absurd rfl hcap
  · exact absurd rfl hbeats
  · rfl

/-- One register without an effect of its read is read, and nothing changes. -/
theorem exec_csrRead_register {addr i j : Nat} {x : RegName} (h : s.serves 0x0002 r rest) (hbody : r.body = toLe 4 addr ++ toLe 2 1)
    (haddr : addr < 2 ^ 32) (hat : s.csrAt addr = .reg x i j) (hplain : x ≠ .timeNowNs ∧ x ≠ .timeCapNs ∧ x ≠ .arrBeats) :
    ∃ u : State, exec .csrRead s = .next u.settle ∧ s.answeredAs u r rest 0 0 (toLe 8 (s.csrValue x i j))
      ∧ u = { s with mgmt := u.mgmt, out := u.out } := by
  have hat0 : leAt r.body 0 4 = addr := by
    rw [hbody, leAt_toLe_append]
    exact Nat.mod_eq_of_lt haddr
  have hread : (s.taken rest).readCsrs addr 1 = (toLe 8 ((s.taken rest).csrValue x i j), s.taken rest) := by
    have hat' : (s.taken rest).csrAt addr = .reg x i j := hat
    have hone : (s.taken rest).readCsrs addr 1
        = (toLe 8 ((s.taken rest).readCsr 0 addr).1 ++ [], ((s.taken rest).readCsr 0 addr).2) := rfl
    rw [hone, State.readCsr, hat']
    dsimp only
    rw [State.readReg_plain hplain, List.append_nil]
  refine exec_answers h ?_
  rw [exec_csrRead_taken (n := 1) h (by rw [hbody, List.length_append, length_toLe, length_toLe]) ?_ le_rfl (by omega), hat0, hread]
  · rfl
  · rw [hbody, leAt_toLe_second]
    rfl

theorem exec_csrWrite_writes {code : Nat} (h : s.serves 0x0003 r rest) (hlen : r.body.length = 20)
    (ht : (code, t) = (s.taken rest).writeCsr 0 (leAt r.body 0 4) (leAt r.body 4 8) (leAt r.body 12 8))
    (hopen : (t.session r.sess).isSome = true) :
    ∃ u : State, exec .csrWrite s = .next u.settle ∧ u.lastAnswer r = some (code, 0, [])
      ∧ u = { t with mgmt := { t.mgmt with sessions := u.mgmt.sessions }, out := u.out } := by
  refine ⟨_, ?_, State.answer_spec hopen code 0 []⟩
  rw [exec_csrWrite, execCsrWrite, takeCmd_serves h, State.bodyOk_pos (by simp [hlen]), ← ht]

theorem exec_logRead_answers {q n : Nat} (h : s.serves 0x0004 r rest) (hbody : r.body = toLe 8 q ++ toLe 2 n) (hq : q < 2 ^ 64)
    (hmin : 1 ≤ n) (hmax : n ≤ 40) :
    ∃ u : State, exec .logRead s = .next u.settle
      ∧ s.answeredAs u r rest 0 0 (toLe 1 (if q < s.log.seq - s.log.recs.length then 1 else 0) ++ toLe 7 0
        ++ toLe 8 (max q (s.log.seq - s.log.recs.length))
        ++ (((s.log.recs.take (s.log.seq - max q (s.log.seq - s.log.recs.length))).reverse).take n).flatMap LogRec.bytes)
      ∧ u = { s with mgmt := u.mgmt, out := u.out } := by
  have hfrom : leAt r.body 0 8 = q := by
    rw [hbody, leAt_toLe_append]
    exact Nat.mod_eq_of_lt hq
  have hcount : leAt r.body 8 2 = n := by
    rw [hbody, leAt_toLe_second, Nat.mod_eq_of_lt (by omega)]
  have hlen : r.body.length = 10 := by rw [hbody, List.length_append, length_toLe, length_toLe]
  have hlost : ofBool (decide (max q (s.log.seq - s.log.recs.length) ≠ q)) = if q < s.log.seq - s.log.recs.length then 1 else 0 := by
    by_cases hheld : q < s.log.seq - s.log.recs.length
    · rw [if_pos hheld, decide_eq_true (by omega)]
      rfl
    · rw [if_neg hheld, decide_eq_false (by omega)]
      rfl
  refine exec_answers h ?_
  rw [exec_logRead, execLogRead, takeCmd_serves h, State.bodyOk_pos (by simp [hlen, hcount, hmin, hmax]), hfrom, hcount, ← hlost]
  rfl

theorem leAt_handle {h : Nat} (hbody : r.body = toLe 4 h) (hh : h < 2 ^ 32) : leAt r.body 0 4 = h := by
  rw [hbody, leAt_toLe]
  exact Nat.mod_eq_of_lt hh

theorem handle_bodyOk {h : Nat} (hbody : r.body = toLe 4 h) : (r.body.length == 4) = true := by
  rw [hbody, length_toLe]
  rfl

/-- The entry a handle names lies among those given out (R488). -/
theorem State.opOf_lt {h i : Nat} (hop : s.opOf h = some i) : i < 256 := by
  unfold State.opOf at hop
  split at hop
  · cases hop
    omega
  · cases hop

theorem exec_opStatus_answers {h : Nat} (hserves : s.serves 0x0005 r rest) (hbody : r.body = toLe 4 h) (hh : h < 2 ^ 32)
    (hused : (s.op (h % 256)).state ≠ 0) (hhandle : (s.op (h % 256)).handle = h) :
    ∃ u : State, exec .opStatus s = .next u.settle ∧ s.answeredAs u r rest 0 0 (opBody (s.op (h % 256)))
      ∧ u = { s with mgmt := u.mgmt, out := u.out } := by
  have hop : (s.taken rest).opOf h = some (h % 256) := if_pos (by
    rw [Bool.and_eq_true, decide_eq_true_eq, decide_eq_true_eq]
    exact ⟨hused, hhandle⟩)
  refine exec_answers hserves ?_
  rw [exec_opStatus, execOpStatus, takeCmd_serves hserves, State.bodyOk_pos (handle_bodyOk hbody), leAt_handle hbody hh, hop]
  rfl

theorem exec_opStatus_unknown {h : Nat} (hserves : s.serves 0x0005 r rest) (hbody : r.body = toLe 4 h) (hh : h < 2 ^ 32)
    (hop : s.opOf h = none) :
    ∃ u : State, exec .opStatus s = .next u.settle ∧ s.answeredAs u r rest E.mgmtNoHandle 0 []
      ∧ u = { s with mgmt := u.mgmt, out := u.out } := by
  have hop' : (s.taken rest).opOf h = none := hop
  refine exec_answers hserves ?_
  rw [exec_opStatus, execOpStatus, takeCmd_serves hserves, State.bodyOk_pos (handle_bodyOk hbody), leAt_handle hbody hh, hop']

/-- Core 0 takes an OP_CANCEL of a handle's entry. -/
theorem exec_opCancel_taken {h i : Nat} (hserves : s.serves 0x0006 r rest) (hbody : r.body = toLe 4 h) (hh : h < 2 ^ 32)
    (hop : s.opOf h = some i) :
    exec .opCancel s = .next (match s.cancelCode i with
      | none => (s.taken rest).answer r E.mgmtNotCancellable
      | some code => ((s.taken rest).breakOp i 4 code).answer r 0).settle := by
  have hop' : (s.taken rest).opOf h = some i := hop
  rw [exec_opCancel, execOpCancel, takeCmd_serves hserves, State.bodyOk_pos (handle_bodyOk hbody), leAt_handle hbody hh, hop']
  rfl

theorem exec_opCancel_refused {h i : Nat} (hserves : s.serves 0x0006 r rest) (hbody : r.body = toLe 4 h) (hh : h < 2 ^ 32)
    (hop : s.opOf h = some i) (hcode : s.cancelCode i = none) :
    ∃ u : State, exec .opCancel s = .next u.settle ∧ s.answeredAs u r rest E.mgmtNotCancellable 0 []
      ∧ u = { s with mgmt := u.mgmt, out := u.out } := by
  refine exec_answers hserves ?_
  rw [exec_opCancel_taken hserves hbody hh hop, hcode]

/-- Notifications leave the sessions open. -/
theorem State.isSome_session_foldl_notify (zs : List SessSt) (ty : Nat) (body : Bytes) (s : State) (k : Nat) :
    ((zs.foldl (fun u z => u.notify z ty body) s).session k).isSome = (s.session k).isSome := by
  induction zs generalizing s with
  | nil => rfl
  | cons z zs ih => exact (ih _).trans (State.isSome_session_setSession s _ k)

/-- The end of an operation under a handle: its entry and its place among the ended, the sessions that are told, and the outputs
(R488, R491). -/
theorem State.endOp_mgmt (s : State) {i : Nat} (hi : i < 256) (state status : Nat) :
    (s.endOp i state status).mgmt = { s.mgmt with
        ops := Tab.set OpSt.init s.mgmt.ops i ((s.endOp i state status).op i), ended := s.mgmt.ended ++ [i]
        sessions := (s.endOp i state status).mgmt.sessions }
      ∧ ∀ k, ((s.endOp i state status).session k).isSome = (s.session k).isSome := by
  rw [(s.endOp_spec hi state status).2]
  unfold State.endOp
  rw [if_neg (by omega)]
  dsimp only
  refine ⟨?_, fun k => State.isSome_session_foldl_notify ..⟩
  rw [State.foldl_notify_frame]
  rfl

/-- A scan that is cancelled ends, and with it its appends that wait (R491). -/
theorem State.breakOp_scan {i m a n poly fold q g pos : Nat} (hbody : (s.op i).body = .scan m a n poly fold q g pos) (state code : Nat) :
    s.breakOp i state code = (s.ledRelease (.op i)).endOp i state code := by
  have hbody' : ((s.ledRelease (.op i)).op i).body = .scan m a n poly fold q g pos := hbody
  unfold State.breakOp
  dsimp only
  rw [hbody']

theorem exec_opCancel_scan {h i m a n poly fold q g pos : Nat} (hserves : s.serves 0x0006 r rest) (hbody : r.body = toLe 4 h)
    (hh : h < 2 ^ 32) (hop : s.opOf h = some i) (hruns : (s.op i).state = 1) (hscan : (s.op i).body = .scan m a n poly fold q g pos) :
    ∃ u : State, exec .opCancel s = .next u.settle ∧ u.lastAnswer r = some (0, 0, [])
      ∧ u.op i = { s.op i with state := 4, status := E.scanCancelled, ended := s.clk.ns, body := .none }
      ∧ u.mgmt = { (s.taken rest).mgmt with
          ops := Tab.set OpSt.init s.mgmt.ops i (u.op i), ended := s.mgmt.ended ++ [i], sessions := u.mgmt.sessions }
      ∧ u = { s with mgmt := u.mgmt, out := u.out, led := { s.led with waits := s.led.waits.filter (fun p => p.2 ≠ .op i) } } := by
  have hi := State.opOf_lt hop
  have hcode : s.cancelCode i = some E.scanCancelled := by
    unfold State.cancelCode
    dsimp only
    rw [if_neg (not_not.mpr hruns), hscan]
  have hexec := exec_opCancel_taken hserves hbody hh hop
  rw [hcode] at hexec
  dsimp only at hexec
  rw [State.breakOp_scan (s := s.taken rest) hscan] at hexec
  obtain ⟨-, -, -, -, hsess⟩ := hserves
  obtain ⟨v, hv⟩ : ∃ v : State, v = (s.taken rest).ledRelease (.op i) := ⟨_, rfl⟩
  rw [← hv] at hexec
  obtain ⟨hmgmt, hopen⟩ := v.endOp_mgmt hi 4 E.scanCancelled
  have hended := (v.endOp_spec hi 4 E.scanCancelled).2
  have hframe := v.endOp_frame hi 4 E.scanCancelled
  generalize v.endOp i 4 E.scanCancelled = e at *
  obtain ⟨hanswer, hanswered⟩ := State.answer_spec (s := e) (r := r) (by rw [hopen, hv]; exact hsess) 0 0 []
  have hkept : (e.answer r 0 0 []).op i = e.op i := by
    rw [hanswered]
    rfl
  refine ⟨_, hexec, hanswer, ?_, ?_, ?_⟩
  · rw [hkept, hended, hv]
    rfl
  · rw [hkept, hanswered, hmgmt, hv]
    rfl
  · rw [hanswered, hframe, hv]
    rfl

theorem exec_subscribe_sets {z : SessSt} (h : s.serves 0x0007 r rest) (hlen : r.body.length = 4) (hz : s.session r.sess = some z) :
    ∃ u : State, exec .subscribe s = .next u.settle ∧ s.answeredAs u r rest 0 0 []
      ∧ (u.session r.sess).map (fun y => (y.mask, y.sentTo)) = some (leAt r.body 0 4 % 8, if bit z.mask 1 then z.sentTo else s.log.seq)
      ∧ u = { s with mgmt := u.mgmt, out := u.out } := by
  obtain ⟨y, hy⟩ : ∃ y : SessSt, y = { z with mask := leAt r.body 0 4 % 8, sentTo := if bit z.mask 1 then z.sentTo else s.log.seq } :=
    ⟨_, rfl⟩
  have hexec : exec .subscribe s = .next (((s.taken rest).setSession y).answer r 0).settle := by
    have hz' : (s.taken rest).session r.sess = some z := hz
    rw [exec_subscribe, execSubscribe, takeCmd_serves h, State.bodyOk_pos (by rw [hlen]; rfl), hz', hy]
    rfl
  have hid : y.id = r.sess := by rw [hy]; exact State.session_id (z := z) hz
  have hset : ((s.taken rest).setSession y).session r.sess = some y := by
    rw [← hid]
    exact State.session_setSession (hid ▸ hz)
  obtain ⟨hanswer, hframe⟩ := State.answer_spec (s := (s.taken rest).setSession y) (r := r) (by rw [hset]; rfl) 0 0 []
  refine ⟨_, hexec, ⟨hanswer, ?_⟩, ?_, ?_⟩
  · rw [hframe]
    rfl
  · rw [State.session_answer hset, hy]
  · rw [hframe]
    rfl

theorem exec_scan_begins {m a n p g cont i : Nat} (h : s.serves 0x0040 r rest) (hlen : r.body.length = 32) (hm : m = leAt r.body 0 1)
    (hmould : m < 64) (hp : p = leAt r.body 1 1) (hpoly : p < 3) (hfold : leAt r.body 2 1 < 3) (hcont : cont = leAt r.body 3 1)
    (hcont2 : cont < 2) (ha : a = leAt r.body 8 8) (hn : n = leAt r.body 16 8) (hlive : s.mouldLive m = true) (hline : a % 64 = 0)
    (hlines : n % 64 = 0) (hmin : 0 < n) (hmax : n ≤ 2 ^ 40) (hend : a + n ≤ 2 ^ 48) (hcovered : s.covered m a n 1 = true)
    (hscans : s.scans < 4) (hfree : s.freeEntry = some i)
    (hg : g = (if cont = 1 then (leAt r.body 24 8 ^^^ scanOnes p) &&& scanOnes p else scanOnes p)) :
    ∃ u : State, exec .scan s = .next u.settle
      ∧ s.opStarted u r rest i 4 (cdiv n 65536) (.scan m a n p (leAt r.body 2 1) (leAt r.body 4 4) g 0)
      ∧ u = { s with mgmt := u.mgmt, out := u.out } := by
  refine ⟨_, ?_, State.opStarted_startOp h hfree 4 (cdiv n 65536) (.scan m a n p (leAt r.body 2 1) (leAt r.body 4 4) g 0)⟩
  have hform : (r.body.length == 32 && m < 64 && p < 3 && leAt r.body 2 1 < 3 && cont < 2) = true := by
    simp [hlen, hmould, hpoly, hfold, hcont2]
  have hrange : ¬ (a % 64 ≠ 0 || n % 64 ≠ 0 || n = 0 || 2 ^ 40 < n || 2 ^ 48 < a + n || !(s.taken rest).covered m a n 1) = true := by
    have hcovered' : (s.taken rest).covered m a n 1 = true := hcovered
    simp only [hcovered', hline, hlines, Bool.or_eq_true, decide_eq_true_eq, not_or]
    simp only [Bool.not_true, Bool.false_eq_true, not_false_eq_true, ne_eq, not_true_eq_false, and_true, true_and]
    omega
  have hlive' : (s.taken rest).mouldLive m = true := hlive
  have hscans' : ¬ 4 ≤ (s.taken rest).scans := Nat.not_le.mpr hscans
  rw [exec_scan, execScan, takeCmd_serves h]
  dsimp only
  rw [← hm, ← hp, ← hcont, ← ha, ← hn, State.bodyOk_pos hform, hlive', if_neg (by decide), if_neg hrange, if_neg hscans', ← hg]

/-- Settles O50: each clause is the lemma on what its command does. -/
theorem commandsOfTheManagementPlane : Obligations.CommandsOfTheManagementPlane :=
  ⟨fun _ _ _ => exec_ident_answers, fun _ _ _ _ _ => exec_csrRead_reads, fun _ _ _ _ _ _ _ => exec_csrRead_register,
    fun _ _ _ _ _ => exec_csrWrite_writes, fun _ _ _ _ _ => exec_logRead_answers, fun _ _ _ _ => exec_opStatus_answers,
    fun _ _ _ _ => exec_opStatus_unknown, fun _ _ _ _ _ _ _ _ _ _ _ _ _ => exec_opCancel_scan,
    fun _ _ _ _ _ => exec_opCancel_refused, fun _ _ _ _ => exec_subscribe_sets, fun _ _ _ _ _ _ _ _ _ _ => exec_scan_begins⟩

end Sys2Proof.Machine
end

section
/-! What keeps the time and the health score: faults of contexts, aborts of groups, fences and transitions of the device's state
(R266, R267, R373, R555 to R557, R563). -/
namespace Sys2Proof.Machine

/-- A register whose table lies above HEALTH_STATUS is at another address. -/
theorem regAddr_ne_healthStatus {r : RegName} (h : regAddr .healthStatus 0 0 < r.shape.base) (i j : Nat) :
    regAddr .healthStatus 0 0 ≠ regAddr r i j := by
  have hbase : r.shape.base ≤ regAddr r i j := by
    rw [regAddr, Nat.add_assoc]
    exact Nat.le_add_right ..
  omega

/-- The time and the score with its watch flag are in t as in s. -/
structure State.KeepsScore (s t : State) : Prop where
  clk : t.clk = s.clk
  score : t.rd F.healthStatus_score = s.rd F.healthStatus_score
  watch : t.flag F.healthStatus_watch = s.flag F.healthStatus_watch

namespace State.KeepsScore

theorem refl (s : State) : s.KeepsScore s := ⟨rfl, rfl, rfl⟩

theorem trans {s t u : State} (h : s.KeepsScore t) (k : t.KeepsScore u) : s.KeepsScore u :=
  ⟨k.clk.trans h.clk, k.score.trans h.score, k.watch.trans h.watch⟩

theorem foldl {α : Type} {f : State → α → State} (hf : ∀ (u : State) (a : α), u.KeepsScore (f u a)) (l : List α) (s : State) :
    s.KeepsScore (l.foldl f s) :=
  List.foldlRecOn l f (motive := s.KeepsScore) (refl s) fun t ht a _ => ht.trans (hf t a)

theorem ite {s t u : State} {p : Prop} [Decidable p] (h : s.KeepsScore t) (k : s.KeepsScore u) : s.KeepsScore (if p then t else u) := by
  split
  · exact h
  · exact k

theorem of_csr {s t : State} (hcsr : t.csr = s.csr) (hclk : t.clk = s.clk) : s.KeepsScore t :=
  ⟨hclk, State.rd_of_csr hcsr .., congrArg (· == 1) (State.rd_of_csr hcsr ..)⟩

theorem of_regsBut {s t : State} {as : List Nat} (h : RegsBut s t as) (hclk : t.clk = s.clk) (has : regAddr .healthStatus 0 0 ∉ as) :
    s.KeepsScore t :=
  ⟨hclk, h.rd has, congrArg (· == 1) (h.rd has)⟩

theorem setReg (s : State) {r : RegName} (i j v : Nat) (h : regAddr .healthStatus 0 0 < r.shape.base) : s.KeepsScore (s.setReg r i j v) :=
  of_regsBut (as := [regAddr r i j]) (fun _ ha => State.setReg_find s r i j v (List.ne_of_not_mem_cons ha)) rfl
    (by simpa using regAddr_ne_healthStatus h i j)

theorem wr (s : State) {f : Field} (v i j : Nat) (h : regAddr .healthStatus 0 0 < f.reg.shape.base) : s.KeepsScore (s.wr f v i j) :=
  setReg s i j _ h

theorem cnt (s : State) {f : Field} (i j n : Nat) (h : regAddr .healthStatus 0 0 < f.reg.shape.base) : s.KeepsScore (s.cnt f i j n) :=
  setReg s i j _ h

/-- Another field of HEALTH_STATUS is written. -/
theorem wr_beside (s : State) {f : Field} (v : Nat) (hreg : f.reg = .healthStatus)
    (hscore : F.healthStatus_score.lo + F.healthStatus_score.width ≤ f.lo ∨ f.lo + f.width ≤ F.healthStatus_score.lo)
    (hwatch : F.healthStatus_watch.lo + F.healthStatus_watch.width ≤ f.lo ∨ f.lo + f.width ≤ F.healthStatus_watch.lo) :
    s.KeepsScore (s.wr f v) :=
  ⟨rfl, State.rd_wr_beside s (g := F.healthStatus_score) v 0 0 hreg.symm (by decide) hscore,
    congrArg (· == 1) (State.rd_wr_beside s (g := F.healthStatus_watch) v 0 0 hreg.symm (by decide) hwatch)⟩

theorem logEvt (s : State) (code source m d : Nat) : s.KeepsScore (s.logEvt code source m d) :=
  of_regsBut (State.regsBut_logEvt s code source m d) (by simp) (by decide)

theorem logWith (s : State) (code source m v : Nat) : s.KeepsScore (s.logWith code source m v) := logEvt ..

theorem logFree (s : State) (code source m : Nat) : s.KeepsScore (s.logFree code source m) :=
  of_regsBut (State.regsBut_logFree s code source m) (by simp) (by decide)

theorem alert (s : State) (k : Nat) : s.KeepsScore (s.alert k) :=
  of_regsBut (State.regsBut_alert s k) (by rw [State.alert_frame]) (by decide)

theorem setClu (s : State) (c : Nat) (v : ClusterSt) : s.KeepsScore (s.setClu c v) := of_csr rfl rfl

theorem setThread (s : State) (c t : Nat) (v : ThreadSt) : s.KeepsScore (s.setThread c t v) := of_csr rfl rfl

theorem setStream (s : State) (c st : Nat) (v : StreamSt) : s.KeepsScore (s.setStream c st v) := of_csr rfl rfl

theorem setSeng (s : State) (c e : Nat) (v : SeSt) : s.KeepsScore (s.setSeng c e v) := of_csr rfl rfl

theorem setArray (s : State) (c a : Nat) (v : ArraySt) : s.KeepsScore (s.setArray c a v) := of_csr rfl rfl

theorem setMould (s : State) (m : Nat) (v : MouldSt) : s.KeepsScore (s.setMould m v) := of_csr rfl rfl

theorem setGrp (s : State) (g : Nat) (v : GroupSt) : s.KeepsScore (s.setGrp g v) := of_csr rfl rfl

theorem setHealth (s : State) (h : HealthSt) : s.KeepsScore { s with health := h } := of_csr rfl rfl

theorem setRop (s : State) (i : Nat) (o : ROp) : s.KeepsScore (s.setRop i o) := of_csr rfl rfl

theorem notify (s : State) (z : SessSt) (ty : Nat) (b : Bytes) : s.KeepsScore (s.notify z ty b) := of_csr rfl rfl

theorem endOp (s : State) (i state status : Nat) : s.KeepsScore (s.endOp i state status) := by
  unfold State.endOp
  split
  · exact of_csr rfl rfl
  · dsimp only
    generalize ({ s.op i with state := state, status := status, ended := s.clk.ns, body := .none } : OpSt) = p
    obtain ⟨t, ht⟩ : ∃ t : State, t = { s.setOp i p with mgmt := { (s.setOp i p).mgmt with ended := (s.setOp i p).mgmt.ended ++ [i] } } :=
      ⟨_, rfl⟩
    have hstored : s.KeepsScore t := of_csr (by rw [ht]; rfl) (by rw [ht]; rfl)
    rw [← ht]
    exact hstored.trans (foldl (fun u z => notify u z 3 (opBody p)) _ t)

theorem moveMould (s : State) (m new heat : Nat) : s.KeepsScore (s.moveMould m new heat) :=
  (wr s (f := F.mouldStatus_state) new m 0 (by decide)).trans (logEvt ..)

theorem clearArray (s : State) (c a : Nat) : s.KeepsScore (s.clearArray c a) := by
  have hcleared := setArray s c a { ArraySt.init with holdEnd := (s.array c a).holdEnd }
  have hmode := hcleared.trans (wr _ (f := F.arrStatus_mode) 3 c a (by decide))
  exact (hmode.trans (wr _ (f := F.arrStatus_held) 0 c a (by decide))).trans (wr _ (f := F.arrStatus_replaying) 0 c a (by decide))

theorem hold (s : State) (c a until_ : Nat) : s.KeepsScore (s.hold c a until_) := by
  refine foldl (fun u b => ?_) _ s
  exact (wr u (f := F.arrStatus_power) 3 c b (by decide)).trans (setArray _ c b _)

theorem loadArrCfg (s : State) (c a m : Nat) (lent : Bool) : s.KeepsScore (s.loadArrCfg c a m lent) := by
  have hwr : ∀ (u : State) {f : Field} (v : Nat), f.reg = .arrCfg → u.KeepsScore (u.wr f v c a) := fun u f v hreg =>
    wr u v c a (by rw [hreg]; decide)
  unfold State.loadArrCfg
  dsimp only
  exact (((((hwr s _ rfl).trans (hwr _ _ rfl)).trans (hwr _ _ rfl)).trans (hwr _ _ rfl)).trans (hwr _ _ rfl)).trans
    ((hwr _ _ rfl).trans (hwr _ _ rfl))

theorem releaseArrays (s : State) (c mask : Nat) : s.KeepsScore (s.releaseArrays c mask) := by
  refine foldl (fun u a => ?_) _ s
  have hcleared : u.KeepsScore
      (if u.rd F.arrStatus_power c a = 2 then (u.clearArray c a).hold c a (u.clk.up + u.gangHold c a) else u.clearArray c a) := by
    split
    · exact (clearArray u c a).trans (hold ..)
    · exact clearArray u c a
  dsimp only
  split
  · split
    · exact hcleared.trans (loadArrCfg ..)
    · exact hcleared
  · exact hcleared

theorem haltEngines (s : State) (c mask : Nat) : s.KeepsScore (s.haltEngines c mask) := by
  refine foldl (fun u i => ?_) _ s
  split
  · exact (setSeng u c (4 + i) _).trans (wr _ (f := F.seStatus_state) 3 c i (by decide))
  · exact refl u

theorem pushRecord (s : State) (c st active : Nat) (stopped : Option Nat) : s.KeepsScore (s.pushRecord c st active stopped) := by
  unfold State.pushRecord
  dsimp only
  split
  · exact refl s
  · exact setClu ..

theorem freeStream (s : State) (c st active : Nat) : s.KeepsScore (s.freeStream c st active) := by
  unfold State.freeStream
  dsimp only
  have hreleased := (releaseArrays s c (s.stream c st).arrays).trans (haltEngines _ c (s.stream c st).engines)
  exact (hreleased.trans (setStream _ c st _)).trans (wr _ (f := F.seqStream_state) 0 c st (by decide))

theorem endAudit (s : State) (c m status : Nat) : s.KeepsScore (s.endAudit c m status) := by
  unfold State.endAudit
  dsimp only
  split
  · have hcleared := (setClu s c { s.clu c with auditOp := none }).trans (setMould _ m { s.mould m with auditing := false })
    split
    · exact (hcleared.trans (moveMould ..)).trans (endOp ..)
    · exact hcleared.trans (endOp ..)
  · exact refl s

theorem countRun (s : State) (m x : Nat) : s.KeepsScore (s.countRun m x) := setMould s m _

theorem endAudit_of (b : Bool) (s : State) (c m status : Nat) : s.KeepsScore (if b then s.endAudit c m status else s) := by
  cases b with
  | true => exact endAudit ..
  | false => exact refl s

theorem stopSegAt (s : State) (c st : Nat) (code : Option Nat) (elapsed : Nat) : s.KeepsScore (s.stopSegAt c st code elapsed) := by
  unfold State.stopSegAt
  dsimp only
  split
  · exact refl s
  · have hcounted := countRun s (s.rd F.seqStream_mould c st) (s.rd F.seqStream_ctx c st)
    have hbeats := hcounted.trans (wr _ (f := F.seqBeats_elapsed) elapsed c st (by decide))
    refine State.KeepsScore.trans ?_ (endAudit_of ..)
    refine State.KeepsScore.trans ?_ (freeStream ..)
    refine hbeats.trans ?_
    split
    · exact pushRecord ..
    · split
      · exact refl _
      · exact cnt _ (f := F.dgCnt_abandoned) c 0 1 (by decide)

theorem stopSeg (s : State) (c st : Nat) (code : Option Nat) : s.KeepsScore (s.stopSeg c st code) := by
  have hfresh : s.KeepsScore { s with free := s.free + 1 } := of_csr rfl rfl
  exact hfresh.trans (stopSegAt _ c st code _)

theorem freeThread (s : State) (c t : Nat) : s.KeepsScore (s.freeThread c t) := by
  have hcleared := (setThread s c t ThreadSt.init).trans (setReg _ (r := .thrStatus) c t 0 (by decide))
  exact hcleared.trans (wr _ (f := F.thrStatus_remoteOut) _ c t (by decide))

theorem stopThreads (s : State) (m x : Nat) : s.KeepsScore (s.stopThreads m x) := by
  refine foldl (fun u e => foldl (fun w t => ?_) _ u) _ s
  split
  · exact freeThread ..
  · exact refl w

theorem emptyQueues (s : State) (m x : Nat) : s.KeepsScore (s.emptyQueues m x) := by
  refine foldl (fun u e => ?_) _ s
  exact setClu ..

theorem dropMovs (s : State) (m x : Nat) : s.KeepsScore (s.dropMovs m x) := by
  refine foldl (fun u e => ?_) _ s
  exact setClu ..

theorem zeroTokens (s : State) (m x : Nat) : s.KeepsScore (s.zeroTokens m x) := by
  refine foldl (fun u e => ?_) _ s
  exact setClu ..

theorem stopCtx (s : State) (m x : Nat) (code : Option Nat) : s.KeepsScore (s.stopCtx m x code) := by
  have hstopped := foldl (fun (u : State) (p : Nat × Nat) => stopSeg u p.1 p.2 code) (s.runsOf m x) s
  exact ((hstopped.trans (emptyQueues _ m x)).trans (dropMovs _ m x)).trans (stopThreads _ m x)

theorem endQueuedColl (s : State) (g code : Nat) : s.KeepsScore (s.endQueuedColl g code) := by
  refine foldl (fun u p => ?_) _ s
  dsimp only
  split
  · exact refl u
  · exact (foldl (fun w v => setRop w _ _) _ u).trans (setClu ..)

theorem abortGroup (s : State) (g code : Nat) : s.KeepsScore (s.abortGroup g code) := by
  unfold State.abortGroup
  dsimp only
  split
  · exact refl s
  · have hannounced : s.KeepsScore (s.announceAbort g code) := of_csr rfl rfl
    have hended : s.KeepsScore (match (s.grp g).cur with
        | some c => (s.announceAbort g code).endColl c.opId code
        | none => s.announceAbort g code) := by
      split
      · exact hannounced.trans (setRop ..)
      · exact hannounced
    refine State.KeepsScore.trans ?_ (logWith ..)
    refine State.KeepsScore.trans ?_ (wr _ (f := F.collG_state) 3 g 0 (by decide))
    exact (hended.trans (endQueuedColl ..)).trans (setGrp ..)

theorem abortCtxGroups (s : State) (m x code : Nat) : s.KeepsScore (s.abortCtxGroups m x code) := by
  refine foldl (fun u g => ?_) _ s
  split
  · exact abortGroup ..
  · exact refl u

theorem abandon (s : State) (m x : Nat) : s.KeepsScore (s.abandon m x) := by
  refine foldl (fun u e => ?_) _ s
  dsimp only
  split
  · exact refl u
  · exact (setClu u e.1 _).trans (cnt _ (f := F.dgCnt_abandoned) e.1 0 _ (by decide))

theorem quenchCtx (s : State) (m x : Nat) : s.KeepsScore (s.quenchCtx m x) := by
  have hraised : s.KeepsScore (s.raiseHeat m) := wr s (f := F.mouldStatus_heat) _ m 0 (by decide)
  have hbased := hraised.trans (wr _ (f := F.ctxStatus_baseHeat) ((s.raiseHeat m).heat m) m x (by decide))
  have hstopped := ((hbased.trans (stopCtx _ m x none)).trans (abandon _ m x)).trans (zeroTokens _ m x)
  exact (hstopped.trans (abortCtxGroups _ m x E.collAborted)).trans (setMould _ m _)

theorem faultCtx (s : State) (m x code src c : Nat) : s.KeepsScore (s.faultCtx m x code src c) := by
  unfold State.faultCtx
  dsimp only
  split
  · exact logEvt ..
  · have hstopped := (stopCtx s m x (some code)).trans (abortCtxGroups _ m x E.collAborted)
    have hmarked := hstopped.trans (wr _ (f := F.ctxStatus_faultCode) code m x (by decide))
    split
    · exact ((hmarked.trans (setMould _ m _)).trans (logEvt ..)).trans (quenchCtx ..)
    · exact (hmarked.trans (setMould _ m _)).trans (logEvt ..)

theorem threadExc (s : State) (c t cause code addr : Nat) : s.KeepsScore (s.threadExc c t cause code addr) := by
  unfold State.threadExc
  dsimp only
  split
  · exact logWith ..
  · have hlogged := logWith s 0x1601 (srcEngine c 6) (s.rd F.thrStatus_mould c t) (cause + addr % 2 ^ 64 * 2 ^ 16)
    have hstate := (hlogged.trans (wr _ (f := F.thrStatus_state) 5 c t (by decide))).trans
      (wr _ (f := F.thrStatus_cause) cause c t (by decide))
    have hcounted := hstate.trans (cnt _ (f := F.coreCnt_exceptions) c 0 1 (by decide))
    have hnoted := (hcounted.trans (wr _ (f := F.thrFault_addr) addr c t (by decide))).trans
      (wr _ (f := F.thrFault_code) code c t (by decide))
    split
    · exact (hnoted.trans (setThread ..)).trans (faultCtx ..)
    · exact hnoted.trans (setThread ..)

theorem threadResult (s : State) (id : Nat) (o : ROp) (code : Nat) (res : Bytes) (ver : Nat) :
    s.KeepsScore (s.threadResult id o code res ver) := by
  have hcounted := wr s (f := F.thrStatus_remoteOut) (s.rd F.thrStatus_remoteOut o.cluster o.thread - 1) o.cluster o.thread (by decide)
  unfold State.threadResult
  dsimp only
  split
  · split
    · exact hcounted
    · exact (hcounted.trans (setThread ..)).trans (logFree ..)
  · split
    · exact hcounted
    · split
      · exact hcounted.trans (threadExc ..)
      · exact (hcounted.trans (setThread ..)).trans (wr _ (f := F.thrStatus_state) 1 _ _ (by decide))

theorem noteFences (s : State) (o : ROp) (id code : Nat) : s.KeepsScore (s.noteFences o id code) := by
  unfold State.noteFences
  split
  · exact refl s
  · refine foldl (fun u p => foldl (fun w t => ?_) _ u) _ s
    dsimp only
    split
    · exact setThread ..
    · exact refl w

theorem writeMem (s : State) (m a : Nat) (bs : Bytes) : s.KeepsScore (s.writeMem m a bs) := by
  rw [State.writes_writeMem]
  exact of_csr rfl rfl

theorem freeSlot (s : State) (m : Nat) : s.KeepsScore (s.freeSlot m) := wr s (f := F.fabSlots_used) _ m 0 (by decide)

theorem countSlag_of (b : Bool) (s : State) (m : Nat) : s.KeepsScore (if b then s.countSlag m else s) := by
  cases b with
  | true => exact cnt s (f := F.slagCount_count) m 0 1 (by decide)
  | false => exact refl s

theorem endRop (s : State) (id code : Nat) (res : Bytes) (ver : Nat) (slag : Bool) : s.KeepsScore (s.endRop id code res ver slag) := by
  unfold State.endRop
  dsimp only
  split
  · exact refl s
  · have htx : s.KeepsScore (s.setTx (streamKey (s.rop id).dev (s.rop id).mould) { s.txS (streamKey (s.rop id).dev (s.rop id).mould) with
        out := (s.txS (streamKey (s.rop id).dev (s.rop id).mould)).out.filter (fun e => e.op ≠ id) }) := of_csr rfl rfl
    have hnoted := (htx.trans (freeSlot _ (s.rop id).mould)).trans
      (noteFences _ (s.rop id) id (if (s.rop id).fail = 0 then code else (s.rop id).fail))
    have hcounted := hnoted.trans (countSlag_of slag _ (s.rop id).mould)
    refine ite ?_ ?_
    · exact (hcounted.trans (ite (writeMem ..) (refl _))).trans (setRop ..)
    · exact (hcounted.trans (setRop ..)).trans (ite (wr _ (f := F.thrStatus_remoteOut) _ _ _ (by decide)) (threadResult ..))

theorem endAllRemote (s : State) : s.KeepsScore s.endAllRemote := by
  refine foldl (fun u e => ?_) _ s
  dsimp only
  split
  · exact refl u
  · exact endRop ..

theorem dispatchFrame (s : State) (f : Bytes) (ctx : Nat) : s.KeepsScore (s.dispatchFrame f 12 ctx) := by
  obtain ⟨hframe, hregs, -, -⟩ := State.Sends.dispatchFrame 0 s f ctx
  exact of_regsBut hregs (by rw [hframe]) (by decide)

theorem flushAborts (s : State) : s.KeepsScore s.flushAborts := by
  have hsent : ∀ (u : State) (a : AbortSt), u.KeepsScore (u.sendAbort a) := fun u a =>
    foldl (fun w d => dispatchFrame w _ 0) a.devs u
  unfold State.flushAborts
  dsimp only
  generalize (s.aborts.filterMap _ : List AbortSt) = rest
  have hrest : s.KeepsScore { s with aborts := rest } := of_csr rfl rfl
  exact hrest.trans (foldl hsent _ _)

theorem leavePool (s : State) : s.KeepsScore s.leavePool :=
  ((foldl (fun u g => abortGroup u g E.collMemberLost) _ s).trans (endAllRemote _)).trans (flushAborts _)

theorem devState (s : State) (new cause : Nat) : s.KeepsScore (s.devState new cause) := by
  have hstate := wr_beside s (f := F.healthStatus_state) new rfl (by decide) (by decide)
  exact (hstate.trans (wr _ (f := F.membStatus_lastCause) cause 0 0 (by decide))).trans (logEvt ..)

theorem setRetained (s : State) (until_ : Option Nat) : s.KeepsScore (s.setRetained until_) := by
  have hend : s.KeepsScore { s with health := { s.health with retainEnd := until_ } } := of_csr rfl rfl
  have hset := hend.trans (wr_beside _ (f := F.healthStatus_retained) (ofBool until_.isSome) rfl (by decide) (by decide))
  unfold State.setRetained
  dsimp only
  split
  · exact hset
  · exact hset.trans (logWith ..)

theorem goTo (s : State) (new cause : Nat) : s.KeepsScore (s.goTo new cause) := by
  unfold State.goTo
  dsimp only
  have hretained : ∀ b : Bool, s.KeepsScore (if b then (s.devState new cause).setRetained none else s.devState new cause) := fun b => by
    cases b with
    | true => exact (devState s new cause).trans (setRetained ..)
    | false => exact devState s new cause
  have hleft : ∀ (b : Bool) (u : State), u.KeepsScore (if b then u.leavePool else u) := fun b u => by
    cases b with
    | true => exact leavePool u
    | false => exact refl u
  exact ((hretained _).trans (hleft _ _)).trans (setHealth ..)

/-- Whatever row of Table 19.1 applies (R556). -/
theorem evaluate (s : State) (cert : Option Nat) : s.KeepsScore (s.evaluate cert) := by
  unfold State.evaluate
  refine ite (goTo ..) (ite (goTo ..) (ite (goTo ..) (ite (goTo ..) (ite (goTo ..) (ite ?admission (ite ?candidate ?member))))))
  case admission =>
    split
    · exact refl s
    · have hnoted := setHealth s { s.health with admitAt := none }
      exact ite (hnoted.trans (goTo ..)) (ite (hnoted.trans (devState ..)) (refl s))
  case candidate => exact ite (goTo ..) (ite (goTo ..) (refl s))
  case member => exact ite (ite (goTo ..) (refl s)) (ite (ite (goTo ..) (refl s)) (refl s))

end State.KeepsScore

end Sys2Proof.Machine
end

section
/-! What the health score and the cores are read from, and the first steps of a heartbeat, which leave it (R288, R289, R493, R558,
R561). -/
namespace Sys2Proof.Machine

/-- The fields that the penalties of Table 19.2 and the cores that run are read from. -/
def scoreReads : List (Field × Nat) :=
  [(F.thermStatus_tjMax, 0), (F.healthStatus_state, 0), (F.mcStatus_coreUp, 0), (F.fabTopo_xM1, 0), (F.fabTopo_yM1, 0),
    (F.fabTopo_zM1, 0), (F.membFence_fenced, 0), (F.membFence_fenced, 1)]
  ++ (List.range 12).map (fun p => (F.portStatus_state, p)) ++ (List.range 128).map (fun n => (F.gddrCh_state, n))
  ++ (List.range 4).map (fun k => (F.cxlDev_present, k)) ++ (List.range 4).map (fun k => (F.cxlDev_linkUp, k))

theorem portState_mem_scoreReads {p : Nat} (h : p < 12) : (F.portStatus_state, p) ∈ scoreReads := by
  simp only [scoreReads, List.mem_append, List.mem_map, List.mem_range]
  exact .inl (.inl (.inl (.inr ⟨p, h, rfl⟩)))

theorem channelState_mem_scoreReads {n : Nat} (h : n < 128) : (F.gddrCh_state, n) ∈ scoreReads := by
  simp only [scoreReads, List.mem_append, List.mem_map, List.mem_range]
  exact .inl (.inl (.inr ⟨n, h, rfl⟩))

theorem cxlPresent_mem_scoreReads {k : Nat} (h : k < 4) : (F.cxlDev_present, k) ∈ scoreReads := by
  simp only [scoreReads, List.mem_append, List.mem_map, List.mem_range]
  exact .inl (.inr ⟨k, h, rfl⟩)

theorem cxlLink_mem_scoreReads {k : Nat} (h : k < 4) : (F.cxlDev_linkUp, k) ∈ scoreReads := by
  simp only [scoreReads, List.mem_append, List.mem_map, List.mem_range]
  exact .inr ⟨k, h, rfl⟩

/-- The field g at index k lies in another register than field f at (i, j), or beside it. -/
abbrev Field.Apart (f : Field) (i j : Nat) (g : Field) (k : Nat) : Prop :=
  regAddr g.reg k 0 ≠ regAddr f.reg i j ∨ (g.reg = f.reg ∧ g.fits ∧ (g.lo + g.width ≤ f.lo ∨ f.lo + f.width ≤ g.lo))

theorem State.rd_wr_apart (s : State) {f g : Field} {i j k : Nat} (v : Nat) (h : f.Apart i j g k) : (s.wr f v i j).rd g k = s.rd g k := by
  obtain hne | ⟨hreg, hfits, hbits⟩ := h
  · exact State.rd_wr_ne s v hne
  · exact State.rd_wr_otherBits s v i j k 0 (by rw [hreg]) hfits hbits

/-- A write of field f at (i, j) leaves what the score is read from. -/
abbrev Field.Unread (f : Field) (i j : Nat) : Prop := ∀ p ∈ scoreReads, f.Apart i j p.1 p.2

theorem unread_gddrCh_crcRetries {ch : Nat} (hch : ch < 128) : F.gddrCh_crcRetries.Unread ch 0 := by
  have hothers : ∀ p ∈ scoreReads, p.1 = F.gddrCh_state ∨ regAddr p.1.reg p.2 0 < 0x701000 ∨ 0x701400 ≤ regAddr p.1.reg p.2 0 := by
    decide +kernel
  intro p hp
  obtain hstate | haway := hothers p hp
  · exact .inr (by rw [hstate]; decide)
  · have haddr : regAddr F.gddrCh_crcRetries.reg ch 0 = 0x701000 + 8 * ch := rfl
    exact .inl (by omega)

/-- What the score of t is read from is as in s: the time, the events it counts, and the fields. -/
structure State.ScoresAlike (s t : State) : Prop where
  clk : t.clk = s.clk
  evs : t.health.evs.filter (fun e => e.kind < 14) = s.health.evs.filter (fun e => e.kind < 14)
  fields : ∀ p ∈ scoreReads, t.rd p.1 p.2 = s.rd p.1 p.2

namespace State.ScoresAlike

theorem refl (s : State) : s.ScoresAlike s := ⟨rfl, rfl, fun _ _ => rfl⟩

theorem trans {s t u : State} (h : s.ScoresAlike t) (k : t.ScoresAlike u) : s.ScoresAlike u :=
  ⟨k.clk.trans h.clk, k.evs.trans h.evs, fun p hp => (k.fields p hp).trans (h.fields p hp)⟩

theorem ite {s t u : State} {p : Prop} [Decidable p] (h : s.ScoresAlike t) (k : s.ScoresAlike u) : s.ScoresAlike (if p then t else u) := by
  split
  · exact h
  · exact k

theorem of_csr {s t : State} (hcsr : t.csr = s.csr) (hclk : t.clk = s.clk) (hhealth : t.health = s.health) : s.ScoresAlike t :=
  ⟨hclk, by rw [hhealth], fun _ _ => State.rd_of_csr hcsr ..⟩

theorem of_regsBut {s t : State} {as : List Nat} (h : RegsBut s t as) (hclk : t.clk = s.clk) (hhealth : t.health = s.health)
    (has : ∀ p ∈ scoreReads, regAddr p.1.reg p.2 0 ∉ as) : s.ScoresAlike t :=
  ⟨hclk, by rw [hhealth], fun p hp => h.rd (has p hp)⟩

theorem wr (s : State) {f : Field} {i j : Nat} (v : Nat) (h : f.Unread i j) : s.ScoresAlike (s.wr f v i j) :=
  ⟨rfl, rfl, fun p hp => State.rd_wr_apart s v (h p hp)⟩

theorem cnt (s : State) {f : Field} {i j : Nat} (n : Nat) (h : f.Unread i j) : s.ScoresAlike (s.cnt f i j n) := wr s _ h

theorem logEvt (s : State) (code source m d : Nat) : s.ScoresAlike (s.logEvt code source m d) :=
  of_regsBut (State.regsBut_logEvt s code source m d) (by simp) (by simp) (by decide +kernel)

theorem logFree (s : State) (code source m : Nat) : s.ScoresAlike (s.logFree code source m) :=
  of_regsBut (State.regsBut_logFree s code source m) (by simp) (by simp) (by decide +kernel)

theorem alert (s : State) (k : Nat) : s.ScoresAlike (s.alert k) :=
  of_regsBut (State.regsBut_alert s k) (by rw [State.alert_frame]) (by rw [State.alert_frame]) (by decide +kernel)

/-- An operation that is given a handle. -/
theorem newOp (s : State) (cmd kind total : Nat) (body : OpBody) : s.ScoresAlike (((s.newOp cmd kind total body).map (·.2)).getD s) := by
  unfold State.newOp
  split
  · exact refl s
  · exact of_csr rfl rfl rfl

theorem autoRetrain (s : State) (ch : Nat) : s.ScoresAlike (s.autoRetrain ch) := ite (refl s) (newOp ..)

end State.ScoresAlike

/-- The hot spots are shown, and the waits begin anew (R289). -/
theorem State.hotBanks_spec (s : State) :
    RegsBut s s.hotBanks ((List.range 64).map fun m => regAddr .hotBank m 0)
      ∧ s.hotBanks = { s with csr := s.hotBanks.csr, tier := { s.tier with waits := [] } } := by
  unfold State.hotBanks
  dsimp only
  generalize hshown : (List.range 64).foldl _ s = t
  have hfold : RegsBut s t ((List.range 64).map fun m => regAddr .hotBank m 0) ∧ t = { s with csr := t.csr } := by
    rw [← hshown]
    refine List.foldlRecOn (List.range 64) _
      (motive := fun u : State => RegsBut s u ((List.range 64).map fun m => regAddr .hotBank m 0) ∧ u = { s with csr := u.csr })
      ⟨RegsBut.refl s _, rfl⟩ fun u hu m hm => ?_
    obtain ⟨hregs, hframe⟩ := hu
    have hset : ∀ v, RegsBut u (u.setReg .hotBank m 0 v) [regAddr .hotBank m 0] := fun v a ha =>
      State.setReg_find u .hotBank m 0 v (List.ne_of_not_mem_cons ha)
    have hmem := List.mem_map_of_mem (f := fun m => regAddr .hotBank m 0) hm
    split <;> exact ⟨hregs.step (hset _) hmem, by rw [hframe]; rfl⟩
  obtain ⟨hregs, hframe⟩ := hfold
  refine ⟨hregs, ?_⟩
  rw [hframe]

/-- With no retries each channel shows none (R288). -/
theorem State.channelRetries_of_none {s : State} (h : s.tier.retries = []) :
    RegsBut s s.channelRetries ((List.range 128).map fun ch => regAddr .gddrCh ch 0)
      ∧ s.channelRetries = { s with csr := s.channelRetries.csr } := by
  have hnone : s.channelRetries = (List.range 128).foldl (fun (u : State) ch => u.wr F.gddrCh_crcRetries 0 ch) s := by
    have hsame : ({ s with tier := { s.tier with retries := [] } } : State) = s := by rw [← h]
    unfold State.channelRetries
    dsimp only
    rw [hsame, h]
    rfl
  rw [hnone]
  refine List.foldlRecOn (List.range 128) _
    (motive := fun u : State => RegsBut s u ((List.range 128).map fun ch => regAddr .gddrCh ch 0) ∧ u = { s with csr := u.csr })
    ⟨RegsBut.refl s _, rfl⟩ fun u hu ch hch => ?_
  obtain ⟨hregs, hframe⟩ := hu
  refine ⟨hregs.step (State.regsBut_wr u F.gddrCh_crcRetries 0 ch 0) (List.mem_map_of_mem (f := fun ch => regAddr .gddrCh ch 0) hch), ?_⟩
  rw [hframe]
  rfl

/-- A register below those of the moulds is not among the hot spots. -/
theorem notMem_hotBanks {a : Nat} (h : a < 0x800000) : a ∉ (List.range 64).map fun m => regAddr .hotBank m 0 := by
  have haddr : ∀ m, regAddr .hotBank m 0 = 0x800020 + 0x4000 * m := fun _ => rfl
  simp only [List.mem_map, haddr, not_exists, not_and]
  omega

/-- A register below those of GDDR7 is not among the channels'. -/
theorem notMem_gddrChannels {a : Nat} (h : a < 0x701000) : a ∉ (List.range 128).map fun ch => regAddr .gddrCh ch 0 := by
  have haddr : ∀ ch, regAddr .gddrCh ch 0 = 0x701000 + 8 * ch := fun _ => rfl
  simp only [List.mem_map, haddr, not_exists, not_and]
  omega

namespace State.ScoresAlike

theorem hotBanks (s : State) : s.ScoresAlike s.hotBanks := by
  have hbelow : ∀ p ∈ scoreReads, regAddr p.1.reg p.2 0 < 0x800000 := by decide +kernel
  obtain ⟨hregs, hframe⟩ := s.hotBanks_spec
  exact of_regsBut hregs (by rw [hframe]) (by rw [hframe]) fun p hp => notMem_hotBanks (hbelow p hp)

theorem channelRetries (s : State) : s.ScoresAlike s.channelRetries := by
  have hcleared : s.ScoresAlike { s with tier := { s.tier with retries := [] } } := of_csr rfl rfl rfl
  unfold State.channelRetries
  refine List.foldlRecOn (List.range 128) _ (motive := s.ScoresAlike) hcleared fun t ht ch hch => ht.trans ?_
  have hshown := wr t (min 255 (Tab.get 0 s.tier.retries ch)) (unread_gddrCh_crcRetries (List.mem_range.mp hch))
  exact ite hshown (ite ((hshown.trans (alert _ 1)).trans (logEvt ..)) (hshown.trans (autoRetrain ..)))

theorem logBeat (s : State) : s.ScoresAlike s.logBeat := by
  have hcleared : s.ScoresAlike { s with log := { s.log with hbCount := 0, hbDropped := 0 } } := of_csr rfl rfl rfl
  unfold State.logBeat
  exact ite hcleared (hcleared.trans (logEvt ..))

/-- Hard limits are counted as events of a kind that no penalty counts (R558). -/
theorem count_hardLimit (s : State) : s.ScoresAlike (s.count 14 255) := ⟨rfl, by simp [State.count], fun _ _ => rfl⟩

theorem unread_hardLimit {f : Field} (hreg : f.reg = .hardLimit) : f.Unread 0 0 := by
  have hothers : ∀ p ∈ scoreReads, regAddr p.1.reg p.2 0 ≠ regAddr .hardLimit 0 0 := by decide +kernel
  intro p hp
  rw [Field.Apart, hreg]
  exact .inl (hothers p hp)

theorem unread_hard : F.healthStatus_hard.Unread 0 0 := by decide +kernel

theorem hardSet (s : State) {f : Field} (hreg : f.reg = .hardLimit) : s.ScoresAlike (s.hardSet f) := by
  have hset := (wr s 1 (unread_hardLimit hreg)).trans (wr _ 1 unread_hard)
  have hcounted := (hset.trans (cnt _ 1 (unread_hardLimit (f := F.hardLimit_events) rfl))).trans (count_hardLimit _)
  exact ite (refl s) ((hcounted.trans (alert _ 2)).trans (logFree ..))

theorem hardClear (s : State) {f : Field} (hreg : f.reg = .hardLimit) : s.ScoresAlike (s.hardClear f) :=
  (wr s 0 (unread_hardLimit hreg)).trans (wr _ _ unread_hard)

theorem hardLimits (s : State) : s.ScoresAlike s.hardLimits := by
  have hrate := ite (p := s.longAlarm = true) (hardSet s (f := F.hardLimit_rateAlarm) rfl) (hardClear s (f := F.hardLimit_rateAlarm) rfl)
  unfold State.hardLimits
  exact hrate.trans (ite (hardSet _ rfl) (ite (hardClear _ rfl) (refl _)))

variable {s t : State}

theorem fencedCluster (h : s.ScoresAlike t) {c : Nat} (hc : c < 96) : t.fencedCluster c = s.fencedCluster c := by
  have hword : t.rd F.membFence_fenced (c / 64) = s.rd F.membFence_fenced (c / 64) := by
    obtain h0 | h1 : c / 64 = 0 ∨ c / 64 = 1 := by omega
    · rw [h0]
      exact h.fields (F.membFence_fenced, 0) (by decide +kernel)
    · rw [h1]
      exact h.fields (F.membFence_fenced, 1) (by decide +kernel)
  rw [State.fencedCluster, State.fencedCluster, hword]

/-- Sums of events of the kinds that penalties count are alike (R558). -/
theorem evSum (h : s.ScoresAlike t) {kinds : List Nat} (hkinds : ∀ k ∈ kinds, k < 14) (n : Nat) : t.evSum kinds n = s.evSum kinds n := by
  have hcounted : ∀ e : HEv, (kinds.contains e.kind && decide (s.clk.up / 1000000000 < e.sec + n)
        && !(decide (e.cluster < 96) && t.fencedCluster e.cluster))
      = (kinds.contains e.kind && decide (s.clk.up / 1000000000 < e.sec + n)
        && !(decide (e.cluster < 96) && s.fencedCluster e.cluster)) := by
    intro e
    by_cases hc : e.cluster < 96
    · rw [h.fencedCluster hc]
    · rw [decide_eq_false hc, Bool.false_and, Bool.false_and]
  have hkind : ∀ l : List HEv, l.filter (fun e => kinds.contains e.kind && decide (s.clk.up / 1000000000 < e.sec + n)
        && !(decide (e.cluster < 96) && s.fencedCluster e.cluster))
      = (l.filter fun e => e.kind < 14).filter (fun e => kinds.contains e.kind && decide (s.clk.up / 1000000000 < e.sec + n)
        && !(decide (e.cluster < 96) && s.fencedCluster e.cluster)) := by
    intro l
    rw [List.filter_filter]
    refine List.filter_congr fun e _ => ?_
    by_cases hin : e.kind ∈ kinds
    · rw [decide_eq_true (hkinds _ hin), Bool.and_true]
    · have hout : kinds.contains e.kind = false := by simpa using hin
      rw [hout, Bool.false_and, Bool.false_and, Bool.false_and]
  unfold State.evSum
  dsimp only
  rw [h.clk, List.filter_congr fun e _ => hcounted e, hkind, h.evs, ← hkind]

theorem dimSize (h : s.ScoresAlike t) (k : Nat) : t.dimSize k = s.dimSize k := by
  have hx : t.rd F.fabTopo_xM1 = s.rd F.fabTopo_xM1 := h.fields (F.fabTopo_xM1, 0) (by decide +kernel)
  have hy : t.rd F.fabTopo_yM1 = s.rd F.fabTopo_yM1 := h.fields (F.fabTopo_yM1, 0) (by decide +kernel)
  have hz : t.rd F.fabTopo_zM1 = s.rd F.fabTopo_zM1 := h.fields (F.fabTopo_zM1, 0) (by decide +kernel)
  rw [State.dimSize, State.dims, hx, hy, hz, State.dimSize, State.dims]

theorem coreUp (h : s.ScoresAlike t) (k : Nat) : t.coreUp k = s.coreUp k := by
  have hup : t.rd F.mcStatus_coreUp = s.rd F.mcStatus_coreUp := h.fields (F.mcStatus_coreUp, 0) (by decide +kernel)
  rw [State.coreUp, State.coreUp, hup]

/-- The ports, channels and devices over CXL that penalties count are alike. -/
theorem ports (h : s.ScoresAlike t) :
    (List.range 12).filter (fun p => decide (t.dimSize (portDim p) > 1) && decide (t.rd F.portStatus_state p ≠ 2))
      = (List.range 12).filter (fun p => decide (s.dimSize (portDim p) > 1) && decide (s.rd F.portStatus_state p ≠ 2)) := by
  refine List.filter_congr fun p hp => ?_
  have hstate : t.rd F.portStatus_state p = s.rd F.portStatus_state p := h.fields (F.portStatus_state, p) (portState_mem_scoreReads (List.mem_range.mp hp))
  rw [h.dimSize, hstate]

theorem channels (h : s.ScoresAlike t) :
    (List.range 128).filter (fun n => decide (t.rd F.gddrCh_state n = 4)) = (List.range 128).filter (fun n => decide (s.rd F.gddrCh_state n = 4)) := by
  refine List.filter_congr fun n hn => ?_
  have hstate : t.rd F.gddrCh_state n = s.rd F.gddrCh_state n := h.fields (F.gddrCh_state, n) (channelState_mem_scoreReads (List.mem_range.mp hn))
  rw [hstate]

theorem cxlPorts (h : s.ScoresAlike t) :
    (List.range 4).filter (fun k => t.flag F.cxlDev_present k && !t.flag F.cxlDev_linkUp k)
      = (List.range 4).filter (fun k => s.flag F.cxlDev_present k && !s.flag F.cxlDev_linkUp k) := by
  refine List.filter_congr fun k hk => ?_
  have hp : t.flag F.cxlDev_present k = s.flag F.cxlDev_present k :=
    congrArg (· == 1) (h.fields (F.cxlDev_present, k) (cxlPresent_mem_scoreReads (List.mem_range.mp hk)))
  have hl : t.flag F.cxlDev_linkUp k = s.flag F.cxlDev_linkUp k :=
    congrArg (· == 1) (h.fields (F.cxlDev_linkUp, k) (cxlLink_mem_scoreReads (List.mem_range.mp hk)))
  rw [hp, hl]

theorem fenced (h : s.ScoresAlike t) : (List.range 96).filter t.fencedCluster = (List.range 96).filter s.fencedCluster :=
  List.filter_congr fun _ hc => h.fencedCluster (List.mem_range.mp hc)

/-- Alike states have the same penalties (Table 19.2). -/
theorem penalties (h : s.ScoresAlike t) : t.penalties = s.penalties := by
  have htj : t.rd F.thermStatus_tjMax = s.rd F.thermStatus_tjMax := h.fields (F.thermStatus_tjMax, 0) (by decide +kernel)
  have hstate : t.rd F.healthStatus_state = s.rd F.healthStatus_state := h.fields (F.healthStatus_state, 0) (by decide +kernel)
  unfold State.penalties
  dsimp only
  simp (disch := decide) only [h.evSum]
  rw [htj, hstate, h.ports, h.channels, h.cxlPorts, h.fenced]

end State.ScoresAlike

end Sys2Proof.Machine
end

section
/-! Records appended to the ledger, and the rest of a heartbeat (R397, R490, R511 to R520, R556 to R559, R572). -/
namespace Sys2Proof.Machine

/-- t is s but for the words of the ledger. -/
def State.LedgerWords (s t : State) : Prop := t = { s with led := { s.led with words := t.led.words } }

theorem State.LedgerWords.trans {s t u : State} (h : s.LedgerWords t) (k : t.LedgerWords u) : s.LedgerWords u := by
  unfold State.LedgerWords at *
  rw [k, h]

theorem State.ledgerWords_setLed (s : State) (i v : Nat) : s.LedgerWords (s.setLed i v) := rfl

theorem State.ledgerWords_setLeds (s : State) (i : Nat) (l : List Nat) : s.LedgerWords (s.setLeds i l) :=
  List.foldlRecOn l.zipIdx _ (motive := s.LedgerWords) rfl fun _ ht _ _ => ht.trans (State.ledgerWords_setLed ..)

/-- A head segment that is given its first words, with the place where the log is then written. -/
def State.headOpened (s : State) (words : Tab Nat) (header : Nat × Nat) (g q : Nat) : State :=
  let t := (({ s with led := { s.led with words := words } } : State).setLed header.1 header.2).setLed (logWord g 1) q
  { t with led := { t.led with head := g, pos := 2, segSeq := q } }

theorem State.headOpened_frame (s : State) (words : Tab Nat) (header : Nat × Nat) (g q : Nat) : ∃ t : State,
    t = s.headOpened words header g q ∧ t = { s with
      led := { s.led with words := t.led.words, head := t.led.head, pos := t.led.pos, segSeq := t.led.segSeq } } :=
  ⟨_, rfl, rfl⟩

/-- A segment that is opened changes only the ledger's words and where the log is written (R512). -/
theorem State.openHead_frame {s t : State} (h : s.openHead = some t) : t = { s with
    led := { s.led with words := t.led.words, head := t.led.head, pos := t.led.pos, segSeq := t.led.segSeq } } := by
  unfold State.openHead at h
  split at h
  · cases h
  · next g _ =>
    obtain ⟨u, hu, hframe⟩ := s.headOpened_frame (s.led.words.filter fun e => !(logWord g 0 ≤ e.1 && e.1 < logWord (g + 1) 0))
      (logWord g 0, 0x534C4B49 + (s.prevCycle g + 1) * 2 ^ 32) g (s.led.segSeq + 1)
    have ht : u = t := hu.trans (Option.some.inj h)
    rw [← ht]
    exact hframe

/-- A record that finds room changes only the ledger and LEDGER_CNT; the instants of the ledger's timers stay (R511, R512). -/
theorem State.append_frame {s t : State} {ty : Nat} {body : Bytes} (h : s.append ty body = some t) :
    t = { s with csr := t.csr, led := t.led } ∧ t.led.healthAt = s.led.healthAt
      ∧ RegsBut s t [regAddr .ledgerCnt 0 0] := by
  unfold State.append State.putRec at h
  dsimp only at h
  obtain ⟨v, hv, rfl⟩ := Option.map_eq_some_iff.mp h
  have hopened : v = { s with led := { s.led with
      words := v.led.words, head := v.led.head, pos := v.led.pos, segSeq := v.led.segSeq } } := by
    split at hv
    · cases hv
      rfl
    · exact State.openHead_frame hv
  generalize logWord v.led.head v.led.pos = i at *
  generalize recWords ty (s.led.seq + 1) false body = ws at *
  have hwords : _ = _ := v.ledgerWords_setLeds i ws
  generalize v.setLeds i ws = x at *
  have hx : x = { s with led := x.led } := by
    rw [hwords, hopened]
  have hhealth : x.led.healthAt = s.led.healthAt := by
    rw [hwords, hopened]
  refine ⟨?_, hhealth, ?_⟩
  · rw [hx]
    rfl
  · have hregs : RegsBut x (x.inc F.ledgerCnt_appended) [regAddr .ledgerCnt 0 0] := State.regsBut_wr x F.ledgerCnt_appended _ 0 0
    intro a ha
    rw [hx] at hregs
    have := hregs a ha
    rw [hx]
    exact this

namespace State.KeepsScore

theorem append {s t : State} {ty : Nat} {body : Bytes} (h : s.append ty body = some t) : s.KeepsScore t := by
  obtain ⟨hframe, -, hregs⟩ := State.append_frame h
  exact of_regsBut hregs (by rw [hframe]) (by decide)

theorem appendOwn (s : State) (ty : Nat) (body : Bytes) : s.KeepsScore (s.appendOwn ty body) := by
  unfold State.appendOwn
  split
  · exact of_csr rfl rfl
  · split
    next t happend => exact append happend
    next => exact of_csr rfl rfl

theorem addFault (s : State) (kind index source : Nat) : s.KeepsScore (s.addFault kind index source) := by
  unfold State.addFault
  dsimp only
  split
  · exact of_csr rfl rfl
  · exact appendOwn ..

theorem fence (s : State) (c : Nat) : s.KeepsScore (s.fence c) := by
  have hset := wr s (f := F.membFence_fenced) (setBit (s.rd F.membFence_fenced (c / 64)) (c % 64) true) (c / 64) 0 (by decide)
  have hnoted := (hset.trans (logWith _ 0x1906 0x00A2 0xFF c)).trans (addFault _ 4 0 (srcCluster c))
  refine hnoted.trans (foldl (fun u p => ?_) _ _)
  exact faultCtx ..

theorem fenceFailed (s : State) : s.KeepsScore s.fenceFailed := by
  refine ite (foldl (fun u c => ?_) _ s) (refl s)
  exact ite (fence ..) (refl u)

theorem setSession (s : State) (z : SessSt) : s.KeepsScore (s.setSession z) := of_csr rfl rfl

theorem beatNotes (s : State) (z : Nat) : s.KeepsScore (s.beatNotes z) := by
  unfold State.beatNotes
  split
  · exact refl s
  · dsimp only
    exact ((ite (notify ..) (refl s)).trans (ite (notify ..) (refl _))).trans (setSession ..)

theorem setThrottle (s : State) : s.KeepsScore s.setThrottle := by
  unfold State.setThrottle
  dsimp only
  exact ite (refl s) ((wr s (f := F.ledgerStatus_throttle) _ 0 0 (by decide)).trans (logFree ..))

theorem newOp {s t : State} {cmd kind total i : Nat} {body : OpBody} (h : s.newOp cmd kind total body = some (i, t)) : s.KeepsScore t := by
  unfold State.newOp at h
  split at h
  · cases h
  · cases h
    exact of_csr rfl rfl

theorem startCompact (s : State) : s.KeepsScore s.startCompact := by
  unfold State.startCompact
  split
  · exact refl s
  · split
    · exact refl s
    · dsimp only
      split
      · exact refl s
      · next t hop =>
        have hcounted : t.KeepsScore { t with led := { t.led with victims := t.led.victims + 1 } } := of_csr rfl rfl
        exact ((newOp hop).trans hcounted).trans (wr _ (f := F.ledgerStatus_compacting) 1 0 0 (by decide))

theorem beginScrub (s : State) (kind total : Nat) : s.KeepsScore (s.beginScrub kind total) := by
  unfold State.beginScrub
  split
  · next i t hop =>
    have hstamped : t.KeepsScore (t.setOp i { t.op i with res := t.clk.up }) := of_csr rfl rfl
    exact (newOp hop).trans hstamped
  · exact refl s

theorem startScrub (s : State) : s.KeepsScore s.startScrub := by
  have hbegun : s.KeepsScore { s with tier := { s.tier with sramAt := s.clk.up + 1 } } := of_csr rfl rfl
  unfold State.startScrub
  exact (ite (hbegun.trans (beginScrub ..)) (refl s)).trans (ite (refl _) (beginScrub ..))

theorem realert (s : State) : s.KeepsScore s.realert := by
  unfold State.realert
  exact (((ite (alert ..) (refl s)).trans (ite (refl _) (alert ..))).trans (ite (alert ..) (refl _))).trans (ite (alert ..) (refl _))

theorem newBudget (s : State) : s.KeepsScore s.newBudget := of_csr rfl rfl

end State.KeepsScore

end Sys2Proof.Machine
end

section
/-! The heartbeat (R289, R397, R490, R493, R558, R559). -/
namespace Sys2Proof.Machine

/-- The score and its watch flag as R558 and R559 have them, before the penalties are shown. -/
def State.scored (s : State) : State :=
  (s.wr F.healthStatus_score (1000 - sumNat s.penalties)).setFlag F.healthStatus_watch (decide (1000 - sumNat s.penalties < 800))

theorem State.scored_spec (s : State) : s.scored.clk = s.clk
    ∧ s.scored.rd F.healthStatus_score = 1000 - sumNat s.penalties
    ∧ s.scored.flag F.healthStatus_watch = decide (1000 - sumNat s.penalties < 800) := by
  have hwidth : 1000 - sumNat s.penalties < 2 ^ F.healthStatus_score.width :=
    lt_of_le_of_lt (Nat.sub_le ..) (by decide : 1000 < 2 ^ F.healthStatus_score.width)
  unfold State.scored State.setFlag
  generalize decide (1000 - sumNat s.penalties < 800) = b
  refine ⟨rfl, ?_, ?_⟩
  · rw [State.rd_wr_beside (f := F.healthStatus_watch) (g := F.healthStatus_score) _ _ _ _ rfl (by decide) (by decide),
      State.rd_wr_same _ _ _ _ _ (by decide), Nat.mod_eq_of_lt hwidth]
  · rw [State.flag, State.rd_wr_same _ _ _ _ _ (by decide)]
    cases b <;> rfl

/-- Showing the penalties and noting what Table 19.1 counts keep the score. -/
theorem State.keepsScore_score (s : State) : s.scored.KeepsScore s.score := by
  have hpen : ∀ (u : State) {f : Field} (v i : Nat), f.reg = .healthPen → u.KeepsScore (u.wr f v i) := fun u f v i hreg =>
    State.KeepsScore.wr u v i 0 (by rw [hreg]; decide)
  unfold State.score
  dsimp only
  refine State.KeepsScore.trans (State.KeepsScore.foldl (fun u i => ?_) _ _) (State.KeepsScore.setHealth _ _)
  exact (((hpen u _ i rfl).trans (hpen _ _ i rfl)).trans (hpen _ _ i rfl)).trans (hpen _ _ i rfl)

/-- What core 2 does at a heartbeat after the score keeps it (R397). -/
theorem State.keepsScore_healthBeat (s : State) : s.hardLimits.scored.KeepsScore s.healthBeat := by
  unfold State.healthBeat
  dsimp only
  refine State.KeepsScore.trans ?_ (State.KeepsScore.foldl (fun u z => State.KeepsScore.beatNotes u z) _ _)
  refine State.KeepsScore.trans ?_ (State.KeepsScore.setHealth _ _)
  exact (s.hardLimits.keepsScore_score.trans (State.KeepsScore.fenceFailed _)).trans (State.KeepsScore.evaluate _ none)

/-- The instant of a heartbeat as it begins: it has ticked, and crossings and queues log anew. -/
def State.ticked (s : State) : State :=
  { s with clk := { s.clk with beats := s.clk.ns / 1000000 + 1 }, xingLogged := [], egr := { s.egr with logged := [] } }

/-- What every heartbeat does first: hot spots, retries, the log's count, and the power cap while it holds. -/
def State.beatShown (s : State) : State :=
  let t := s.hotBanks.channelRetries.logBeat
  if t.rst.powLow.isEmpty then t else t.cnt F.pwrAlarm_powerCap

/-- What the other cores do at a heartbeat after core 2 (R296, R490, R499, R515, R520, R595). -/
def State.beatEnded (s : State) : State :=
  let t := if s.coreUp 3 then s.setThrottle.startCompact else s
  (if t.coreUp 0 then t.startScrub else t).realert.newBudget

theorem exec_heartbeat_ticks {s : State} {dt : Nat} (hlive : s.live = true) (hinst : (s.pass dt).clk.ns % 1000000 < 2)
    (hnew : s.clk.beats ≠ (s.pass dt).clk.ns / 1000000 + 1) :
    exec (.heartbeat dt) s = .next (let t := (s.pass dt).ticked.beatShown
      (if t.coreUp 2 then t.healthBeat else t).beatEnded).settle := by
  have hskip : ¬ ((decide (2 ≤ (s.pass dt).clk.ns % 1000000) || decide ((s.pass dt).clk.beats = (s.pass dt).clk.ns / 1000000 + 1)) = true) := by
    have hbeats : (s.pass dt).clk.beats = s.clk.beats := rfl
    simp only [Bool.or_eq_true, decide_eq_true_eq, hbeats]
    omega
  rw [exec_heartbeat, execHeartbeat, whenLive_live _ _ hlive]
  dsimp only
  rw [if_neg hskip]
  rfl

theorem State.ScoresAlike.beatShown (s : State) : s.ScoresAlike s.beatShown := by
  have hshown := ((State.ScoresAlike.hotBanks s).trans (State.ScoresAlike.channelRetries _)).trans (State.ScoresAlike.logBeat _)
  unfold State.beatShown
  exact hshown.trans (State.ScoresAlike.ite (State.ScoresAlike.refl _)
    (State.ScoresAlike.cnt _ (f := F.pwrAlarm_powerCap) (i := 0) (j := 0) 1 (by decide +kernel)))

theorem State.KeepsScore.beatEnded (s : State) : s.KeepsScore s.beatEnded := by
  have hcore3 := State.KeepsScore.ite (p := s.coreUp 3 = true)
    ((State.KeepsScore.setThrottle s).trans (State.KeepsScore.startCompact _)) (State.KeepsScore.refl s)
  unfold State.beatEnded
  exact ((hcore3.trans (State.KeepsScore.ite (State.KeepsScore.startScrub _) (State.KeepsScore.refl _))).trans
    (State.KeepsScore.realert _)).trans (State.KeepsScore.newBudget _)

/-- A heartbeat ends with the counts of a new one (R490). -/
theorem State.beatEnded_counts (s : State) : s.beatEnded.mgmt.hbSteps = 0 ∧ s.beatEnded.mgmt.hbCmds = 0 := ⟨rfl, rfl⟩

theorem exec_heartbeat_scores {s w : State} {dt : Nat} (hlive : s.live = true) (hw : w = s.pass dt) (hinst : w.clk.ns % 1000000 < 2)
    (hnew : s.clk.beats ≠ w.clk.ns / 1000000 + 1) (hup : s.coreUp 2 = true) :
    ∃ u : State, exec (.heartbeat dt) s = .next u.settle ∧ u.clk = { w.clk with beats := w.clk.ns / 1000000 + 1 }
      ∧ u.rd F.healthStatus_score = 1000 - sumNat w.penalties ∧ u.flag F.healthStatus_watch = decide (1000 - sumNat w.penalties < 800)
      ∧ u.mgmt.hbSteps = 0 ∧ u.mgmt.hbCmds = 0 := by
  subst hw
  have hshown := State.ScoresAlike.beatShown (s.pass dt).ticked
  have hscores := hshown.trans (State.ScoresAlike.hardLimits _)
  have hexec := exec_heartbeat_ticks hlive hinst hnew
  dsimp only at hexec
  generalize (s.pass dt).ticked.beatShown = t at *
  have hcore : t.coreUp 2 = true := by
    rw [hshown.coreUp 2]
    exact hup
  rw [if_pos hcore] at hexec
  obtain ⟨hclk, hscore, hwatch⟩ := t.hardLimits.scored_spec
  obtain ⟨kclk, kscore, kwatch⟩ := t.keepsScore_healthBeat.trans (State.KeepsScore.beatEnded _)
  have hpenalties : t.hardLimits.penalties = (s.pass dt).penalties := hscores.penalties
  rw [hpenalties] at hscore hwatch
  exact ⟨_, hexec, (kclk.trans hclk).trans hscores.clk, kscore.trans hscore, kwatch.trans hwatch, State.beatEnded_counts _⟩

/-- With no retries, no records dropped and no power cap a heartbeat shows hot spots and retries, and its counts begin anew. -/
theorem State.beatShown_of_none {s : State} (hretries : s.tier.retries = []) (hdropped : s.log.hbDropped = 0) (hpow : s.rst.powLow = []) :
    RegsBut s s.beatShown (((List.range 64).map fun m => regAddr .hotBank m 0) ++ (List.range 128).map fun ch => regAddr .gddrCh ch 0)
      ∧ s.beatShown = { s with csr := s.beatShown.csr, tier := { s.tier with waits := [] }, log := { s.log with hbCount := 0 } } := by
  obtain ⟨hhot, hhotFrame⟩ := s.hotBanks_spec
  have hnone : s.hotBanks.tier.retries = [] := by
    rw [hhotFrame]
    exact hretries
  obtain ⟨hchan, hchanFrame⟩ := State.channelRetries_of_none hnone
  have hlog : s.hotBanks.channelRetries.log = s.log := by rw [hchanFrame, hhotFrame]
  have hrst : s.hotBanks.channelRetries.rst = s.rst := by rw [hchanFrame, hhotFrame]
  have hbeat : s.beatShown = { s.hotBanks.channelRetries with log := { s.log with hbCount := 0 } } := by
    have hcleared : s.hotBanks.channelRetries.logBeat = { s.hotBanks.channelRetries with log := { s.log with hbCount := 0 } } := by
      unfold State.logBeat
      dsimp only
      rw [hlog, if_pos hdropped, ← hdropped]
    have hidle : s.hotBanks.channelRetries.logBeat.rst.powLow.isEmpty = true := by
      rw [hcleared]
      dsimp only
      rw [hrst, hpow]
      rfl
    unfold State.beatShown
    dsimp only
    rw [if_pos hidle, hcleared]
  have hregs := (hhot.mono (List.subset_append_left _ ((List.range 128).map fun ch => regAddr .gddrCh ch 0))).trans
    (hchan.mono (List.subset_append_right ((List.range 64).map fun m => regAddr .hotBank m 0) _))
  have hframe : s.hotBanks.channelRetries = { s with csr := s.hotBanks.channelRetries.csr, tier := { s.tier with waits := [] } } := by
    rw [hchanFrame, hhotFrame]
  generalize s.hotBanks.channelRetries = t at *
  generalize s.beatShown = u at *
  refine ⟨?_, ?_⟩
  · rw [hbeat]
    exact hregs
  · rw [hbeat, hframe]

/-- With cores 0 and 3 down and no cause of ALERT_N left, a heartbeat ends with the budget of the next. -/
theorem State.beatEnded_of_idle {s : State} (h0 : s.coreUp 0 = false) (h3 : s.coreUp 3 = false) (hhard : s.flag F.healthStatus_hard = false)
    (htherm : s.rst.thermLow = []) (hvin : s.rst.vinOut = false) (hpmb : s.rst.pmbTries < 4) : s.beatEnded = s.newBudget := by
  have hquiet : s.realert = s := by
    unfold State.realert
    simp [hhard, htherm, hvin, Nat.not_le.mpr hpmb]
  simp only [State.beatEnded, h0, h3, hquiet, Bool.false_eq_true, if_false]

theorem exec_heartbeat_idles {s w : State} {dt : Nat} (hlive : s.live = true) (hw : w = s.pass dt) (hinst : w.clk.ns % 1000000 < 2)
    (hnew : s.clk.beats ≠ w.clk.ns / 1000000 + 1) (h0 : s.coreUp 0 = false) (h2 : s.coreUp 2 = false) (h3 : s.coreUp 3 = false)
    (hretries : s.tier.retries = []) (hdropped : s.log.hbDropped = 0) (hpow : s.rst.powLow = []) (hhard : s.flag F.healthStatus_hard = false)
    (htherm : s.rst.thermLow = []) (hvin : s.rst.vinOut = false) (hpmb : s.rst.pmbTries < 4) :
    ∃ u : State, exec (.heartbeat dt) s = .next u.settle ∧ u.clk = { w.clk with beats := w.clk.ns / 1000000 + 1 } ∧ u.log = { s.log with hbCount := 0 }
      ∧ u.tier = { s.tier with waits := [] } ∧ u.mgmt = { s.mgmt with ops := u.mgmt.ops, starved := u.mgmt.starved, hbSteps := 0, hbCmds := 0 }
      ∧ u = { w with csr := u.csr, clk := u.clk, log := u.log, tier := u.tier, mgmt := u.mgmt, xingLogged := [], egr := { s.egr with logged := [] } } := by
  subst hw
  have hexec := exec_heartbeat_ticks hlive hinst hnew
  obtain ⟨hregs, hframe⟩ := State.beatShown_of_none (s := (s.pass dt).ticked) hretries hdropped hpow
  dsimp only at hexec
  generalize (s.pass dt).ticked.beatShown = t at *
  have hcores : t.rd F.mcStatus_coreUp = s.rd F.mcStatus_coreUp := hregs.rd fun hmem =>
    (List.mem_append.mp hmem).elim (notMem_hotBanks (by decide)) (notMem_gddrChannels (by decide))
  have hflag : t.rd F.healthStatus_hard = s.rd F.healthStatus_hard := hregs.rd fun hmem =>
    (List.mem_append.mp hmem).elim (notMem_hotBanks (by decide)) (notMem_gddrChannels (by decide))
  have hcore : ∀ k, t.coreUp k = s.coreUp k := fun k => congrArg (bit · k) hcores
  have hrst : t.rst = s.rst := by
    rw [hframe]
    rfl
  rw [if_neg (by rw [hcore, h2]; decide), State.beatEnded_of_idle ((hcore 0).trans h0) ((hcore 3).trans h3)
    ((congrArg (· == 1) hflag).trans hhard) (by rw [hrst, htherm]) (by rw [hrst, hvin]) (by rw [hrst]; exact hpmb)] at hexec
  refine ⟨_, hexec, ?_⟩
  rw [hframe]
  exact ⟨rfl, rfl, rfl, rfl, rfl⟩

end Sys2Proof.Machine
end

section
/-! The records of the device's health in the ledger, and what HEALTH_READ answers (R514, R520, R572). -/
namespace Sys2Proof.Machine

/-- A record that throttling lets through and that finds room is appended (R518, R520). -/
theorem State.appendSoft_of_room {s t : State} {ty : Nat} {body : Bytes} (hstage : s.throttle ≠ 2) (hsegs : 3 < s.freeSegs.length)
    (h : s.append ty body = some t) : s.appendSoft ty body = t := by
  have hkept : ¬ ((decide (s.throttle = 2) || decide (s.freeSegs.length ≤ 3)) = true) := by
    simp only [Bool.or_eq_true, decide_eq_true_eq]
    omega
  rw [State.appendSoft, if_neg hkept, h, Option.getD_some]

/-- In throttle stage 2 a record that is not essential is counted and suppressed (R520). -/
theorem State.appendSoft_of_throttled {s : State} (hstage : s.throttle = 2) (ty : Nat) (body : Bytes) :
    s.appendSoft ty body = s.cnt F.ledgerCnt_throttled := by
  rw [State.appendSoft, decide_eq_true hstage, Bool.true_or, if_pos rfl]

/-- The interval between HEALTH records (R514, R520). -/
def State.healthEvery (s : State) : Nat := if s.throttle = 1 then 14400000000000 else 3600000000000

/-- The instant at which a HEALTH record is due, from which the next interval runs. -/
def State.healthDue (s : State) (dt : Nat) : State := { s.pass dt with led := { s.led with healthAt := s.clk.up + dt } }

theorem exec_healthRecordTimer_due {s : State} {dt : Nat} (hlive : s.live = true) (hup : s.coreUp 3 = true)
    (hdue : s.led.healthAt + s.healthEvery ≤ s.clk.up + dt) :
    exec (.healthRecordTimer dt) s = .next ((s.healthDue dt).appendSoft 0x20 (s.healthDue dt).healthBody).settle := by
  have hskip : ¬ ((decide ((s.pass dt).clk.up < (s.pass dt).led.healthAt + (s.pass dt).healthEvery) || !(s.pass dt).coreUp 3) = true) := by
    have hnow : (s.pass dt).clk.up = s.clk.up + dt := rfl
    have hat : (s.pass dt).led.healthAt + (s.pass dt).healthEvery = s.led.healthAt + s.healthEvery := rfl
    have hcore : (s.pass dt).coreUp 3 = true := hup
    rw [hcore, hnow, hat, decide_eq_false (by omega)]
    decide
  rw [exec_healthRecordTimer, execHealthRecordTimer, whenLive_live _ _ hlive]
  exact congrArg (fun t : State => Host.Outcome.next t.settle) (if_neg hskip)

theorem exec_healthRecordTimer_appends {s w t : State} {dt : Nat} (hlive : s.live = true)
    (hw : w = { s.pass dt with led := { s.led with healthAt := s.clk.up + dt } }) (hup : s.coreUp 3 = true)
    (hdue : s.led.healthAt + s.healthEvery ≤ s.clk.up + dt) (hstage : s.throttle ≠ 2) (hsegs : 3 < s.freeSegs.length)
    (happend : w.append 0x20 w.healthBody = some t) :
    ∃ u : State, exec (.healthRecordTimer dt) s = .next u.settle ∧ u = t ∧ u.led.healthAt = s.clk.up + dt
      ∧ u = { s.pass dt with csr := u.csr, led := u.led } := by
  obtain rfl : w = s.healthDue dt := hw
  obtain ⟨hframe, hat, -⟩ := State.append_frame happend
  have hexec := exec_healthRecordTimer_due hlive hup hdue
  rw [State.appendSoft_of_room (s := s.healthDue dt) hstage hsegs happend] at hexec
  exact ⟨t, hexec, rfl, hat, hframe⟩

theorem exec_healthRecordTimer_throttled {s : State} {dt : Nat} (hlive : s.live = true) (hup : s.coreUp 3 = true)
    (hdue : s.led.healthAt + 3600000000000 ≤ s.clk.up + dt) (hstage : s.throttle = 2) :
    ∃ u : State, exec (.healthRecordTimer dt) s = .next u.settle
      ∧ u.rd F.ledgerCnt_throttled = satAdd F.ledgerCnt_throttled.width (s.rd F.ledgerCnt_throttled) 1 ∧ RegsBut s u [regAddr .ledgerCnt 0 0]
      ∧ u = { s.pass dt with csr := u.csr, led := { s.led with healthAt := s.clk.up + dt } } := by
  have hevery : s.healthEvery = 3600000000000 := if_neg (by rw [hstage]; decide)
  have hexec := exec_healthRecordTimer_due hlive hup (by rw [hevery]; exact hdue)
  rw [State.appendSoft_of_throttled (s := s.healthDue dt) hstage] at hexec
  exact ⟨_, hexec, State.rd_cnt_same (s.healthDue dt) F.ledgerCnt_throttled 0 0 1 (by decide), State.regsBut_cnt (s.healthDue dt) F.ledgerCnt_throttled 0 0 1, rfl⟩

/-- The summary interval that ends, and the one that begins. -/
def State.summaryBegun (s : State) (at_ ns seq : Nat) : State :=
  { s with led := { s.led with sumAt := at_, sumNs := ns, sumSeq := seq }, log := { s.log with codes := [], dropped := 0 } }

theorem State.appendSoft_frame (s : State) (ty : Nat) (body : Bytes) :
    s.appendSoft ty body = { s with csr := (s.appendSoft ty body).csr, led := (s.appendSoft ty body).led } := by
  unfold State.appendSoft
  split
  · rfl
  · cases happend : s.append ty body with
    | none => rfl
    | some t => exact (State.append_frame happend).1

theorem exec_summaryIntervalEnd_due {s : State} {dt : Nat} (hlive : s.live = true) (hup : s.coreUp 3 = true)
    (hdue : s.led.sumAt + s.summaryS * 1000000000 ≤ s.clk.up + dt) :
    exec (.summaryIntervalEnd dt) s = .next
      (((s.pass dt).appendSoft 0x21 (s.pass dt).summaryBody).summaryBegun (s.clk.up + dt) (s.pass dt).clk.ns s.log.seq).settle := by
  have hskip : ¬ ((decide ((s.pass dt).clk.up < (s.pass dt).led.sumAt + (s.pass dt).summaryS * 1000000000) || !(s.pass dt).coreUp 3) = true) := by
    have hnow : (s.pass dt).clk.up = s.clk.up + dt := rfl
    have hat : (s.pass dt).led.sumAt + (s.pass dt).summaryS * 1000000000 = s.led.sumAt + s.summaryS * 1000000000 := rfl
    have hcore : (s.pass dt).coreUp 3 = true := hup
    rw [hcore, hnow, hat, decide_eq_false (by omega)]
    decide
  rw [exec_summaryIntervalEnd, execSummaryIntervalEnd, whenLive_live _ _ hlive]
  dsimp only
  rw [if_neg hskip]
  have hframe := (s.pass dt).appendSoft_frame 0x21 (s.pass dt).summaryBody
  generalize (s.pass dt).appendSoft 0x21 (s.pass dt).summaryBody = t at *
  rw [hframe]
  rfl

theorem exec_summaryIntervalEnd_appends {s w t : State} {dt : Nat} (hlive : s.live = true) (hw : w = s.pass dt) (hup : s.coreUp 3 = true)
    (hdue : s.led.sumAt + s.summaryS * 1000000000 ≤ s.clk.up + dt) (hstage : s.throttle ≠ 2) (hsegs : 3 < s.freeSegs.length)
    (happend : w.append 0x21 w.summaryBody = some t) :
    ∃ u : State, exec (.summaryIntervalEnd dt) s = .next u.settle
      ∧ u = { t with led := { t.led with sumAt := s.clk.up + dt, sumNs := w.clk.ns, sumSeq := s.log.seq }, log := { s.log with codes := [], dropped := 0 } }
      ∧ u = { w with csr := u.csr, led := u.led, log := u.log } := by
  subst hw
  obtain ⟨hframe, -, -⟩ := State.append_frame happend
  have hexec := exec_summaryIntervalEnd_due hlive hup hdue
  rw [State.appendSoft_of_room (s := s.pass dt) hstage hsegs happend] at hexec
  refine ⟨_, hexec, ?_, ?_⟩
  · rw [hframe]
    rfl
  · rw [hframe]
    rfl

theorem exec_summaryIntervalEnd_throttled {s : State} {dt : Nat} (hlive : s.live = true) (hup : s.coreUp 3 = true)
    (hdue : s.led.sumAt + s.summaryS * 1000000000 ≤ s.clk.up + dt) (hstage : s.throttle = 2) :
    ∃ u : State, exec (.summaryIntervalEnd dt) s = .next u.settle
      ∧ u.rd F.ledgerCnt_throttled = satAdd F.ledgerCnt_throttled.width (s.rd F.ledgerCnt_throttled) 1 ∧ u.log = { s.log with codes := [], dropped := 0 }
      ∧ RegsBut s u [regAddr .ledgerCnt 0 0]
      ∧ u = { s.pass dt with csr := u.csr, log := u.log, led := { s.led with sumAt := s.clk.up + dt, sumNs := (s.pass dt).clk.ns, sumSeq := s.log.seq } } := by
  have hexec := exec_summaryIntervalEnd_due hlive hup hdue
  rw [State.appendSoft_of_throttled (s := s.pass dt) hstage] at hexec
  exact ⟨_, hexec, State.rd_cnt_same (s.pass dt) F.ledgerCnt_throttled 0 0 1 (by decide), rfl,
    State.regsBut_cnt (s.pass dt) F.ledgerCnt_throttled 0 0 1, rfl⟩

theorem exec_healthRead_answers {s : State} {r : MReq} {rest : List MReq} (h : s.serves 0x0061 r rest) (hbody : r.body = []) :
    ∃ u : State, exec .healthRead s = .next u.settle
      ∧ s.answeredAs u r rest 0 0 (slice s.health.report 0 64 ++ slice (((s.latestOf 0x20).map (fun x => x.body)).getD []) 0 128)
      ∧ u = { s with mgmt := u.mgmt, out := u.out } := by
  refine exec_answers h ?_
  rw [exec_healthRead, execHealthRead, takeCmd_serves h, State.bodyOk_pos (by rw [hbody]; rfl)]
  rfl

/-- Settles O45: a heartbeat from the penalties that its first steps leave alike, the records from what an append may change. -/
theorem heartbeatAndHealthRecords : Obligations.HeartbeatAndHealthRecords := by
  unfold Obligations.HeartbeatAndHealthRecords
  exact ⟨fun _ _ _ => exec_heartbeat_scores, fun _ _ _ => exec_heartbeat_idles, fun _ _ _ _ => exec_healthRecordTimer_appends,
    fun _ _ => exec_healthRecordTimer_throttled, fun _ _ _ _ => exec_summaryIntervalEnd_appends, fun _ _ => exec_summaryIntervalEnd_throttled,
    fun _ _ _ => exec_healthRead_answers⟩

end Sys2Proof.Machine
end

section
/-! A remote store of a thread whose cluster holds a second entry of its number (R331, R335, R470). The statement asks of the state no
more than that the instruction runs, so that the table of a cluster's threads may hold two entries of one number: the first is what
reads find, the second is shadowed. Where the shadowed entry has a fence that waits for the store, raising its fence puts the whole of
it over the first, and the thread goes on from the pc of the shadowed entry. -/
namespace Sys2Proof.Machine

/-- A remote STL of thread 3 of cluster 2, by x1 from x8 on. -/
def shadowStore : Nat := Tests.sysW 2 8 1 0 0

/-- Where it stores: at device 2. -/
def shadowAddr : Nat := 2 * 2 ^ 54 + 2 ^ 48 + 0x40

/-- A thread about to store to another device, with a second entry of its number behind its own: that one stands at pc 0 and has a fence
that waits for operation 1, which the store will be. -/
def shadowed : State :=
  let s := Tests.wRem shadowStore [(1, shadowAddr)]
  s.setClu 2 { s.clu 2 with threads := (s.clu 2).threads ++ [(3, { ThreadSt.init with fence := [(1, 1)] })] }

theorem sysRuns_shadowed : shadowed.sysRuns (shadowed.issued 2 3) 2 3 0x02 3 shadowStore := by decide +kernel

theorem remoteMay_shadowed : (shadowed.issued 2 3).remoteMay 2 3 6 shadowAddr 64 := by decide +kernel

/-- The store runs from the thread's own pc. -/
theorem pc_issued_shadowed : ((shadowed.issued 2 3).thread 2 3).pc = 2 ^ 54 + 2 ^ 48 + 0x100 := by decide +kernel

/-- Where thread 3 of cluster 2 stands after an instruction. -/
def pcAfter (o : Out) : Option Nat :=
  match o with
  | .next t => some (t.thread 2 3).pc
  | _ => none

/-- The store leaves the thread behind the pc of the shadowed entry. -/
theorem pcAfter_stl_shadowed : pcAfter (exec (.stl 2 3 0 0) shadowed) = some 4 := by decide +kernel

/-- Refutes O22: by a remote STL where the table of the cluster's threads holds a second entry of the thread's number, with a fence. -/
theorem not_threadMemoryAccess : ¬ Obligations.ThreadMemoryAccess := by
  unfold Obligations.ThreadMemoryAccess
  rintro ⟨-, -, -, -, -, -, -, hstl, -⟩
  obtain ⟨u, hexec, hsent⟩ := hstl shadowed (shadowed.issued 2 3) 2 3 0 0 shadowStore shadowAddr sysRuns_shadowed (by decide)
    (by decide +kernel) remoteMay_shadowed
  obtain ⟨-, -, -, -, -, -, -, -, -, hpc, -⟩ := hsent
  have hafter : (u.thread 2 3).pc = 4 := by
    have hstands := pcAfter_stl_shadowed
    rw [hexec] at hstands
    exact Option.some.inj hstands
  rw [hpc, pc_issued_shadowed] at hafter
  exact absurd hafter (by decide)

end Sys2Proof.Machine
end

section
/-! The end of a program's load where the table of clusters holds a second entry of the cluster's number (R426, R427). The statement
asks of the state no more than that the load can end, so that the table may hold two entries of one number: the first is what reads
find, the second is shadowed. A cluster that holds nothing but the load is blank once the load has left it, and a blank cluster is not
listed: every entry of its number goes, the shadowed one too, before the program becomes resident. -/
namespace Sys2Proof.Machine

/-- The load that thread 3 of cluster 2 waits for. -/
def shadowLoad : LoadReq := ⟨1, 0, 0, 2, 0, 0, .thread 3⟩

/-- Thread 3 of cluster 2 waits for the load of a good program on engine 5; a second entry of the cluster stands behind its own. -/
def doubled : State := { Tests.wProg with clus := Tests.wProg.clus ++ [(2, ClusterSt.init)] }

/-- The program's image, as mould 1 reads it. -/
def doubledImage : Bytes := doubled.readMem 1 0 (64 + 8 * leAt (doubled.readMem 1 0 64) 6 2)

/-- The image passes its validation once the load has left its engine. -/
theorem seCheck_doubled :
    (doubled.setSeng 2 5 { doubled.seng 2 5 with loads := (doubled.seng 2 5).loads.eraseIdx 0 }).seCheck 2 5 1 doubledImage = none := by
  decide +kernel

/-- How many entries of a cluster the table of clusters holds. -/
def State.entriesOfCluster (s : State) (c : Nat) : Nat := (s.clus.filter (fun e => decide (e.1 = c))).length

/-- How many entries of cluster 2 a command leaves. -/
def entriesAfter (o : Out) : Option Nat :=
  match o with
  | .next t => some (t.entriesOfCluster 2)
  | _ => none

/-- The end of the load leaves one entry of the cluster. -/
theorem entriesAfter_seLoadDone_doubled : entriesAfter (exec (.seLoadDone 2 5 0 0 0) doubled) = some 1 := by decide +kernel

/-- A cluster that is not blank, put in the place of the first of two entries, leaves both. -/
theorem entriesOfCluster_setClu_doubled {v : ClusterSt} (h : v ≠ ClusterSt.init) : (doubled.setClu 2 v).entriesOfCluster 2 = 2 := by
  have hclus : doubled.clus = [(2, doubled.clu 2), (2, ClusterSt.init)] := by decide +kernel
  simp [State.entriesOfCluster, State.setClu, hclus, Tab.set, Tab.put, h]

/-- A cluster with a resident program is not blank. -/
theorem ne_init_of_progs {v : ClusterSt} {e : Nat} (h : (Tab.get SeSt.init v.se e).progs ≠ []) : v ≠ ClusterSt.init := by
  rintro rfl
  exact h rfl

/-- Refutes O27: by the end of a program's load on a cluster that holds nothing else and has a second entry in the table of clusters. -/
theorem not_signalEngineControlAndJobs : ¬ Obligations.SignalEngineControlAndJobs := by
  unfold Obligations.SignalEngineControlAndJobs
  rintro ⟨-, -, -, -, -, -, -, -, -, -, hload⟩
  obtain ⟨u, hexec, -, -, -, hu, hseng⟩ := hload doubled 2 5 0 3 0 shadowLoad doubledImage (by decide +kernel) (by decide) (by decide +kernel)
    rfl rfl (by decide) (by decide +kernel) (by decide +kernel) (by decide +kernel) rfl seCheck_doubled (by decide) (by decide +kernel)
  have hone : u.entriesOfCluster 2 = 1 := by
    have hleft := entriesAfter_seLoadDone_doubled
    rw [hexec] at hleft
    exact Option.some.inj hleft
  have hclus : u.clus = (doubled.setClu 2 { doubled.clu 2 with threads := (u.clu 2).threads, se := (u.clu 2).se }).clus :=
    (congrArg State.clus hu).trans rfl
  have hprogs : (u.seng 2 5).progs ≠ [] := by
    rw [hseng]
    simp
  have htwo : u.entriesOfCluster 2 = 2 := by
    rw [State.entriesOfCluster, hclus]
    exact entriesOfCluster_setClu_doubled (ne_init_of_progs (e := 5) hprogs)
  omega

end Sys2Proof.Machine
end

section
/-! What a requester sends again when no answer comes (R324, R333, R342). -/
namespace Sys2Proof.Machine

variable {s w : State} {dt id : Nat} {o : ROp} {f : Bytes}

/-- A frame that goes to its route leaves the streams and the operations as they are. -/
theorem State.rop_dispatchFrame (s : State) (f : Bytes) (inPort ctx i : Nat) : (s.dispatchFrame f inPort ctx).rop i = s.rop i := by
  rw [State.rop, (State.PortCharged.dispatchFrame s f inPort ctx).ops, State.rop]

theorem State.txS_dispatchFrame (s : State) (f : Bytes) (inPort ctx k : Nat) : (s.dispatchFrame f inPort ctx).txS k = s.txS k := by
  rw [State.txS, (State.PortCharged.dispatchFrame s f inPort ctx).tx, State.txS]

/-- The state in which operation o's frame e, sent again as f, goes to its route (R324). -/
def State.resends (w : State) (k : Nat) (e : TxFrame) (o : ROp) (f : Bytes) : State :=
  (w.setRop e.op o).setTx k
    { w.txS k with out := (w.txS k).out.map (fun x => if x.seq = e.seq then { x with at_ := w.clk.up, frame := f } else x) }

theorem State.resends_dispatched (w : State) (k : Nat) (e : TxFrame) (o : ROp) (f : Bytes) (ctx : Nat) :
    (((w.resends k e o f).dispatchFrame f 12 ctx).txS k
        = { w.txS k with out := (w.txS k).out.map (fun x => if x.seq = e.seq then { x with at_ := w.clk.up, frame := f } else x) })
      ∧ ((w.resends k e o f).dispatchFrame f 12 ctx).rop e.op = o
      ∧ w.Routes ((w.resends k e o f).dispatchFrame f 12 ctx) := by
  refine ⟨?_, ?_, ?_⟩
  · rw [State.txS_dispatchFrame, State.resends, State.txS_setTx, if_pos rfl]
  · rw [State.rop_dispatchFrame]
    exact State.rop_setRop_same ..
  · exact State.Routes.trans (t := w.resends k e o f) rfl (State.routes_dispatchFrame ..)

theorem exec_frameResendTimeout_resends {dev m seq k att : Nat} {e : TxFrame} {pay : Bytes} (hlive : s.live = true) (hw : w = s.pass dt)
    (hk : k = streamKey dev m) (hfind : (s.txS k).out.find? (fun e => e.seq = seq) = some e) (ho : o = s.rop e.op)
    (hdue : e.at_ + 100000 ≤ s.clk.up + dt) (hgot : o.got = false) (hatomic : o.kind ≠ 7) (hown : o.kind ≠ 9)
    (hatt : att = (if o.kind = 4 then (o.attempt + 1) % 16 else o.attempt))
    (hpay : pay = (if o.kind = 3 then w.putPay o (beAt e.frame 0x2C 4) ((fPay e.frame).length - 16) else fPay e.frame))
    (hf : f = w.newFrame dev m (fHeat e.frame) (fOp e.frame) ((fFlags e.frame % 16 ||| 1) + 16 * att) seq 0 0 pay) :
    ∃ u : State, exec (.frameResendTimeout dt dev m seq) s = .next u.settle
      ∧ u.txS k = { s.txS k with out := (s.txS k).out.map (fun x => if x.seq = seq then { x with at_ := s.clk.up + dt, frame := f } else x) }
      ∧ u.rop e.op = { o with attempt := att, landed := if o.kind = 4 then [] else o.landed }
      ∧ u = { w with csr := u.csr, free := u.free, log := u.log, fab := u.fab, egr := u.egr } := by
  have hup : w.clk.up = s.clk.up + dt := congrArg (fun v => v.clk.up) hw
  have htx : w.txS k = s.txS k := congrArg (fun v => v.txS k) hw
  have hop : w.rop e.op = o := (congrArg (fun v => v.rop e.op) hw).trans ho.symm
  have hseq : e.seq = seq := by simpa using List.find?_some hfind
  have hwait : ¬ (decide (w.clk.up < e.at_ + 100000) || o.got || decide (o.kind = 7) || decide (o.kind = 9)) = true := by
    simp [hup, hgot, hatomic, hown, hdue]
  obtain ⟨hout, hrop, hroutes⟩ :=
    w.resends_dispatched k e { o with attempt := att, landed := if o.kind = 4 then [] else o.landed } f o.ctx
  refine ⟨_, ?_, ?_, hrop, hroutes⟩
  · rw [exec_frameResendTimeout, execFrameResendTimeout, whenLive_live _ _ hlive]
    dsimp only
    rw [← hw, ← hk, htx, hfind]
    dsimp only
    rw [hop, if_neg hwait, ← hatt, ← hpay, ← hf, State.resends, hseq, htx]
    rfl
  · rw [hout, htx, hseq, hup]

theorem exec_atomicResend_resends (hlive : s.live = true) (hw : w = s.pass dt) (ho : o = s.rop id) (hkind : o.kind = 7 ∨ o.kind = 9)
    (hgot : o.got = false) (hsends : o.sends < 4) (hdue : o.firstAt + 100000 * o.sends ≤ s.clk.up + dt)
    (hf : f = w.newFrame o.dev o.mould o.heat (if o.kind = 7 then 5 else 7) 13 o.first 0 0 o.args) :
    ∃ u : State, exec (.atomicResend dt id) s = .next u.settle ∧ u = (w.setRop id { o with sends := o.sends + 1 }).dispatchFrame f 12 o.ctx
      ∧ (u.rop id).sends = o.sends + 1 ∧ u = { w with csr := u.csr, free := u.free, log := u.log, fab := u.fab, egr := u.egr } := by
  have hup : w.clk.up = s.clk.up + dt := congrArg (fun v => v.clk.up) hw
  have hop : w.rop id = o := (congrArg (fun v => v.rop id) hw).trans ho.symm
  have hwait : ¬ ((decide (o.kind ≠ 7) && decide (o.kind ≠ 9)) || o.got || decide (4 ≤ o.sends)
      || decide (w.clk.up < o.firstAt + 100000 * o.sends)) = true := by
    rcases hkind with hkind | hkind <;> simp [hup, hkind, hgot, hsends, hdue]
  refine ⟨_, ?_, rfl, ?_, State.Routes.trans (t := w.setRop id { o with sends := o.sends + 1 }) rfl (State.routes_dispatchFrame ..)⟩
  · rw [exec_atomicResend, execAtomicResend, whenLive_live _ _ hlive]
    dsimp only
    rw [← hw, hop, if_neg hwait, ← hf]
  · rw [State.rop_dispatchFrame, State.rop_setRop_same]

end Sys2Proof.Machine
end

section
/-! Operations of threads that end without an answer: given up, or at the operation timeout (R331, R342, R473, R475). -/
namespace Sys2Proof.Machine

variable {s w : State} {dt id code : Nat} {o : ROp}

/-- An atomic, a version read or an ownership request of a thread that waits for it ends with a code: the thread is ready with the code in
ST (R331, R473). -/
theorem State.endRop_code (ho : w.rop id = o) (hkind : o.kind = 7 ∨ o.kind = 8 ∨ o.kind = 9) (hgot : o.got = false) (hfail : o.fail = 0)
    (hthread : o.thread < 16) (hwait : (w.thread o.cluster o.thread).wait = .remote id) (hfence : (w.thread o.cluster o.thread).fence = [])
    (hcode : code ≠ 0) :
    w.remoteEnded (w.endRop id code [] 0 false) id o (({ w.thread o.cluster o.thread with wait := .none } : ThreadSt).code code) := by
  have hended := State.endRop_answers (s := w) (code := code) (res := []) (ver := 0) ho.symm (by omega) (by omega) hgot hfail hthread hwait
    (fun hload => by omega) (.inr hfence)
  rwa [ThreadSt.answered_code _ (by omega) hcode] at hended

/-- What ATOMIC_GIVE_UP does once the time has come (R342). -/
theorem exec_atomicGiveUp_due (hlive : s.live = true) (ho : o = s.rop id) (hkind : o.kind = 7 ∨ o.kind = 9) (hgot : o.got = false)
    (hdue : o.firstAt + 400000 ≤ s.clk.up + dt) :
    exec (.atomicGiveUp dt id) s = .next (if o.sends ≤ o.busy then (s.pass dt).endRop id E.fabBusy [] 0 false
      else ((s.pass dt).logWith 0x1107 (srcEngine o.cluster 6) o.mould (o.dev + o.first * 2 ^ 32)).endRop id E.fabOutcomeUnknown []
        0 false).settle := by
  have hop : (s.pass dt).rop id = o := ho.symm
  have hearly : ¬ ((decide (o.kind ≠ 7) && decide (o.kind ≠ 9)) || o.got || decide ((s.pass dt).clk.up < o.firstAt + 400000)) = true := by
    have hup : (s.pass dt).clk.up = s.clk.up + dt := rfl
    rcases hkind with hkind | hkind <;> simp [hup, hkind, hgot, hdue]
  rw [exec_atomicGiveUp, execAtomicGiveUp, whenLive_live _ _ hlive]
  dsimp only
  rw [hop, if_neg hearly]

theorem exec_atomicGiveUp_busy (hlive : s.live = true) (ho : o = s.rop id) (hkind : o.kind = 7 ∨ o.kind = 9) (hgot : o.got = false)
    (hdue : o.firstAt + 400000 ≤ s.clk.up + dt) (hbusy : o.sends ≤ o.busy) (hfail : o.fail = 0) (hthread : o.thread < 16)
    (hwait : (s.thread o.cluster o.thread).wait = .remote id) (hfence : (s.thread o.cluster o.thread).fence = []) :
    ∃ u : State, exec (.atomicGiveUp dt id) s = .next u.settle
      ∧ (s.pass dt).remoteEnded u id o (({ s.thread o.cluster o.thread with wait := .none } : ThreadSt).code E.fabBusy) := by
  refine ⟨_, (exec_atomicGiveUp_due hlive ho hkind hgot hdue).trans (by rw [if_pos hbusy]), ?_⟩
  exact State.endRop_code (w := s.pass dt) ho.symm (by omega) hgot hfail hthread hwait hfence (by decide)

theorem exec_atomicGiveUp_unknown (hlive : s.live = true) (ho : o = s.rop id) (hkind : o.kind = 7 ∨ o.kind = 9) (hgot : o.got = false)
    (hdue : o.firstAt + 400000 ≤ s.clk.up + dt) (hsilent : o.busy < o.sends) (hfail : o.fail = 0) (hthread : o.thread < 16)
    (hwait : (s.thread o.cluster o.thread).wait = .remote id) (hfence : (s.thread o.cluster o.thread).fence = []) (hroom : s.logRoom 1) :
    ∃ u : State, exec (.atomicGiveUp dt id) s = .next u.settle ∧ u.lastEvt = some (0x1107, srcEngine o.cluster 6, o.mould)
      ∧ ((s.pass dt).logWith 0x1107 (srcEngine o.cluster 6) o.mould (o.dev + o.first * 2 ^ 32)).remoteEnded u id o
        (({ s.thread o.cluster o.thread with wait := .none } : ThreadSt).code E.fabOutcomeUnknown) := by
  obtain ⟨hevt, hframe⟩ := (s.pass dt).logEvt_pushes 0x1107 (srcEngine o.cluster 6) o.mould ((o.dev + o.first * 2 ^ 32) % 2 ^ 128) hroom
  have hexec := (exec_atomicGiveUp_due hlive ho hkind hgot hdue).trans (by rw [if_neg (by omega)])
  rw [State.logWith] at hexec ⊢
  generalize (s.pass dt).logEvt 0x1107 (srcEngine o.cluster 6) o.mould ((o.dev + o.first * 2 ^ 32) % 2 ^ 128) = w at *
  have hop : w.rop id = o := (congrArg (fun v => v.rop id) hframe).trans ho.symm
  have hth : w.thread o.cluster o.thread = s.thread o.cluster o.thread := congrArg (fun v => v.thread o.cluster o.thread) hframe
  have hended := State.endRop_code hop (by omega) hgot hfail hthread (by rw [hth]; exact hwait) (by rw [hth]; exact hfence)
    (show E.fabOutcomeUnknown ≠ 0 by decide)
  rw [hth] at hended
  refine ⟨_, hexec, ?_, hended⟩
  obtain ⟨-, -, -, -, -, -, hu⟩ := hended
  rw [hu]
  exact hevt

/-- The record of an operation that ends at its timeout stands as the newest, and nothing but the log changes (R331). -/
theorem State.logTimeout_pushes (w : State) (o : ROp) (hroom : w.logRoom 1) :
    (w.logTimeout o).lastEvt = some (0x1104, srcEngine o.cluster (if o.thread = 16 then 7 else 6), o.mould)
      ∧ w.logTimeout o = { w with log := (w.logTimeout o).log } := by
  unfold State.logTimeout
  dsimp only
  rw [State.logRec_of_room _ hroom]
  exact ⟨rfl, rfl⟩

/-- What OP_TIMEOUT does once the time has come (R331). -/
theorem exec_opTimeout_due (hlive : s.live = true) (ho : o = s.rop id) (hkind : 3 ≤ o.kind ∧ o.kind ≠ 10) (hgot : o.got = false)
    (hsends : 0 < o.sends) (hdue : o.firstAt + 1000 * max 500 (s.rd F.fabCtrl_opTimeoutUs) ≤ s.clk.up + dt) :
    exec (.opTimeout dt id) s = .next ((((s.pass dt).logTimeout o).setRop id { o with fail := 0 }).endRop id E.fabTimeout [] 0
      (((s.pass dt).logTimeout o).isSlag o.mould o.ctx o.heat o.quenches)).settle := by
  have hop : (s.pass dt).rop id = o := ho.symm
  have hearly : ¬ (decide (o.kind < 3) || decide (o.kind = 10) || o.got || decide (o.sends = 0)
      || decide ((s.pass dt).clk.up < o.firstAt + (s.pass dt).opTimeout)) = true := by
    have hup : (s.pass dt).clk.up = s.clk.up + dt := rfl
    have hlimit : (s.pass dt).opTimeout = 1000 * max 500 (s.rd F.fabCtrl_opTimeoutUs) := rfl
    simp [hup, hlimit, hkind, hgot, hsends.ne', hdue]
  rw [exec_opTimeout, execOpTimeout, whenLive_live _ _ hlive]
  dsimp only
  rw [hop, if_neg hearly]

theorem exec_opTimeout_code (hlive : s.live = true) (ho : o = s.rop id) (hkind : o.kind = 7 ∨ o.kind = 8 ∨ o.kind = 9) (hgot : o.got = false)
    (hsends : 0 < o.sends) (hdue : o.firstAt + 1000 * max 500 (s.rd F.fabCtrl_opTimeoutUs) ≤ s.clk.up + dt) (hthread : o.thread < 16)
    (hslag : s.isSlag o.mould o.ctx o.heat o.quenches = false) (hwait : (s.thread o.cluster o.thread).wait = .remote id)
    (hfence : (s.thread o.cluster o.thread).fence = []) (hroom : s.logRoom 1) :
    ∃ u : State, exec (.opTimeout dt id) s = .next u.settle ∧ u.lastEvt = some (0x1104, srcEngine o.cluster 6, o.mould)
      ∧ ((s.pass dt).logTimeout o).remoteEnded u id o (({ s.thread o.cluster o.thread with wait := .none } : ThreadSt).code E.fabTimeout) := by
  obtain ⟨hevt, hframe⟩ := (s.pass dt).logTimeout_pushes o hroom
  have hexec := exec_opTimeout_due hlive ho (by omega) hgot hsends hdue
  rw [if_neg (by omega)] at hevt
  generalize (s.pass dt).logTimeout o = w at *
  have hth : w.thread o.cluster o.thread = s.thread o.cluster o.thread := congrArg (fun v => v.thread o.cluster o.thread) hframe
  have hnoslag : w.isSlag o.mould o.ctx o.heat o.quenches = false := by
    rw [hframe]
    exact hslag
  rw [hnoslag] at hexec
  have hended := State.endRop_code (w := w.setRop id { o with fail := 0 }) (o := { o with fail := 0 }) (State.rop_setRop_same ..) hkind hgot rfl
    hthread (by rw [← hwait, ← hth]; rfl) (by rw [← hfence, ← hth]; rfl) (show E.fabTimeout ≠ 0 by decide)
  obtain ⟨hrop, hslots, hout, hready, hstands, hregs, hu⟩ := hended
  refine ⟨_, hexec, ?_, hrop, hslots, hout, hready, ?_, hregs, hu⟩
  · rw [hu]
    exact hevt
  · rw [hstands, ← hth]
    rfl

end Sys2Proof.Machine
end

section
/-! The exception of a load that ends at its timeout (R331, R475). -/
namespace Sys2Proof.Machine

variable {s w : State} {c t m id cause code addr dt : Nat} {o : ROp}

theorem regAddr_coreCnt (c : Nat) : regAddr .coreCnt c 0 = 0x1005100 + 0x100000 * c + 0x0 * 0 := rfl

theorem regAddr_thrStatus_notMem_thrFault (c t : Nat) : regAddr .thrStatus c t ∉ [regAddr .thrFault c t] := fun h =>
  regAddr_thrStatus_ne_thrFault c t (List.mem_singleton.mp h)

theorem regAddr_thrStatus_notMem_coreCnt (c : Nat) {t : Nat} (ht : t < 16) : regAddr .thrStatus c t ∉ [regAddr .coreCnt c 0] := by
  rw [regAddr_thrStatus, regAddr_coreCnt, List.mem_singleton]
  omega

theorem regAddr_thrStatus_notMem_logStatus (c t : Nat) : regAddr .thrStatus c t ∉ [regAddr .logStatus 0 0] := by
  rw [regAddr_thrStatus, regAddr_logStatus, List.mem_singleton]
  omega

theorem regAddr_mouldStatus_notMem_logStatus (m : Nat) : regAddr .mouldStatus m 0 ∉ [regAddr .logStatus 0 0] := by
  rw [regAddr_mouldStatus, regAddr_logStatus, List.mem_singleton]
  omega

/-- Thread t of cluster c stands in exception, with its cause, code and address, and waits for nothing (R475). -/
def State.threadStopped (s : State) (c t cause code addr : Nat) : State :=
  let u := ((((s.wr F.thrStatus_state 5 c t).wr F.thrStatus_cause cause c t).cnt F.coreCnt_exceptions c).wr F.thrFault_addr addr c t).wr
    F.thrFault_code code c t
  u.setThread c t { u.thread c t with wait := .none }

/-- The registers an exception of a thread touches. -/
def threadStopRegs (c t : Nat) : List Nat := [regAddr .thrStatus c t, regAddr .coreCnt c 0, regAddr .thrFault c t]

theorem State.threadStopped_spec (s : State) (c cause code addr : Nat) (ht : t < 16) :
    (s.threadStopped c t cause code addr).thrState c t = 5
      ∧ (s.threadStopped c t cause code addr).rd F.thrStatus_cause c t = cause % 2 ^ 3
      ∧ (s.threadStopped c t cause code addr).rd F.thrStatus_ctxFault c t = s.rd F.thrStatus_ctxFault c t
      ∧ (s.threadStopped c t cause code addr).rd F.thrFault_code c t = code % 2 ^ 16
      ∧ (s.threadStopped c t cause code addr).rd F.thrFault_addr c t = addr % 2 ^ 48
      ∧ RegsBut s (s.threadStopped c t cause code addr) (threadStopRegs c t)
      ∧ s.threadStopped c t cause code addr = { s with
          csr := (s.threadStopped c t cause code addr).csr, clus := (s.threadStopped c t cause code addr).clus } := by
  obtain ⟨x, hx⟩ : ∃ x, x = (s.wr F.thrStatus_state 5 c t).wr F.thrStatus_cause cause c t := ⟨_, rfl⟩
  obtain ⟨y, hy⟩ : ∃ y, y = x.cnt F.coreCnt_exceptions c := ⟨_, rfl⟩
  obtain ⟨z, hz⟩ : ∃ z, z = (y.wr F.thrFault_addr addr c t).wr F.thrFault_code code c t := ⟨_, rfl⟩
  have hxregs : RegsBut s x [regAddr .thrStatus c t] := by
    rw [hx]
    exact (State.regsBut_wr s F.thrStatus_state 5 c t).trans (State.regsBut_wr _ F.thrStatus_cause cause c t)
  have hyregs : RegsBut x y [regAddr .coreCnt c 0] := by
    rw [hy]
    exact State.regsBut_cnt x F.coreCnt_exceptions c 0 1
  have hzregs : RegsBut y z [regAddr .thrFault c t] := by
    rw [hz]
    exact (State.regsBut_wr y F.thrFault_addr addr c t).trans (State.regsBut_wr _ F.thrFault_code code c t)
  have hstatus : ∀ f : Field, f.reg = .thrStatus → z.rd f c t = x.rd f c t := fun f hf =>
    (hzregs.rd (by rw [hf]; exact regAddr_thrStatus_notMem_thrFault c t)).trans
      (hyregs.rd (by rw [hf]; exact regAddr_thrStatus_notMem_coreCnt c ht))
  have hu : s.threadStopped c t cause code addr = z.setThread c t { z.thread c t with wait := .none } := by
    rw [hz, hy, hx]
    rfl
  have hcsr : (s.threadStopped c t cause code addr).csr = z.csr := by
    rw [hu]
    rfl
  refine ⟨?_, ?_, ?_, ?_, ?_, ?_, ?_⟩
  · rw [State.thrState, State.rd_of_csr hcsr, hstatus F.thrStatus_state rfl, hx, State.rd_wr_beside _ _ _ _ (by rfl) (by decide) (by decide)]
    exact State.rd_wr_same _ _ _ _ _ (by decide)
  · rw [State.rd_of_csr hcsr, hstatus F.thrStatus_cause rfl, hx]
    exact State.rd_wr_same _ _ _ _ _ (by decide)
  · rw [State.rd_of_csr hcsr, hstatus F.thrStatus_ctxFault rfl, hx, State.rd_wr_beside _ _ _ _ (by rfl) (by decide) (by decide),
      State.rd_wr_beside _ _ _ _ (by rfl) (by decide) (by decide)]
  · rw [State.rd_of_csr hcsr, hz]
    exact State.rd_wr_same _ _ _ _ _ (by decide)
  · rw [State.rd_of_csr hcsr, hz, State.rd_wr_beside _ _ _ _ (by rfl) (by decide) (by decide)]
    exact State.rd_wr_same _ _ _ _ _ (by decide)
  · have hall : RegsBut s z (threadStopRegs c t) :=
      ((hxregs.mono (by simp [threadStopRegs])).trans (hyregs.mono (by simp [threadStopRegs]))).trans (hzregs.mono (by simp [threadStopRegs]))
    exact hall.trans (State.regsBut_of_csr hcsr _)
  · rw [hu, hz, hy, hx]
    rfl

/-- An exception of a thread whose mould is not being quenched, and which does not fault its context (R475). -/
theorem State.threadExc_stops (ht : t < 16) (hmould : s.mstate (s.rd F.thrStatus_mould c t) ≠ 5)
    (hfault : s.flag F.thrStatus_ctxFault c t = false) :
    ∃ u : State, s.threadExc c t cause code addr = u ∧ u.thrState c t = 5 ∧ u.rd F.thrStatus_cause c t = cause % 2 ^ 3
      ∧ u.rd F.thrFault_code c t = code % 2 ^ 16 ∧ u.rd F.thrFault_addr c t = addr % 2 ^ 48
      ∧ RegsBut s u (regAddr .logStatus 0 0 :: threadStopRegs c t) ∧ u = { s with csr := u.csr, clus := u.clus, log := u.log } := by
  obtain ⟨w, hw⟩ : ∃ w, w = s.logWith 0x1601 (srcEngine c 6) (s.rd F.thrStatus_mould c t) (cause + addr % 2 ^ 64 * 2 ^ 16) := ⟨_, rfl⟩
  have hlogged : RegsBut s w [regAddr .logStatus 0 0] := by
    rw [hw]
    exact State.regsBut_logEvt s 0x1601 (srcEngine c 6) _ _
  have hframe : w = { s with csr := w.csr, log := w.log } := by
    rw [hw]
    exact State.logWith_frame ..
  have hstate : w.mstate (s.rd F.thrStatus_mould c t) ≠ 5 := by
    rw [State.mstate, hlogged.rd (f := F.mouldStatus_state) (regAddr_mouldStatus_notMem_logStatus _)]
    exact hmould
  have hflag : w.rd F.thrStatus_ctxFault c t = s.rd F.thrStatus_ctxFault c t :=
    hlogged.rd (f := F.thrStatus_ctxFault) (regAddr_thrStatus_notMem_logStatus c t)
  obtain ⟨hfive, hcause, hctx, hcode, haddr, hregs, hu⟩ := w.threadStopped_spec c cause code addr ht
  have hkeeps : (w.threadStopped c t cause code addr).flag F.thrStatus_ctxFault c t = false := by
    rw [State.flag, hctx, hflag]
    exact hfault
  refine ⟨w.threadStopped c t cause code addr, ?_, hfive, hcause, hcode, haddr, ?_, ?_⟩
  · unfold State.threadExc
    dsimp only
    rw [← hw, if_neg hstate]
    exact if_neg (Bool.not_eq_true _ ▸ hkeeps)
  · exact (hlogged.mono (by simp)).trans (hregs.mono (List.subset_cons_self _ _))
  · rw [hu, hframe]

/-- A thread whose load fails has an exception of cause 5 (R475). -/
theorem State.threadResult_fails (hkind : o.kind = 5) (hsub : o.sub = 0) (hcode : code ≠ 0)
    (hwait : (s.thread o.cluster o.thread).wait = .remote id) (res : Bytes) (ver : Nat) :
    s.threadResult id o code res ver
      = (s.wr F.thrStatus_remoteOut (s.rd F.thrStatus_remoteOut o.cluster o.thread - 1) o.cluster o.thread).threadExc o.cluster o.thread 5 code
          (o.far % 2 ^ 48) := by
  have hkept : ∀ v, ((s.wr F.thrStatus_remoteOut v o.cluster o.thread).thread o.cluster o.thread).wait = .remote id := fun _ => hwait
  unfold State.threadResult
  dsimp only
  rw [if_neg (by omega), if_neg (not_not_intro (hkept _)), if_pos (by simp [hkind, hsub, hcode])]


theorem regAddr_fabSlots_notMem_stop {m c t : Nat} (hm : m < 64) (ht : t < 16) :
    regAddr .fabSlots m 0 ∉ regAddr .logStatus 0 0 :: threadStopRegs c t := by
  rw [threadStopRegs, regAddr_fabSlots, regAddr_thrStatus, regAddr_logStatus, regAddr_coreCnt, regAddr_thrFault]
  simp only [List.mem_cons, List.not_mem_nil, or_false]
  omega

theorem regAddr_mouldStatus_notMem_slots {m c t k : Nat} (hk : k < 64) :
    regAddr .mouldStatus k 0 ∉ [regAddr .logStatus 0 0, regAddr .fabSlots m 0, regAddr .thrStatus c t] := by
  rw [regAddr_mouldStatus, regAddr_fabSlots, regAddr_thrStatus, regAddr_logStatus]
  simp only [List.mem_cons, List.not_mem_nil, or_false]
  omega

/-- The record of an operation that ends at its timeout touches only the log and LOG_STATUS, room or none. -/
theorem State.logTimeout_frame (w : State) (o : ROp) :
    RegsBut w (w.logTimeout o) [regAddr .logStatus 0 0]
      ∧ w.logTimeout o = { w with csr := (w.logTimeout o).csr, log := (w.logTimeout o).log } := by
  refine ⟨fun a ha => State.logRec_find w _ (List.ne_of_not_mem_cons ha), ?_⟩
  unfold State.logTimeout State.logRec
  dsimp only
  split <;> rfl

/-- A thread's load ends with a code: its slot is free and the thread has an exception of cause 5 (R331, R475). -/
theorem State.endRop_loadFails (ho : w.rop id = o) (hkind : o.kind = 5) (hsub : o.sub = 0) (hgot : o.got = false) (hfail : o.fail = 0)
    (hcode : code ≠ 0) (hm : o.mould < 64) (ht : o.thread < 16) (hwait : (w.thread o.cluster o.thread).wait = .remote id)
    (hmould : w.mstate (w.rd F.thrStatus_mould o.cluster o.thread) ≠ 5) (hfault : w.flag F.thrStatus_ctxFault o.cluster o.thread = false) :
    ∃ u : State, w.endRop id code [] 0 false = u ∧ u.thrState o.cluster o.thread = 5 ∧ u.rd F.thrStatus_cause o.cluster o.thread = 5
      ∧ u.rd F.thrFault_code o.cluster o.thread = code % 2 ^ 16 ∧ u.rd F.thrFault_addr o.cluster o.thread = o.far % 2 ^ 48 % 2 ^ 48
      ∧ u.rop id = ROp.init ∧ u.rd F.fabSlots_used o.mould = w.rd F.fabSlots_used o.mould - 1
      ∧ u = { w with csr := u.csr, clus := u.clus, fab := u.fab, log := u.log } := by
  obtain ⟨hslots, hregs, hnoted, -, hframe⟩ := w.ropFreed_spec id o code o.cluster o.thread
  have hended := State.endRop_thread (s := w) (code := code) (res := []) (ver := 0) ho.symm (by omega) hgot ht
  rw [if_pos hfail] at hended
  generalize w.ropFreed id o code = x at *
  have hxwait : ((x.setRop id ROp.init).thread o.cluster o.thread).wait = .remote id := by
    obtain hsame | ⟨-, -, -, hsame⟩ := hnoted
    · exact (congrArg ThreadSt.wait hsame).trans hwait
    · exact (congrArg ThreadSt.wait hsame).trans hwait
  rw [State.threadResult_fails hkind hsub hcode hxwait] at hended
  obtain ⟨y, hy⟩ : ∃ y, y = (x.setRop id ROp.init).wr F.thrStatus_remoteOut
    ((x.setRop id ROp.init).rd F.thrStatus_remoteOut o.cluster o.thread - 1) o.cluster o.thread := ⟨_, rfl⟩
  rw [← hy] at hended
  have hyx : RegsBut x y [regAddr .thrStatus o.cluster o.thread] := by
    rw [hy]
    exact State.regsBut_wr (x.setRop id ROp.init) F.thrStatus_remoteOut _ o.cluster o.thread
  have hbeside : ∀ f : Field, f.reg = .thrStatus → f.fits →
      (f.lo + f.width ≤ F.thrStatus_remoteOut.lo ∨ F.thrStatus_remoteOut.lo + F.thrStatus_remoteOut.width ≤ f.lo) →
      y.rd f o.cluster o.thread = w.rd f o.cluster o.thread := by
    intro f hf hfits hapart
    rw [hy, State.rd_wr_beside _ _ _ _ (hf.trans rfl) hfits hapart]
    exact hregs.rd (by
      rw [hf]
      exact regAddr_thrStatus_notMem_fabSlots _ _ _)
  have hm' : y.rd F.thrStatus_mould o.cluster o.thread = w.rd F.thrStatus_mould o.cluster o.thread :=
    hbeside F.thrStatus_mould rfl (by decide) (by decide)
  have hstate : y.mstate (w.rd F.thrStatus_mould o.cluster o.thread) = w.mstate (w.rd F.thrStatus_mould o.cluster o.thread) :=
    (RegsBut.trans (hregs.mono (by simp)) (hyx.mono (by simp)) : RegsBut w y [regAddr .logStatus 0 0, regAddr .fabSlots o.mould 0,
      regAddr .thrStatus o.cluster o.thread]).rd (f := F.mouldStatus_state)
      (regAddr_mouldStatus_notMem_slots (Nat.mod_lt _ (by decide)))
  obtain ⟨u, hu, hfive, hcause, hthcode, haddr, hstop, huframe⟩ := State.threadExc_stops (s := y) (cause := 5) (code := code)
    (addr := o.far % 2 ^ 48) (c := o.cluster) ht
    (by rw [hm', hstate]; exact hmould) (by rw [State.flag, hbeside F.thrStatus_ctxFault rfl (by decide) (by decide)]; exact hfault)
  refine ⟨u, hended.trans hu, hfive, hcause, hthcode, haddr, ?_, ?_, ?_⟩
  · rw [State.rop, congrArg (fun v => v.fab) huframe, hy]
    exact State.rop_setRop_same ..
  · rw [hstop.rd (f := F.fabSlots_used) (regAddr_fabSlots_notMem_stop hm ht)]
    exact (hyx.rd (f := F.fabSlots_used) (regAddr_fabSlots_notMem_thrStatus _ _ _)).trans hslots
  · rw [huframe, hy, hframe]
    rfl

theorem State.isSlag_of_regsBut (hregs : RegsBut s w [regAddr .logStatus 0 0]) (hmoulds : w.moulds = s.moulds) (m x heat quenches : Nat) :
    w.isSlag m x heat quenches = s.isSlag m x heat quenches := by
  have hbase : w.rd F.ctxStatus_baseHeat m x = s.rd F.ctxStatus_baseHeat m x := hregs.rd (by
    rw [show regAddr F.ctxStatus_baseHeat.reg m x = 0x800200 + 0x4000 * m + 0x10 * x from rfl, regAddr_logStatus, List.mem_singleton]
    omega)
  rw [State.isSlag, State.isSlag, hbase, State.mould, State.mould, hmoulds]

/-- OP_TIMEOUT of an operation whose results still count (R331). -/
theorem exec_opTimeout_ends (hlive : s.live = true) (ho : o = s.rop id) (hkind : 3 ≤ o.kind ∧ o.kind ≠ 10) (hgot : o.got = false)
    (hsends : 0 < o.sends) (hdue : o.firstAt + 1000 * max 500 (s.rd F.fabCtrl_opTimeoutUs) ≤ s.clk.up + dt)
    (hslag : s.isSlag o.mould o.ctx o.heat o.quenches = false) :
    exec (.opTimeout dt id) s
      = .next ((((s.pass dt).logTimeout o).setRop id { o with fail := 0 }).endRop id E.fabTimeout [] 0 false).settle := by
  obtain ⟨hregs, hframe⟩ := (s.pass dt).logTimeout_frame o
  rw [exec_opTimeout_due hlive ho hkind hgot hsends hdue, State.isSlag_of_regsBut hregs (by rw [hframe]),
    State.isSlag_of_pass (w := s.pass dt) rfl, hslag]

theorem exec_opTimeout_load (hlive : s.live = true) (ho : o = s.rop id) (hkind : o.kind = 5) (hsub : o.sub = 0) (hgot : o.got = false)
    (hsends : 0 < o.sends) (hdue : o.firstAt + 1000 * max 500 (s.rd F.fabCtrl_opTimeoutUs) ≤ s.clk.up + dt) (hm : o.mould < 64)
    (ht : o.thread < 16) (hslag : s.isSlag o.mould o.ctx o.heat o.quenches = false)
    (hwait : (s.thread o.cluster o.thread).wait = .remote id) (hmould : s.mstate (s.rd F.thrStatus_mould o.cluster o.thread) ≠ 5)
    (hfault : s.flag F.thrStatus_ctxFault o.cluster o.thread = false) :
    ∃ u : State, exec (.opTimeout dt id) s = .next u.settle ∧ u.thrState o.cluster o.thread = 5 ∧ u.rd F.thrStatus_cause o.cluster o.thread = 5
      ∧ u.rd F.thrFault_code o.cluster o.thread = E.fabTimeout ∧ u.rd F.thrFault_addr o.cluster o.thread = o.far % 2 ^ 48 ∧ u.rop id = ROp.init
      ∧ u.rd F.fabSlots_used o.mould = s.rd F.fabSlots_used o.mould - 1
      ∧ u = { s.pass dt with csr := u.csr, clus := u.clus, fab := u.fab, log := u.log, free := u.free } := by
  have hexec := exec_opTimeout_ends hlive ho (by omega) hgot hsends hdue hslag
  obtain ⟨hregs, hframe⟩ := (s.pass dt).logTimeout_frame o
  generalize (s.pass dt).logTimeout o = w at *
  have hread : ∀ (f : Field) (i j : Nat), regAddr f.reg i j ∉ [regAddr .logStatus 0 0] → w.rd f i j = s.rd f i j := fun f i j h =>
    hregs.rd h
  have hth : w.thread o.cluster o.thread = s.thread o.cluster o.thread := congrArg (fun v => v.thread o.cluster o.thread) hframe
  have hmould' : w.mstate (w.rd F.thrStatus_mould o.cluster o.thread) ≠ 5 := by
    rw [hread _ _ _ (regAddr_thrStatus_notMem_logStatus _ _), State.mstate, hread _ _ _ (regAddr_mouldStatus_notMem_logStatus _)]
    exact hmould
  have hfault' : w.flag F.thrStatus_ctxFault o.cluster o.thread = false := by
    rw [State.flag, hread _ _ _ (regAddr_thrStatus_notMem_logStatus _ _)]
    exact hfault
  obtain ⟨u, hu, hfive, hcause, hcode, haddr, hrop, hslots, huframe⟩ := State.endRop_loadFails (w := w.setRop id { o with fail := 0 })
    (id := id) (o := { o with fail := 0 }) (code := E.fabTimeout) (State.rop_setRop_same ..) hkind hsub hgot rfl (by decide) hm ht
    ((congrArg ThreadSt.wait hth).trans hwait) hmould' hfault'
  refine ⟨u, hexec.trans (by rw [hu]), hfive, hcause, hcode, haddr.trans (Nat.mod_mod _ _), hrop, ?_, ?_⟩
  · refine hslots.trans (congrArg (· - 1) (hread F.fabSlots_used o.mould 0 ?_))
    rw [show regAddr F.fabSlots_used.reg o.mould 0 = 0x800028 + 0x4000 * o.mould from rfl, regAddr_logStatus, List.mem_singleton]
    omega
  · rw [huframe, hframe]
    rfl

/-- A put of the ladle ends with a code: its slot and its frames are free, and its record has the code (R331). -/
theorem State.endRop_put (ho : o = w.rop id) (hkind : o.kind = 3) (hgot : o.got = false) (hfail : o.fail = 0) (hladle : o.thread = 16) :
    w.endRop id code [] 0 false = (w.ropFreed id o code).setRop id { o with got := true, fail := code, left := [] } := by
  unfold State.endRop
  dsimp only
  rw [← ho, hgot, decide_eq_false (by omega), if_neg (by decide), if_pos hladle, if_pos hfail, if_neg Bool.false_ne_true,
    if_neg (by rw [hkind]; decide), if_neg Bool.false_ne_true]
  rfl

theorem State.txS_ropFreed (w : State) (id : Nat) (o : ROp) (code : Nat) :
    ((w.ropFreed id o code).txS (streamKey o.dev o.mould)).out
      = (w.txS (streamKey o.dev o.mould)).out.filter (fun e => decide (e.op ≠ id)) := by
  unfold State.ropFreed
  obtain ⟨hframe, -⟩ := ((w.setTx (streamKey o.dev o.mould) { w.txS (streamKey o.dev o.mould) with
    out := (w.txS (streamKey o.dev o.mould)).out.filter (fun e => e.op ≠ id) }).freeSlot o.mould).noteFences_spec o id code 0 0
  rw [hframe]
  refine (congrArg TxStream.out (State.txS_setTx w (streamKey o.dev o.mould) (streamKey o.dev o.mould) _)).trans ?_
  rw [if_pos rfl]

theorem exec_opTimeout_put (hlive : s.live = true) (ho : o = s.rop id) (hkind : o.kind = 3) (hladle : o.thread = 16) (hgot : o.got = false)
    (hsends : 0 < o.sends) (hdue : o.firstAt + 1000 * max 500 (s.rd F.fabCtrl_opTimeoutUs) ≤ s.clk.up + dt)
    (hslag : s.isSlag o.mould o.ctx o.heat o.quenches = false) (hroom : s.logRoom 1) :
    ∃ u : State, exec (.opTimeout dt id) s = .next u.settle ∧ u.rop id = { o with got := true, fail := E.fabTimeout, left := [] }
      ∧ u.rd F.fabSlots_used o.mould = s.rd F.fabSlots_used o.mould - 1 ∧ u.lastEvt = some (0x1104, srcEngine o.cluster 7, o.mould)
      ∧ (u.txS (streamKey o.dev o.mould)).out = (s.txS (streamKey o.dev o.mould)).out.filter (fun e => decide (e.op ≠ id))
      ∧ RegsBut s u [regAddr .fabSlots o.mould 0] ∧ u = { s.pass dt with csr := u.csr, clus := u.clus, fab := u.fab, log := u.log } := by
  have hexec := exec_opTimeout_ends hlive ho (by omega) hgot hsends hdue hslag
  obtain ⟨hevt, hframe⟩ := (s.pass dt).logTimeout_pushes o hroom
  rw [if_pos hladle] at hevt
  generalize (s.pass dt).logTimeout o = w at *
  rw [State.endRop_put (o := { o with fail := 0 }) (State.rop_setRop_same ..).symm hkind hgot rfl hladle] at hexec
  have hcsr : (w.setRop id { o with fail := 0 }).csr = s.csr := (congrArg State.csr hframe).trans rfl
  have htx := (w.setRop id { o with fail := 0 }).txS_ropFreed id { o with fail := 0 } E.fabTimeout
  obtain ⟨hslots, hregs, -, -, hfreed⟩ := (w.setRop id { o with fail := 0 }).ropFreed_spec id { o with fail := 0 } E.fabTimeout 0 0
  refine ⟨_, hexec, State.rop_setRop_same .., ?_, ?_, ?_, ?_, ?_⟩
  · exact hslots.trans (congrArg (· - 1) (State.rd_of_csr hcsr _ _ _))
  · rw [hfreed]
    exact hevt
  · refine Eq.trans htx ?_
    exact congrArg (fun v => (v.txS (streamKey o.dev o.mould)).out.filter (fun e => decide (e.op ≠ id))) hframe
  · exact (State.regsBut_of_csr hcsr _).trans hregs
  · rw [hfreed, hframe]
    rfl

/-- Settles O36: a frame sent again is charged to its route; an operation given up or timed out ends as answered with a code, and a
failed load as an exception of its thread. -/
theorem remoteRetriesAndTimeouts : Obligations.RemoteRetriesAndTimeouts :=
  ⟨fun _ _ _ _ _ _ _ _ _ _ _ _ hlive hw hk hfind ho hdue hgot hatomic hown hatt hpay hf =>
      exec_frameResendTimeout_resends hlive hw hk hfind ho hdue hgot hatomic hown hatt hpay hf,
    fun _ _ _ _ _ _ hlive hw ho hkind hgot hsends hdue hf => exec_atomicResend_resends hlive hw ho hkind hgot hsends hdue hf,
    fun _ _ _ _ hlive ho hkind hgot hdue hbusy hfail _ _ hthread hwait hfence =>
      exec_atomicGiveUp_busy hlive ho hkind hgot hdue hbusy hfail hthread hwait hfence,
    fun _ _ _ _ hlive ho hkind hgot hdue hsilent hfail _ _ hthread hwait hfence hroom =>
      exec_atomicGiveUp_unknown hlive ho hkind hgot hdue hsilent hfail hthread hwait hfence hroom,
    fun _ _ _ _ hlive ho hkind hgot hsends hdue _ _ hthread hslag hwait hfence hroom =>
      exec_opTimeout_code hlive ho hkind hgot hsends hdue hthread hslag hwait hfence hroom,
    fun _ _ _ _ hlive ho hkind hsub hgot hsends hdue hm _ ht hslag hwait hmould hfault =>
      exec_opTimeout_load hlive ho hkind hsub hgot hsends hdue hm ht hslag hwait hmould hfault,
    fun _ _ _ _ hlive ho hkind hladle hgot hsends hdue _ _ hslag hroom =>
      exec_opTimeout_put hlive ho hkind hladle hgot hsends hdue hslag hroom⟩

end Sys2Proof.Machine
end

section
/-! What frames that leave a port and a source of time that is lost change: the registers they touch, and no receive buffer
(R309 to R311, R345, R399, R405). -/
namespace Sys2Proof.Machine

/-- t is s after traffic moved: of the registers only as differ, and the frames received and their streams stay. -/
structure State.Diverted (as : List Nat) (s t : State) : Prop where
  frame : t = { s with csr := t.csr, free := t.free, log := t.log, fab := t.fab, egr := t.egr, tim := t.tim }
  regs : RegsBut s t as
  rx : ∀ p, (t.port p).rx = (s.port p).rx
  streams : t.fab.rx = s.fab.rx

/-- The registers that the routes count in, and those a lost source of time moves. -/
def divertRegs : List Nat := [regAddr .fabStat2 0 0, regAddr .logStatus 0 0, regAddr .timeStatus 0 0, regAddr .timeIncr 0 0]

/-- The registers of a port that leaves its neighbour, with those of its traffic. -/
def leaveRegs (p : Nat) : List Nat := regAddr .portStatus p 0 :: regAddr .macsec p 0 :: divertRegs

theorem fabStat2_mem_divertRegs : regAddr .fabStat2 0 0 ∈ divertRegs := by simp [divertRegs]

theorem logStatus_mem_divertRegs : regAddr .logStatus 0 0 ∈ divertRegs := by simp [divertRegs]

theorem timeStatus_mem_divertRegs : regAddr .timeStatus 0 0 ∈ divertRegs := by simp [divertRegs]

theorem timeIncr_mem_divertRegs : regAddr .timeIncr 0 0 ∈ divertRegs := by simp [divertRegs]

theorem portStatus_mem_leaveRegs (p : Nat) : regAddr .portStatus p 0 ∈ leaveRegs p := by simp [leaveRegs]

theorem macsec_mem_leaveRegs (p : Nat) : regAddr .macsec p 0 ∈ leaveRegs p := by simp [leaveRegs]

theorem divertRegs_subset_leaveRegs (p : Nat) : divertRegs ⊆ leaveRegs p := by simp [leaveRegs]

theorem State.port_setPort (s : State) (p q : Nat) (v : PortSt) : (s.setPort p v).port q = if q = p then v else s.port q := Tab.get_set ..

namespace State.Diverted

variable {as bs : List Nat} {s t u : State}

theorem refl (s : State) : Diverted as s s := ⟨rfl, RegsBut.refl s as, fun _ => rfl, rfl⟩

theorem trans (h : Diverted as s t) (k : Diverted as t u) : Diverted as s u :=
  ⟨k.frame.trans (by rw [h.frame]), h.regs.trans k.regs, fun p => (k.rx p).trans (h.rx p), k.streams.trans h.streams⟩

theorem mono (h : Diverted as s t) (hsub : as ⊆ bs) : Diverted bs s t := ⟨h.frame, h.regs.mono hsub, h.rx, h.streams⟩

theorem foldl {α : Type} {f : State → α → State} (hf : ∀ (u : State) (a : α), Diverted as u (f u a)) (l : List α) (s : State) :
    Diverted as s (l.foldl f s) :=
  List.foldlRecOn l f (motive := Diverted as s) (refl s) fun t ht a _ => ht.trans (hf t a)

/-- Parts that hold no registers and no port. -/
theorem of_parts (h : t = { s with free := t.free, log := t.log, fab := t.fab, egr := t.egr, tim := t.tim })
    (hports : t.fab.ports = s.fab.ports) (hstreams : t.fab.rx = s.fab.rx) : Diverted as s t := by
  have hcsr : t.csr = s.csr := (congrArg State.csr h).trans rfl
  exact ⟨by rw [hcsr]; exact h, State.regsBut_of_csr hcsr as, fun p => congrArg (fun l => (Tab.get PortSt.init l p).rx) hports, hstreams⟩

theorem wr (s : State) (f : Field) (v i j : Nat) (h : regAddr f.reg i j ∈ as) : Diverted as s (s.wr f v i j) :=
  ⟨rfl, (State.regsBut_wr s f v i j).mono (List.cons_subset.mpr ⟨h, List.nil_subset _⟩), fun _ => rfl, rfl⟩

theorem cnt (s : State) (f : Field) (i j n : Nat) (h : regAddr f.reg i j ∈ as) : Diverted as s (s.cnt f i j n) := wr s f _ i j h

theorem logEvt (s : State) (code source m d : Nat) (h : regAddr .logStatus 0 0 ∈ as) : Diverted as s (s.logEvt code source m d) := by
  have hframe := State.logEvt_frame s code source m d
  have hregs := State.regsBut_logEvt s code source m d
  generalize s.logEvt code source m d = t at *
  refine ⟨?_, hregs.mono (List.cons_subset.mpr ⟨h, List.nil_subset _⟩), fun p => ?_, ?_⟩
  · rw [hframe]
  · rw [hframe]
    rfl
  · rw [hframe]

theorem logFree (s : State) (code source m : Nat) (h : regAddr .logStatus 0 0 ∈ as) : Diverted as s (s.logFree code source m) := by
  have hframe := State.logFree_frame s code source m
  have hregs := State.regsBut_logFree s code source m
  generalize s.logFree code source m = t at *
  refine ⟨?_, hregs.mono (List.cons_subset.mpr ⟨h, List.nil_subset _⟩), fun p => ?_, ?_⟩
  · rw [hframe]
  · rw [hframe]
    rfl
  · rw [hframe]

/-- A port is replaced by one that has received the same frames. -/
theorem setPort (s : State) (p : Nat) {v : PortSt} (h : v.rx = (s.port p).rx) : Diverted as s (s.setPort p v) := by
  refine ⟨rfl, State.regsBut_of_csr rfl as, fun q => ?_, rfl⟩
  rw [State.port_setPort]
  split
  · next hq => rw [h, hq]
  · rfl

theorem owe (s : State) (p : Nat) (f : Bytes) : Diverted as s (s.owe p f) := by
  unfold State.owe
  split
  · exact refl s
  · exact setPort s p rfl

theorem noteDetour (s : State) (dst : Nat) (detour : Bool) : Diverted divertRegs s (s.noteDetour dst detour) := by
  have hcount : Diverted divertRegs s (s.cnt F.fabStat2_rerouted) := cnt s F.fabStat2_rerouted 0 0 1 fabStat2_mem_divertRegs
  unfold State.noteDetour
  split
  · dsimp only
    split
    · exact hcount
    · refine Diverted.trans ?_ (logFree _ _ _ _ logStatus_mem_divertRegs)
      exact hcount.trans (of_parts rfl rfl rfl)
  · exact of_parts rfl rfl rfl

/-- A frame goes to its route, from whichever port it came (R310, R313). -/
theorem dispatchFrame (s : State) (f : Bytes) (inPort ctx : Nat) : Diverted divertRegs s (s.dispatchFrame f inPort ctx) := by
  unfold State.dispatchFrame
  split
  · refine Diverted.trans ?_ (owe ..)
    exact of_parts rfl rfl rfl
  · exact (owe ..).trans (cnt _ F.fabStat2_unreachable 0 0 1 fabStat2_mem_divertRegs)
  · exact (noteDetour ..).trans (of_parts rfl rfl rfl)

theorem rerouteFrom (s : State) (p : Nat) : Diverted divertRegs s (s.rerouteFrom p) := by
  unfold State.rerouteFrom
  dsimp only
  refine Diverted.trans ?_ (foldl (fun u f => dispatchFrame u _ _ _) _ _)
  refine Diverted.trans ?_ (foldl (fun u f => dispatchFrame u _ _ _) _ _)
  refine Diverted.trans ?_ (setPort _ p rfl)
  exact foldl (f := fun u (e : Nat × EgQueue) => State.setEq u e.1 { e.2 with frames := [], deficit := 0, gdef := [], gcur := 0 })
    (fun u e => of_parts rfl rfl rfl) _ s

theorem timeState (s : State) (n : Nat) : Diverted divertRegs s (s.timeState n) := by
  unfold State.timeState
  dsimp only
  split
  · exact refl s
  · refine Diverted.trans ?_ (logEvt _ _ _ _ _ logStatus_mem_divertRegs)
    refine Diverted.trans ?_ (wr _ F.timeStatus_state n 0 0 timeStatus_mem_divertRegs)
    exact of_parts rfl rfl rfl

theorem setIncr (s : State) (v : Nat) : Diverted divertRegs s (s.setIncr v) := by
  unfold State.setIncr
  dsimp only
  refine Diverted.trans ?_ (wr _ F.timeStatus_freqOffset _ 0 0 timeStatus_mem_divertRegs)
  refine Diverted.trans ?_ (wr _ F.timeIncr_incr _ 0 0 timeIncr_mem_divertRegs)
  exact of_parts rfl rfl rfl

theorem holdover (s : State) : Diverted divertRegs s s.holdover := by
  unfold State.holdover
  split
  · exact ((timeState ..).trans (setIncr ..)).trans (of_parts rfl rfl rfl)
  · exact refl s

theorem upstreamLost (s : State) (p : Nat) : Diverted divertRegs s (s.upstreamLost p) := by
  unfold State.upstreamLost
  split
  · refine Diverted.trans ?_ (holdover ..)
    exact of_parts rfl rfl rfl
  · exact refl s

end State.Diverted

/-- Port p in state st without protection, its traffic still in place. -/
def State.portClosed (s : State) (p st : Nat) : State :=
  ((s.wr F.portStatus_state st p).wr F.portStatus_macsec 0 p).wr F.macsec_active 0 p

/-- The traffic of a port that was up moves, and its source of time is lost with it (R345, R405). -/
def State.trafficMoves (s : State) (p : Nat) : State := ((s.logWith 0x1101 (0x0010 + p) 0xFF p).rerouteFrom p).upstreamLost p

theorem State.portLeaves_eq (s : State) (p st : Nat) :
    s.portLeaves p st = if s.jUp p then (s.portClosed p st).trafficMoves p else s.portClosed p st :=
  rfl

theorem State.Diverted.trafficMoves (s : State) (p : Nat) : Diverted divertRegs s (s.trafficMoves p) :=
  ((logEvt _ _ _ _ _ logStatus_mem_divertRegs).trans (rerouteFrom ..)).trans (upstreamLost ..)

theorem State.Diverted.portClosed (s : State) (p st : Nat) : Diverted (leaveRegs p) s (s.portClosed p st) :=
  ((wr s F.portStatus_state st p 0 (portStatus_mem_leaveRegs p)).trans (wr _ F.portStatus_macsec 0 p 0 (portStatus_mem_leaveRegs p))).trans
    (wr _ F.macsec_active 0 p 0 (macsec_mem_leaveRegs p))

theorem State.Diverted.portLeaves (s : State) (p st : Nat) : Diverted (leaveRegs p) s (s.portLeaves p st) := by
  rw [State.portLeaves_eq]
  split
  · exact (portClosed s p st).trans ((trafficMoves _ p).mono (divertRegs_subset_leaveRegs p))
  · exact portClosed s p st

theorem regAddr_portStatus (p : Nat) : regAddr .portStatus p 0 = 0x401000 + 0x40 * p := rfl

theorem regAddr_macsec (p : Nat) : regAddr .macsec p 0 = 0x300200 + 0x8 * p := rfl

theorem divertRegs_eq : divertRegs = [0x400028, 0x4018, 0x100020, 0x100010] := rfl

theorem regAddr_portStatus_notMem_divertRegs (p : Nat) : regAddr .portStatus p 0 ∉ divertRegs := by
  rw [regAddr_portStatus, divertRegs_eq]
  simp only [List.mem_cons, List.not_mem_nil, or_false]
  omega

theorem regAddr_macsec_notMem_divertRegs {p : Nat} (hp : p < 12) : regAddr .macsec p 0 ∉ divertRegs := by
  rw [regAddr_macsec, divertRegs_eq]
  simp only [List.mem_cons, List.not_mem_nil, or_false]
  omega

/-- The state and the protection of a port that is closed. -/
theorem State.portClosed_spec (s : State) {p st : Nat} (hp : p < 12) (hst : st < 8) :
    (s.portClosed p st).rd F.portStatus_state p = st ∧ (s.portClosed p st).rd F.portStatus_macsec p = 0
      ∧ (s.portClosed p st).rd F.macsec_active p = 0 ∧ (s.portClosed p st).rd F.macsec_keyFail p = s.rd F.macsec_keyFail p := by
  have hapart : regAddr .portStatus p 0 ≠ regAddr .macsec p 0 := by
    rw [regAddr_portStatus, regAddr_macsec]
    omega
  refine ⟨?_, ?_, State.rd_wr_same _ F.macsec_active 0 p 0 (by decide), ?_⟩
  · rw [State.portClosed, State.rd_wr_ne _ (f := F.macsec_active) (g := F.portStatus_state) _ hapart,
      State.rd_wr_beside _ _ _ _ (by rfl) (by decide) (by decide), State.rd_wr_same _ _ _ _ _ (by decide)]
    exact Nat.mod_eq_of_lt hst
  · rw [State.portClosed, State.rd_wr_ne _ (f := F.macsec_active) (g := F.portStatus_macsec) _ hapart, State.rd_wr_same _ _ _ _ _ (by decide)]
    rfl
  · rw [State.portClosed, State.rd_wr_beside _ _ _ _ (by rfl) (by decide) (by decide),
      State.rd_wr_ne _ (f := F.portStatus_macsec) (g := F.macsec_keyFail) _ hapart.symm,
      State.rd_wr_ne _ (f := F.portStatus_state) (g := F.macsec_keyFail) _ hapart.symm]

/-- The state and the protection of a port that leaves its neighbour (R309). -/
theorem State.portLeaves_spec (s : State) {p st : Nat} (hp : p < 12) (hst : st < 8) :
    (s.portLeaves p st).rd F.portStatus_state p = st ∧ (s.portLeaves p st).rd F.portStatus_macsec p = 0
      ∧ (s.portLeaves p st).rd F.macsec_active p = 0
      ∧ (s.portLeaves p st).rd F.macsec_keyFail p = s.rd F.macsec_keyFail p := by
  have hstate := s.portClosed_spec hp hst
  rw [State.portLeaves_eq]
  split
  · have hregs := (State.Diverted.trafficMoves (s.portClosed p st) p).regs
    rw [hregs.rd (f := F.portStatus_state) (regAddr_portStatus_notMem_divertRegs p),
      hregs.rd (f := F.portStatus_macsec) (regAddr_portStatus_notMem_divertRegs p),
      hregs.rd (f := F.macsec_active) (regAddr_macsec_notMem_divertRegs hp),
      hregs.rd (f := F.macsec_keyFail) (regAddr_macsec_notMem_divertRegs hp)]
    exact hstate
  · exact hstate

end Sys2Proof.Machine
end

section
/-! A port that is quarantined, or charged with a frame of no use (R328, R573, R575). -/
namespace Sys2Proof.Machine

/-- t is s after a violation of subject k was counted: of the registers only those of its quarantine and of the log differ. -/
def State.Charged (k : Nat) (s t : State) : Prop :=
  RegsBut s t [regAddr .quar k 0, regAddr .logStatus 0 0] ∧ t = { s with csr := t.csr, log := t.log, health := t.health }

theorem State.Charged.trans {k : Nat} {s t u : State} (h : State.Charged k s t) (j : State.Charged k t u) : State.Charged k s u := by
  obtain ⟨hregs, hframe⟩ := h
  obtain ⟨jregs, jframe⟩ := j
  exact ⟨hregs.trans jregs, jframe.trans (by rw [hframe])⟩

theorem State.charged_setQuar (s : State) (k : Nat) (q : QuarSt) : State.Charged k s (s.setQuar k q) :=
  ⟨State.regsBut_of_csr rfl _, rfl⟩

theorem State.charged_wr (s : State) {f : Field} (hf : f.reg = .quar) (v k : Nat) : State.Charged k s (s.wr f v k) :=
  ⟨(State.regsBut_wr s f v k 0).mono (by simp [hf]), rfl⟩

theorem State.charged_logEvt (s : State) (k code source m d : Nat) : State.Charged k s (s.logEvt code source m d) := by
  have hframe := State.logEvt_frame s code source m d
  have hregs := State.regsBut_logEvt s code source m d
  generalize s.logEvt code source m d = t at *
  exact ⟨hregs.mono (by simp), by rw [hframe]⟩

theorem State.charged_count (s : State) (k kind cluster n : Nat) : State.Charged k s (s.count kind cluster n) := by
  have hframe := State.count_frame s kind cluster n
  generalize s.count kind cluster n = t at *
  have hcsr : t.csr = s.csr := (congrArg State.csr hframe).trans rfl
  exact ⟨State.regsBut_of_csr hcsr _, by rw [hframe]⟩

theorem State.charged_quarBegin (s : State) (k : Nat) : State.Charged k s (s.quarBegin k) := by
  unfold State.quarBegin
  dsimp only
  refine .trans ?_ (State.charged_count ..)
  refine .trans ?_ (State.charged_logEvt ..)
  refine .trans ?_ (State.charged_wr _ (f := F.quar_quarantines) rfl _ k)
  refine .trans ?_ (State.charged_wr _ (f := F.quar_level) rfl _ k)
  exact .trans (State.charged_setQuar ..) (State.charged_wr _ (f := F.quar_active) rfl _ k)

theorem State.charged_quarHit (s : State) (k limit : Nat) : State.Charged k s (s.quarHit k limit).2 := by
  unfold State.quarHit
  dsimp only
  split
  · exact ⟨RegsBut.refl s _, rfl⟩
  · split
    · exact .trans (State.charged_setQuar ..) (State.charged_quarBegin ..)
    · exact State.charged_setQuar ..

theorem State.charged_quarRetrain (s : State) (k limit : Nat) : State.Charged k s (s.quarRetrain k limit).2 := by
  unfold State.quarRetrain
  dsimp only
  split
  · exact ⟨RegsBut.refl s _, rfl⟩
  · split
    · exact .trans (State.charged_setQuar ..) (State.charged_quarBegin ..)
    · exact State.charged_setQuar ..

/-- A port that is charged, and then perhaps leaves its neighbour. -/
theorem State.Charged.diverted {p : Nat} {s t u : State} (h : State.Charged p s t) (k : State.Diverted (leaveRegs p) t u) :
    RegsBut s u (regAddr .quar p 0 :: leaveRegs p) ∧ (∀ q, (u.port q).rx = (s.port q).rx)
      ∧ u = { s with csr := u.csr, free := u.free, log := u.log, fab := u.fab, egr := u.egr, tim := u.tim, health := u.health } := by
  obtain ⟨hregs, hframe⟩ := h
  refine ⟨(hregs.mono ?_).trans (k.regs.mono (List.subset_cons_self _ _)), fun q => ?_, ?_⟩
  · simp [leaveRegs, divertRegs]
  · rw [k.rx, hframe]
    rfl
  · rw [k.frame, hframe]

/-- What a frame of no use does to its port: it may be the one that begins a quarantine. -/
theorem State.badFrame_spec (s : State) (p : Nat) :
    RegsBut s (s.badFrame p) (regAddr .quar p 0 :: leaveRegs p) ∧ (∀ q, ((s.badFrame p).port q).rx = (s.port q).rx)
      ∧ s.badFrame p = { s with
          csr := (s.badFrame p).csr, free := (s.badFrame p).free, log := (s.badFrame p).log, fab := (s.badFrame p).fab
          egr := (s.badFrame p).egr, tim := (s.badFrame p).tim, health := (s.badFrame p).health } := by
  unfold State.badFrame
  split
  · exact ⟨RegsBut.refl s _, fun _ => rfl, rfl⟩
  · dsimp only
    split
    · exact (s.charged_quarHit p 1000).diverted (State.Diverted.portLeaves _ p 4)
    · exact (s.charged_quarHit p 1000).diverted (State.Diverted.refl _)

end Sys2Proof.Machine
end

section
/-! What is sent and taken does not read the owner words and the versions of regions, and leaves them (R335, R336, R339). -/
namespace Sys2Proof.Machine

/-- s with the owner words and the versions of its regions replaced. -/
def State.withTables (s : State) (o v : Tab Nat) : State := { s with owners := o, vers := v }

variable (s : State) (o v : Tab Nat)

/-- A choice that the tables do not decide. -/
theorem State.withTables_ite (c : Prop) [Decidable c] (a b : State) :
    (if c then a else b).withTables o v = if c then a.withTables o v else b.withTables o v :=
  apply_ite (fun u => State.withTables u o v) c a b

theorem State.withTables_logRec (r : LogRec) : (s.withTables o v).logRec r = (s.logRec r).withTables o v := by
  unfold State.logRec
  rw [State.withTables_ite]
  rfl

theorem State.withTables_logEvt (code source m d : Nat) :
    (s.withTables o v).logEvt code source m d = (s.logEvt code source m d).withTables o v :=
  State.withTables_logRec s o v _

theorem State.withTables_logFree (code source m : Nat) :
    (s.withTables o v).logFree code source m = (s.logFree code source m).withTables o v :=
  State.withTables_logEvt { s with free := s.free + 1 } o v code source m _

theorem State.withTables_owe (p : Nat) (f : Bytes) : (s.withTables o v).owe p f = (s.owe p f).withTables o v := by
  unfold State.owe
  rw [State.withTables_ite]
  rfl

theorem State.withTables_noteDetour (dst : Nat) (detour : Bool) :
    (s.withTables o v).noteDetour dst detour = (s.noteDetour dst detour).withTables o v := by
  unfold State.noteDetour
  dsimp only
  rw [State.withTables_ite, State.withTables_ite, ← State.withTables_logFree]
  rfl

theorem State.withTables_dispatchFrame (f : Bytes) (inPort ctx : Nat) :
    (s.withTables o v).dispatchFrame f inPort ctx = (s.dispatchFrame f inPort ctx).withTables o v := by
  unfold State.dispatchFrame
  rw [show (s.withTables o v).route (fSrc f) (fDst f) inPort (fRerouted f) = s.route (fSrc f) (fDst f) inPort (fRerouted f) from rfl]
  generalize s.route (fSrc f) (fDst f) inPort (fRerouted f) = hop
  cases hop with
  | here => exact State.withTables_owe { s with fab := { s.fab with loopQ := s.fab.loopQ ++ [f] } } o v inPort f
  | unreachable =>
    dsimp only
    rw [State.withTables_owe]
    rfl
  | port p re de =>
    dsimp only
    rw [State.withTables_noteDetour]
    rfl

theorem State.withTables_sendAck (dev m : Nat) : (s.withTables o v).sendAck dev m = (s.sendAck dev m).withTables o v :=
  State.withTables_dispatchFrame (s.setRx (streamKey dev m) { s.rxS (streamKey dev m) with adv := 0 }) o v _ 12 0

theorem State.withTables_post (c m x t n : Nat) : (s.withTables o v).post c m x t n = (s.post c m x t n).withTables o v := by
  unfold State.post
  dsimp only
  rw [State.withTables_ite, ← State.withTables_logEvt]
  rfl

theorem State.withTables_postPut (m : Nat) (refused : List Nat) (head : Bytes) :
    (s.withTables o v).postPut m refused head = (s.postPut m refused head).withTables o v := by
  unfold State.postPut
  dsimp only
  rw [State.withTables_ite, show (s.withTables o v).tokenCluster m (qOff head) = s.tokenCluster m (qOff head) from rfl]
  cases s.tokenCluster m (qOff head) with
  | none => rfl
  | some c =>
    dsimp only
    rw [← State.withTables_post]
    rfl

theorem State.withTables_passPut (k : Nat) (r : PutRec) : (s.withTables o v).passPut k r = (s.passPut k r).withTables o v := by
  rw [State.passPut_eq, State.passPut_eq, State.withTables_ite, ← State.withTables_postPut]
  rfl

theorem State.withTables_advanceCum (n k : Nat) : (s.withTables o v).advanceCum n k = (s.advanceCum n k).withTables o v := by
  induction n generalizing s with
  | zero => rfl
  | succ n ih =>
    unfold State.advanceCum
    dsimp only
    rw [State.withTables_ite, ← ih, show (s.withTables o v).rxS k = s.rxS k from rfl]
    cases (s.rxS k).puts.find? (fun e => e.seq = ((s.rxS k).cum + 1) % 2 ^ 32) with
    | none => rfl
    | some r =>
      dsimp only
      rw [← State.withTables_passPut]
      rfl

theorem State.withTables_ackEighth (f : Bytes) : (s.withTables o v).ackEighth f = (s.ackEighth f).withTables o v := by
  unfold State.ackEighth
  rw [State.withTables_ite, ← State.withTables_sendAck]
  rfl

theorem State.withTables_takeSeq (f : Bytes) (refused : Bool) :
    (s.withTables o v).takeSeq f refused = (s.takeSeq f refused).withTables o v := by
  rw [State.takeSeq_eq _ f refused rfl, State.takeSeq_eq s f refused rfl, ← State.withTables_ackEighth, ← State.withTables_advanceCum]
  rfl

theorem State.withTables_answered (dup : Bool) (f : Bytes) (refused : Bool) :
    (s.withTables o v).answered dup f refused = (s.answered dup f refused).withTables o v := by
  unfold State.answered
  rw [State.withTables_ite, State.withTables_sendAck, State.withTables_takeSeq]

/-- A reply goes to its route, and its request counts as answered. -/
def State.delivered (s : State) (g : Bytes) (dup : Bool) (f : Bytes) : State := (s.dispatchFrame g 12 0).answered dup f false

theorem State.withTables_delivered (g : Bytes) (dup : Bool) (f : Bytes) :
    (s.withTables o v).delivered g dup f = (s.delivered g dup f).withTables o v := by
  rw [State.delivered, State.withTables_dispatchFrame, State.withTables_answered]
  rfl

/-- A reply that goes out leaves the owner words and the versions. -/
theorem State.tables_delivered (g : Bytes) (dup : Bool) (f : Bytes) :
    (s.delivered g dup f).owners = s.owners ∧ (s.delivered g dup f).vers = s.vers := by
  have h : s.delivered g dup f = (s.delivered g dup f).withTables s.owners s.vers := s.withTables_delivered s.owners s.vers g dup f
  exact ⟨(congrArg State.owners h).trans rfl, (congrArg State.vers h).trans rfl⟩

theorem State.memoryKept_delivered (g : Bytes) (dup : Bool) (f : Bytes) : s.MemoryKept (s.delivered g dup f) :=
  .trans (.of_routes (State.routes_dispatchFrame ..)) (State.memoryKept_answered ..)

end Sys2Proof.Machine
end

section
/-! Atomics, ownership and the reply cache at a target (R335, R336, R339 to R341). -/
namespace Sys2Proof.Machine

variable {s v q w : State} {p op ecc word old i : Nat} {f g : Bytes} {e : Reply} {apply : Bytes → State → Nat × State}

/-- The atomic that a request asks for: the old value, and the state after it (Table 11.9). -/
def State.atomicApplied (f : Bytes) (s : State) : Nat × State :=
  s.applyAtomic (fMould f) (qOff f) (qLen f) (qSub f) (beAt f 0x30 8) (beAt f 0x38 8)

/-- The ownership operation that a request asks for: the old owner word of its region, and the state after it (Table 11.7). -/
def State.ownerTaken (f : Bytes) (s : State) : Nat × State :=
  match s.regionIdx (fMould f) (qOff f) with
  | some i => (Tab.get 0 s.owners (regionKey (fMould f) i), { s with
      owners := Tab.set 0 s.owners (regionKey (fMould f) i)
        (ownNew (qSub f) (Tab.get 0 s.owners (regionKey (fMould f) i)) (ownerWord f) (beAt f 0x30 8)) })
  | none => (0, s)

theorem exec_atomicReq_live (h : s.takesRequest v p 5 f) :
    exec (.atomicReq p ecc word) s = .next (s.onceRequest p 5 ecc word State.atomicApplied).settle :=
  (exec_atomicReq ..).trans (whenLive_live s (fun t => t.onceRequest p 5 ecc word State.atomicApplied) h.1.1)

theorem exec_ownReq_live (h : s.takesRequest v p 7 f) :
    exec (.ownReq p) s = .next (s.onceRequest p 7 0 0 State.ownerTaken).settle :=
  (exec_ownReq ..).trans (whenLive_live s (fun t => t.onceRequest p 7 0 0 State.ownerTaken) h.1.1)

/-- A request without a stored reply that passes the target's checks is executed once (R339, R340). -/
theorem State.onceRequest_runs (h : s.takesRequest v p op f) (hnew : v.fab.cache.find? (fun e => e.key = replyKey f) = none)
    (hcheck : v.targetCheck f (if op = 5 then qLen f else 1) = 0)
    (hread : (if op = 5 then v.access (fMould f) (qOff f) (qLen f) ecc word else (0, v)) = (0, q)) (hroom : q.replyRoom = true)
    (happly : apply f q = (old, w)) (hg : g = w.newFrame (fSrc f) (fMould f) (fHeat f) (op + 0x0E) 0 (fSeq f) 1 0 (toBe 8 old)) :
    s.onceRequest p op ecc word apply
      = (w.storeReply (replyKey f) g).delivered g ((v.rxS (streamKey (fSrc f) (fMould f))).dup (fSeq f)) f := by
  rw [State.onceRequest, State.request_takes h]
  dsimp only
  rw [hnew]
  dsimp only
  rw [hread, if_neg (not_not_intro hcheck), if_neg (not_not_intro rfl), hroom, if_neg (by decide), happly, ← hg]
  rfl

/-- A request whose reply is stored is answered from it (R339). -/
theorem State.onceRequest_stored (h : s.takesRequest v p op f) (hstored : v.fab.cache.find? (fun e => e.key = replyKey f) = some e) :
    s.onceRequest p op ecc word apply
      = ((v.cnt F.rcache_hits).respond f (op + 0x0E) 0 (fPay e.frame)).answered ((v.rxS (streamKey (fSrc f) (fMould f))).dup (fSeq f)) f
          false := by
  rw [State.onceRequest, State.request_takes h]
  dsimp only
  rw [hstored]

/-- It changes neither memory nor owner words nor versions. -/
theorem State.onceRequest_keeps (h : s.takesRequest v p op f) (hstored : v.fab.cache.find? (fun e => e.key = replyKey f) = some e) :
    s.MemoryKept (s.onceRequest p op ecc word apply) ∧ (s.onceRequest p op ecc word apply).owners = s.owners
      ∧ (s.onceRequest p op ecc word apply).vers = s.vers := by
  obtain ⟨g, hg⟩ : ∃ g, s.onceRequest p op ecc word apply
      = (v.cnt F.rcache_hits).delivered g ((v.rxS (streamKey (fSrc f) (fMould f))).dup (fSeq f)) f :=
    ⟨_, State.onceRequest_stored h hstored⟩
  have hroutes : s.Routes (v.cnt F.rcache_hits) := (State.takesRequest_routes h).trans rfl
  obtain ⟨howners, hvers⟩ :=
    (v.cnt F.rcache_hits).tables_delivered g ((v.rxS (streamKey (fSrc f) (fMould f))).dup (fSeq f)) f
  rw [hg]
  exact ⟨.trans (.of_routes hroutes) (State.memoryKept_delivered ..), howners.trans ((congrArg State.owners hroutes).trans rfl),
    hvers.trans ((congrArg State.vers hroutes).trans rfl)⟩

theorem exec_atomicReq_once (h : s.takesRequest v p 5 f) (hnew : v.fab.cache.find? (fun e => e.key = replyKey f) = none)
    (hcheck : v.targetCheck f (qLen f) = 0) (hread : v.access (fMould f) (qOff f) (qLen f) ecc word = (0, q)) (hroom : q.replyRoom = true)
    (hold : old = leNat (q.readMem (fMould f) (qOff f) (qLen f)))
    (hw : w = (if atomicNew (qSub f) (qLen f) old (beAt f 0x30 8) (beAt f 0x38 8) = old then q
      else (q.writeMem (fMould f) (qOff f) (toLe (qLen f) (atomicNew (qSub f) (qLen f) old (beAt f 0x30 8) (beAt f 0x38 8)))).bumpAt
        (fMould f) (qOff f)))
    (hg : g = q.newFrame (fSrc f) (fMould f) (fHeat f) 0x13 0 (fSeq f) 1 0 (toBe 8 old)) :
    ∃ u : State, exec (.atomicReq p ecc word) s = .next u.settle
      ∧ u = ((w.storeReply (replyKey f) g).dispatchFrame g 12 0).answered ((v.rxS (streamKey (fSrc f) (fMould f))).dup (fSeq f)) f false
      ∧ u.sram = w.sram ∧ u.gddr = w.gddr ∧ u.cxl = w.cxl := by
  have hframe : w = { q with sram := w.sram, gddr := w.gddr, cxl := w.cxl, xts := w.xts, vers := w.vers } := by
    rw [hw]
    split
    · rfl
    · rw [q.writeMem_bumpAt_frame]
  have hreply : g = w.newFrame (fSrc f) (fMould f) (fHeat f) 0x13 0 (fSeq f) 1 0 (toBe 8 old) := by
    rw [hg, hframe]
    rfl
  have hruns := State.onceRequest_runs (ecc := ecc) (word := word) (apply := State.atomicApplied) h hnew hcheck hread hroom
    (by rw [State.atomicApplied, State.applyAtomic, ← hold, ← hw]) hreply
  obtain ⟨hsram, hgddr, hcxl⟩ := (w.storeReply (replyKey f) g).memoryKept_delivered g
    ((v.rxS (streamKey (fSrc f) (fMould f))).dup (fSeq f)) f
  refine ⟨_, ?_, rfl, hsram, hgddr, hcxl⟩
  rw [exec_atomicReq_live h, hruns]
  rfl

theorem exec_ownReq_once (h : s.takesRequest v p 7 f) (hnew : v.fab.cache.find? (fun e => e.key = replyKey f) = none)
    (hcheck : v.targetCheck f 1 = 0) (hroom : v.replyRoom = true) (hregion : v.regionIdx (fMould f) (qOff f) = some i)
    (hg : g = v.newFrame (fSrc f) (fMould f) (fHeat f) 0x15 0 (fSeq f) 1 0 (toBe 8 (Tab.get 0 v.owners (regionKey (fMould f) i)))) :
    ∃ u : State, exec (.ownReq p) s = .next u.settle
      ∧ u.owners = Tab.set 0 s.owners (regionKey (fMould f) i)
          (ownNew (qSub f) (Tab.get 0 s.owners (regionKey (fMould f) i)) (ownerWord f) (beAt f 0x30 8))
      ∧ u = { ((v.storeReply (replyKey f) g).dispatchFrame g 12 0).answered ((v.rxS (streamKey (fSrc f) (fMould f))).dup (fSeq f)) f false with
          owners := u.owners }
      ∧ u.sram = s.sram ∧ u.gddr = s.gddr ∧ u.cxl = s.cxl := by
  have hroutes := State.takesRequest_routes h
  obtain ⟨l, hl⟩ : ∃ l, l = Tab.set 0 v.owners (regionKey (fMould f) i)
    (ownNew (qSub f) (Tab.get 0 v.owners (regionKey (fMould f) i)) (ownerWord f) (beAt f 0x30 8)) := ⟨_, rfl⟩
  have hruns := State.onceRequest_runs (ecc := 0) (word := 0) (w := v.withTables l v.vers) (apply := State.ownerTaken) h hnew hcheck rfl
    hroom (by rw [State.ownerTaken, hregion, hl]; rfl) (hg.trans rfl)
  obtain ⟨x, hx⟩ : ∃ x, x = (v.storeReply (replyKey f) g).delivered g ((v.rxS (streamKey (fSrc f) (fMould f))).dup (fSeq f)) f := ⟨_, rfl⟩
  have hdelivered : ((v.withTables l v.vers).storeReply (replyKey f) g).delivered g
      ((v.rxS (streamKey (fSrc f) (fMould f))).dup (fSeq f)) f = x.withTables l v.vers := by
    rw [hx, ← State.withTables_delivered]
    rfl
  rw [hdelivered] at hruns
  obtain ⟨-, hvers⟩ := (v.storeReply (replyKey f) g).tables_delivered g ((v.rxS (streamKey (fSrc f) (fMould f))).dup (fSeq f)) f
  obtain ⟨hsram, hgddr, hcxl⟩ := State.MemoryKept.trans (.of_routes (hroutes.trans rfl))
    ((v.storeReply (replyKey f) g).memoryKept_delivered g ((v.rxS (streamKey (fSrc f) (fMould f))).dup (fSeq f)) f)
  rw [← hx] at hvers hsram hgddr hcxl
  refine ⟨x.withTables l v.vers, ?_, ?_, ?_, hsram, hgddr, hcxl⟩
  · rw [exec_ownReq_live h, hruns]
  · have howners : v.owners = s.owners := (congrArg State.owners hroutes).trans rfl
    rw [← howners]
    exact hl
  · show x.withTables l v.vers
      = { (v.storeReply (replyKey f) g).delivered g ((v.rxS (streamKey (fSrc f) (fMould f))).dup (fSeq f)) f with owners := l }
    rw [← hx, State.withTables, show v.vers = x.vers from hvers.symm]

theorem exec_atomicReq_stored (h : s.takesRequest v p 5 f) (hstored : v.fab.cache.find? (fun e => e.key = replyKey f) = some e) :
    ∃ u : State, exec (.atomicReq p ecc word) s = .next u.settle
      ∧ u = ((v.cnt F.rcache_hits).respond f (5 + 0x0E) 0 (fPay e.frame)).answered ((v.rxS (streamKey (fSrc f) (fMould f))).dup (fSeq f)) f false
      ∧ u.sram = s.sram ∧ u.gddr = s.gddr ∧ u.cxl = s.cxl ∧ u.owners = s.owners ∧ u.vers = s.vers := by
  obtain ⟨⟨hsram, hgddr, hcxl⟩, howners, hvers⟩ :=
    State.onceRequest_keeps (ecc := ecc) (word := word) (apply := State.atomicApplied) h hstored
  exact ⟨_, exec_atomicReq_live h, State.onceRequest_stored h hstored, hsram, hgddr, hcxl, howners, hvers⟩

theorem exec_ownReq_stored (h : s.takesRequest v p 7 f) (hstored : v.fab.cache.find? (fun e => e.key = replyKey f) = some e) :
    ∃ u : State, exec (.ownReq p) s = .next u.settle
      ∧ u = ((v.cnt F.rcache_hits).respond f (7 + 0x0E) 0 (fPay e.frame)).answered ((v.rxS (streamKey (fSrc f) (fMould f))).dup (fSeq f)) f false
      ∧ u.sram = s.sram ∧ u.gddr = s.gddr ∧ u.cxl = s.cxl ∧ u.owners = s.owners ∧ u.vers = s.vers := by
  obtain ⟨⟨hsram, hgddr, hcxl⟩, howners, hvers⟩ :=
    State.onceRequest_keeps (ecc := 0) (word := 0) (apply := State.ownerTaken) h hstored
  exact ⟨_, exec_ownReq_live h, State.onceRequest_stored h hstored, hsram, hgddr, hcxl, howners, hvers⟩

end Sys2Proof.Machine
end

section
/-! Frames of reserved opcodes, and acknowledgements that waited (R322, R328). -/
namespace Sys2Proof.Machine

variable {s v : State} {p dt dev m : Nat} {f : Bytes}

/-- A frame that leaves its receive buffer changes the fabric alone. -/
theorem State.unbox_frame (s : State) (p : Nat) (f : Bytes) (owe : Bool) : s.unbox p f owe = { s with fab := (s.unbox p f owe).fab } := by
  unfold State.unbox State.owe
  split
  · rfl
  · split
    · split <;> rfl
    · rfl

/-- It is the one that its buffer loses. -/
theorem State.inbox_unbox (s : State) (p : Nat) (f : Bytes) (owe : Bool) : (s.unbox p f owe).inbox p = (s.inbox p).erase f := by
  unfold State.unbox State.inbox
  by_cases hp : p = 12
  · rw [if_pos hp, if_pos hp, if_pos hp]
  · have herased : ((s.setPort p { s.port p with rx := (s.port p).rx.erase f }).port p).rx = (s.port p).rx.erase f := by
      rw [State.port_setPort, if_pos rfl]
    rw [if_neg hp, if_neg hp, if_neg hp]
    dsimp only
    split
    · exact ((State.Diverted.owe (as := []) _ p f).rx p).trans herased
    · exact herased

theorem State.inbox_badFrame (s : State) (p : Nat) : (s.badFrame p).inbox p = s.inbox p := by
  unfold State.inbox
  by_cases hself : p = 12
  · rw [if_pos hself, if_pos hself, State.badFrame, if_pos hself.ge]
  · obtain ⟨-, hrx, -⟩ := s.badFrame_spec p
    rw [if_neg hself, if_neg hself]
    exact hrx p

theorem regAddr_fabStat_notMem (hp : p ≤ 12) : regAddr .fabStat 0 0 ∉ regAddr .quar p 0 :: leaveRegs p := by
  rw [leaveRegs, divertRegs_eq, regAddr_portStatus, regAddr_macsec, show regAddr .quar p 0 = 0x5100 + 0x8 * p from rfl,
    show regAddr .fabStat 0 0 = 0x400020 from rfl]
  simp only [List.mem_cons, List.not_mem_nil, or_false]
  omega

theorem exec_unknownOpcodeFrameRx_malformed (hlive : s.live = true) (hp : p ≤ 12)
    (hhead : (classHeads (s.inbox p)).find? (fun g => fDst g = s.devId
      && (!memoryOps.contains (fOp g) && !(0x20 ≤ fOp g && fOp g < 0x26) && fOp g ≠ 0x50 && fOp g ≠ 0x51)) = some f)
    (hv : v = s.unbox p f true) (hpool : v.inPool = true) (hepoch : fEpoch f = v.rd F.fabEpoch_value) :
    ∃ u : State, exec (.unknownOpcodeFrameRx p) s = .next u.settle ∧ u.inbox p = (s.inbox p).erase f
      ∧ u.rd F.fabStat_malformed = satAdd 16 (s.rd F.fabStat_malformed) 1 ∧ u.sram = s.sram ∧ u.gddr = s.gddr ∧ u.cxl = s.cxl ∧ u.clus = s.clus
      ∧ u = { s with csr := u.csr, free := u.free, log := u.log, fab := u.fab, egr := u.egr, tim := u.tim, health := u.health } := by
  have hexec : exec (.unknownOpcodeFrameRx p) s = .next ((v.cnt F.fabStat_malformed).badFrame p).settle := by
    rw [exec_unknownOpcodeFrameRx, execUnknownOpcodeFrameRx, whenLive_live _ _ hlive, State.frameAt, if_neg (by omega), hhead]
    dsimp only
    rw [← hv, State.checked, hpool, if_neg (by decide), if_pos hepoch]
    rfl
  have hunboxed := s.unbox_frame p f true
  have hinbox := s.inbox_unbox p f true
  rw [← hv] at hunboxed hinbox
  have hcsr : v.csr = s.csr := (congrArg State.csr hunboxed).trans rfl
  obtain ⟨hregs, -, hbad⟩ := (v.cnt F.fabStat_malformed).badFrame_spec p
  have hkept := (v.cnt F.fabStat_malformed).inbox_badFrame p
  generalize (v.cnt F.fabStat_malformed).badFrame p = u at *
  have hframe : u = { s with
      csr := u.csr, free := u.free, log := u.log, fab := u.fab, egr := u.egr, tim := u.tim, health := u.health } := by
    rw [hbad, hunboxed]
    rfl
  refine ⟨u, hexec, hkept.trans hinbox, ?_, (congrArg State.sram hframe).trans rfl, (congrArg State.gddr hframe).trans rfl,
    (congrArg State.cxl hframe).trans rfl, (congrArg State.clus hframe).trans rfl, hframe⟩
  rw [hregs.rd (f := F.fabStat_malformed) (regAddr_fabStat_notMem hp), State.rd_cnt_same _ _ _ _ _ (by decide), State.rd_of_csr hcsr]
  rfl

/-- An acknowledgement ends what waits to be acknowledged (R322). -/
theorem State.rxS_sendAck (s : State) (dev m : Nat) : ((s.sendAck dev m).rxS (streamKey dev m)).adv = 0 := by
  obtain ⟨x, hx⟩ : ∃ x, x = s.setRx (streamKey dev m) { s.rxS (streamKey dev m) with adv := 0 } := ⟨_, rfl⟩
  have hkept : (s.sendAck dev m).fab.rx = x.fab.rx := by
    rw [hx]
    exact (State.Diverted.dispatchFrame _ _ 12 0).streams
  rw [State.rxS, hkept, ← State.rxS, hx, State.rxS_setRx_same]

theorem exec_ackDelayExpiry_acks (hlive : s.live = true) (hm : m < 64) (hadv : (s.rxS (streamKey dev m)).adv ≠ 0)
    (hdue : (s.rxS (streamKey dev m)).advAt + 2000 ≤ s.clk.up + dt) :
    ∃ u : State, exec (.ackDelayExpiry dt dev m) s = .next u.settle ∧ u = (s.pass dt).sendAck dev m ∧ (u.rxS (streamKey dev m)).adv = 0
      ∧ u = { s.pass dt with csr := u.csr, free := u.free, log := u.log, fab := u.fab, egr := u.egr } := by
  have hwait : ¬ (decide (((s.pass dt).rxS (streamKey dev m)).adv = 0) || decide (64 ≤ m)
      || decide ((s.pass dt).clk.up < ((s.pass dt).rxS (streamKey dev m)).advAt + 2000)) = true := by
    have hstream : (s.pass dt).rxS (streamKey dev m) = s.rxS (streamKey dev m) := rfl
    have hup : (s.pass dt).clk.up = s.clk.up + dt := rfl
    simp [hstream, hup, hadv, hm, hdue]
  refine ⟨_, ?_, rfl, State.rxS_sendAck .., State.routes_sendAck ..⟩
  rw [exec_ackDelayExpiry, execAckDelayExpiry, whenLive_live _ _ hlive]
  dsimp only
  rw [if_neg hwait]

/-- Settles O34: a request is executed once or answered from its stored reply; sending the reply leaves memory, owner words and
versions, which it does not read. -/
theorem remoteAtomicsOwnershipAndAcks : Obligations.RemoteAtomicsOwnershipAndAcks :=
  ⟨fun _ _ _ _ _ _ _ _ _ _ h hnew hcheck hread hroom hold hw hg => exec_atomicReq_once h hnew hcheck hread hroom hold hw hg,
    fun _ _ _ _ _ _ h hnew hcheck hroom hregion hg => exec_ownReq_once h hnew hcheck hroom hregion hg,
    fun _ _ _ _ _ _ _ h hstored => exec_atomicReq_stored h hstored, fun _ _ _ _ _ h hstored => exec_ownReq_stored h hstored,
    fun _ _ _ _ _ hlive hp hhead hv hpool hepoch _ => exec_unknownOpcodeFrameRx_malformed hlive hp hhead hv hpool hepoch,
    fun _ _ _ _ hlive hm hadv hdue => exec_ackDelayExpiry_acks hlive hm hadv hdue⟩

end Sys2Proof.Machine
end

section
/-! Ports that train, and ports that go down (R308, R309, R345). -/
namespace Sys2Proof.Machine

variable {s t w : State} {dt p corr unc : Nat}

theorem State.port_setPort_same (s : State) (p : Nat) (v : PortSt) : (s.setPort p v).port p = v := Tab.get_set_same ..

theorem State.port_setPort_ne (s : State) {p q : Nat} (v : PortSt) (h : q ≠ p) : (s.setPort p v).port q = s.port q :=
  (State.port_setPort s p q v).trans (if_neg h)

/-- The security policy stands in the ledger (R542). -/
theorem State.policy_of_led (hled : t.led = s.led) : t.policy = s.policy := by
  have hrecs : t.recsOf 0x30 = s.recsOf 0x30 := by
    unfold State.recsOf State.newest State.segSeqOf State.ledW
    rw [hled]
  rw [State.policy, State.policy, State.latest, State.latest, hrecs]

/-- A port's identity word does not read the port's status (R307). -/
theorem State.identity_of_regsBut (hregs : RegsBut s t [regAddr .portStatus p 0]) (hled : t.led = s.led) (q : Nat) :
    t.identity q = s.identity q := by
  have htopo : ∀ f : Field, f.reg = .fabTopo → t.rd f = s.rd f := fun f hf => hregs.rd (f := f) (i := 0) (j := 0) (by
    rw [hf, regAddr_portStatus, show regAddr .fabTopo 0 0 = 0x400000 from rfl, List.mem_singleton]
    omega)
  have hepoch : t.rd F.fabEpoch_value = s.rd F.fabEpoch_value := hregs.rd (f := F.fabEpoch_value) (i := 0) (j := 0) (by
    rw [regAddr_portStatus, show regAddr F.fabEpoch_value.reg 0 0 = 0x400010 from rfl, List.mem_singleton]
    omega)
  have hpolicy : t.needsMacsec q = s.needsMacsec q := by
    rw [State.needsMacsec, State.needsMacsec, State.policy_of_led hled]
  unfold State.identity
  rw [State.dims, State.dims, State.devId, State.devId, htopo F.fabTopo_xM1 rfl, htopo F.fabTopo_yM1 rfl, htopo F.fabTopo_zM1 rfl,
    htopo F.fabTopo_devId rfl, hepoch, hpolicy]

/-- Port p stands in training: its state and its link layer are new. -/
theorem State.portTrains_spec (s : State) (p : Nat) (v : PortSt) :
    ((s.setPort p v).wr F.portStatus_state 1 p).rd F.portStatus_state p = 1 ∧ ((s.setPort p v).wr F.portStatus_state 1 p).port p = v
      ∧ RegsBut s ((s.setPort p v).wr F.portStatus_state 1 p) [regAddr .portStatus p 0]
      ∧ (∀ q, q ≠ p → ((s.setPort p v).wr F.portStatus_state 1 p).port q = s.port q) :=
  ⟨State.rd_wr_same _ F.portStatus_state 1 p 0 (by decide), State.port_setPort_same .., State.regsBut_wr (s.setPort p v) F.portStatus_state 1 p 0,
    fun _ => State.port_setPort_ne s v⟩

theorem exec_portTrain_trains (hlive : s.live = true) (hp : p < 12) (hbusy : s.blockBusy p = false) (hdim : 1 < s.dimSize (portDim p))
    (hst : s.rd F.portStatus_state p ≤ 1) :
    ∃ u : State, exec (.portTrain dt p) s = .next u.settle ∧ u.rd F.portStatus_state p = 1
      ∧ u.port p = { (s.port p).trained with at_ := s.clk.up + dt } ∧ u.out = s.out ++ [.link p 4 (s.identity p)]
      ∧ RegsBut s u [regAddr .portStatus p 0] ∧ (∀ q, q ≠ p → u.port q = s.port q)
      ∧ u = { s.pass dt with csr := u.csr, fab := u.fab, out := u.out } := by
  have hready : ¬ (decide (12 ≤ p) || (s.pass dt).blockBusy p || decide ((s.pass dt).dimSize (portDim p) ≤ 1)
      || (decide ((s.pass dt).rd F.portStatus_state p ≠ 0) && decide ((s.pass dt).rd F.portStatus_state p ≠ 1))) = true := by
    have hbusy' : (s.pass dt).blockBusy p = false := hbusy
    have hdim' : 1 < (s.pass dt).dimSize (portDim p) := hdim
    have hst' : (s.pass dt).rd F.portStatus_state p ≤ 1 := hst
    simp only [hbusy', Bool.or_eq_true, decide_eq_true_eq, Bool.and_eq_true, ne_eq, Bool.false_eq_true, or_false]
    omega
  obtain ⟨hstate, hport, hregs, hothers⟩ := (s.pass dt).portTrains_spec p { (s.port p).trained with at_ := s.clk.up + dt }
  have hidentity := State.identity_of_regsBut hregs rfl p
  obtain ⟨u, hu⟩ : ∃ u, u = ((s.pass dt).setPort p { (s.port p).trained with at_ := s.clk.up + dt }).wr F.portStatus_state 1 p := ⟨_, rfl⟩
  rw [← hu] at hstate hport hregs hothers hidentity
  refine ⟨u.emit (.link p 4 (u.identity p)), ?_, hstate, hport, ?_, hregs, hothers, ?_⟩
  · rw [exec_portTrain, execPortTrain, whenLive_live _ _ hlive]
    dsimp only
    rw [if_neg hready, hu]
    rfl
  · rw [hidentity, hu]
    rfl
  · rw [hu]
    rfl

theorem exec_portTrainRetry_trains (hlive : s.live = true) (hp : p < 12) (hbusy : s.blockBusy p = false)
    (hdim : 1 < s.dimSize (portDim p)) (hst : s.rd F.portStatus_state p ≤ 1) (hdue : (s.port p).at_ + 100000000 ≤ s.clk.up + dt) :
    ∃ u : State, exec (.portTrainRetry dt p) s = .next u.settle ∧ u.rd F.portStatus_state p = 1
      ∧ u.port p = { s.port p with at_ := s.clk.up + dt } ∧ RegsBut s u [regAddr .portStatus p 0] ∧ (∀ q, q ≠ p → u.port q = s.port q)
      ∧ u = { s.pass dt with csr := u.csr, fab := u.fab } := by
  have hready : ¬ (decide (12 ≤ p) || (s.pass dt).blockBusy p || decide ((s.pass dt).dimSize (portDim p) ≤ 1)
      || decide (1 < (s.pass dt).rd F.portStatus_state p)
      || decide ((s.pass dt).clk.up < ((s.pass dt).port p).at_ + 100000000)) = true := by
    have hbusy' : (s.pass dt).blockBusy p = false := hbusy
    have hdim' : 1 < (s.pass dt).dimSize (portDim p) := hdim
    have hst' : (s.pass dt).rd F.portStatus_state p ≤ 1 := hst
    have hdue' : ((s.pass dt).port p).at_ + 100000000 ≤ (s.pass dt).clk.up := hdue
    simp only [hbusy', Bool.or_eq_true, decide_eq_true_eq, Bool.false_eq_true, or_false]
    omega
  obtain ⟨hstate, hport, hregs, hothers⟩ := (s.pass dt).portTrains_spec p { s.port p with at_ := s.clk.up + dt }
  refine ⟨_, ?_, hstate, hport, hregs, hothers, rfl⟩
  rw [exec_portTrainRetry, execPortTrainRetry, whenLive_live _ _ hlive]
  dsimp only
  rw [if_neg hready]
  rfl

end Sys2Proof.Machine
end

section
/-! The queues of a port that is not up (R345, R387). -/
namespace Sys2Proof.Machine

variable {s t : State} {p q k dt corr unc : Nat} {f : Bytes}

theorem State.jUp_of_upIn {plus : Bool} {parity : Nat} (h : s.upIn k plus parity = some q) : s.jUp q = true := by
  unfold State.upIn at h
  dsimp only at h
  split at h
  · next hup =>
    cases h
    exact hup
  · split at h
    · next hup =>
      cases h
      exact hup
    · cases h

/-- A frame's route leads to a port that is up (R310, R311). -/
theorem State.jUp_of_route {src dst inPort : Nat} {rerouted re de : Bool} (h : s.route src dst inPort rerouted = .port q re de) :
    s.jUp q = true := by
  have haside : ∀ (l : Nat) (b c : Bool) (n : Nat), (match (s.upIn l true n).or (s.upIn l false n) with
      | some r => Hop.port r b c
      | none => .unreachable) = .port q re de → s.jUp q = true := by
    intro l b c n haside
    split at haside
    · next r hr =>
      cases haside
      cases hplus : s.upIn l true n with
      | some r' =>
        rw [hplus] at hr
        cases hr
        exact State.jUp_of_upIn hplus
      | none =>
        rw [hplus] at hr
        exact State.jUp_of_upIn hr
    · cases haside
  have hgo : ∀ {l n r d : Nat} {plus plus' b c : Bool}, s.upIn l plus n = some r →
      (if s.overshoots r l d plus' then Hop.unreachable else .port r b c) = .port q re de → s.jUp q = true := by
    intro l n r d plus plus' b c hr hgo
    split at hgo
    · cases hgo
    · cases hgo
      exact State.jUp_of_upIn hr
  unfold State.route at h
  split at h
  · split at h <;> cases h
  · dsimp only at h
    split at h
    · next r hr => exact hgo hr h
    · split at h
      · exact haside _ _ _ _ h
      · split at h
        · next r hr => exact hgo hr h
        · exact haside _ _ _ _ h

theorem jQueue_lt (made : Bool) (f : Bytes) (ctx : Nat) : jQueue made f ctx < 2048 := by
  have hmould : fMould f < 64 := Nat.mod_lt _ (by decide)
  have hctx : ctx % 16 < 16 := Nat.mod_lt _ (by decide)
  unfold jQueue
  dsimp only
  split_ifs <;> omega

theorem State.noteDetour_frame (s : State) (dst : Nat) (detour : Bool) :
    s.noteDetour dst detour = { s with
      csr := (s.noteDetour dst detour).csr, free := (s.noteDetour dst detour).free, log := (s.noteDetour dst detour).log
      fab := (s.noteDetour dst detour).fab } := by
  unfold State.noteDetour
  dsimp only
  split
  · split
    · rfl
    · rw [State.logFree_frame]
      rfl
  · rfl

theorem State.egr_owe (s : State) (p : Nat) (f : Bytes) : (s.owe p f).egr = s.egr := by
  unfold State.owe
  split <;> rfl

/-- No frame goes to a queue of a port that is not up. -/
theorem State.eq_dispatchFrame_of_down (hdown : s.jUp p = false) (hk : k / 2048 = p) (f : Bytes) (inPort ctx : Nat) :
    (s.dispatchFrame f inPort ctx).eq k = s.eq k := by
  unfold State.dispatchFrame
  split
  · rw [State.eq, State.egr_owe]
    rfl
  · show ((s.owe inPort f).eq k) = s.eq k
    rw [State.eq, State.egr_owe]
    rfl
  · next q re de hroute =>
    have hup := State.jUp_of_route hroute
    have hq : q < 12 := by
      rw [State.jUp, Bool.and_eq_true, decide_eq_true_eq] at hup
      exact hup.1
    have hne : q ≠ p := by
      rintro rfl
      rw [hup] at hdown
      cases hdown
    dsimp only
    rw [State.eq_enqueue, if_neg, State.eq, State.noteDetour_frame]
    · rfl
    · have hlow := jQueue_lt (decide (fSrc f = (s.noteDetour (fDst f) de).devId)) (if fRerouted f = re then f else setFlagBit f 1 re) ctx
      rw [queueNo, if_pos (by omega)]
      omega

/-- A queue that is emptied. -/
def EgQueue.emptied (v : EgQueue) : EgQueue := { v with frames := [], deficit := 0, gdef := [], gcur := 0 }

/-- Emptying queues leaves none of them a frame. -/
theorem State.eq_foldl_emptied (l : List (Nat × EgQueue)) (h : (s.eq k).frames = [] ∨ k ∈ l.map Prod.fst) :
    ((l.foldl (fun (u : State) e => u.setEq e.1 e.2.emptied) s).eq k).frames = [] := by
  induction l generalizing s with
  | nil => exact h.resolve_right List.not_mem_nil
  | cons e l ih =>
    refine ih ?_
    rw [State.eq_setEq]
    split
    · exact .inl rfl
    · next hne =>
      refine h.imp_right fun hmem => ?_
      rw [List.map_cons, List.mem_cons] at hmem
      exact hmem.resolve_left hne

theorem State.jUp_of_regsBut (hregs : RegsBut s t divertRegs) (p : Nat) : t.jUp p = s.jUp p := by
  rw [State.jUp, State.jUp, hregs.rd (f := F.portStatus_state) (regAddr_portStatus_notMem_divertRegs p)]

/-- Frames that are sent on leave a queue of a port that is down as it is. -/
theorem State.eq_foldl_dispatchFrame {α : Type} (frame : α → Bytes) (inPort ctx : α → Nat) (l : List α) (hdown : s.jUp p = false)
    (hk : k / 2048 = p) :
    (l.foldl (fun (u : State) a => u.dispatchFrame (frame a) (inPort a) (ctx a)) s).jUp p = false
      ∧ (l.foldl (fun (u : State) a => u.dispatchFrame (frame a) (inPort a) (ctx a)) s).eq k = s.eq k := by
  refine List.foldlRecOn l _ (motive := fun u : State => u.jUp p = false ∧ u.eq k = s.eq k) ⟨hdown, rfl⟩ fun u hu a _ => ?_
  obtain ⟨hudown, hueq⟩ := hu
  exact ⟨(State.jUp_of_regsBut (State.Diverted.dispatchFrame u ..).regs p).trans hudown,
    (State.eq_dispatchFrame_of_down hudown hk ..).trans hueq⟩

/-- No frame stays in the queues of a port that has gone down (R345). -/
theorem State.eq_rerouteFrom (hdown : s.jUp p = false) (hp : p < 12) (hk : k / 2048 = p) : ((s.rerouteFrom p).eq k).frames = [] := by
  obtain ⟨l, hl⟩ : ∃ l, l = s.egr.qs.filter (fun e => e.1 / 2048 = p && e.1 < 24576 && !e.2.frames.isEmpty) := ⟨_, rfl⟩
  obtain ⟨x, hx⟩ : ∃ x, x = l.foldl (fun (u : State) e => u.setEq e.1 e.2.emptied) s := ⟨_, rfl⟩
  obtain ⟨y, hy⟩ : ∃ y, y = x.setPort p { x.port p with replay := [], tries := 0 } := ⟨_, rfl⟩
  have hreroute : s.rerouteFrom p
      = ((x.port p).replay.map (·.2)).foldl (fun (u : State) f => u.dispatchFrame (setFlagBit f 0 true) 12 (frameCtx f))
          ((l.flatMap (fun e => e.2.frames)).foldl (fun (u : State) g => u.dispatchFrame g.bytes g.inPort (frameCtx g.bytes)) y) := by
    rw [hy, hx, hl]
    rfl
  have hnamed : (s.eq k).frames = [] ∨ k ∈ l.map Prod.fst := by
    by_cases hempty : (s.eq k).frames = []
    · exact .inl hempty
    · right
      cases hfind : Tab.find s.egr.qs k with
      | none =>
        exact absurd (by rw [State.eq, Tab.get, hfind]; rfl) hempty
      | some v =>
        have hv : (s.eq k).frames = v.frames := by rw [State.eq, Tab.get, hfind, Option.getD_some]
        rw [hv] at hempty
        rw [hl, List.mem_map]
        refine ⟨(k, v), List.mem_filter.mpr ⟨Tab.mem_of_find hfind, ?_⟩, rfl⟩
        simp [hk, hempty]
        omega
  have hydown : y.jUp p = false := by
    have hcsr : y.csr = s.csr := by
      rw [hy, hx]
      exact List.foldlRecOn l (fun (u : State) e => u.setEq e.1 e.2.emptied) (motive := fun u : State => u.csr = s.csr) rfl fun _ h _ _ => h
    rw [State.jUp, State.rd_of_csr hcsr]
    exact hdown
  have hyempty : (y.eq k).frames = [] := by
    rw [hy, hx]
    exact State.eq_foldl_emptied l hnamed
  obtain ⟨hzdown, hzeq⟩ := State.eq_foldl_dispatchFrame EgFrame.bytes EgFrame.inPort (fun g => frameCtx g.bytes)
    (l.flatMap (fun e => e.2.frames)) hydown hk
  obtain ⟨-, heq⟩ := State.eq_foldl_dispatchFrame (fun f => setFlagBit f 0 true) (fun _ => 12) frameCtx ((x.port p).replay.map (·.2)) hzdown hk
  rw [hreroute, heq, hzeq]
  exact hyempty

theorem State.egr_timeState (s : State) (n : Nat) : (s.timeState n).egr = s.egr := by
  unfold State.timeState
  dsimp only
  split
  · rfl
  · rw [State.logWith_frame]
    rfl

/-- The loss of a port's source of time does not touch the queues. -/
theorem State.egr_upstreamLost (s : State) (p : Nat) : (s.upstreamLost p).egr = s.egr := by
  unfold State.upstreamLost State.holdover
  split
  · split
    · exact State.egr_timeState ..
    · rfl
  · rfl

theorem State.eq_portLeaves {st : Nat} (hp : p < 12) (hst : st ≠ 2) (hst8 : st < 8) (hup : s.jUp p = true) (hk : k / 2048 = p) :
    ((s.portLeaves p st).eq k).frames = [] := by
  obtain ⟨x, hx⟩ : ∃ x, x = (s.portClosed p st).logEvt 0x1101 (0x0010 + p) 0xFF (p % 2 ^ 128) := ⟨_, rfl⟩
  have hstate : x.rd F.portStatus_state p = st := by
    rw [hx, (State.regsBut_logEvt _ _ _ _ _).rd (f := F.portStatus_state) (by
      rw [regAddr_logStatus, List.mem_singleton]
      exact fun h => absurd (regAddr_portStatus p ▸ h) (by omega))]
    exact (s.portClosed_spec hp hst8).1
  have hdown : x.jUp p = false := by
    rw [State.jUp, hstate]
    simp [hst]
  rw [State.portLeaves_eq, if_pos hup, State.trafficMoves, State.logWith, ← hx, State.eq, State.egr_upstreamLost]
  exact State.eq_rerouteFrom hdown hp hk

end Sys2Proof.Machine
end

section
/-! Ports that go down, are refused or retrain (R309, R318, R345, R544, R545). -/
namespace Sys2Proof.Machine

variable {s t w : State} {dt p peer pport x y z epoch corr unc : Nat} {nonce : Bool}

theorem regAddr_portFec_notMem_leaveRegs (hp : p < 12) : regAddr .portFec p 0 ∉ leaveRegs p := by
  rw [leaveRegs, divertRegs_eq, regAddr_portStatus, regAddr_macsec, show regAddr .portFec p 0 = 0x401010 + 0x40 * p from rfl]
  simp only [List.mem_cons, List.not_mem_nil, or_false]
  omega

theorem regAddr_portCnt_notMem_leaveRegs (hp : p < 12) : regAddr .portCnt p 0 ∉ regAddr .quar p 0 :: leaveRegs p := by
  rw [leaveRegs, divertRegs_eq, regAddr_portStatus, regAddr_macsec, show regAddr .quar p 0 = 0x5100 + 0x8 * p from rfl,
    show regAddr .portCnt p 0 = 0x401008 + 0x40 * p from rfl]
  simp only [List.mem_cons, List.not_mem_nil, or_false]
  omega

theorem regAddr_portStatus_notMem_logStatus (p : Nat) : regAddr .portStatus p 0 ∉ [regAddr .logStatus 0 0] := by
  rw [regAddr_portStatus, regAddr_logStatus, List.mem_singleton]
  omega

theorem regAddr_macsec_notMem_logStatus (p : Nat) : regAddr .macsec p 0 ∉ [regAddr .logStatus 0 0] := by
  rw [regAddr_macsec, regAddr_logStatus, List.mem_singleton]
  omega

theorem regAddr_portStatus_ne_macsec (hp : p < 12) : regAddr .portStatus p 0 ≠ regAddr .macsec p 0 := by
  rw [regAddr_portStatus, regAddr_macsec]
  omega

theorem State.lt_of_jUp (hup : s.jUp p = true) : p < 12 := by
  rw [State.jUp, Bool.and_eq_true, decide_eq_true_eq] at hup
  exact hup.1

/-- The codewords of a port that goes down are counted. -/
def State.fecCounted (s : State) (p corr unc : Nat) : State := (s.cnt F.portFec_corrected p 0 corr).cnt F.portFec_uncorrectable p 0 unc

theorem State.fecCounted_spec (s : State) (p corr unc : Nat) :
    (s.fecCounted p corr unc).rd F.portFec_corrected p = satAdd 32 (s.rd F.portFec_corrected p) corr
      ∧ (s.fecCounted p corr unc).rd F.portFec_uncorrectable p = satAdd 32 (s.rd F.portFec_uncorrectable p) unc
      ∧ (s.fecCounted p corr unc).jUp p = s.jUp p := by
  refine ⟨?_, ?_, ?_⟩
  · exact (State.rd_wr_beside _ _ _ _ (by rfl) (by decide) (by decide)).trans (State.rd_cnt_same _ _ _ _ _ (by decide))
  · refine (State.rd_cnt_same _ F.portFec_uncorrectable p 0 unc (by decide)).trans ?_
    exact congrArg (fun n => satAdd 32 n unc) (State.rd_wr_beside s (f := F.portFec_corrected) _ _ _ (by rfl) (by decide) (by decide))
  · have hne : regAddr F.portStatus_state.reg p 0 ≠ regAddr .portFec p 0 := by
      rw [show regAddr .portFec p 0 = 0x401010 + 0x40 * p from rfl]
      exact fun h => absurd (regAddr_portStatus p ▸ h) (by omega)
    rw [State.jUp, State.jUp]
    exact congrArg (fun n => decide (p < 12) && n == 2) ((State.rd_wr_ne _ (f := F.portFec_uncorrectable) _ hne).trans
      (State.rd_wr_ne s (f := F.portFec_corrected) _ hne))

theorem exec_portDown_leaves (hlive : s.live = true) (hp : p < 12) (hst : s.rd F.portStatus_state p ≠ 5) (hunc : unc = 0 ∨ 64 < unc) :
    ∃ u : State, exec (.portDown p corr unc) s = .next u.settle ∧ u.rd F.portStatus_state p = (if s.rd F.portStatus_state p = 4 then 4 else 0)
      ∧ u.rd F.portFec_corrected p = satAdd 32 (s.rd F.portFec_corrected p) corr
      ∧ u.rd F.portFec_uncorrectable p = satAdd 32 (s.rd F.portFec_uncorrectable p) unc
      ∧ (s.jUp p = true → ∀ q, q / 2048 = p → (u.eq q).frames = [])
      ∧ u = { s with csr := u.csr, free := u.free, log := u.log, fab := u.fab, egr := u.egr, tim := u.tim } := by
  obtain ⟨n, hn⟩ : ∃ n, n = if s.rd F.portStatus_state p = 4 then 4 else 0 := ⟨_, rfl⟩
  have hsmall : n < 8 ∧ n ≠ 2 := by
    rw [hn]
    split <;> decide
  obtain ⟨hn8, hn2⟩ := hsmall
  obtain ⟨hcorr, huncor, hup⟩ := s.fecCounted_spec p corr unc
  obtain ⟨hstate, -⟩ := (s.fecCounted p corr unc).portLeaves_spec hp hn8
  have hleft := State.Diverted.portLeaves (s.fecCounted p corr unc) p n
  have hempty : s.jUp p = true → ∀ q, q / 2048 = p → (((s.fecCounted p corr unc).portLeaves p n).eq q).frames = [] := fun h q hq =>
    State.eq_portLeaves hp hn2 hn8 (hup.trans h) hq
  have hexec : exec (.portDown p corr unc) s = .next (((s.fecCounted p corr unc).portLeaves p n).setPort p
      { ((s.fecCounted p corr unc).portLeaves p n).port p with at_ := ((s.fecCounted p corr unc).portLeaves p n).clk.up }).settle := by
    have hloss : ¬ (decide (unc ≠ 0) && decide (unc ≤ 64)) = true := by
      simp only [Bool.and_eq_true, decide_eq_true_eq]
      omega
    rw [exec_portDown, execPortDown, whenLive_live _ _ hlive]
    dsimp only
    rw [if_neg (by simp [hst, hp]), if_neg hloss, ← hn]
    rfl
  generalize (s.fecCounted p corr unc).portLeaves p n = a at *
  refine ⟨_, hexec, hstate.trans hn, ?_, ?_, hempty, ?_⟩
  · exact (hleft.regs.rd (f := F.portFec_corrected) (regAddr_portFec_notMem_leaveRegs hp)).trans hcorr
  · exact (hleft.regs.rd (f := F.portFec_uncorrectable) (regAddr_portFec_notMem_leaveRegs hp)).trans huncor
  · rw [hleft.frame]
    rfl

theorem exec_identityWordRx_refused (hlive : s.live = true) (hp : p < 12)
    (hst : s.rd F.portStatus_state p = 1 ∨ s.rd F.portStatus_state p = 3) (hfits : s.peerFits p peer pport x y z = false)
    (hroom : s.logRoom 1) :
    ∃ u : State, exec (.identityWordRx p peer pport x y z epoch nonce) s = .next u.settle ∧ u.rd F.portStatus_state p = 3
      ∧ u.rd F.portStatus_macsec p = 0 ∧ u.rd F.macsec_active p = 0 ∧ u.lastEvt = some (0x1106, 0x0010 + p, 0xFF)
      ∧ RegsBut s u [regAddr .portStatus p 0, regAddr .macsec p 0] ∧ u = { s with csr := u.csr, log := u.log } := by
  have hdown : s.jUp p = false := by
    rw [State.jUp, Bool.and_eq_false_iff, beq_eq_false_iff_ne]
    omega
  obtain ⟨hstate, hmacsec, hactive, -⟩ := s.portClosed_spec hp (show 3 < 8 by decide)
  obtain ⟨hevt, hframe⟩ := (s.portClosed p 3).logEvt_pushes 0x1106 (0x0010 + p) 0xFF (p % 2 ^ 128) hroom
  have hexec : exec (.identityWordRx p peer pport x y z epoch nonce) s
      = .next ((s.portClosed p 3).logEvt 0x1106 (0x0010 + p) 0xFF (p % 2 ^ 128)).settle := by
    rw [exec_identityWordRx, execIdentityWordRx, whenLive_live _ _ hlive]
    dsimp only
    rw [if_neg (by simp only [Bool.or_eq_true, Bool.and_eq_true, decide_eq_true_eq]; omega), hfits, if_pos (by decide), State.portLeaves_eq,
      hdown, if_neg Bool.false_ne_true]
    rfl
  generalize (s.portClosed p 3).logEvt 0x1106 (0x0010 + p) 0xFF (p % 2 ^ 128) = u at *
  have hcsr : u.csr = (s.portClosed p 3).csr := (congrArg State.csr hframe).trans rfl
  refine ⟨u, hexec, (State.rd_of_csr hcsr _ _ _).trans hstate, (State.rd_of_csr hcsr _ _ _).trans hmacsec,
    (State.rd_of_csr hcsr _ _ _).trans hactive, hevt, ?_, ?_⟩
  · have hstatus : RegsBut s ((s.wr F.portStatus_state 3 p).wr F.portStatus_macsec 0 p) [regAddr .portStatus p 0] :=
      (State.regsBut_wr s F.portStatus_state 3 p 0).trans (State.regsBut_wr _ F.portStatus_macsec 0 p 0)
    have hkeys : RegsBut ((s.wr F.portStatus_state 3 p).wr F.portStatus_macsec 0 p) (s.portClosed p 3) [regAddr .macsec p 0] :=
      State.regsBut_wr _ F.macsec_active 0 p 0
    exact ((hstatus.mono (by simp)).trans (hkeys.mono (by simp))).trans (State.regsBut_of_csr hcsr _)
  · rw [hframe]
    rfl

theorem exec_macsecVerifyTimeout_leaves {n : Nat} (hlive : s.live = true) (hup : s.jUp p = true) (hactive : s.flag F.macsec_active p = true)
    (hbad : (s.port p).badAt = some n) (hdue : n + 1000000 ≤ s.clk.up + dt) :
    ∃ u : State, exec (.macsecVerifyTimeout dt p) s = .next u.settle ∧ u.rd F.portStatus_state p = 3
      ∧ u.rd F.macsec_keyFail p = satAdd 16 (s.rd F.macsec_keyFail p) 1 ∧ u.rd F.macsec_active p = 0
      ∧ u = { s.pass dt with csr := u.csr, free := u.free, log := u.log, fab := u.fab, egr := u.egr, tim := u.tim } := by
  have hp := State.lt_of_jUp hup
  obtain ⟨hstate, -, hactive', hfail⟩ := (s.pass dt).portLeaves_spec hp (show 3 < 8 by decide)
  obtain ⟨a, ha⟩ : ∃ a, a = ((s.pass dt).portLeaves p 3).cnt F.macsec_keyFail p := ⟨_, rfl⟩
  have hexec : exec (.macsecVerifyTimeout dt p) s = .next (a.logEvt 0x1807 (0x0010 + p) 0xFF (p % 2 ^ 128)).settle := by
    have hready : (decide (p < 12) && (s.pass dt).jUp p && (s.pass dt).flag F.macsec_active p
        && decide (n + 1000000 ≤ (s.pass dt).clk.up)) = true := by
      have hup' : (s.pass dt).jUp p = true := hup
      have hactive' : (s.pass dt).flag F.macsec_active p = true := hactive
      have hdue' : n + 1000000 ≤ (s.pass dt).clk.up := hdue
      simp [hup', hactive', hdue', hp]
    rw [exec_macsecVerifyTimeout, execMacsecVerifyTimeout, whenLive_live _ _ hlive]
    dsimp only
    rw [show ((s.pass dt).port p).badAt = some n from hbad]
    dsimp only
    rw [if_pos hready, ← ha]
    rfl
  have hkeys : RegsBut ((s.pass dt).portLeaves p 3) a [regAddr .macsec p 0] := by
    rw [ha]
    exact State.regsBut_cnt _ F.macsec_keyFail p 0 1
  have hlogged := State.regsBut_logEvt a 0x1807 (0x0010 + p) 0xFF (p % 2 ^ 128)
  have hmoved : State.Diverted (leaveRegs p) (s.pass dt) (a.logEvt 0x1807 (0x0010 + p) 0xFF (p % 2 ^ 128)) := by
    rw [ha]
    exact (State.Diverted.portLeaves ..).trans ((State.Diverted.cnt _ F.macsec_keyFail p 0 1 (macsec_mem_leaveRegs p)).trans
      (State.Diverted.logEvt _ _ _ _ _ (divertRegs_subset_leaveRegs p logStatus_mem_divertRegs)))
  generalize a.logEvt 0x1807 (0x0010 + p) 0xFF (p % 2 ^ 128) = u at *
  refine ⟨u, hexec, ?_, ?_, ?_, ?_⟩
  · rw [hlogged.rd (f := F.portStatus_state) (regAddr_portStatus_notMem_logStatus p),
      hkeys.rd (f := F.portStatus_state) (fun h => regAddr_portStatus_ne_macsec hp (List.mem_singleton.mp h))]
    exact hstate
  · rw [hlogged.rd (f := F.macsec_keyFail) (regAddr_macsec_notMem_logStatus p), ha, State.rd_cnt_same _ _ _ _ _ (by decide), hfail]
    rfl
  · rw [hlogged.rd (f := F.macsec_active) (regAddr_macsec_notMem_logStatus p), ha, State.cnt,
      State.rd_wr_beside _ _ _ _ (by rfl) (by decide) (by decide)]
    exact hactive'
  · exact hmoved.frame

/-- What LINK_REPLAY_TIMEOUT does once the time has come (R316). -/
theorem exec_linkReplayTimeout_due (hlive : s.live = true) (hup : s.jUp p = true) (hdue : (s.port p).lackAt + 4000 ≤ s.clk.up + dt) :
    exec (.linkReplayTimeout dt p) s = .next ((s.pass dt).replayLink p).settle := by
  have hready : (decide (p < 12) && (s.pass dt).jUp p && decide (((s.pass dt).port p).lackAt + 4000 ≤ (s.pass dt).clk.up)) = true := by
    have hup' : (s.pass dt).jUp p = true := hup
    have hdue' : ((s.pass dt).port p).lackAt + 4000 ≤ (s.pass dt).clk.up := hdue
    simp [hup', hdue', State.lt_of_jUp hup]
  rw [exec_linkReplayTimeout, execLinkReplayTimeout, whenLive_live _ _ hlive]
  dsimp only
  rw [if_pos hready]

/-- A port that retrains: it is in training again, or quarantined (R318, R573). -/
theorem State.retrainPort_spec (hp : p < 12) (s : State) :
    ((s.retrainPort p).rd F.portStatus_state p = 1 ∨ (s.retrainPort p).rd F.portStatus_state p = 4)
      ∧ (s.retrainPort p).rd F.portCnt_retrains p = satAdd 16 (s.rd F.portCnt_retrains p) 1
      ∧ s.retrainPort p = { s with
          csr := (s.retrainPort p).csr, free := (s.retrainPort p).free, log := (s.retrainPort p).log, fab := (s.retrainPort p).fab
          egr := (s.retrainPort p).egr, tim := (s.retrainPort p).tim, health := (s.retrainPort p).health } := by
  obtain ⟨a, ha⟩ : ∃ a, a = (s.cnt F.portCnt_retrains p).count 10 255 := ⟨_, rfl⟩
  obtain ⟨n, hn⟩ : ∃ n, n = if (a.quarRetrain p 8).1 then 4 else 1 := ⟨_, rfl⟩
  have hcounted : a = { s.cnt F.portCnt_retrains p with health := a.health } := by
    rw [ha]
    exact State.count_frame ..
  have hsmall : n < 8 ∧ (n = 1 ∨ n = 4) := by
    rw [hn]
    split <;> decide
  obtain ⟨hn8, hone⟩ := hsmall
  obtain ⟨hstate, -⟩ := (a.quarRetrain p 8).2.portLeaves_spec hp hn8
  obtain ⟨hregs, -, hframe⟩ := (a.charged_quarRetrain p 8).diverted (State.Diverted.portLeaves _ p n)
  have hu : s.retrainPort p = ((a.quarRetrain p 8).2.portLeaves p n).setPort p
      { (((a.quarRetrain p 8).2.portLeaves p n).port p).trained with at_ := ((a.quarRetrain p 8).2.portLeaves p n).clk.up } := by
    rw [hn, ha]
    rfl
  rw [hu]
  generalize (a.quarRetrain p 8).2.portLeaves p n = b at *
  have hcount : a.rd F.portCnt_retrains p = satAdd 16 (s.rd F.portCnt_retrains p) 1 := by
    rw [hcounted]
    exact State.rd_cnt_same s F.portCnt_retrains p 0 1 (by decide)
  refine ⟨?_, (hregs.rd (f := F.portCnt_retrains) (regAddr_portCnt_notMem_leaveRegs hp)).trans hcount, ?_⟩
  · rw [← hstate] at hone
    exact hone
  · rw [hframe, hcounted]
    rfl

theorem exec_linkReplayTimeout_retrains (hlive : s.live = true) (hup : s.jUp p = true) (hdue : (s.port p).lackAt + 4000 ≤ s.clk.up + dt)
    (hreplay : (s.port p).replay ≠ []) (htries : 8 ≤ (s.port p).tries) :
    ∃ u : State, exec (.linkReplayTimeout dt p) s = .next u.settle ∧ (u.rd F.portStatus_state p = 1 ∨ u.rd F.portStatus_state p = 4)
      ∧ u.rd F.portCnt_retrains p = satAdd 16 (s.rd F.portCnt_retrains p) 1
      ∧ u = { s.pass dt with
          csr := u.csr, free := u.free, log := u.log, fab := u.fab, egr := u.egr, tim := u.tim, health := u.health } := by
  obtain ⟨hstate, hcount, hframe⟩ := State.retrainPort_spec (State.lt_of_jUp hup) (s.pass dt)
  refine ⟨_, ?_, hstate, hcount, hframe⟩
  rw [exec_linkReplayTimeout_due hlive hup hdue, State.replayLink]
  dsimp only
  rw [if_neg (by rw [List.isEmpty_iff]; exact hreplay), if_pos (show 8 ≤ ((s.pass dt).port p).tries from htries)]

end Sys2Proof.Machine
end

section
/-! A port that comes up (R307, R309, R544, R545, R570). -/
namespace Sys2Proof.Machine

variable {s t w : State} {dt p peer pport x y z epoch : Nat} {nonce : Bool}

/-- The protection of port p begins under new keys. -/
def State.keysBegun (s : State) (p : Nat) (sec : Bool) : State :=
  ((s.setFlag F.macsec_active sec p).wr F.macsec_keyNumber 0 p).wr F.macsec_an 0 p

theorem State.keysBegun_spec (s : State) (p : Nat) (sec : Bool) :
    (s.keysBegun p sec).flag F.macsec_active p = sec ∧ (s.keysBegun p sec).rd F.macsec_keyNumber p = 0
      ∧ (s.keysBegun p sec).rd F.macsec_an p = 0 ∧ RegsBut s (s.keysBegun p sec) [regAddr .macsec p 0] := by
  refine ⟨?_, ?_, ?_, ?_⟩
  · rw [State.flag, State.keysBegun, State.rd_wr_beside _ _ _ _ (by rfl) (by decide) (by decide),
      State.rd_wr_beside _ _ _ _ (by rfl) (by decide) (by decide), State.setFlag, State.rd_wr_same _ _ _ _ _ (by decide)]
    cases sec <;> rfl
  · rw [State.keysBegun, State.rd_wr_beside _ _ _ _ (by rfl) (by decide) (by decide), State.rd_wr_same _ _ _ _ _ (by decide)]
    rfl
  · rw [State.keysBegun, State.rd_wr_same _ _ _ _ _ (by decide)]
    rfl
  · exact ((State.regsBut_wr s F.macsec_active _ p 0).trans (State.regsBut_wr _ F.macsec_keyNumber 0 p 0)).trans
      (State.regsBut_wr _ F.macsec_an 0 p 0)

/-- The status of port p that is up with a peer, protected or not. -/
def State.peerNoted (s : State) (p peer pport epoch : Nat) (sec : Bool) : State :=
  ((((s.wr F.portStatus_peerId peer p).wr F.portStatus_peerPort pport p).wr F.portStatus_peerEpoch epoch p).wr F.portStatus_state 2 p).setFlag
    F.portStatus_macsec sec p

theorem State.peerNoted_spec (s : State) (p peer pport epoch : Nat) (sec : Bool) :
    (s.peerNoted p peer pport epoch sec).rd F.portStatus_state p = 2
      ∧ (s.peerNoted p peer pport epoch sec).rd F.portStatus_peerId p = peer % 2 ^ 10
      ∧ (s.peerNoted p peer pport epoch sec).rd F.portStatus_peerPort p = pport % 2 ^ 4
      ∧ (s.peerNoted p peer pport epoch sec).rd F.portStatus_peerEpoch p = epoch % 2 ^ 32
      ∧ (s.peerNoted p peer pport epoch sec).flag F.portStatus_macsec p = sec := by
  rw [State.peerNoted, State.setFlag]
  refine ⟨?_, ?_, ?_, ?_, ?_⟩
  · rw [State.rd_wr_beside _ _ _ _ (by rfl) (by decide) (by decide), State.rd_wr_same _ _ _ _ _ (by decide)]
    rfl
  · rw [State.rd_wr_beside _ _ _ _ (by rfl) (by decide) (by decide), State.rd_wr_beside _ _ _ _ (by rfl) (by decide) (by decide),
      State.rd_wr_beside _ _ _ _ (by rfl) (by decide) (by decide), State.rd_wr_beside _ _ _ _ (by rfl) (by decide) (by decide),
      State.rd_wr_same _ _ _ _ _ (by decide)]
    rfl
  · rw [State.rd_wr_beside _ _ _ _ (by rfl) (by decide) (by decide), State.rd_wr_beside _ _ _ _ (by rfl) (by decide) (by decide),
      State.rd_wr_beside _ _ _ _ (by rfl) (by decide) (by decide), State.rd_wr_same _ _ _ _ _ (by decide)]
    rfl
  · rw [State.rd_wr_beside _ _ _ _ (by rfl) (by decide) (by decide), State.rd_wr_beside _ _ _ _ (by rfl) (by decide) (by decide),
      State.rd_wr_same _ _ _ _ _ (by decide)]
    rfl
  · rw [State.flag, State.rd_wr_same _ _ _ _ _ (by decide)]
    cases sec <;> rfl

/-- Port p is up with a peer, its link layer marked so, under new keys. -/
def State.portMatched (s : State) (p peer pport epoch : Nat) (sec : Bool) : State :=
  ((s.peerNoted p peer pport epoch sec).setPort p { s.port p with was := true, badAt := none }).keysBegun p sec

theorem State.portMatched_status (s : State) (hp : p < 12) (peer pport epoch : Nat) (sec : Bool) {f : Field} (hf : f.reg = .portStatus) :
    (s.portMatched p peer pport epoch sec).rd f p = (s.peerNoted p peer pport epoch sec).rd f p := by
  obtain ⟨-, -, -, hregs⟩ := ((s.peerNoted p peer pport epoch sec).setPort p { s.port p with was := true, badAt := none }).keysBegun_spec p sec
  refine hregs.rd (f := f) ?_
  rw [hf]
  exact fun h => regAddr_portStatus_ne_macsec hp (List.mem_singleton.mp h)

theorem State.portMatched_frame (s : State) (p peer pport epoch : Nat) (sec : Bool) :
    ((s.portMatched p peer pport epoch sec).port p).was = true
      ∧ s.portMatched p peer pport epoch sec = { s with
          csr := (s.portMatched p peer pport epoch sec).csr, fab := (s.portMatched p peer pport epoch sec).fab } := by
  have hstatus : s.peerNoted p peer pport epoch sec = { s with csr := (s.peerNoted p peer pport epoch sec).csr } := rfl
  rw [State.portMatched]
  generalize s.peerNoted p peer pport epoch sec = a at *
  have hkeys : (a.setPort p { s.port p with was := true, badAt := none }).keysBegun p sec
      = { a.setPort p { s.port p with was := true, badAt := none } with
          csr := ((a.setPort p { s.port p with was := true, badAt := none }).keysBegun p sec).csr } := rfl
  refine ⟨?_, ?_⟩
  · rw [hkeys]
    exact congrArg PortSt.was (State.port_setPort_same a p { s.port p with was := true, badAt := none })
  · rw [hkeys, hstatus]
    rfl

/-- The newest epoch seen is recorded and logged. -/
def State.epochNoted (s : State) (e : Nat) : State :=
  let old := s.rd F.membStatus_seenEpoch
  if old = 0 || epochAbove e old then (s.wr F.membStatus_seenEpoch e).logWith 0x1904 0x00A2 0xFF e else s

theorem State.epochNoted_spec (s : State) (e : Nat) :
    RegsBut s (s.epochNoted e) [regAddr .membStatus 0 0, regAddr .logStatus 0 0]
      ∧ s.epochNoted e = { s with csr := (s.epochNoted e).csr, log := (s.epochNoted e).log } := by
  unfold State.epochNoted
  dsimp only
  split
  · have hframe := (s.wr F.membStatus_seenEpoch e).logWith_frame 0x1904 0x00A2 0xFF e
    have hwritten : RegsBut s (s.wr F.membStatus_seenEpoch e) [regAddr .membStatus 0 0] := State.regsBut_wr s F.membStatus_seenEpoch e 0 0
    have hlogged : RegsBut (s.wr F.membStatus_seenEpoch e) ((s.wr F.membStatus_seenEpoch e).logWith 0x1904 0x00A2 0xFF e)
        [regAddr .logStatus 0 0] := State.regsBut_logEvt _ 0x1904 0x00A2 0xFF _
    generalize (s.wr F.membStatus_seenEpoch e).logWith 0x1904 0x00A2 0xFF e = a at *
    exact ⟨(hwritten.mono (by simp)).trans (hlogged.mono (by simp)), by rw [hframe]; rfl⟩
  · exact ⟨RegsBut.refl s _, rfl⟩

/-- A newer epoch that is seen is noted, and its certificate asked for (R570). -/
theorem State.seeEpoch_spec (s : State) (e p : Nat) :
    RegsBut s (s.seeEpoch e p) [regAddr .membStatus 0 0, regAddr .logStatus 0 0]
      ∧ s.seeEpoch e p = { s with
          csr := (s.seeEpoch e p).csr, log := (s.seeEpoch e p).log, egr := (s.seeEpoch e p).egr, health := (s.seeEpoch e p).health } := by
  obtain ⟨hregs, hframe⟩ := s.epochNoted_spec e
  unfold State.seeEpoch
  dsimp only
  split
  · rw [← State.epochNoted]
    generalize s.epochNoted e = a at *
    split
    · exact ⟨hregs.trans (State.regsBut_of_csr rfl _), by rw [hframe]; rfl⟩
    · exact ⟨hregs.trans (State.regsBut_of_csr rfl _), by rw [hframe]⟩
  · exact ⟨RegsBut.refl s _, rfl⟩

theorem regAddr_portStatus_notMem_seen (hp : p < 12) : regAddr .portStatus p 0 ∉ [regAddr .membStatus 0 0, regAddr .logStatus 0 0] := by
  rw [regAddr_portStatus, regAddr_logStatus, show regAddr .membStatus 0 0 = 0x5020 from rfl]
  simp only [List.mem_cons, List.not_mem_nil, or_false]
  omega

theorem regAddr_macsec_notMem_seen (hp : p < 12) : regAddr .macsec p 0 ∉ [regAddr .membStatus 0 0, regAddr .logStatus 0 0] := by
  rw [regAddr_macsec, regAddr_logStatus, show regAddr .membStatus 0 0 = 0x5020 from rfl]
  simp only [List.mem_cons, List.not_mem_nil, or_false]
  omega

theorem exec_identityWordRx_up (hlive : s.live = true) (hp : p < 12)
    (hst : s.rd F.portStatus_state p = 1 ∨ s.rd F.portStatus_state p = 3) (hfits : s.peerFits p peer pport x y z = true)
    (hkeys : s.needsMacsec p = true → nonce = true ∧ s.sec.fabricKey = true) :
    ∃ u : State, exec (.identityWordRx p peer pport x y z epoch nonce) s = .next u.settle ∧ u.rd F.portStatus_state p = 2
      ∧ u.rd F.portStatus_peerId p = peer % 2 ^ 10 ∧ u.rd F.portStatus_peerPort p = pport % 2 ^ 4
      ∧ u.rd F.portStatus_peerEpoch p = epoch % 2 ^ 32 ∧ u.flag F.portStatus_macsec p = s.needsMacsec p
      ∧ u.flag F.macsec_active p = s.needsMacsec p ∧ u.rd F.macsec_keyNumber p = 0 ∧ u.rd F.macsec_an p = 0
      ∧ (u.port p).was = true ∧ u = { s with csr := u.csr, free := u.free, log := u.log, fab := u.fab, egr := u.egr, health := u.health } := by
  obtain ⟨hstate, hpeer, hpport, hepoch, hmacsec⟩ := s.peerNoted_spec p peer pport epoch (s.needsMacsec p)
  obtain ⟨hactive, hnumber, han, -⟩ := ((s.peerNoted p peer pport epoch (s.needsMacsec p)).setPort p
    { s.port p with was := true, badAt := none }).keysBegun_spec p (s.needsMacsec p)
  rw [← State.portMatched] at hactive hnumber han
  obtain ⟨hwas, hmatched⟩ := s.portMatched_frame p peer pport epoch (s.needsMacsec p)
  have hnoted := fun (f : Field) (hf : f.reg = .portStatus) => s.portMatched_status hp peer pport epoch (s.needsMacsec p) hf
  obtain ⟨a, ha⟩ : ∃ a, a = if (s.port p).was then
      (s.portMatched p peer pport epoch (s.needsMacsec p)).logWith 0x1102 (0x0010 + p) 0xFF peer
    else s.portMatched p peer pport epoch (s.needsMacsec p) := ⟨_, rfl⟩
  have hexec : exec (.identityWordRx p peer pport x y z epoch nonce) s = .next (a.seeEpoch epoch p).settle := by
    have hprotected : ¬ (decide (s.rd F.portStatus_state p ≠ 2) && s.needsMacsec p && !(nonce && s.sec.fabricKey)) = true := by
      cases hneeds : s.needsMacsec p with
      | false => simp
      | true =>
        obtain ⟨hnonce, hkey⟩ := hkeys hneeds
        simp [hnonce, hkey]
    rw [exec_identityWordRx, execIdentityWordRx, whenLive_live _ _ hlive]
    dsimp only
    rw [if_neg (by simp only [Bool.or_eq_true, Bool.and_eq_true, decide_eq_true_eq]; omega), hfits, if_neg (by decide), if_neg hprotected,
      if_neg (show ¬ s.rd F.portStatus_state p = 2 by omega), ha]
    rfl
  generalize s.portMatched p peer pport epoch (s.needsMacsec p) = b at *
  obtain ⟨hlogged, hlogframe⟩ : RegsBut b a [regAddr .logStatus 0 0] ∧ a = { b with csr := a.csr, log := a.log } := by
    rw [ha]
    split
    · exact ⟨State.regsBut_logEvt _ _ _ _ _, State.logWith_frame ..⟩
    · exact ⟨RegsBut.refl b _, rfl⟩
  obtain ⟨hseen, hframe⟩ := a.seeEpoch_spec epoch p
  generalize a.seeEpoch epoch p = u at *
  have hregs : RegsBut b u [regAddr .membStatus 0 0, regAddr .logStatus 0 0] := (hlogged.mono (by simp)).trans hseen
  have hstatus : ∀ f : Field, f.reg = .portStatus → u.rd f p = (s.peerNoted p peer pport epoch (s.needsMacsec p)).rd f p :=
    fun f hf => (hregs.rd (by rw [hf]; exact regAddr_portStatus_notMem_seen hp)).trans (hnoted f hf)
  have hmac : ∀ f : Field, f.reg = .macsec → u.rd f p = b.rd f p := fun f hf => hregs.rd (by
    rw [hf]
    exact regAddr_macsec_notMem_seen hp)
  refine ⟨u, hexec, (hstatus _ rfl).trans hstate, (hstatus _ rfl).trans hpeer, (hstatus _ rfl).trans hpport, (hstatus _ rfl).trans hepoch,
    ?_, ?_, (hmac _ rfl).trans hnumber, (hmac _ rfl).trans han, ?_, ?_⟩
  · rw [State.flag, hstatus _ rfl]
    exact hmacsec
  · rw [State.flag, hmac _ rfl]
    exact hactive
  · rw [hframe, hlogframe]
    exact hwas
  · rw [hframe, hlogframe, hmatched]

end Sys2Proof.Machine
end

section
/-! Frames and words on a link: replays, frames in order, and frames for another device (R310 to R316). -/
namespace Sys2Proof.Machine

variable {s t u v : State} {dt p w n c : Nat} {f : Bytes}

/-- t is s after port p sent n words: what it has to replay stays. -/
structure State.LinkSent (p n : Nat) (s t : State) : Prop where
  frame : t = { s with csr := t.csr, fab := t.fab, out := t.out }
  regs : RegsBut s t [regAddr .macsec p 0]
  sent : t.out.length = s.out.length + n
  others : ∀ q, q ≠ p → t.port q = s.port q
  waits : (t.port p).tries = (s.port p).tries ∧ (t.port p).lackAt = (s.port p).lackAt ∧ (t.port p).replay = (s.port p).replay

namespace State.LinkSent

theorem trans {m : Nat} (h : LinkSent p m s t) (k : LinkSent p n t u) : LinkSent p (m + n) s u := by
  obtain ⟨htries, hlack, hreplay⟩ := h.waits
  obtain ⟨ktries, klack, kreplay⟩ := k.waits
  refine ⟨k.frame.trans (by rw [h.frame]), h.regs.trans k.regs, ?_, fun q hq => (k.others q hq).trans (h.others q hq),
    ktries.trans htries, klack.trans hlack, kreplay.trans hreplay⟩
  rw [k.sent, h.sent, Nat.add_assoc]

theorem setPort (s : State) (p : Nat) {v : PortSt}
    (h : v.tries = (s.port p).tries ∧ v.lackAt = (s.port p).lackAt ∧ v.replay = (s.port p).replay) : LinkSent p 0 s (s.setPort p v) := by
  refine ⟨rfl, State.regsBut_of_csr rfl _, rfl, fun q => State.port_setPort_ne s v, ?_⟩
  rw [State.port_setPort_same]
  exact h

theorem wr (s : State) {g : Field} (hg : g.reg = .macsec) (x p : Nat) : LinkSent p 0 s (s.wr g x p) :=
  ⟨rfl, (State.regsBut_wr s g x p 0).mono (by simp [hg]), rfl, fun _ _ => rfl, rfl, rfl, rfl⟩

theorem emit (s : State) (p : Nat) (e : Emit) : LinkSent p 1 s (s.emit e) :=
  ⟨rfl, State.regsBut_of_csr rfl _, List.length_append, fun _ _ => rfl, rfl, rfl, rfl⟩

/-- A packet number is taken. -/
theorem nextPn (s : State) (p : Nat) : LinkSent p 0 s (s.nextPn p) := by
  unfold State.nextPn
  split
  · exact ⟨rfl, RegsBut.refl s _, rfl, fun _ _ => rfl, rfl, rfl, rfl⟩
  · dsimp only
    split
    · refine trans (m := 0) (n := 0) (trans (m := 0) (n := 0) ?_ (wr _ (g := F.macsec_keyNumber) rfl _ p))
        (wr _ (g := F.macsec_an) rfl _ p)
      exact setPort s p ⟨rfl, rfl, rfl⟩
    · exact setPort s p ⟨rfl, rfl, rfl⟩

end State.LinkSent

/-- Port p sends a frame of its replay buffer again (R316). -/
def State.resent (s : State) (p : Nat) (e : Nat × Bytes) : State :=
  ((s.nextPn p).setPort p (((s.nextPn p).port p).word 0 e.1).2).emit (.link p 0 ((((s.nextPn p).port p).word 0 e.1).1 ++ e.2))

theorem State.LinkSent.resent (s : State) (p : Nat) (e : Nat × Bytes) : LinkSent p 1 s (s.resent p e) := by
  refine trans (m := 0) (n := 1) (trans (m := 0) (n := 0) (nextPn s p) ?_) (emit _ p _)
  exact setPort (s.nextPn p) p ⟨rfl, rfl, rfl⟩

theorem State.LinkSent.foldl_resent (p : Nat) (l : List (Nat × Bytes)) (s : State) :
    LinkSent p l.length s (l.foldl (fun (u : State) e => u.resent p e) s) := by
  induction l generalizing s with
  | nil => exact ⟨rfl, RegsBut.refl s _, rfl, fun _ _ => rfl, rfl, rfl, rfl⟩
  | cons e l ih =>
    rw [List.length_cons, Nat.add_comm]
    exact (resent s p e).trans (ih _)

theorem exec_linkReplayTimeout_replays (hlive : s.live = true) (hup : s.jUp p = true) (hdue : (s.port p).lackAt + 4000 ≤ s.clk.up + dt)
    (hreplay : (s.port p).replay ≠ []) (htries : (s.port p).tries < 8) :
    ∃ u : State, exec (.linkReplayTimeout dt p) s = .next u.settle ∧ (u.port p).tries = (s.port p).tries + 1 ∧ (u.port p).lackAt = s.clk.up + dt
      ∧ (u.port p).replay = (s.port p).replay ∧ u.rd F.portCnt_replays p = satAdd 16 (s.rd F.portCnt_replays p) 1
      ∧ u.out.length = s.out.length + (s.port p).replay.length ∧ (∀ q, q ≠ p → u.port q = s.port q)
      ∧ RegsBut s u [regAddr .portCnt p 0, regAddr .macsec p 0] ∧ u = { s.pass dt with csr := u.csr, fab := u.fab, out := u.out } := by
  obtain ⟨x, hx⟩ : ∃ x, x = ((s.pass dt).setPort p { s.port p with tries := (s.port p).tries + 1, lackAt := s.clk.up + dt }).cnt
    F.portCnt_replays p := ⟨_, rfl⟩
  have hport : x.port p = { s.port p with tries := (s.port p).tries + 1, lackAt := s.clk.up + dt } := by
    rw [hx]
    exact State.port_setPort_same ..
  have hothers : ∀ q, q ≠ p → x.port q = s.port q := fun q hq => by
    rw [hx]
    exact State.port_setPort_ne (s.pass dt) _ hq
  have hcount : x.rd F.portCnt_replays p = satAdd 16 (s.rd F.portCnt_replays p) 1 := by
    rw [hx]
    exact State.rd_cnt_same _ F.portCnt_replays p 0 1 (by decide)
  have hregs : RegsBut s x [regAddr .portCnt p 0] := by
    rw [hx]
    exact State.regsBut_cnt _ F.portCnt_replays p 0 1
  have hframe : x = { s.pass dt with csr := x.csr, fab := x.fab } := by
    rw [hx]
    rfl
  have hout : x.out = s.out := by
    rw [hframe]
    rfl
  have hsent := State.LinkSent.foldl_resent p (s.port p).replay x
  have hexec : exec (.linkReplayTimeout dt p) s = .next ((s.port p).replay.foldl (fun (u : State) e => u.resent p e) x).settle := by
    rw [exec_linkReplayTimeout_due hlive hup hdue, State.replayLink, hx]
    dsimp only
    rw [if_neg (by rw [List.isEmpty_iff]; exact hreplay), if_neg (show ¬ 8 ≤ ((s.pass dt).port p).tries from not_le.mpr htries)]
    rfl
  generalize (s.port p).replay.foldl (fun (u : State) e => u.resent p e) x = u at *
  obtain ⟨huframe, huregs, husent, huothers, hutries, hulack, hureplay⟩ := hsent
  rw [hport] at hutries hulack hureplay
  refine ⟨u, hexec, hutries, hulack, hureplay, ?_, ?_, fun q hq => (huothers q hq).trans (hothers q hq), ?_, ?_⟩
  · rw [huregs.rd (f := F.portCnt_replays)]
    · exact hcount
    · rw [regAddr_macsec, show regAddr F.portCnt_replays.reg p 0 = 0x401008 + 0x40 * p from rfl, List.mem_singleton]
      have hp := State.lt_of_jUp hup
      omega
  · rw [husent, hout]
  · exact (hregs.mono (by simp)).trans (huregs.mono (by simp))
  · rw [huframe, hframe]

/-- What a link word acknowledges and grants: only its port takes it (Table 11.1, R315, R316). -/
theorem State.takeWord_spec (s : State) (p w : Nat) :
    ∃ v : PortSt, s.takeWord p w = s.setPort p v ∧ v.rx = (s.port p).rx ∧ v.rxSeq = (s.port p).rxSeq ∧ v.room = (s.port p).room
      ∧ v.replay = (s.port p).replay.filter (fun e => !lseqLe e.1 (bitsOf w 32 16))
      ∧ v.credit = (s.port p).credit.set (bitsOf w 30 2) (min 4096 ((s.port p).credit.getD (bitsOf w 30 2) 0 + bitsOf w 16 14)) := by
  unfold State.takeWord
  dsimp only
  split
  · exact ⟨_, rfl, rfl, rfl, rfl, rfl, rfl⟩
  · next hall =>
    refine ⟨_, rfl, rfl, rfl, rfl, ?_, rfl⟩
    exact (List.filter_eq_self.mpr (List.length_filter_eq_length_iff.mp
      (le_antisymm (List.length_filter_le _ _) (Nat.not_lt.mp hall)))).symm

/-- A word of a frame on a port that is up. -/
theorem exec_linkWordRx_up {icv ok : Bool} (hlive : s.live = true) (hup : s.jUp p = true) (htype : bitsOf w 8 8 = 0) :
    exec (.linkWordRx dt p w f ok icv false) s = .next (if bitsOf w 48 16 ≠ ((((s.pass dt).takeWord p w).port p).rxSeq + 1) % 2 ^ 16 then
        ((s.pass dt).takeWord p w).askReplay p
      else if (!ok || decide (f.length < 32) || decide (beAt f 0x1C 4 ≠ crc32c (f.take 0x1C))) = true then
        (if icv then ((s.pass dt).takeWord p w).setPort p { ((s.pass dt).takeWord p w).port p with
          badAt := (((s.pass dt).takeWord p w).port p).badAt.or (some ((s.pass dt).takeWord p w).clk.up) }
          else (s.pass dt).takeWord p w).askReplay p
      else ((s.pass dt).takeWord p w).takeLinkFrame p (bitsOf w 48 16) f).settle := by
  have hst : (s.pass dt).rd F.portStatus_state p = 2 := by
    rw [State.jUp, Bool.and_eq_true, beq_iff_eq] at hup
    exact hup.2
  have hp := State.lt_of_jUp hup
  rw [exec_linkWordRx, execLinkWordRx, whenLive_live _ _ hlive]
  dsimp only
  rw [hst, if_neg (by simp [hp]), htype, if_neg (by decide), if_neg (by decide), if_neg Bool.false_ne_true]

/-- A port whose receive buffer takes frame f in order: it takes its credits (R315). -/
def PortSt.receives (v : PortSt) (seq : Nat) (f : Bytes) : PortSt :=
  { v with
    rx := v.rx ++ [f], rxSeq := seq, badAt := none, room := v.room.set (fClass f) (v.room.getD (fClass f) 0 - fUnits f) }

theorem State.takeLinkFrame_receives {v : PortSt} (hv : s.port p = v) (seq : Nat) (hroom : fUnits f ≤ v.room.getD (fClass f) 0)
    (hpool : s.inPool = true) : ∃ g : PortSt, s.takeLinkFrame p seq f = (s.setPort p g).setPort p (v.receives seq f) := by
  have hmember : (decide (s.rd F.healthStatus_state = 3) || decide (s.rd F.healthStatus_state = 4)
      || decide (s.rd F.healthStatus_state = 5)) = true := by
    rw [State.inPool, Bool.or_eq_true, beq_iff_eq, beq_iff_eq] at hpool
    rcases hpool with hpool | hpool <;> simp [hpool]
  refine ⟨{ v with rxSeq := seq, badAt := none, room := v.room.set (fClass f) (v.room.getD (fClass f) 0 - fUnits f) }, ?_⟩
  unfold State.takeLinkFrame
  dsimp only
  rw [hv, if_neg (Nat.not_lt.mpr hroom), if_pos hmember, State.port_setPort_same]
  rfl

theorem exec_linkWordRx_takes (hlive : s.live = true) (hup : s.jUp p = true) (htype : bitsOf w 8 8 = 0)
    (hseq : bitsOf w 48 16 = ((s.port p).rxSeq + 1) % 2 ^ 16) (hlen : 32 ≤ f.length) (hcrc : beAt f 0x1C 4 = crc32c (f.take 0x1C))
    (hn : n = fUnits f) (hc : c = fClass f) (hroom : n ≤ (s.port p).room.getD c 0) (hpool : s.inPool = true) :
    ∃ u : State, exec (.linkWordRx dt p w f true false false) s = .next u.settle ∧ (u.port p).rx = (s.port p).rx ++ [f]
      ∧ (u.port p).rxSeq = bitsOf w 48 16 ∧ (u.port p).room = (s.port p).room.set c ((s.port p).room.getD c 0 - n)
      ∧ (u.port p).replay = (s.port p).replay.filter (fun e => !lseqLe e.1 (bitsOf w 32 16))
      ∧ (u.port p).credit = (s.port p).credit.set (bitsOf w 30 2) (min 4096 ((s.port p).credit.getD (bitsOf w 30 2) 0 + bitsOf w 16 14))
      ∧ (∀ q, q ≠ p → u.port q = s.port q) ∧ u = { s.pass dt with fab := u.fab } := by
  obtain ⟨v, hword, hrx, hrxSeq, hvroom, hreplay, hcredit⟩ := (s.pass dt).takeWord_spec p w
  have hexec := exec_linkWordRx_up (dt := dt) (f := f) (icv := false) (ok := true) hlive hup htype
  rw [hword, State.port_setPort_same, if_neg (by rw [hrxSeq]; exact not_not_intro hseq),
    if_neg (by simp [hcrc, Nat.not_lt.mpr hlen])] at hexec
  obtain ⟨g, hg⟩ : ∃ g, g = v.receives (bitsOf w 48 16) f := ⟨_, rfl⟩
  obtain ⟨d, htakes⟩ := State.takeLinkFrame_receives (s := (s.pass dt).setPort p v) (State.port_setPort_same ..) (bitsOf w 48 16)
    (show fUnits f ≤ v.room.getD (fClass f) 0 by rwa [hvroom, ← hc, ← hn]) hpool
  rw [← hg] at htakes
  rw [htakes] at hexec
  refine ⟨_, hexec, ?_, ?_, ?_, ?_, ?_, fun q hq => ?_, rfl⟩
  · rw [State.port_setPort_same, hg, PortSt.receives, hrx]
    rfl
  · rw [State.port_setPort_same, hg, PortSt.receives]
  · rw [State.port_setPort_same, hg, PortSt.receives, hvroom, hc, hn]
    rfl
  · rw [State.port_setPort_same, hg, PortSt.receives, hreplay]
    rfl
  · rw [State.port_setPort_same, hg, PortSt.receives, hcredit]
    rfl
  · rw [State.port_setPort_ne _ _ hq, State.port_setPort_ne _ _ hq, State.port_setPort_ne _ _ hq]
    rfl

/-- A frame that is discarded is counted, and a word asks for it again (R316). -/
theorem State.askReplay_spec (s : State) (p : Nat) :
    ((s.askReplay p).port p).rx = (s.port p).rx ∧ ((s.askReplay p).port p).rxSeq = (s.port p).rxSeq
      ∧ (s.askReplay p).rd F.portCnt_fcsErr p = satAdd 16 (s.rd F.portCnt_fcsErr p) 1 ∧ (s.askReplay p).out.length = s.out.length + 1
      ∧ RegsBut s (s.askReplay p) [regAddr .portCnt p 0] ∧ (∀ q, q ≠ p → (s.askReplay p).port q = s.port q)
      ∧ s.askReplay p = { s with csr := (s.askReplay p).csr, fab := (s.askReplay p).fab, out := (s.askReplay p).out } := by
  have hport : (s.askReplay p).port p = ((s.port p).word 1 (s.port p).txSeq).2 :=
    State.port_setPort_same (s.cnt F.portCnt_fcsErr p) p ((s.port p).word 1 (s.port p).txSeq).2
  refine ⟨?_, ?_, State.rd_cnt_same s F.portCnt_fcsErr p 0 1 (by decide), List.length_append,
    State.regsBut_cnt s F.portCnt_fcsErr p 0 1, fun q hq => ?_, rfl⟩
  · rw [hport]
    rfl
  · rw [hport]
    rfl
  · exact State.port_setPort_ne (s.cnt F.portCnt_fcsErr p) ((s.port p).word 1 (s.port p).txSeq).2 hq

theorem exec_linkWordRx_asksReplay {ok : Bool} (hlive : s.live = true) (hup : s.jUp p = true) (htype : bitsOf w 8 8 = 0)
    (hbad : bitsOf w 48 16 ≠ ((s.port p).rxSeq + 1) % 2 ^ 16 ∨ ok = false) :
    ∃ u : State, exec (.linkWordRx dt p w f ok false false) s = .next u.settle ∧ (u.port p).rx = (s.port p).rx
      ∧ (u.port p).rxSeq = (s.port p).rxSeq ∧ u.rd F.portCnt_fcsErr p = satAdd 16 (s.rd F.portCnt_fcsErr p) 1
      ∧ u.out.length = s.out.length + 1 ∧ RegsBut s u [regAddr .portCnt p 0] ∧ (∀ q, q ≠ p → u.port q = s.port q)
      ∧ u = { s.pass dt with csr := u.csr, fab := u.fab, out := u.out } := by
  obtain ⟨v, hword, hrx, hrxSeq, -⟩ := (s.pass dt).takeWord_spec p w
  have hlast : v.rxSeq = (s.port p).rxSeq := hrxSeq
  have hexec : exec (.linkWordRx dt p w f ok false false) s = .next (((s.pass dt).setPort p v).askReplay p).settle := by
    rw [exec_linkWordRx_up hlive hup htype, hword, State.port_setPort_same, hlast]
    by_cases hseq : bitsOf w 48 16 = ((s.port p).rxSeq + 1) % 2 ^ 16
    · rw [if_neg (not_not_intro hseq), hbad.resolve_left (not_not_intro hseq), if_pos (by simp), if_neg Bool.false_ne_true]
    · rw [if_pos hseq]
  obtain ⟨hurx, hurxSeq, hcount, hout, hregs, hothers, hframe⟩ := ((s.pass dt).setPort p v).askReplay_spec p
  rw [State.port_setPort_same] at hurx hurxSeq
  refine ⟨_, hexec, hurx.trans hrx, hurxSeq.trans hlast, hcount, hout, hregs, fun q hq => ?_, hframe.trans rfl⟩
  rw [hothers q hq, State.port_setPort_ne _ _ hq]
  rfl

variable {q : Nat} {re de : Bool} {g h : Bytes}

/-- A frame whose route leads to a port joins its queue there (R310, R311). -/
theorem State.dispatchFrame_port {inPort ctx : Nat} (hroute : s.route (fSrc f) (fDst f) inPort (fRerouted f) = .port q re de)
    (hg : g = (if fRerouted f = re then f else setFlagBit f 1 re)) :
    s.dispatchFrame f inPort ctx = (s.noteDetour (fDst f) de).enqueue (queueNo q (jQueue (decide (fSrc f = s.devId)) g ctx))
      ⟨g, g.length + 4, inPort, fMould g, false, 0, 0⟩ := by
  have hid : (s.noteDetour (fDst f) de).devId = s.devId :=
    (State.Diverted.noteDetour s (fDst f) de).regs.rd (f := F.fabTopo_devId) (i := 0) (j := 0) (by
      rw [divertRegs_eq, show regAddr F.fabTopo_devId.reg 0 0 = 0x400000 from rfl]
      decide)
  unfold State.dispatchFrame
  rw [hroute]
  dsimp only
  rw [← hg, hid]

theorem exec_frameForward_takes (hlive : s.live = true) (hp : p < 12)
    (hhead : (classHeads (s.inbox p)).find? (fun f => fDst f ≠ s.devId) = some f) :
    exec (.frameForward p) s = .next (if beAt f 0x12 1 = 0 then (s.unbox p f true).cnt F.fabStat2_ttlDrop
      else (s.unbox p f false).dispatchFrame (setHdr f 0x12 (beAt f 0x12 1 - 1)) p 0).settle := by
  rw [exec_frameForward, execFrameForward, whenLive_live _ _ hlive, if_neg (Nat.not_le.mpr hp), hhead]

theorem exec_frameForward_forwards (hlive : s.live = true) (hp : p < 12)
    (hhead : (classHeads (s.inbox p)).find? (fun f => fDst f ≠ s.devId) = some f) (httl : beAt f 0x12 1 ≠ 0)
    (hh : h = setHdr f 0x12 (beAt f 0x12 1 - 1)) (hroute : s.route (fSrc h) (fDst h) p (fRerouted h) = .port q re de)
    (hg : g = (if fRerouted h = re then h else setFlagBit h 1 re)) :
    ∃ u : State, exec (.frameForward p) s = .next u.settle ∧ u.inbox p = (s.inbox p).erase f
      ∧ (u.eq (queueNo q (jQueue (decide (fSrc h = s.devId)) g 0))).frames = (s.eq (queueNo q (jQueue (decide (fSrc h = s.devId)) g 0))).frames
        ++ [⟨g, g.length + 4, p, fMould g, false, 0, 0⟩]
      ∧ u = { s with csr := u.csr, free := u.free, log := u.log, fab := u.fab, egr := u.egr } := by
  have hexec := exec_frameForward_takes hlive hp hhead
  rw [if_neg httl, ← hh] at hexec
  have hinbox := s.inbox_unbox p f false
  have hunboxed := s.unbox_frame p f false
  generalize s.unbox p f false = x at *
  have hroute' : x.route (fSrc h) (fDst h) p (fRerouted h) = .port q re de := by
    rw [← hroute, hunboxed]
    rfl
  have hid : x.devId = s.devId := (congrArg State.devId hunboxed).trans rfl
  have hrx := (State.Diverted.dispatchFrame x h p 0).rx p
  rw [State.dispatchFrame_port hroute' hg, hid] at hexec hrx
  refine ⟨_, hexec, ?_, ?_, ?_⟩
  · rw [State.inbox, if_neg (by omega)] at hinbox ⊢
    exact hrx.trans hinbox
  · rw [State.eq_enqueue, if_pos rfl, State.eq, State.noteDetour_frame, hunboxed]
    rfl
  · rw [State.enqueue, State.noteDetour_frame, hunboxed]
    rfl

theorem exec_frameForward_drops (hlive : s.live = true) (hp : p < 12)
    (hhead : (classHeads (s.inbox p)).find? (fun f => fDst f ≠ s.devId) = some f) (httl : beAt f 0x12 1 = 0) :
    ∃ u : State, exec (.frameForward p) s = .next u.settle ∧ u.inbox p = (s.inbox p).erase f
      ∧ u.rd F.fabStat2_ttlDrop = satAdd 16 (s.rd F.fabStat2_ttlDrop) 1 ∧ RegsBut s u [regAddr .fabStat2 0 0]
      ∧ u = { s with csr := u.csr, fab := u.fab } := by
  have hexec := exec_frameForward_takes hlive hp hhead
  rw [if_pos httl] at hexec
  have hinbox := s.inbox_unbox p f true
  have hunboxed := s.unbox_frame p f true
  generalize s.unbox p f true = x at *
  have hcsr : x.csr = s.csr := (congrArg State.csr hunboxed).trans rfl
  refine ⟨_, hexec, hinbox, ?_, ?_, ?_⟩
  · rw [State.rd_cnt_same _ _ _ _ _ (by decide), State.rd_of_csr hcsr]
    rfl
  · exact (State.regsBut_of_csr hcsr _).trans (State.regsBut_cnt x F.fabStat2_ttlDrop 0 0 1)
  · rw [hunboxed]
    rfl

/-- Settles O32: what a port's registers and link layer become is proved for each of its steps, and its traffic by the routes, which
lead only to ports that are up. -/
theorem joravoLinks : Obligations.JoravoLinks :=
  ⟨fun _ _ _ hlive hp hbusy hdim hst => exec_portTrain_trains hlive hp hbusy hdim hst,
    fun _ _ _ hlive hp hbusy hdim hst hdue => exec_portTrainRetry_trains hlive hp hbusy hdim hst hdue,
    fun _ _ _ _ hlive hp hst hunc => exec_portDown_leaves hlive hp hst hunc,
    fun _ _ _ _ _ _ _ _ _ hlive hp hst hfits hkeys => exec_identityWordRx_up hlive hp hst hfits hkeys,
    fun _ _ _ _ _ _ _ _ _ hlive hp hst hfits hroom => exec_identityWordRx_refused hlive hp hst hfits hroom,
    fun _ _ _ _ hlive hup hactive hbad hdue => exec_macsecVerifyTimeout_leaves hlive hup hactive hbad hdue,
    fun _ _ _ hlive hup hdue hreplay htries => exec_linkReplayTimeout_replays hlive hup hdue hreplay htries,
    fun _ _ _ hlive hup hdue hreplay htries => exec_linkReplayTimeout_retrains hlive hup hdue hreplay htries,
    fun _ _ _ _ _ _ _ hlive hup htype hseq hlen hcrc hn hc hroom hpool =>
      exec_linkWordRx_takes hlive hup htype hseq hlen hcrc hn hc hroom hpool,
    fun _ _ _ _ _ _ hlive hup htype hbad => exec_linkWordRx_asksReplay hlive hup htype hbad,
    fun _ _ _ _ _ _ _ _ hlive hp hhead httl hh hroute hg => exec_frameForward_forwards hlive hp hhead httl hh hroute hg,
    fun _ _ _ hlive hp hhead httl => exec_frameForward_drops hlive hp hhead httl⟩

end Sys2Proof.Machine
end

section
/-! Gates and links of the access ports (R379, R387, R389, R440). -/
namespace Sys2Proof.Machine

variable {s t : State} {dt sub i mask e k q : Nat}

/-- The gates of a sub-port as an interval of its list, or none, sets them. -/
def State.gatesSet (s : State) (sub mask i list : Nat) : State :=
  ((s.wr F.egrGate_openMask mask sub).wr F.egrGate_interval i sub).wr F.egrGate_list list sub

theorem State.gatesSet_spec (s : State) (sub mask i list : Nat) :
    (s.gatesSet sub mask i list).rd F.egrGate_openMask sub = mask % 2 ^ F.egrGate_openMask.width
      ∧ (s.gatesSet sub mask i list).rd F.egrGate_interval sub = i % 2 ^ F.egrGate_interval.width
      ∧ (s.gatesSet sub mask i list).rd F.egrGate_list sub = list % 2 ^ F.egrGate_list.width
      ∧ RegsBut s (s.gatesSet sub mask i list) [regAddr .egrGate sub 0] := by
  rw [State.gatesSet]
  refine ⟨?_, ?_, State.rd_wr_same _ _ _ _ _ (by decide), ?_⟩
  · rw [State.rd_wr_beside _ _ _ _ (by rfl) (by decide) (by decide), State.rd_wr_beside _ _ _ _ (by rfl) (by decide) (by decide),
      State.rd_wr_same _ _ _ _ _ (by decide)]
  · rw [State.rd_wr_beside _ _ _ _ (by rfl) (by decide) (by decide), State.rd_wr_same _ _ _ _ _ (by decide)]
  · exact ((State.regsBut_wr s F.egrGate_openMask mask sub 0).trans (State.regsBut_wr _ F.egrGate_interval i sub 0)).trans
      (State.regsBut_wr _ F.egrGate_list list sub 0)

theorem exec_gateIntervalStart_interval (hlive : s.live = true) (hsub : sub < 48) (hnow : (s.pass dt).intervalNow sub = some (i, mask, e)) :
    ∃ u : State, exec (.gateIntervalStart dt sub) s = .next u.settle ∧ u.rd F.egrGate_openMask sub = mask % 2 ^ F.egrGate_openMask.width
      ∧ u.rd F.egrGate_interval sub = i % 2 ^ F.egrGate_interval.width ∧ u.rd F.egrGate_list sub = 1 ∧ RegsBut s u [regAddr .egrGate sub 0]
      ∧ u = { s.pass dt with csr := u.csr } := by
  obtain ⟨hmask, hinterval, hlist, hregs⟩ := (s.pass dt).gatesSet_spec sub mask i 1
  refine ⟨_, ?_, hmask, hinterval, hlist, hregs, rfl⟩
  rw [exec_gateIntervalStart, execGateIntervalStart, whenLive_live _ _ hlive]
  dsimp only
  rw [if_neg (Nat.not_le.mpr hsub), hnow]
  rfl

theorem exec_gateIntervalStart_open (hlive : s.live = true) (hsub : sub < 48) (hnow : (s.pass dt).intervalNow sub = none) :
    ∃ u : State, exec (.gateIntervalStart dt sub) s = .next u.settle ∧ u.rd F.egrGate_openMask sub = 0xFF ∧ u.rd F.egrGate_interval sub = 0
      ∧ u.rd F.egrGate_list sub = 0 ∧ RegsBut s u [regAddr .egrGate sub 0] ∧ u = { s.pass dt with csr := u.csr } := by
  obtain ⟨hmask, hinterval, hlist, hregs⟩ := (s.pass dt).gatesSet_spec sub 0xFF 0 0
  refine ⟨_, ?_, hmask, hinterval, hlist, hregs, rfl⟩
  rw [exec_gateIntervalStart, execGateIntervalStart, whenLive_live _ _ hlive]
  dsimp only
  rw [if_neg (Nat.not_le.mpr hsub), hnow]
  rfl

/-- A lane's bit stays within the four of its port. -/
theorem setBit_lane_lt {x k : Nat} (hx : x < 16) (hk : k < 4) (b : Bool) : setBit x k b < 16 :=
  (by decide : ∀ (x : Fin 16) (k : Fin 4) (b : Bool), setBit x.val k.val b < 16) ⟨x, hx⟩ ⟨k, hk⟩ b

/-- The link of an access sub-port is shown up or down. -/
def State.linkShown (s : State) (sub : Nat) (b : Bool) : State :=
  s.wr F.apStatus_linkUp (setBit (s.rd F.apStatus_linkUp ((sub - 16) / 4)) ((sub - 16) % 4) b) ((sub - 16) / 4)

theorem State.rd_linkShown (s : State) (sub : Nat) (b : Bool) :
    (s.linkShown sub b).rd F.apStatus_linkUp ((sub - 16) / 4) = setBit (s.rd F.apStatus_linkUp ((sub - 16) / 4)) ((sub - 16) % 4) b := by
  have hx : s.rd F.apStatus_linkUp ((sub - 16) / 4) < 16 := Nat.mod_lt _ (by decide)
  rw [State.linkShown, State.rd_wr_same _ _ _ _ _ (by decide)]
  exact Nat.mod_eq_of_lt (setBit_lane_lt hx (Nat.mod_lt _ (by decide)) b)

/-- Whether an access sub-port can transmit is what its link shows. -/
theorem State.subUp_of_shown {x : Nat} {b : Bool} (hsub : 16 ≤ sub)
    (h : t.rd F.apStatus_linkUp ((sub - 16) / 4) = setBit x ((sub - 16) % 4) b) : t.subUp sub = b := by
  rw [State.subUp, if_neg (Nat.not_lt.mpr hsub), h, bit_setBit_same]

theorem exec_accessLinkUp_shows (hlive : s.live = true) (hlow : 16 ≤ sub) (hhigh : sub < 48)
    (hlane : (sub - 16) % 4 < laneCount (qMode s.queueMap (0x10 + (sub - 16) / 4))) :
    ∃ u : State, exec (.accessLinkUp sub) s = .next u.settle ∧ u.subUp sub = true
      ∧ u.rd F.apStatus_linkUp ((sub - 16) / 4) = setBit (s.rd F.apStatus_linkUp ((sub - 16) / 4)) ((sub - 16) % 4) true
      ∧ RegsBut s u [regAddr .apStatus ((sub - 16) / 4) 0] ∧ u = { s with csr := u.csr } := by
  have hshown := s.rd_linkShown sub true
  refine ⟨_, ?_, State.subUp_of_shown hlow hshown, hshown, State.regsBut_wr s F.apStatus_linkUp _ ((sub - 16) / 4) 0, rfl⟩
  rw [exec_accessLinkUp, execAccessLinkUp, whenLive_live _ _ hlive,
    if_neg (by simp only [Bool.or_eq_true, decide_eq_true_eq]; omega)]
  dsimp only
  rw [if_pos hlane]
  rfl

/-- The credits of discarded frames are owed, which touches no queue. -/
theorem State.owes_frame (l : List EgFrame) (s : State) :
    l.foldl (fun (u : State) f => u.owe f.inPort f.bytes) s
      = { s with fab := (l.foldl (fun (u : State) f => u.owe f.inPort f.bytes) s).fab } := by
  refine List.foldlRecOn l _ (motive := fun u : State => u = { s with fab := u.fab }) rfl fun u hu f _ => ?_
  unfold State.owe
  split
  · exact hu
  · rw [hu]
    rfl

/-- A queue whose frames are discarded holds none, and no other queue changes (R387). -/
theorem State.discard_spec (s : State) (q : Nat) :
    ((s.discard q (fun _ => true)).eq q).frames = [] ∧ (∀ k, k ≠ q → (s.discard q (fun _ => true)).eq k = s.eq k)
      ∧ RegsBut s (s.discard q (fun _ => true)) [regAddr .egrQstat q 0]
      ∧ s.discard q (fun _ => true) = { s with
          csr := (s.discard q (fun _ => true)).csr, egr := (s.discard q (fun _ => true)).egr, fab := (s.discard q (fun _ => true)).fab } := by
  unfold State.discard
  dsimp only
  rw [List.filter_true]
  split
  · next hnone => exact ⟨List.isEmpty_iff.mp hnone, fun _ _ => rfl, RegsBut.refl s _, rfl⟩
  · have howes := State.owes_frame (s.eq q).frames s
    generalize (s.eq q).frames.foldl (fun (u : State) f => u.owe f.inPort f.bytes) s = a at *
    have hcsr : a.csr = s.csr := (congrArg State.csr howes).trans rfl
    have heq : ∀ k, a.eq k = s.eq k := fun k => (congrArg (fun u => State.eq u k) howes).trans rfl
    refine ⟨?_, fun k hk => ?_, ?_, ?_⟩
    · refine (congrArg EgQueue.frames (State.eq_setEq a q q _)).trans ?_
      rw [if_pos rfl]
      exact List.filter_false _
    · refine (State.eq_setEq a q k _).trans ?_
      rw [if_neg hk, heq]
    · exact (State.regsBut_of_csr hcsr _).trans (State.regsBut_cnt _ F.egrQstat_discarded q 0 _)
    · rw [howes]
      rfl

/-- The frames of some queues are discarded. -/
def State.discards (s : State) (l : List Nat) : State := l.foldl (fun u q => u.discard q (fun _ => true)) s

/-- Those queues hold no frame afterwards, and the others are as they were. -/
theorem State.discards_spec (l : List Nat) (s : State) :
    (∀ k, k ∈ l → ((s.discards l).eq k).frames = []) ∧ (∀ k, k ∉ l → (s.discards l).eq k = s.eq k)
      ∧ (∀ a, a < 8 → (s.discards l).rd F.apStatus_linkUp a = s.rd F.apStatus_linkUp a)
      ∧ s.discards l = { s with csr := (s.discards l).csr, egr := (s.discards l).egr, fab := (s.discards l).fab } := by
  induction l generalizing s with
  | nil => exact ⟨fun _ h => absurd h List.not_mem_nil, fun _ _ => rfl, fun _ _ => rfl, rfl⟩
  | cons q l ih =>
    obtain ⟨hempty, hothers, hregs, hframe⟩ := s.discard_spec q
    obtain ⟨ihempty, ihothers, ihlinks, ihframe⟩ := ih (s.discard q (fun _ => true))
    have hcons : s.discards (q :: l) = (s.discard q (fun _ => true)).discards l := rfl
    rw [hcons]
    generalize (s.discard q (fun _ => true)).discards l = u at *
    generalize s.discard q (fun _ => true) = a at *
    refine ⟨fun k hk => ?_, fun k hk => ?_, fun i hi => (ihlinks i hi).trans (hregs.rd (f := F.apStatus_linkUp) ?_), ?_⟩
    · by_cases hmem : k ∈ l
      · exact ihempty k hmem
      · have hkq : k = q := (List.mem_cons.mp hk).resolve_right hmem
        rw [ihothers k hmem, hkq]
        exact hempty
    · obtain ⟨hne, hmem⟩ := List.ne_and_not_mem_of_not_mem_cons hk
      rw [ihothers k hmem, hothers k hne]
    · rw [show regAddr F.apStatus_linkUp.reg i 0 = 0x500000 + 0x10 * i from rfl,
        show regAddr .egrQstat q 0 = 0x600000 + 0x10 * q from rfl, List.mem_singleton]
      omega
    · rw [ihframe, hframe]

/-- The queues of a sub-port that hold frames are those listed (R381). -/
theorem State.mem_subQueues (hframes : (s.eq q).frames ≠ []) (hsub : s.queueSub q = sub) : q ∈ s.subQueues sub := by
  rw [State.subQueues, List.mem_map]
  cases hfind : Tab.find s.egr.qs q with
  | none =>
    refine absurd ?_ hframes
    rw [State.eq, Tab.get, hfind]
    rfl
  | some v =>
    have hv : s.eq q = v := by rw [State.eq, Tab.get, hfind, Option.getD_some]
    rw [hv] at hframes
    exact ⟨(q, v), List.mem_filter.mpr ⟨Tab.mem_of_find hfind, by simp [hframes, hsub]⟩, rfl⟩

theorem State.queueSub_of_mem (h : q ∈ s.subQueues sub) : s.queueSub q = sub := by
  obtain ⟨e, he, rfl⟩ := List.mem_map.mp h
  have hkeep := (List.mem_filter.mp he).2
  simp only [Bool.and_eq_true, decide_eq_true_eq] at hkeep
  exact hkeep.2

theorem exec_accessLinkDown_discards (hlive : s.live = true) (hlow : 16 ≤ sub) (hhigh : sub < 48) :
    ∃ u : State, exec (.accessLinkDown sub) s = .next u.settle ∧ u.subUp sub = false
      ∧ u.rd F.apStatus_linkUp ((sub - 16) / 4) = setBit (s.rd F.apStatus_linkUp ((sub - 16) / 4)) ((sub - 16) % 4) false
      ∧ (∀ q, s.queueSub q = sub → (u.eq q).frames = []) ∧ (∀ q, s.queueSub q ≠ sub → u.eq q = s.eq q)
      ∧ u = { s with csr := u.csr, egr := u.egr, fab := u.fab } := by
  have hshown := s.rd_linkShown sub false
  obtain ⟨hempty, hothers, hlinks, hframe⟩ := (s.linkShown sub false).discards_spec (s.subQueues sub)
  have hexec : exec (.accessLinkDown sub) s = .next ((s.linkShown sub false).discards (s.subQueues sub)).settle := by
    rw [exec_accessLinkDown, execAccessLinkDown, whenLive_live _ _ hlive,
      if_neg (by simp only [Bool.or_eq_true, decide_eq_true_eq]; omega)]
    rfl
  generalize (s.linkShown sub false).discards (s.subQueues sub) = u at *
  have hlink := (hlinks ((sub - 16) / 4) (by omega)).trans hshown
  refine ⟨u, hexec, State.subUp_of_shown hlow hlink, hlink, fun q hq => ?_, fun q hq => ?_, ?_⟩
  · by_cases hmem : q ∈ s.subQueues sub
    · exact hempty q hmem
    · rw [hothers q hmem]
      exact not_not.mp fun hframes => hmem (State.mem_subQueues hframes hq)
  · exact hothers q fun hmem => hq (State.queueSub_of_mem hmem)
  · rw [hframe]
    rfl

end Sys2Proof.Machine
end

section
/-! Frames that start, and ports that have none to start (R315, R316, R381 to R385). -/
namespace Sys2Proof.Machine

variable {s t w : State} {dt sub p q k : Nat} {b : SubSt} {f : EgFrame}

/-- What EGRESS_FRAME_START does on a sub-port that can transmit and is free. -/
theorem exec_egressFrameStart_ready (hlive : s.live = true) (hsub : sub < 48) (hup : s.subUp sub = true)
    (hfree : (Tab.get SubSt.init s.egr.subs sub).freeAt ≤ 100 * (s.clk.up + dt) + 99) :
    exec (.egressFrameStart dt sub) s = .next ((s.pass dt).startFrame sub).settle := by
  have hready : ¬ (decide (48 ≤ sub) || !(s.pass dt).subUp sub
      || decide (100 * (s.pass dt).clk.up + 99 < (Tab.get SubSt.init (s.pass dt).egr.subs sub).freeAt)) = true := by
    have hup' : (s.pass dt).subUp sub = true := hup
    have hfree' : (Tab.get SubSt.init (s.pass dt).egr.subs sub).freeAt ≤ 100 * (s.pass dt).clk.up + 99 := hfree
    simp only [hup', Bool.or_eq_true, decide_eq_true_eq, Bool.not_true, Bool.false_eq_true, or_false]
    omega
  rw [exec_egressFrameStart, execEgressFrameStart, whenLive_live _ _ hlive]
  dsimp only
  rw [if_neg hready]

/-- The guard counts no queue that is not eligible but for it. -/
theorem State.countHeld_of_pass (h : (!w.eligibleButGuard sub k || w.guardPass sub k) = true) : w.countHeld sub k = w := by
  unfold State.countHeld
  split
  · rw [if_pos]
    rw [Bool.or_assoc, Bool.or_eq_true, h]
    exact .inr rfl
  · rfl

theorem State.foldl_countHeld_of_pass {l : List Nat} (h : l.all (fun k => !w.eligibleButGuard sub k || w.guardPass sub k) = true) :
    l.foldl (fun (u : State) k => u.countHeld sub k) w = w := by
  induction l with
  | nil => rfl
  | cons k l ih =>
    rw [List.all_cons, Bool.and_eq_true] at h
    obtain ⟨hk, hl⟩ := h
    rw [List.foldl_cons, State.countHeld_of_pass hk]
    exact ih hl

/-- The schedule of a sub-port is replaced. -/
def State.setSub (s : State) (sub : Nat) (b : SubSt) : State := { s with egr := { s.egr with subs := Tab.set SubSt.init s.egr.subs sub b } }

/-- The head frame f of queue q has left it for its sub-port, which is busy for the frame's time. -/
def State.frameStarted (w : State) (sub q : Nat) (b : SubSt) (f : EgFrame) : State :=
  (w.setSub sub { b with freeAt := max b.freeAt (100 * w.clk.up) + w.txTime sub (w.wireLen sub f.len) }).takeFrame sub q f

theorem State.startFrame_starts (hpass : (w.subQueues sub).all (fun k => !w.eligibleButGuard sub k || w.guardPass sub k) = true)
    (hpick : w.pickQueue sub = some (q, b, [])) (hhead : w.headOf q = some f) :
    w.startFrame sub = if sub < 12 then (((w.frameStarted sub q b f).linkSend sub f.bytes).owe f.inPort f.bytes).touchTx f.bytes
      else (w.frameStarted sub q b f).emit (.egress sub q f.bytes) := by
  unfold State.startFrame
  dsimp only
  rw [State.foldl_countHeld_of_pass hpass, hpick]
  dsimp only
  rw [hhead]
  rfl

theorem State.frameStarted_spec (w : State) (sub q : Nat) (b : SubSt) (f : EgFrame) :
    ((w.frameStarted sub q b f).eq q).frames = (w.eq q).frames.erase f ∧ (∀ k, k ≠ q → (w.frameStarted sub q b f).eq k = w.eq k)
      ∧ (Tab.get SubSt.init (w.frameStarted sub q b f).egr.subs sub).freeAt
        = max b.freeAt (100 * w.clk.up) + w.txTime sub (w.wireLen sub f.len)
      ∧ (w.frameStarted sub q b f).rd F.egrQbytes_bytes q
        = (w.rd F.egrQbytes_bytes q + w.wireLen sub f.len) % 2 ^ F.egrQbytes_bytes.width
      ∧ RegsBut w (w.frameStarted sub q b f) [regAddr .egrQbytes q 0]
      ∧ w.frameStarted sub q b f = { w with csr := (w.frameStarted sub q b f).csr, egr := (w.frameStarted sub q b f).egr } := by
  obtain ⟨x, hx⟩ : ∃ x, x = w.setSub sub { b with freeAt := max b.freeAt (100 * w.clk.up) + w.txTime sub (w.wireLen sub f.len) } :=
    ⟨_, rfl⟩
  have hlen : x.wireLen sub f.len = w.wireLen sub f.len := by
    rw [hx]
    rfl
  have hqueues : ∀ k, x.eq k = w.eq k := fun k => by
    rw [hx]
    rfl
  have hsubs : (Tab.get SubSt.init x.egr.subs sub).freeAt = max b.freeAt (100 * w.clk.up) + w.txTime sub (w.wireLen sub f.len) := by
    rw [hx]
    exact congrArg SubSt.freeAt (Tab.get_set_same ..)
  have hcsr : x.csr = w.csr := by
    rw [hx]
    rfl
  obtain ⟨v, hv, htake⟩ : ∃ v : EgQueue, v.frames = (x.eq q).frames.erase f
      ∧ x.takeFrame sub q f = (x.setEq q v).inc F.egrQbytes_bytes q 0 (x.wireLen sub f.len) := ⟨_, rfl, rfl⟩
  have hstarted : w.frameStarted sub q b f = (x.setEq q v).inc F.egrQbytes_bytes q 0 (x.wireLen sub f.len) := by
    rw [← htake, hx]
    rfl
  rw [hstarted]
  refine ⟨?_, fun k hk => ?_, hsubs, ?_, ?_, ?_⟩
  · refine (congrArg EgQueue.frames (State.eq_setEq x q q v)).trans ?_
    rw [if_pos rfl, hv, hqueues]
  · refine (State.eq_setEq x q k v).trans ?_
    rw [if_neg hk, hqueues]
  · rw [← hlen]
    refine (State.rd_wr_same _ F.egrQbytes_bytes _ q 0 (by decide)).trans ?_
    rw [State.rd_of_csr (show (x.setEq q v).csr = w.csr from hcsr)]
  · exact (State.regsBut_of_csr hcsr _).trans (State.regsBut_wr (x.setEq q v) F.egrQbytes_bytes _ q 0)
  · rw [hx]
    rfl

theorem exec_egressFrameStart_access (hlive : s.live = true) (hlow : 16 ≤ sub) (hhigh : sub < 48) (hup : s.subUp sub = true)
    (hw : w = s.pass dt) (hfree : (Tab.get SubSt.init s.egr.subs sub).freeAt ≤ 100 * (s.clk.up + dt) + 99)
    (hpass : (w.subQueues sub).all (fun k => !w.eligibleButGuard sub k || w.guardPass sub k) = true)
    (hpick : w.pickQueue sub = some (q, b, [])) (hhead : w.headOf q = some f) :
    ∃ u : State, exec (.egressFrameStart dt sub) s = .next u.settle ∧ u.out = s.out ++ [.egress sub q f.bytes]
      ∧ (u.eq q).frames = (s.eq q).frames.erase f ∧ (∀ k, k ≠ q → u.eq k = s.eq k)
      ∧ (Tab.get SubSt.init u.egr.subs sub).freeAt = max b.freeAt (100 * (s.clk.up + dt)) + s.txTime sub (f.len + 20)
      ∧ u.rd F.egrQbytes_bytes q = (s.rd F.egrQbytes_bytes q + (f.len + 20)) % 2 ^ F.egrQbytes_bytes.width
      ∧ RegsBut s u [regAddr .egrQbytes q 0] ∧ u = { w with csr := u.csr, egr := u.egr, out := u.out } := by
  have hexec := exec_egressFrameStart_ready hlive hhigh hup hfree
  rw [← hw, State.startFrame_starts hpass hpick hhead, if_neg (by omega)] at hexec
  obtain ⟨hframes, hothers, hbusy, hbytes, hregs, hframe⟩ := w.frameStarted_spec sub q b f
  have hlen : w.wireLen sub f.len = f.len + 20 := if_pos hlow
  rw [hlen] at hbusy hbytes
  generalize w.frameStarted sub q b f = a at *
  have hout : a.out = s.out := (congrArg State.out hframe).trans (by rw [hw]; rfl)
  subst hw
  refine ⟨_, hexec, congrArg (· ++ [Emit.egress sub q f.bytes]) hout, hframes, hothers, hbusy, hbytes, hregs, ?_⟩
  rw [hframe]
  rfl

/-- Deficit round-robin over no queue serves none. -/
theorem drrRounds_nil (n : Nat) (d : Tab Nat) : drrRounds n [] d = none := by
  induction n with
  | zero => rfl
  | succ n ih => exact ih

theorem State.pickQueue_none (h : w.subQueues sub = []) : w.pickQueue sub = none := by
  have hnone : w.eligible sub = [] := by
    rw [State.eligible, h]
    rfl
  unfold State.pickQueue
  dsimp only
  rw [hnone]
  show (drrPick [] [] (Tab.get SubSt.init w.egr.subs sub).cur).map _ = none
  rw [show drrPick [] [] (Tab.get SubSt.init w.egr.subs sub).cur = drrRounds 400 [] [] from rfl, drrRounds_nil]
  rfl

theorem exec_egressFrameStart_idle (hlive : s.live = true) (hp : p < 12) (hup : s.jUp p = true)
    (hfree : (Tab.get SubSt.init s.egr.subs p).freeAt ≤ 100 * (s.clk.up + dt) + 99) (hnone : (s.pass dt).subQueues p = []) :
    ∃ u : State, exec (.egressFrameStart dt p) s = .next u.settle ∧ u.out = s.out ++ [.link p 2 ((s.port p).word 2 (s.port p).txSeq).1]
      ∧ u.port p = ((s.port p).word 2 (s.port p).txSeq).2 ∧ (∀ q, q ≠ p → u.port q = s.port q)
      ∧ u = { s.pass dt with fab := u.fab, out := u.out } := by
  have hready : s.subUp p = true := by
    rw [State.subUp, if_pos (by omega)]
    exact hup
  have hexec := exec_egressFrameStart_ready hlive (by omega) hready hfree
  have hidle : (s.pass dt).startFrame p = (s.pass dt).sendWord p 2 := by
    have hup' : (s.pass dt).jUp p = true := hup
    unfold State.startFrame
    dsimp only
    rw [hnone, List.foldl_nil, State.pickQueue_none hnone]
    dsimp only
    rw [hup', if_pos (by simp [hp])]
  rw [hidle] at hexec
  exact ⟨_, hexec, rfl, State.port_setPort_same .., fun q hq => State.port_setPort_ne (s.pass dt) _ hq, rfl⟩

theorem exec_egressFrameStart_held (hlive : s.live = true) (hlow : 16 ≤ sub) (hhigh : sub < 48) (hup : s.subUp sub = true)
    (hw : w = s.pass dt) (hfree : (Tab.get SubSt.init s.egr.subs sub).freeAt ≤ 100 * (s.clk.up + dt) + 99) (hone : w.subQueues sub = [q])
    (hhead : w.headOf q = some f) (hheld : f.held = false) (helig : w.eligibleButGuard sub q = true) (hguard : w.guardPass sub q = false)
    (hpick : (w.countHeld sub q).pickQueue sub = none) :
    ∃ u : State, exec (.egressFrameStart dt sub) s = .next u.settle
      ∧ u.rd F.egrGate_guardHolds sub = satAdd F.egrGate_guardHolds.width (s.rd F.egrGate_guardHolds sub) 1
      ∧ u.out = s.out ∧ (u.eq q).frames = (s.eq q).frames.map (fun g => if g = f then { g with held := true } else g)
      ∧ (∀ k, k ≠ q → u.eq k = s.eq k) ∧ RegsBut s u [regAddr .egrGate sub 0] ∧ u = { w with csr := u.csr, egr := u.egr } := by
  have hexec := exec_egressFrameStart_ready hlive hhigh hup hfree
  obtain ⟨v, hv⟩ : ∃ v, v = { w.eq q with frames := (w.eq q).frames.map (fun g => if g = f then { g with held := true } else g) } := ⟨_, rfl⟩
  have hcounted : w.countHeld sub q = (w.setEq q v).cnt F.egrGate_guardHolds sub := by
    unfold State.countHeld
    rw [hhead]
    dsimp only
    rw [hheld, helig, hguard, if_neg (by decide), hv]
  have hstart : w.startFrame sub = (w.setEq q v).cnt F.egrGate_guardHolds sub := by
    unfold State.startFrame
    dsimp only
    rw [hone, List.foldl_cons, List.foldl_nil, hpick]
    dsimp only
    rw [if_neg (by simp only [Bool.and_eq_true, decide_eq_true_eq]; omega), hcounted]
  rw [← hw, hstart] at hexec
  have hqueue : (w.setEq q v).eq q = v := by
    rw [State.eq_setEq, if_pos rfl]
  subst hw
  refine ⟨_, hexec, State.rd_cnt_same _ F.egrGate_guardHolds sub 0 1 (by decide), rfl, ?_, fun k hk => ?_,
    State.regsBut_cnt _ F.egrGate_guardHolds sub 0 1, rfl⟩
  · refine (congrArg EgQueue.frames hqueue).trans ?_
    rw [hv]
    rfl
  · refine (State.eq_setEq _ q k v).trans ?_
    rw [if_neg hk]
    rfl

/-- A packet number is all that a port takes before it sends. -/
theorem State.nextPn_spec (s : State) (p : Nat) :
    (∃ n, (s.nextPn p).port p = { s.port p with pn := n }) ∧ s.nextPn p = { s with csr := (s.nextPn p).csr, fab := (s.nextPn p).fab } := by
  unfold State.nextPn
  split
  · exact ⟨⟨_, rfl⟩, rfl⟩
  · dsimp only
    split
    · exact ⟨⟨1, State.port_setPort_same ..⟩, rfl⟩
    · exact ⟨⟨_, State.port_setPort_same ..⟩, rfl⟩

/-- A frame that goes out on a link takes a sequence and its credits and stays for replay (R315, R316). -/
theorem State.linkSend_spec (s : State) (p : Nat) (g : Bytes) :
    ((s.linkSend p g).port p).replay = (s.port p).replay ++ [((s.port p).txSeq, g)]
      ∧ ((s.linkSend p g).port p).txSeq = ((s.port p).txSeq + 1) % 2 ^ 16
      ∧ ((s.linkSend p g).port p).credit = (s.port p).credit.set (fClass g) ((s.port p).credit.getD (fClass g) 0 - fUnits g)
      ∧ (s.linkSend p g).out.length = s.out.length + 1
      ∧ s.linkSend p g = { s with csr := (s.linkSend p g).csr, fab := (s.linkSend p g).fab, out := (s.linkSend p g).out } := by
  obtain ⟨⟨n, hn⟩, hframe⟩ := s.nextPn_spec p
  unfold State.linkSend
  dsimp only
  generalize s.nextPn p = a at *
  have hout : a.out = s.out := (congrArg State.out hframe).trans rfl
  rw [hn]
  refine ⟨?_, ?_, ?_, ?_, ?_⟩
  · exact congrArg PortSt.replay (State.port_setPort_same a p _)
  · exact congrArg PortSt.txSeq (State.port_setPort_same a p _)
  · exact congrArg PortSt.credit (State.port_setPort_same a p _)
  · rw [← hout]
    exact List.length_append
  · rw [hframe]
    rfl

/-- Credits that are owed change nothing else of a port. -/
theorem State.port_owe (s : State) (p r : Nat) (g : Bytes) : ∃ l, (s.owe p g).port r = { s.port r with owed := l } := by
  unfold State.owe
  split
  · exact ⟨_, rfl⟩
  · rw [State.port_setPort]
    split
    · next h => exact ⟨_, by rw [h]⟩
    · exact ⟨_, rfl⟩

theorem State.owe_frame (s : State) (p : Nat) (g : Bytes) : s.owe p g = { s with fab := (s.owe p g).fab } := by
  unfold State.owe
  split <;> rfl

/-- The time of a frame's last transmission is no port's. -/
theorem State.touchTx_frame (s : State) (g : Bytes) :
    (s.touchTx g).fab.ports = s.fab.ports ∧ s.touchTx g = { s with fab := (s.touchTx g).fab } := by
  unfold State.touchTx
  dsimp only
  split <;> exact ⟨rfl, rfl⟩

theorem exec_egressFrameStart_link (hlive : s.live = true) (hp : p < 12) (hup : s.jUp p = true) (hw : w = s.pass dt)
    (hfree : (Tab.get SubSt.init s.egr.subs p).freeAt ≤ 100 * (s.clk.up + dt) + 99)
    (hpass : (w.subQueues p).all (fun k => !w.eligibleButGuard p k || w.guardPass p k) = true)
    (hpick : w.pickQueue p = some (q, b, [])) (hhead : w.headOf q = some f) :
    ∃ u : State, exec (.egressFrameStart dt p) s = .next u.settle ∧ (u.eq q).frames = (s.eq q).frames.erase f ∧ (∀ k, k ≠ q → u.eq k = s.eq k)
      ∧ (u.port p).replay = (s.port p).replay ++ [((s.port p).txSeq, f.bytes)] ∧ (u.port p).txSeq = ((s.port p).txSeq + 1) % 2 ^ 16
      ∧ (u.port p).credit = (s.port p).credit.set (fClass f.bytes) ((s.port p).credit.getD (fClass f.bytes) 0 - fUnits f.bytes)
      ∧ u.out.length = s.out.length + 1 ∧ u = { w with csr := u.csr, egr := u.egr, fab := u.fab, out := u.out } := by
  have hready : s.subUp p = true := by
    rw [State.subUp, if_pos (by omega)]
    exact hup
  have hexec := exec_egressFrameStart_ready hlive (by omega) hready hfree
  rw [← hw, State.startFrame_starts hpass hpick hhead, if_pos hp] at hexec
  obtain ⟨hframes, hothers, -, -, -, hstarted⟩ := w.frameStarted_spec p q b f
  generalize w.frameStarted p q b f = a at *
  obtain ⟨hreplay, hseq, hcredit, hout, hsent⟩ := a.linkSend_spec p f.bytes
  generalize a.linkSend p f.bytes = c at *
  obtain ⟨l, howed⟩ := c.port_owe f.inPort p f.bytes
  have howe := c.owe_frame f.inPort f.bytes
  generalize c.owe f.inPort f.bytes = d at *
  obtain ⟨hports, htouched⟩ := d.touchTx_frame f.bytes
  generalize d.touchTx f.bytes = u at *
  have hport : u.port p = { c.port p with owed := l } := by
    rw [← howed, State.port, hports]
    rfl
  have haport : a.port p = s.port p := (congrArg (fun v => State.port v p) hstarted).trans (by rw [hw]; rfl)
  have hall : u = { a with csr := u.csr, fab := u.fab, out := u.out } := by
    rw [htouched, howe, hsent]
  have hqueues : ∀ k, u.eq k = a.eq k := fun k => (congrArg (fun v => State.eq v k) hall).trans rfl
  have houts : u.out = c.out := by
    rw [htouched, howe]
  have haout : a.out = s.out := (congrArg State.out hstarted).trans (by rw [hw]; rfl)
  have hswq : ∀ k, w.eq k = s.eq k := fun k => by
    rw [hw]
    rfl
  rw [haport] at hreplay hseq hcredit
  refine ⟨u, hexec, ?_, fun k hk => ?_, ?_, ?_, ?_, ?_, ?_⟩
  · rw [hqueues, hframes, hswq]
  · rw [hqueues, hothers k hk, hswq]
  · rw [hport]
    exact hreplay
  · rw [hport]
    exact hseq
  · rw [hport]
    exact hcredit
  · rw [houts, hout, haout]
  · rw [hall, hstarted]

/-- Settles O43: what starts on a sub-port is proved from the pick of its scheduler, for access ports and for links; gates and links of
access ports are writes of their registers, with the queues of a sub-port emptied as they are listed. -/
theorem egressAndAccessLinks : Obligations.EgressAndAccessLinks :=
  ⟨fun _ _ _ _ _ _ _ hlive hlow hhigh hup hw hfree hpass hpick hhead =>
      exec_egressFrameStart_access hlive hlow hhigh hup hw hfree hpass hpick hhead,
    fun _ _ _ _ _ _ _ hlive hp hup hw hfree hpass hpick hhead => exec_egressFrameStart_link hlive hp hup hw hfree hpass hpick hhead,
    fun _ _ _ hlive hp hup hfree hnone => exec_egressFrameStart_idle hlive hp hup hfree hnone,
    fun _ _ _ _ _ _ hlive hlow hhigh hup hw hfree hone hhead hheld helig hguard hpick =>
      exec_egressFrameStart_held hlive hlow hhigh hup hw hfree hone hhead hheld helig hguard hpick,
    fun _ _ _ _ _ _ hlive hsub hnow => exec_gateIntervalStart_interval hlive hsub hnow,
    fun _ _ _ hlive hsub hnow => exec_gateIntervalStart_open hlive hsub hnow,
    fun _ _ hlive hlow hhigh hlane => exec_accessLinkUp_shows hlive hlow hhigh hlane,
    fun _ _ hlive hlow hhigh => exec_accessLinkDown_discards hlive hlow hhigh⟩

end Sys2Proof.Machine
end
